-- ==== Sys2Proof/Word.lean ====
section
/-! DEFINITION. The word types of the register files and of memory (R6, R8: 8-bit bytes, 32-bit registers, 64-bit
counters and time). -/

namespace Sys2Proof

/-- One byte of a memory. -/
abbrev Byte := BitVec 8
/-- One 32-bit register. -/
abbrev Word := BitVec 32
/-- One 64-bit counter, time or shifted scan value. -/
abbrev DWord := BitVec 64

end Sys2Proof
end

