-- ==== Sys2Proof/Syntax.lean ====
section
/-! DEFINITION. The commands of the hub, one constructor for each row of the opcode table, with what each takes from
outside: a register value, a frame's place, data that arrives, or the verdict of a cryptographic check (log entry 8). -/

namespace Sys2Proof

/-- What a boot meets outside the hub: whether the NOR answers (R139), and the dump-store size in units of 512 MiB. -/
structure BootView where
  norOk : Bool
  dsSize : Nat
  deriving DecidableEq, Repr

/-- What the hub core meets when it carries out a lifecycle request (R176, R183, R184, R188): the fuse bits that do not take,
and, if power is lost or PWR_WARN_N falls meanwhile, how many bits were burned before. A fuse bit is named by its field,
0 SECRET, 1 IKEY_HASH, 2 IKEY_DONE, 3 the lifecycle groups, and its place. -/
structure LcsView where
  stuck : List (Nat × Nat)
  cut : Option Nat
  deriving DecidableEq, Repr

/-- What the hub core meets when it installs a certificate (R203, R213): the bits of REVOKE_FLOOR that do not take, and, if
power is lost or PWR_WARN_N falls meanwhile, how many were burned before. -/
structure CertView where
  stuck : List Nat
  cut : Option Nat
  deriving DecidableEq, Repr


/-- A command: one row of the opcode table. -/
inductive Instr where
  /-- R84: Three consecutive low samples of POR_N reset the hub; the third high sample after that ends the reset. -/
  | powerOnReset (done : Bool) (straps : Nat) (pulls : Nat)
  /-- R134: A boot runs the boot stages from FUSES to DONE, started by a power-on reset, a wake from OFF or a REBOOT. -/
  | boot (v : BootView)
  /-- R108: The PLL locks within 20 µs of being enabled, and the fast-domain clocks are ungated. -/
  | pllLock
  /-- R133: After DONE the hub core writes a boot-count record holding the new count. -/
  | bootCountRecord
  /-- R145: As background work the hub core erases the sector after the newest last-gasp record when it is not erased. -/
  | lastGaspErase
  /-- R131: A write of 1 to LCS_BOOT_CTRL.REBOOT resets the fast domain and starts a boot. -/
  | reboot
  /-- R131: PERST_N resets the endpoint, rings, sync counters, event queues, HTU and MSI-X, discarding host-memory operations. -/
  | perstN
  /-- R131: A function-level reset has the same reach as PERST_N. -/
  | functionLevelReset
  /-- R278: A Data Link Layer transition to DL_Down disables every ring and resets ring registers and counters as PERST_N does. -/
  | dlDown
  /-- R218: TRST_N low, or five TCK rises with TMS high, puts the TAP in Test-Logic-Reset with IDCODE loaded. -/
  | testLogicReset
  /-- R314: A physical line's glitch-filter output takes a new level after FILTER consecutive samples at that level. -/
  | lineChange (n : Nat) (high : Bool) (samples : Nat) (stamp : Nat)
  /-- R118: An enabled wake event or a host access seen at an AON edge starts the return of a sleeping hub to RUN. -/
  | wake
  /-- R121: Strokes may start once the wake time of the state left has passed. -/
  | wakeComplete
  /-- R118: PWR_TIMER reaching 0 on an AON tick is a TIMER event. -/
  | pwrTimerExpiry
  /-- R128: Loss of PLL lock in RUN or IDLE gates the fast-domain clocks and sets PWR_EVENTS.PLL_UNLOCK. -/
  | pllUnlock
  /-- R117: At the commit edge a posted sleep request commits, or aborts if an enabled wake event is held. -/
  | sleepCommit
  /-- R117: At tick 2 the dump store enters self-refresh, the chains idle, the endpoint requests L1 and the PLL stops. -/
  | dozeEntry
  /-- R117: At tick 3 the fast-domain power switches open and STATE becomes OFF. -/
  | offEntry
  /-- R444: Activation of line 17 starts survival, serving only the store dump and the last-gasp write. -/
  | survivalStart
  /-- R445: Deactivation of line 17 ends survival and returns other work items to eligibility. -/
  | survivalEnd
  /-- R98: When no survival-served dump remains RUNNING the hub writes the last-gasp record to the NOR. -/
  | lastGaspWrite
  /-- R56: At the end of an engine's slot the arbiter gives it the first eligible work item, whose stroke then begins. -/
  | arbiterDecision (e : Nat)
  /-- R63: A stroke waiting at a full bound yields when YIELD_WAIT hub cycles pass without a usable slot. -/
  | strokeYield (e : Nat)
  /-- R58: The scan guard fires when the scan ring's work item has waited SCAN_GUARD strokes. -/
  | scanGuardFire
  /-- R54: An issued operation completes, releasing its slot and making a waiting work item eligible. -/
  | operationComplete (id : Nat) (data : List Byte) (ok : Bool)
  /-- R52: The hub core finishes a posted request and the descriptor becomes eligible again. -/
  | hubCoreRequestDone
  /-- R176: The hub core checks a lifecycle request and carries out the transition, burning fuses. -/
  | lcsTransition (v : LcsView)
  /-- R203: The hub core checks a Rights Certificate and installs it, raising the floor if asked. -/
  | certCheckInstall (v : CertView)
  /-- R167: The background wipe of RETURNED erases the user partition and zeroes the dump store, then burns RET_WIPED. -/
  | returnedWipe (stuck : Nat)
  /-- R258: A descriptor fetch read completes and the fetched descriptors are held for the ring. -/
  | descriptorFetch (r : Nat) (data : List Byte) (ok : Bool)
  /-- R266: A completion record's write is transmitted; HEAD advances and FLAGS.SIGNAL and NOTIFY act in the next cycle. -/
  | completionTransmitted (r : Nat)
  /-- R257: A doorbell write is checked for ring pointer sanity and, if accepted, sets TAIL. -/
  | doorbell (r : Nat) (v : Nat)
  /-- R255: Writing RNG_CTRL.ENABLE = 1 to a DISABLED ring resets HEAD, TAIL, PHASE and DONE_CNT and makes it IDLE. -/
  | ringEnable (r : Nat)
  /-- R282: Writing RNG_CTRL.ENABLE = 0 drains the ring and completes its work item with PARTIAL or its own status. -/
  | ringDisable (r : Nat)
  /-- R267: A write to the read-and-set window sets a sync counter or one half of it. -/
  | synSet (off : Nat) (size : Nat) (v : Nat)
  /-- R267: A write to the add window adds to a sync counter atomically. -/
  | synAdd (off : Nat) (size : Nat) (v : Nat)
  /-- R267: A 4-byte read at +0 of a counter returns bits [31:0] and loads that counter's high-half latch. -/
  | synReadLo (k : Nat) (size : Nat)
  /-- R27: A read of a LO register returns it and latches the matching HI register. -/
  | hiLatchRead (off : Nat) (size : Nat)
  /-- R8: A write to a register with no row of its own acts as its access code gives. -/
  | registerWrite (off : Nat) (size : Nat) (v : Nat)
  /-- R65: Writing HUB_STAT_CLR.STALLS clears the stall counters. -/
  | hubStatClrStalls
  /-- R65: Writing HUB_STAT_CLR.YIELDS clears HUB_YIELD_CNT. -/
  | hubStatClrYields
  /-- R65: Writing HUB_STAT_CLR.LATENCY clears the latency maxima. -/
  | hubStatClrLatency
  /-- R65: Writing HUB_STAT_CLR.STROKES clears the stroke count. -/
  | hubStatClrStrokes
  /-- R180: Writing LCS_NONCE_CTRL.NEW draws a new 128-bit nonce and sets VALID. -/
  | nonceNew
  /-- R305: Writing HTU_CTRL.ENABLE = 1 starts translation with an empty TLB and cleared statistics. -/
  | htuEnable
  /-- R305: Writing HTU_CTRL.ENABLE = 0 empties the TLB and makes every later translation fault with DISABLED. -/
  | htuDisable
  /-- R298: An HTU_RESOLVE with ACTION RESUME frees a PARKED entry and lets its owner reissue from the cursor. -/
  | htuResume (n : Nat) (gen : Nat)
  /-- R298: An HTU_RESOLVE with ACTION ABORT frees a PARKED entry and ends its owner's operation as Table 10.4 gives. -/
  | htuAbort (n : Nat) (gen : Nat)
  /-- R291: A walk read of a table entry completes, and the walk continues, fills a TLB entry or faults. -/
  | walkReadComplete (id : Nat) (entry : Nat) (err : Bool)
  /-- R316: Writing 1 to a CAR_PEND_SET bit makes the source pending and ready. -/
  | carPendSet (m : Nat) (bits : Nat)
  /-- R317: Writing 1 to a CAR_PEND_CLR bit clears the source's pending latch and readiness. -/
  | carPendClr (m : Nat) (bits : Nat)
  /-- R321: A write to CAR_Q_EOI naming the source in service ends its service. -/
  | carQEoi (q : Nat) (n : Nat)
  /-- R323: CAR_Q_RECOVER with ACTION KEEP unfreezes the queue and keeps the source in service. -/
  | carQRecoverKeep (q : Nat)
  /-- R323: CAR_Q_RECOVER with ACTION RELEASE unfreezes the queue and releases the source in service. -/
  | carQRecoverRelease (q : Nat)
  /-- R328: A write to CAR_Q_HEAD is checked and, if accepted, advances HEAD over transmitted records. -/
  | carQHead (q : Nat) (v : Nat)
  /-- R332: Writing CAR_Q_CTRL.ENABLE = 1 resets HEAD, TAIL, the issue index, PHASE, SEQ and the statistics. -/
  | carQEnable (q : Nat) (irqEn : Bool)
  /-- R335: Writing CAR_Q_CTRL.ENABLE = 0 stops new selections while issued records are transmitted. -/
  | carQDisable (q : Nat) (irqEn : Bool)
  /-- R314: A write to CAR_LINE_n changes FILTER or POLARITY from the next AON edge, activating the source if the level becomes active. -/
  | carLineWrite (n : Nat) (v : Nat)
  /-- R319: A free, enabled queue takes its lowest ready unmasked source into service and issues its record write. -/
  | queueSelect (q : Nat)
  /-- R329: An event record write is transmitted, advancing TAIL and requesting the MSI-X vector. -/
  | recordTransmitted (q : Nat)
  /-- R316: A pending source becomes ready when an AON edge reaches FIRST plus COAL_TIME. -/
  | coalTimeReady (n : Nat)
  /-- R497: Writing TRC_CTRL.SOFT_TRIG fires a SOFT trace trigger. -/
  | softTrig
  /-- R514: Writing TRC_CTRL.ENABLE = 0 stops an armed trace as TRACE_STOP does, with STOP CODE DISABLE. -/
  | traceDisable
  /-- R501: Writing TRC_TOUT_CTRL.FIRE is a TRIG_OUT event of source FIRE. -/
  | toutFire
  /-- R501: The TRIG_OUT pulse ends at the first AON edge WIDTH µs after the latest event. -/
  | toutPulseEnd
  /-- R464: Writing DMP_CTRL.ENABLE = 0 stops new reads and finishes each open SDF as INCOMPLETE. -/
  | dumpDisable
  /-- R269: NOP completes with OK in 1 st. -/
  | nop (e : Nat)
  /-- R270: WAIT holds its ring until a counter or host word meets a condition or TIMEOUT runs out. -/
  | wait (e : Nat)
  /-- R272: SIGNAL sets or adds to a counter, or writes a host word. -/
  | signal (e : Nat)
  /-- R273: FENCE records the tails of a range of rings and waits until each has passed them. -/
  | fence (e : Nat)
  /-- R400: PEAL makes a stop request on each chain of its mask, optionally completing after confirmation. -/
  | peal (e : Nat)
  /-- R401: TOLL arms a fabric-wide halt at a time, on a trigger, or disarms it. -/
  | toll (e : Nat)
  /-- R402: MUFFLE writes the selection and a GO with ACTION HALT to each selected chip. -/
  | muffle (e : Nat)
  /-- R403: RESUME writes the selection and a GO with ACTION RESUME, optionally timed, to each selected chip. -/
  | resume (e : Nat)
  /-- R404: STEP_CORE steps one core in MONITOR by one instruction and waits for its return. -/
  | stepCore (e : Nat)
  /-- R405: STEP_ENGINE steps one MUFFLED or FORCED engine by one command and waits for it. -/
  | stepEngine (e : Nat)
  /-- R406: BREAK_SET writes and enables a breakpoint, watchpoint or comparator in each selected unit. -/
  | breakSet (e : Nat)
  /-- R407: BREAK_CLEAR writes CTRL = 0 to the chosen comparator slots of each selected unit. -/
  | breakClear (e : Nat)
  /-- R426: CUT_COLLECT checks the halted fabric, drains, muffles links, reads ledgers and writes the cut. -/
  | cutCollect (e : Nat)
  /-- R449: READ_REG reads chip registers or context words through the monitor. -/
  | readReg (e : Nat)
  /-- R450: WRITE_REG writes one chip register or context word. -/
  | writeReg (e : Nat)
  /-- R451: READ_MEM moves a chip or hub memory range to host memory. -/
  | readMem (e : Nat)
  /-- R451: WRITE_MEM moves host memory into a chip or hub memory range. -/
  | writeMem (e : Nat)
  /-- R151: INSTALL_MONITOR writes the active monitor copy into the monitor area of the selected cores. -/
  | installMonitor (e : Nat)
  /-- R452: DUMP_PLAN reads region entries into a plan slot, or empties it. -/
  | dumpPlan (e : Nat)
  /-- R454: DUMP_RUN runs a plan into an SDF in host memory, the dump store or both, or arms it for survival. -/
  | dumpRun (e : Nat)
  /-- R470: DUMP_TENSOR resolves a tensor through a shard map and writes it unsharded into an SDF. -/
  | dumpTensor (e : Nat)
  /-- R455: DUMP_RESUME resumes a SUSPENDED dump from the section its cursor names. -/
  | dumpResume (e : Nat)
  /-- R456: DUMP_ABORT ends a dump as INCOMPLETE, or disarms the survival dump. -/
  | dumpAbort (e : Nat)
  /-- R457: STORE_DRAIN copies dump-store blocks to host memory, or opens a sealed SDF with OPEN. -/
  | storeDrain (e : Nat)
  /-- R507: TRACE_ARM empties the trace region and turns on the taps of the chips in range. -/
  | traceArm (e : Nat)
  /-- R508: TRACE_STOP stops the taps and waits for every armed chip to flush. -/
  | traceStop (e : Nat)
  /-- R509: TRACE_DRAIN copies records from the head of the output sequence to host memory or the dump store. -/
  | traceDrain (e : Nat)
  /-- R510: COUNTER_SNAP latches the counters of chips in range, optionally at a time, and writes their shadows. -/
  | counterSnap (e : Nat)
  /-- R355: DISCOVER trains chains, assigns fabric addresses, reads link tables and builds the topology. -/
  | discover (e : Nat)
  /-- R365: TIME_ALIGN probes each ADDRESSABLE chip and records its fabric-time error. -/
  | timeAlign (e : Nat)
  /-- R364: CHAIN_ENABLE trains and enables the selected chains, or disables them. -/
  | chainEnable (e : Nat)
  /-- R178: LCS_REQUEST reads a lifecycle request and posts it to the hub core. -/
  | lcsRequest (e : Nat)
  /-- R204: CERT_INSTALL reads a Rights Certificate and posts it to the hub core. -/
  | certInstall (e : Nat)
  /-- R205: CERT_DROP drops one certificate or all of them. -/
  | certDrop (e : Nat)
  /-- R113: SLEEP checks quiescence, flushes queues and posts a request to enter IDLE, DOZE or OFF. -/
  | sleep (e : Nat)
  /-- R304: HTU_INVALIDATE removes covered TLB entries and waits for operations through them. -/
  | htuInvalidate (e : Nat)
  /-- R484: SHARD_INVALIDATE removes covered shard-cache entries. -/
  | shardInvalidate (e : Nat)
  /-- R149: FW_STAGE reads, verifies and programs a firmware image or activates a monitor image. -/
  | fwStage (e : Nat)
  /-- R271: A WAIT with SOURCE 1 issues its next host-word read POLL µs after the previous read completes. -/
  | waitPoll (w : Nat)
  /-- R271: A WAIT whose TIMEOUT runs out completes with TIMEOUT. -/
  | waitTimeout (w : Nat)
  /-- R273: A FENCE whose TIMEOUT runs out completes with TIMEOUT. -/
  | fenceTimeout (w : Nat)
  /-- R350: A Bihevan transaction with no response after BHV_TXN_TIMEOUT ends with TIMEOUT and its tag is quarantined. -/
  | transactionTimeout (k : Nat) (tag : Nat)
  /-- R40: After an odd or changed EPOCH the shard-map read waits 1 st and reads EPOCH again. -/
  | smapEpochRetry (w : Nat)
  /-- R436: The hub polls MBX_STATUS.OUT_FULL every 1 µs for a monitor reply, ending with TIMEOUT after 50 µs. -/
  | monitorReplyPoll (w : Nat)
  /-- R404: The chain controller reads a stepped unit's status every 1 µs until it returns or the step times out. -/
  | stepPoll (w : Nat)
  /-- R387: Chain controllers read WDA_HALT 1 µs after a stop instant and after each read, then report HALT. -/
  | confirmationRead (f : Nat)
  /-- R416: A covered chip not yet stopped is re-read 1 µs after the previous read, up to ten reads. -/
  | cutStoppedPoll (f : Nat)
  /-- R418: Chain controllers re-read each chip's halt picture every 1 µs until all its engines are still. -/
  | drainPoll
  /-- R418: At the drain deadline WDA_FORCE is written to every covered chip with an engine not still. -/
  | drainDeadline
  /-- R419: Chain controllers poll WDA_LINK_0–11 every 1 µs until every awaited link is MUFFLED. -/
  | linkPoll
  /-- R419: When LINK_LIMIT passes after the muffle writes, links not MUFFLED are recorded as they stand. -/
  | linkLimitExpiry
  /-- R355: DISCOVER reads the chips 20 µs after the last WRITE_ACK of its address assignments. -/
  | discoverSettle (w : Nat)
  /-- R508: A TRACE_STOP whose TIMEOUT runs out completes with TIMEOUT while trace stays FLUSHING. -/
  | traceStopTimeout (w : Nat)
  /-- R509: A waiting TRACE_DRAIN whose TIMEOUT runs out copies what is present. -/
  | traceDrainTimeout (w : Nat)
  /-- R497: Hub fabric time reaching TRIG_TIME fires a TIME trace trigger. -/
  | traceTimeTrigger
  /-- R498: When hub fabric time reaches Tt plus POST_NS the capture stops as TRACE_STOP does. -/
  | captureEnd
  /-- R384: At T by hub fabric time the hub makes a stop request for every chain of the toll. -/
  | tollBackupStop
  /-- R378: A stop pulse rises at the first AON edge STOP_PULSE µs after the latest stop request. -/
  | stopPulseEnd (k : Nat)
  /-- R403: At AT a timed RESUME with ALL_UNITS raises each reached low STOP_N_OUT_k. -/
  | timedStopRaise
  /-- R356: At each multiple of 1,000,000 ns the hub sends a sync symbol on every usable chain. -/
  | syncSymbol
  /-- R358: A chip applies a received sync symbol by stepping or slewing its fabric time. -/
  | syncApply (f : Nat)
  /-- R343: A hop comes up, making the chain UP or extending REACH. -/
  | hopUp (k : Nat) (p : Nat) (ps : Nat)
  /-- R344: A hop fails on loss of block lock or eight replays, lowering REACH or putting the chain DOWN. -/
  | hopFail (k : Nat) (p : Nat)
  /-- R344: A hop that did not come up is retried every 1 ms. -/
  | hopRetry (k : Nat)
  /-- R343: Training stops at a position that does not answer within 500 µs, or makes the chain EMPTY. -/
  | trainingTimeout (k : Nat)
  /-- R347: A READ_DATA response completes a read transaction and frees its tag. -/
  | readData (k : Nat)
  /-- R347: A WRITE_ACK completes a write transaction and frees its tag. -/
  | writeAck (k : Nat)
  /-- R353: A NACK ends its transaction with CHIP_ABSENT. -/
  | nack (k : Nat)
  /-- R352: An accepted ALERT frame activates the chip's fabric source or CHAIN_k and is acknowledged. -/
  | alert (k : Nat) (p : Nat)
  /-- R495: A TRACE frame's records enter the staging ring or windows. -/
  | trace (k : Nat)
  /-- R365: A PROBE_STAMP gives a chip's fabric time at its probe's arrival, recorded in BHV_FT_ERR. -/
  | probeStamp (k : Nat)
  /-- R349: A frame whose CRC fails is discarded and replayed by the hop. -/
  | frameCrcFail (k : Nat) (p : Nat) (upstream : Bool)
  /-- R347: A WDA answers a READ frame with READ_DATA. -/
  | read (k : Nat)
  /-- R347: A WDA performs a WRITE frame and answers with WRITE_ACK. -/
  | write (k : Nat)
  /-- R351: An ALERT_ACK releases the acknowledged alert held in the WDA. -/
  | alertAck (k : Nat)
  /-- R365: A WDA answers a PROBE with PROBE_STAMP. -/
  | probe (k : Nat)
  /-- R381: A fall of any STOP_N_IN_k makes a stop request for every chain in RELAY_MASK. -/
  | stopRelay (k : Nat)
  /-- R95: A fall of a chip's stop input after it was first seen high halts the chip as a peal. -/
  | chipStopInputFall (f : Nat)
  /-- R95: A chip's stop input first seen high ends its reset hold and releases HELD cores. -/
  | resetHoldEnd (f : Nat)
  /-- R383: A chip's fabric time reaching its armed T stops the chip with cause TOLL. -/
  | tollFire (f : Nat)
  /-- R389: A pending timed GO acts when the chip's fabric time reaches its latched time. -/
  | timedAction (f : Nat)
  /-- R393: A breakpoint, watchpoint or comparator match halts the unit and widens the halt by its reach. -/
  | hit (f : Nat) (engine : Bool) (n : Nat) (src : Nat) (pc : Nat) (first : Bool)
  /-- R375: A core with a pending halt enters MONITOR at its next instruction boundary. -/
  | coreDebugEntry (f : Nat) (n : Nat) (pc : Nat)
  /-- R42: An engine's command completes; a muffling engine then enters MUFFLED. -/
  | engineCommandComplete (f : Nat) (e : Nat)
  /-- R391: A stepped core finishes its instruction and returns to MONITOR with cause STEP. -/
  | coreStepEnd (f : Nat) (n : Nat) (pc : Nat)
  /-- R353: A Wonos chip resets, its link layer sends a RESET alert and NACKs transactions. -/
  | chipReset (f : Nat)
  /-- R353: The WDA leaves reset and sends a READY alert. -/
  | chipReady (f : Nat)
  /-- R351: A WDA raises an alert, pulling ALERT_N_k and holding it for sending. -/
  | alertRaise (f : Nat) (cause : Nat) (u : Nat) (info : Nat)
  /-- R388: A WDA_RC_GO with ACTION HALT halts the selected units with cause MUFFLE. -/
  | rcGoHalt (f : Nat) (timed : Bool) (all : Bool)
  /-- R388: A WDA_RC_GO with ACTION RESUME resumes the selected halted units. -/
  | rcGoResume (f : Nat) (timed : Bool) (all : Bool)
  /-- R383: A write of WDA_TOLL_CTRL.ARM = 1 latches T and arms the chip's toll, or fires at once if T has passed. -/
  | tollArm (f : Nat)
  /-- R418: A write of WDA_FORCE makes every MUFFLING engine FORCED. -/
  | wdaForce (f : Nat)
  /-- R419: A write of WDA_LINK_MUFFLE muffles the chip's data-fabric links. -/
  | wdaLinkMuffle (f : Nat) (mask : Nat)
  /-- R391: A write of CORE_STEP steps a core in MONITOR by one instruction. -/
  | coreStep (f : Nat) (n : Nat)
  /-- R392: A write of ENG_STEP steps a MUFFLED or FORCED engine by one command. -/
  | engStep (f : Nat) (e : Nat)
  /-- R397: A hub write to MBX_IN sets IN_FULL and raises the core's mailbox interrupt. -/
  | mbxIn (f : Nat) (n : Nat) (v : Word)
  /-- R397: A core write to MBX_OUT sets OUT_FULL and sends a MAILBOX alert. -/
  | mbxOut (f : Nat) (n : Nat) (v : Word)
  /-- R502: A WDA_CNT_CTRL LATCH copies the live counters into the shadow, clearing them if asked. -/
  | counterLatch (f : Nat) (clear : Bool)
  /-- R502: A pending timed latch takes place when the chip's fabric time reaches WDA_CNT_AT. -/
  | timedLatch (f : Nat)
  /-- R506: A write of TAP_EN = 0 stops the taps and sends out the FIFO ending with FLUSHED. -/
  | tapEnOff (f : Nat) (v : Nat)
  /-- R506: A write of TAP_EN = 1 turns the taps on and restarts SEQ. -/
  | tapEnOn (f : Nat) (v : Nat)
  /-- R491: A tap produces a BEGIN, END or ABANDON record at an engine's command boundary. -/
  | tapRecord (f : Nat)
  /-- R493: A pending gap enters the FIFO as soon as a slot is free. -/
  | gapRecordEntry (f : Nat)
  /-- R494: The WDA sends its oldest records in a TRACE frame when a trace slot is granted. -/
  | traceFrameSend (f : Nat)
  /-- R220: Capture-IR loads the fixed bits with DENIED, FAST_UP and READY. -/
  | captureIr
  /-- R224: Loading EXTEST makes the boundary outputs follow their update latches. -/
  | extest (load : Bool) (pads : BitVec 76) (update : BitVec 76)
  /-- R224: Loading CLAMP holds the boundary outputs at their latches with the bypass register selected. -/
  | clamp
  /-- R223: SAMPLE/PRELOAD captures the pads and loads the update latches without changing a pad. -/
  | samplePreload (pads : BitVec 76) (update : BitVec 76)
  /-- R222: IDCODE selects the identification register, which captures 0x0C4D_1A3B. -/
  | idcode
  /-- R219: BYPASS, and every unlisted code, selects the bypass register. -/
  | bypass
  /-- R228: Loading HUBSTAT selects the hub status register. -/
  | hubstat
  /-- R229: A Capture-DR of HUBSTAT loads the status and clears SCAN_LOST and SRING_DROP. -/
  | hubstatCapture
  /-- R230: Loading HUBCMD selects the scan-ring register. -/
  | hubcmd
  /-- R230: A Capture-DR of HUBCMD loads the oldest unpopped completion word and slot counts. -/
  | hubcmdCapture
  /-- R231: POP at Update-DR frees the slot of the completion captured in this scan. -/
  | hubcmdPop
  /-- R231: POST at Update-DR posts DESC into a free scan-ring slot with the next SEQ. -/
  | hubcmdPost (desc : BitVec 512)
  /-- R238: Loading DBGREG selects the BAR 0 access register. -/
  | dbgreg
  /-- R238: GO without WRITE judges and performs a 32-bit BAR 0 read. -/
  | dbgregRead (off : Nat)
  /-- R238: GO with WRITE judges and performs a 32-bit BAR 0 write. -/
  | dbgregWrite (off : Nat) (v : Nat)
  /-- R238: A Capture-DR of DBGREG loads RDATA, DONE, DENIED and ASLEEP of the last GO. -/
  | dbgregCapture
  /-- R236: Loading DUMP_READ is judged for FULL on HUB and selects the dump-store read register. -/
  | dumpRead
  /-- R237: START sets the cursor and count, draws a sealing SALT where needed and buffers the block. -/
  | dumpReadStart (first : Nat) (count : Nat)
  /-- R237: REPEAT leaves the cursor on the same block. -/
  | dumpReadRepeat
  /-- R237: An update after a VALID capture advances the cursor by one block. -/
  | dumpReadAdvance
  /-- R237: A Capture-DR of DUMP_READ loads the block at the cursor with its flags and CRC. -/
  | dumpReadCapture
  /-- R234: Loading LCS_REQ selects the lifecycle request register. -/
  | lcsReq
  /-- R234: SUBMIT posts a hub-core request for the shifted lifecycle request. -/
  | lcsReqSubmit (data : BitVec 2048)
  /-- R234: NEW_NONCE without SUBMIT draws a nonce as LCS_NONCE_CTRL.NEW does. -/
  | lcsReqNewNonce
  /-- R234: A Capture-DR of LCS_REQ loads LCS_REQ_STATUS, LCS_STATE and the nonce from the AON domain. -/
  | lcsReqCapture
  /-- R235: Loading CERT_LOAD selects the certificate register. -/
  | certLoad
  /-- R235: SUBMIT posts a hub-core request to check and install the shifted certificate. -/
  | certLoadSubmit (data : BitVec 4096)
  /-- R235: A Capture-DR of CERT_LOAD loads AUTH_CERT_STATUS and AUTH_CERT_SLOTS. -/
  | certLoadCapture
  /-- R19: A core loads a stream onto an engine, which sets LAST_DONE to 0xFFFF_FFFF and starts the engine on command 0 unless it is halted. -/
  | streamLoad (f : Nat) (e : Nat) (id : Nat) (n : Nat)
  /-- R280: The PCIe completion timeout of a host read expires, releasing its slot and ending the read in error. -/
  | completionTimeout (id : Nat)
  /-- R106: Auxiliary hold-up ends during survival and the rails fall while POR_N is high, leaving every output high-impedance and any store SDF OPEN. -/
  | holdUpEnd
  /-- R510: Hub fabric time passes AT for a timed COUNTER_SNAP, which then reads each chip's WDA_CNT_CTRL until PENDING is 0. -/
  | snapAtPassed (w : Nat)
  deriving DecidableEq, Repr

end Sys2Proof
end

