-- ==== Sys2Proof/Machine/Tab.lean ====
section
/-! DEFINITION. Sparse tables in one canonical form (keys strictly rising, no entry equal to the default), byte
memories over them, and the bit-field helpers every register uses. -/

namespace Sys2Proof.Machine

/-- A sparse table: what a key that is not listed holds is a default fixed by the table's owner. -/
abbrev Tab (α : Type) := List (Nat × α)

/-- What key `n` holds. -/
def tget {α : Type} (d : α) : Tab α → Nat → α
  | [], _ => d
  | (k, v) :: t, n => if n = k then v else tget d t n

/-- Write `v` at key `n`: the entry goes between the keys below and above it, and the default is not listed. -/
def tput {α : Type} [DecidableEq α] (d : α) (t : Tab α) (n : Nat) (v : α) : Tab α :=
  t.filter (fun p => p.1 < n) ++ (if v = d then [] else [(n, v)]) ++ t.filter (fun p => n < p.1)

/-- Change what key `n` holds. -/
def tmod {α : Type} [DecidableEq α] (d : α) (t : Tab α) (n : Nat) (f : α → α) : Tab α :=
  tput d t n (f (tget d t n))

/-- Change every key of a range `lo, …, lo + cnt − 1`. -/
def tmodRange {α : Type} [DecidableEq α] (d : α) (t : Tab α) (lo cnt : Nat) (f : Nat → α → α) : Tab α :=
  (List.range cnt).foldl (fun u i => tput d u (lo + i) (f (lo + i) (tget d u (lo + i)))) t

/-- The canonical form: keys strictly rising and no entry equal to the default. -/
def twf {α : Type} [DecidableEq α] (d : α) : Tab α → Bool
  | [] => true
  | (k, v) :: t => decide (v ≠ d) && (match t with | [] => true | (k', _) :: _ => decide (k < k')) && twf d t

/-- Bits `[lo + w − 1 : lo]` of a number. -/
def fld (x lo w : Nat) : Nat := (x >>> lo) % 2 ^ w
/-- One bit of a number. -/
def bit (x lo : Nat) : Bool := x.testBit lo
/-- A Bool as a bit. -/
def b2n (b : Bool) : Nat := if b then 1 else 0
/-- A value placed in a field of width `w` at bit `lo`. -/
def place (v lo w : Nat) : Nat := (v % 2 ^ w) <<< lo
/-- Bits `[lo + w − 1 : lo]` of `x` replaced by `v`. -/
def setFld (x lo w v : Nat) : Nat := x - place (fld x lo w) lo w + place v lo w
/-- A mask of 32 or more flags as a number, bit `i` from `p i`. -/
def maskOf (n : Nat) (p : Nat → Bool) : Nat := (List.range n).foldl (fun a i => a + place (b2n (p i)) i 1) 0
/-- The low half of a 64-bit value. -/
def lo32 (x : Nat) : Nat := x % 2 ^ 32
/-- The high half of a 64-bit value. -/
def hi32 (x : Nat) : Nat := (x >>> 32) % 2 ^ 32
/-- A counter that stops at its highest value. -/
def satAdd (x n w : Nat) : Nat := Nat.min (x + n) (2 ^ w - 1)
/-- Round a division up. -/
def cdiv (a b : Nat) : Nat := (a + b - 1) / b

/-- A byte memory: unlisted bytes read as 0 (log entry 3). -/
abbrev Mem := Tab Byte

/-- One byte. -/
def mget (m : Mem) (a : Nat) : Byte := tget 0 m a
/-- Store one byte. -/
def mput (m : Mem) (a : Nat) (b : Byte) : Mem := tput 0 m a b
/-- `n` bytes from address `a` upward. -/
def mread (m : Mem) (a n : Nat) : List Byte := (List.range n).map (fun i => mget m (a + i))
/-- Store a run of bytes from `a` upward. -/
def mwrite (m : Mem) (a : Nat) : List Byte → Mem
  | [] => m
  | b :: bs => mwrite (mput m a b) (a + 1) bs
/-- A little-endian number from bytes (R6). -/
def leNat : List Byte → Nat
  | [] => 0
  | b :: bs => b.toNat + 256 * leNat bs
/-- The `n` little-endian bytes of a number (R6). -/
def leBytes : Nat → Nat → List Byte
  | 0, _ => []
  | n + 1, x => BitVec.ofNat 8 x :: leBytes n (x / 256)
/-- An `n`-byte little-endian value in memory. -/
def mreadNat (m : Mem) (a n : Nat) : Nat := leNat (mread m a n)
/-- Store an `n`-byte little-endian value. -/
def mwriteNat (m : Mem) (a n x : Nat) : Mem := mwrite m a (leBytes n x)
/-- `n` bytes of one value. -/
def zeros (n : Nat) : List Byte := List.replicate n 0

end Sys2Proof.Machine
end

