-- ==== Sys2Proof/Config.lean ====
section
/-! DEFINITION. What an implementation fixes and the spec leaves open: free values (log entry 2) and the cryptographic
and compression functions the spec names but whose tables it does not print (log entry 8). Every free
value is opaque. -/

namespace Sys2Proof.Config

/-- A value the spec leaves open, by its order of drawing. -/
opaque freeValue : Nat → BitVec 64
/-- Bytes of a memory whose contents the spec leaves open, by order of drawing. -/
opaque freeMemory : Nat → List (Nat × BitVec 8)
/-- SHA-384 (FIPS 180-4); byte 0 of the digest lowest. -/
opaque sha384 : List Byte → BitVec 384
/-- HMAC-SHA-384 (FIPS 198-1): key and message. -/
opaque hmac384 : (key : List Byte) → List Byte → BitVec 384
/-- The vendor's public keys, for firmware and for lifecycle requests and certificates, whose hashes the boot ROM holds (R139, R164). -/
opaque vendorFw : Vector Byte 97
opaque vendorLc : Vector Byte 97
/-- The signature that the holder of a vendor key makes of a message. -/
opaque vendorSign : (pub : List Byte) → (msg : List Byte) → Vector Byte 96
/-- Other signatures that ECDSA P-384 verifies. -/
opaque verifies : (pub : List Byte) → (msg : List Byte) → (sig : List Byte) → Bool
/-- ECDSA P-384 verification over SHA-384 (FIPS 186-5): what the holder of a vendor key signs verifies. -/
def ecdsaP384 (pub msg sig : List Byte) : Bool :=
  ((pub == vendorFw.toList || pub == vendorLc.toList) && sig == (vendorSign pub msg).toList) || verifies pub msg sig
/-- AES-256-GCM (NIST SP 800-38D): key, IV, additional data and plain text give cipher text, of which the model takes the plain
text's length, and tag. -/
opaque gcmSeal : (key : List Byte) → (iv : List Byte) → (aad : List Byte) → List Byte → List Byte × BitVec 128
/-- The inverse: plain text, when the tag verifies. -/
opaque gcmOpen : (key : List Byte) → (iv : List Byte) → (aad : List Byte) → List Byte → (tag : List Byte) → Option (List Byte)
/-- The boot ROM's hashes of the vendor firmware key (R139) and of the vendor lifecycle key (R164). -/
def vendorFwKey : BitVec 384 := sha384 vendorFw.toList
def vendorLcKey : BitVec 384 := sha384 vendorLc.toList
/-- An LZ operation stream of R458 that decodes to its input; the encoder's choice of matches is open. -/
opaque lzEncode : List Byte → List Byte
/-- The key of a boot-count record's MAC, derived from the device secret and the unit ID (R146); the derivation is not given. -/
opaque bootKey : (secret : List Byte) → (unit : BitVec 128) → List Byte
/-- Calibrated one-way delay of a hop in picoseconds (R357): chain, position and training number. -/
opaque hopDelay : Nat → Nat → Nat → Nat
/-- The far end of a data-fabric link: fabric position and link, as the board wires them (Table 1.8): chip and link. -/
opaque linkPeer : Nat → Nat → Nat × Nat

end Sys2Proof.Config
end

