-- ==== Sys2Proof/Machine/State.lean ====
section
/-! DEFINITION. The whole state of the hub and of the Wonos chips it serves, as plain data, with what it holds right
after reset, and the reasons a step can stop. -/

namespace Sys2Proof.Machine

/-! ## The Wonos chip as the hub sees it (chapters 1, 13, 14, 17) -/

/-- Engine STATE (R30, Table 1.11). -/
inductive EngState where | idle | running | muffling | muffled | forced
  deriving DecidableEq, Repr

/-- Core STATE (R31, Table 1.12). -/
inductive CoreState where | running | monitor | stepping | held
  deriving DecidableEq, Repr

/-- A code comparator or watchpoint of a core (Tables 13.7, 13.8). -/
structure Comparator where
  addr : Nat := 0
  en : Bool := false
  reach : Nat := 0
  hit : Bool := false
  access : Nat := 3
  size : Nat := 0
  deriving DecidableEq, Repr

/-- A sequencer core and its debug window (R31, R391, R393, R396, R397, R436). -/
structure Core where
  state : CoreState := .running
  cause : Nat := 0
  /-- HALT causes that reached the core before its next instruction boundary (R377). -/
  pend : List Nat := []
  pc : Nat := 0
  /-- An INSTALL_MONITOR has written the whole monitor area since the chip's last reset (R22). -/
  monitor : Bool := false
  /-- The address at which an instruction breakpoint halted the core (R393), until its next resume. -/
  brkAt : Option Nat := none
  /-- The address whose breakpoint does not match the first instruction after a resume (R393). -/
  skipBrk : Option Nat := none
  /-- A RESUME reached the core while STEPPING (Table 13.3). -/
  resumeStep : Bool := false
  brk : Tab Comparator := []
  wp : Tab Comparator := []
  mbxIn : Word := 0
  mbxOut : Word := 0
  inFull : Bool := false
  outFull : Bool := false
  /-- The context word a CTX_WRITE named, whose value the monitor awaits (Table 15.1). -/
  monWr : Option Nat := none
  /-- The program's 64 context words (Table 15.1). -/
  ctx : Tab Word := []
  /-- Half of the monitor area that an INSTALL_MONITOR under way has written: 0 none, 1 the lower (R22, R151). -/
  half : Nat := 0
  /-- Fabric time, +1, at which a halt or hit last brought the core to MONITOR (R377, R410). -/
  haltAt : Nat := 0
  /-- The installed monitor is a staged one (R151). -/
  staged : Bool := false
  /-- What a misuse leaves open (Table 18.3): 0 nothing, 1 the context and the mailbox (R22), 2 the whole core (R157), 3 the whole
  core while its staged monitor, which does not answer Table 15.1, stays installed (R436). -/
  odd : Nat := 0
  /-- Misuses of R415, until their recovery: bits 0–2 one of a BREAK_SET or BREAK_CLEAR, with the KINDs still to clear; bit 3 a WRITE_REG
  to the comparators beside one; bit 4 that one with its BREAK_CLEAR done and its BREAK_SET to come. -/
  brkOdd : Nat := 0
  deriving DecidableEq, Repr

/-- A tensor engine and its debug window, counters and shadow (R30, R392, R393, R396, R502, Table 17.8). -/
structure Engine where
  state : EngState := .idle
  cause : Nat := 0
  lastDone : Nat := 0xFFFFFFFF
  streamId : Nat := 0
  current : Nat := 0xFFFFFFFF
  /-- Number of commands of the loaded stream; 0 with none loaded. -/
  len : Nat := 0
  /-- A step of the engine is in progress (R392). -/
  stepping : Bool := false
  cmpIndex : Nat := 0
  cmpStream : Nat := 0
  cmpEn : Bool := false
  cmpReach : Nat := 0
  cmpHit : Bool := false
  /-- CMP_CTRL.MODE: true for AFTER. -/
  cmpAfter : Bool := false
  /-- The index, +1, before which MODE BEFORE halted the engine: its next start does not match (R393); else 0. -/
  cmpSkip : Nat := 0
  /-- Fabric time, +1, at which a halt last reached the engine while RUNNING or IDLE (R377, R410). -/
  haltAt : Nat := 0
  done : Nat := 0
  halts : Nat := 0
  forcedCnt : Nat := 0
  /-- BUSY_NS up to `busyAt`; while RUNNING or MUFFLING the time since then adds to it. -/
  busyNs : Nat := 0
  busyAt : Nat := 0
  sDone : Nat := 0
  sHalts : Nat := 0
  sForced : Nat := 0
  sBusy : Nat := 0
  /-- A stream that reuses the identifier of the one loaded leaves the engine open (R46, Table 18.3). -/
  odd : Bool := false
  /-- Misuses of R415, as a core keeps them. -/
  brkOdd : Nat := 0
  deriving DecidableEq, Repr

/-- A data-fabric link endpoint (R29, R419, R420). -/
structure Link where
  peerFabric : Nat := 0x7F
  peerValid : Bool := false
  peerLink : Nat := 0
  /-- DOWN 0, TRAINING 1, UP 2, as its own training gives. -/
  train : Nat := 0
  /-- WDA_LINK_MUFFLE holds the link. -/
  muffle : Bool := false
  /-- A message is in flight on the transmit side or waits in the receive side. -/
  busy : Bool := false
  tx : Nat := 0
  rx : Nat := 0
  deriving DecidableEq, Repr

/-- A trace record (R503). -/
structure TraceRec where
  type : Nat
  /-- FABRIC, with bit 7 HUB. -/
  fabric : Nat
  arg16 : Nat
  arg32 : Nat
  time : Nat
  seq : Nat := 0
  deriving DecidableEq, Repr

/-- A command-boundary event a tap has yet to turn into a record (R491). -/
structure TapEvent where
  /-- BEGIN 1, END 2, ABANDON 3. -/
  type : Nat
  engine : Nat
  index : Nat
  stream : Nat
  time : Nat
  deriving DecidableEq, Repr

/-- A WDA_RC_GO latched with AT (R389). -/
structure TimedGo where
  cores : Nat
  engs : Tab Nat
  all : Bool
  resume : Bool
  at_ : Nat
  deriving DecidableEq, Repr

/-- An alert the WDA holds until it is acknowledged (R351). -/
structure HeldAlert where
  num : Nat
  word : Nat
  deriving DecidableEq, Repr

/-- One Wonos chip: WDA, units, links, taps, counters and memory. -/
structure Chip where
  faddr : Nat := 0x7F
  assigned : Bool := false
  smapLo : Nat := 0
  smapHi : Nat := 0
  /-- What is added to the hub-cycle count to give the chip's fabric time, modulo 2^64. -/
  ftAdj : Nat := 0
  /-- The error a slew removes and where it began (R358). -/
  slew : Int := 0
  slewFrom : Nat := 0
  /-- A sync symbol has been applied since the path became usable (R358). -/
  synced : Bool := false
  ftHi : Nat := 0
  inReset : Bool := false
  resetHold : Bool := false
  /-- The stop input has been seen high since the chip's reset (R95). -/
  seenHigh : Bool := true
  /-- Level of the stop input. -/
  stopIn : Bool := true
  stopSeen : Bool := false
  /-- A chip stop whose cores have not all entered MONITOR (R375). -/
  stopping : Bool := false
  stopReq : Bool := false
  /-- The latest chip stop: its fabric time, cause and whether it sets STOPREQ (R410). -/
  lastStop : Option (Nat × Nat × Bool) := none
  cores : Tab Core := []
  engines : Tab Engine := []
  links : Tab Link := []
  linkbuf : Mem := []
  selCores : Nat := 0
  selEng : Tab Nat := []
  rcAtLo : Nat := 0
  rcAtHi : Nat := 0
  timed : Option TimedGo := none
  tollLo : Nat := 0
  tollHi : Nat := 0
  toll : Option Nat := none
  tollFired : Bool := false
  tollLate : Bool := false
  alerts : List HeldAlert := []
  alertNum : Nat := 0
  tapEn : Bool := false
  tapBegin : Bool := false
  tapEnd : Bool := false
  tapClusters : Nat := 0
  tapEngines : Nat := 0
  tapQ : List TapEvent := []
  fifo : List TraceRec := []
  /-- The pending gap: time of the first record dropped, and the count. -/
  gap : Option (Nat × Nat) := none
  flushing : Bool := false
  /-- A write of TAP_EN = 1 waits for the flush to finish (R506). -/
  tapResume : Bool := false
  flushed : Bool := false
  emptied : Nat := 0
  seq : Nat := 0
  accSince : Nat := 0
  cmdsDone : Nat := 0
  stops : Nat := 0
  accepted : Nat := 0
  dropped : Nat := 0
  gaps : Nat := 0
  alertCnt : Nat := 0
  /-- The chip counter shadow, Table 17.7. -/
  shadow : List Nat := [0, 0, 0, 0, 0, 0, 0]
  cntAtLo : Nat := 0
  cntAtHi : Nat := 0
  /-- The waiting timed latch: its time and CLEAR. -/
  cntPend : Option (Nat × Bool) := none
  cntLate : Bool := false
  /-- A wrong shard map leaves the cores' mailboxes open (Table 18.3). -/
  mbxOpen : Bool := false
  /-- DRAM, local stores and core memories, by chip address (Table 1.2). -/
  mem : Mem := []
  deriving DecidableEq, Repr

/-! ## Bihevan chains (chapter 12) -/

/-- Chain states (R342, Table 12.1). -/
inductive ChainState where | disabled | training | up | empty | down | eIdle
  deriving DecidableEq, Repr

/-- A work item's place: a ring's, the scan ring's, or a ringless one (R55). -/
inductive Work where
  | ring (n : Nat)
  | scan
  | free (k : Nat)
  deriving DecidableEq, Repr

/-- Who issued a Bihevan transaction or dump-store burst: operation `ix` of a work item, or a chain controller's own
activity (confirmation, arming, rediscovery), which takes no stroke. -/
inductive Issuer where
  | item (w : Work) (ix : Nat)
  | arm (f : Nat)
  | rediscover (f : Nat)
  deriving DecidableEq, Repr

/-- A frame on a chain (R359, Table 12.3), ALERT apart: a held alert is sent from the chip's own list. -/
inductive Frame where
  | read (pos tag addr len : Nat)
  | write (pos tag addr : Nat) (data : List Byte)
  | alertAck (pos num : Nat)
  | probe (pos : Nat) (sent : Nat) (issuer : Issuer)
  | readData (pos tag : Nat) (data : List Byte)
  | writeAck (pos tag : Nat)
  | nack (pos tag : Nat)
  | probeStamp (pos : Nat) (stamp sent : Nat) (issuer : Issuer)
  | trace (pos : Nat) (recs : List TraceRec)
  deriving DecidableEq, Repr

/-- A transaction in flight (R347, R350). -/
structure Txn where
  tag : Nat
  pos : Nat
  write : Bool
  addr : Nat
  len : Nat
  issuer : Issuer
  sentAt : Nat
  /-- BHV_TXN_TIMEOUT in force when the request was sent, in µs. -/
  limit : Nat
  quarantined : Bool := false
  /-- A write of an INSTALL_MONITOR (R22). -/
  mon : Bool := false
  deriving DecidableEq, Repr

/-- One chain and its controller (Tables 12.1, 12.9). -/
structure Chain where
  state : ChainState := .disabled
  reach : Nat := 0
  present : Nat := 0
  addressable : Nat := 0
  crc : Nat := 0
  retrains : Nat := 0
  resets : Nat := 0
  timeouts : Nat := 0
  step : Nat := 0
  /-- Calibrated one-way delay in ps to each position (R357). -/
  delay : Tab Nat := []
  txns : List Txn := []
  down : List Frame := []
  up : List Frame := []
  upTrace : List Frame := []
  /-- Consecutive replays of one frame at a hop (R344): hop p upstream under 2p, downstream under 2p + 1. -/
  replays : Tab Nat := []
  /-- Positions whose hop has failed and is retraining: the start of its latest attempt, +1 (R344). -/
  failed : Tab Nat := []
  /-- A cold training is in progress, and its start. -/
  training : Bool := false
  trainFrom : Nat := 0
  /-- Hub time carried by the last sync symbol to each position, +1; 0 when none waits (R356). -/
  symbol : Tab Nat := []
  /-- TAG of the last alert accepted from each position, +1; 0 when none (R351). -/
  lastAlert : Tab Nat := []
  /-- Chip sequences in progress (R390): position to the work item that began it. -/
  locks : List (Nat × Work) := []
  deriving DecidableEq, Repr

/-- The hub's topology copy of one chip (R355). -/
structure Topo where
  known : Bool := false
  wdaId : Nat := 0
  links : List Nat := []
  mismatch : Nat := 0
  deriving DecidableEq, Repr

/-- The BHV block. -/
structure Bhv where
  autoRedisc : Bool := true
  traceShare : Nat := 0
  txnTimeout : Nat := 0x3E8
  ftHi : Nat := 0
  syncCnt : Nat := 0
  /-- The sync instant last reached, in ms of hub fabric time, +1. -/
  lastSync : Nat := 0
  ftErr : Tab Nat := []
  chains : Tab Chain := []
  topo : Tab Topo := []
  deriving DecidableEq, Repr

/-! ## Work items and stroke engines (chapters 2 and 9) -/

/-- Completion status codes (R264). -/
inductive Status where
  | ok | partial_ | authDenied | chipAbsent | chainDown | translationFault | aborted | forcedCut
  | ledgerMismatch | timeout | badOpcode | incomplete
  deriving DecidableEq, Repr

/-- One operation of a work item (R53, R54). -/
inductive OpK where
  | rd (f addr len : Nat)
  | wr (f addr : Nat) (data : List Byte)
  | probe (f : Nat)
  | hrd (addr len : Nat)
  | hwr (addr : Nat) (data : List Byte)
  | dsRd (addr len : Nat)
  | dsWr (addr : Nat) (data : List Byte) (sealed_ : Bool)
  | core (req : List Nat)
  /-- A NOR operation (R150): 1 erase, 2 program, 3 read. -/
  | nor (kind addr len : Nat) (data : List Byte)
  deriving DecidableEq, Repr

/-- An operation not yet issued: its index in the work item, whether it begins or ends a chip sequence (R390). -/
structure Op where
  ix : Nat
  k : OpK
  lock : Bool := false
  unlock : Bool := false
  deriving DecidableEq, Repr

/-- What a work item waits for besides its own operations. -/
inductive Wait where
  | no
  /-- A WAIT or FENCE condition. -/
  | cond
  /-- A hub-core request. -/
  | core
  /-- An activity of the chain controllers, or a clock time (`none` for no time). -/
  | ctl (until_ : Option Nat)
  deriving DecidableEq, Repr

/-- A descriptor being served (R53–R55, R262). -/
structure Item where
  desc : BitVec 512
  begun : Bool := false
  stage : Nat := 0
  wait : Wait := .no
  todo : List Op := []
  out : Nat := 0
  parked : Bool := false
  /-- Abort or error: no further operation is issued. -/
  dead : Bool := false
  nextIx : Nat := 0
  /-- Number of operations issued so far; they are issued in order. -/
  issued : Nat := 0
  /-- Operations issued since the opcode last went on, in order: those after a faulting one are issued again (R295). -/
  sent : List Op := []
  rep : Tab (List Byte) := []
  /-- Failed operations: index to status code + 1. -/
  bad : Tab Nat := []
  /-- Statuses met so far; the record carries the highest by R265. -/
  errs : List Status := []
  detail : Nat := 0
  cursor : Nat := 0
  /-- Numbers the opcode's own meaning keeps, by name in its file. -/
  x : Tab Nat := []
  /-- The ring was disabled while the item was in progress (R282). -/
  draining : Bool := false
  /-- The path's levels as judged in the first stroke: chips at FULL as a mask (R193, R422). -/
  fullMask : Nat := 0
  /-- Hub cycle of the first stroke. -/
  began : Nat := 0
  /-- Hub cycle at which the item last became eligible (R60). -/
  eligAt : Nat := 0
  /-- The final status, detail and cursor, once the record write has been issued. -/
  fin : Option (Nat × Nat × Nat) := none
  /-- Stroke engine of its latest stroke (R268). -/
  engine : Nat := 0
  /-- Misuses of Table 18.3 that its operands make: bit 0 one of scope D, bit 1 a store range outside the usable blocks. -/
  odd : Nat := 0
  deriving DecidableEq, Repr

/-- A stroke engine (Table 2.10). -/
structure StrokeEngine where
  work : Option Work := none
  opcode : Nat := 0
  /-- Bound waited at, and since when. -/
  waiting : Option (Nat × Nat) := none
  started : Nat := 0
  /-- YIELD_WAIT as the decision that began the stroke read it (R66). -/
  yieldWait : Nat := 0
  deriving DecidableEq, Repr

/-- HUB registers and arbiter state (Tables 2.7–2.12, R57, R58). -/
structure HubRegs where
  yieldWait : Nat := 0x100
  bulkMin : Nat := 2
  scanGuard : Nat := 4
  engines : Tab StrokeEngine := []
  stalls : Tab Nat := []
  yields : Nat := 0
  strokes : Nat := 0
  strokesHi : Nat := 0
  latUrg : Nat := 0
  latScan : Nat := 0
  /-- Round-robin pointer of the normal rings. -/
  rr : Nat := 16
  /-- Bulk pointer: a place in the bulk order. -/
  bulkPtr : Nat := 0
  /-- Credits used in the round, by place: ring − 448, or 64 + the ringless item's number. -/
  credit : Tab Nat := []
  /-- The last 15 grants to normal and bulk work together, newest first: true for bulk. -/
  window : List Bool := []
  guard : Bool := false
  /-- Ringless work items in the order in which they became ringless, and the next number. -/
  free : List (Nat × Item) := []
  nextFree : Nat := 0
  /-- Hub-core requests posted, oldest first. -/
  coreQ : List (Option Work × List Nat) := []
  deriving DecidableEq, Repr

/-- Ring STATE (Table 9.9). -/
inductive RingState where | disabled | idle | active | draining | stalled
  deriving DecidableEq, Repr

/-- A completion record queued in the endpoint (R263, R266). -/
structure CplRec where
  index : Nat
  signal : Option Nat
  notify : Bool
  /-- Stroke engine of the descriptor's last stroke (R268). -/
  engine : Nat := 0
  /-- A REBOOT follows its transmission (R140, R176). -/
  owes : Bool := false
  deriving DecidableEq, Repr

/-- A ring (Tables 9.5–9.9). -/
structure Ring where
  base : Nat := 0
  cpl : Nat := 0
  sizeLog2 : Nat := 4
  weight : Nat := 1
  notify : Nat := 0
  enable : Bool := false
  state : RingState := .disabled
  head : Nat := 0
  phase : Bool := true
  tail : Nat := 0
  doneCnt : Nat := 0
  dbErr : Bool := false
  dbCause : Nat := 0
  fetchErr : Bool := false
  cplLost : Bool := false
  /-- Index of the next descriptor to fetch. -/
  fetchIx : Nat := 0
  /-- Descriptors asked for by the fetch read outstanding. -/
  fetchOut : Nat := 0
  fetched : List (BitVec 512) := []
  /-- Index of the work item's descriptor. -/
  itemIx : Nat := 0
  item : Option Item := none
  cplQ : List CplRec := []
  deriving DecidableEq, Repr

/-- A slot of the scan ring (R230–R232). -/
structure ScanSlot where
  seq : Nat
  desc : BitVec 512
  /-- Completion word, once complete. -/
  cpl : Option Nat := none
  deriving DecidableEq, Repr

/-- A change of a sync counter: its place in R268's order, whether it adds, its value, and the bits a set replaces. -/
structure SynOp where
  rank : Nat
  add : Bool
  val : DWord
  mask : DWord
  deriving DecidableEq, Repr

/-- A sync counter and its own high-half latch (R267), with the changes of its latest cycle and the value before them
(R268). -/
structure Counter where
  val : DWord := 0
  latch : Word := 0
  cycle : Nat := 0
  base : DWord := 0
  ops : List SynOp := []
  deriving DecidableEq, Repr

/-! ## Host memory translation (chapter 10) -/

/-- Owners of host-memory operations (R293). -/
inductive Owner where
  | item (w : Work)
  | fetch (r : Nat)
  | queue (q : Nat)
  deriving DecidableEq, Repr

/-- Where a host-memory operation stands (R291, R293). -/
inductive HostPhase where
  /-- Not yet translated. -/
  | wait
  /-- Walking: level of the entry to read, its address, whether the read is outstanding, and what has become of the
  walk: 1 an HTU_INVALIDATE has discarded its result, 2 it has if the leaf proves a 2 MiB page (R304), 3 the HTU was
  disabled (R305). -/
  | walk (level addr : Nat) (out : Bool) (discard : Nat)
  /-- Translated and queued in the endpoint, to host physical address `phys`. -/
  | queued (phys order : Nat)
  | parked
  deriving DecidableEq, Repr

/-- A host-memory operation (Table 2.3). -/
structure HostOp where
  id : Nat
  owner : Owner
  ix : Nat
  write : Bool
  addr : Nat
  len : Nat
  data : List Byte
  /-- A completion record write. -/
  cpl : Bool := false
  /-- May take the reserved slots of its bound. -/
  reserved : Bool := false
  phase : HostPhase := .wait
  /-- The TLB page it was translated through. -/
  page : Option Nat := none
  deriving DecidableEq, Repr

/-- A dump-store burst in flight (Table 2.3). -/
structure Burst where
  id : Nat
  work : Work
  ix : Nat
  write : Bool
  addr : Nat
  len : Nat
  data : List Byte
  /-- The bytes come from a sealed dump (R442). -/
  sealed_ : Bool := false
  /-- A NOR operation (R150), which fills no burst slot: 1 erase, 2 program, 3 read. -/
  nor : Nat := 0
  /-- Survival has suspended it (R145, R155). -/
  held : Bool := false
  /-- A read ahead of the DUMP_READ cursor (R237). -/
  refill : Bool := false
  deriving DecidableEq, Repr

/-- A TLB entry: one 4 KiB or 2 MiB page (R290). -/
structure TlbEntry where
  vpage : Nat
  big : Bool
  phys : Nat
  write : Bool
  deriving DecidableEq, Repr

/-- A fault log entry (Table 10.8). -/
structure Fault192 where
  addr : Nat := 0
  cause : Nat := 0
  level : Nat := 0
  write : Bool := false
  tlbHit : Bool := false
  completion : Bool := false
  ownerKind : Nat := 0
  ownerId : Nat := 0
  gen : Nat := 0
  parked : Bool := false
  seq : Nat := 0
  deriving DecidableEq, Repr

/-- The HTU. -/
structure Htu where
  enabled : Bool := false
  stale : Bool := false
  root : Nat := 0
  /-- Most recently used first. -/
  tlb : List TlbEntry := []
  hits : Nat := 0
  misses : Nat := 0
  faults : Nat := 0
  seq : Nat := 0
  log : Tab Fault192 := []
  /-- Owners parked: the log entry, or none while unlogged, and the record that entry holds or will hold. -/
  parked : List (Owner × Option Nat × Fault192) := []
  /-- Operations in issue order. -/
  ops : List HostOp := []
  nextId : Nat := 0
  nextOrder : Nat := 0
  deriving DecidableEq, Repr

/-! ## The Carillon (chapter 11) -/

/-- What Table 11.7 needs of a source's latest cycles, each given as hub cycle + 1: the activations held in it; those lost in it,
with OVERRUN, LOST, DATA and time; and MASK as it stood before a write. -/
structure Recent where
  actAt : Nat := 0
  acts : Nat := 0
  lossAt : Nat := 0
  losses : Nat := 0
  lossOvr : Bool := false
  lossLost : Nat := 0
  lossData : Nat := 0
  lossTime : Nat := 0
  maskAt : Nat := 0
  maskWas : Bool := false
  deriving DecidableEq, Repr

/-- A source's pending latch, loss count and routing (R315–R320). -/
structure Source where
  pending : Bool := false
  count : Nat := 0
  first : Nat := 0
  last : Nat := 0
  ready : Bool := false
  /-- Readiness causes met: bit 0 COUNT, 1 TIME, 2 SOFTWARE, 3 FLUSH. -/
  cause : Nat := 0
  lost : Nat := 0
  mask : Bool := true
  ovr : Bool := false
  route : Nat := 0
  data : Nat := 0
  recent : Recent := {}
  deriving DecidableEq, Repr

/-- A physical line's glitch filter (R314). -/
structure Line where
  filter : Nat := 4
  /-- POLARITY: true for active high. -/
  high : Bool := false
  /-- Filter output: true for active. -/
  level : Bool := false
  /-- Pad level at the last AON edge. -/
  raw : Bool := false
  /-- FILTER and POLARITY written, to apply from the next AON edge. -/
  next : Option (Nat × Bool) := none
  deriving DecidableEq, Repr

/-- An event queue (Table 11.6, R326). -/
structure Queue where
  base : Nat := 0
  sizeLog2 : Nat := 4
  coalCount : Nat := 1
  coalTime : Nat := 0
  enabled : Bool := false
  irqEn : Bool := false
  head : Nat := 0
  tail : Nat := 0
  /-- PHASE of the next record to be transmitted (CAR_Q_TAIL). -/
  tailPhase : Bool := true
  issue : Nat := 0
  phase : Bool := true
  seq : Nat := 0
  insvc : Option Nat := none
  frozen : Bool := false
  parked : Bool := false
  headErr : Bool := false
  named : Nat := 0
  none_ : Bool := false
  dropped : Nat := 0
  faults : Nat := 0
  /-- The source whose record write is issued and not yet transmitted, per record, oldest first. -/
  out : List Nat := []
  /-- Of these, how many were issued before the queue was last enabled. -/
  oldOut : Nat := 0
  /-- COAL_COUNT and COAL_TIME written, to apply from the next AON edge (R331). -/
  coalNew : Option (Nat × Nat) := none
  /-- Hub cycle, +1, of the latest selection, release and vector request (Table 11.7, R321, R329). -/
  selAt : Nat := 0
  relAt : Nat := 0
  reqAt : Nat := 0
  deriving DecidableEq, Repr

/-- The Carillon. -/
structure Car where
  sources : Tab Source := []
  lines : Tab Line := []
  queues : Tab Queue := []
  deriving DecidableEq, Repr

/-! ## Power, clocks, pins (chapters 3 and 4) -/

/-- Power states (Table 4.10). -/
inductive PwrState where | run | idle | doze | off
  deriving DecidableEq, Repr

/-- A posted sleep request: hub cycle of the post, target, whether the latch edge and the commit edge have passed,
the enables sampled at tick 0, and the enabled events held (Table 4.5). -/
structure SleepReq where
  posted : Nat
  target : Nat
  by_ : Work
  latched : Option (Nat × Nat) := none
  committed : Bool := false
  /-- Tick 2 has passed: the chains idle and the PLL is off. -/
  tick2 : Bool := false
  deriving DecidableEq, Repr

/-- The PWR block (Tables 4.9–4.14) and the power controller. -/
structure Pwr where
  state : PwrState := .run
  entering : Bool := false
  pllLock : Bool := false
  lastTarget : Nat := 0
  aborted : Bool := false
  wakeSrc : Nat := 0
  wakeLine : Nat := 0
  wakeEn : Nat := 0x2F
  wakeLines : Nat := 0
  events : Nat := 0
  timer : Nat := 0
  /-- PWR_TIMER has reached 0 and its TIMER event has not been taken. -/
  timerHit : Bool := false
  commits : Nat := 0
  aborts : Nat := 0
  wakeTime : Nat := 0
  straps : Nat := 0
  req : Option SleepReq := none
  /-- Events that have occurred since the last AON edge, to be seen at the next: code and Carillon line (R118). -/
  coming : List (Nat × Nat) := []
  /-- Enabled events not yet acted on: AON edge at which each was seen, code and Carillon line (Table 4.6). -/
  seen : List (Nat × Nat × Nat) := []
  /-- The SLEEP that committed to the state the hub is in, to complete at the next RUN (R116). -/
  reqBy : Option Work := none
  /-- A wake in progress: the hub cycle of the wake edge and the state left (Table 4.7). -/
  waking : Option (Nat × PwrState) := none
  /-- After a wake from DOZE: the hub cycle from which the chains are usable again (Table 4.7). -/
  chainsDue : Option Nat := none
  /-- The PLL has lost lock in RUN or IDLE: the hub cycle from which the fast domain is gated (R128). -/
  pllOff : Option Nat := none
  deriving DecidableEq, Repr

/-- Output pads and their enables (R91–R95, R100, R101, R378, R501). -/
structure Pins where
  /-- Power-on reset is in force: POR_N has been low for three samples (R84). -/
  inPor : Bool := false
  /-- Board pull level of STOP_N_OUT_0–7 (bits 7:0) and of TRIG_OUT (bit 8) (R94). -/
  pulls : Nat := 0xFF
  stopEn : Nat := 0
  /-- Level driven on each enabled STOP_N_OUT_k. -/
  stopOut : Nat := 0
  /-- Latest stop request of each chain whose stop pulse is in progress, +1 (R378). -/
  pulse : Tab Nat := []
  /-- STOP_N_IN_k falls already taken by the relay, as low levels last seen. -/
  stopInLow : Nat := 0
  trigEn : Bool := false
  trigIdle : Bool := false
  /-- Latest TRIG_OUT event of the pulse in progress. -/
  trigPulse : Option Nat := none
  /-- Hub cycle in which the latest pulse ended, +1: an event in it extends that pulse (R513). -/
  trigEnd : Nat := 0
  readyEn : Bool := false
  ready : Bool := false
  /-- Every output high-impedance because hold-up ended (R106). -/
  dead : Bool := false
  /-- Enabled: QSPI_SCK and QSPI_CS_N, DS_RESET_N with the other DS_ outputs, the PCIe transmitters with CLKREQ_N (R92). -/
  qspiEn : Bool := false
  dsEn : Bool := false
  pcieTx : Bool := false
  /-- The PCIe link is up, and it is in L1 (Table 4.2). -/
  linkUp : Bool := true
  l1 : Bool := false
  deriving DecidableEq, Repr

/-- The endpoint's configuration space, where it is not constant (R247–R249). The places of its bits are those of the PCI
Express Base Specification, PRESUMED (log entry 90). -/
structure Cfg where
  command : Nat := 0
  /-- Error bits of the Status register. -/
  status : Nat := 0
  /-- Addresses that the host has placed BARs 0, 2 and 4 at. -/
  bars : Tab Nat := []
  /-- Device power state D3hot. -/
  d3hot : Bool := false
  msixEn : Bool := false
  msixMask : Bool := false
  /-- Device Control: Max_Payload_Size in bits 7:5, Max_Read_Request_Size in bits 14:12. -/
  devCtl : Nat := 0x2000
  /-- Link Control: bit 1 enables ASPM L1. -/
  linkCtl : Nat := 0
  /-- Device Control 2: completion timeout range in bits 3:0, disable in bit 4. -/
  devCtl2 : Nat := 0
  /-- L1 PM Substates Control 1: bit 3 enables L1.1 under ASPM. -/
  l1Ctl : Nat := 0
  /-- AER: uncorrectable errors' status, mask and severity, correctable errors' status and mask. -/
  aerStatus : Nat := 0
  aerMask : Nat := 0
  aerSev : Nat := 0x462030
  aerCorr : Nat := 0
  aerCorrMask : Nat := 0x2000
  deriving DecidableEq, Repr

/-- A host access held by the endpoint while the hub sleeps (R120): a BAR 0 write, a BAR 0 read, a doorbell write. -/
inductive Held where
  | write (off size val : Nat)
  | read (off size : Nat)
  | doorbell (ring val : Nat)
  deriving DecidableEq, Repr

/-! ## Boot, fuses, lifecycle (chapters 5 and 6) -/

/-- The fuse block (chapter 6): masks of burned bits. -/
structure Fuses where
  unitId : BitVec 128 := 0
  /-- LC_GROUP_1–6, 12 bits each. -/
  groups : Tab Nat := []
  secret : BitVec 512 := 0
  ikeyHash : BitVec 384 := 0
  ikeyDone : Nat := 0
  retWiped : Nat := 0
  /-- Revocation floor: one burned bit for each step. -/
  floor : Nat := 0
  trim : BitVec 256 := 0
  deriving DecidableEq, Repr

/-- A transition that has passed its checks: the states it goes from and to, the fuse bits still to burn, whether one burned
has read back 0, and whether its storage wipes are done (R176, R183). -/
structure LcsTrans where
  from_ : Nat
  target : Nat
  left : List (Nat × Nat)
  bad : Bool := false
  wiped : Bool := false
  deriving DecidableEq, Repr

/-- Lifecycle transition or certificate under way on the hub core (R176, R181). -/
structure Lcs where
  /-- State in effect, decoded at boot stage 1 and at the end of a transition (R161); 15 for INVALID. -/
  state : Nat := 0
  leading : Nat := 0
  nonce : BitVec 128 := 0
  nonceValid : Bool := false
  result : Nat := 0
  from_ : Nat := 0
  to_ : Nat := 0
  source : Bool := false
  wipePending : Bool := false
  dsDone : Bool := false
  norDone : Bool := false
  percent : Nat := 0
  /-- The transition in progress. -/
  trans : Option LcsTrans := none
  /-- A SCRAPPED transition waits for its completion's write before the REBOOT (R176 step 11). -/
  scrapReboot : Bool := false
  deriving DecidableEq, Repr

/-- Boot stage and boot registers (R134, R147). -/
structure Boot where
  /-- STAGE: 0 FUSES, 1 FIRST, 2 SECOND, 3 START, 4 DONE, 5 RECOVERY, 6 HALTED. -/
  stage : Nat := 0
  slot : Nat := 0
  fallback : Bool := false
  failFirst : Nat := 0
  failSecond : Nat := 0
  stagedMonitor : Bool := false
  cause : Nat := 0
  count : Nat := 0
  time : Nat := 0
  slotA : Nat := 0
  slotB : Nat := 0
  /-- A boot has started and not reached DONE, RECOVERY or HALTED, and its cause. -/
  due : Option Nat := none
  /-- A REBOOT has been written: hub cycle of the write, until the fast domain is reset (Table 5.1). -/
  resetDue : Option Nat := none
  /-- A REBOOT written during a lifecycle transition waits for its end (R187). -/
  rebootPend : Bool := false
  /-- Hub cycle of boot tick 0. -/
  tick0 : Nat := 0
  /-- The boot-count record of this boot has been written (R133). -/
  countWritten : Bool := false
  /-- Stage 1 has been run (Table 5.2). -/
  fused : Bool := false
  /-- COMMITs of slots A and B as this boot set them (R149). -/
  commitA : Nat := 0
  commitB : Nat := 0
  /-- An IMAGE has been staged in RECOVERY and its REBOOT waits (R140). -/
  recoveryReboot : Bool := false
  /-- The slot stage 3 placed first (R137). -/
  first : Nat := 0
  stageResult : Nat := 0
  stageTarget : Nat := 0
  kibDone : Nat := 0
  fwVersion : Nat := 0
  dsSize : Nat := 0
  /-- The firmware SRAM: the running image, and the active monitor copy from its own base. -/
  fw : Mem := []
  monitor : List Byte := []
  deriving DecidableEq, Repr

/-! ## Authorisation (chapter 7) -/

/-- An entry of an installed certificate (Table 7.3). -/
structure Right where
  /-- PATHS: bit 0 PCIe, bit 1 scan. -/
  paths : Nat
  level : Nat
  hub : Bool
  opens : Bool
  first : Nat
  last : Nat
  deriving DecidableEq, Repr

/-- An installed certificate (R196). -/
structure Cert where
  issuer : Nat
  serial : Nat
  entries : List Right
  deriving DecidableEq, Repr

/-- The AUTH block (Tables 7.7–7.11). -/
structure Auth where
  certs : Tab (Option Cert) := []
  result : Nat := 0
  source : Bool := false
  slot : Nat := 0
  denyCnt : Nat := 0
  denyLast : Nat := 0
  /-- Rights as they stood before the changes of a hub cycle: the cycle, certificates and ring caps (R194). -/
  old : Option (Nat × Tab (Option Cert) × Tab Nat) := none
  /-- AUTH_RING_CAP_0–31. -/
  caps : Tab Nat := []
  deriving DecidableEq, Repr

/-! ## The serial scan port (chapter 8) -/

/-- The TAP and what the scan port holds (R217–R246). -/
structure Scan where
  /-- TRST_N or five TMS-high rises hold the TAP in Test-Logic-Reset until the next instruction load. -/
  tlr : Bool := true
  /-- Instruction register, and whether the instruction loaded was denied (Table 8.2). -/
  ir : Nat := 2
  denied : Bool := false
  /-- Update latches of the 76 boundary cells (Table 8.4). -/
  boundary : BitVec 76 := 0
  /-- Last value captured into the selected register, and the last Capture-IR value. -/
  capture : Nat := 0
  captureIr : Nat := 0
  scanLost : Bool := false
  sringDrop : Bool := false
  /-- Scan ring slots, oldest first. -/
  slots : List ScanSlot := []
  nextSeq : Nat := 0
  /-- The work item of the oldest slot not completed. -/
  item : Option Item := none
  /-- The HUBCMD capture of this scan held a completion; the DUMP_READ capture held a block. -/
  capValid : Bool := false
  blkValid : Bool := false
  dbgRdata : Word := 0
  dbgAddr : Nat := 0
  dbgWrite : Bool := false
  dbgDone : Bool := false
  dbgDenied : Bool := false
  dbgAsleep : Bool := false
  /-- A boot has ended the acceptance of the instruction loaded (R225). -/
  lapsed : Bool := false
  /-- DUMP_READ: first block, blocks of the range, tag-table blocks, cursor, whether a START has been made, and SALT. -/
  drFirst : Nat := 0
  drCount : Nat := 0
  drTags : Nat := 0
  drCursor : Nat := 0
  drOn : Bool := false
  drSalt : BitVec 128 := 0
  /-- Seal bits of the range as START read them, and whether that START draws sealed output. -/
  drSeal : List Bool := []
  drSealed : Bool := false
  /-- The store blocks the controller keeps buffered from the cursor on, as read, and the tags of the blocks captured so far. -/
  drBuf : Tab (List Byte) := []
  drTab : Tab (List Byte) := []
  deriving DecidableEq, Repr

/-! ## Run control and cuts (chapters 13 and 14) -/

/-- TOLL_STATE (Table 13.12). -/
inductive TollState where | none_ | armed | waitTrig | arming
  deriving DecidableEq, Repr

/-- A confirmation in progress (R387). -/
structure Confirm where
  kind : Nat
  chains : Nat
  instant : Nat
  /-- Time of the next read of each chip still to show STOP_SEEN: chip, reads made, due. -/
  left : List (Nat × Nat × Nat)
  /-- The first reads, 1 µs after the stop instant, have been set up. -/
  started : Bool
  confirmed : Nat
  unconfirmed : Nat
  deriving DecidableEq, Repr

/-- The RUN block and the hub's toll (Table 13.12). -/
structure Run where
  relayEn : Bool := true
  relayMask : Nat := 0xFF
  pulse : Nat := 1
  tollState : TollState := .none_
  tollMask : Nat := 0
  tollEdge : Nat := 0
  tollOffset : Nat := 0
  tollT : Nat := 0
  /-- The backup stop at T stands (R384). -/
  backup : Bool := false
  /-- Chips still to answer the arming that no stroke makes (R385), with writes or reads outstanding. -/
  arming : List Nat := []
  /-- Chips whose arming (0) or rediscovery (1) by the chain controllers waits for tags. -/
  armQ : List (Nat × Nat) := []
  relayFired : Bool := false
  tollLate : Bool := false
  trigEdge : Nat := 0
  trigStamp : Nat := 0
  /-- Fabric time of the last TRIG_IN pad rise and fall (R385). -/
  padRise : Nat := 0
  padFall : Nat := 0
  stopTime : Nat := 0
  /-- RUN_STOP_TIME before the stop instants of hub cycle `stopNow` - 1 (R434). -/
  stopPrev : Nat := 0
  stopNow : Nat := 0
  stopKind : Nat := 0
  stopChains : Nat := 0
  pealCnt : Nat := 0
  tollCnt : Nat := 0
  relayCnt : Nat := 0
  /-- Time of the last relay stop request, +1 (R382). -/
  lastRelay : Nat := 0
  confirm : Option Confirm := none
  /-- Result of the last confirmation: confirmed, unconfirmed (R400). -/
  lastConf : Nat × Nat := (0, 0)
  /-- Timed RESUMEs with ALL_UNITS: AT and chains whose low STOP_N_OUT rises then (R403). -/
  raises : List (Nat × Nat) := []
  /-- High-half latches by LO offset (R27). -/
  latch : Tab Word := []
  deriving DecidableEq, Repr

/-- A covered chip in a cut collection (R416–R432). -/
structure CutChip where
  f : Nat
  /-- The status it gives as an absent position (R421). -/
  absent : Option Status := none
  /-- A halt picture found it stopped. -/
  stopped : Bool := false
  resumed : Bool := false
  /-- Fabric time of the read that first found every engine still, and the lowest engine that read found still last. -/
  stillAt : Option Nat := none
  slow : Nat := 0
  /-- Engines not still at the last picture, a word a cluster. -/
  pend : List Nat := []
  /-- WDA_HALT at the read that found it stopped. -/
  halt : Nat := 0
  /-- Halt pictures read in the stopped check, and when the next is due. -/
  reads : Nat := 0
  due : Nat := 0
  /-- Link STATEs at the last poll, and whether each is awaited. -/
  links : List Nat := []
  awaited : List Bool := []
  deriving DecidableEq, Repr

/-- The CUT block and the collection in progress (Table 14.7). -/
structure Cut where
  drainLimit : Nat := 0x64
  linkLimit : Nat := 0x14
  busy : Bool := false
  retained : Bool := false
  outcome : Nat := 0
  status : Nat := 0
  lastId : Nat := 0
  /-- The 256 bytes of CUT_SUMMARY. -/
  summary : List Byte := []
  /-- The collection's PRESENT positions, by fabric address in order. -/
  chips : List CutChip := []
  /-- What the chain controllers are doing: 1 stopped check, 2 drain, 3 link poll. -/
  phase : Nat := 0
  ref : Nat := 0
  start : Nat := 0
  drained : Nat := 0
  /-- Drain limit in µs and link limit in µs as the first stroke found them. -/
  drainUs : Nat := 0
  linkUs : Nat := 0
  /-- WDA_FORCE has been written at the deadline. -/
  forced : Bool := false
  linkFrom : Nat := 0
  pollDue : Nat := 0
  deriving DecidableEq, Repr

/-! ## Dumps and shard maps (chapters 15 and 16) -/

/-- A region of a plan (R453). -/
structure Region where
  kind : Nat
  first : Nat
  last : Nat
  unitFirst : Nat
  unitLast : Nat
  offset : Nat
  length : Nat
  tag : Nat
  /-- The 32 bytes as read. -/
  raw : List Byte
  deriving DecidableEq, Repr

/-- Context STATE (R438, Table 15.2). -/
inductive CtxState where | free | running | parked | suspended | finishing
  deriving DecidableEq, Repr

/-- A section of the SDF being written, as the TOC lists it (R460). -/
structure TocEntry where
  number : Nat
  type : Nat
  flags : Nat
  offset : Nat
  rawLen : Nat
  status : Nat
  fabric : Nat
  region : Nat
  crc : Nat
  deriving DecidableEq, Repr

/-- An entry of a tensor dump's resolved list (R471): one primary shard of a candidate slot. -/
structure Resolved where
  slot : Nat
  /-- Index in the slot's shard table. -/
  index : Nat
  /-- The 64-byte record of the copy read (R35, R474). -/
  rec_ : List Byte
  /-- READY_UNIT's values as read in step 7 (Table 16.4). -/
  lastDone : Nat := 0xFFFFFFFF
  stream : Nat := 0
  complete : Bool := true
  /-- UNREACHABLE, with its status (R474). -/
  lost : Option Status := none
  deriving DecidableEq, Repr

/-- A dump context (R437–R441, Table 15.13). -/
structure Ctx where
  state : CtxState := .free
  survival : Bool := false
  toHost : Bool := false
  toStore : Bool := false
  sealed_ : Bool := false
  compress : Bool := false
  cut : Bool := false
  tensor : Bool := false
  planId : Nat := 0
  work : Option Work := none
  id : Nat := 0
  start : Nat := 0
  section_ : Nat := 0
  raw : Nat := 0
  out : Nat := 0
  /-- Offset in the SDF of the next section. -/
  next : Nat := 0
  /-- Item numbers of the whole dump (PLAN_ITEMS). -/
  items : Nat := 0
  hostAddr : Nat := 0
  hostSize : Nat := 0
  storeBlock : Nat := 0
  storeBlocks : Nat := 0
  hostDropped : Bool := false
  /-- First section not written to host memory, once the host part is dropped (R445). -/
  hostFirst : Nat := 0
  salt : BitVec 128 := 0
  startTime : Nat := 0
  lcState : Nat := 0
  cutId : Nat := 0
  toc : List TocEntry := []
  /-- Chips found CHIP_ABSENT: later bytes are zeros without a read (R440). -/
  gone : List Nat := []
  /-- WDA_HALT of the chip being dumped, +1. -/
  haltSeen : Tab Nat := []
  /-- Statuses met so far (R440). -/
  errs : List Status := []
  /-- Tensor dump: root, slot headers and tensor record (R482), and the resolved list. -/
  head : List Byte := []
  list : List Resolved := []
  /-- Operands kept for judging a DUMP_RESUME or DUMP_ABORT anew. -/
  desc : BitVec 512 := 0
  deriving DecidableEq, Repr

/-- A shard-cache entry (R477). -/
structure CacheEntry where
  fabric : Nat
  slot : Nat
  phase : Nat
  tensor : Nat
  index : Nat
  record : List Byte
  shards : List (List Byte)
  deriving DecidableEq, Repr

/-- What the last-gasp record says of the dump survival served (Table 15.12). -/
structure SurvInfo where
  started : Bool := false
  done : Bool := false
  hostDropped : Bool := false
  sealed_ : Bool := false
  plan : Bool := false
  sdfState : Nat := 0
  dumpId : Nat := 0
  endTime : Nat := 0
  block : Nat := 0
  sections : Nat := 0
  length : Nat := 0
  deriving DecidableEq, Repr

/-- The DMP block. -/
structure Dmp where
  enable : Bool := true
  surviving : Bool := false
  lgWritten : Bool := false
  lgSeq : Nat := 0
  lgAddr : Nat := 0
  lastId : Nat := 0
  survArmed : Bool := false
  survPlan : Nat := 0
  survCompress : Bool := false
  survCut : Bool := false
  survBlock : Nat := 0
  survBlocks : Nat := 0
  plans : Tab (List Region) := []
  ctx : Tab Ctx := []
  /-- Most recently used first. -/
  cache : List CacheEntry := []
  /-- A WRITE_MEM has overwritten the cache's regions: what resolution takes from the cache is open. -/
  cacheOdd : Bool := false
  /-- Seal bits of the dump store's blocks (R442). -/
  sealMap : Tab Bool := []
  /-- Survival: in progress, last-gasp write begun, dump store in self-refresh. -/
  lgBegun : Bool := false
  /-- Fabric time and PWR_STATUS.STATE of the activation of line 17, and the dump survival served. -/
  warnTime : Nat := 0
  warnPwr : Nat := 0
  survInfo : SurvInfo := {}
  /-- Survival began with the hub in RUN (R444). -/
  survFromRun : Bool := false
  /-- Survival waits for strokes to start or for the end of boot (R100, R126). -/
  survDue : Bool := false
  selfRefresh : Bool := false
  latch : Tab Word := []
  deriving DecidableEq, Repr

/-! ## Trace (chapter 17) -/

/-- Trace states (R496, Table 17.1). -/
inductive TraceState where | idle | streaming | pre | post | flushing | stopped
  deriving DecidableEq, Repr

/-- What trace keeps for one chip (R498, R500). -/
structure TraceChip where
  armed : Bool := false
  flushed : Bool := false
  /-- SEQ expected next; 256 when a lost link leaves it unknown. -/
  expect : Nat := 0
  frozen : Bool := false
  /-- The window, oldest first. -/
  window : List TraceRec := []
  /-- Hub GAP records to insert ahead of the chip's next record. -/
  owed : List TraceRec := []
  /-- A WRITE_REG has reached the chip's trace or counter registers while trace was armed (R518). -/
  odd : Bool := false
  deriving DecidableEq, Repr

/-- The TRC block, the staging ring and the windows. -/
structure Trc where
  enable : Bool := true
  state : TraceState := .idle
  windowMode : Bool := false
  captured : Bool := false
  triggered : Bool := false
  /-- A misuse leaves the capture open until a TRACE_ARM with DISCARD (R498, R518, Table 18.3). -/
  odd : Bool := false
  /-- Free ring slots the receiver waits for before it takes TRACE frames again; 0 when it refuses none (R495). -/
  need : Nat := 0
  trigCode : Nat := 0
  /-- Hub cycle of the latest trigger, +1 (R513). -/
  trigNow : Nat := 0
  watermark : Nat := 0
  trigTime : Nat := 0
  ringSize : Nat := 262144
  received : Nat := 0
  gaps : Nat := 0
  dropped : Nat := 0
  linkGaps : Nat := 0
  discarded : Nat := 0
  ignored : Nat := 0
  source : Nat := 0
  edge : Nat := 0
  trigAt : Nat := 0
  postNs : Nat := 0
  preN : Nat := 0
  first : Nat := 0
  last : Nat := 0
  ring : List TraceRec := []
  /-- The TIME trigger of this capture has fired. -/
  timeFired : Bool := false
  chips : Tab TraceChip := []
  /-- CODE of the STOP marker to come, and its decision time. -/
  stopCode : Nat := 0
  stopAt : Nat := 0
  toutSources : Nat := 0
  toutWidth : Nat := 1
  toutLast : Nat := 0
  toutTime : Nat := 0
  toutCnt : Nat := 0
  latch : Tab Word := []
  deriving DecidableEq, Repr

/-! ## The machine -/

/-- Everything the spec gives the block, and the queue of commands that wait. -/
structure State where
  /-- The commands waiting, first in, first out. -/
  pending : List Instr := []
  /-- Hub cycles since the model began (R107). -/
  now : Nat := 0
  /-- What is added to `now` to give hub fabric time, modulo 2^64 (R111). -/
  ftAdj : Nat := 0
  /-- The model's own: how many free values have been drawn (log entry 2). -/
  freeIx : Nat := 0
  /-- Misused registers of BAR 0, until their recovery: offset, and whether by the size or alignment of an access (R519,
  Table 18.3). -/
  misuses : List (Nat × Bool) := []
  /-- Hub cycle of the latest reset that reached registers of the fast domain, +1, and whether it was a boot's (R532). -/
  rstAt : Nat := 0
  rstBoot : Bool := false
  pwr : Pwr := {}
  pins : Pins := {}
  fuses : Fuses := {}
  lcs : Lcs := {}
  boot : Boot := {}
  auth : Auth := {}
  hub : HubRegs := {}
  rings : Tab Ring := []
  counters : Tab Counter := []
  scan : Scan := {}
  htu : Htu := {}
  bursts : List Burst := []
  car : Car := {}
  bhv : Bhv := {}
  run : Run := {}
  cut : Cut := {}
  dmp : Dmp := {}
  trc : Trc := {}
  chips : Tab Chip := []
  /-- The endpoint's configuration space. -/
  cfg : Cfg := {}
  /-- MSI-X table bytes (BAR 4), and vectors requested while masked (the PBA). -/
  msix : Mem := []
  pba : Nat := 0
  /-- MSI-X messages sent, newest first: vector. -/
  msiSent : List Nat := []
  /-- Host accesses the endpoint holds while the hub sleeps (R120). -/
  held : List Held := []
  /-- Value returned by the last register read of the host. -/
  readVal : DWord := 0
  /-- Host memory as the hub has written it, by host physical address. -/
  host : Mem := []
  /-- Dump store bytes and staging SRAM bytes (R50, R442). -/
  store : Mem := []
  sram : Mem := []
  /-- The staging SRAM has been zeroed, and nothing but plans, the retained cut and FW_STAGE has used it since. -/
  sramClean : Bool := false
  /-- NOR bytes, kept as their complement, so that an erased byte (0xFF) is an unlisted one (R141). -/
  nor : Mem := []
  deriving DecidableEq, Repr


/-! ## How a step can stop -/

/-- Why a step stops: nothing does. After a misuse of Table 18.3 the machine goes on, and what lies in the misuse's scope is
a free value (R519). -/
inductive Fault : Type
  deriving DecidableEq, Repr

/-- Why a step gives no outcome. -/
inductive Refusal where
  /-- The command has no meaning in this model yet. Raised by the dispatch alone. Safe. -/
  | notModelled (mnemonic : String)
  deriving DecidableEq, Repr

/-- The hub as power-on reset leaves it at its release: a boot is due (R84, R131). Straps 0 and board pulls high are a
DESIGN CHOICE (log entry 5); line 17's warning is absent. -/
def State.reset : State :=
  { boot := { due := some 0, tick0 := 1000 }, pins := { linkUp := false } }

/-- The answer of a step. -/
abbrev Out := Host.Outcome State Fault Refusal

end Sys2Proof.Machine
end

