-- ==== Sys2Proof/Machine/Wda.lean ====
section
/-! DEFINITION. The Wonos debug agent and the units of one chip: halts, steps, resumes, hits, tolls, taps, counters
and the chip's register and memory map (R18–R31, R42–R48, R351, R374–R397, R418–R425, R491–R506). Every operation
is a function of one chip, its fabric address `f` and its fabric time `t`. -/

namespace Sys2Proof.Machine

/-- No command index (R19). -/
def noIndex : Nat := 0xFFFFFFFF

def Chip.core (c : Chip) (i : Nat) : Core := tget {} c.cores i
def Chip.eng (c : Chip) (e : Nat) : Engine := tget {} c.engines e
def Chip.link (c : Chip) (n : Nat) : Link := tget {} c.links n
def Chip.setCore (c : Chip) (i : Nat) (v : Core) : Chip :=
  if i < 32 then { c with cores := tput {} c.cores i v } else c
def Chip.setEng (c : Chip) (e : Nat) (v : Engine) : Chip :=
  if e < 512 then { c with engines := tput {} c.engines e v } else c

/-- Packed address of engine `e` and of core `i` of chip `f` (R11). -/
def engUnit (f e : Nat) : Nat := f * 1024 + 512 + e
def coreUnit (f i : Nat) : Nat := f * 1024 + i

def EngState.halted : EngState → Bool
  | .muffling | .muffled | .forced => true
  | _ => false
def EngState.busy : EngState → Bool
  | .running | .muffling => true
  | _ => false
/-- At a command boundary or abandoned: IDLE, MUFFLED or FORCED (Table 13.5). -/
def EngState.still : EngState → Bool
  | .idle | .muffled | .forced => true
  | _ => false
/-- A misuse leaves the whole unit open (Table 18.1, U). -/
def Core.wild (u : Core) : Bool := 2 ≤ u.odd || u.brkOdd % 8 != 0
def Engine.wild (e : Engine) : Bool := e.odd || e.brkOdd % 8 != 0
def CoreState.halted : CoreState → Bool
  | .monitor | .stepping => true
  | _ => false

/-- Some unit of the chip is halted (R374). -/
def Chip.anyHalted (c : Chip) : Bool :=
  c.cores.any (fun p => p.2.state.halted) || c.engines.any (fun p => p.2.state.halted)
/-- The peripheral clock is stopped (R28, R374). -/
def Chip.clkStopped (c : Chip) : Bool := c.resetHold || c.anyHalted
/-- No core is RUNNING: STOP_SEEN may be set (R375). -/
def Chip.noneRunning (c : Chip) : Bool := (List.range 32).all (fun i => (c.core i).state != .running)

/-- BUSY_NS as it stands at time `t` (R502). -/
def Engine.busyTotal (e : Engine) (t : Nat) : Nat :=
  if e.state.busy then (e.busyNs + (t - e.busyAt)) % 2 ^ 64 else e.busyNs
/-- A change of STATE, with the counters that follow it (R502). -/
def Engine.enter (e : Engine) (t : Nat) (st : EngState) : Engine :=
  { e with
    state := st, busyNs := e.busyTotal t, busyAt := if st.busy then t else 0,
    halts := if st.halted && !e.state.halted then (e.halts + 1) % 2 ^ 16 else e.halts }
/-- The link STATE a register reports (Table 1.8, R419). -/
def Link.state (l : Link) : Nat := if l.muffle && !l.busy && l.train == 2 then 3 else l.train

/-- Raise an alert: hold it, number it, replacing the newest held when four are held (R351, Table 12.4). -/
def Chip.holdAlert (c : Chip) (cause unit info : Nat) : Chip :=
  let w := cause + unit <<< 8 + info <<< 32
  let h : List HeldAlert :=
    if c.alerts.length < 4 then c.alerts ++ [{ num := c.alertNum, word := w }]
    else c.alerts.dropLast ++ [{ num := c.alertNum, word := w + 2 ^ 31 }]
  { c with alerts := h, alertNum := (c.alertNum + 1) % 64 }
/-- An alert the WDA itself raises is counted (R502). -/
def Chip.raise (c : Chip) (cause unit info : Nat) : Chip :=
  { c.holdAlert cause unit info with alertCnt := (c.alertCnt + 1) % 2 ^ 32 }

/-! ### Trace taps (R491–R494, R506) -/

def Chip.tapOn (c : Chip) (e : Nat) : Bool :=
  c.tapEn && bit c.tapClusters (e / 32) && bit c.tapEngines (e % 32)
/-- The place of an event among those of its cycle (R492): ascending engine index, and for one engine END or ABANDON before BEGIN. -/
def TapEvent.rank (v : TapEvent) : Nat := 2 * v.engine + b2n (v.type == 1)
/-- An event joins the queue behind the earlier cycles' and, in its own cycle, by its rank (R492). -/
def tapInsert (v : TapEvent) : List TapEvent → List TapEvent
  | [] => [v]
  | x :: q => if x.time = v.time ∧ v.rank < x.rank then v :: x :: q else x :: tapInsert v q
/-- Note a command-boundary event for the tap (R491): BEGIN 1, END 2, ABANDON 3. -/
def Chip.note (c : Chip) (t e type index : Nat) : Chip :=
  if c.tapOn e && (if type = 1 then c.tapBegin else c.tapEnd) then
    { c with tapQ := tapInsert { type := type, engine := e, index := index, stream := (c.eng e).streamId, time := t } c.tapQ }
  else c

def fifoSize : Nat := 2048
/-- The pending gap as a record (Table 17.4). -/
def gapRec (f : Nat) (g : Nat × Nat) : TraceRec := { type := 0x10, fabric := f, arg16 := 1, arg32 := g.2, time := g.1 % 2 ^ 56 }
/-- The pending gap enters the FIFO (R493). -/
def Chip.enterGap (c : Chip) (f : Nat) : Chip :=
  match c.gap with
  | some g => { c with fifo := c.fifo ++ [gapRec f g], gap := none, gaps := (c.gaps + 1) % 2 ^ 32, dropped := (c.dropped + g.2) % 2 ^ 32 }
  | none => c
/-- Accept a record, or drop it into the pending gap (R493). -/
def Chip.offer (c : Chip) (f : Nat) (r : TraceRec) : Chip :=
  match c.gap with
  | none =>
    if c.fifo.length < fifoSize then { c with fifo := c.fifo ++ [r], accepted := (c.accepted + 1) % 2 ^ 32, accSince := (c.accSince + 1) % 2 ^ 32 }
    else { c with gap := some (r.time, 1) }
  | some g =>
    if c.fifo.length + 2 ≤ fifoSize then
      let c := c.enterGap f
      { c with fifo := c.fifo ++ [r], accepted := (c.accepted + 1) % 2 ^ 32, accSince := (c.accSince + 1) % 2 ^ 32 }
    else { c with gap := some (g.1, satAdd g.2 1 32) }
/-- The record of a tap event (R491, R503). -/
def tapRec (f : Nat) (v : TapEvent) : TraceRec :=
  { type := v.type, fabric := f, arg16 := v.engine + (v.stream % 128) * 512, arg32 := v.index, time := v.time % 2 ^ 56 }
/-- TAP_RECORD: the oldest boundary event becomes a record (R492). -/
def Chip.tapRecord (c : Chip) (f : Nat) : Chip :=
  match c.tapQ with
  | [] => c
  | v :: q => { c with tapQ := q }.offer f (tapRec f v)
/-- GAP_RECORD_ENTRY: a pending gap with no record arriving enters when a slot is free (R493). -/
def Chip.gapEntry (c : Chip) (f : Nat) : Chip :=
  if c.tapQ = [] ∧ c.fifo.length < fifoSize then c.enterGap f else c
/-- TAP_EN written 1 with its other bits (R494, R506). -/
def Chip.tapOnWrite (c : Chip) : Chip :=
  if c.flushing then { c with tapResume := true }
  else if c.tapEn then c
  else { c with tapEn := true, seq := 0, accSince := 0, flushed := false }
/-- TAP_EN written 0: taps stop, and the FIFO with any pending gap is sent out (R506). -/
def Chip.tapOffWrite (c : Chip) (t : Nat) : Chip :=
  if c.tapEn then { c with tapEn := false, flushing := true, emptied := t } else { c with tapResume := false }
/-- The FLUSHED record ends a flush (R506, Table 17.5). -/
def Chip.flushRec (c : Chip) (f : Nat) : TraceRec :=
  { type := 0x11, fabric := f, arg16 := 0, arg32 := c.accSince, time := c.emptied % 2 ^ 56 }
def Chip.endFlush (c : Chip) : Chip :=
  { c with flushing := false, flushed := !c.tapResume, tapResume := false, tapEn := c.tapResume,
           seq := if c.tapResume then 0 else c.seq, accSince := if c.tapResume then 0 else c.accSince }
/-- Number records in SEQ, modulo 256, from `q` (R494). -/
def numberRecs (q : Nat) : List TraceRec → List TraceRec
  | [] => []
  | r :: rs => { r with seq := q % 256 } :: numberRecs (q + 1) rs
/-- The records of the next TRACE frame, and the chip after sending it (R494, R506): the oldest 1 to 256 of the FIFO, or
the FLUSHED record once a flush has emptied it. -/
def Chip.takeTrace (c : Chip) (f t : Nat) : List TraceRec × Chip :=
  if c.fifo ≠ [] then
    let rs := c.fifo.take 256
    let rest := c.fifo.drop 256
    (numberRecs c.seq rs, { c with fifo := rest, seq := (c.seq + rs.length) % 256, emptied := if rest = [] then t else c.emptied })
  else if c.flushing ∧ c.gap = none ∧ c.tapQ = [] then
    (numberRecs c.seq [c.flushRec f], { c with seq := (c.seq + 1) % 256 }.endFlush)
  else ([], c)

/-! ### Counters (R502, R505) -/

/-- A latch copies every live counter into the shadow in one cycle; CLEAR restarts the live ones. -/
def Chip.latch (c : Chip) (t : Nat) (clear : Bool) : Chip :=
  let sh (e : Engine) : Engine :=
    let b := e.busyTotal t
    let e := { e with sDone := e.done, sHalts := e.halts, sForced := e.forcedCnt, sBusy := b }
    if clear then { e with done := 0, halts := 0, forcedCnt := 0, busyNs := 0, busyAt := if e.state.busy then t else 0 } else e
  let c := { c with engines := tmodRange {} c.engines 0 512 (fun _ e => sh e)
                    shadow := [t, c.cmdsDone, c.stops, c.accepted, c.dropped, c.gaps, c.alertCnt] }
  if clear then { c with cmdsDone := 0, stops := 0, accepted := 0, dropped := 0, gaps := 0, alertCnt := 0 } else c
/-- A write of WDA_CNT_CTRL (R502, R505). -/
def Chip.cntWrite (c : Chip) (t v : Nat) : Chip :=
  if bit v 0 then
    let T := c.cntAtLo + c.cntAtHi * 2 ^ 32
    let c := { c with cntPend := none }
    if bit v 1 then
      if T ≤ t then { c with cntLate := decide (T < t) }.latch t (bit v 2) else { c with cntPend := some (T, bit v 2), cntLate := false }
    else c.latch t (bit v 2)
  else c
/-- The waiting timed latch takes place. -/
def Chip.timedLatch (c : Chip) (t : Nat) : Chip :=
  match c.cntPend with
  | some p => if p.1 ≤ t then { c with cntPend := none }.latch t p.2 else c
  | none => c

/-! ### Halts (R374–R377) -/

/-- Record order of causes (R377): HIT, TOLL, PEAL, CHIP, CLUSTER, MUFFLE. -/
def causeRank (x : Nat) : Nat :=
  if 0x40 ≤ x then 0 else if x = 2 then 1 else if x = 1 then 2 else if x = 9 then 3 else if x = 8 then 4 else 5
/-- The first of the pending causes in that order. -/
def firstCause : List Nat → Nat
  | [] => 0
  | [x] => x
  | x :: y :: r => if causeRank x ≤ causeRank (firstCause (y :: r)) then x else firstCause (y :: r)

/-- A halt reaches a core (R377): pending at a RUNNING core until its next instruction boundary. -/
def Core.halt (u : Core) (cause : Nat) : Core :=
  match u.state with
  | .running => { u with pend := u.pend ++ [cause] }
  | .stepping => { u with resumeStep := false }
  | _ => u
/-- A muffle reaches an engine (R42, R43). Of the halts of one cycle the first in R377's order gives the cause. -/
def Engine.halt (e : Engine) (t cause : Nat) : Engine :=
  match e.state with
  | .running => { e.enter t .muffling with cause := cause, haltAt := t + 1 }
  | .idle => { e.enter t .muffled with cause := cause, haltAt := t + 1 }
  | .muffling | .muffled => if e.haltAt = t + 1 ∧ causeRank cause < causeRank e.cause then { e with cause := cause } else e
  | .forced => e

/-- STOP_SEEN is set once no core is RUNNING after a chip stop (R375). -/
def Chip.seeStop (c : Chip) : Chip := if c.stopping && c.noneRunning then { c with stopSeen := true, stopping := false } else c
/-- The halts of a chip stop with its cause; a toll or a fabric-reach hit also sets STOPREQ (R375, R380). -/
def Chip.stopUnits (c : Chip) (t cause : Nat) (req : Bool) : Chip :=
  Chip.seeStop { c with
    cores := tmodRange {} c.cores 0 32 (fun _ u => u.halt cause)
    engines := tmodRange {} c.engines 0 512 (fun _ e => e.halt t cause)
    stopping := true
    stopReq := c.stopReq || req }
/-- The stops of one cycle together: the first cause in R377's order. -/
def Chip.stopNote (c : Chip) (t cause : Nat) (req : Bool) : Option (Nat × Nat × Bool) :=
  match c.lastStop with
  | some (u, cz, rq) => if u = t then some (t, if causeRank cz ≤ causeRank cause then cz else cause, rq || req) else some (t, cause, req)
  | none => some (t, cause, req)
/-- A chip stop (R375). A counter latch of the same cycle comes first and excludes it (R513). -/
def Chip.stop (c : Chip) (t cause : Nat) (req : Bool) : Chip :=
  let c := c.timedLatch t
  { c with stops := (c.stops + 1) % 2 ^ 32, lastStop := c.stopNote t cause req }.stopUnits t cause req
/-- The halt of a cluster: 2 cores and 32 engines (R12, Table 13.4). -/
def Chip.stopCluster (c : Chip) (t k : Nat) : Chip :=
  { c with
    cores := tmodRange {} c.cores (2 * k) 2 (fun _ u => u.halt 8)
    engines := tmodRange {} c.engines (32 * k) 32 (fun _ e => e.halt t 8) }
/-- The reach of a hit in cluster `k` (R394, Table 13.4). -/
def Chip.reach (c : Chip) (t k r : Nat) : Chip :=
  if r = 1 then c.stopCluster t k
  else if r = 2 then c.stop t 9 false
  else if r = 3 then c.stop t 9 true
  else c
/-- When no unit is halted, STOP_SEEN and STOPREQ clear, and with the clock restarted the muffled links return
(R388, R419). -/
def Chip.settle (c : Chip) : Chip :=
  if c.anyHalted then c
  else
    let c := { c with stopSeen := false, stopReq := false, stopping := false }
    if c.resetHold then c
    else { c with links := tmodRange {} c.links 0 12 (fun _ l => { l with muffle := false }) }

/-- HALT_CAUSE of a hit (Table 13.2). -/
def hitCause (r src : Nat) : Nat := 0x40 + (r % 4) * 16 + src

/-! ### Engines (R42–R46, R392, R393) -/

def Engine.matchIndex (e : Engine) (i : Nat) : Bool :=
  e.cmpEn && e.cmpIndex == i && (e.cmpStream == 0 || e.cmpStream == e.streamId)
/-- A MODE BEFORE comparator matches the start of command `i`. -/
def Engine.hitsBefore (e : Engine) (i : Nat) : Bool := e.matchIndex i && !e.cmpAfter && e.cmpSkip != i + 1
def Engine.hitsAfter (e : Engine) (i : Nat) : Bool := e.matchIndex i && e.cmpAfter
/-- Index of the engine's next command, when its stream has one. -/
def Engine.next? (e : Engine) : Option Nat :=
  let i := (e.lastDone + 1) % 2 ^ 32
  if i < e.len then some i else none

/-- Index with which a FORCED engine goes on: the command abandoned, or the first of a stream loaded since (R19, R45). -/
def Engine.redo? (e : Engine) : Option Nat := if e.current < e.len then some e.current else e.next?

/-- Halt an engine on its comparator's hit and alert the hub; its reach is applied by the caller (R393, R394). -/
def Chip.engHit (c : Chip) (f t e : Nat) (cause? : Bool) : Chip :=
  let u := c.eng e
  let cz := hitCause u.cmpReach 0xC
  let u' := { u.enter t .muffled with cmpHit := true, cause := if cause? then cz else u.cause, current := noIndex,
                                      stepping := false, haltAt := t + 1, cmpSkip := if u.cmpAfter then u.cmpSkip else u.cmpIndex + 1 }
  (c.setEng e u').raise 1 (engUnit f e) cz
/-- Start command `i` in state `st`, with its BEGIN event. -/
def Chip.begin_ (c : Chip) (t e i : Nat) (st : EngState) (step : Bool) : Chip :=
  let u := c.eng e
  (c.setEng e { u.enter t st with current := i, stepping := step,
                                  cmpSkip := if u.cmpSkip = i + 1 then 0 else u.cmpSkip }).note t e 1 i
/-- Start the engine's next command, unless its comparator stops it first; the engine goes IDLE with none left. -/
def Chip.startNext (c : Chip) (f t e : Nat) : Chip × Bool :=
  let u := c.eng e
  match u.next? with
  | none => (c.setEng e { u.enter t .idle with current := noIndex, stepping := false }, false)
  | some i => if u.hitsBefore i then (c.engHit f t e true, true) else (c.begin_ t e i .running false, false)
/-- A halt reached the MUFFLING engine in this very cycle: a hit in it gives the cause (R410). -/
def Engine.haltNow (e : Engine) (t : Nat) : Bool := e.state == .muffling && !e.stepping && e.haltAt == t + 1
/-- The current command completes (R42, R43, R392, R410). -/
def Chip.complete (c : Chip) (f t e : Nat) : Chip :=
  let u := c.eng e
  if !u.state.busy then c
  else
    let i := u.current
    let wasMuffling := u.state == .muffling
    let u1 := { u with lastDone := i, done := (u.done + 1) % 2 ^ 32 }
    let c := { (c.setEng e u1).note t e 2 i with cmdsDone := (c.cmdsDone + 1) % 2 ^ 64 }
    if u1.hitsAfter i then (c.engHit f t e (!wasMuffling || u1.stepping || u.haltNow t)).reach t (e / 32) u1.cmpReach
    else if u.haltNow t && u1.next?.any u1.hitsBefore then (c.engHit f t e true).reach t (e / 32) u1.cmpReach
    else if wasMuffling then
      c.setEng e { u1.enter t .muffled with current := noIndex, stepping := false, cause := if u1.stepping then 4 else u1.cause }
    else
      let r := c.startNext f t e
      if r.2 then r.1.reach t (e / 32) u1.cmpReach else r.1
/-- Some core runs its program, and so can load a stream: a core in MONITOR loads none (R44, R391). -/
def Chip.canLoad (c : Chip) : Bool := (List.range 32).any (fun i => (c.core i).state == .running || (c.core i).state == .stepping)
/-- A core loads a stream of `n` commands (R19, R44, R46). On a halted engine the stream waits in the place of the one that
was loaded (log entry 47). A stream with the identifier of the one loaded is the misuse of R46, which lasts until a stream
with another identifier is loaded. -/
def Chip.load (c : Chip) (f t e id n : Nat) : Chip :=
  let u := c.eng e
  if c.inReset || c.resetHold || u.state.busy || n ≥ 2 ^ 32 || !c.canLoad then c
  else
    let c := c.setEng e { u with streamId := id % 2 ^ 32, len := n, lastDone := noIndex, odd := decide (u.len ≠ 0) && u.streamId == id % 2 ^ 32,
                                 current := if u.state = .forced then 0 else u.current }
    if u.state == .idle then
      let r := c.startNext f t e
      if r.2 then r.1.reach t (e / 32) u.cmpReach else r.1
    else c
/-- ENG_STEP (R392, Table 13.6). -/
def Chip.engStep (c : Chip) (t e : Nat) : Chip :=
  let u := c.eng e
  match u.state with
  | .muffled => match u.next? with
    | none => c
    | some i => c.begin_ t e i .muffling true
  | .forced => match u.redo? with
    | none => c
    | some i => c.begin_ t e i .muffling true
  | _ => c
/-- WDA_FORCE: every MUFFLING engine becomes FORCED (R45, R418). -/
def Chip.force (c : Chip) (t : Nat) : Chip :=
  (List.range 512).foldl (fun c e =>
    let u := c.eng e
    if u.state = .muffling then
      (c.setEng e { u.enter t .forced with cause := 5, stepping := false, forcedCnt := (u.forcedCnt + 1) % 2 ^ 16 }).note t e 3 u.current
    else c) c
/-- Resume one engine (Table 13.3): the chip and whether its comparator stopped it again. -/
def Chip.resumeEng (c : Chip) (f t e : Nat) : Chip × Bool :=
  let u := c.eng e
  match u.state with
  | .muffling => (c.setEng e { u.enter t .running with stepping := false }, false)
  | .muffled => c.startNext f t e
  | .forced => match u.redo? with
    | none => c.startNext f t e
    | some i => (c.begin_ t e i .running false, false)
  | _ => (c, false)
/-- Resume one core (Table 13.3, R393). -/
def Core.resume (u : Core) : Core :=
  match u.state with
  | .monitor => { u with state := .running, skipBrk := if u.brkAt = some u.pc then some u.pc else none, brkAt := none }
  | .stepping => { u with resumeStep := true }
  | _ => u

/-! ### Selection and GO (R388, R389) -/

def selected (g : TimedGo) (cls : Bool) (i : Nat) : Bool :=
  g.all || (if cls then bit (tget 0 g.engs (i / 32)) (i % 32) else bit g.cores i)
/-- The end of a resume: the chip settles, or the stop of this very cycle acts after it (R388, R410). -/
def Chip.resumed (c : Chip) (t : Nat) : Chip :=
  match c.lastStop with
  | some (u, cz, rq) =>
    if u = t then { c with stopSeen := c.stopSeen && c.anyHalted, stopReq := c.stopReq && c.anyHalted }.stopUnits t cz rq else c.settle
  | none => c.settle
/-- Act on the selected units in one WDA cycle (R388): a resume acts on all before any hit's reach or stop (R410). -/
def Chip.act (c : Chip) (f t : Nat) (g : TimedGo) : Chip :=
  if g.resume then
    let c := { c with cores := tmodRange {} c.cores 0 32 (fun i u => if selected g false i then u.resume else u) }
    let r := (List.range 512).foldl (fun (p : Chip × List Nat) e =>
      if selected g true e then
        let q := p.1.resumeEng f t e
        (q.1, if q.2 then p.2 ++ [e] else p.2)
      else p) (c, [])
    r.2.foldl (fun c e => c.reach t (e / 32) (c.eng e).cmpReach) (r.1.resumed t)
  else
    { c with cores := tmodRange {} c.cores 0 32 (fun i u => if selected g false i then u.halt 3 else u)
             engines := tmodRange {} c.engines 0 512 (fun i e => if selected g true i then e.halt t 3 else e) }
/-- A write of WDA_RC_GO (R388, R389, Table 13.5). -/
def Chip.go (c : Chip) (f t v : Nat) : Chip :=
  let a := fld v 0 2
  if a = 1 ∨ a = 2 then
    let g : TimedGo := { cores := c.selCores, engs := c.selEng, all := bit v 3, resume := a == 2, at_ := c.rcAtLo + c.rcAtHi * 2 ^ 32 }
    let c := { c with timed := none, selCores := 0, selEng := [] }
    if bit v 2 ∧ t < g.at_ then { c with timed := some g } else c.act f t g
  else c
/-- A pending timed GO acts when the chip's time reaches its latched time (R389). -/
def Chip.timedAct (c : Chip) (f t : Nat) : Chip :=
  match c.timed with
  | some g => if g.at_ ≤ t then { c with timed := none }.act f t g else c
  | none => c

/-! ### Tolls (R383) -/

/-- The armed T is reached. -/
def Chip.tollFire (c : Chip) (t : Nat) : Chip :=
  match c.toll with
  | some T => if T ≤ t then { c with toll := none, tollFired := true }.stop t 2 true else c
  | none => c
/-- A write of WDA_TOLL_CTRL. A toll whose T has passed fires first (R386); LATE is a T already past. -/
def Chip.tollWrite (c : Chip) (t v : Nat) : Chip :=
  let c := if c.toll.any (fun T => T < t) then c.tollFire t else c
  if bit v 0 then
    let T := c.tollLo + c.tollHi * 2 ^ 32
    if T ≤ t then { c with toll := none, tollFired := true, tollLate := decide (T < t) }.stop t 2 true
    else { c with toll := some T, tollFired := false, tollLate := false }
  else { c with toll := none }

/-! ### Cores (R391, R393, R397) -/

/-- CORE_STEP. -/
def Chip.coreStep (c : Chip) (i : Nat) : Chip :=
  let u := c.core i
  if u.state = .monitor then c.setCore i { u with state := .stepping, resumeStep := false, brkAt := none } else c
/-- The stepped instruction ends with the next instruction at `pc` (R391, Table 13.3). -/
def Chip.coreStepEnd (c : Chip) (i pc : Nat) : Chip :=
  let u := c.core i
  if u.state = .stepping then
    if u.resumeStep then (c.setCore i { u with state := .running, pc := pc % 2 ^ 32, cause := 4, resumeStep := false }).settle
    else c.setCore i { u with state := .monitor, pc := pc % 2 ^ 32, cause := 4 }
  else c
/-- A halt reaches a core that holds no monitor, or one whose monitor area is being written: what Table 18.3 then leaves open
(R22, R157). -/
def Core.mishalt (u : Core) : Core := { u with odd := Nat.max u.odd (if u.half ≠ 0 then 2 else if u.monitor then 0 else 1) }
/-- A core with a pending halt enters MONITOR at its next instruction boundary (R375, R377). -/
def Chip.debugEntry (c : Chip) (t i pc : Nat) : Chip :=
  let u := c.core i
  if u.state = .running ∧ u.pend ≠ [] then
    (c.setCore i { u.mishalt with state := .monitor, cause := firstCause u.pend, pend := [], pc := pc % 2 ^ 32, haltAt := t + 1 }).seeStop
  else c
/-- The core is at the boundary before `pc` and entered MONITOR there in this very cycle: further comparators match there too. -/
def Core.haltedNow (u : Core) (t pc : Nat) : Bool := u.state == .monitor && u.haltAt == t + 1 && u.pc == pc
/-- A hit halts its core (R377, R393): the first HIT of the boundary gives the cause. -/
def Core.takeHit (u : Core) (t cz pc : Nat) : Core :=
  if u.state = .monitor then { u with cause := if 0x40 ≤ u.cause then u.cause else cz }
  else { u.mishalt with state := .monitor, cause := cz, pend := [], pc := pc % 2 ^ 32, resumeStep := false, skipBrk := none, haltAt := t + 1 }
/-- A breakpoint of a core matches as it is about to execute the instruction at `pc`; `first` when that is the first instruction
since its resume (R393). -/
def Chip.brkHit (c : Chip) (f t i n pc : Nat) (first : Bool) : Chip :=
  let u := c.core i
  let b := tget {} u.brk n
  if (u.state = .running ∨ u.haltedNow t pc) ∧ (u.brkOdd ≠ 0 ∨ b.en ∧ b.addr = pc ∧ !(first && u.skipBrk == some pc)) then
    let cz := hitCause b.reach n
    let u' := { u.takeHit t cz pc with brkAt := some pc, brk := tput {} u.brk n { b with hit := true } }
    (((c.setCore i u').raise 1 (coreUnit f i) cz).reach t (i / 2) b.reach).seeStop
  else c
/-- A watchpoint of a core matches an access of the instruction before `pc` (R391, R393). -/
def Chip.wpHit (c : Chip) (f t i n pc : Nat) : Chip :=
  let u := c.core i
  let b := tget {} u.wp n
  if (u.state = .running ∨ u.state = .stepping ∨ u.haltedNow t pc) ∧ (u.brkOdd ≠ 0 ∨ b.en) then
    let cz := hitCause b.reach (8 + n)
    let u' := { u.takeHit t cz pc with wp := tput {} u.wp n { b with hit := true } }
    (((c.setCore i u').raise 1 (coreUnit f i) cz).reach t (i / 2) b.reach).seeStop
  else c
/-- HIT of source `src` (Table 13.2) in core or engine `i` (R393, R394): 0–7 breakpoint, 8–11 watchpoint, 12 comparator. -/
def Chip.hit (c : Chip) (f t : Nat) (engine : Bool) (i src pc : Nat) (first : Bool) : Chip :=
  if engine then
    let u := c.eng i
    let i' := (u.current + 1) % 2 ^ 32
    if src = 12 ∧ u.brkOdd ≠ 0 then
      (if u.state = .running then (c.setEng i { u with cmpEn := true, cmpAfter := true, cmpStream := 0, cmpIndex := u.current }).complete f t i else c)
    else if src = 12 ∧ (u.state = .running ∨ u.haltNow t) ∧ (u.hitsAfter u.current ∨ (i' < u.len ∧ u.hitsBefore i')) then c.complete f t i else c
  else if src < 8 then c.brkHit f t i src pc first
  else if src < 12 then c.wpHit f t i (src - 8) pc
  else c

/-- The default monitor answers on this core (R22, R436). -/
def Core.answers (u : Core) : Bool := u.state == .monitor && u.monitor
/-- A hub write to MBX_IN (R397). A monitor that has taken a CTX_WRITE word awaits the value (Table 15.1). -/
def Core.mbxInWrite (u : Core) (w : Word) : Core :=
  let wr := if u.answers && u.inFull && u.monWr.isNone && fld u.mbxIn.toNat 28 4 == 2 then some (fld u.mbxIn.toNat 0 6) else u.monWr
  { u with mbxIn := w, inFull := true, monWr := wr }
/-- What the default monitor does with the word it reads from MBX_IN: the reply, if any (Table 15.1). -/
def Core.monitorReply (u : Core) : Core × Option Word :=
  let v := u.mbxIn.toNat
  let u' := { u with inFull := false }
  match u.monWr with
  | some i => ({ u' with ctx := tput 0 u.ctx i u.mbxIn, monWr := none }, some 0)
  | none =>
    if fld v 28 4 = 1 then (u', some (tget 0 u.ctx (fld v 0 6)))
    else if fld v 28 4 = 2 then ({ u' with monWr := some (fld v 0 6) }, none)
    else if fld v 28 4 = 3 then (u', some 0x4D4E0001)
    else (u', some 0xFFFFFFFF)
/-- A core writes MBX_OUT: OUT_FULL and a MAILBOX alert (R397). A core whose default monitor holds an unread command
writes that command's reply; any other core writes the word `w` of its own program, as does a staged monitor that does not
answer Table 15.1: the misuse of R436. -/
def Chip.mbxOut (c : Chip) (f i : Nat) (w : Word) : Chip :=
  let u := c.core i
  if u.answers && u.inFull then
    let r := u.monitorReply
    match r.2 with
    | none => c.setCore i r.1
    | some x =>
      if u.staged ∧ w ≠ x then (c.setCore i { r.1 with mbxOut := w, outFull := true, odd := 3 }).raise 2 (coreUnit f i) w.toNat
      else (c.setCore i { r.1 with mbxOut := x, outFull := true }).raise 2 (coreUnit f i) x.toNat
  else (c.setCore i { u with mbxOut := w, outFull := true }).raise 2 (coreUnit f i) w.toNat

/-! ### Reset and stop input (R47, R95, R353) -/

/-- A chip reset: registers and units return to reset; the link layer keeps its alert numbering and sends RESET. What the
memories then hold is open (log entry 6): `m`. -/
def Chip.resetChip (c : Chip) (m : Mem) : Chip :=
  let fresh : Chip := { alerts := c.alerts, alertNum := c.alertNum, ftAdj := c.ftAdj, mem := m, inReset := true, seenHigh := false, stopIn := false }
  fresh.holdAlert 7 0 0
/-- The WDA leaves reset with its stop input at level `high` (R95, R353). -/
def Chip.ready (c : Chip) (high : Bool) : Chip :=
  if c.inReset then
    let c := { c with inReset := false, seenHigh := high, stopIn := high, resetHold := !high,
                      cores := if high then c.cores else tmodRange {} c.cores 0 32 (fun _ (u : Core) => { u with state := CoreState.held }) }
    c.raise 8 0 0
  else c
/-- The stop input is first seen high: the reset hold ends (R95). -/
def Chip.holdEnd (c : Chip) : Chip :=
  if c.inReset || c.seenHigh then c
  else
    let c := { c with seenHigh := true, stopIn := true, resetHold := false
                      cores := tmodRange {} c.cores 0 32 (fun _ (u : Core) => if u.state = CoreState.held then { u with state := .running } else u) }
    c.settle
/-- The stop input falls after it was first seen high: a peal in the chip (R95). -/
def Chip.inputFall (c : Chip) (t : Nat) : Chip :=
  if !c.inReset && c.seenHigh && c.stopIn then { c with stopIn := false }.stop t 1 false else c

/-! ### The chip address map (R23–R25, Table 1.2, Tables 1.3–1.14, 13.5–13.9, 14.1, 17.6) -/

def EngState.code : EngState → Nat
  | .idle => 0 | .running => 1 | .muffling => 2 | .muffled => 3 | .forced => 4
def CoreState.code : CoreState → Nat
  | .running => 0 | .monitor => 1 | .stepping => 2 | .held => 3
def Engine.status (e : Engine) : Nat := e.state.code + 8 + place e.cause 8 8
def Core.status (u : Core) : Nat := u.state.code + place u.cause 8 8
def Core.pcRead (u : Core) : Nat := if u.state = CoreState.held then 0 else u.pc
def Engine.currentRead (e : Engine) : Nat := if e.state.busy || e.state == .forced then e.current else noIndex
/-- WDA_LINK_n (Table 1.8, R29). -/
def Link.reg (l : Link) : Nat :=
  let ok := l.peerValid && (l.state == 2 || l.state == 3)
  (if ok then l.peerFabric + 0x80 + place l.peerLink 8 4 else 0x7F) + place l.state 12 2
/-- Comparator control registers (Table 13.8). -/
def Comparator.ctrl (b : Comparator) (wp : Bool) : Nat :=
  b2n b.en + place b.reach 1 2 + place (b2n b.hit) 3 1 + (if wp then place b.access 5 2 + place b.size 8 5 else 0)
def Comparator.setCtrl (b : Comparator) (v : Nat) (wp : Bool) : Comparator :=
  let b := { b with en := bit v 0, reach := fld v 1 2, hit := false }
  if wp then { b with access := fld v 5 2, size := fld v 8 5 } else b
def Engine.cmpCtrl (e : Engine) : Nat := b2n e.cmpEn + place e.cmpReach 1 2 + place (b2n e.cmpHit) 3 1 + place (b2n e.cmpAfter) 4 1
/-- The 16-byte unit entries of a snapshot, as words (Table 14.6). -/
def Chip.snapCore (c : Chip) (i w : Nat) : Nat :=
  let u := c.core i
  if w = 0 then u.status else if w = 1 then u.pcRead else 0
def Chip.snapEng (c : Chip) (e w : Nat) : Nat :=
  let u := c.eng e
  if w = 0 then u.status else if w = 1 then u.lastDone else if w = 2 then u.streamId else u.currentRead
/-- Words of the chip counter shadow (Table 17.7) and of an engine's (Table 17.8). -/
def Chip.shadowWord (c : Chip) (w : Nat) : Nat :=
  let g := fun k => c.shadow.getD k 0
  if w = 0 then lo32 (g 0) else if w = 1 then hi32 (g 0) else if w = 2 then lo32 (g 1) else if w = 3 then hi32 (g 1)
  else if w < 9 then g (w - 2) else 0
def Engine.shadowWord (e : Engine) (w : Nat) : Nat :=
  if w = 0 then e.sDone else if w = 1 then e.sHalts + place e.sForced 16 16 else if w = 2 then lo32 e.sBusy else hi32 e.sBusy

/-- A 32-bit read of the WDA register range at offset `o` (Tables 1.3, 13.5, 14.1, 17.6). -/
def Chip.wdaRead (c : Chip) (t o : Nat) : Nat :=
  if o = 0 then 0x01000C10
  else if o = 4 then c.faddr + place (b2n c.assigned) 31 1
  else if o = 0x10 then c.smapLo
  else if o = 0x14 then c.smapHi
  else if o = 0x20 then lo32 t
  else if o = 0x24 then c.ftHi
  else if o = 0x30 then b2n c.clkStopped
  else if 0x100 ≤ o ∧ o < 0x130 then (c.link ((o - 0x100) / 4)).reg
  else if o = 0x200 then b2n c.stopSeen + place (b2n c.stopReq) 1 1 + place (b2n c.clkStopped) 2 1 + place (b2n c.timed.isSome) 3 1
  else if o = 0x204 then maskOf 32 (fun i => (c.core i).state.halted)
  else if o = 0x208 then maskOf 32 (fun i => (c.core i).state == .held)
  else if 0x210 ≤ o ∧ o < 0x250 then maskOf 32 (fun j => (c.eng (32 * ((o - 0x210) / 4) + j)).state.halted)
  else if 0x250 ≤ o ∧ o < 0x290 then maskOf 32 (fun j => (c.eng (32 * ((o - 0x250) / 4) + j)).state.still)
  else if o = 0x290 then c.selCores
  else if 0x2A0 ≤ o ∧ o < 0x2E0 then tget 0 c.selEng ((o - 0x2A0) / 4)
  else if o = 0x2E8 then c.rcAtLo
  else if o = 0x2EC then c.rcAtHi
  else if o = 0x300 then c.tollLo
  else if o = 0x304 then c.tollHi
  else if o = 0x308 then b2n c.toll.isSome + place (b2n c.tollFired) 1 1 + place (b2n c.tollLate) 2 1
  else if o = 0x410 then maskOf 12 (fun n => (c.link n).muffle)
  else if 0x440 ≤ o ∧ o < 0x4A0 then
    let l := c.link ((o - 0x440) / 8)
    if (o - 0x440) % 8 < 4 then l.tx else l.rx
  else if o = 0x500 then b2n (c.tapEn || c.tapResume) + place (b2n c.tapBegin) 1 1 + place (b2n c.tapEnd) 2 1 + place c.tapClusters 16 16
  else if o = 0x504 then c.tapEngines
  else if o = 0x508 then c.fifo.length + place (b2n c.gap.isSome) 12 1 + place (b2n c.flushed) 13 1
  else if o = 0x600 then place (b2n c.cntPend.isSome) 3 1 + place (b2n c.cntLate) 4 1
  else if o = 0x608 then c.cntAtLo
  else if o = 0x60C then c.cntAtHi
  else if 0x640 ≤ o ∧ o < 0x680 then c.shadowWord ((o - 0x640) / 4)
  else if 0x4000 ≤ o ∧ o < 0x4200 then c.snapCore ((o - 0x4000) / 16) ((o % 16) / 4)
  else if 0x4200 ≤ o ∧ o < 0x6200 then c.snapEng ((o - 0x4200) / 16) ((o % 16) / 4)
  else if 0x8000 ≤ o ∧ o < 0xE000 then mreadNat c.linkbuf (o - 0x8000) 4
  else if 0xE000 ≤ o ∧ o < 0x10000 then (c.eng ((o - 0xE000) / 16)).shadowWord ((o % 16) / 4)
  else 0
/-- What a read of the range also does: WDA_FTIME_LO latches the high half (R27). -/
def Chip.wdaReadFx (c : Chip) (t o : Nat) : Chip := if o = 0x20 then { c with ftHi := hi32 t } else c

/-- A 32-bit read of a core's debug window (Tables 1.9, 13.6, 13.9). -/
def Core.read (u : Core) (o : Nat) : Nat :=
  if o = 0 then u.status
  else if o = 4 then u.pcRead
  else if o = 0x80 then u.mbxIn.toNat
  else if o = 0x84 then u.mbxOut.toNat
  else if o = 0x88 then b2n u.inFull + place (b2n u.outFull) 1 1
  else if 0x100 ≤ o ∧ o < 0x140 then
    let b := tget {} u.brk ((o - 0x100) / 8)
    if o % 8 = 0 then b.addr else b.ctrl false
  else if 0x140 ≤ o ∧ o < 0x160 then
    let b := tget {} u.wp ((o - 0x140) / 8)
    if o % 8 = 0 then b.addr else b.ctrl true
  else 0
/-- A hub read of MBX_OUT clears OUT_FULL (R397). -/
def Core.readFx (u : Core) (o : Nat) : Core := if o = 0x84 then { u with outFull := false } else u
/-- A 32-bit read of an engine's debug window. -/
def Engine.read (e : Engine) (o : Nat) : Nat :=
  if o = 0 then e.status else if o = 4 then e.lastDone else if o = 8 then e.streamId else if o = 0xC then e.currentRead
  else if o = 0x100 then e.cmpIndex else if o = 0x104 then e.cmpStream else if o = 0x108 then e.cmpCtrl else 0

/-- Address ranges of Table 1.2. -/
def wdaBase : Nat := 0x1020000000
def coreWin : Nat := 0x1030000000
def engWin : Nat := 0x1030100000
def lstoreBase : Nat := 0x1000000000
def coreMemBase : Nat := 0x1010000000
/-- DRAM, a local store or a core memory. -/
def inMemory (a : Nat) : Bool :=
  a < 0x1000000000 || (lstoreBase ≤ a && a < lstoreBase + 0x8000000) || (coreMemBase ≤ a && a < coreMemBase + 0x200000)
/-- A register range: WDA registers or a debug window. -/
def inRegs (a : Nat) : Bool :=
  (wdaBase ≤ a && a < wdaBase + 0x10000) || (coreWin ≤ a && a < coreWin + 0x20000) || (engWin ≤ a && a < engWin + 0x200000)

/-- One 32-bit register of the chip; addresses outside Table 1.2 read 0 (R24). -/
def Chip.reg (c : Chip) (t a : Nat) : Nat :=
  if wdaBase ≤ a ∧ a < wdaBase + 0x10000 then c.wdaRead t (a - wdaBase)
  else if coreWin ≤ a ∧ a < coreWin + 0x20000 then (c.core ((a - coreWin) / 0x1000)).read ((a - coreWin) % 0x1000)
  else if engWin ≤ a ∧ a < engWin + 0x200000 then (c.eng ((a - engWin) / 0x1000)).read ((a - engWin) % 0x1000)
  else 0
def Chip.regFx (c : Chip) (t a : Nat) : Chip :=
  if wdaBase ≤ a ∧ a < wdaBase + 0x10000 then c.wdaReadFx t (a - wdaBase)
  else if coreWin ≤ a ∧ a < coreWin + 0x20000 then
    let i := (a - coreWin) / 0x1000
    c.setCore i ((c.core i).readFx ((a - coreWin) % 0x1000))
  else c
/-- `n` registers from `a` in ascending order (R347): the bytes read and the chip after the reads. -/
def Chip.regs (c : Chip) (t a : Nat) : Nat → List Byte × Chip
  | 0 => ([], c)
  | n + 1 =>
    let v := c.reg t a
    let r := (c.regFx t a).regs t (a + 4) n
    (leBytes 4 v ++ r.1, r.2)
/-- A READ of `len` bytes at `a` (R24, R25, R347). -/
def Chip.read (c : Chip) (t a len : Nat) : List Byte × Chip :=
  if inMemory a then (mread c.mem a len, c) else c.regs t a (len / 4)

/-- A 32-bit write of the WDA register range at offset `o` (R8, Tables 1.3, 13.5, 14.1, 17.6). -/
def Chip.wdaWrite (c : Chip) (f t o v : Nat) : Chip :=
  if o = 4 then { c with faddr := fld v 0 7, assigned := bit v 31 }
  else if o = 0x10 then { c with smapLo := v - v % 64 }
  else if o = 0x14 then { c with smapHi := v % 256 }
  else if o = 0x290 then { c with selCores := v }
  else if 0x2A0 ≤ o ∧ o < 0x2E0 then { c with selEng := tput 0 c.selEng ((o - 0x2A0) / 4) v }
  else if o = 0x2E0 then c.go f t v
  else if o = 0x2E8 then { c with rcAtLo := v }
  else if o = 0x2EC then { c with rcAtHi := v }
  else if o = 0x300 then { c with tollLo := v }
  else if o = 0x304 then { c with tollHi := v }
  else if o = 0x308 then c.tollWrite t v
  else if o = 0x400 then (if bit v 0 then c.force t else c)
  else if o = 0x410 then { c with links := tmodRange {} c.links 0 12 (fun n l => if bit v n then { l with muffle := true } else l) }
  else if o = 0x500 then
    let c := { c with tapBegin := bit v 1, tapEnd := bit v 2, tapClusters := fld v 16 16 }
    if bit v 0 then c.tapOnWrite else c.tapOffWrite t
  else if o = 0x504 then { c with tapEngines := v }
  else if o = 0x600 then c.cntWrite t v
  else if o = 0x608 then { c with cntAtLo := v }
  else if o = 0x60C then { c with cntAtHi := v }
  else c
/-- A 32-bit write of a core's debug window (Table 13.6). -/
def Chip.coreWrite (c : Chip) (i o v : Nat) : Chip :=
  let u := c.core i
  if o = 0x40 then (if bit v 0 then c.coreStep i else c)
  else if o = 0x80 then c.setCore i (u.mbxInWrite (BitVec.ofNat 32 v))
  else if 0x100 ≤ o ∧ o < 0x140 then
    let n := (o - 0x100) / 8
    let b := tget {} u.brk n
    c.setCore i { u with brk := tput {} u.brk n (if o % 8 = 0 then { b with addr := v } else b.setCtrl v false) }
  else if 0x140 ≤ o ∧ o < 0x160 then
    let n := (o - 0x140) / 8
    let b := tget {} u.wp n
    c.setCore i { u with wp := tput {} u.wp n (if o % 8 = 0 then { b with addr := v } else b.setCtrl v true) }
  else c
/-- A 32-bit write of an engine's debug window (Table 13.6). -/
def Chip.engWrite (c : Chip) (t e o v : Nat) : Chip :=
  let u := c.eng e
  if o = 0x40 then (if bit v 0 then c.engStep t e else c)
  else if o = 0x100 then c.setEng e { u with cmpIndex := v }
  else if o = 0x104 then c.setEng e { u with cmpStream := v }
  else if o = 0x108 then c.setEng e { u with cmpEn := bit v 0, cmpReach := fld v 1 2, cmpHit := false, cmpAfter := bit v 4 }
  else c
/-- One 32-bit register write; outside Table 1.2 it is discarded (R24). -/
def Chip.regWrite (c : Chip) (f t a v : Nat) : Chip :=
  if wdaBase ≤ a ∧ a < wdaBase + 0x10000 then c.wdaWrite f t (a - wdaBase) v
  else if coreWin ≤ a ∧ a < coreWin + 0x20000 then c.coreWrite ((a - coreWin) / 0x1000) ((a - coreWin) % 0x1000) v
  else if engWin ≤ a ∧ a < engWin + 0x200000 then c.engWrite t ((a - engWin) / 0x1000) ((a - engWin) % 0x1000) v
  else c
/-- A WRITE (R24, R25, R347): memory takes every byte; a register range takes bytes 0–3. -/
def Chip.write (c : Chip) (f t a : Nat) (d : List Byte) : Chip :=
  if inMemory a then { c with mem := mwrite c.mem a d }
  else c.regWrite f t a (leNat (d.take 4))

/-- The memory that commands of the engines picked by `p` may write (R18): their local stores and the chip's DRAM. -/
def touched (p : Nat → Bool) (a : Nat) : Bool :=
  a < 0x1000000000 || (lstoreBase ≤ a && a < lstoreBase + 0x8000000 && p ((a - lstoreBase) / 0x40000))
/-- From `c` to `d`, engine `e` has completed a command or been forced out of one. -/
def Chip.ended (c d : Chip) (e : Nat) : Bool :=
  ((c.eng e).state.busy && (d.eng e).lastDone != (c.eng e).lastDone) || ((c.eng e).state == .muffling && (d.eng e).state == .forced)
/-- Memory that holds open bytes, `fresh`, at the addresses `p` picks. -/
def Mem.reopen (m fresh : Mem) (p : Nat → Bool) : Mem :=
  (fresh.filter (fun x => p x.1)).foldl (fun m x => mput m x.1 x.2) (m.filter (fun x => !p x.1))
/-- What the spec leaves open of the register bytes at `a`, 4 bytes of one register: a running core's UNIT_PC is a sample
(Table 1.14), and the window of a unit under a misuse reads anything (Table 18.3). -/
def Chip.regOpen (c : Chip) (a : Nat) : Bool :=
  if coreWin ≤ a ∧ a < coreWin + 0x20000 then
    let u := c.core ((a - coreWin) / 0x1000)
    let o := (a - coreWin) % 0x1000
    u.wild || ((u.odd == 1 || c.mbxOpen) && 0x80 ≤ o && o < 0x8C) || (u.brkOdd != 0 && 0x100 ≤ o && o < 0x160) || (o / 4 == 1 && (u.state == .running || u.state == .stepping))
  else if engWin ≤ a ∧ a < engWin + 0x200000 then
    let u := c.eng ((a - engWin) / 0x1000)
    u.wild || (u.brkOdd != 0 && 0x100 ≤ (a - engWin) % 0x1000 && (a - engWin) % 0x1000 < 0x10C)
  else if wdaBase + 0x4000 ≤ a ∧ a < wdaBase + 0x4200 then
    let u := c.core ((a - wdaBase - 0x4000) / 16)
    u.wild || (a % 16 / 4 == 1 && (u.state == .running || u.state == .stepping))
  else if wdaBase + 0x4200 ≤ a ∧ a < wdaBase + 0x6200 then (c.eng ((a - wdaBase - 0x4200) / 16)).wild
  else if wdaBase + 0xE000 ≤ a ∧ a < wdaBase + 0x10000 then (c.eng ((a - wdaBase - 0xE000) / 16)).wild
  else false
/-- Every engine is still (R418). -/
def Chip.allStill (c : Chip) : Bool := c.engines.all (fun p => p.2.state.still)
/-- A core that executes its program. -/
def Core.runs (u : Core) : Bool := u.state == .running || u.state == .stepping
/-- Nothing in the chip changes its DRAM: no core executes, no engine is in a command, and its DMA is frozen (R18, R20, R21, R48). -/
def Chip.quiet (c : Chip) : Bool := c.clkStopped && c.allStill && (List.range 32).all (fun n => !(c.core n).runs)
/-- The monitor area of core memory at `a` of a core that holds an installed monitor: its program does not write it (R22). -/
def Chip.monArea (c : Chip) (a : Nat) : Bool := 0xE000 ≤ a % 0x10000 && (c.core ((a - coreMemBase) / 0x10000)).monitor
/-- The bytes that programs and DMA transfers leave as they will when the chip goes from `c` to `d`: the DRAM once it is quiet, and
the memory of a core that has stopped. -/
def Chip.settles (c d : Chip) : Nat → Bool :=
  let dram := !c.quiet && d.quiet
  fun a =>
    if a < 0x1000000000 then dram
    else coreMemBase ≤ a && a < coreMemBase + 0x200000 && !d.monArea a &&
      (c.core ((a - coreMemBase) / 0x10000)).runs && !(d.core ((a - coreMemBase) / 0x10000)).runs
/-- What it leaves open of the byte at `a`: beside registers, the memory of a unit under a misuse, the local store of an
engine in the middle of a command, the DRAM while anything in the chip may write it, and the memory of a core that runs (R18,
R20–R22, R48). -/
def Chip.openAt (c : Chip) (a : Nat) : Bool :=
  if a < 0x1000000000 then !c.quiet
  else if lstoreBase ≤ a ∧ a < lstoreBase + 0x8000000 then
    let u := c.eng ((a - lstoreBase) / 0x40000)
    u.wild || u.state.busy
  else if coreMemBase ≤ a ∧ a < coreMemBase + 0x200000 then
    let u := c.core ((a - coreMemBase) / 0x10000)
    u.wild || (u.runs && !c.monArea a)
  else c.regOpen a
/-- An alert the WDA raises on its own (R360, Table 12.4). A LINK_CHANGE comes with the link's new STATE; a watchdog is held
while the peripheral clock is stopped (R20); causes the table does not list are never sent. -/
def Chip.alertOwn (c : Chip) (cause unit info : Nat) : Chip :=
  if cause = 0 ∨ 8 < cause ∨ (cause = 6 ∧ c.clkStopped) then c
  else
    let n := fld info 0 4
    let c := if cause = 5 ∧ n < 12 ∧ fld info 4 2 ≠ 3 then { c with links := tput {} c.links n { c.link n with train := fld info 4 2 } } else c
    c.raise cause unit info

/-- The stopped test of a halt picture (R416). -/
def Chip.stopped (c : Chip) : Bool :=
  c.stopSeen && c.noneRunning && (List.range 512).all (fun e => (c.eng e).state != .running)

end Sys2Proof.Machine
end

