-- ==== Sys2Proof/Machine/Ops.lean ====
section
/-! DEFINITION. The named operations over the state that every meaning shares: reading and writing each table, time,
free values, Carillon activations, MSI-X requests and work-item bookkeeping. -/

namespace Sys2Proof.Machine

/-! ### Tables -/

def State.chip (s : State) (f : Nat) : Chip := tget {} s.chips f
def State.setChip (s : State) (f : Nat) (c : Chip) : State :=
  if f < 128 then { s with chips := tput {} s.chips f c } else s
def State.chain (s : State) (k : Nat) : Chain := tget {} s.bhv.chains k
def State.setChain (s : State) (k : Nat) (c : Chain) : State :=
  if k < 8 then { s with bhv := { s.bhv with chains := tput {} s.bhv.chains k c } } else s
def State.ring (s : State) (n : Nat) : Ring := tget {} s.rings n
def State.setRing (s : State) (n : Nat) (r : Ring) : State :=
  if n < 512 then { s with rings := tput {} s.rings n r } else s
def State.counter (s : State) (k : Nat) : Counter := tget {} s.counters k
def State.setCounter (s : State) (k : Nat) (c : Counter) : State :=
  if k < 4096 then { s with counters := tput {} s.counters k c } else s
def State.src (s : State) (n : Nat) : Source := tget {} s.car.sources n
def State.setSrc (s : State) (n : Nat) (v : Source) : State :=
  if n < 256 then { s with car := { s.car with sources := tput {} s.car.sources n v } } else s
def State.queue (s : State) (q : Nat) : Queue := tget {} s.car.queues q
def State.setQueue (s : State) (q : Nat) (v : Queue) : State :=
  if q < 64 then { s with car := { s.car with queues := tput {} s.car.queues q v } } else s
/-- Reset POLARITY of line `n`: active low for lines 0–15 and 17 (Table 11.5). -/
def lineReset (n : Nat) : Line := { high := !(n < 16 || n == 17) }
def State.line (s : State) (n : Nat) : Line :=
  match s.car.lines.find? (fun p => p.1 == n) with
  | some p => p.2
  | none => lineReset n
def State.setLine (s : State) (n : Nat) (v : Line) : State :=
  if n < 32 then
    { s with car := { s.car with lines := (s.car.lines.filter (fun p => p.1 < n)) ++ (if v = lineReset n then [] else [(n, v)]) ++ s.car.lines.filter (fun p => n < p.1) } }
  else s
def State.se (s : State) (e : Nat) : StrokeEngine := tget {} s.hub.engines e
def State.setSe (s : State) (e : Nat) (v : StrokeEngine) : State :=
  if e < 4 then { s with hub := { s.hub with engines := tput {} s.hub.engines e v } } else s
def State.ctx (s : State) (n : Nat) : Ctx := tget {} s.dmp.ctx n
def State.setCtx (s : State) (n : Nat) (c : Ctx) : State :=
  if n < 5 then { s with dmp := { s.dmp with ctx := tput {} s.dmp.ctx n c } } else s
def State.tchip (s : State) (f : Nat) : TraceChip := tget {} s.trc.chips f
def State.setTchip (s : State) (f : Nat) (c : TraceChip) : State :=
  if f < 128 then { s with trc := { s.trc with chips := tput {} s.trc.chips f c } } else s
def State.topo (s : State) (f : Nat) : Topo := tget {} s.bhv.topo f
def State.setTopo (s : State) (f : Nat) (t : Topo) : State :=
  if f < 128 then { s with bhv := { s.bhv with topo := tput {} s.bhv.topo f t } } else s

/-- A byte of the NOR; the store keeps complements, so an unlisted byte reads erased, 0xFF. -/
def State.norByte (s : State) (a : Nat) : Byte := ~~~ mget s.nor a
def State.norRead (s : State) (a n : Nat) : List Byte := (List.range n).map (fun i => s.norByte (a + i))
def State.norWrite (s : State) (a : Nat) (d : List Byte) : State := { s with nor := mwrite s.nor a (d.map (fun b => ~~~ b)) }
/-- Bytes that the NOR fitted holds, with 3-byte addresses or 4-byte ones: the largest that each allows (R89, R142, log
entry 91). -/
def State.norSize (s : State) : Nat := if bit s.pwr.straps 0 then 0x4000000 else 0x1000000
/-- Erase `n` bytes from `a`. -/
def State.norErase (s : State) (a n : Nat) : State := { s with nor := s.nor.filter (fun p => !(a ≤ p.1 && p.1 < a + n)) }

/-- Chips of chain `k` pull STOP_N_IN_k low while one holds STOPREQ (R380). -/
def State.stopInPad (s : State) (k : Nat) : Bool := !(s.chips.any (fun p => p.1 / 16 == k && p.2.stopReq))
/-- The WDAs of chain `k` pull ALERT_N_k low while one of them holds an alert not acknowledged (R351). -/
def State.alertPad (s : State) (k : Nat) : Bool := !(s.chips.any (fun p => p.1 / 16 == k && !p.2.alerts.isEmpty))
/-- A STOP_N_IN_k that is high again can fall again (R382). -/
def State.relayScan (s : State) (k : Nat) : State :=
  if s.stopInPad k then { s with pins := { s.pins with stopInLow := setFld s.pins.stopInLow k 1 0 } } else s
/-- Change chip `f`; its STOP_N_IN pull may end (R388, R412). -/
def State.chipOp (s : State) (f : Nat) (g : Chip → Chip) : State := (s.setChip f (g (s.chip f))).relayScan (f / 16)

/-! ### Time and free values -/

/-- Hub fabric time (R111). -/
def State.time (s : State) : Nat := (s.now + s.ftAdj) % 2 ^ 64
/-- Fabric time of the latest AON edge. -/
def State.edgeTime (s : State) : Nat := (s.now / 1000 * 1000 + s.ftAdj) % 2 ^ 64
/-- Fabric time of a chip, with the slew in force (R358). -/
def Chip.timeAt (c : Chip) (now : Nat) : Nat :=
  let d := Int.ofNat (Nat.min (now - c.slewFrom) 1000000)
  (Int.toNat ((Int.ofNat (now + c.ftAdj) + c.slew * d / 1000000) % (2 ^ 64)))
def State.chipTime (s : State) (f : Nat) : Nat := (s.chip f).timeAt s.now
/-- Draw a free value (log entry 2). -/
def State.free (s : State) : BitVec 64 × State := (Config.freeValue s.freeIx, { s with freeIx := s.freeIx + 1 })
def State.freeWide (s : State) (w : Nat) : BitVec w × State :=
  (BitVec.ofNat w ((List.range (cdiv w 64)).foldl (fun a i => a + (Config.freeValue (s.freeIx + i)).toNat * 2 ^ (64 * i)) 0),
   { s with freeIx := s.freeIx + cdiv w 64 })
/-- Draw `n` free bytes. -/
def State.freeBytes (s : State) (n : Nat) : List Byte × State :=
  ((List.range n).map (fun i => (Config.freeValue (s.freeIx + i)).truncate 8), { s with freeIx := s.freeIx + n })
/-- A memory whose contents the spec leaves open, in canonical form. -/
def memOf (l : List (Nat × Byte)) : Mem := l.foldl (fun m p => mput m p.1 p.2) []
/-- Free bytes in place of those that `p` picks, by place. -/
def State.mixFree (s : State) (d : List Byte) (p : Nat → Bool) : List Byte × State :=
  if (List.range d.length).any p then
    (d.zipIdx.map (fun x => if p x.2 then (Config.freeValue (s.freeIx + x.2)).truncate 8 else x.1), { s with freeIx := s.freeIx + d.length })
  else (d, s)
/-- Chip `f` with open bytes in the memory that the commands of the engines picked by `p` may have written: their local
stores and the DRAM. What a command writes is not in this manual (R18, R45). -/
def State.engWrote (s : State) (f : Nat) (p : Nat → Bool) : State :=
  if (List.range 512).any p then
    { s with freeIx := s.freeIx + 1 }.setChip f { s.chip f with mem := (s.chip f).mem.reopen (memOf (Config.freeMemory s.freeIx)) (touched p) }
  else s
/-- After a change of chip `f` from `s` to `t`, its memory as programs and DMA transfers have left it. -/
def State.memSettled (s t : State) (f : Nat) : State :=
  let p := (s.chip f).settles (t.chip f)
  if p 0 || (List.range 32).any (fun n => p (coreMemBase + 0x10000 * n)) then
    { t with freeIx := t.freeIx + 1 }.setChip f { t.chip f with mem := (t.chip f).mem.reopen (memOf (Config.freeMemory t.freeIx)) p }
  else t
/-- After a change of chip `f` from `s` to `t`: what its programs have left, and what the engines that have completed a command
since, or have been forced, have written. -/
def State.engEffects (s t : State) (f : Nat) : State :=
  (s.memSettled t f).engWrote f ((s.chip f).ended (t.chip f))
/-- The context words of core `i` of chip `f` as its program left them (Table 15.1). -/
def State.freshCtx (s : State) (f i : Nat) : State :=
  let c := s.chip f
  { s with freeIx := s.freeIx + 64 }.setChip f
    (c.setCore i { c.core i with ctx := tmodRange 0 (c.core i).ctx 0 64 (fun n _ => (Config.freeValue (s.freeIx + n)).truncate 32) })
/-- The AON edge at or after a hub cycle (R107). -/
def aonEdge (n : Nat) : Nat := cdiv n 1000 * 1000
/-- The fast domain runs: RUN or IDLE clocks, with the PLL locked (R108, R110). -/
def State.fastClock (s : State) : Bool := s.pwr.pllLock && (s.pwr.state == .run || s.pwr.state == .idle)
/-- The blocks that Table 4.3 does not name run: RUN, with the PLL locked (R108, R110). -/
def State.fastRun (s : State) : Bool := s.pwr.pllLock && s.pwr.state == .run
/-- Strokes may start: RUN, locked, booted, no wake in progress, no request posted (R115, R121, Table 8.2). -/
def State.fastUp (s : State) : Bool :=
  s.pwr.state == .run && s.pwr.pllLock && s.pwr.waking.isNone && s.pwr.req.isNone && s.boot.due.isNone && (s.boot.stage == 4 || s.boot.stage == 5) && !s.pins.inPor

/-! ### Wake events (R118–R120) -/

/-- The hub sleeps, enters sleep or wakes: host accesses other than to the PWR block wait (R120). -/
def State.asleep (s : State) : Bool :=
  s.pwr.state != .run || s.pwr.waking.isSome || (match s.pwr.req with | some r => r.committed | none => false)
/-- Enabled by PWR_WAKE_EN and PWR_WAKE_LINES (Table 4.6). -/
def wakeEnabled (en lines code line : Nat) : Bool :=
  if code = 1 then bit en 5 else if code = 2 then bit en 3 else if code = 3 then bit lines line else if code = 4 then bit en 4
  else if code = 5 then bit en 2 else if code = 6 then true else if code = 7 then bit en 1 else if code = 8 then bit en 0 else false
/-- The enables that judge an event seen now: those sampled at tick 0 until the commit edge, then the registers (R117, R125). -/
def Pwr.enables (p : Pwr) : Nat × Nat :=
  match p.req with
  | some r => if r.committed then (p.wakeEn, p.wakeLines) else r.latched.getD (p.wakeEn, p.wakeLines)
  | none => (p.wakeEn, p.wakeLines)
/-- An event of Table 4.6 is seen at an AON edge: recorded in PWR_EVENTS and, if its source is enabled, held for a commit
decision or a wake (R119, R123–R125). -/
def State.seeEvent (s : State) (edge code line : Nat) : State :=
  let p := { s.pwr with events := s.pwr.events ||| 2 ^ code }
  let e := p.enables
  let hold := (p.req.isSome || p.state != .run) && p.waking.isNone && wakeEnabled e.1 e.2 code line
  { s with pwr := if hold then { p with seen := p.seen ++ [(edge, code, line)] } else p }
/-- An event occurs; it is seen at the first AON edge at or after (R118). -/
def State.wakeEvent (s : State) (code line : Nat) : State :=
  if s.now % 1000 = 0 then s.seeEvent s.now code line else { s with pwr := { s.pwr with coming := s.pwr.coming ++ [(code, line)] } }
/-- The link leaves L1 (Table 4.6). -/
def State.linkWake (s : State) : State := if s.pins.l1 then { s with pins := { s.pins with l1 := false } }.wakeEvent 8 0 else s
/-- An activation of a filtered line is an event of its wake source. -/
def State.lineEvent (s : State) (n : Nat) : State := s.wakeEvent (if n = 17 then 1 else if n < 8 then 2 else 3) n

/-! ### MSI-X (R250, R329) -/

/-- Vector `n` is masked: by its Vector Control bit 0, by the Function Mask, or as MSI-X is off. Entries reset masked, so the
stored bit is the complement. -/
def State.vectorMasked (s : State) (n : Nat) : Bool :=
  !s.cfg.msixEn || s.cfg.msixMask || !(bit (mget s.msix (16 * n + 12)).toNat 0)
def State.requestVector (s : State) (n : Nat) : State :=
  if s.vectorMasked n then { s with pba := if bit s.pba n then s.pba else s.pba + 2 ^ n }
  else { s with msiSent := n :: s.msiSent }

/-! ### Carillon activations (R313–R320) -/

def State.inService (s : State) (n : Nat) : Bool := s.car.queues.any (fun p => p.2.insvc == some n)
/-- COUNT reaches COAL_COUNT of the queue the source is routed to (R316). -/
def State.judgeReady (s : State) (n : Nat) : State :=
  let v := s.src n
  if v.pending && (Nat.max (s.queue v.route).coalCount 1 ≤ v.count) then
    s.setSrc n { v with ready := true, cause := v.cause ||| 1 }
  else s
/-- A record with one activation more: COUNT, DATA, LAST_DELTA, and the COUNT cause (Tables 11.3, 11.7). -/
def recordJoin (d : List Byte) (data t coal : Nat) : List Byte :=
  let w := fun o n => leNat ((d.drop o).take n)
  let c := satAdd (w 2 1) 1 8
  d.take 2 ++ leBytes 1 c ++ (d.drop 3).take 13 ++ leBytes 8 data ++ leBytes 4 (Nat.min (t - w 8 8) (2 ^ 32 - 1)) ++
    leBytes 2 (w 0x1C 2 ||| b2n (decide (Nat.max coal 1 ≤ c))) ++ d.drop 0x1E
/-- The queue that has taken source `n` into service in this very cycle. -/
def State.selectedBy (s : State) (n : Nat) : Option Nat := (s.car.queues.find? (fun p => p.2.insvc == some n && p.2.selAt == s.now + 1)).map (·.1)
/-- A host operation takes a new form under its number. -/
def State.setOp (s : State) (o : HostOp) : State :=
  { s with htu := { s.htu with ops := s.htu.ops.map (fun p => if p.id = o.id then o else p) } }
/-- An activation in the cycle of its source's selection joins the record being formed (Table 11.7). -/
def State.joinRecord (s : State) (q n data t : Nat) : State :=
  let s := s.setSrc n { s.src n with data := data }
  match (s.htu.ops.filter (fun o => o.owner == .queue q)).getLast? with
  | some o => s.setOp { o with data := recordJoin o.data data t (s.queue (s.src n).route).coalCount }
  | none => s
/-- An activation of a source in service is lost; what it changes is noted, for a release in the same cycle (R320, Table 11.7). -/
def Source.lose (v : Source) (cycle data t : Nat) : Source :=
  let r := v.recent
  let r := if r.lossAt = cycle then { r with losses := r.losses + 1, lossData := data, lossTime := t }
           else { r with lossAt := cycle, losses := 1, lossOvr := v.ovr, lossLost := v.lost, lossData := data, lossTime := t }
  { v with ovr := true, lost := satAdd v.lost 1 8, recent := r }
/-- An activation of source `n` with its DATA, at fabric time `t` (R313, R315, R320, Table 11.7). -/
def State.activateAt (s : State) (n data t : Nat) : State :=
  let v := s.src n
  let c := s.now + 1
  if s.inService n then
    match s.selectedBy n with
    | some q => s.joinRecord q n data t
    | none => s.setSrc n (v.lose c data t)
  else
    let v := { v with recent := { v.recent with actAt := c, acts := if v.recent.actAt = c then v.recent.acts + 1 else 1 } }
    let v := if v.pending then { v with count := satAdd v.count 1 8, last := t, data := data }
             else { v with pending := true, count := 1, first := t, last := t, data := data }
    (s.setSrc n v).judgeReady n
/-- An activation at the current hub fabric time. -/
def State.activate (s : State) (n data : Nat) : State := s.activateAt n data s.time
/-- An event on ring `n` sets DB_ERR, FETCH_ERR or CPL_LOST (source 194, Table 11.2). -/
def State.ringErr (s : State) (n flag : Nat) : State := s.activate 194 (n + 2 ^ (16 + flag))

/-! ### Work items -/

def Desc := BitVec 512
/-- `n` bytes of a descriptor from byte `o`, little-endian (R6). -/
def db (d : BitVec 512) (o n : Nat) : Nat := fld d.toNat (8 * o) (8 * n)
/-- Bits of a descriptor: byte `o`, bit `b`, width `w`. -/
def dbits (d : BitVec 512) (o b w : Nat) : Nat := fld d.toNat (8 * o + b) w
def opcodeOf (d : BitVec 512) : Nat := db d 0 1

def State.item? (s : State) : Work → Option Item
  | .ring n => (s.ring n).item
  | .scan => s.scan.item
  | .free k => (s.hub.free.find? (fun p => p.1 == k)).map (·.2)
def State.setItem (s : State) (w : Work) (i : Item) : State :=
  match w with
  | .ring n => s.setRing n { s.ring n with item := some i }
  | .scan => { s with scan := { s.scan with item := some i } }
  | .free k => { s with hub := { s.hub with free := s.hub.free.map (fun p => if p.1 = k then (k, i) else p) } }
def State.dropItem (s : State) (w : Work) : State :=
  match w with
  | .ring n => s.setRing n { s.ring n with item := none }
  | .scan => { s with scan := { s.scan with item := none } }
  | .free k => { s with hub := { s.hub with free := s.hub.free.filter (fun p => p.1 != k) } }
def State.modItem (s : State) (w : Work) (f : Item → Item) : State :=
  match s.item? w with
  | some i => s.setItem w (f i)
  | none => s
/-- A new ringless work item (R55). -/
def State.addFree (s : State) (i : Item) : Work × State :=
  (.free s.hub.nextFree, { s with hub := { s.hub with free := s.hub.free ++ [(s.hub.nextFree, i)], nextFree := s.hub.nextFree + 1 } })
/-- Every work item there is. -/
def State.works (s : State) : List Work :=
  (s.rings.filterMap (fun p => if p.2.item.isSome then some (.ring p.1) else none)) ++
  (if s.scan.item.isSome then [.scan] else []) ++ s.hub.free.map (fun p => .free p.1)
/-- Change every work item. -/
def State.mapItems (s : State) (f : Work → Item → Item) : State := s.works.foldl (fun s w => s.modItem w (f w)) s

/-- Urgent rings and the scan ring may take reserved slots (Table 2.3). -/
def Work.urgent : Work → Bool
  | .ring n => n < 16
  | .scan => true
  | .free _ => false
/-- Ready to run under R54 and R55, apart from running already. -/
def Item.ready (i : Item) : Bool :=
  i.wait == .no && !i.parked && i.fin.isNone && (!i.todo.isEmpty || i.out == 0)
def State.running (s : State) (w : Work) : Bool := (List.range 4).any (fun e => (s.se e).work == some w)
/-- No descriptor is started on a ring that is STALLED (R284). -/
def State.startable (s : State) (w : Work) (i : Item) : Bool :=
  i.begun || (match w with | .ring n => (s.ring n).state != .stalled | _ => true)
/-- Eligible for a stroke. In RECOVERY the boot ROM carries out FW_STAGE without one (R140). -/
def State.eligible (s : State) (w : Work) : Bool :=
  match s.item? w with
  | some i => i.ready && !s.running w && s.startable w i && !(s.boot.stage == 5 && opcodeOf i.desc == 0x66)
  | none => false
/-- Note the cycle in which the item becomes eligible (R60). -/
def Item.mark (now : Nat) (old new_ : Item) : Item := if !old.ready && new_.ready then { new_ with eligAt := now } else new_
def State.updItem (s : State) (w : Work) (f : Item → Item) : State := s.modItem w (fun i => Item.mark s.now i (f i))

/-- Status codes (R264, Table 19.6). -/
def Status.code : Status → Nat
  | .ok => 0 | .partial_ => 1 | .authDenied => 2 | .chipAbsent => 3 | .chainDown => 4 | .translationFault => 5 | .aborted => 6
  | .forcedCut => 7 | .ledgerMismatch => 8 | .timeout => 9 | .badOpcode => 10 | .incomplete => 11
/-- Operations that completed for nobody: their results are discarded (R295). -/
def voidIx : Nat := 10 ^ 12
/-- Operation `ix` of a work item completes, with its data and, if it failed, its status (R54, R70). -/
def Item.opDone (i : Item) (ix : Nat) (d : List Byte) (e : Option Status) : Item :=
  if ix = voidIx then { i with out := i.out - 1 }
  else { i with out := i.out - 1, rep := tput [] i.rep ix d, errs := i.errs ++ e.toList,
                bad := (match e with | some x => tput 0 i.bad ix (x.code + 1) | none => i.bad) }
def State.opDone (s : State) (w : Work) (ix : Nat) (d : List Byte) (e : Option Status) : State := s.updItem w (fun i => i.opDone ix d e)
/-- An operation that ends at issue takes no slot (R71). -/
def Item.failed (i : Item) (ix : Nat) (e : Status) : Item := { i with errs := i.errs ++ [e], bad := tput 0 i.bad ix (e.code + 1) }

/-- The operations still to be issued of chip sequences already begun. -/
def State.seqRest (s : State) (w : Work) (i : Item) : List Op :=
  if s.bhv.chains.any (fun p => p.2.locks.any (fun l => l.2 == w)) then i.todo.takeWhile (fun o => !o.unlock) ++ (i.todo.dropWhile (fun o => !o.unlock)).take 1 else []

/-! ### Sync counters (R267, R271) -/

/-- The condition of a WAIT on a value (Table 9.16). -/
def waitHolds (cond : Nat) (v x : Nat) : Bool :=
  if cond = 0 then x ≤ v else if cond = 1 then v == x else v != x
/-- Hub cycle in which an operand TIMEOUT in µs at bytes 0x14–0x17 runs out; none with TIMEOUT 0. -/
def Item.deadline (i : Item) : Option Nat := if db i.desc 0x14 4 = 0 then none else some (i.began + 1000 * db i.desc 0x14 4)
/-- TIMEOUT has run out: its cycle has been reached. -/
def Item.late (i : Item) (now : Nat) : Bool := match i.deadline with | some t => decide (t ≤ now) | none => false
/-- TIMEOUT ran out in an earlier cycle, so that no condition met now can win (R274). -/
def Item.over? (i : Item) (now : Nat) : Bool := match i.deadline with | some t => decide (t < now) | none => false
/-- A WAIT on counter `k` that waits and whose TIMEOUT has not run out before this cycle. -/
def Item.waitsOn (i : Item) (now k : Nat) : Bool :=
  opcodeOf i.desc == 1 && i.wait == .cond && dbits i.desc 0x10 0 1 == 0 && dbits i.desc 0x12 0 12 == k && !i.over? now
/-- Set a counter and compare every WAIT on it (R271, R274). -/
def State.putCounter (s : State) (k : Nat) (c : Counter) : State :=
  let s := s.setCounter k c
  s.mapItems (fun _ i =>
    if i.waitsOn s.now k then
      let i' := { i with detail := lo32 c.val.toNat }
      if waitHolds (dbits i.desc 0x10 1 2) c.val.toNat (db i.desc 0x18 8) then Item.mark s.now i { i' with wait := .no, stage := 2 } else i'
    else i)
/-- One change applied to a value. -/
def SynOp.apply (v : DWord) (o : SynOp) : DWord := if o.add then v + o.val else (v &&& ~~~ o.mask) ||| (o.val &&& o.mask)
/-- A change takes its place among those of its cycle: host accesses, then stroke engines in ascending number, then the scan
ring (R268). -/
def SynOp.into (o : SynOp) (l : List SynOp) : List SynOp := l.filter (fun p => p.rank ≤ o.rank) ++ [o] ++ l.filter (fun p => o.rank < p.rank)
/-- Counter `c` after a change in hub cycle `now`. -/
def Counter.change (c : Counter) (now : Nat) (o : SynOp) : Counter :=
  let base := if c.cycle = now ∧ c.ops ≠ [] then c.base else c.val
  let ops := if c.cycle = now then o.into c.ops else [o]
  { c with val := ops.foldl SynOp.apply base, cycle := now, base := base, ops := ops }
/-- Change counter `k`. -/
def State.synOp (s : State) (k : Nat) (o : SynOp) : State := s.putCounter k ((s.counter k).change s.now o)
/-- Place in R268's order of a change that work item `w` makes through stroke engine `e`. -/
def synRank (w : Work) (e : Nat) : Nat := if w = .scan then 5 else e + 1
/-- The stroke engine that serves a work item. -/
def State.engineOf (s : State) (w : Work) : Nat := ((List.range 4).find? (fun e => (s.se e).work == some w)).getD 0

/-- The stage at which an opcode's work is done. -/
def doneStage : Nat := 99

/-! ### FENCE (R273) -/

/-- Completions ring `n` still owes a FENCE: kept under `1000 + n`; all 0 when the FENCE is satisfied. -/
def Item.fenceMet (i : Item) : Bool := i.x.all (fun p => p.1 < 1000 || p.2 == 0)
/-- One completion of ring `n`, or with `off` its disabling, as every waiting FENCE sees it. -/
def State.fenceNote (s : State) (n : Nat) (off : Bool) : State :=
  s.mapItems (fun _ i =>
    if opcodeOf i.desc = 3 ∧ i.wait = .cond ∧ !i.over? s.now then
      let i' := { i with x := tmod 0 i.x (1000 + n) (fun k => if off then 0 else k - 1) }
      Item.mark s.now i (if i'.fenceMet then { i' with wait := Wait.no, stage := doneStage } else i')
    else i)

/-! ### Dumps under way (chapter 15) -/

def OpK.isRead : OpK → Bool
  | .rd _ _ _ | .dsRd _ _ | .hrd _ _ => true
  | _ => false
def OpK.isHostWrite : OpK → Bool
  | .hwr _ _ => true
  | _ => false
/-- The item serves a dump context, whose number + 1 it keeps under 10. -/
def Item.isDump (i : Item) : Bool := (opcodeOf i.desc = 0x31 || opcodeOf i.desc = 0x32 || opcodeOf i.desc = 0x33) && tget 0 i.x 10 != 0
/-- Mark under which an operation never issued is kept as failed. -/
def notRead : Nat := 200
/-- A dump stops early: no further read is issued (R456, R464, R465). The reason is kept under 50: 1 DISABLED, 2 ABORTED_BY,
3 a host write's translation fault, which also issues no further host write, 4 no space, 5 the host is lost. -/
def Item.stopDump (i : Item) (why : Nat) : Item :=
  let drop := fun (o : Op) => o.k.isRead || (why == 3 && o.k.isHostWrite)
  let gone := i.todo.filter drop
  { i with todo := i.todo.filter (fun o => !drop o), bad := gone.foldl (fun b o => tput 0 b o.ix notRead) i.bad
           wait := Wait.no, x := tput 0 i.x 50 (if tget 0 i.x 50 = 0 then why else tget 0 i.x 50) }
/-- A dump's item keeps, under 70000 + j, the end of the writes of the jth section of its TOC: how many sections have been
written whole. -/
def Item.wholeSections (i : Item) (c : Ctx) : Nat :=
  ((List.range c.toc.length).takeWhile (fun j => tget 0 i.x (70000 + j) ≤ i.issued)).length
/-- First item number not written whole (Table 15.9). -/
def Item.firstLost (i : Item) (c : Ctx) : Nat :=
  match c.toc[i.wholeSections c]? with
  | some t => t.number
  | none => c.section_
/-- The host part of a store dump is dropped: its writes not yet issued are not issued (R444, R466). -/
def State.dropHostPart (s : State) (n : Nat) : State :=
  let c := s.ctx n
  if c.toHost && c.toStore && !c.hostDropped then
    match c.work with
    | some w =>
      let first := match s.item? w with | some i => i.firstLost c | none => c.section_
      (s.setCtx n { c with hostDropped := true, hostFirst := first }).modItem w (fun i => { i with todo := i.todo.filter (fun o => !o.k.isHostWrite) })
    | none => s.setCtx n { c with hostDropped := true, hostFirst := c.section_ }
  else s

/-! ### Misuses (R519, Table 18.3) -/

/-- Usable blocks of the dump store (R442): 64 KiB and the seal map are kept from `DS_SIZE` × 512 MiB. -/
def State.dsBlocks (s : State) : Nat := s.boot.dsSize * (2 ^ 20 - 256) - (if s.boot.dsSize = 0 then 0 else 128)

/-- Block of BAR 0 that an offset lies in (Table 9.4); a ring's registers are one of their own, from 0x1000 on; 0xFFFF for none. -/
def blockOf (off : Nat) : Nat :=
  if off < 0x4000 then off / 0x1000
  else if off < 0x10000 then off / 0x2000 * 2
  else if off < 0x18000 then 0x1000 + (off - 0x10000) / 0x40
  else if 0x20000 ≤ off ∧ off < 0x30000 then 0x20
  else 0xFFFF
/-- A work item with this opcode uses a block's function: the arbiter and the HTU serve all work. -/
def usesBlock (w : Work) (op b : Nat) : Bool :=
  b == 0 || b == 6 || (b == 1 && op == 0x63) || (b == 2 && (op == 0x60 || op == 0x66)) || (b == 3 && (op == 0x61 || op == 0x62)) ||
  (b == 8 && 0x10 ≤ op && op < 0x60) || (b == 0xA && 0x10 ≤ op && op ≤ 0x18) || (b == 0xC && ((0x30 ≤ op && op ≤ 0x35) || op == 0x65)) ||
  (b == 0xE && 0x40 ≤ op && op ≤ 0x43) || (b == 0x20 && 1 ≤ op && op ≤ 3) || (match w with | .ring n => b == 0x1000 + n | _ => false)
/-- A misuse of the block stands. -/
def State.openBlock (s : State) (b : Nat) : Bool := s.misuses.any (fun m => blockOf m.1 == b)
/-- A misuse leaves the item's STATUS, DETAIL, CURSOR and what it writes open: its own, or one of a block it uses. -/
def State.itemOdd (s : State) (w : Work) (i : Item) : Bool :=
  i.odd.testBit 0 || (s.trc.odd && opcodeOf i.desc == 0x42) ||
  (opcodeOf i.desc == 0x43 && s.trc.chips.any (fun c => c.2.odd && dbits i.desc 0x10 0 7 ≤ c.1 && c.1 ≤ dbits i.desc 0x11 0 7)) || s.misuses.any (fun m => usesBlock w (opcodeOf i.desc) (blockOf m.1))
/-- The data of an operation, free for an item left open (Table 18.1, D). -/
def State.openData (s : State) (w : Work) (k : OpK) : OpK × State :=
  if !(s.item? w).any (s.itemOdd w) then (k, s)
  else
    match k with
    | .wr f a d => let r := s.freeBytes d.length; (.wr f a r.1, r.2)
    | .hwr a d => let r := s.freeBytes d.length; (.hwr a r.1, r.2)
    | .dsWr a d sl => let r := s.freeBytes d.length; (.dsWr a r.1 sl, r.2)
    | .nor 2 a n d => let r := s.freeBytes d.length; (.nor 2 a n r.1, r.2)
    | _ => (k, s)

/-! ### Stroke engines -/

/-- The stroke of engine `e` ends, and its slot with it (R53); its work item is eligible anew if it can run. -/
def State.endStroke (s : State) (e : Nat) : State :=
  let s' := s.setSe e { (s.se e) with work := none, opcode := 0, waiting := none }
  match (s.se e).work with
  | some w => s'.modItem w (fun i => if i.ready then { i with eligAt := s.now } else i)
  | none => s'
/-- The strokes serving a work item end. -/
def State.endStrokesOf (s : State) (w : Work) : State :=
  (List.range 4).foldl (fun s e => if (s.se e).work = some w then s.endStroke e else s) s

end Sys2Proof.Machine
end

