-- ==== Sys2Proof/Machine/HostOps.lean ====
section
/-! DEFINITION. Host-memory operations: in-order translation by owner, the walker and TLB, the endpoint's bounds, faults
with their log, parking, resuming and aborting, and ring fetches and completion records (R62, R258, R263, R266,
R286–R299, R305–R308). -/

namespace Sys2Proof.Machine

/-! ### Bounds (Table 2.3) -/

def HostOp.isQueued (o : HostOp) : Bool := match o.phase with | .queued _ _ => true | _ => false
def HostOp.isWalking (o : HostOp) : Bool := match o.phase with | .walk _ _ _ _ => true | _ => false
def HostOp.walkReads (o : HostOp) : Bool := match o.phase with | .walk _ _ out _ => out | _ => false
/-- Posted writes in flight. -/
def Htu.posted (h : Htu) : Nat := (h.ops.filter (fun o => o.write && o.isQueued)).length
/-- Host reads in flight, walk reads included. -/
def Htu.reads (h : Htu) : Nat :=
  (h.ops.filter (fun o => !o.write && o.isQueued)).length + (h.ops.filter (fun o => o.walkReads)).length
def Htu.walks (h : Htu) : Nat := (h.ops.filter (fun o => o.isWalking)).length
def Htu.postedFree (h : Htu) (reserved : Bool) : Bool := h.posted < (if reserved then 256 else 224)
def Htu.readFree (h : Htu) (reserved : Bool) : Bool := h.reads < (if reserved then 64 else 56)
def Htu.walkFree (h : Htu) (reserved : Bool) : Bool := h.walks < (if reserved then 8 else 6)

/-! ### Faults (R294–R297) -/

def Owner.code : Owner → Nat × Nat
  | .item (.ring n) => (0, n)
  | .item .scan => (2, 0)
  | .item (.free _) => (0, 0)
  | .fetch r => (1, r)
  | .queue q => (3, q)
/-- Words W2 and W3 of a fault record (Table 10.8). -/
def Fault192.w2 (r : Fault192) : Nat :=
  r.cause % 16 + place r.level 4 4 + place (b2n r.write) 8 1 + place (b2n r.tlbHit) 9 1 + place (b2n r.completion) 10 1 +
  place r.ownerKind 12 2 + place r.ownerId 16 9
def Fault192.w3 (r : Fault192) : Nat := r.gen % 256 + place (b2n r.parked) 8 2 + place r.seq 16 16
def Htu.entry (h : Htu) (n : Nat) : Fault192 := tget {} h.log n
/-- The lowest free log entry (log entry 21). -/
def Htu.freeEntry (h : Htu) : Option Nat := (List.range 64).find? (fun n => !(h.entry n).parked)
/-- Log a parked owner's fault, raising source 192, and the queue's vector when the owner is an event queue (R296, R297). -/
def State.logFault (s : State) (ow : Owner) (r : Fault192) : State :=
  match s.htu.freeEntry with
  | none => { s with htu := { s.htu with parked := s.htu.parked ++ [(ow, none, r)] } }
  | some n =>
    let r := { r with gen := ((s.htu.entry n).gen + 1) % 256, parked := true }
    let s := { s with htu := { s.htu with log := tput {} s.htu.log n r, parked := s.htu.parked ++ [(ow, some n, r)] } }
    let s := s.activate 192 (r.w2 + place n 32 6 + place r.gen 40 8)
    match ow with
    | .queue q => s.requestVector q
    | _ => s
/-- Entries freed take the owners that wait, in the order in which they faulted (R296). -/
def State.logWaiting (s : State) : State :=
  match s.htu.parked.find? (fun p => p.2.1.isNone), s.htu.freeEntry with
  | some p, some _ => { s with htu := { s.htu with parked := s.htu.parked.filter (fun q => q.1 != p.1) } }.logFault p.1 p.2.2
  | _, _ => s
/-- A dump context served by a work item parks or runs again with it (Table 15.2). -/
def State.ctxPark (s : State) (w : Work) (on : Bool) : State :=
  (List.range 5).foldl (fun s n =>
    let c := s.ctx n
    if c.work = some w then
      if on && c.state == .running then s.setCtx n { c with state := .parked }
      else if !on && c.state == .parked then s.setCtx n { c with state := .running } else s
    else s) s
/-- Change the issuers of a chain's transactions and probes. -/
def Frame.mapIssuer (f : Issuer → Issuer) : Frame → Frame
  | .probe p sent i => .probe p sent (f i)
  | .probeStamp p st sent i => .probeStamp p st sent (f i)
  | g => g
def Chain.mapIssuers (f : Issuer → Issuer) (c : Chain) : Chain :=
  { c with txns := c.txns.map (fun (t : Txn) => { t with issuer := f t.issuer }), down := c.down.map (Frame.mapIssuer f), up := c.up.map (Frame.mapIssuer f) }
def State.mapChains (s : State) (f : Chain → Chain) : State :=
  { s with bhv := { s.bhv with chains := (List.range 8).foldl (fun (t : Tab Chain) j => tput ({} : Chain) t j (f (tget ({} : Chain) t j))) s.bhv.chains } }
def Issuer.void (w : Work) (ix : Nat) : Issuer → Issuer
  | .item u k => if u = w ∧ ix ≤ k then .item u voidIx else .item u k
  | i => i
/-- The operations of an item from `ix` on that are in flight outside the HTU complete for nobody (R295 step 3). -/
def State.voidOps (s : State) (w : Work) (ix : Nat) : State :=
  let s := s.mapChains (Chain.mapIssuers (Issuer.void w ix))
  { s with bursts := s.bursts.map (fun (b : Burst) => if b.work = w ∧ ix ≤ b.ix then { b with ix := voidIx } else b) }
/-- The item goes back to operation `ix`; the results of the later ones are forgotten, and `n` of them were never sent (R295). -/
def Item.rewind (i : Item) (ix n : Nat) : Item :=
  let redo := i.sent.filter (fun o => ix ≤ o.ix)
  let gone := fun (k : Nat) => redo.any (fun o => o.ix == k)
  { i with todo := redo ++ i.todo, sent := i.sent.filter (fun o => o.ix < ix), issued := ix, out := i.out - n
           rep := i.rep.filter (fun p => !gone p.1), bad := i.bad.filter (fun p => !gone p.1)
           errs := redo.foldl (fun l o => match tget 0 i.bad o.ix with | 0 => l | c + 1 => l.eraseP (fun e => e.code == c)) i.errs }
/-- The owner of a faulting operation parks (R295). -/
def State.parkOwner (s : State) (ow : Owner) (on : Bool) : State :=
  match ow with
  | .item w =>
    let s := s.updItem w (fun i => { i with parked := on })
    let s := s.ctxPark w on
    if on then s.endStrokesOf w else s
  | .queue q => s.setQueue q { s.queue q with parked := on }
  | .fetch _ => s
def State.dropOp (s : State) (id : Nat) : State :=
  { s with htu := { s.htu with ops := s.htu.ops.filter (fun p => p.id != id) } }
/-- A faulting operation stays with its owner, to be issued again; a work item takes it back, and with it every later operation
(R295). -/
def State.holdFault (s : State) (o : HostOp) : State :=
  match o.owner, o.cpl with
  | .item w, false =>
    let late := fun (p : HostOp) => p.owner == o.owner && decide (o.id ≤ p.id) && !p.isQueued
    let n := (s.htu.ops.filter late).length
    let s := { s with htu := { s.htu with ops := s.htu.ops.filter (fun p => !late p) } }
    (s.voidOps w o.ix).modItem w (fun i => i.rewind o.ix n)
  | _, _ => s.setOp { o with phase := .parked }
/-- A translation ends in a fault (R294–R296). -/
def State.faultOp (s : State) (o : HostOp) (cause level : Nat) (hit : Bool) : State :=
  let s := s.holdFault o
  let c := o.owner.code
  let r : Fault192 := { addr := o.addr, cause := cause, level := level, write := o.write, tlbHit := hit, completion := o.cpl,
                        ownerKind := c.1, ownerId := c.2, seq := s.htu.seq }
  let s := { s with htu := { s.htu with faults := satAdd s.htu.faults 1 32, seq := (s.htu.seq + 1) % 65536 } }
  (s.parkOwner o.owner true).logFault o.owner r

/-! ### Ring descriptors (R255, R258, R263, R266) -/

def Ring.size (r : Ring) : Nat := 2 ^ (Nat.min (Nat.max r.sizeLog2 4) 12)
/-- Descriptors held: fetched, the work item, and records not yet written (R258). -/
def Ring.heldCount (r : Ring) : Nat := r.fetched.length + (if r.item.isSome then 1 else 0) + r.cplQ.length
/-- The oldest fetched descriptor becomes the ring's work item (R258, R266). -/
def State.promote (s : State) (n : Nat) : State :=
  let r := s.ring n
  match r.item, r.fetched with
  | none, d :: rest =>
    if r.state = .active then
      s.setRing n { r with fetched := rest, item := some { desc := d, eligAt := s.now }, itemIx := (r.head + r.cplQ.length) % r.size }
    else s
  | _, _ => s
/-- Number of descriptors the next fetch read asks for: no more than four held, 256 bytes, the array's end, or a 4 KiB
boundary (R258, R286). -/
def Ring.fetchCount (r : Ring) : Nat :=
  Nat.min (Nat.min (Nat.min (4 - r.heldCount) ((r.tail + r.size - r.fetchIx) % r.size)) (r.size - r.fetchIx))
    ((4096 - (r.base + 64 * r.fetchIx) % 4096) / 64)
/-- The ring's part of BAR 0 and its fetches are served (R140). -/
def State.ringServed (s : State) (n : Nat) : Bool := s.boot.stage != 5 || n == 0
/-- Add a host-memory operation at the end of the issue order. -/
def State.addHostOp (s : State) (o : HostOp) : State :=
  { s with htu := { s.htu with ops := s.htu.ops ++ [{ o with id := s.htu.nextId }], nextId := s.htu.nextId + 1 } }
/-- Issue the ring's next descriptor fetch when it may (R258). -/
def State.fetchMore (s : State) (n : Nat) : State :=
  let r := s.ring n
  if r.state = .active ∧ r.fetchOut = 0 ∧ 0 < r.fetchCount ∧ s.ringServed n then
    (s.setRing n { r with fetchOut := r.fetchCount }).addHostOp
      { id := 0, owner := .fetch n, ix := 0, write := false, addr := r.base + 64 * r.fetchIx, len := 64 * r.fetchCount, data := [], reserved := true }
  else s
/-- The ring becomes STALLED with FETCH_ERR or CPL_LOST (R283, R284, Table 10.4). -/
def State.stall (s : State) (n flag : Nat) : State :=
  let r := s.ring n
  let st := if r.state = .draining ∨ r.state = .disabled then r.state else .stalled
  let r := { r with state := st, fetchOut := if flag = 1 then 0 else r.fetchOut,
                    fetchErr := r.fetchErr || flag == 1, cplLost := r.cplLost || flag == 2 }
  (s.setRing n r).ringErr n flag
/-- STATE of a ring that is enabled: ACTIVE while it holds a descriptor (R255). -/
def Ring.settle (r : Ring) : Ring :=
  if r.state = .idle ∨ r.state = .active then { r with state := if r.head = r.tail then .idle else .active } else r
/-- The completion record of ring `n`'s work item has entered the endpoint: the next descriptor may start (R266). -/
def State.recordQueued (s : State) (n : Nat) : State :=
  let r := s.ring n
  match r.item with
  | some i =>
    match i.fin with
    | some _ =>
      let rec_ : CplRec := { index := r.itemIx
                             signal := if dbits i.desc 1 1 1 = 1 then some (dbits i.desc 4 0 12) else none
                             notify := dbits i.desc 1 0 1 == 1, engine := i.engine, owes := tget 0 i.x 40 == 1 }
      let s := s.setRing n { r with item := none, cplQ := r.cplQ ++ [rec_] }
      s.promote n
    | none => s
  | none => s

/-! ### Translation (R289–R293) -/

def HostOp.vpage (o : HostOp) : Nat := o.addr / 4096
def TlbEntry.covers (e : TlbEntry) (vp : Nat) : Bool := if e.big then vp / 512 == e.vpage / 512 else vp == e.vpage
def TlbEntry.physOf (e : TlbEntry) (a : Nat) : Nat := if e.big then e.phys + a % 2 ^ 21 else e.phys + a % 4096
/-- Queue a translated operation in the endpoint (R293). -/
def State.queueOp (s : State) (o : HostOp) (phys : Nat) (page : Option Nat) : State :=
  let s := s.setOp { o with phase := .queued phys s.htu.nextOrder, page := page }
  let s := { s with htu := { s.htu with nextOrder := s.htu.nextOrder + 1 } }
  match o.cpl, o.owner with
  | true, .item (.ring n) => s.recordQueued n
  | _, _ => s
/-- The endpoint has a slot for the operation. -/
def State.endpointFree (s : State) (o : HostOp) : Bool :=
  if o.write then s.htu.postedFree o.reserved else s.htu.readFree o.reserved
/-- An earlier operation of the same owner is not yet translated (R293). -/
def State.heldBehind (s : State) (o : HostOp) : Bool :=
  s.htu.ops.any (fun p => p.id < o.id && p.owner == o.owner && !p.isQueued)
/-- Index bits of a level (Table 10.1). -/
def levelIndex (a level : Nat) : Nat := (a / 2 ^ (12 + 9 * level)) % 512
/-- Translate one operation, as far as it can go now. -/
def State.translate (s : State) (id : Nat) : State :=
  match s.htu.ops.find? (fun p => p.id == id) with
  | none => s
  | some o =>
    match o.phase with
    | .wait =>
      if s.heldBehind o then s
      else if s.boot.stage = 5 then (if s.endpointFree o then s.queueOp o o.addr none else s)
      else if !s.htu.enabled then s.faultOp o 4 0xF false
      else if 2 ^ 48 ≤ o.addr then s.faultOp o 3 0xF false
      else
        match s.htu.tlb.find? (fun e => e.covers o.vpage) with
        | some e =>
          if o.write && !e.write then
            let s := { s with htu := { s.htu with hits := satAdd s.htu.hits 1 32, tlb := e :: s.htu.tlb.filter (fun x => x != e) } }
            s.faultOp o 2 (if e.big then 1 else 0) true
          else if s.endpointFree o then
            let s := { s with htu := { s.htu with hits := satAdd s.htu.hits 1 32, tlb := e :: s.htu.tlb.filter (fun x => x != e) } }
            s.queueOp o (e.physOf o.addr) (some e.vpage)
          else s
        | none =>
          if s.htu.walkFree o.reserved then
            let out := s.htu.readFree o.reserved
            let s := { s with htu := { s.htu with misses := satAdd s.htu.misses 1 32 } }
            s.setOp { o with phase := .walk 3 (s.htu.root + 8 * levelIndex o.addr 3) out 0 }
          else s
    | .walk l a false d => if s.htu.readFree o.reserved then s.setOp { o with phase := .walk l a true d } else s
    | _ => s
/-- Let every operation go as far as it can, in issue order. -/
def State.pump (s : State) : State := (s.htu.ops.map (·.id)).foldl (fun s id => s.translate id) s
/-- The operation enters the endpoint through the entry its walk filled, without counting a hit. -/
def State.translateFilled (s : State) (id : Nat) (e : TlbEntry) : State :=
  match s.htu.ops.find? (fun p => p.id == id) with
  | some o => if s.endpointFree o then s.queueOp o (e.physOf o.addr) (some e.vpage) else s
  | none => s
/-- A walk's read of a table entry completes (R289–R291, R304, R305). `err`: it ended in an error of Table 10.3, 0x5. -/
def State.walkRead (s : State) (id entry : Nat) (err : Bool) : State :=
  match s.htu.ops.find? (fun p => p.id == id) with
  | none => s
  | some o =>
    match o.phase with
    | .walk l _ true disc =>
      if !s.htu.enabled ∨ disc = 3 then (s.faultOp o 4 0xF false).pump
      else if disc = 1 then (s.setOp { o with phase := .wait }).pump
      else if err then (s.faultOp o 5 l false).pump
      else if !bit entry 0 then (s.faultOp o 1 l false).pump
      else
        let adr := fld entry 12 40 * 4096
        let leaf := l == 0 || (l == 1 && bit entry 2)
        if !leaf then (s.setOp { o with phase := .walk (l - 1) (adr + 8 * levelIndex o.addr (l - 1)) false disc }).pump
        else if disc = 2 ∧ l = 1 then (s.setOp { o with phase := .wait }).pump
        else if o.write && !bit entry 1 then (s.faultOp o 2 l false).pump
        else
          let big := l == 1
          let e : TlbEntry := { vpage := if big then o.vpage / 512 * 512 else o.vpage, big := big,
                                phys := if big then adr / 2 ^ 21 * 2 ^ 21 else adr, write := bit entry 1 }
          let s := { s with htu := { s.htu with tlb := (e :: s.htu.tlb).take 256 } }
          (s.setOp { o with phase := .wait }).translateFilled o.id e |>.pump
    | _ => s
/-! ### Issuing and completing -/

/-- Pieces of a host range that cross no 256-byte boundary, hence no 4 KiB one (R286, log entry 22). -/
def pieces (a : Nat) (d : List Byte) : Nat → List (Nat × List Byte)
  | 0 => []
  | fuel + 1 =>
    match d with
    | [] => []
    | _ =>
      let n := 256 - a % 256
      (a, d.take n) :: pieces (a + n) (d.drop n) fuel
/-- A host read under way: of a table entry by a walk, or queued in the endpoint. -/
def HostOp.reading (o : HostOp) : Bool :=
  match o.phase with
  | .walk _ _ true _ => true
  | .queued _ _ => !o.write
  | _ => false
/-- The endpoint logs a read that ends in an Unsupported Request, a Completer Abort or poisoned data; which of them it was, and
so which bit, is left open (R280). -/
def State.readError (s : State) (id : Nat) (ok : Bool) : State :=
  if ok || !s.htu.ops.any (fun o => o.id == id && o.reading) then s
  else
    let r := s.free
    let s := r.2
    let k := r.1.toNat % 3
    { s with cfg := { s.cfg with status := s.cfg.status ||| (if k = 0 then 2 ^ 13 else if k = 1 then 2 ^ 12 else 2 ^ 15)
                                 aerStatus := s.cfg.aerStatus ||| (if k = 2 then 2 ^ 12 else 0) } }
/-- The fast domain's own part of a command: done while its clocks run, and gated otherwise (R108, R110). -/
def State.gated (s : State) (f : State → State) : Out := .next (if s.fastRun then f s else s)
/-- The host is out of reach: the link is down or the endpoint is off (R233). -/
def State.hostDown (s : State) : Bool := !s.pins.linkUp || bit s.pwr.straps 2
/-- Ids of writes in the endpoint, first to be transmitted first. -/
def Htu.firstWrite (h : Htu) : Option HostOp :=
  h.ops.foldl (fun m o =>
    match o.phase with
    | .queued _ k => if o.write then (match m with
        | some p => (match p.phase with | .queued _ k' => if k < k' then some o else m | _ => some o)
        | none => some o) else m
    | _ => m) none
/-- HTU_INVALIDATE items wait for operations through removed pages; one more has finished (R304). -/
def State.invalidateCheck (s : State) : State :=
  s.mapItems (fun _ i =>
    if opcodeOf i.desc = 0x64 ∧ i.wait = .ctl none ∧
       !(s.htu.ops.any (fun o => o.isQueued && tget 0 i.x (100 + o.id) = 1)) then
      Item.mark s.now i { i with wait := .no } else i)
/-- A host write leaves the endpoint: its bytes reach host memory (R62, R266). -/
def State.transmit (s : State) (o : HostOp) : State :=
  match o.phase with
  | .queued phys _ => ({ s with host := mwrite s.host phys o.data }.dropOp o.id).invalidateCheck
  | _ => s

/-! ### Resume and abort (R298, Table 10.4) -/

/-- Free the log entry of an owner and give it to a waiting one. -/
def State.freeEntry (s : State) (ow : Owner) : State :=
  match s.htu.parked.find? (fun p => p.1 == ow) with
  | some (_, some n, _) =>
    let e := s.htu.entry n
    { s with htu := { s.htu with log := tput {} s.htu.log n { e with parked := false }, parked := s.htu.parked.filter (fun p => p.1 != ow) } }.logWaiting
  | some _ => { s with htu := { s.htu with parked := s.htu.parked.filter (fun p => p.1 != ow) } }
  | none => s
def State.parkedOp (s : State) (ow : Owner) : Option HostOp :=
  s.htu.ops.find? (fun o => o.owner == ow && o.phase == .parked)
/-- Operations of an owner that have not entered the endpoint are not issued. -/
def State.dropUnqueued (s : State) (ow : Owner) : State :=
  let n := (s.htu.ops.filter (fun o => o.owner == ow && !o.isQueued && !o.cpl)).length
  let s := { s with htu := { s.htu with ops := s.htu.ops.filter (fun o => !(o.owner == ow && !o.isQueued)) } }
  match ow with
  | .item w => s.updItem w (fun i => { i with out := i.out - n })
  | _ => s
/-- The owner goes on from its faulting operation: a work item by a stroke of its own, any other at once (Table 10.4). -/
def State.resumeOwner (s : State) (ow : Owner) : State :=
  let s := (s.freeEntry ow).parkOwner ow false
  match s.parkedOp ow with
  | some o => (s.setOp { o with phase := .wait }).pump
  | none => s
/-- A work item that may issue nothing further ends with a status once its operations have completed (R280, Table 10.4). -/
def State.killItem (s : State) (w : Work) (e : Status) : State :=
  s.updItem w (fun i =>
    if e = .translationFault ∧ i.isDump then i.stopDump 3
    else { i with dead := true, todo := s.seqRest w i, wait := .no, errs := i.errs ++ [e] })
/-- The faulting record of queue `q`, the oldest not yet in the endpoint, is discarded; a later record already formed takes the
slot freed, so that the slots stay without a gap (R336). One issued before the queue was last enabled has no slot of it. -/
def State.discardRecord (s : State) (q : Nat) : State :=
  let v := s.queue q
  let mine := s.htu.ops.filter (fun o => o.owner == .queue q)
  let j := (mine.filter HostOp.isQueued).length
  let late := mine.filter (fun o => !o.isQueued)
  match v.out[j]? with
  | none => s
  | some n =>
    let s := (late.take 1).foldl (fun s o => s.dropOp o.id) s
    let s := ((late.drop 1).zip late).foldl (fun s (x : HostOp × HostOp) =>
      s.setOp { x.1 with addr := x.2.addr, data := x.1.data.take 30 ++ x.2.data.drop 30 }) s
    let size := 2 ^ (Nat.min (Nat.max v.sizeLog2 4) 12)
    let old := decide (j < v.oldOut)
    let v := { v with out := v.out.eraseIdx j, oldOut := if old then v.oldOut - 1 else v.oldOut
                      issue := if old then v.issue else (v.issue + size - 1) % size, phase := if !old && v.issue = 0 then !v.phase else v.phase,
                      dropped := satAdd v.dropped 1 16, insvc := if v.insvc = some n then none else v.insvc, parked := false }
    (s.setQueue q v).setSrc n { s.src n with ovr := true }
/-- The owner's operation ends as Table 10.4 gives. -/
def State.abortOwner (s : State) (ow : Owner) : State :=
  let cpl := match s.parkedOp ow with | some o => o.cpl | none => false
  let s := (s.freeEntry ow).parkOwner ow false
  let s := match ow with | .queue _ => s | _ => s.dropUnqueued ow
  match ow with
  | .item (.ring n) =>
    if cpl then
      let dis := (s.ring n).state == .draining
      let s := (s.setRing n { s.ring n with item := none }).stall n 2
      if dis then (s.setRing n { s.ring n with state := .disabled, enable := false, fetched := [], fetchOut := 0 }).fenceNote n true else s
    else s.killItem (.ring n) .translationFault
  | .item w => s.killItem w .translationFault
  | .fetch n => s.stall n 1
  | .queue q => s.discardRecord q
/-- A write to HTU_RESOLVE (R298). -/
def State.resolve (s : State) (entry gen : Nat) (abort : Bool) : State :=
  let e := s.htu.entry entry
  match s.htu.parked.find? (fun p => p.2.1 == some entry) with
  | some (ow, _, _) =>
    if e.parked && e.gen == gen then (if abort then (s.abortOwner ow).pump else s.resumeOwner ow)
    else { s with htu := { s.htu with stale := true } }
  | none => { s with htu := { s.htu with stale := true } }

/-! ### Enable and disable (R305) -/

def State.htuEnable (s : State) : State :=
  if s.htu.enabled then s
  else { s with htu := { s.htu with enabled := true, tlb := [], hits := 0, misses := 0, faults := 0, seq := 0 } }.pump
/-- Walks with no read outstanding fault at once; the others, marked 3, when their last read completes. -/
def State.htuDisable (s : State) : State :=
  let s := { s with htu := { s.htu with enabled := false, tlb := [] } }
  let s := (s.htu.ops.map (·.id)).foldl (fun s id =>
    match s.htu.ops.find? (fun p => p.id == id) with
    | some o => (match o.phase with
        | .walk _ _ false _ => s.faultOp o 4 0xF false
        | .walk l a true _ => s.setOp { o with phase := .walk l a true 3 }
        | _ => s)
    | none => s) s
  s.pump
/-- The HTU after a boot, PERST_N or a function-level reset (R310). -/
def State.htuReset (s : State) : State := { s with htu := { nextId := s.htu.nextId, nextOrder := s.htu.nextOrder } }

end Sys2Proof.Machine
end

