-- ==== Sys2Proof/Machine/Bihevan.lean ====
section
/-! DEFINITION. Bihevan transactions and chains: issue checks, tags, responses, timeouts, the WDA's answers, hops,
training, sync symbols (R340–R350, R353, R356–R358, R364, R367–R371). -/

namespace Sys2Proof.Machine

/-! ### Positions (R340, R341) -/

def Chain.isPresent (c : Chain) (p : Nat) : Bool := bit c.present p
/-- ADDRESSABLE as the registers report it: assigned, in reach, on an UP chain. -/
def Chain.isAddressable (c : Chain) (p : Nat) : Bool := c.state == .up && p < c.reach && bit c.present p && bit c.addressable p
def Chain.addressableMask (c : Chain) : Nat := maskOf 16 c.isAddressable
def countBits (n x : Nat) : Nat := ((List.range n).filter (fun i => bit x i)).length
def State.addressable (s : State) (f : Nat) : Bool := (s.chain (f / 16)).isAddressable (f % 16)
def State.present (s : State) (f : Nat) : Bool := (s.chain (f / 16)).isPresent (f % 16)
def ChainState.code : ChainState → Nat
  | .disabled => 0 | .training => 1 | .up => 2 | .empty => 3 | .down => 4 | .eIdle => 5
/-- How an operation to fabric address `f` ends at issue when the chip need not be ADDRESSABLE. -/
def State.reachStatus (s : State) (f : Nat) : Option Status :=
  let c := s.chain (f / 16)
  if c.state != .up then some .chainDown
  else if !c.isPresent (f % 16) then some .chipAbsent
  else if c.reach ≤ f % 16 then some .chainDown
  else none
/-- How an operation to fabric address `f` ends at issue, if it does (R71, R341). -/
def State.issueStatus (s : State) (f : Nat) : Option Status :=
  match s.reachStatus f with
  | some e => some e
  | none => if (s.chain (f / 16)).isAddressable (f % 16) then none else some .chipAbsent
/-- Activate CHAIN_k (R361, Table 12.5). -/
def State.chainEvent (s : State) (k cause pos info : Nat) : State :=
  let c := s.chain k
  s.activate (160 + k) (c.state.code + place cause 4 4 + place pos 8 4 + place c.reach 12 5 + place info 32 32)

/-! ### Transactions (R347, R350) -/

/-- A usable tag: 64 a chain, 8 of them reserved (Table 2.3). -/
def Chain.tagFree (c : Chain) (reserved : Bool) : Bool := c.txns.length < (if reserved then 64 else 56)
def Chain.tag (c : Chain) : Nat := ((List.range 64).find? (fun t => !(c.txns.any (fun x => x.tag == t)))).getD 0
/-- Send a request: it takes the lowest free tag (log entry 23). -/
def State.sendTxn (s : State) (iss : Issuer) (f : Nat) (write : Bool) (addr len : Nat) (data : List Byte) : State :=
  let k := f / 16
  let p := f % 16
  let c := s.chain k
  let t := c.tag
  let mon := match iss with | .item w _ => (s.item? w).any (fun i => opcodeOf i.desc == 0x24) | _ => false
  let x : Txn := { tag := t, pos := p, write := write, addr := addr, len := len, issuer := iss, sentAt := s.now, limit := s.bhv.txnTimeout, mon := mon }
  s.setChain k { c with txns := c.txns ++ [x], down := c.down ++ [if write then .write p t addr data else .read p t addr len] }
/-- Chip `f` is ADDRESSABLE from now on. -/
def State.markAddr (s : State) (f : Nat) : State :=
  s.setChain (f / 16) { s.chain (f / 16) with addressable := setFld (s.chain (f / 16)).addressable (f % 16) 1 1 }
/-- The controller marks ADDRESSABLE the chips that a DISCOVER has assigned, noting when, and those that a CHAIN_ENABLE finds
assigned (R341, R355, R364). -/
def State.markOp (s : State) (k : Nat) (w : Work) (t : Txn) (d : List Byte) : State :=
  let f := 16 * k + t.pos
  match s.item? w with
  | some i =>
    if opcodeOf i.desc = 0x50 ∧ t.write then (s.markAddr f).modItem w (fun i => { i with x := tput 0 i.x 3 s.now })
    else if opcodeOf i.desc = 0x52 ∧ leNat ((d.drop 4).take 4) = f + 2 ^ 31 then s.markAddr f
    else s
  | none => s
/-- A chain controller's own activity hears of a response: `arm` counts it off the toll's arming, with the LATE bit of the
read-back; `rediscover` updates the topology copy (R354, R385). -/
def State.ctlDone (s : State) (k : Nat) (t : Txn) (d : List Byte) (e : Option Status) : State :=
  match t.issuer with
  | .item w ix => (if e.isNone then s.markOp k w t d else s).opDone w ix d e
  | .arm f =>
    if t.write && e.isNone then s
    else
      let late := bit (leNat d) 2
      let r := { s.run with arming := s.run.arming.filter (· != f), tollLate := s.run.tollLate || late }
      { s with run := if s.run.arming ≠ [] ∧ r.arming = [] ∧ r.tollState = .arming then { r with tollState := .armed } else r }
  | .rediscover f =>
    if e.isSome then s
    else if t.write then s.sendTxn (.rediscover f) f false wdaBase 64 []
    else if t.addr = wdaBase then
      (s.setTopo f { s.topo f with known := true, wdaId := leNat (d.take 4) }).sendTxn (.rediscover f) f false (wdaBase + 0x100) 48 []
    else
      let words := (List.range 12).map (fun i => leNat ((d.drop (4 * i)).take 4))
      let s := s.setTopo f { s.topo f with known := true, links := words }
      let c := s.chain (f / 16)
      let s := s.setChain (f / 16) { c with addressable := if bit c.addressable (f % 16) then c.addressable else c.addressable + 2 ^ (f % 16) }
      s.chainEvent (f / 16) 5 (f % 16) 0
/-- A transaction ends and its tag is released. -/
def State.endTxn (s : State) (k : Nat) (t : Txn) (d : List Byte) (e : Option Status) : State :=
  let c := s.chain k
  let s := s.setChain k { c with txns := c.txns.filter (fun x => x.tag != t.tag) }
  if t.quarantined then s else s.ctlDone k t d e
/-- Every transaction of a chain to a position that `p` picks ends with a status (R72, R367, R370). Frames to and from
those positions are lost. -/
def Frame.pos : Frame → Nat
  | .read p _ _ _ | .write p _ _ _ | .alertAck p _ | .probe p _ _ | .readData p _ _ | .writeAck p _ | .nack p _
  | .probeStamp p _ _ _ | .trace p _ => p
def State.endTxnsWhere (s : State) (k : Nat) (p : Nat → Bool) (e : Status) : State :=
  let c := s.chain k
  let probes := (c.down ++ c.up).filterMap (fun fr => match fr with
    | .probe q _ (.item w ix) => if p q then some (w, ix) else none
    | .probeStamp q _ _ (.item w ix) => if p q then some (w, ix) else none
    | _ => none)
  let gone := c.txns.filter (fun t => p t.pos)
  let s := s.setChain k { c with down := c.down.filter (fun fr => !p fr.pos), up := c.up.filter (fun fr => !p fr.pos) }
  let s := gone.foldl (fun s t => s.endTxn k t [] (some e)) s
  probes.foldl (fun s x => s.opDone x.1 x.2 [] (some e)) s
/-- A transaction has had no response for its timeout: its tag is quarantined (R350). It acts once the cycle has passed, since a
response of that cycle comes first (R368). -/
def State.txnTimeout (s : State) (k tag : Nat) : State :=
  let c := s.chain k
  match c.txns.find? (fun t => t.tag == tag) with
  | some t =>
    if !t.quarantined ∧ t.limit ≠ 0 ∧ t.sentAt + t.limit * 1000 < s.now then
      let s := s.setChain k { c with txns := c.txns.map (fun x => if x.tag = tag then { x with quarantined := true } else x)
                                     timeouts := satAdd c.timeouts 1 16 }
      (s.ctlDone k t [] (some .timeout)).chainEvent k 6 t.pos tag
    else s
  | none => s

/-! ### Frames as they are sent (R345, R359) -/

/-- A trace record's 16 bytes (Table 17.4). -/
def TraceRec.bytes (r : TraceRec) : List Byte :=
  leBytes 1 r.type ++ leBytes 1 r.fabric ++ leBytes 2 r.arg16 ++ leBytes 4 r.arg32 ++ leBytes 7 r.time ++ leBytes 1 r.seq
/-- TYPE, TAG, LEN and ADDR of a frame's header, and its data (Tables 12.2, 12.3). -/
def Frame.parts : Frame → Nat × Nat × Nat × Nat × List Byte
  | .read _ t a n => (1, t, n / 8, a, [])
  | .write _ t a d => (2, t, d.length / 8, a, d)
  | .readData _ t d => (3, t, d.length / 8, 0, d)
  | .writeAck _ t => (4, t, 0, 0, [])
  | .nack _ t => (5, t, 0, 0x01000000, [])
  | .alertAck _ n => (7, n, 0, 0, [])
  | .trace _ rs => (8, 0, 2 * rs.length, 0, (rs.map TraceRec.bytes).flatten)
  | .probe _ _ _ => (9, 0, 0, 0, [])
  | .probeStamp _ t _ _ => (10, 0, 1, 0, leBytes 8 t)
/-- The 64-bit header (Table 12.2). -/
def frameHeader (type hop tag len addr : Nat) : Nat := type + place hop 4 4 + place tag 8 6 + place len 14 10 + place addr 24 40
def Frame.header (fr : Frame) : Nat := let p := fr.parts; frameHeader p.1 fr.pos p.2.1 p.2.2.1 p.2.2.2.1
/-- An ALERT frame's header: its data is the alert word (R351). -/
def alertHeader (pos num : Nat) : Nat := frameHeader 6 pos num 1 0
/-- The bytes of a frame with hop-local sequence number `q`: header, data, and the trailer with the CRC over both (R345). -/
def Frame.bytes (fr : Frame) (q : Nat) : List Byte :=
  let b := leBytes 8 fr.header ++ fr.parts.2.2.2.2
  b ++ leBytes 8 (crc32 b + place q 32 16)

/-! ### The WDA's side (R347, R353, R365) -/

/-- Oldest downstream frame of a chain, and the chain without it; a frame that has passed a hop ends its run of replays there. -/
def Chain.popDown (c : Chain) : Option (Frame × Chain) :=
  match c.down with
  | [] => none
  | fr :: r => some (fr, { c with down := r, replays := c.replays.filter (fun x => x.1 % 2 == 0 || 2 * fr.pos + 1 < x.1) })
def Chain.popUp (c : Chain) : Option (Frame × Chain) :=
  match c.up with
  | [] => none
  | fr :: r => some (fr, { c with up := r, replays := c.replays.filter (fun x => x.1 % 2 == 1 || 2 * fr.pos < x.1) })
/-- Chip `f` with its link table as its peers stand: a link's far end is the board's, and shows while the peer holds an
assigned address (Table 1.8, R29). -/
def State.seen (s : State) (f : Nat) : Chip :=
  let c := s.chip f
  { c with links := tmodRange {} c.links 0 12 (fun n l =>
      let q := Config.linkPeer f n
      let o := s.chip (q.1 % 128)
      { l with peerValid := o.assigned && !o.inReset, peerFabric := o.faddr, peerLink := q.2 % 12 }) }
/-- The bytes a WDA returns for a READ, and the chip after it; bytes the spec leaves open are free. -/
def State.chipRead (s : State) (f a n : Nat) : List Byte × State :=
  let r := (s.seen f).read (s.chipTime f) a n
  let b := s.mixFree r.1 (fun i => (s.chip f).openAt (a + i))
  (b.1, b.2.setChip f { r.2 with links := (s.chip f).links })
/-- An INSTALL_MONITOR's two writes of a core's monitor area, the lower half first: the second installs the monitor (R22,
R151). The first, on a halted core, is the misuse of R157. The new monitor ends that of R436; `staged` tells a staged one. -/
def Chip.monWrite (c : Chip) (a : Nat) (staged : Bool) : Chip :=
  let n := (a - coreMemBase) / 0x10000
  let u := c.core n
  if a < coreMemBase then c
  else if a % 0x10000 = 0xE000 then c.setCore n { u with half := 1, odd := if u.state.halted then 2 else u.odd }
  else if a % 0x10000 = 0xF000 ∧ u.half = 1 then c.setCore n { u with half := 0, monitor := true, staged := staged, odd := if u.state.halted then 2 else if u.odd = 3 then 0 else u.odd }
  else c
/-- A WDA answers the READ at the head of chain `k`, or its link layer answers NACK. -/
def State.wdaRead (s : State) (k : Nat) : State :=
  match (s.chain k).popDown with
  | some (.read p t a n, c) =>
    let f := 16 * k + p
    if (s.chip f).inReset then s.setChain k { c with up := c.up ++ [.nack p t] }
    else
      let r := s.chipRead f a n
      r.2.setChain k { c with up := c.up ++ [.readData p t r.1] }
  | _ => s
def State.wdaWrite (s : State) (k : Nat) : State :=
  match (s.chain k).popDown with
  | some (.write p t a d, c) =>
    let f := 16 * k + p
    let ch := s.chip f
    if ch.inReset then s.setChain k { c with up := c.up ++ [.nack p t] }
    else
      let ch := if c.txns.any (fun x => x.tag == t && x.mon && x.write) then ch.monWrite a s.boot.stagedMonitor else ch
      s.engEffects (((s.setChain k { c with up := c.up ++ [.writeAck p t] }).setChip f (ch.write f (s.chipTime f) a d)).relayScan k) f
  | _ => s
/-- An ALERT_ACK releases the alert of its number (R351). -/
def State.wdaAlertAck (s : State) (k : Nat) : State :=
  match (s.chain k).popDown with
  | some (.alertAck p n, c) =>
    let f := 16 * k + p
    let ch := s.chip f
    (s.setChain k c).setChip f { ch with alerts := ch.alerts.filter (fun a => a.num != n) }
  | _ => s
/-- A WDA answers a PROBE with its fabric time. -/
def State.wdaProbe (s : State) (k : Nat) : State :=
  match (s.chain k).popDown with
  | some (.probe p sent iss, c) =>
    if (s.chip (16 * k + p)).inReset then
      match iss with
      | .item w ix => (s.setChain k c).opDone w ix [] (some .chipAbsent)
      | _ => s.setChain k c
    else s.setChain k { c with up := c.up ++ [.probeStamp p (s.chipTime (16 * k + p)) sent iss] }
  | _ => s

/-! ### The hub's receiver (R347, R350, R353, R368) -/

/-- The response of a tag. A transaction whose timeout passed before this cycle has ended with TIMEOUT first; one that times out in
this very cycle takes the response (R350, R368). -/
def State.response (s : State) (k tag : Nat) (d : List Byte) (e : Option Status) : State :=
  let s := s.txnTimeout k tag
  match (s.chain k).txns.find? (fun t => t.tag == tag) with
  | some t => s.endTxn k t d e
  | none => s
def State.recvReadData (s : State) (k : Nat) : State :=
  match (s.chain k).popUp with
  | some (.readData _ t d, c) => (s.setChain k c).response k t d none
  | _ => s
def State.recvWriteAck (s : State) (k : Nat) : State :=
  match (s.chain k).popUp with
  | some (.writeAck _ t, c) => (s.setChain k c).response k t [] none
  | _ => s
def State.recvNack (s : State) (k : Nat) : State :=
  match (s.chain k).popUp with
  | some (.nack _ t, c) => (s.setChain k c).response k t [] (some .chipAbsent)
  | _ => s
/-- A PROBE_STAMP is recorded as the chip's error in ns (R365, Table 12.8). -/
def ftDiff (stamp sent delayPs : Nat) : Int := Int.ofNat stamp - Int.ofNat (sent + (delayPs + 500) / 1000)
def ftErrOf (stamp sent delayPs : Nat) : Nat :=
  let e := ftDiff stamp sent delayPs
  let e := if e < -127 then -127 else if 127 < e then 127 else e
  (e % 256).toNat
def State.recvProbeStamp (s : State) (k : Nat) : State :=
  match (s.chain k).popUp with
  | some (.probeStamp p stamp sent iss, c) =>
    let v := ftErrOf stamp sent (tget 0 c.delay p)
    let s := s.setChain k c
    let s := { s with bhv := { s.bhv with ftErr := tput 0x80 s.bhv.ftErr (16 * k + p) v } }
    match iss with
    | .item w ix => s.opDone w ix (leBytes 1 (Nat.min (ftDiff stamp sent (tget 0 c.delay p)).natAbs 255)) none
    | _ => s
  | _ => s

/-! ### Hops and training (R342–R344, R349, R370) -/

/-- Consecutive PRESENT positions from 0 whose hops are up. -/
def Chain.span (c : Chain) : Nat := ((List.range 16).takeWhile (fun p => bit c.present p && tget 0 c.failed p == 0)).length
/-- The calibrated delays after hop `p` takes `ps`: positions beyond it shift with it (R357). -/
def Chain.hopDelay (c : Chain) (p ps : Nat) : Tab Nat :=
  let v := (if p = 0 then 0 else tget 0 c.delay (p - 1)) + ps
  let old := tget 0 c.delay p
  tput 0 (tmodRange 0 c.delay (p + 1) (15 - p) (fun _ d => if d = 0 then 0 else d + v - old)) p v
/-- Start a cold training (R343): PRESENT will be the positions that answer. -/
def State.train (s : State) (k : Nat) : State :=
  let c := s.chain k
  if c.state = .up ∨ c.state = .training then s
  else (s.setChain k { c with state := .training, training := true, trainFrom := s.now, reach := 0, present := 0, addressable := 0, failed := [], step := 0 }).chainEvent k 1 0 0
/-- Chips at positions from `lo` lose the path's sync (R358). -/
def State.unsync (s : State) (k lo : Nat) : State :=
  (List.range 16).foldl (fun s p => if lo ≤ p then s.setChip (16 * k + p) { s.chip (16 * k + p) with synced := false } else s) s
/-- Hop `p` comes up, with its calibrated delay in ps (R343, R344, R357): in training the next hop out, within 500 µs; a failed hop
within 60 µs of the start of an attempt, after which REACH is what the hops still down leave. -/
def State.hopUp (s : State) (k p ps : Nat) : State :=
  let c := s.chain k
  if c.training ∧ p = c.reach ∧ p < 16 ∧ (c.state = .training ∨ c.state = .up) then
    if c.trainFrom + 500000 < s.now then s
    else
      let c' := { c with state := .up, reach := p + 1, present := setFld c.present p 1 1, delay := c.hopDelay p ps, training := p + 1 < 16 }
      (s.setChain k c').chainEvent k (if c.state = .training then 1 else 3) (if c.state = .training then 0 else p) 0
  else
    match tget 0 c.failed p with
    | 0 => s
    | f + 1 =>
      if (c.state = .up ∨ c.state = .down) ∧ s.now ≤ f + 60000 then
        let c1 := { c with failed := tput 0 c.failed p 0, delay := c.hopDelay p ps, present := setFld c.present p 1 1 }
        let c' := { c1 with state := if c1.span = 0 then c.state else .up, reach := c1.span, step := if c.reach < c1.span then 0 else c.step }
        let s := s.setChain k c'
        if c'.reach ≤ c.reach then s else s.chainEvent k (if c.state = .down then 1 else 3) (if c.state = .down then 0 else p) 0
      else s
/-- Hop `p` fails (R344, R370). One beyond REACH is out of the hub's sight: it keeps REACH short until it returns. -/
def State.hopFail (s : State) (k p : Nat) : State :=
  let c := s.chain k
  if c.state = .up ∧ p < c.reach then
    let c' := { c with state := if p = 0 then .down else .up, reach := p, retrains := satAdd c.retrains 1 16,
                       failed := tput 0 c.failed p (s.now + 1), training := false, replays := [], symbol := c.symbol.filter (fun x => x.1 < p),
                       upTrace := c.upTrace.filter (fun fr => fr.pos < p) }
    let s := (s.setChain k c').endTxnsWhere k (fun q => p ≤ q) .chainDown
    (s.unsync k p).chainEvent k 2 p 0
  else if (c.state = .up ∨ c.state = .down) ∧ c.reach ≤ p ∧ p < 16 ∧ bit c.present p ∧ tget 0 c.failed p = 0 then
    s.setChain k { c with failed := tput 0 c.failed p (s.now + 1) }
  else s
/-- A hop that did not come up is tried again every 1 ms (R344). -/
def State.hopRetry (s : State) (k : Nat) : State :=
  let c := s.chain k
  s.setChain k { c with failed := tmodRange 0 c.failed 0 16 (fun _ f => if f ≠ 0 ∧ f + 999999 < s.now then f + 1000000 else f) }
/-- Training stops at a position that has not answered within 500 µs, or finds no chip at all (R343). -/
def State.trainTimeout (s : State) (k : Nat) : State :=
  let c := s.chain k
  if c.training ∧ c.trainFrom + 500000 ≤ s.now then
    if c.reach = 0 then (s.setChain k { c with state := .empty, training := false }).chainEvent k 1 0 0
    else s.setChain k { c with training := false }
  else s
/-- A frame fails its CRC at hop `p`, going upstream or downstream, and is replayed; the eighth replay in a row fails the hop. The
hub's own receiver, which counts, is the upstream one of hop 0 (R344, R349). -/
def State.crcFail (s : State) (k p : Nat) (upstream : Bool) : State :=
  let c := s.chain k
  let j := 2 * p + b2n (!upstream)
  let n := tget 0 c.replays j + 1
  let s := s.setChain k { c with crc := if upstream ∧ p = 0 then satAdd c.crc 1 32 else c.crc, replays := tput 0 c.replays j n }
  if 8 ≤ n then s.hopFail k p else s
/-- A DISCOVER or CHAIN_ENABLE that waits for training goes on once every chain it selects has ended it (R343, R355). -/
def State.trainCheck (s : State) : State :=
  s.mapItems (fun _ i =>
    if (opcodeOf i.desc = 0x50 ∨ opcodeOf i.desc = 0x52) ∧ i.stage = 1 ∧ i.wait = .ctl none ∧
       (List.range 8).all (fun k => !bit (db i.desc 0x10 1) k || !(s.chain k).training) then
      Item.mark s.now i { i with wait := Wait.no }
    else i)
/-- CHAIN_ENABLE DISABLE of one chain (R367). -/
def State.disableChain (s : State) (k : Nat) : State :=
  let s := s.endTxnsWhere k (fun _ => true) .chainDown
  let c := s.chain k
  ((s.setChain k { c with state := .disabled, reach := 0, addressable := 0, down := [], up := [], upTrace := [], symbol := [], failed := [], training := false, locks := [] }).unsync k 0).chainEvent k 1 0 0

/-! ### Sync (R356, R358) -/

/-- The hub's time crosses a multiple of 1 ms: a symbol goes out on every usable chain. -/
def State.syncSymbol (s : State) : State :=
  let m := s.time / 1000000 + 1
  if s.fastClock ∧ s.time % 1000000 = 0 ∧ s.bhv.lastSync ≠ m then
    let s := { s with bhv := { s.bhv with syncCnt := (s.bhv.syncCnt + 1) % 2 ^ 32, lastSync := m } }
    (List.range 8).foldl (fun s k =>
      let c := s.chain k
      if c.state = .up then s.setChain k { c with symbol := tmodRange 0 c.symbol 0 c.reach (fun _ _ => s.time + 1) } else s) s
  else s
/-- A chip applies the symbol that has reached it: it steps its time the first time, and slews after that. The delay it
adds is the symbol's own travel time, so the value applied is the hub's time at that instant (log entry 24). -/
def State.syncApply (s : State) (f : Nat) : State :=
  let k := f / 16
  let p := f % 16
  let c := s.chain k
  let ch := s.chip f
  if tget 0 c.symbol p = 0 ∨ ch.inReset then s
  else
    let c := { c with symbol := tput 0 c.symbol p 0 }
    let t := ch.timeAt s.now
    let err : Int := Int.ofNat s.time - Int.ofNat t
    if ch.synced then
      let e := if err < -200 then -200 else if 200 < err then 200 else err
      (s.setChain k c).setChip f { ch with ftAdj := (t + 2 ^ 64 - s.now % 2 ^ 64) % 2 ^ 64, slew := e, slewFrom := s.now }
    else
      (s.setChain k { c with step := Nat.min (Nat.max c.step err.natAbs) (2 ^ 32 - 1) }).setChip f
        { ch with ftAdj := (s.time + 2 ^ 64 - s.now % 2 ^ 64) % 2 ^ 64, slew := 0, slewFrom := s.now, synced := true }

end Sys2Proof.Machine
end

