-- ==== Sys2Proof/Machine/TraceOps.lean ====
section
/-! DEFINITION. The hub's side of trace and TRIG_OUT: triggers, the staging ring and windows, gaps, flushing and the
stop of a capture (R495–R501, R503, R504, R508, R512–R514). -/

namespace Sys2Proof.Machine

/-! ### TRIG_OUT (R501, Table 17.3) -/

/-- An event of source bit `b`. Only STOP_IN works outside RUN and IDLE. -/
def State.toutEvent (s : State) (b : Nat) : State :=
  if s.pins.trigEn ∧ bit s.trc.toutSources b ∧ (b = 2 ∨ s.fastClock) then
    let s := { s with trc := { s.trc with toutLast := b } }
    if s.pins.trigPulse.isSome ∨ s.pins.trigEnd = s.now + 1 then { s with pins := { s.pins with trigPulse := some s.now } }
    else
      { s with
        pins := { s.pins with trigPulse := some s.now }
        trc := { s.trc with toutCnt := satAdd s.trc.toutCnt 1 32, toutTime := if s.fastClock then s.time else s.trc.toutTime } }
  else s
/-- The pulse ends at the first AON edge WIDTH µs after the latest event; an event at that edge extends it (R501, R513). -/
def State.toutEnd (s : State) : State :=
  match s.pins.trigPulse with
  | some t => if aonEdge (t + 1000 * Nat.max s.trc.toutWidth 1) ≤ s.now then { s with pins := { s.pins with trigPulse := none, trigEnd := s.now + 1 } } else s
  | none => s

/-! ### The staging ring (R495, R499) -/

/-- A hub record (R503): markers carry TIME_HI and CODE. -/
def marker (type code arg time : Nat) : TraceRec :=
  { type := type, fabric := 0x80, arg16 := fld time 56 8 + code * 256, arg32 := arg, time := time % 2 ^ 56 }
/-- Records enter the ring at its tail; a fill that rises to WATERMARK activates source 171 (R512). -/
def State.ringPush (s : State) (rs : List TraceRec) : State :=
  let a := s.trc.ring.length
  let b := a + rs.length
  let s := { s with sramClean := false, trc := { s.trc with ring := s.trc.ring ++ rs } }
  let w := s.trc.watermark
  if w ≠ 0 ∧ a < w ∧ w ≤ b then s.activate 171 (2 + place b 32 32) else s
/-- The state code and whether trace is armed (R496). -/
def TraceState.code : TraceState → Nat
  | .idle => 0 | .streaming => 1 | .pre => 2 | .post => 3 | .flushing => 4 | .stopped => 5
def TraceState.armed : TraceState → Bool
  | .streaming | .pre | .post | .flushing => true
  | _ => false
/-- A record of chip `f` goes to its window, or to the ring, or is discarded (R498). -/
def State.placeRec (s : State) (f : Nat) (r : TraceRec) : State :=
  let c := s.tchip f
  let keep := r.type == 0x10 || r.type == 0x11
  let toWindow := { s with sramClean := false }.setTchip f { c with window := (c.window ++ [r]).drop ((c.window.length + 1) - s.trc.preN) }
  let discard := { s with trc := { s.trc with discarded := satAdd s.trc.discarded 1 32 } }
  if !s.trc.windowMode then s.ringPush [r]
  else if s.trc.state = TraceState.pre then toWindow
  else if !s.trc.triggered then (if keep then s.ringPush [r] else discard)
  else
    let tt := s.trc.trigTime % 2 ^ 56
    if r.time ≤ tt then (if c.frozen then s else toWindow)
    else
      let s := s.setTchip f { c with frozen := true }
      if keep ∨ r.time ≤ (tt + s.trc.postNs) % 2 ^ 56 then s.ringPush [r]
      else { s with trc := { s.trc with discarded := satAdd s.trc.discarded 1 32 } }
/-- A GAP record received or made activates source 171 (R512). -/
def State.gapEvent (s : State) (f : Nat) (hub : Bool) (count : Nat) : State :=
  s.activate 171 (3 + place f 16 7 + place (b2n hub) 23 1 + place count 32 32)
/-- The hub notes a GAP for chip `f`, to stand ahead of the chip's next record (R500): CAUSE 2 LINK, 3 RESET. -/
def State.hubGap (s : State) (f cause count : Nat) : State :=
  let c := s.tchip f
  let r : TraceRec := { type := 0x10, fabric := f + 0x80, arg16 := cause, arg32 := count, time := s.time % 2 ^ 56 }
  let s := s.setTchip f { c with owed := c.owed ++ [r] }
  { s with trc := { s.trc with linkGaps := satAdd s.trc.linkGaps 1 32 } }.gapEvent f true count
/-- The gaps owed to a chip enter ahead of its next record. -/
def State.payGaps (s : State) (f : Nat) : State :=
  let c := s.tchip f
  c.owed.foldl (fun s r => s.placeRec f r) (s.setTchip f { c with owed := [] })
/-- Every armed chip has flushed or is excused (R508): trace is STOPPED, the windows freeze and follow the ring, after a
WINDOWS marker, in the output sequence (R498, R499). TRACE_STOPs that wait become eligible. -/
def State.checkFlushed (s : State) : State :=
  if s.trc.state = .flushing ∧ s.trc.chips.all (fun (p : Nat × TraceChip) => !p.2.armed || p.2.flushed) then
    let s := (List.range 128).foldl (fun s f => if (s.tchip f).owed ≠ [] then s.payGaps f else s) s
    let win := (s.trc.chips.map (fun (p : Nat × TraceChip) => p.2.window)).flatten
    let tail := if s.trc.windowMode then marker 0x23 0 win.length (if s.trc.triggered then s.trc.trigTime else s.trc.stopAt) :: win else []
    let s := { s with trc := { s.trc with state := .stopped, captured := s.trc.windowMode && s.trc.triggered, ring := s.trc.ring ++ tail,
                                          chips := s.trc.chips.map (fun (p : Nat × TraceChip) => (p.1, { p.2 with frozen := true, window := [] })) } }
    s.mapItems (fun _ i => if (opcodeOf i.desc = 0x41 ∨ opcodeOf i.desc = 0x42) ∧ i.wait ≠ Wait.no then Item.mark s.now i { i with wait := Wait.no } else i)
  else s
/-- A WAIT drain's threshold may now be met, and a FINAL drain may have more to copy (R509). -/
def State.drainCheck (s : State) : State :=
  s.mapItems (fun _ i =>
    if opcodeOf i.desc = 0x42 ∧ i.wait ≠ Wait.no ∧ i.begun ∧
       (dbits i.desc 0x10 2 1 = 1 ∧ s.trc.ring ≠ [] ∨ Nat.max (db i.desc 0x30 4) 1 ≤ s.trc.ring.length) then
      Item.mark s.now i { i with wait := Wait.no } else i)
/-- One record of a TRACE frame (R498, R500). -/
def State.recvRec (s : State) (f : Nat) (r : TraceRec) : State :=
  let c := s.tchip f
  let s := if c.armed ∧ c.expect < 256 ∧ r.seq ≠ c.expect then s.hubGap f 2 ((r.seq + 256 - c.expect) % 256) else s
  let s := s.payGaps f
  let s := s.setTchip f { s.tchip f with expect := (r.seq + 1) % 256 }
  let s := { s with trc := { s.trc with received := satAdd s.trc.received 1 32 } }
  let s := if r.type = 0x10 then
      { s with trc := { s.trc with gaps := satAdd s.trc.gaps 1 32, dropped := satAdd s.trc.dropped r.arg32 32 } }.gapEvent f false r.arg32
    else s
  let s := s.placeRec f r
  if r.type = 0x11 then
    let q := if (s.tchip f).odd then s.free else (1, s)
    (q.2.setTchip f { q.2.tchip f with flushed := q.1.getLsbD 0 }).checkFlushed
  else s
/-- Free slots of the staging ring. -/
def State.ringFree (s : State) : Nat := s.trc.ringSize - s.trc.ring.length
/-- The receiver refuses TRACE frames on every chain: a frame found too few free slots, and there are too few still (R495). -/
def State.ringFull (s : State) : Bool := decide (s.ringFree < s.trc.need)
/-- The hub's receiver takes the oldest TRACE frame of a chain, or refuses it while the ring lacks room (R495). -/
def State.recvTrace (s : State) (k : Nat) : State :=
  let c := s.chain k
  match c.upTrace with
  | .trace p rs :: rest =>
    if s.trc.state.armed then
      if s.ringFull then s
      else if s.ringFree < rs.length then { s with trc := { s.trc with need := rs.length } }
      else
        let s := (s.setChain k { c with upTrace := rest })
        let s := { s with trc := { s.trc with need := 0 } }
        (rs.foldl (fun s r => s.recvRec (16 * k + p) r) s).drainCheck
    else s.setChain k { c with upTrace := rest }
  | _ => s
/-- Chips whose link is lost while trace is armed get a LINK gap of unknown count (R500). -/
def State.traceLost (s : State) (k lo hi : Nat) : State :=
  if s.trc.state.armed then
    (List.range 16).foldl (fun s p =>
      let f := 16 * k + p
      if lo ≤ p ∧ p < hi ∧ (s.tchip f).armed then (s.hubGap f 2 0xFFFFFFFF).setTchip f { (s.hubGap f 2 0xFFFFFFFF).tchip f with expect := 256 } else s) s
  else s
/-- An accepted RESET alert excuses an armed chip (R500). -/
def State.traceReset (s : State) (f : Nat) : State :=
  if s.trc.state.armed ∧ (s.tchip f).armed then
    let s := s.hubGap f 3 0xFFFFFFFF
    (s.setTchip f { s.tchip f with flushed := true, expect := 256 }).checkFlushed
  else s

/-- A TRACE_DRAIN's write of `n` bytes is transmitted, or its blocks are written: its records leave the head of the output
sequence, and a STOPPED trace drained empty becomes IDLE (R496, R499, R509). Key 3 of the item counts the records of its
batch still to leave, key 4 those that have left. -/
def State.traceWritten (s : State) (w : Work) (n : Nat) : State :=
  match s.item? w with
  | some i =>
    if opcodeOf i.desc = 0x42 then
      let k := Nat.min (n / 16) (tget 0 i.x 3)
      let ring := s.trc.ring.drop k
      let st := if s.trc.state = TraceState.stopped ∧ ring = [] then TraceState.idle else s.trc.state
      { s with trc := { s.trc with ring := ring, state := st } }.modItem w (fun i => { i with x := tput 0 (tput 0 i.x 3 (tget 0 i.x 3 - k)) 4 (tget 0 i.x 4 + k) })
    else s
  | none => s

/-! ### Triggers and the end of a capture (R497, R498, R514) -/

/-- A capture triggered at `tt` straddles a wrap of the 56-bit TIME: its end, or a record of a window (R498, Table 18.3). -/
def State.straddles (s : State) (tt : Nat) : Bool :=
  s.trc.windowMode && (2 ^ 56 ≤ tt % 2 ^ 56 + s.trc.postNs || s.trc.chips.any (fun c => c.2.window.any (fun r => tt % 2 ^ 56 + 2 ^ 55 < r.time)))
/-- A trigger event of a source (Table 17.2) at time `tt`. Of two in one hub cycle the second is counted only (R513). -/
def State.traceTrigger (s : State) (code tt arg : Nat) : State :=
  if s.trc.enable ∧ (code = 0 ∨ s.trc.source = code) then
    match (if s.trc.state ≠ .idle ∧ s.trc.trigNow = s.now + 1 then .stopped else s.trc.state : TraceState) with
    | .streaming | .pre =>
      let s := if s.straddles tt then { s with trc := { s.trc with odd := true } } else s
      let s := { s with trc := { s.trc with triggered := true, trigCode := code, trigTime := tt, trigNow := s.now + 1,
                                            state := if s.trc.state = TraceState.pre then .post else .streaming } }
      let s := s.ringPush [marker 0x21 code arg tt]
      (s.activate 171 (1 + place code 8 8 + place tt 32 32)).toutEvent 4
    | .idle => s
    | _ => { s with trc := { s.trc with ignored := satAdd s.trc.ignored 1 32 } }
  else s
/-- A chain controller's own register write, without a stroke (log entry 25). -/
def State.ctlWrite (s : State) (f a v : Nat) : State :=
  if s.addressable f ∧ !(s.chip f).inReset then (s.setChip f ((s.chip f).regWrite f (s.chipTime f) a v)).relayScan (f / 16) else s
/-- The STOP marker is written and the trace flushes (R508): CODE 0 TRACE_STOP, 1 CAPTURE_END, 2 DISABLE. -/
def State.stopMarker (s : State) (code : Nat) : State :=
  let s := s.ringPush [marker 0x22 code s.trc.ring.length s.time]
  { s with trc := { s.trc with state := .flushing, stopCode := code, stopAt := s.time,
                               chips := if s.trc.state = TraceState.pre then s.trc.chips.map (fun (p : Nat × TraceChip) => (p.1, { p.2 with frozen := true })) else s.trc.chips } }
/-- The capture stops without a stroke: the chain controllers write TAP_EN = 0 to every armed chip (R498, R514). -/
def State.stopCapture (s : State) (code : Nat) : State :=
  let s := s.stopMarker code
  ((List.range 128).foldl (fun s f => if (s.tchip f).armed then s.ctlWrite f (wdaBase + 0x500) 0 else s) s).checkFlushed
def State.captureEnd (s : State) : State :=
  if s.trc.state = .post ∧ s.trc.trigTime + s.trc.postNs ≤ s.time then s.stopCapture 1 else s
def State.timeTrigger (s : State) : State :=
  if s.trc.source = 3 ∧ s.trc.trigAt ≤ s.time ∧ !s.trc.timeFired ∧ (s.trc.state = TraceState.pre ∨ s.trc.state = .streaming) then
    { s with trc := { s.trc with timeFired := true } }.traceTrigger 3 s.trc.trigAt 0
  else s
/-- A write of TRC_CTRL.ENABLE (R514). -/
def State.traceEnable (s : State) (on : Bool) : State :=
  let was := s.trc.enable
  let s := { s with trc := { s.trc with enable := on } }
  if was ∧ !on then
    match s.trc.state with
    | .streaming | .pre | .post => s.stopCapture 2
    | _ => s
  else s
/-- TRACE_FRAME_SEND: the WDA sends its oldest records when the chain grants a slot (R494). -/
def State.traceSend (s : State) (f : Nat) : State :=
  let k := f / 16
  let c := s.chain k
  let ch := s.chip f
  if c.state = .up ∧ f % 16 < c.reach ∧ !ch.inReset then
    let r := ch.takeTrace f (s.chipTime f)
    if r.1 = [] then s
    else (s.setChain k { c with upTrace := c.upTrace ++ [.trace (f % 16) r.1] }).setChip f r.2
  else s

end Sys2Proof.Machine
end

