-- ==== Sys2Proof/Machine/Stops.lean ====
section
/-! DEFINITION. Stop lines and pulses, the relay, the hub's toll, stop instants and their confirmation (R92–R95, R224,
R378–R387, R400, R403, R408, R413). -/

namespace Sys2Proof.Machine

/-! ### Pads (R92–R95, R223, R224) -/

/-- EXTEST or CLAMP is in effect: the pads follow the boundary update latches (R224). -/
def State.extPads (s : State) : Bool := !s.scan.tlr && !s.scan.denied && !s.scan.lapsed && (s.scan.ir == 0 || s.scan.ir == 3)
/-- The value and the enable that the functional logic presents at an output cell (Table 8.4, R92); none where the spec gives no
value: the CLKREQ_N level, and the data and direction of the quad-SPI bus while it is in use. -/
def State.cell (s : State) (n : Nat) : Option Bool :=
  if n < 8 then some (bit s.pins.stopOut n)
  else if n < 16 then some (bit s.pins.stopEn (n - 8))
  else if n = 54 then some (s.pins.trigIdle != s.pins.trigPulse.isSome)
  else if n = 55 then some s.pins.trigEn
  else if n = 56 then some s.pins.ready
  else if n = 57 then some s.pins.readyEn
  else if n = 59 then some s.pins.pcieTx
  else if n = 61 ∨ n = 63 then some s.pins.qspiEn
  else if n = 62 ∧ !s.bursts.any (fun b => b.nor != 0) then some true
  else if 68 ≤ n ∧ n < 72 ∧ !s.pins.qspiEn then some false
  else none
/-- Level of the output whose data cell is `d` and enable cell `e`, which reads `pull` when nothing drives it: under EXTEST or
CLAMP its update latches, else the functional logic (R91, R224). -/
def State.outPad (s : State) (d e : Nat) (pull : Bool) : Bool :=
  if s.pins.inPor || s.pins.dead then pull
  else if s.extPads then (if s.scan.boundary.getLsbD e then s.scan.boundary.getLsbD d else pull)
  else if s.cell e == some true then (s.cell d).getD pull
  else pull
/-- Levels of TRIG_OUT and HUB_READY (R92, Table 3.13). -/
def State.trigPad (s : State) : Bool := s.outPad 54 55 (bit s.pins.pulls 8)
def State.readyPad (s : State) : Bool := s.outPad 56 57 false
/-- Level on STOP_N_OUT_k: the latches under EXTEST or CLAMP, the enabled output, or the board's pull. -/
def State.stopPad (s : State) (k : Nat) : Bool := s.outPad k (8 + k) (bit s.pins.pulls k)
/-- A stop line that is high re-arms the stop inputs of the chips that have seen it high before (R95). -/
def State.riseStops (s : State) : State :=
  (s.chips.map (·.1)).foldl (fun s f =>
    let c := s.chip f
    if s.stopPad (f / 16) ∧ c.seenHigh ∧ !c.stopIn then s.setChip f { c with stopIn := true } else s) s
/-- The hub samples STOP_N_OUT_k and drives the same level, when chain k is first enabled (R92). -/
def State.enableStop (s : State) (k : Nat) : State :=
  if bit s.pins.stopEn k then s
  else { s with pins := { s.pins with stopEn := s.pins.stopEn + 2 ^ k, stopOut := setFld s.pins.stopOut k 1 (b2n (s.stopPad k)) } }
/-- A line low outside a stop pulse is raised by a RESUME with ALL_UNITS (R403). -/
def State.raiseStop (s : State) (k : Nat) : State :=
  if bit s.pins.stopEn k ∧ !bit s.pins.stopOut k ∧ tget 0 s.pins.pulse k = 0 then
    { s with pins := { s.pins with stopOut := setFld s.pins.stopOut k 1 1 } }.riseStops
  else s
def State.raiseStops (s : State) (mask : Nat) : State :=
  (List.range 8).foldl (fun s k => if bit mask k then s.raiseStop k else s) s

/-! ### Stop requests (R378) -/

/-- A stop request for chain k starts or extends a pulse: the line is enabled and is high or in a pulse. -/
def State.drivable (s : State) (k : Nat) : Bool := bit s.pins.stopEn k && (tget 0 s.pins.pulse k != 0 || bit s.pins.stopOut k)
def State.drivenMask (s : State) (mask : Nat) : Nat := maskOf 8 (fun k => bit mask k && s.drivable k)
def State.pulseStart (s : State) (k : Nat) : State :=
  if s.drivable k then
    { s with pins := { s.pins with stopOut := setFld s.pins.stopOut k 1 0, pulse := tput 0 s.pins.pulse k (s.now + 1) } }
  else s
/-- A stop request for every chain of a mask, with its trace trigger at `tt` and TRIG_OUT event (R378, R497, R501). -/
def State.stopRequest (s : State) (mask tt : Nat) : State :=
  let s := (List.range 8).foldl (fun s k => if bit mask k then s.pulseStart k else s) s
  (s.traceTrigger 2 tt 0).toutEvent 1
/-- A stop pulse rises at the first AON edge at least STOP_PULSE µs after the latest request (R378). -/
def State.pulseEnd (s : State) (k : Nat) : State :=
  match tget 0 s.pins.pulse k with
  | 0 => s
  | n + 1 =>
    if aonEdge (n + 1000 * Nat.max s.run.pulse 1) ≤ s.now then
      { s with pins := { s.pins with stopOut := setFld s.pins.stopOut k 1 1, pulse := tput 0 s.pins.pulse k 0 } }.riseStops
    else s

/-! ### Stop instants and confirmation (R387, R408, R410) -/

/-- KIND's place among the kinds of one cycle: TOLL, PEAL, RELAY. -/
def kindRank (k : Nat) : Nat := if k = 2 then 0 else if k = 1 then 1 else 2
/-- A stop instant at fabric time `t` (R387): it restarts a confirmation over the union of the chains. -/
def State.stopInstant (s : State) (kind chains t : Nat) : State :=
  let r := s.run
  let same := r.stopKind != 0 && r.stopTime == t
  let kind := if same && kindRank r.stopKind < kindRank kind then r.stopKind else kind
  let chains := if same then r.stopChains ||| chains else chains
  let old := match r.confirm with | some c => c.chains | none => 0
  { s with run := { r with stopTime := t, stopKind := kind, stopChains := chains, stopNow := s.now + 1
                           stopPrev := if r.stopNow = s.now + 1 then r.stopPrev else r.stopTime
                           confirm := some { kind := kind, chains := chains ||| old, instant := t, left := [], started := false, confirmed := 0, unconfirmed := 0 } } }
/-- RUN_STOP_TIME as a first stroke of this cycle finds it (R434). -/
def State.stopRef (s : State) : Nat := if s.run.stopNow = s.now + 1 then s.run.stopPrev else s.run.stopTime
/-- PEALs that wait for HALT go on (R400). -/
def State.wakePeals (s : State) (ok un : Nat) : State :=
  s.mapItems (fun _ i =>
    if opcodeOf i.desc = 0x10 ∧ i.wait = .ctl none then
      Item.mark s.now i { i with wait := Wait.no, x := tput 0 (tput 0 i.x 1 ok) 2 un } else i)
/-- The confirmation ends: HALT activates (R387, R408). -/
def State.confirmDone (s : State) (c : Confirm) : State :=
  let s := { s with run := { s.run with confirm := none, lastConf := (c.confirmed, c.unconfirmed) } }
  let s := s.activate 168 (c.kind + place c.confirmed 8 8 + place c.unconfirmed 16 8 + place c.chains 24 8 + place c.instant 32 32)
  s.wakePeals c.confirmed c.unconfirmed
/-- Chips of the chains of a mask that `p` picks, in address order. -/
def chipsOf (mask : Nat) (p : Nat → Bool) : List Nat := (List.range 128).filter (fun f => bit mask (f / 16) && p f)
/-- CONFIRMATION_READ of chip `f` (R387): the controllers read WDA_HALT 1 µs after the instant, then 1 µs after each
read, three times at most, each with a reserved tag, once no chain of them is left idle by a DOZE. A chip no longer ADDRESSABLE is UNCONFIRMED. -/
def State.confirmRead (s : State) (f : Nat) : State :=
  match s.run.confirm with
  | none => s
  | some c =>
    if !s.fastClock ∨ (List.range 8).any (fun k => bit c.chains k && (s.chain k).state == ChainState.eIdle) ∨ s.time < c.instant + 1000 ∨ !(s.chain (f / 16)).tagFree true then s
    else
      let c : Confirm := if c.started then c else { c with started := true, left := (chipsOf c.chains s.addressable).map (fun f => (f, 0, c.instant + 1000)) }
      let c : Confirm := match c.left.find? (fun p => p.1 == f) with
        | none => c
        | some (_, n, due) =>
          if s.time < due then c
          else if s.addressable f ∧ !(s.chip f).inReset ∧ (s.chip f).stopSeen then
            { c with left := c.left.filter (fun p => p.1 != f), confirmed := c.confirmed + 1 }
          else if !s.addressable f ∨ (s.chip f).inReset ∨ 3 ≤ n + 1 then
            { c with left := c.left.filter (fun p => p.1 != f), unconfirmed := c.unconfirmed + 1 }
          else { c with left := c.left.map (fun p => if p.1 = f then (f, n + 1, s.time + 1000) else p) }
      let s := { s with run := { s.run with confirm := some c } }
      if c.left = [] then s.confirmDone c else s

/-! ### The relay (R381, R382, R387) -/

/-- A relay stop request: one that only extends pulses in progress makes no stop instant. -/
def State.relayRequest (s : State) : State :=
  let m := s.run.relayMask
  let ext := (List.range 8).all (fun k => !bit m k || tget 0 s.pins.pulse k != 0)
  let s := { s with run := { s.run with relayCnt := satAdd s.run.relayCnt 1 32, relayFired := true, lastRelay := s.now + 1 } }
  let s := s.stopRequest m s.time
  if ext then s else s.stopInstant 3 m s.time
/-- A fall of STOP_N_IN_k (R381, R501). -/
def State.stopInFall (s : State) (k : Nat) : State :=
  if k < 8 ∧ !s.stopInPad k ∧ !bit s.pins.stopInLow k ∧ !s.pins.inPor ∧ !s.pins.dead then
    let s := { s with pins := { s.pins with stopInLow := s.pins.stopInLow + 2 ^ k } }
    let s := s.toutEvent 2
    if s.run.relayEn ∧ s.run.relayMask ≠ 0 then s.relayRequest else s
  else s
/-- The relay through a UNIT_HALT alert of REACH 3 (R382). -/
def State.alertRelay (s : State) : State :=
  if s.run.relayEn ∧ s.run.relayMask ≠ 0 ∧ s.fastClock ∧ (s.run.lastRelay = 0 ∨ s.run.lastRelay + 10000 ≤ s.now + 1) then s.relayRequest else s

/-! ### The hub's toll (R383–R386) -/

def TollState.code : TollState → Nat
  | .none_ => 0 | .armed => 1 | .waitTrig => 2 | .arming => 3
/-- The chain controllers issue what tags and chip sequences allow of their own activity: the four frames of an arming
(R386) in one sequence, or the first write of a rediscovery (R354). -/
def State.armPump (s : State) : State :=
  s.run.armQ.foldl (fun s q =>
    let f := q.1
    let c := s.chain (f / 16)
    let drop := { s with run := { s.run with armQ := s.run.armQ.filter (· != q) } }
    if q.2 = 0 then
      if !s.addressable f then
        let r := { drop.run with arming := drop.run.arming.filter (· != f) }
        { drop with run := if r.arming = [] ∧ r.tollState = TollState.arming then { r with tollState := TollState.armed } else r }
      else if c.txns.length + 4 ≤ 64 ∧ !(c.locks.any (fun l => l.1 == f % 16)) then
        let t := s.run.tollT
        let s := drop.sendTxn (.arm f) f true (wdaBase + 0x300) 8 (leBytes 8 (lo32 t))
        let s := s.sendTxn (.arm f) f true (wdaBase + 0x304) 8 (leBytes 8 (hi32 t))
        let s := s.sendTxn (.arm f) f true (wdaBase + 0x308) 8 (leBytes 8 1)
        s.sendTxn (.arm f) f false (wdaBase + 0x308) 8 []
      else s
    else if c.state ≠ ChainState.up ∨ c.reach ≤ f % 16 ∨ !c.isPresent (f % 16) then drop
    else if c.tagFree true then drop.sendTxn (.rediscover f) f true (wdaBase + 4) 8 (leBytes 8 (f + 2 ^ 31))
    else s) s
/-- The trigger of a toll in WAIT_TRIG: E and T are fixed and arming starts (R385). -/
def State.tollTrigger (s : State) (active : Bool) (stamp : Nat) : State :=
  if s.run.tollState = TollState.waitTrig ∧ bit s.run.tollEdge (if active then 0 else 1) ∧ s.fastClock then
    let fs := chipsOf s.run.tollMask s.addressable
    let r := s.run
    { s with run := { r with trigEdge := s.edgeTime, trigStamp := stamp, tollT := (s.edgeTime + r.tollOffset) % 2 ^ 64, backup := true,
                             tollState := if fs = [] then TollState.armed else TollState.arming, arming := fs,
                             armQ := r.armQ ++ fs.map (fun f => (f, 0)) } }.armPump
  else s
/-- At T the hub stops the chains of its toll (R384). -/
def State.backupStop (s : State) : State :=
  let r := s.run
  if r.backup ∧ r.tollT ≤ s.time ∧ s.fastClock then
    let s := { s with run := { r with backup := false, tollState := TollState.none_, tollCnt := satAdd r.tollCnt 1 32 } }
    if r.tollMask = 0 then s
    else (s.stopRequest r.tollMask r.tollT).stopInstant 2 r.tollMask r.tollT
  else s
/-- At AT by hub time a timed RESUME with ALL_UNITS raises the low lines of its chains (R403). -/
def State.timedRaise (s : State) : State :=
  let due := s.run.raises.filter (fun p => p.1 ≤ s.time)
  due.foldl (fun s p => s.raiseStops p.2) { s with run := { s.run with raises := s.run.raises.filter (fun p => s.time < p.1) } }

end Sys2Proof.Machine
end

