-- ==== Sys2Proof/Machine/Carillon.lean ====
section
/-! DEFINITION. The Carillon: line filters, readiness, selection, records, completion, recovery, the queues' registers
and their resets (R312–R338). -/

namespace Sys2Proof.Machine

def Queue.size (q : Queue) : Nat := 2 ^ (Nat.min (Nat.max q.sizeLog2 4) 12)
/-- Room for one more record (R326). -/
def Queue.room (q : Queue) : Bool := (q.issue + 1) % q.size != q.head
/-- Readiness conditions of R316 that hold for a pending source now: bit 0 COUNT, bit 1 TIME, and what was latched of bit 2
SOFTWARE and bit 3 FLUSH. -/
def State.readyCause (s : State) (v : Source) : Nat :=
  let q := s.queue v.route
  b2n (Nat.max q.coalCount 1 ≤ v.count) + place (b2n (q.coalTime != 0 && v.first + q.coalTime * 1000 ≤ s.edgeTime)) 1 1 + place (fld v.cause 2 2) 2 2
/-- COAL_TIME_READY of source `n` (R316). -/
def State.timeReady (s : State) (n : Nat) : State :=
  let v := s.src n
  if v.pending && !v.ready && s.readyCause v != 0 then s.setSrc n { v with ready := true, cause := v.cause ||| s.readyCause v } else s
/-- Readiness is judged against the current settings of the current route (R316, R331, R337). -/
def State.rejudge (s : State) (p : Source → Bool) : State :=
  (s.car.sources.map (·.1)).foldl (fun s n => if p (s.src n) then s.timeReady n else s) s

/-! ### Registers of the sources (R316, R317) -/

def State.pendSet (s : State) (n : Nat) : State :=
  let v := s.src n
  let v := if v.pending then v else { v with pending := true, count := 1, first := s.time, last := s.time }
  s.setSrc n { v with ready := true, cause := v.cause ||| 4 }
/-- A clear of the latch. Activations of the same cycle come after it (Table 11.7). -/
def State.pendClr (s : State) (n : Nat) : State :=
  let v := s.src n
  if v.pending ∧ v.recent.actAt = s.now + 1 then
    (s.setSrc n { v with count := satAdd 0 v.recent.acts 8, first := v.last, ready := false, cause := 0 }).judgeReady n
  else s.setSrc n { v with pending := false, count := 0, first := 0, last := 0, ready := false, cause := 0 }
/-- A mask bit is written; a selection of the same cycle uses the mask as it stood (Table 11.7). -/
def State.setMask (s : State) (n : Nat) (m : Bool) : State :=
  let v := s.src n
  s.setSrc n { v with mask := m, recent := { v.recent with maskAt := s.now + 1, maskWas := if v.recent.maskAt = s.now + 1 then v.recent.maskWas else v.mask } }
def State.masked (s : State) (v : Source) : Bool := if v.recent.maskAt = s.now + 1 then v.recent.maskWas else v.mask
/-- Apply `f` to the sources of register `m` whose bit of `bits` is 1. -/
def State.eachSource (s : State) (m bits : Nat) (f : State → Nat → State) : State :=
  (List.range 32).foldl (fun s k => if bit bits k then f s (32 * m + k) else s) s

/-! ### Lines (R314) -/

/-- The filter output of line `n` takes a level, after that many samples at it. -/
def State.lineLevel (s : State) (n : Nat) (high : Bool) : State :=
  let l := s.line n
  let act := high == l.high
  let s := s.setLine n { l with level := act, raw := high }
  if act ∧ !l.level then (s.activateAt n 1 s.edgeTime).lineEvent n else s
/-- A write to CAR_LINE_n: FILTER, and POLARITY where it is writable, from the next AON edge. -/
def State.lineWrite (s : State) (n v : Nat) : State :=
  let l := s.line n
  s.setLine n { l with next := some (fld v 0 4, if n = 16 ∨ (18 ≤ n ∧ n < 32) then bit v 4 else l.high) }
/-- An AON edge applies what was written; a POLARITY that makes the level active activates the source. -/
def State.lineApply (s : State) (n : Nat) : State :=
  let l := s.line n
  match l.next with
  | none => s
  | some (f, high) =>
    let act := if high == l.high then l.level else !l.level
    let s := s.setLine n { l with filter := f, high := high, level := act, next := none }
    if act ∧ !l.level then (s.activateAt n 1 s.edgeTime).lineEvent n else s
def Line.reg (l : Line) : Nat :=
  let w := l.next.getD (l.filter, l.high)
  w.1 + place (b2n w.2) 4 1 + place (b2n l.level) 8 1 + place (b2n l.raw) 9 1
/-- An AON edge applies COAL_COUNT and COAL_TIME as written to queue `q` (R331). -/
def State.coalApply (s : State) (q : Nat) : State :=
  let u := s.queue q
  match u.coalNew with
  | none => s
  | some (c, t) => (s.setQueue q { u with coalCount := c, coalTime := t, coalNew := none }).rejudge (fun x => x.route == q)
/-- What the Carillon's registers do at an AON edge. -/
def State.carEdge (s : State) : State :=
  let s := (s.car.lines.map (·.1)).foldl State.lineApply s
  (s.car.queues.map (·.1)).foldl State.coalApply s

/-! ### Selection and records (R319, R324, R326, R327) -/

/-- A queue that could take a source into service, apart from whether one is ready; not in the cycle of a release (R319, R321). -/
def State.canSelect (s : State) (q : Nat) : Bool :=
  let v := s.queue q
  v.enabled && !v.frozen && !v.parked && v.insvc.isNone && v.relAt != s.now + 1 && v.room && s.pwr.state == .run && s.pwr.pllLock
def State.nextSource (s : State) (q : Nat) : Option Nat :=
  (List.range 256).find? (fun n => let v := s.src n; v.ready && !s.masked v && v.route == q)
/-- The event record of source `n` in queue `q` (Table 11.3). -/
def State.eventRecord (s : State) (q n : Nat) : List Byte :=
  let v := s.src n
  let u := s.queue q
  let data := if n < 32 then b2n (s.line n).level else v.data
  leBytes 2 n ++ leBytes 1 v.count ++ leBytes 1 v.lost ++ leBytes 4 u.seq ++ leBytes 8 v.first ++ leBytes 8 data ++
  leBytes 4 (Nat.min (v.last - v.first) (2 ^ 32 - 1)) ++ leBytes 2 (s.readyCause v) ++ leBytes 2 (u.issue + place (b2n u.phase) 15 1)
/-- QUEUE_SELECT. -/
def State.queueSelect (s : State) (q : Nat) : State :=
  match s.canSelect q, s.nextSource q with
  | true, some n =>
    let u := s.queue q
    let r := s.eventRecord q n
    let wrap := u.issue + 1 = u.size
    let s := s.setSrc n { s.src n with pending := false, count := 0, first := 0, last := 0, ready := false, cause := 0, lost := 0 }
    let s := s.setQueue q { u with insvc := some n, issue := (u.issue + 1) % u.size, phase := if wrap then !u.phase else u.phase,
                                   seq := (u.seq + 1) % 2 ^ 32, out := u.out ++ [n], selAt := s.now + 1 }
    let r := s.mixFree r (fun _ => s.openBlock 4 || s.openBlock 6)
    (r.2.addHostOp { id := 0, owner := .queue q, ix := 0, write := true, addr := u.base + 32 * u.issue, len := 32, data := r.1, reserved := true }).pump
  | _, _ => s
/-- Queue `q` requests its vector, once in a hub cycle (R329). -/
def State.queueVector (s : State) (q : Nat) : State :=
  if (s.queue q).reqAt = s.now + 1 then s else (s.setQueue q { s.queue q with reqAt := s.now + 1 }).requestVector q
/-- RECORD_TRANSMITTED: TAIL advances and the vector is requested (R329). A record issued before the queue was last enabled counts
in no TAIL. -/
def State.recordSent (s : State) (q : Nat) : State :=
  let u := s.queue q
  if 0 < u.oldOut then s.setQueue q { u with out := u.out.drop 1, oldOut := u.oldOut - 1 }
  else
    let empty := u.head == u.tail
    let wrap := u.tail + 1 = u.size
    let s := s.setQueue q { u with tail := (u.tail + 1) % u.size, tailPhase := if wrap then !u.tailPhase else u.tailPhase, out := u.out.drop 1 }
    if u.irqEn ∧ empty then s.queueVector q else s

/-! ### The driver's side (R321–R323, R328, R332, R335) -/

def State.qHead (s : State) (q v : Nat) : State :=
  let u := s.queue q
  if u.size ≤ v ∨ (u.tail + u.size - u.head) % u.size < (v + u.size - u.head) % u.size then s.setQueue q { u with headErr := true }
  else
    let s := s.setQueue q { u with head := v }
    if u.irqEn ∧ v ≠ u.tail then s.queueVector q else s
/-- The service of queue `q` ends. Activations that its source lost in this very cycle come after the release (Table 11.7). -/
def State.qRelease (s : State) (q : Nat) : State :=
  let u := s.queue q
  let s := s.setQueue q { u with insvc := none, relAt := s.now + 1 }
  match u.insvc with
  | none => s
  | some n =>
    let v := s.src n
    let r := v.recent
    if r.lossAt = s.now + 1 then
      let s := s.setSrc n { v with ovr := r.lossOvr, lost := r.lossLost, recent := { r with lossAt := 0, losses := 0 } }
      (List.range r.losses).foldl (fun s _ => s.activateAt n r.lossData r.lossTime) s
    else s
def State.qEoi (s : State) (q n : Nat) : State :=
  let u := s.queue q
  if u.frozen then s
  else if u.insvc = some n then s.qRelease q
  else
    let s := s.setQueue q { u with frozen := true, named := n, none_ := u.insvc.isNone, faults := satAdd u.faults 1 16 }
    s.activate 193 (q + place n 8 8 + place (b2n u.insvc.isNone) 16 1 + place (u.insvc.getD 0) 24 8)
def State.qRecover (s : State) (q : Nat) (release : Bool) : State :=
  let u := s.queue q
  if u.frozen then
    let s := s.setQueue q { u with frozen := false }
    if release then s.qRelease q else s
  else s
def State.qEnable (s : State) (q : Nat) : State :=
  let u := s.queue q
  if u.enabled then s
  else s.setQueue q { u with enabled := true, head := 0, tail := 0, tailPhase := true, issue := 0, phase := true, seq := 0, dropped := 0, faults := 0,
                              oldOut := u.out.length }
def State.qDisable (s : State) (q : Nat) : State := s.setQueue q { s.queue q with enabled := false }
def Queue.status (u : Queue) : Nat :=
  b2n u.enabled + place (b2n u.frozen) 1 1 + place (b2n u.parked) 2 1 + place (b2n (!u.room)) 3 1 + place (b2n u.insvc.isSome) 4 1 +
  place (u.insvc.getD 0) 8 8 + place (b2n u.headErr) 16 1

/-! ### SLEEP's flush (R334) -/

/-- The queues that hold a pending, unmasked source and could select but for readiness: each makes its lowest ready. -/
def State.flushQueue (s : State) (q : Nat) : State :=
  if s.canSelect q && (s.nextSource q).isNone then
    match (List.range 256).find? (fun n => let v := s.src n; v.pending && !s.masked v && v.route == q) with
    | some n => (s.setSrc n { s.src n with ready := true, cause := (s.src n).cause ||| 8 }).queueSelect q
    | none => s
  else if s.canSelect q then s.queueSelect q
  else s
def State.flushQueues (s : State) : State := (s.car.queues.map (·.1)).foldl (fun s q => s.flushQueue q) s

/-! ### Resets (R338, Table 11.8) -/

/-- The queues and their service are reset; a parked record's source is marked in CAR_OVR (PERST_N). -/
def State.queuesReset (s : State) : State :=
  let s := s.car.queues.foldl (fun s p =>
    if p.2.parked then (match p.2.out[(s.htu.ops.filter (fun o => o.owner == .queue p.1 && o.isQueued)).length]? with | some n => s.setSrc n { s.src n with ovr := true } | none => s) else s) s
  { s with car := { s.car with queues := [] } }.rejudge (fun _ => true)
/-- A boot that is no power-on reset: pending latches and lines are kept, everything else is reset; DATA reads 0. -/
def State.carBoot (s : State) : State :=
  let srcs := s.car.sources.foldl (fun (t : Tab Source) p =>
    tput {} t p.1 { pending := p.2.pending, count := p.2.count, first := p.2.first, last := p.2.last, ready := p.2.ready, cause := p.2.cause }) []
  { s with car := { s.car with sources := srcs, queues := [] } }.rejudge (fun _ => true)

end Sys2Proof.Machine
end

