-- ==== Sys2Proof/Machine/Power.lean ====
section
/-! DEFINITION. Sleep requests and their commit, entry to DOZE and OFF, wakes, the AON timer and the PLL (R107–R130). -/

namespace Sys2Proof.Machine

/-! ### Requests (R114–R117, Table 4.5) -/

/-- Tick 0 of a request: the first AON edge after the post. -/
def SleepReq.tick0 (r : SleepReq) : Nat := aonEdge (r.posted + 1)
/-- The event a decision names: earliest edge, then lowest code, then lowest line (R119). -/
def firstEvent : List (Nat × Nat × Nat) → Option (Nat × Nat × Nat)
  | [] => none
  | e :: r =>
    match firstEvent r with
    | none => some e
    | some x =>
      if e.1 < x.1 || (e.1 == x.1 && (e.2.1 < x.2.1 || (e.2.1 == x.2.1 && e.2.2 ≤ x.2.2))) then some e else some x
/-- A SLEEP ends without committing (R113, R117, R123). -/
def Pwr.abort (p : Pwr) (code line : Nat) : Pwr :=
  { p with aborted := true, wakeSrc := code, wakeLine := if code = 1 ∨ code = 2 ∨ code = 3 then line else 0, entering := false,
           aborts := satAdd p.aborts 1 16, events := p.events ||| 2 ^ 9, req := none, seen := [] }
/-- The post of a request, with its TIMER (R112, R114). -/
def State.postSleep (s : State) (w : Work) (target timer : Nat) : State :=
  { s with pwr := { s.pwr with entering := true, req := some { posted := s.now, target := target, by_ := w }, seen := [],
                               timer := if timer = 0 then s.pwr.timer else timer } }
/-- The SLEEP that posted the request is eligible again, to write its completion (R116). -/
def State.wakeSleeper (s : State) (w : Work) (ok : Bool) : State :=
  s.updItem w (fun i => if opcodeOf i.desc = 0x63 then { i with wait := Wait.no, stage := if ok then 10 else 11 } else i)
/-- A SLEEP found busy ends without a request (R113). -/
def Pwr.refused (p : Pwr) : Pwr := { p with aborted := true, wakeSrc := 0, wakeLine := 0, aborts := satAdd p.aborts 1 16, events := p.events ||| 2 ^ 9 }
/-- A SLEEP that waits for its flushed records goes on once each has been transmitted or discarded (R114): the queues it
waits for are kept from 100 on. -/
def State.sleepCheck (s : State) : State :=
  s.mapItems (fun _ i =>
    if opcodeOf i.desc = 0x63 ∧ i.stage = 1 ∧ i.wait ≠ Wait.no ∧ i.x.all (fun p => p.1 < 100 || (s.queue (p.1 - 100)).out.isEmpty) then
      Item.mark s.now i { i with wait := Wait.no } else i)
/-- Chains that were UP enter E_IDLE (R371), and their chips lose the path's sync. -/
def State.chainsIdle (s : State) : State :=
  (List.range 8).foldl (fun s k =>
    let c := s.chain k
    if c.state = ChainState.up then ((s.setChain k { c with state := ChainState.eIdle, symbol := [] }).unsync k 0).chainEvent k 1 0 0 else s) s
/-- After a wake from DOZE they return to UP. -/
def State.chainsUp (s : State) : State :=
  (List.range 8).foldl (fun s k =>
    let c := s.chain k
    if c.state = ChainState.eIdle then (s.setChain k { c with state := ChainState.up, step := 0 }).chainEvent k 1 0 0 else s) s

/-- SLEEP_COMMIT (R117, R123): the commit edge, tick 1. -/
def State.sleepCommit (s : State) : State :=
  match s.pwr.req with
  | none => s
  | some r =>
    if r.committed ∨ s.now < r.tick0 + 1000 then s
    else
      match firstEvent (s.pwr.seen.filter (fun e => e.1 ≤ r.tick0 + 1000)) with
      | some e => ({ s with pwr := s.pwr.abort e.2.1 e.2.2 }).wakeSleeper r.by_ false
      | none =>
        let p := { s.pwr with lastTarget := r.target, aborted := false, entering := false, commits := satAdd s.pwr.commits 1 16,
                              seen := s.pwr.seen.filter (fun e => r.tick0 + 1000 < e.1) }
        if r.target = 1 then { s with pwr := { p with state := PwrState.idle, req := none, reqBy := some r.by_ }, dmp := { s.dmp with selfRefresh := true } }
        else { s with pwr := { p with req := some { r with committed := true } } }
/-- Events held while the target was being reached act from the edge at which it is reached (R124). -/
def Pwr.reached (p : Pwr) (st : PwrState) (edge : Nat) (by_ : Option Work) : Pwr :=
  { p with state := st, req := none, reqBy := by_, seen := p.seen.map (fun e => (Nat.max e.1 edge, e.2)) }
/-- DOZE_ENTRY: tick 2 of a request for DOZE or OFF (R117). The link enters L1 where the host has enabled it (R129). -/
def State.dozeEntry (s : State) : State :=
  match s.pwr.req with
  | none => s
  | some r =>
    if !r.committed ∨ r.tick2 ∨ s.now < r.tick0 + 2000 then s
    else
      let s := s.chainsIdle
      let s := { s with dmp := { s.dmp with selfRefresh := true }, pins := { s.pins with l1 := s.pins.linkUp && bit s.cfg.linkCtl 1 }
                        pwr := { s.pwr with pllLock := false, pllOff := none, chainsDue := none, req := some { r with tick2 := true } } }
      if r.target = 2 then { s with pwr := s.pwr.reached PwrState.doze (r.tick0 + 2000) (some r.by_) } else s

/-! ### Wakes (R118–R121, R124–R126) -/

/-- The boot registers from boot tick 0 on; the count is kept (R134, R147). -/
def Boot.restart (b : Boot) (cause tick0 : Nat) : Boot := { due := some cause, cause := cause, tick0 := tick0, count := b.count }

/-- WAKE: the power controller acts on the first enabled event of a sleeping hub. From OFF a boot starts. -/
def State.wake (s : State) : State :=
  if s.pwr.state = PwrState.run ∨ s.pwr.waking.isSome then s
  else
    match firstEvent (s.pwr.seen.filter (fun e => e.1 ≤ s.now)) with
    | none => s
    | some e =>
      let p := { s.pwr with waking := some (e.1, s.pwr.state), seen := [], wakeSrc := e.2.1,
                            wakeLine := if e.2.1 = 1 ∨ e.2.1 = 2 ∨ e.2.1 = 3 then e.2.2 else 0 }
      if s.pwr.state = PwrState.off then { s with pwr := p, boot := s.boot.restart 1 e.1 }
      else { s with pwr := p }
/-- Ticks from the wake edge until strokes may start (Table 4.7). -/
def wakeTicks (st : PwrState) : Nat := match st with | .doze => 25 | _ => 2
/-- The hub reaches RUN from IDLE or DOZE: source 180 activates, the SLEEP that committed completes, and survival starts
if line 17 warned, with no dump (R116, R121, R126). The chains follow 85 µs after a DOZE wake was seen (Table 4.7). -/
def State.wakeDone (s : State) : State :=
  match s.pwr.waking with
  | none => s
  | some (e, st) =>
    if st = PwrState.off ∨ !s.pwr.pllLock ∨ s.now < e + 1000 * wakeTicks st then s
    else
      let by_ := s.pwr.reqBy
      let s := s.linkWake
      let s := { s with
        pwr := { s.pwr with state := PwrState.run, waking := none, reqBy := none, wakeTime := Nat.min (cdiv (s.now - e) 1000) (2 ^ 32 - 1),
                            chainsDue := if st = PwrState.doze then some (e + 85000) else s.pwr.chainsDue }
        dmp := { s.dmp with selfRefresh := false, survDue := s.dmp.survDue || (s.line 17).level, survFromRun := false } }
      let p := s.pwr
      let s := s.activate 180 (place (b2n p.pllLock) 3 1 + place p.lastTarget 4 2 + place p.wakeSrc 8 4 + place p.wakeLine 12 5)
      match by_ with
      | some w => s.wakeSleeper w true
      | none => s

/-! ### Timer and PLL (R118, R128, Table 4.14) -/

/-- PWR_TIMER_EXPIRY: the tick that makes it 0 is a TIMER event. -/
def State.timerExpiry (s : State) : State :=
  if s.pwr.timerHit then { s with pwr := { s.pwr with timerHit := false } }.seeEvent (s.now / 1000 * 1000) 4 0 else s
/-- PLL_UNLOCK in RUN or IDLE (R128). -/
def State.pllUnlock (s : State) : State :=
  if s.fastClock then
    { s with pwr := { s.pwr with pllLock := false, pllOff := some s.now, events := s.pwr.events ||| 2 ^ 10 } }.activate 181 0
  else s
/-- PLL_LOCK: the PLL is enabled in RUN and IDLE, during a wake, and in a boot from stage 2 on (R108, Table 5.2). -/
def State.pllEnabled (s : State) : Bool :=
  !s.pins.inPor && !s.pins.dead && s.boot.stage != 6 && (s.boot.due.isNone || s.boot.resetDue.isSome || s.boot.fused) &&
  (s.boot.due.isSome || s.pwr.waking.isSome || s.pwr.state == .run || s.pwr.state == .idle) &&
  (match s.pwr.req with | some r => !r.tick2 | none => true)
/-- A hub cycle of gated work, moved past a gating from `t` to now. -/
def State.pastGate (s : State) (t x : Nat) : Nat := if x ≤ t then x + (s.now - t) else s.now
/-- What the gating from hub cycle `t` on froze resumes: strokes, transactions and waits for service (R128). -/
def State.ungate (s : State) (t : Nat) : State :=
  let s := (List.range 4).foldl (fun s e =>
    let v := s.se e
    if v.work.isSome then s.setSe e { v with started := s.pastGate t v.started, waiting := v.waiting.map (fun p => (p.1, s.pastGate t p.2)) } else s) s
  let s := s.mapItems (fun _ i => { i with eligAt := s.pastGate t i.eligAt })
  s.mapChains (fun c => { c with txns := c.txns.map (fun (x : Txn) => { x with sentAt := s.pastGate t x.sentAt }) })
def State.pllLocked (s : State) : State :=
  if s.pllEnabled then
    let s := match s.pwr.pllOff with | some t => s.ungate t | none => s
    { s with pwr := { s.pwr with pllLock := true, pllOff := none } }
  else s

def PwrState.code : PwrState → Nat
  | .run => 0 | .idle => 1 | .doze => 2 | .off => 3
/-- PWR_STATUS (Table 4.10). -/
def Pwr.status (p : Pwr) : Nat :=
  p.state.code + place (b2n p.entering) 2 1 + place (b2n p.pllLock) 3 1 + place p.lastTarget 4 2 + place (b2n p.aborted) 6 1 +
  place p.wakeSrc 8 4 + place p.wakeLine 12 5

end Sys2Proof.Machine
end

