-- ==== Sys2Proof/Machine/Fuse.lean ====
section
/-! DEFINITION. The fuse array and what it decodes to: the lifecycle state, the device secret, key markers (R158–R162,
R166, R170). -/

namespace Sys2Proof.Machine

/-- LC_GROUP_k, k = 1–6. -/
def Fuses.group (f : Fuses) (k : Nat) : Nat := tget 0 f.groups k
def Fuses.full (f : Fuses) (k : Nat) : Bool := f.group k == 0xFFF
/-- Fully burned leading groups (R160). -/
def Fuses.leading (f : Fuses) : Nat := ((List.range 6).takeWhile (fun j => f.full (j + 1))).length
/-- The decoded state; 15 is INVALID (R160). -/
def Fuses.decode (f : Fuses) : Nat :=
  let k := f.leading
  if (List.range 6).any (fun j => k < j + 1 && f.group (j + 1) != 0) then 15 else k
/-- A device secret is present (R166). -/
def State.secretPresent (s : State) : Bool := 1 ≤ s.lcs.state && s.lcs.state ≤ 4 && s.fuses.secret != BitVec.allOnes 512
def Fuses.ikey (f : Fuses) : Bool := f.ikeyDone == 0xF
def Fuses.wiped (f : Fuses) : Bool := f.retWiped == 0xF
/-- Authorisation ceiling and default by state (Table 6.4): 0 NONE, 1 OBSERVE, 2 FULL. -/
def ceilingOf (st : Nat) : Nat := if st ≤ 5 then 2 else 0
def defaultOf (st : Nat) : Nat := if st = 4 then 1 else if st ≤ 5 then 2 else 0
/-- PHASE of LCS_STATE (Table 6.9). -/
def phaseOf (st : Nat) : Nat := if st = 0 then 0 else if st = 1 then 1 else if st ≤ 4 then 2 else if st ≤ 6 then 3 else 15
/-- The decode takes effect (R161). -/
def State.decodeFuses (s : State) : State := { s with lcs := { s.lcs with state := s.fuses.decode, leading := s.fuses.leading } }
/-- Bytes 0–15 of the fused unit ID, byte 0 first. -/
def unitBytes (u : BitVec 128) : List Byte := leBytes 16 u.toNat
/-- Burn the 1 bits of `v` into group `k`; bits of `stuck` do not take. -/
def Fuses.burnGroup (f : Fuses) (k v : Nat) : Fuses := { f with groups := tput 0 f.groups k (f.group k ||| v) }
/-- Everything but UNIT_ID and the groups, burned in SCRAPPED (R168). -/
def Fuses.burnAll (f : Fuses) : Fuses :=
  { f with secret := BitVec.allOnes 512, ikeyHash := BitVec.allOnes 384, ikeyDone := 0xF, retWiped := 0xF,
           floor := 2 ^ 255 - 1, trim := BitVec.allOnes 256 }

/-! ### Boot-count records (R133, R146) -/

def bcBase : Nat := 0x110000
/-- The 64-byte record of slot `i`, 0–127. -/
def State.bcRecord (s : State) (i : Nat) : List Byte := s.norRead (bcBase + 64 * i) 64
/-- A digest as its 48 bytes, and the first 32 of them. -/
def digest (d : BitVec 384) : List Byte := leBytes 48 d.toNat
def half (d : BitVec 384) : List Byte := leBytes 32 d.toNat
/-- The device secret: SHA-384 of SECRET (R166). -/
def Fuses.deviceSecret (f : Fuses) : List Byte := digest (Config.sha384 (leBytes 64 f.secret.toNat))
/-- The MAC field of a record with these first 32 bytes (R146). -/
def State.bootMac (s : State) (body : List Byte) : List Byte := half (Config.hmac384 (Config.bootKey s.fuses.deviceSecret s.fuses.unitId) body)
def State.bcValid (s : State) (i : Nat) : Bool :=
  let r := s.bcRecord i
  s.secretPresent && r.drop 32 == s.bootMac (r.take 32)
def State.bcCount (s : State) (i : Nat) : Nat := leNat (((s.bcRecord i).drop 4).take 4)
/-- Slot of the valid record with the highest COUNT. -/
def State.bcNewest (s : State) : Option Nat :=
  (List.range 128).foldl (fun m i =>
    if s.bcValid i then (match m with | some j => if s.bcCount j < s.bcCount i then some i else m | none => some i) else m) none
def isErased (l : List Byte) : Bool := l.all (· == 0xFF)
/-- The boot-count record of this boot is written in the next erased slot; the first record of a sector is followed by the
erasure of the other sector. -/
def State.writeBootCount (s : State) : State :=
  if s.boot.stage = 4 ∧ s.fastRun ∧ !s.dmp.surviving ∧ !s.boot.countWritten ∧ s.secretPresent then
    let from_ := match s.bcNewest with | some i => i + 1 | none => 0
    match ((List.range 128).map (fun j => (from_ + j) % 128)).find? (fun i => isErased (s.bcRecord i)) with
    | none => s
    | some i =>
      let body := leBytes 4 0x4E434248 ++ leBytes 4 s.boot.count ++ zeros 24
      let s := s.norWrite (bcBase + 64 * i) (body ++ s.bootMac body)
      let s := if i % 64 = 0 then s.norErase (bcBase + (if i = 0 then 4096 else 0)) 4096 else s
      { s with boot := { s.boot with countWritten := true } }
  else s

/-! ### Image slots (R137, R144, R154) -/

/-- Base of the slot: A 0, B 1 (Table 5.3). -/
def slotBase (x : Nat) : Nat := 0x80000 * x
/-- COMMIT of a slot whose trailer is valid (R137, R144). -/
def State.trailer (s : State) (x : Nat) : Option Nat :=
  let w := fun o => leNat (s.norRead (slotBase x + 0x7F000 + o) 4)
  if w 0 = 0x53544C53 ∧ w 8 = 2 ^ 32 - 1 - w 4 then some (w 4) else none
/-- An erase or program abandoned midway: its bytes are open, but a trailer so left is not valid (R154). -/
def State.norTorn (s : State) (b : Burst) : State :=
  let r := s.freeBytes b.len
  let s := r.2.norWrite b.addr r.1
  (List.range 2).foldl (fun s x =>
    if b.addr < slotBase x + 0x7F010 ∧ slotBase x + 0x7F000 < b.addr + b.len ∧ (s.trailer x).isSome then s.norErase (slotBase x + 0x7F000) 4096 else s) s
/-- The NOR erases and programs in flight are abandoned. -/
def State.dropNor (s : State) : State := s.bursts.foldl (fun s b => if b.nor = 1 ∨ b.nor = 2 then s.norTorn b else s) s

/-! ### The last-gasp area (R145, R461) -/

def lgBase : Nat := 0x100000
def State.lgRecord (s : State) (i : Nat) : List Byte := s.norRead (lgBase + 512 * i) 512
/-- A record is valid when MAGIC and CRC check. -/
def State.lgValid (s : State) (i : Nat) : Bool :=
  let r := s.lgRecord i
  leNat (r.take 4) == 0x5053474C && leNat (r.drop 508) == crc32 (r.take 508)
def State.lgSeqOf (s : State) (i : Nat) : Nat := leNat (((s.lgRecord i).drop 8).take 4)
def State.lgNewest (s : State) : Option Nat :=
  (List.range 128).foldl (fun m i =>
    if s.lgValid i then (match m with | some j => if s.lgSeqOf j < s.lgSeqOf i then some i else m | none => some i) else m) none
/-- LAST_GASP_ERASE: the sector after the newest record's, when it is not erased. -/
def State.lgErase (s : State) : State :=
  if s.boot.stage = 4 ∧ s.fastUp ∧ !s.dmp.surviving then
    match s.lgNewest with
    | some i =>
      let sec := (i / 8 + 1) % 16
      if isErased (s.norRead (lgBase + 4096 * sec) 4096) then s else s.norErase (lgBase + 4096 * sec) 4096
    | none => s
  else s

end Sys2Proof.Machine
end

