-- ==== Sys2Proof/Machine/Reset.lean ====
section
/-! DEFINITION. What each reset reaches: power-on reset, every boot, REBOOT, PERST_N and a function-level reset
(R84, R89, R102, R131–R140, R156, R278, R310, R338, R429, R466, R516, R529, R530, Tables 5.1, 19.1). -/

namespace Sys2Proof.Machine

/-! ### Host resets (R131, R278, R310, R338, R466) -/

/-- Operations in flight of work item `w` belong to `v` from now on. -/
def Issuer.rehome (w v : Work) : Issuer → Issuer
  | .item u ix => if u = w then .item v ix else .item u ix
  | i => i
def Chain.rehome (w v : Work) (c : Chain) : Chain :=
  { c.mapIssuers (Issuer.rehome w v) with locks := c.locks.map (fun (l : Nat × Work) => if l.2 = w then (l.1, v) else l) }
/-- Take the item of `w` out; its operations in flight complete for nobody, or for the ringless item it becomes. A chip
sequence begun is finished (R390), and a dump kept by the dump store goes on (R466). -/
def State.orphan (s : State) (w : Work) (keep : Option Item) : State :=
  let k := s.hub.nextFree
  let v : Work := .free k
  let s := { s with hub := { s.hub with nextFree := k + 1, coreQ := s.hub.coreQ.map (fun (q : Option Work × List Nat) => if q.1 = some w then (none, q.2) else q)
                                        free := s.hub.free ++ (match keep with | some i => [(k, i)] | none => []) }
                    bursts := s.bursts.map (fun (b : Burst) => if b.work = w then { b with work := v } else b) }.mapChains (Chain.rehome w v)
  (s.endStrokesOf w).dropItem w
/-- The dump context a work item serves. -/
def State.ctxOf (s : State) (w : Work) : Option Nat := (List.range 5).find? (fun n => (s.ctx n).work == some w)
/-- Source 172, with a completion status or END_STATUS (R463). -/
def State.dumpEvent (s : State) (n sdf status : Nat) : State :=
  let c := s.ctx n
  s.activate 172 (lo32 c.id + place n 32 3 + place (b2n c.survival) 35 1 + place sdf 36 2 + place status 40 8 + place (b2n c.hostDropped) 48 1 + place (b2n c.tensor) 49 1)
/-- A collection that PERST_N ends has the effects of a ring disable (R433). -/
def State.cutDropped (s : State) (i : Item) : State :=
  if opcodeOf i.desc = 0x18 ∧ tget 0 i.x 0 = 1 ∧ i.stage ≠ 99 then { s with cut := { s.cut with busy := false, phase := 0, retained := false, status := 1 } } else s
/-- A ring's work item ends without write-back. -/
def State.ringLost (s : State) (n : Nat) : State :=
  let w : Work := .ring n
  let s := match (s.ring n).item with | some i => s.cutDropped i | none => s
  match (s.ring n).item with
  | none => s.orphan w none
  | some i =>
    match s.ctxOf w with
    | some c =>
      let x := s.ctx c
      if x.toStore then
        let n := (s.htu.ops.filter (fun o => o.owner == .item w)).length
        let s := s.dropHostPart c
        let i := (s.item? w).getD i
        let i' := { i with parked := false, out := i.out - n, draining := false }
        let s := s.orphan w (some i')
        s.setCtx c { s.ctx c with work := some (.free (s.hub.nextFree - 1)), state := if x.state = .parked then CtxState.running else x.state }
      else
        let r := s.free
        let s := (r.2.dumpEvent c 0 (r.1.toNat % 256)).setCtx c {}
        s.orphan w none
    | none =>
      match s.seqRest w i with
      | [] => s.orphan w none
      | rest => s.orphan w (some { i with dead := true, todo := rest, parked := false, wait := Wait.no, out := 0 })
/-- A scan or ringless work item whose host operations are discarded: a dump that keeps its store part drops its host part;
any other ends with ABORTED (R233, R310). -/
def State.hostLost (s : State) (w : Work) : State :=
  let n := (s.htu.ops.filter (fun o => o.owner == .item w)).length
  let p := match s.item? w with | some i => i.parked | none => false
  match s.ctxOf w with
  | some c =>
    let s := s.updItem w (fun i => { i with out := i.out - n, parked := false })
    if (s.ctx c).toStore then
      let s := s.dropHostPart c
      s.setCtx c { s.ctx c with state := if (s.ctx c).state = .parked then CtxState.running else (s.ctx c).state }
    else if n = 0 ∧ !p then s else s.killItem w .aborted
  | none => if n = 0 ∧ !p then s else (s.updItem w (fun i => { i with out := i.out - n, parked := false })).killItem w .aborted
/-- A SUSPENDED dump loses its host part too; one to host memory only ends (R466). -/
def State.suspendedLost (s : State) (n : Nat) : State :=
  let c := s.ctx n
  if c.state ≠ .suspended ∨ !c.toHost then s
  else if c.toStore then s.dropHostPart n
  else
    let r := s.free
    (r.2.dumpEvent n 0 (r.1.toNat % 256)).setCtx n {}
/-- PERST_N, a function-level reset or DL_Down: the endpoint, rings, counters, queues, HTU and MSI-X are reset. -/
def State.hostReset (s : State) : State :=
  let s := (List.range 5).foldl (fun s n => s.suspendedLost n) s
  let s := (s.rings.map (·.1)).foldl (fun s n => s.ringLost n) s
  let s := (s.works.filter (fun w => match w with | .ring _ => false | _ => true)).foldl (fun s w => s.hostLost w) s
  let s := s.queuesReset.sleepCheck
  let s := s.htuReset
  { s with rings := [], counters := [], msix := [], pba := 0, held := [], auth := { s.auth with caps := [] }, cfg := {}
           rstAt := s.now + 1, rstBoot := s.rstBoot && s.rstAt == s.now + 1 }
/-- A function-level reset: the reach of PERST_N (R131), but for what the base specification keeps across one: payload size,
link control and the error logs (PRESUMED, log entry 90). -/
def State.flr (s : State) : State :=
  let c := s.cfg
  { s.hostReset with cfg := { devCtl := 0x2000 + place (fld c.devCtl 5 3) 5 3, linkCtl := c.linkCtl, aerStatus := c.aerStatus, aerMask := c.aerMask,
                              aerSev := c.aerSev, aerCorr := c.aerCorr, aerCorrMask := c.aerCorrMask } }

/-! ### Every boot (Table 5.1, Table 19.1) -/

/-- The fast domain is reset: everything but the AON domain, the fuses, the NOR, the dump store and the world outside. -/
def State.fastReset (s : State) : State :=
  let s := s.dropNor
  let m := memOf (Config.freeMemory s.freeIx)
  let s := (s.chips.map (·.1)).foldl (fun s f => s.setChip f { s.chip f with synced := false }) s
  let s := s.carBoot
  { s with
    freeIx := s.freeIx + 1
    hub := {}, rings := [], counters := [], bursts := [], bhv := { syncCnt := s.bhv.syncCnt, lastSync := s.bhv.lastSync }, cut := {}, msix := [], pba := 0, held := [], cfg := {}
    auth := {}
    htu := { nextId := s.htu.nextId, nextOrder := s.htu.nextOrder }
    scan := { tlr := s.scan.tlr, ir := s.scan.ir, denied := s.scan.denied, lapsed := true, boundary := s.scan.boundary
              capture := s.scan.capture, captureIr := s.scan.captureIr, scanLost := s.scan.scanLost, sringDrop := s.scan.sringDrop
              dbgRdata := s.scan.dbgRdata, dbgAddr := s.scan.dbgAddr, dbgWrite := s.scan.dbgWrite, dbgDone := s.scan.dbgDone
              dbgDenied := s.scan.dbgDenied, dbgAsleep := s.scan.dbgAsleep }
    run := { relayEn := s.run.relayEn, relayMask := s.run.relayMask, pulse := s.run.pulse }
    dmp := { sealMap := s.dmp.sealMap, selfRefresh := s.dmp.selfRefresh }
    trc := { toutSources := s.trc.toutSources, toutWidth := s.trc.toutWidth, toutLast := s.trc.toutLast }
    lcs := { s.lcs with nonce := 0, nonceValid := false, dsDone := false, norDone := false, percent := 0, trans := none, scrapReboot := false }
    sram := m, sramClean := false, rstAt := s.now + 1, rstBoot := true }
/-- The rails are down: every output is high-impedance, and nothing runs until a power-on reset. -/
def State.railsDown (s : State) : State :=
  { s with
    pins := { s.pins with dead := true, stopEn := 0, trigEn := false, readyEn := false, ready := false, qspiEn := false, dsEn := false,
                          pcieTx := false, linkUp := false, l1 := false }
    pwr := { s.pwr with pllLock := false } }.riseStops
/-- REBOOT is written: no further stroke, the rings are lost and the link goes down; the fast domain is reset once its
operations end, 100 µs after the write at the latest (Table 5.1). -/
def State.rebootNow (s : State) (cause : Nat) : State :=
  let s := s.hostReset
  let s := (List.range 4).foldl (fun s e => s.endStroke e) s
  { s with pins := { s.pins with linkUp := false, l1 := false }, boot := { s.boot with due := some cause, resetDue := some s.now, rebootPend := false } }
/-- The reboot that a SCRAPPED transition owes (R168, R176 step 11), or an image staged in RECOVERY (R140). -/
def State.scrapNow (s : State) : State :=
  if s.lcs.scrapReboot then { s with lcs := { s.lcs with scrapReboot := false } }.rebootNow 2
  else if s.boot.recoveryReboot then { s with boot := { s.boot with recoveryReboot := false } }.rebootNow 3
  else s
/-- It takes place once the request's own completion has been transmitted, or can no longer be. -/
def State.scrapCheck (s : State) : State :=
  if s.works.any (fun w => (s.item? w).any (fun i => tget 0 i.x 40 == 1)) || s.rings.any (fun p => p.2.cplQ.any (·.owes)) then s else s.scrapNow
/-- The hub core works on a lifecycle request (R181, R187). -/
def State.lcsRunning (s : State) : Bool := match s.hub.coreQ with | (_, 0 :: _) :: _ => true | _ => false
/-- A write of 1 to LCS_BOOT_CTRL.REBOOT (R131, R156, R187). -/
def State.reboot (s : State) : State :=
  if s.boot.due.isSome ∨ (s.boot.stage ≠ 4 ∧ s.boot.stage ≠ 5) then s
  else if s.lcsRunning then { s with boot := { s.boot with rebootPend := true } }
  else s.rebootNow 2
/-- Operations of the fast domain in flight. -/
def State.opsInFlight (s : State) : Bool := !s.bursts.isEmpty || s.bhv.chains.any (fun p => !p.2.txns.isEmpty || !p.2.down.isEmpty)
/-- The reset a REBOOT asked for takes place; boot tick 0 is the next AON edge. -/
def State.rebootReset (s : State) : State :=
  match s.boot.resetDue with
  | some t =>
    if s.opsInFlight ∧ s.now < t + 100000 then s
    else
      let s := s.fastReset
      { s with boot := s.boot.restart (s.boot.due.getD 2) (aonEdge (s.now + 1)), pwr := { s.pwr with pllLock := false, pllOff := none } }
  | none => s

/-! ### Power-on reset (R84, R89, R102, R246) -/

/-- Three low samples of POR_N: everything but the fuses, the NOR and the world outside is reset. -/
def State.porStart (s : State) : State :=
  let s := s.dropNor
  let m := Config.freeMemory s.freeIx
  let chips := (s.chips.map (·.1)).foldl (fun (t : Tab Chip) f => tput ({} : Chip) t f { tget ({} : Chip) t f with synced := false }) s.chips
  ({ pending := s.pending, now := s.now, freeIx := s.freeIx + 2, fuses := s.fuses, nor := s.nor, host := s.host, chips := chips
     msiSent := s.msiSent, readVal := s.readVal
     pins := { pulls := s.pins.pulls, inPor := true, stopInLow := s.pins.stopInLow, linkUp := false }
     store := memOf m, sram := memOf (Config.freeMemory (s.freeIx + 1)), sramClean := false
     dmp := { sealMap := m.foldl (fun (t : Tab Bool) p => tput false t p.1 (p.2.getLsbD 0)) [] }
     ftAdj := (2 ^ 64 - s.now % 2 ^ 64) % 2 ^ 64 : State }).riseStops
/-- The third high sample: straps are latched, fabric time counts from 0, and a boot is due from tick 3. -/
def State.porEnd (s : State) (straps pulls : Nat) : State :=
  if s.pins.inPor then
    ({ s with pins := { s.pins with inPor := false, pulls := pulls % 512 }, pwr := { s.pwr with straps := straps % 16 }
              ftAdj := (2 ^ 64 - s.now % 2 ^ 64) % 2 ^ 64
              boot := s.boot.restart 0 (s.now + 1000) }).riseStops
  else s

end Sys2Proof.Machine
end

