-- ==== Sys2Proof/Machine/Flags.lean ====
section
/-! DEFINITION. Status codes and their precedence, and the completion record and scan completion word that carry them
(R232, R263–R265). -/

namespace Sys2Proof.Machine

/-- Place in the precedence of R265; 1 is highest. -/
def Status.rank : Status → Nat
  | .badOpcode => 1 | .authDenied => 2 | .aborted => 3 | .translationFault => 4 | .partial_ => 5 | .incomplete => 6
  | .timeout => 7 | .chainDown => 8 | .chipAbsent => 9 | .ledgerMismatch => 10 | .forcedCut => 11 | .ok => 12
/-- The higher of two statuses. -/
def Status.max (a b : Status) : Status := if a.rank ≤ b.rank then a else b
/-- The status a record carries when these apply (R265). -/
def Status.highest (l : List Status) : Status := l.foldl Status.max .ok
def Status.ofCode (n : Nat) : Status :=
  if n = 1 then .partial_ else if n = 2 then .authDenied else if n = 3 then .chipAbsent else if n = 4 then .chainDown
  else if n = 5 then .translationFault else if n = 6 then .aborted else if n = 7 then .forcedCut else if n = 8 then .ledgerMismatch
  else if n = 9 then .timeout else if n = 10 then .badOpcode else if n = 11 then .incomplete else .ok

/-- PHASE that the completion record of ring `r`'s work item carries (R263). -/
def Ring.itemPhase (r : Ring) : Bool := if r.itemIx < r.head then !r.phase else r.phase
/-- The completion record (Table 9.13): CURSOR is 0 but with PARTIAL or INCOMPLETE. -/
def cplBytes (r : Ring) (d : BitVec 512) (st det cur : Nat) : List Byte :=
  leBytes 1 st ++ leBytes 1 (opcodeOf d) ++ leBytes 2 (db d 2 2) ++ leBytes 4 det ++ leBytes 6 cur ++ leBytes 2 (r.itemIx + place (b2n r.itemPhase) 15 1)
/-- CURSOR as a record may carry it. -/
def cursorOf (st : Status) (cur : Nat) : Nat := if st = .partial_ ∨ st = .incomplete then cur % 2 ^ 48 else 0

end Sys2Proof.Machine
end

