-- ==== Sys2Proof/Machine/Items.lean ====
section
/-! DEFINITION. Strokes: issuing the operations of a work item against the bounds, waiting and yielding, and completing
it (R53–R55, R62, R63, R70, R71, R232, R233, R263, R266, R390). -/

namespace Sys2Proof.Machine

/-! ### Issuing one operation (R62, R71, R341, R390) -/

/-- How an operation of item `w` ends at issue: DISCOVER and CHAIN_ENABLE reach chips that are not yet ADDRESSABLE
(R355, R364). -/
def State.issueCheck (s : State) (w : Work) (f : Nat) : Option Status :=
  match s.item? w with
  | some i => if opcodeOf i.desc = 0x50 ∨ opcodeOf i.desc = 0x52 then s.reachStatus f else s.issueStatus f
  | none => s.issueStatus f
/-- A PROBE frame carries no tag (Table 12.2). -/
def Op.isProbe (o : Op) : Bool := match o.k with | .probe _ => true | _ => false
/-- Bihevan operations to a chip: ended at issue, waiting for a tag, or sent. Code 6 is no bound of Table 2.3: another item's
sequence to the chip goes first (R390), or a probe keeps clear of a symbol (R365); the stroke ends. -/
def State.issueFabric (s : State) (w : Work) (o : Op) (f : Nat) (send : State → State) : State × Option Nat :=
  let k := f / 16
  let c := s.chain k
  let free := c.locks.filter (fun l => !(l.1 == f % 16 && l.2 == w))
  match s.issueCheck w f with
  | some e => ((s.setChain k { c with locks := if o.unlock || o.lock then free else c.locks }).modItem w (fun i => i.failed o.ix e), none)
  | none =>
    if o.lock ∧ c.locks.any (fun l => l.1 == f % 16 && l.2 != w) then (s, some 6)
    else if !o.isProbe ∧ !c.tagFree w.urgent then (s, some 0)
    else
      let locks := if o.unlock then free else if o.lock then free ++ [(f % 16, w)] else c.locks
      ((send (s.setChain k { c with locks := locks })).modItem w (fun i => { i with out := i.out + 1 }), none)
/-- A probe keeps 2 µs away from a multiple of 1 ms of hub time (R365). -/
def State.probeClear (s : State) : Bool := 2000 ≤ s.time % 1000000 && s.time % 1000000 ≤ 998000
/-- An operation at address `a` would start a walk at once (R290, R293). -/
def State.wouldWalk (s : State) (w : Work) (a : Nat) : Bool :=
  s.boot.stage != 5 && s.htu.enabled && a < 2 ^ 48 && !(s.htu.tlb.any (fun e => e.covers (a / 4096))) &&
  !(s.htu.ops.any (fun p => p.owner == .item w && !p.isQueued))
/-- A read of a WAIT whose TIMEOUT has run out is not issued: the WAIT ends with TIMEOUT (R271, R308). -/
def State.waitOver (s : State) (w : Work) : Bool := (s.item? w).any (fun i => opcodeOf i.desc == 1 && i.late s.now)
/-- Issue a host-memory operation of a work item, or name the bound it waits at (R63, R233, R286, R293). -/
def State.issueHost (s : State) (w : Work) (o : Op) (write : Bool) (a n : Nat) (d : List Byte) : State × Option Nat :=
  if s.hostDown then (s.modItem w (fun i => i.failed o.ix .aborted), none)
  else if s.waitOver w then (s.modItem w (fun i => { i.failed o.ix .timeout with stage := doneStage }), none)
  else if !(if write then s.htu.postedFree w.urgent else s.htu.readFree w.urgent) then (s, some (if write then 1 else 2))
  else if s.wouldWalk w a && !s.htu.walkFree w.urgent then (s, some 4)
  else
    let s := s.modItem w (fun i => { i with out := i.out + 1 })
    ((s.addHostOp { id := 0, owner := .item w, ix := o.ix, write := write, addr := a, len := n, data := d, reserved := w.urgent }).pump, none)
/-- Queue a dump-store burst. -/
def State.issueBurst (s : State) (w : Work) (o : Op) (write : Bool) (a n : Nat) (d : List Byte) (sl : Bool) : State × Option Nat :=
  if (if w.urgent then 32 else 28) ≤ (s.bursts.filter (fun b => b.nor == 0)).length then (s, some 3)
  else
    let b : Burst := { id := s.htu.nextId, work := w, ix := o.ix, write := write, addr := a, len := n, data := d, sealed_ := sl }
    (({ s with bursts := s.bursts ++ [b], htu := { s.htu with nextId := s.htu.nextId + 1 } }).modItem w (fun i => { i with out := i.out + 1 }), none)
/-- The dump-store controller reads the block at the DUMP_READ cursor and the two after it into its buffer; refills pause during
survival, and wait while every burst slot is taken (R62, R237). -/
def State.drRefill (s : State) : State :=
  if !s.scan.drOn || s.dmp.surviving || !s.fastRun then s
  else
    (List.range 3).foldl (fun s j =>
      let b := s.scan.drCursor + j
      if b < s.scan.drFirst + s.scan.drCount ∧ tget [] s.scan.drBuf b = [] ∧ !s.bursts.any (fun p => p.refill && p.addr == 512 * b) ∧
          (s.bursts.filter (fun p => p.nor == 0)).length < 32 then
        { s with bursts := s.bursts ++ [{ id := s.htu.nextId, work := .scan, ix := 0, write := false, addr := 512 * b, len := 512, data := [], refill := true }]
                 htu := { s.htu with nextId := s.htu.nextId + 1 } }
      else s) s
/-- A refill ends: its block is buffered. -/
def State.drFilled (s : State) (b : Nat) : State := { s with sramClean := false, scan := { s.scan with drBuf := tput [] s.scan.drBuf b (mread s.store (512 * b) 512) } }
/-- Issue a NOR operation. -/
def State.issueNor (s : State) (w : Work) (o : Op) (kind a n : Nat) (d : List Byte) : State × Option Nat :=
  let b : Burst := { id := s.htu.nextId, work := w, ix := o.ix, write := kind != 3, addr := a, len := n, data := d, nor := kind }
  (({ s with bursts := s.bursts ++ [b], htu := { s.htu with nextId := s.htu.nextId + 1 } }).modItem w (fun i => { i with out := i.out + 1 }), none)
/-- The hub core works on a request of this kind: 0 LCS, 1 CERT, 2 CERT_DROP, 3 FW_STAGE, 4 DISCOVER (R52). -/
def State.coreBusy (s : State) (kind : Nat) : Bool :=
  match s.hub.coreQ with
  | (_, k :: _) :: _ => k == kind
  | _ => false
/-- LCS_REQ_STATUS and AUTH_CERT_STATUS (Tables 6.12, 7.8). -/
def State.lcsStatus (s : State) : Nat :=
  b2n (s.coreBusy 0) + place s.lcs.result 1 4 + place s.lcs.from_ 8 4 + place s.lcs.to_ 12 4 + place (b2n s.lcs.source) 16 1
def State.certStatus (s : State) : Nat :=
  b2n (s.coreBusy 1) + place s.auth.result 1 4 + place (b2n s.auth.source) 8 1 + place s.auth.slot 9 3
/-- A lifecycle request ends: sources and status (R181, Table 11.1). -/
def State.lcsEnd (s : State) (result from_ to_ : Nat) (scan : Bool) : State :=
  let s := { s with lcs := { s.lcs with result := result, from_ := from_, to_ := to_, source := scan } }
  s.activate 176 s.lcsStatus
/-- A certificate install ends. -/
def State.certEnd (s : State) (result slot : Nat) (scan : Bool) : State :=
  let s := { s with auth := { s.auth with result := result, source := scan, slot := slot } }
  s.activate 177 s.certStatus
/-- The hub core's answer reaches the item that waits for it. -/
def State.coreAnswer (s : State) (w : Work) (reply : List Byte) : State :=
  s.updItem w (fun i => if i.wait = .core then { i with wait := Wait.no, rep := tput [] i.rep 900 reply } else i)
/-- Post a hub-core request (R52, R74). A lifecycle request or certificate that arrives while one is being served ends at
once with BUSY (R181, R211). -/
def State.postCore (s : State) (owner : Option Work) (kind src : Nat) (data : List Nat) : State :=
  let busy := s.coreBusy kind && kind < 2
  let s := if busy then
      (if kind = 0 then s.lcsEnd 0xB s.lcs.state (data.getD 0x19 0 % 16) (src == 1) else s.certEnd 0xB 0 (src == 1))
    else { s with sramClean := s.sramClean && 2 ≤ kind, hub := { s.hub with coreQ := s.hub.coreQ ++ [(owner, kind :: src :: data)] } }
  match owner with
  | some w =>
    let s := s.modItem w (fun i => { i with wait := .core })
    if busy then s.coreAnswer w [0xB] else s
  | none => s
def State.coreFree (s : State) (reserved : Bool) : Bool := s.hub.coreQ.length < (if reserved then 16 else 14)
def State.issueCore (s : State) (w : Work) (req : List Nat) : State × Option Nat :=
  if s.coreFree w.urgent then
    match req with
    | k :: data => (s.postCore (some w) k (if w = Work.scan then 1 else 0) data, none)
    | [] => (s, none)
  else (s, some 5)
/-- The hub core answers the request at the head of its queue. -/
def State.coreReply (s : State) (reply : List Byte) : State :=
  match s.hub.coreQ with
  | [] => s
  | (ow, _) :: rest =>
    let s := { s with hub := { s.hub with coreQ := rest } }
    match ow with
    | some w => s.coreAnswer w reply
    | none => s
/-- The head request's source (1 scan port) and data. -/
def State.coreHead (s : State) (kind : Nat) : Option (Option Work × Nat × List Nat) :=
  match s.hub.coreQ with
  | (ow, k :: src :: data) :: _ => if k = kind then some (ow, src, data) else none
  | _ => none
/-- A TRACE_ARM's write of WDA_TRC_CTRL arms its chip, whose SEQ starts at 0 (R500, R507). -/
def State.markArmed (s : State) (w : Work) (f a : Nat) : State :=
  if a = wdaBase + 0x500 ∧ (s.item? w).any (fun i => opcodeOf i.desc == 0x40) then s.setTchip f { s.tchip f with armed := true, flushed := false, expect := 0 } else s
/-- Work items of an opcode that `p` picks are in progress, beside `w`. -/
def State.inProgress (s : State) (w : Work) (p : Item → Bool) : Bool :=
  s.works.any (fun v => v != w && (s.item? v).any (fun i => i.begun && i.fin.isNone && p i))
/-- The unit whose comparator registers the chip address `a` lies in: its window's base. -/
def cmpUnit (a : Nat) : Option Nat :=
  if coreWin ≤ a ∧ a < coreWin + 0x20000 ∧ 0x100 ≤ a % 0x1000 ∧ a % 0x1000 < 0x160 then some (a / 0x1000)
  else if engWin ≤ a ∧ a < engWin + 0x200000 ∧ 0x100 ≤ a % 0x1000 ∧ a % 0x1000 < 0x10C then some (a / 0x1000)
  else none
/-- Mark the misuses of R415 on the unit with the window `u`. -/
def Chip.cmpOdd (c : Chip) (u bits : Nat) : Chip :=
  if u < engWin / 0x1000 then let n := u - coreWin / 0x1000; c.setCore n { c.core n with brkOdd := (c.core n).brkOdd ||| bits }
  else let n := u - engWin / 0x1000; c.setEng n { c.eng n with brkOdd := (c.eng n).brkOdd ||| bits }
/-- An operation of item `v` on chip `f` writes the comparators of unit `u`. -/
def Item.writesCmp (i : Item) (f u : Nat) : Bool :=
  (i.todo ++ i.sent).any (fun o => match o.k with | .wr g b _ => g == f && cmpUnit b == some u | _ => false)
/-- The misuses that a register write of `w` makes: a WRITE_REG and a BREAK_SET or BREAK_CLEAR meet on a unit's comparators
(R415), or a WRITE_REG reaches a chip's trace or counter registers while trace is armed (R518). -/
def State.noteWrite (s : State) (w : Work) (f a : Nat) : State :=
  let op := match s.item? w with | some i => opcodeOf i.desc | none => 0
  let brk := op == 0x16 || op == 0x17
  let s := match cmpUnit a with
    | some u =>
      if (op = 0x21 ∨ brk) ∧ s.inProgress w (fun i => (if op = 0x21 then opcodeOf i.desc == 0x16 || opcodeOf i.desc == 0x17 else opcodeOf i.desc == 0x21) && i.writesCmp f u) then
        s.setChip f ((s.chip f).cmpOdd u 8)
      else s
    | none => s
  if op = 0x21 ∧ s.trc.state.armed ∧ ((wdaBase + 0x500 ≤ a ∧ a < wdaBase + 0x50C) ∨ (wdaBase + 0x600 ≤ a ∧ a < wdaBase + 0x680)) then
    { s with trc := { s.trc with odd := true } }.setTchip f { s.tchip f with odd := true }
  else s
def State.issueOp (s : State) (w : Work) (o : Op) : State × Option Nat :=
  let r := s.openData w o.k
  let s := r.2
  match r.1 with
  | .rd f a n => s.issueFabric w o f (fun s => s.sendTxn (.item w o.ix) f false a n [])
  | .wr f a d => s.issueFabric w o f (fun s => ((s.sendTxn (.item w o.ix) f true a d.length d).markArmed w f a).noteWrite w f a)
  | .probe f =>
    if s.probeClear || (s.issueStatus f).isSome then
      s.issueFabric w o f (fun s =>
        let c := s.chain (f / 16)
        s.setChain (f / 16) { c with down := c.down ++ [.probe (f % 16) s.time (.item w o.ix)] })
    else (s, some 6)
  | .hrd a n => s.issueHost w o false a n []
  | .hwr a d => s.issueHost w o true a d.length d
  | .dsRd a n => s.issueBurst w o false a n [] false
  | .dsWr a d sl => s.issueBurst w o true a d.length d sl
  | .core req => s.issueCore w req
  | .nor k a n d => s.issueNor w o k a n d

/-! ### Completion (R232, R263, R266) -/

/-- The scan ring's next descriptor becomes its work item. -/
def State.scanNext (s : State) : State :=
  match s.scan.item, s.scan.slots.find? (fun l => l.cpl.isNone) with
  | none, some l => { s with scan := { s.scan with item := some { desc := l.desc, eligAt := s.now } } }
  | _, _ => s
/-- The oldest scan slot without a completion word gets one (Table 8.8). -/
def completeSlot (word : Nat → Nat) : List ScanSlot → List ScanSlot
  | [] => []
  | l :: r => if l.cpl.isNone then { l with cpl := some (word l.seq) } :: r else l :: completeSlot word r
/-- STATUS, DETAIL and CURSOR, free for an item left open (Table 18.1, D). -/
def State.openEnd (s : State) (w : Work) (i : Item) (v : Nat × Nat × Nat) : (Nat × Nat × Nat) × State :=
  if s.itemOdd w i then
    let r := s.freeWide 88
    ((r.1.toNat % 256, fld r.1.toNat 8 32, fld r.1.toNat 40 48), r.2)
  else (v, s)
/-- The work item completes with a status, DETAIL and CURSOR. -/
def State.finish (s : State) (w : Work) (st : Status) (det cur : Nat) : State :=
  match s.item? w with
  | none => s
  | some i =>
    let s := s.endStrokesOf w
    let v := s.openEnd w i (st.code, lo32 det, cursorOf st cur)
    let s := v.2
    match w with
    | .ring n =>
      let r := s.ring n
      let s := s.setItem w { i with fin := some v.1, todo := [], sent := [], wait := Wait.no }
      (s.addHostOp { id := 0, owner := .item w, ix := 0, write := true, addr := r.cpl + 16 * r.itemIx, len := 16,
                     data := cplBytes r i.desc v.1.1 v.1.2.1 v.1.2.2, cpl := true, reserved := true }).pump
    | .scan =>
      let word := fun (q : Nat) => v.1.1 + place (opcodeOf i.desc) 8 8 + place q 16 16 + place v.1.2.1 32 32
      { s with scan := { s.scan with item := none, slots := completeSlot word s.scan.slots } }.scanNext
    | .free _ => s.dropItem w

/-! ### Strokes (R53, R54, R63) -/

/-- The stroke waits at a full bound: one wait, counted once (R63). What is no bound ends the stroke. -/
def State.waitAt (s : State) (e b : Nat) : State :=
  if 6 ≤ b then s.endStroke e
  else
  match (s.se e).waiting with
  | some p => if p.1 = b then s else s.setSe e { s.se e with waiting := some (b, s.now) }
  | none =>
    let s := s.setSe e { s.se e with waiting := some (b, s.now) }
    { s with hub := { s.hub with stalls := tmod 0 s.hub.stalls b (fun x => satAdd x 1 32) } }
/-- How an opcode ends: what its end does to the state, with DETAIL and CURSOR. -/
abbrev Report := State → Work → Item → Status → State × Nat × Nat
/-- How an opcode goes on when nothing of its item is outstanding: it sets up operations, waits, or marks the item done. -/
abbrev Advance := State → Work → Item → State
/-- Nothing is left of the item's work but its completion. -/
def Item.over (i : Item) : Bool := i.dead || i.stage == doneStage
/-- Let the opcode go on through the stages that issue nothing. -/
def State.advanceAll (s : State) (w : Work) (adv : Advance) : Nat → State
  | 0 => s
  | n + 1 =>
    match s.item? w with
    | some i => if i.over || i.wait != Wait.no || !i.todo.isEmpty then s else (adv s w i).advanceAll w adv n
    | none => s
/-- The opcode goes on. On a ring that is being disabled it does so only if its last operation has been issued; otherwise
the item ends PARTIAL (R282). A dump in FINISHING, marked under 99, finishes (Table 15.14). -/
def State.goOn (s : State) (w : Work) (i : Item) (adv : Advance) : State :=
  if i.draining ∧ tget 0 i.x 99 = 0 then
    let t := s.advanceAll w adv 16
    match t.item? w with
    | some j => if j.over then t else s.killItem w .partial_
    | none => t
  else if i.sent = [] then adv s w i
  else adv (s.setItem w { i with sent := [] }) w { i with sent := [] }
/-- The item has nothing left to do: its end. -/
def State.endItem (s : State) (w : Work) (i : Item) (rep : Report) : State :=
  let st := Status.highest i.errs
  let r := rep s w i st
  r.1.finish w st r.2.1 r.2.2
/-- Run a stroke: issue what the bounds allow, let the opcode go on when its operations have completed, and end when
operations are outstanding, the item waits, or the budget is used (R53). -/
def State.strokeLoop (s : State) (e : Nat) (w : Work) (adv : Advance) (rep : Report) : Nat → State
  | 0 => s.endStroke e
  | n + 1 =>
    match s.item? w with
    | none => s.endStroke e
    | some i =>
      if i.fin.isSome ∨ i.parked ∨ i.wait ≠ Wait.no then s.endStroke e
      else
        match i.todo with
        | o :: rest =>
          let r := (s.setItem w { i with todo := rest, issued := o.ix + 1, sent := i.sent ++ [o] }).issueOp w o
          match r.2 with
          | none => (r.1.setSe e { r.1.se e with waiting := none }).strokeLoop e w adv rep n
          | some b => s.waitAt e b
        | [] =>
          if i.out ≠ 0 then s.endStroke e
          else if i.over then s.endItem w i rep
          else (s.goOn w i adv).strokeLoop e w adv rep n
/-- DETAIL and CURSOR as the item keeps them. -/
def repItem : Report := fun s _ i _ => (s, i.detail, i.cursor)
/-- The stroke ends at its last issue cycle; one that waits at a bound yields (R63). -/
def State.strokeOut (s : State) (e : Nat) : State :=
  (match (s.se e).waiting with
   | some _ => { s with hub := { s.hub with yields := satAdd s.hub.yields 1 32 } }
   | none => s).endStroke e
/-- One stroke of engine `e` for a descriptor of opcode `op`. -/
def State.stroke (s : State) (e op : Nat) (adv : Advance) (rep : Report) : State :=
  match (s.se e).work with
  | none => s
  | some w =>
    match s.item? w with
    | none => s
    | some i =>
      if opcodeOf i.desc ≠ op ∨ !s.fastRun then s
      else if (s.se e).started + 1936 ≤ s.now then s.strokeOut e
      else s.strokeLoop e w adv rep 2000
/-- STROKE_YIELD (R63). -/
def State.strokeYield (s : State) (e : Nat) : State :=
  match (s.se e).work, (s.se e).waiting with
  | some w, some (_, since) =>
    if s.fastRun ∧ (since + Nat.min (s.se e).yieldWait 1936 ≤ s.now ∨ (s.se e).started + 1936 ≤ s.now) then
      match s.item? w with
      | some i =>
        match i.todo with
        | o :: _ => if (s.issueOp w o).2.isNone then s else { s with hub := { s.hub with yields := satAdd s.hub.yields 1 32 } }.endStroke e
        | [] => s
      | none => s
    else s
  | _, _ => s

/-! ### Building the operations of an item -/

/-- Append operations, numbered from the item's next index. -/
def Item.push (i : Item) (ks : List OpK) : Item :=
  { i with todo := i.todo ++ (ks.zipIdx i.nextIx).map (fun p => { ix := p.2, k := p.1 }), nextIx := i.nextIx + ks.length }
/-- Append one chip's sequence of writes and reads (R390). -/
def Item.pushSeq (i : Item) (ks : List OpK) : Item :=
  let n := ks.length
  { i with todo := i.todo ++ (ks.zipIdx).map (fun p => { ix := i.nextIx + p.2, k := p.1, lock := p.2 == 0, unlock := p.2 + 1 == n })
           nextIx := i.nextIx + n }
def Item.done (i : Item) : Item := { i with stage := doneStage }
def Item.fail (i : Item) (e : Status) : Item := { i with stage := doneStage, errs := i.errs ++ [e] }
/-- A 32-bit register write as the chain carries it: 8 bytes, of which the register takes the first four (R25, R347). -/
def regWr (f a v : Nat) : OpK := .wr f a (leBytes 8 (v % 2 ^ 32))
/-- Host writes of a byte run, in pieces (R286). -/
def hostWrites (a : Nat) (d : List Byte) : List OpK := (pieces a d (d.length / 256 + 2)).map (fun p => .hwr p.1 p.2)
/-- Host reads of `n` bytes in 256-byte pieces. -/
def hostReads (a n : Nat) : List OpK := (pieces a (zeros n) (n / 256 + 2)).map (fun p => .hrd p.1 p.2.length)
/-- The data of operations `lo, …, lo + n − 1`, joined. -/
def Item.gather (i : Item) (lo n : Nat) : List Byte := ((List.range n).map (fun j => tget [] i.rep (lo + j))).flatten
/-- An operation's status, if it failed. -/
def Item.opStatus (i : Item) (ix : Nat) : Option Status := match tget 0 i.bad ix with | 0 => none | n + 1 => some (Status.ofCode n)

end Sys2Proof.Machine
end

