-- ==== Sys2Proof/Machine/Boot.lean ====
section
/-! DEFINITION. The boot: slot choice, header checks, RECOVERY, DONE, and its commands (R89, R92, R100, R131–R140, R145, R156,
R161, R168, R182, R185). -/

namespace Sys2Proof.Machine

/-- The slot stage 3 places first (R137). -/
def State.firstSlot (s : State) : Nat :=
  match s.trailer 0, s.trailer 1 with
  | some a, some b => if a < b then 1 else 0
  | none, some _ => 1
  | _, _ => 0
/-- A header's UNIT_ID binds no other unit (Table 5.4). -/
def unitFits (hdr : List Byte) (u : BitVec 128) : Bool :=
  let id := (hdr.drop 0x20).take 16
  id == zeros 16 || id == unitBytes u
/-- A signature check of R143 over an image: header bytes 0x000–0x19F and image bytes 0x200 to LENGTH − 1. -/
def imageSigned (img : List Byte) (len : Nat) : Bool :=
  Config.ecdsaP384 ((img.drop 0x40).take 97) (img.take 0x1A0 ++ (img.take len).drop 0x200) ((img.drop 0x1A0).take 96)
/-- SHA-384 of an image's PUBLIC_KEY. -/
def imageKey (img : List Byte) : BitVec 384 := Config.sha384 ((img.drop 0x40).take 97)
/-- The fail code of an image under R139, for TYPE `ty`, a LENGTH that `lenOk` allows and a SIGNER and key hash that `keyOk`
allows: codes of Table 5.6, which Table 5.8 names two higher from HEADER on. SIGNER fails as KEY, and the causes are judged in
the order of those codes (log entry 27). -/
def headerFail (img : List Byte) (ty : Nat) (lenOk : Nat → Bool) (keyOk : Nat → BitVec 384 → Bool) (u : BitVec 128) : Nat :=
  let w := fun o n => leNat ((img.drop o).take n)
  if w 0 4 ≠ 0x49574843 ∨ w 4 2 ≠ 1 ∨ w 6 2 ≠ ty then 2
  else if !lenOk (w 8 4) then 3
  else if !keyOk (w 0x30 1) (imageKey img) then 4
  else if !unitFits img u then 5
  else if !imageSigned img (w 8 4) then 6
  else 0
/-- A firmware image's LENGTH. -/
def fwLength (n : Nat) : Bool := 4096 ≤ n && n ≤ 520192
/-- A byte run as a memory from address 0. -/
def memFrom (l : List Byte) : Mem := (l.zipIdx.filter (fun p => p.1 != 0)).map (fun p => (p.2, p.1))
/-- The copy of slot `x` that the single pass leaves in the firmware SRAM (R138). -/
def State.slotCopy (s : State) (x : Nat) : List Byte :=
  let hdr := s.norRead (slotBase x) 0x200
  let n := leNat ((hdr.drop 8).take 4)
  if fwLength n then s.norRead (slotBase x) n else hdr
/-- Fail code of slot `x` (R139), judged on its copy. -/
def State.slotFail (s : State) (norOk : Bool) (x : Nat) : Nat :=
  if !norOk then 1
  else headerFail (s.slotCopy x) 1 fwLength (fun k h => k == 0 && h == Config.vendorFwKey) s.fuses.unitId
/-- Stage 1: fuses decoded, the count loaded at power-on and advanced; the nonce is cleared, and a RETURNED wipe that is
incomplete is pending again (R133, R161, R182, R185). -/
def State.bootFuses (s : State) (cause : Nat) (v : BootView) : State :=
  let s := s.decodeFuses
  let old := if cause = 0 then (match s.bcNewest with | some i => if v.norOk then s.bcCount i else 0 | none => 0) else s.boot.count
  { s with
    lcs := { s.lcs with nonce := 0, nonceValid := false, wipePending := s.lcs.state == 5 && !s.fuses.wiped }
    boot := { s.boot with fused := true, count := (old + 1) % 2 ^ 32 } }
/-- Stage 3: QSPI_SCK and QSPI_CS_N are enabled, and the trailers place the slots (R92, R137). -/
def State.bootNor (s : State) (v : BootView) : State :=
  let a := if v.norOk then (s.trailer 0).getD 0 else 0
  let b := if v.norOk then (s.trailer 1).getD 0 else 0
  { s with
    pins := { s.pins with qspiEn := true, pcieTx := s.pins.pcieTx || !bit s.pwr.straps 2 }
    boot := { s.boot with stage := 1, first := if v.norOk then s.firstSlot else 0, slotA := a, slotB := b, commitA := a, commitB := b } }
/-- An accepted slot's copy is what runs (R138). -/
def State.bootTake (s : State) (x : Nat) : State :=
  let img := s.slotCopy x
  { s with boot := { s.boot with stage := 3, slot := x, fw := memFrom img, monitor := (img.drop (leNat ((img.drop 0x1C).take 4))).take 8192 } }
/-- SCRAPPED: the boot halts after stage 1, and the fuse block burns what remains (R136, R168). -/
def State.bootHalt (s : State) : State :=
  { s with fuses := s.fuses.burnAll, boot := { s.boot with stage := 6, due := none }, pwr := { s.pwr with waking := none, reqBy := none } }
/-- The fast domain runs: a wake from OFF ends (R121, R130), and the endpoint leaves retry (R135). -/
def State.bootUp (s : State) : State :=
  { s with
    boot := { s.boot with due := none }
    pins := { s.pins with linkUp := !bit s.pwr.straps 2 }
    pwr := { s.pwr with state := PwrState.run, waking := none, reqBy := none,
                        wakeTime := (match s.pwr.waking with | some (e, _) => Nat.min (cdiv (s.now - e) 1000) (2 ^ 32 - 1) | none => s.pwr.wakeTime) } }
/-- Both slots rejected: HUB_READY is low (R140). -/
def State.bootRecover (s : State) : State :=
  { s.bootUp with boot := { s.bootUp.boot with stage := 5 }, pins := { s.bootUp.pins with ready := false } }
/-- START and DONE with the image copied (R92, R100, R138, R145). A warning that stands is one from the end of boot on. -/
def State.bootDone (s : State) (v : BootView) : State :=
  let lg := s.lgNewest
  let s := s.bootUp
  let warned := (s.line 17).level
  { s with
    boot := { s.boot with stage := 4, time := cdiv (s.now - s.boot.tick0) 1000, fwVersion := leNat (mread s.boot.fw 0xC 2),
                          dsSize := if bit s.pwr.straps 1 then 0 else Nat.min v.dsSize 16 }
    pins := { s.pins with trigIdle := if s.pins.trigEn then s.pins.trigIdle else bit s.pins.pulls 8, trigEn := true, readyEn := true, ready := true,
                          dsEn := s.pins.dsEn || !bit s.pwr.straps 1 }
    dmp := { s.dmp with lgSeq := (match lg with | some i => s.lgSeqOf i | none => 0), lgAddr := (match lg with | some i => lgBase + 512 * i | none => 0),
                        selfRefresh := false, survDue := warned, survFromRun := false
                        warnTime := if warned then s.time else s.dmp.warnTime, warnPwr := if warned then 0 else s.dmp.warnPwr } }
/-- FIRST: the first slot is copied and checked; one rejected leads to SECOND (R138, R139). -/
def State.bootFirst (s : State) (v : BootView) : State :=
  let f := s.slotFail v.norOk s.boot.first
  if f = 0 then s.bootTake s.boot.first
  else { s with boot := { s.boot with stage := 2, fallback := true, failFirst := f } }
/-- SECOND: the other slot; with both rejected the hub enters RECOVERY (R139, R140). -/
def State.bootSecond (s : State) (v : BootView) : State :=
  let x := 1 - s.boot.first
  let f := s.slotFail v.norOk x
  if f = 0 then s.bootTake x
  else
    let s := { s with boot := { s.boot with failSecond := f } }
    s.bootRecover
/-- A boot can run its next stage: it is due, its tick 0 has come, and no reset is awaited. -/
def State.bootReady (s : State) : Bool :=
  s.boot.due.isSome && s.boot.resetDue.isNone && !s.pins.inPor && !s.pins.dead && s.boot.tick0 ≤ s.now
/-- The boot's next stage (Table 5.2): stage 1, or, with the PLL locked, stage 3, FIRST, SECOND, or START with DONE. -/
def State.bootStage (s : State) (cause : Nat) (v : BootView) : State :=
  if !s.boot.fused then
    let s := s.bootFuses cause v
    if s.lcs.state = 6 then s.bootHalt else s
  else if !s.pwr.pllLock then s
  else if s.boot.stage = 0 then s.bootNor v
  else if s.boot.stage = 1 then s.bootFirst v
  else if s.boot.stage = 2 then s.bootSecond v
  else s.bootDone v

/-! ### Commands -/

/-- POWER_ON_RESET (R84, R89, R102): the third low sample resets; the third high one, `done`, ends the reset. -/
def execPowerOnReset (done : Bool) (straps pulls : Nat) (s : State) : Out := .next (if done then s.porEnd straps pulls else s.porStart)
/-- BOOT, one stage of it (R134). -/
def execBoot (v : BootView) (s : State) : Out :=
  .next (match s.boot.due with
    | some cause => if s.bootReady then s.bootStage cause v else s
    | none => s)
/-- BOOT_COUNT_RECORD (R133, R146). -/
def execBootCountRecord (s : State) : Out := .next s.writeBootCount
/-- LAST_GASP_ERASE (R145). -/
def execLastGaspErase (s : State) : Out := .next s.lgErase
/-- PERST_N (R131, R132, R156, R278, R310, R338, R466). -/
def execPerstN (s : State) : Out := .next s.hostReset.scrapCheck
/-- FUNCTION_LEVEL_RESET, with the reach of PERST_N (R131). -/
def execFunctionLevelReset (s : State) : Out := .next s.flr.scrapCheck
/-- DL_DOWN: the link is down, and the rings are reset as by PERST_N (R278). -/
def execDlDown (s : State) : Out := .next { s.hostReset with pins := { s.hostReset.pins with linkUp := false, l1 := false } }.scrapCheck

end Sys2Proof.Machine
end

