-- ==== Sys2Proof/Machine/Lifecycle.lean ====
section
/-! DEFINITION. Quiescence, lifecycle requests and transitions, the RETURNED wipe and the nonce (R113, R160–R188). -/

namespace Sys2Proof.Machine

/-! ### Quiescence (R113) -/

/-- Descriptors of enabled rings and of the scan ring posted and not completed, but for the asker's own. -/
def State.postedCount (s : State) (own : Option Work) : Nat :=
  (s.rings.map (fun (p : Nat × Ring) =>
    if p.2.enable then (p.2.tail + p.2.size - p.2.head) % p.2.size - (if own = some (.ring p.1) then 1 else 0) else 0)).sum +
  ((s.scan.slots.filter (fun (l : ScanSlot) => l.cpl.isNone)).length - (if own = some .scan then 1 else 0))
/-- The hub is busy, but for a descriptor of the asker's own and `core` hub-core requests of its own (R113, R309, log entry 20). -/
def State.busy (s : State) (own : Option Work) (core : Nat) : Bool :=
  s.postedCount own != 0 || s.bhv.chains.any (fun p => !p.2.txns.isEmpty) || !s.htu.ops.isEmpty || !s.bursts.isEmpty ||
  core < s.hub.coreQ.length || s.trc.state.armed || s.dmp.ctx.any (fun p => p.2.state != CtxState.free)

/-! ### Fuse bits (R163, R165, R166, R188) -/

/-- Bit `x` of field `k`: 0 SECRET, 1 IKEY_HASH, 2 IKEY_DONE, 3 the lifecycle groups, twelve bits each. -/
def Fuses.burned (f : Fuses) (b : Nat × Nat) : Bool :=
  if b.1 = 0 then f.secret.getLsbD b.2 else if b.1 = 1 then f.ikeyHash.getLsbD b.2 else if b.1 = 2 then bit f.ikeyDone b.2
  else bit (f.group (b.2 / 12 + 1)) (b.2 % 12)
def Fuses.burnBit (f : Fuses) (b : Nat × Nat) : Fuses :=
  if b.1 = 0 then { f with secret := f.secret ||| (BitVec.twoPow 512 b.2) } else if b.1 = 1 then { f with ikeyHash := f.ikeyHash ||| BitVec.twoPow 384 b.2 }
  else if b.1 = 2 then { f with ikeyDone := f.ikeyDone ||| 2 ^ b.2 } else f.burnGroup (b.2 / 12 + 1) (2 ^ (b.2 % 12))
/-- Burn bits in order; a stuck one does not take. -/
def Fuses.burnList (f : Fuses) (stuck l : List (Nat × Nat)) : Fuses := l.foldl (fun f b => if stuck.contains b then f else f.burnBit b) f

/-! ### Requests (R164, R165, R172–R175) -/

/-- The 256 bytes of a request. -/
structure LcsReq where
  raw : List Nat
def LcsReq.at_ (q : LcsReq) (o n : Nat) : Nat := leNat (((q.raw.drop o).take n).map (BitVec.ofNat 8))
def LcsReq.current (q : LcsReq) : Nat := q.at_ 0x18 1
def LcsReq.target (q : LcsReq) : Nat := q.at_ 0x19 1
def LcsReq.signer (q : LcsReq) : Nat := q.at_ 0x1A 1
/-- SIGNER by TARGET (Table 6.3). -/
def signerOf (t : Nat) : Nat := if t = 3 ∨ t = 4 ∨ t = 6 then 1 else 0
def LcsReq.bytes (q : LcsReq) (o n : Nat) : List Byte := ((q.raw.drop o).take n).map (BitVec.ofNat 8)
/-- SHA-384 of PUBLIC_KEY. -/
def LcsReq.keyHash (q : LcsReq) : BitVec 384 := Config.sha384 (q.bytes 0x30 97)
/-- The signature verifies over bytes 0x00–0x9F (R173). -/
def LcsReq.signed (q : LcsReq) : Bool := Config.ecdsaP384 (q.bytes 0x30 97) (q.bytes 0 0xA0) (q.bytes 0xA0 96)
/-- PUBLIC_KEY passes R164 and R165. -/
def State.lcsKeyOk (s : State) (q : LcsReq) : Bool :=
  if q.signer = 0 then q.keyHash == Config.vendorLcKey
  else if s.fuses.ikey then q.keyHash == s.fuses.ikeyHash
  else s.fuses.ikeyHash &&& q.keyHash == s.fuses.ikeyHash
/-- CURRENT matches the fuses (R175). -/
def State.lcsCurrentOk (s : State) (q : LcsReq) : Bool :=
  if s.lcs.state = 15 then
    (List.range 6).all (fun j => (q.current ≤ j || s.fuses.full (j + 1)) && (j < q.target || s.fuses.group (j + 1) == 0))
  else q.current == s.lcs.state
/-- RESULT of the checks of Table 6.7; 1 is OK. The descriptor that carries the request, and its hub-core request, are ignored. -/
def State.lcsCheck (s : State) (ow : Option Work) (q : LcsReq) : Nat :=
  if q.at_ 0 4 ≠ 0x5152434C ∨ q.at_ 4 2 ≠ 1 then 2
  else if q.at_ 8 16 ≠ s.fuses.unitId.toNat then 3
  else if q.target = 0 ∨ 6 < q.target ∨ q.target ≤ q.current then 4
  else if !s.lcsCurrentOk q then 5
  else if q.signer ≠ signerOf q.target then 6
  else if !s.lcsKeyOk q then 7
  else if s.lcs.state ≠ 15 ∧ (!s.lcs.nonceValid ∨ q.at_ 0x20 16 ≠ s.lcs.nonce.toNat) then 8
  else if !q.signed then 9
  else if 5 ≤ q.target ∧ s.busy ow 1 then 0xA
  else 1

/-! ### Carrying out a transition (R163–R168, R176, R183, R184) -/

/-- Bits a transition burns, in order: SECRET from the 512 bits drawn, IKEY_HASH, IKEY_DONE, or all of SECRET, then the groups. -/
def State.lcsBurns (s : State) (q : LcsReq) (draw : BitVec 512) : List (Nat × Nat) :=
  let sec := if q.current = 0 ∧ 1 ≤ q.target ∧ q.target ≤ 4 then (List.range 512).filter draw.getLsbD
             else if q.target = 5 then List.range 512 else []
  let nom := q.signer = 1 ∧ (q.target = 3 ∨ q.target = 4) ∧ !s.fuses.ikey
  let key := if nom then ((List.range 384).filter q.keyHash.getLsbD).map (fun i => (1, i)) ++ (List.range 4).map (fun i => (2, i)) else []
  let grp := (List.range (12 * (q.target - q.current))).map (fun i => (3, 12 * q.current + i))
  (sec.map (fun i => (0, i)) ++ key ++ grp).filter (fun b => !s.fuses.burned b)
/-- Bits burned before the burning stops after `n`: while line 17 warns, the group being burned is completed (R183). -/
def cutBurns (warned : Bool) (n : Nat) (l : List (Nat × Nat)) : List (Nat × Nat) :=
  match warned, (l.take n).getLast? with
  | true, some (3, i) => l.take n ++ (l.drop n).takeWhile (fun b => b.1 == 3 && b.2 / 12 == i / 12)
  | _, _ => l.take n
/-- The staging SRAM is zeroed, with all that Table 2.14 places in it. -/
def State.zeroSram (s : State) : State :=
  { s with sram := [], sramClean := true, dmp := { s.dmp with plans := [], cache := [], cacheOdd := false }
           trc := { s.trc with ring := [], chips := s.trc.chips.map (fun (p : Nat × TraceChip) => (p.1, { p.2 with window := [] })) } }
/-- The wipes of a SCRAPPED transition before its burns (R168 steps 1–3). -/
def State.scrapWipes (s : State) : State :=
  let s := s.zeroSram
  { s with store := [], nor := [], boot := { s.boot with fw := [], monitor := [] }, scan := { s.scan with drBuf := [] }
           dmp := { s.dmp with sealMap := [] }, lcs := { s.lcs with dsDone := true, norDone := true } }
/-- A memory of which a wipe cut short has wiped an open part. -/
def Mem.partWiped (m : Mem) (free : Mem) : Mem := m.filter (fun p => (mget free p.1).getLsbD 0)
/-- Power is lost during those wipes: the storage is partly wiped (R185). -/
def State.scrapTorn (s : State) : State :=
  let f := memOf (Config.freeMemory s.freeIx)
  let g := memOf (Config.freeMemory (s.freeIx + 1))
  { s with freeIx := s.freeIx + 2, store := s.store.partWiped f, nor := s.nor.partWiped g }
/-- The request at the head of the queue ends; a REBOOT that waited for it takes place (R187). -/
def State.lcsDone (s : State) (ow : Option Work) (src result from_ to_ : Nat) : State :=
  let s := (s.coreReply [BitVec.ofNat 8 result]).lcsEnd result from_ to_ (src == 1)
  let s := match ow with
    | some w => if s.lcs.scrapReboot then (s.modItem w (fun i => { i with x := tput 0 i.x 40 1 })).scrapCheck else s
    | none => s.scrapCheck
  if s.boot.rebootPend then s.rebootNow 2 else s
/-- Steps 7 to 11, when every bit has been tried: after a RESULT of BURN steps 9 to 11 do not follow (log entry 92). -/
def State.lcsFinish (s : State) (ow : Option Work) (src : Nat) (t : LcsTrans) : State :=
  let s := { s with lcs := { s.lcs with trans := none } }.decodeFuses
  let s := if t.bad then s
           else if t.target = 5 then { s with lcs := { s.lcs with wipePending := true, percent := 0, dsDone := false, norDone := false } }
           else if t.target = 6 then { s with lcs := { s.lcs with scrapReboot := true } } else s
  s.lcsDone ow src (if t.bad then 0xC else 1) t.from_ t.target
/-- The transition goes on: its storage wipes, which pause while line 17 warns, then its burns. A warning lets SECRET and the
key be burned and no further bit of a group; `cut` stops the burning after so many bits (R183, R184). -/
def State.lcsCarry (s : State) (ow : Option Work) (src : Nat) (t : LcsTrans) (v : LcsView) : State :=
  let warned := (s.line 17).level
  if t.target = 6 ∧ !t.wiped ∧ v.cut = some 0 then { s with lcs := { s.lcs with trans := some t } }.scrapTorn
  else if t.target = 6 ∧ !t.wiped ∧ warned then { s with lcs := { s.lcs with trans := some t } }
  else
    let s := if t.target = 6 ∧ !t.wiped then s.scrapWipes else s
    let now := match v.cut with
      | some n => cutBurns warned n t.left
      | none => if warned then t.left.takeWhile (fun b => b.1 != 3) else t.left
    let s := { s with fuses := s.fuses.burnList v.stuck now }
    let t := { t with wiped := true, left := t.left.drop now.length, bad := t.bad || now.any (fun b => !s.fuses.burned b) }
    if t.left = [] then s.lcsFinish ow src t else { s with lcs := { s.lcs with trans := some t } }
/-- A request that has passed its checks begins (R176 steps 1 to 4). -/
def State.lcsBegin (s : State) (q : LcsReq) : LcsTrans × State :=
  let r := s.freeWide 512
  let s := { r.2 with lcs := { r.2.lcs with nonceValid := false } }
  ({ from_ := s.lcs.state, target := q.target, left := s.lcsBurns q r.1 }, if q.target = 5 then s.zeroSram else s)
/-- LCS_TRANSITION: the hub core serves the request at the head of its queue, or goes on with its transition. -/
def State.lcsTransition (s : State) (v : LcsView) : State :=
  match s.coreHead 0 with
  | none => s
  | some (ow, src, d) =>
    match s.lcs.trans with
    | some t => s.lcsCarry ow src t v
    | none =>
      let q : LcsReq := { raw := d }
      let r := s.lcsCheck ow q
      if r ≠ 1 then s.lcsDone ow src r s.lcs.state (q.target % 16)
      else
        let b := s.lcsBegin q
        b.2.lcsCarry ow src b.1 v
/-- RETURNED_WIPE: the user partition is erased and the dump store zeroed, then RET_WIPED is burned; bits of `stuck` do not
take (R167, R185). It pauses while line 17 warns (R183). -/
def State.returnedWipe (s : State) (stuck : Nat) : State :=
  if s.lcs.wipePending ∧ s.lcs.state = 5 ∧ s.boot.stage = 4 ∧ s.fastRun ∧ !(s.line 17).level then
    let m := maskOf 4 (fun b => bit s.fuses.retWiped b || !bit stuck b)
    let s := { s with nor := s.nor.filter (fun p => p.1 < 0x120000), store := [], dmp := { s.dmp with sealMap := [] }, scan := { s.scan with drBuf := [] }
                      fuses := { s.fuses with retWiped := m } }
    { s with lcs := { s.lcs with dsDone := true, norDone := true, percent := 100, wipePending := !s.fuses.wiped } }
  else s
/-- NONCE_NEW: 128 bits are drawn (R180). -/
def State.nonceNew (s : State) : State :=
  let r := s.freeWide 128
  { r.2 with lcs := { r.2.lcs with nonce := r.1, nonceValid := true } }

/-! ### Commands -/

/-- LCS_TRANSITION (R172–R188). -/
def execLcsTransition (v : LcsView) (s : State) : Out := s.gated (fun s => s.lcsTransition v)
/-- RETURNED_WIPE (R167). -/
def execReturnedWipe (stuck : Nat) (s : State) : Out := .next (s.returnedWipe stuck)
end Sys2Proof.Machine
end

