-- ==== Sys2Proof/Machine/Rights.lean ====
section
/-! DEFINITION. Levels, judgement, denials and certificates (R189–R216). Levels: 0 NONE, 1 OBSERVE, 2 FULL. -/

namespace Sys2Proof.Machine

/-! ### Levels (R190, R191) -/

/-- Burned bits of REVOKE_FLOOR. -/
def Fuses.floorCount (f : Fuses) : Nat := countBits 255 f.floor
/-- Certificates of a set of slots. -/
def certList (t : Tab (Option Cert)) : List Cert := t.filterMap (fun p => p.2)
/-- Installed certificates. -/
def State.certs (s : State) : List Cert := certList s.auth.certs
/-- SERIAL is not below FLOOR: the certificate is valid (R197). -/
def State.valid (s : State) (c : Cert) : Bool := s.fuses.floorCount * 2 ^ 24 ≤ c.serial
/-- An entry of the path covers the target: a fabric address, or HUB for 128. -/
def Right.covers (r : Right) (scan : Bool) (t : Nat) : Bool :=
  bit r.paths (if scan then 1 else 0) && (if t = 128 then r.hub else !r.hub && r.first ≤ t && t ≤ r.last)
/-- The level that these certificates give a path for a target (R190). -/
def State.levelBy (s : State) (l : List Cert) (scan : Bool) (t : Nat) : Nat :=
  let m := ((l.filter s.valid).map (fun c => ((c.entries.filter (fun r => r.covers scan t)).map (·.level)).foldl Nat.max 0)).foldl Nat.max (defaultOf s.lcs.state)
  Nat.min m (ceilingOf s.lcs.state)
/-- The level a path holds for a target (R190). -/
def State.level (s : State) (scan : Bool) (t : Nat) : Nat := s.levelBy s.certs scan t
/-- Certificates and ring caps that a judgement of this cycle uses: those before the cycle's changes (R194). -/
def State.heldCerts (s : State) : Tab (Option Cert) := match s.auth.old with | some (k, c, _) => if k = s.now then c else s.auth.certs | none => s.auth.certs
def State.heldCaps (s : State) : Tab Nat := match s.auth.old with | some (k, _, c) => if k = s.now then c else s.auth.caps | none => s.auth.caps
/-- Rights are about to change: what stands is kept for the judgements of this cycle. -/
def State.keepRights (s : State) : State := { s with auth := { s.auth with old := some (s.now, s.heldCerts, s.heldCaps) } }
/-- AUTH_RING_CAP of a ring: 0b11 acts as 0b10 (R215). -/
def State.ringCap (s : State) (n : Nat) : Nat := Nat.min (fld (tget 0xAAAAAAAA s.heldCaps (n / 16)) (2 * (n % 16)) 2) 2
/-- The level a work item is judged at (R191). -/
def State.workLevel (s : State) (w : Work) (t : Nat) : Nat :=
  match w with
  | .ring n => Nat.min (s.levelBy (certList s.heldCerts) false t) (s.ringCap n)
  | .scan => s.levelBy (certList s.heldCerts) true t
  | .free _ => 2
/-- An entry that is valid gives the path UNSEAL. -/
def State.opensBy (s : State) (l : List Cert) (scan : Bool) : Bool :=
  (l.filter s.valid).any (fun c => c.entries.any (fun r => r.covers scan 128 && r.opens))
/-- The path holds UNSEAL (R200). -/
def State.unseal (s : State) (scan : Bool) : Bool :=
  let l := certList s.heldCerts
  s.opensBy l scan && 2 ≤ s.levelBy l scan 128

/-! ### Denials (R216) -/

/-- What a level shortfall reports: the lowest fabric address that falls short, or HUB (Table 7.9). -/
def State.shortfall (s : State) (w : Work) (need : List (Nat × Nat)) : Option (Nat × Nat × Nat) :=
  (need.find? (fun p => s.workLevel w p.1 < p.2)).map (fun p => (p.1, p.2, s.workLevel w p.1))
/-- A denial is counted, recorded and signalled. -/
def State.deny (s : State) (op : Nat) (scan : Bool) (ring : Nat) (short : Option (Nat × Nat × Nat)) : State :=
  let base := op + place (b2n scan) 8 1 + place ring 9 9
  let v := match short with
    | some (t, need, held) => base + (if t = 128 then 2 ^ 25 else place t 18 7) + place need 26 2 + place held 28 2
    | none => base + 2 ^ 30
  let s := { s with auth := { s.auth with denyCnt := satAdd s.auth.denyCnt 1 32, denyLast := v } }
  s.activate 182 v

/-! ### Certificates (R196, R197, R201–R203, R205, R211–R213) -/

/-- The 512 bytes of a certificate. -/
def certAt (d : List Nat) (o n : Nat) : Nat := leNat (((d.drop o).take n).map (BitVec.ofNat 8))
def entryOf (d : List Nat) (j : Nat) : Right :=
  let b := fun o => certAt d (0x30 + 8 * j + o) 1
  { paths := b 0, level := b 1, hub := b 2 == 1, opens := bit (b 3) 0, first := b 4, last := b 5 }
/-- An entry in use meets Table 7.3. -/
def entryOk (d : List Nat) (j : Nat) : Bool :=
  let b := fun o => certAt d (0x30 + 8 * j + o) 1
  1 ≤ b 0 && b 0 ≤ 3 && (b 1 == 1 || b 1 == 2) && b 2 ≤ 1 && b 3 ≤ 1 && (b 3 == 0 || (b 2 == 1 && b 1 == 2)) &&
  (if b 2 = 0 then b 4 ≤ b 5 && b 5 ≤ 127 else b 4 == 0 && b 5 == 0)
def certOf (d : List Nat) : Cert := { issuer := certAt d 0x18 1, serial := certAt d 0x20 4, entries := (List.range (certAt d 6 1)).map (entryOf d) }
/-- The slot an install takes: that of the certificate it replaces, or the lowest free one (DESIGN CHOICE, log entry 93). -/
def State.slotOf (s : State) (c : Cert) : Option Nat :=
  let held := fun n => tget none s.auth.certs n
  match (List.range 8).find? (fun n => match held n with | some x => x.issuer == c.issuer && x.serial == c.serial | none => false) with
  | some n => some n
  | none => (List.range 8).find? (fun n => (held n).isNone)
/-- SHA-384 of PUBLIC_KEY, and the signature over bytes 0x000–0x19F (R201). -/
def certBytes (d : List Nat) (o n : Nat) : List Byte := ((d.drop o).take n).map (BitVec.ofNat 8)
def certKey (d : List Nat) : BitVec 384 := Config.sha384 (certBytes d 0x100 97)
def certSigned (d : List Nat) : Bool := Config.ecdsaP384 (certBytes d 0x100 97) (certBytes d 0 0x1A0) (certBytes d 0x1A0 96)
/-- RESULT of the checks of Table 7.4; 1 is OK. -/
def State.certCheck (s : State) (d : List Nat) : Nat :=
  let issuer := certAt d 0x18 1
  let serial := certAt d 0x20 4
  if certAt d 0 4 ≠ 0x43545243 ∨ certAt d 4 2 ≠ 1 ∨ certAt d 6 1 = 0 ∨ 8 < certAt d 6 1 then 2
  else if certAt d 8 16 ≠ s.fuses.unitId.toNat then 3
  else if 1 < issuer ∨ (issuer = 1 ∧ !s.fuses.ikey) ∨ (s.lcs.state = 4 ∧ issuer ≠ 1) then 4
  else if certKey d ≠ (if issuer = 0 then Config.vendorLcKey else s.fuses.ikeyHash) then 5
  else if serial < s.fuses.floorCount * 2 ^ 24 then 6
  else if s.boot.count < certAt d 0x24 4 ∨ certAt d 0x28 4 < s.boot.count then 7
  else if !(List.range (certAt d 6 1)).all (entryOk d) then 8
  else if !certSigned d then 9
  else if (s.slotOf (certOf d)).isNone then 0xA
  else 1
/-- Unburned bits of REVOKE_FLOOR, lowest first, that a raise to generation `gen` burns. -/
def Fuses.floorBits (f : Fuses) (gen : Nat) : List Nat := ((List.range 255).filter (fun b => !bit f.floor b)).take (gen - f.floorCount)
/-- Burn floor bits in order up to the first that reads back 0. -/
def Fuses.burnFloor (f : Fuses) (stuck : List Nat) (l : List Nat) : Fuses :=
  (l.takeWhile (fun b => !stuck.contains b)).foldl (fun f b => { f with floor := f.floor ||| 2 ^ b }) f
/-- CERT_CHECK_INSTALL: the check of the certificate at the head of the queue, and its install (R203). The install waits
for the boot-count record; while line 17 warns a floor raise pauses, at a bit boundary that `cut` gives, as a loss of power does
(R213). -/
def State.certInstall (s : State) (v : CertView) : State :=
  match s.coreHead 1 with
  | none => s
  | some (_, src, d) =>
    let done := fun (s : State) (r slot : Nat) => (s.coreReply [BitVec.ofNat 8 r]).certEnd r slot (src == 1)
    let r := s.certCheck d
    if r ≠ 1 then done s r 0
    else if s.secretPresent ∧ !s.boot.countWritten then s
    else
      let bits := if bit (certAt d 7 1) 0 then s.fuses.floorBits (certAt d 0x20 4 / 2 ^ 24) else []
      match v.cut with
      | some n => { s with fuses := s.fuses.burnFloor v.stuck (bits.take n) }
      | none =>
        if (s.line 17).level ∧ bits ≠ [] then s
        else
          let s := { s with fuses := s.fuses.burnFloor v.stuck bits }
          if bits.any (fun b => v.stuck.contains b) then done s 0xC 0
          else
            let c := certOf d
            let slot := (s.slotOf c).getD 0
            let keep := s.auth.certs.filter (fun p => match p.2 with | some x => s.valid x | none => false)
            let s := s.keepRights
            done { s with auth := { s.auth with certs := tput none keep slot (some c) } } 1 slot
/-- A CERT_DROP takes effect (R205). -/
def State.certDrop (s : State) (all : Bool) (issuer serial : Nat) : State :=
  let s := s.keepRights
  { s with auth := { s.auth with certs := s.auth.certs.filter (fun p => match p.2 with | some x => !(all || (x.issuer == issuer && x.serial == serial)) | none => false) } }

/-! ### AUTH registers (Tables 7.7–7.10) -/

def State.authLevels (s : State) : Nat :=
  s.level false 128 + place (s.level true 128) 2 2 + place (b2n (s.opensBy s.certs false)) 4 1 +
  place (b2n (s.opensBy s.certs true)) 5 1 + place s.certs.length 8 4 + place s.fuses.floorCount 16 8
def State.certSlots (s : State) : Nat :=
  maskOf 8 (fun n => (tget none s.auth.certs n).isSome) + place (maskOf 8 (fun n => match tget none s.auth.certs n with | some c => c.issuer == 1 | none => false)) 8 8
def State.levelMap (s : State) (scan : Bool) (n : Nat) : Nat := (List.range 16).foldl (fun a k => a + place (s.level scan (16 * n + k)) (2 * k) 2) 0

/-! ### Commands -/

/-- CERT_CHECK_INSTALL (R196, R202, R203, R211–R213). -/
def execCertCheckInstall (v : CertView) (s : State) : Out := s.gated (fun s => s.certInstall v)

end Sys2Proof.Machine
end

