-- ==== Sys2Proof/Machine/Operands.lean ====
section
/-! DEFINITION. The descriptor's operands: the opcode map, the bits each opcode defines, and the reserved bits and encodings
that Table 18.3 lists as misuses (R259–R262, R285, R415, R490, R518, R522, R524). -/

namespace Sys2Proof.Machine

/-- The opcodes of Table 9.12. -/
def opcodes : List Nat :=
  [0x00, 0x01, 0x02, 0x03, 0x10, 0x11, 0x12, 0x13, 0x14, 0x15, 0x16, 0x17, 0x18, 0x20, 0x21, 0x22, 0x23, 0x24,
   0x30, 0x31, 0x32, 0x33, 0x34, 0x35, 0x40, 0x41, 0x42, 0x43, 0x50, 0x51, 0x52, 0x60, 0x61, 0x62, 0x63, 0x64, 0x65, 0x66]
/-- A field of a descriptor: byte, bit and width. -/
abbrev Fd := Nat × Nat × Nat
/-- The selection operands (Table 13.10). -/
def selFields : List Fd := [(0x10, 0, 7), (0x11, 0, 7), (0x12, 0, 1), (0x14, 0, 32), (0x18, 0, 16), (0x1C, 0, 32)]
/-- The fields each opcode's chapter defines in bytes 0x10–0x3F. -/
def fieldsOf (op : Nat) : List Fd :=
  if op = 0x01 then [(0x10, 0, 3), (0x12, 0, 12), (0x14, 0, 32), (0x18, 0, 64), (0x20, 0, 64), (0x28, 0, 16)]
  else if op = 0x02 then [(0x10, 0, 2), (0x12, 0, 12), (0x18, 0, 64), (0x20, 0, 64)]
  else if op = 0x03 then [(0x10, 0, 9), (0x12, 0, 9), (0x14, 0, 32)]
  else if op = 0x10 then [(0x10, 0, 8), (0x11, 0, 1)]
  else if op = 0x11 then [(0x10, 0, 8), (0x11, 0, 4), (0x18, 0, 64)]
  else if op = 0x12 then selFields
  else if op = 0x13 then (0x12, 1, 1) :: (0x20, 0, 64) :: selFields
  else if op = 0x14 then [(0x10, 0, 17)]
  else if op = 0x15 then [(0x10, 0, 17), (0x14, 0, 32)]
  else if op = 0x16 then selFields ++ [(0x20, 0, 2), (0x21, 0, 3), (0x22, 0, 5), (0x23, 0, 5), (0x24, 0, 32), (0x28, 0, 32)]
  else if op = 0x17 then selFields ++ [(0x20, 0, 2), (0x21, 0, 4)]
  else if op = 0x18 then [(0x10, 0, 8), (0x11, 0, 3), (0x14, 0, 32), (0x18, 0, 64), (0x20, 0, 32)]
  else if op = 0x20 then [(0x10, 0, 1), (0x11, 0, 7), (0x14, 0, 17), (0x18, 0, 64), (0x20, 0, 64)]
  else if op = 0x21 then [(0x10, 0, 1), (0x11, 0, 7), (0x14, 0, 17), (0x18, 0, 64), (0x28, 0, 32)]
  else if op = 0x22 ∨ op = 0x23 then [(0x10, 0, 1), (0x11, 0, 7), (0x14, 0, 32), (0x18, 0, 64), (0x20, 0, 64)]
  else if op = 0x24 then [(0x10, 0, 7), (0x11, 0, 7), (0x14, 0, 32)]
  else if op = 0x30 then [(0x10, 0, 3), (0x12, 0, 16), (0x18, 0, 64)]
  else if op = 0x31 then [(0x10, 0, 3), (0x11, 0, 2), (0x12, 0, 3), (0x14, 0, 32), (0x18, 0, 64), (0x20, 0, 64), (0x28, 0, 32), (0x2C, 0, 32)]
  else if op = 0x32 then [(0x10, 0, 7), (0x11, 0, 2), (0x12, 0, 5), (0x13, 0, 7), (0x14, 0, 32), (0x18, 0, 64), (0x20, 0, 64), (0x28, 0, 32), (0x2C, 0, 32), (0x30, 0, 64), (0x38, 0, 7)]
  else if op = 0x33 then [(0x10, 0, 48)]
  else if op = 0x34 then [(0x10, 0, 48), (0x16, 0, 1)]
  else if op = 0x35 then [(0x10, 0, 1), (0x14, 0, 32), (0x18, 0, 64), (0x20, 0, 64), (0x28, 0, 32), (0x2C, 0, 32)]
  else if op = 0x40 then [(0x10, 0, 7), (0x11, 0, 7), (0x12, 0, 3), (0x12, 4, 1), (0x13, 0, 3), (0x13, 4, 2), (0x14, 0, 16), (0x16, 0, 11), (0x18, 0, 64), (0x20, 0, 64), (0x28, 0, 32)]
  else if op = 0x41 then [(0x14, 0, 32)]
  else if op = 0x42 then [(0x10, 0, 3), (0x14, 0, 32), (0x18, 0, 64), (0x20, 0, 64), (0x28, 0, 32), (0x2C, 0, 32), (0x30, 0, 32)]
  else if op = 0x43 then [(0x10, 0, 7), (0x11, 0, 7), (0x12, 0, 3), (0x18, 0, 64), (0x20, 0, 32), (0x28, 0, 64)]
  else if op = 0x50 then [(0x10, 0, 8), (0x18, 0, 64)]
  else if op = 0x51 ∨ op = 0x52 then [(0x10, 0, 8), (0x11, 0, 1)]
  else if op = 0x60 ∨ op = 0x61 then [(0x18, 0, 64)]
  else if op = 0x62 then [(0x10, 0, 1), (0x11, 0, 1), (0x14, 0, 32)]
  else if op = 0x63 then [(0x10, 0, 2), (0x14, 0, 32)]
  else if op = 0x64 then [(0x10, 0, 1), (0x14, 0, 32), (0x18, 0, 64)]
  else if op = 0x65 then [(0x10, 0, 2), (0x11, 0, 7), (0x18, 0, 64)]
  else if op = 0x66 then [(0x10, 0, 2), (0x14, 0, 32), (0x18, 0, 64)]
  else []
/-- Header fields that are not reserved (Table 9.11). -/
def headFields : List Fd := [(0, 0, 8), (1, 0, 2), (2, 0, 16), (4, 0, 12)]
/-- The bits of a descriptor that some field covers. -/
def fieldMask (l : List Fd) : Nat := l.foldl (fun a f => a ||| place (2 ^ f.2.2 - 1) (8 * f.1 + f.2.1) f.2.2) 0
/-- No reserved bit is set (R259). -/
def reservedClear (d : BitVec 512) : Bool :=
  let m := fieldMask (headFields ++ fieldsOf (opcodeOf d))
  d.toNat ||| m == m

/-! ### Operands by name -/

def fabFirst (d : BitVec 512) : Nat := dbits d 0x10 0 7
def fabLast (d : BitVec 512) : Nat := dbits d 0x11 0 7
/-- Fabric addresses from `a` to `b`; none when inverted (R522). -/
def fabRange (a b : Nat) : List Nat := (List.range 128).filter (fun f => a ≤ f && f ≤ b)
/-- A reserved operand encoding of Table 18.3. -/
def encodingBad (d : BitVec 512) : Bool :=
  let op := opcodeOf d
  if op = 0x01 then dbits d 0x10 1 2 == 3
  else if op = 0x02 then dbits d 0x10 0 2 == 3
  else if op = 0x11 then dbits d 0x11 0 2 == 3 || (dbits d 0x11 0 2 == 1 && dbits d 0x11 2 2 == 0)
  else if op = 0x16 ∨ op = 0x17 then dbits d 0x20 0 2 == 3 || (op == 0x16 && dbits d 0x20 0 2 == 1 && dbits d 0x22 3 2 == 0)
  else if op = 0x32 then dbits d 0x12 2 2 == 3
  else if op = 0x40 then 5 ≤ dbits d 0x13 0 3 || (dbits d 0x13 0 3 == 1 && dbits d 0x13 4 2 == 0)
  else if op = 0x63 then dbits d 0x10 0 2 == 0
  else if op = 0x66 then 2 ≤ dbits d 0x10 0 2
  else false
/-- Hub addresses of Table 15.3. -/
def dsHub : Nat := 0x100000000
def norHub : Nat := 0x400000000
def norSize : Nat := 0x4000000
/-- First byte of the NOR user partition. -/
def userBase : Nat := 0x120000
/-- Two ranges share a byte. -/
def overlaps (a n b m : Nat) : Bool := a < b + m && b < a + n && 0 < n && 0 < m
/-- The register range of R449. -/
def regRange (a : Nat) : Bool := a % 4 == 0 && 0x1020000000 ≤ a && a < 0x1030300000
/-- COUNT of READ_REG as it acts (R449, R522). -/
def regCount (d : BitVec 512) : Nat := Nat.min (dbits d 0x11 0 7) 64
/-- An operand outside its stated range or alignment with no outcome of its own (R522, Table 18.3). -/
def rangeBad (d : BitVec 512) : Bool :=
  let op := opcodeOf d
  let q := fun o => db d o 8
  if op = 0x01 then dbits d 0x10 0 1 == 1 && q 0x20 % 8 != 0
  else if op = 0x02 then dbits d 0x10 0 1 == 1 && q 0x20 % 8 != 0
  else if op = 0x16 then
    let kind := dbits d 0x20 0 2
    let size := dbits d 0x23 0 5
    (kind == 1 && 4 ≤ dbits d 0x21 0 3) || (kind == 2 && dbits d 0x21 0 3 != 0) || (kind == 1 && (16 < size || db d 0x24 4 % 2 ^ size != 0))
  else if op = 0x17 then
    let kind := dbits d 0x20 0 2
    dbits d 0x21 3 1 == 0 && ((kind == 1 && 4 ≤ dbits d 0x21 0 3) || (kind == 2 && dbits d 0x21 0 3 != 0))
  else if op = 0x18 ∨ op = 0x43 ∨ op = 0x50 ∨ op = 0x60 ∨ op = 0x61 then q 0x18 % 64 != 0
  else if op = 0x20 ∨ op = 0x21 then
    if dbits d 0x10 0 1 = 0 then !regRange (q 0x18) else decide (64 < q 0x18 + Nat.max (if op = 0x20 then regCount d else 1) 1)
  else if op = 0x22 ∨ op = 0x23 then
    if dbits d 0x10 0 1 = 0 then q 0x18 % 64 != 0 || db d 0x14 4 % 64 != 0
    else op == 0x23 && overlaps (q 0x18) (db d 0x14 4) (norHub + userBase) (norSize - userBase) && (q 0x18 % 4096 != 0 || db d 0x14 4 % 4096 != 0)
  else if op = 0x30 then db d 0x12 2 != 0 && q 0x18 % 64 != 0
  else if op = 0x31 then dbits d 0x11 0 2 == 0 || (dbits d 0x11 0 1 == 1 && q 0x18 % 64 != 0) || (dbits d 0x12 2 1 == 1 && dbits d 0x11 0 2 != 2)
  else if op = 0x32 then dbits d 0x11 0 2 == 0 || (dbits d 0x11 0 1 == 1 && q 0x18 % 64 != 0)
  else if op = 0x42 then dbits d 0x10 0 1 == 0 && q 0x18 % 64 != 0
  else false
/-- A dump-store range outside the usable blocks (R469, R518). -/
def State.storeOdd (s : State) (d : BitVec 512) : Bool :=
  let op := opcodeOf d
  let out := fun (b n : Nat) => s.boot.dsSize != 0 && n != 0 && decide (s.dsBlocks < b + n)
  if op = 0x31 ∨ op = 0x32 then dbits d 0x11 1 1 == 1 && out (db d 0x28 4) (db d 0x2C 4)
  else if op = 0x35 then dbits d 0x10 0 1 == 0 && out (db d 0x14 4) (db d 0x2C 4)
  else if op = 0x42 then dbits d 0x10 0 1 == 1 && out (db d 0x28 4) (db d 0x2C 4)
  else false
/-- A descriptor that makes a misuse of Table 18.3 by its own bits. -/
def descOdd (d : BitVec 512) : Bool := !reservedClear d || encodingBad d || rangeBad d
/-- A field of a descriptor replaced: byte, bit, width and value. -/
def dset (d : BitVec 512) (o b w v : Nat) : BitVec 512 := BitVec.ofNat 512 (setFld d.toNat (8 * o + b) w v)
/-- An 8-byte operand rounded down to a multiple of `n`. -/
def dalign (d : BitVec 512) (o n : Nat) : BitVec 512 := dset d o 0 64 (db d o 8 / n * n)
/-- What a descriptor that makes a misuse is run as: reserved bits at 0, and in place of an operand that names nothing one that
does, by the free number `r` (R519, scope D of Table 18.1). -/
def legal (d : BitVec 512) (r : Nat) : BitVec 512 :=
  let d := BitVec.ofNat 512 (d.toNat &&& fieldMask (headFields ++ fieldsOf (opcodeOf d)))
  let op := opcodeOf d
  let q := fun o => db d o 8
  if op = 0x01 then
    let d := if dbits d 0x10 1 2 = 3 then dset d 0x10 1 2 (r % 3) else d
    if dbits d 0x10 0 1 = 1 then dalign d 0x20 8 else d
  else if op = 0x02 then
    let d := if dbits d 0x10 0 2 = 3 then dset d 0x10 0 2 (r % 3) else d
    if dbits d 0x10 0 1 = 1 then dalign d 0x20 8 else d
  else if op = 0x11 then
    let d := if dbits d 0x11 0 2 = 3 then dset d 0x11 0 2 (r % 3) else d
    if dbits d 0x11 0 2 = 1 ∧ dbits d 0x11 2 2 = 0 then dset d 0x11 2 2 (1 + r / 4 % 3) else d
  else if op = 0x16 ∨ op = 0x17 then
    let d := if dbits d 0x20 0 2 = 3 then dset d 0x20 0 2 (r % 3) else d
    let d := if dbits d 0x20 0 2 = 1 then dset d 0x21 0 3 (dbits d 0x21 0 3 % 4) else if dbits d 0x20 0 2 = 2 then dset d 0x21 0 3 0 else d
    if op = 0x17 ∨ dbits d 0x20 0 2 ≠ 1 then d
    else
      let d := if dbits d 0x22 3 2 = 0 then dset d 0x22 3 2 (1 + r / 4 % 3) else d
      let size := Nat.min (dbits d 0x23 0 5) 16
      dset (dset d 0x23 0 5 size) 0x24 0 32 (db d 0x24 4 / 2 ^ size * 2 ^ size)
  else if op = 0x18 ∨ op = 0x43 ∨ op = 0x50 ∨ op = 0x60 ∨ op = 0x61 ∨ (op = 0x30 ∧ db d 0x12 2 ≠ 0) ∨ (op = 0x42 ∧ dbits d 0x10 0 1 = 0) then dalign d 0x18 64
  else if op = 0x20 ∨ op = 0x21 then
    if dbits d 0x10 0 1 = 0 then (if regRange (q 0x18) then d else dset d 0x18 0 64 (0x1020000000 + r % 0x10000 / 4 * 4))
    else if op = 0x20 ∧ regCount d ≤ 64 ∧ q 0x18 < 64 then dset d 0x11 0 7 (Nat.min (regCount d) (64 - q 0x18)) else dset (dset d 0x18 0 64 (r % 64)) 0x11 0 7 (dbits d 0x11 0 1)
  else if op = 0x22 ∨ op = 0x23 then
    let m := if dbits d 0x10 0 1 = 0 then 64 else 4096
    if op = 0x22 ∧ m = 4096 then d else dset (dalign d 0x18 m) 0x14 0 32 (db d 0x14 4 / m * m)
  else if op = 0x31 ∨ op = 0x32 then
    let d := if op = 0x32 ∧ dbits d 0x12 2 2 = 3 then dset d 0x12 2 2 (r % 3) else d
    let d := if dbits d 0x11 0 2 = 0 then dset d 0x11 0 2 (1 + r / 4 % 3) else d
    let d := if op = 0x31 ∧ dbits d 0x12 2 1 = 1 ∧ dbits d 0x11 0 2 ≠ 2 then dset d 0x12 2 1 0 else d
    if dbits d 0x11 0 1 = 1 ∧ q 0x18 % 64 ≠ 0 then dalign d 0x18 64 else d
  else if op = 0x40 then
    let d := if 5 ≤ dbits d 0x13 0 3 then dset d 0x13 0 3 (r % 5) else d
    if dbits d 0x13 0 3 = 1 ∧ dbits d 0x13 4 2 = 0 then dset d 0x13 4 2 (1 + r / 8 % 3) else d
  else if op = 0x63 then (if dbits d 0x10 0 2 = 0 then dset d 0x10 0 2 (1 + r % 3) else d)
  else if op = 0x66 then (if 2 ≤ dbits d 0x10 0 2 then dset d 0x10 0 2 (r % 2) else d)
  else d

/-! ### A descriptor's row -/

/-- The work item engine `e` serves, for a row of opcode `op`. -/
def State.served (s : State) (e op : Nat) : Option (Work × Item) :=
  match (s.se e).work with
  | some w => (match s.item? w with | some i => if opcodeOf i.desc = op then some (w, i) else none | none => none)
  | none => none
/-- A work item of a ring that is being disabled waits on no condition and no clock: it ends with PARTIAL (R282). -/
def State.drainWait (s : State) (w : Work) : State :=
  match w, s.item? w with
  | .ring n, some i =>
    if (s.ring n).state = .draining then (match i.wait with | .cond | .ctl _ => s.killItem w .partial_ | _ => s) else s
  | _, _ => s
/-- Mark what a misuse of a work item leaves open: bit 0 scope D, bit 1 the dump store (Table 18.3). -/
def State.markOdd (s : State) (w : Work) (bits : Nat) : State := s.modItem w (fun i => { i with odd := i.odd ||| bits })
/-- One stroke of a descriptor of opcode `op` on engine `e`; `note` marks the misuses that its operands make. On an engine that
serves no such descriptor nothing happens (log entry 10). -/
def State.row (s : State) (e op : Nat) (note : State → Work → Item → State) (adv : Advance) (rep : Report) : Out :=
  match s.served e op with
  | none => .next s
  | some (w, i) => .next (((note s w i).stroke e op adv rep).drainWait w)
/-- No misuse beside those of the operands themselves. -/
def noCheck (s : State) (_ : Work) (_ : Item) : State := s

end Sys2Proof.Machine
end

