-- ==== Sys2Proof/Machine/Rings.lean ====
section
/-! DEFINITION. Rings: enable, doorbells, fetches, completion records and disable, and the completion of host-memory
operations and dump-store bursts (R54, R62, R253–R258, R263, R266, R273, R275–R284, R298, R306). -/

namespace Sys2Proof.Machine

/-! ### Enable, doorbell, fetch (R255, R257, R258, R284) -/

/-- Fetch more, and let the read go as far as it can. -/
def State.kick (s : State) (n : Nat) : State := (s.fetchMore n).pump
/-- RING_ENABLE (R255). -/
def State.ringEnable (s : State) (n : Nat) : State :=
  let r := s.ring n
  if r.state = .disabled then
    s.setRing n { r with enable := true, state := .idle, head := 0, tail := 0, phase := true, doneCnt := 0, fetchIx := 0, fetchOut := 0, fetched := [], item := none, cplQ := [] }
  else s
/-- A rejected doorbell write (R257). -/
def State.dbReject (s : State) (n cause : Nat) : State := (s.setRing n { s.ring n with dbErr := true, dbCause := cause }).ringErr n 0
/-- A doorbell write is checked and, if accepted, sets TAIL (R257). -/
def State.doorbell (s : State) (n v : Nat) : State :=
  let r := s.ring n
  if r.state = .disabled ∨ r.state = .draining then s.dbReject n 3
  else if r.size ≤ v then s.dbReject n 1
  else if (v + r.size - r.head) % r.size < (r.tail + r.size - r.head) % r.size then s.dbReject n 2
  else if v = r.tail then s
  else (s.setRing n ({ r with tail := v } : Ring).settle).kick n
/-- Split fetched bytes into descriptors. -/
def splitDescs (d : List Byte) : Nat → List (BitVec 512)
  | 0 => []
  | n + 1 => BitVec.ofNat 512 (leNat (d.take 64)) :: splitDescs (d.drop 64) n
/-- The fetch read of ring `n` in the endpoint. -/
def State.fetchRead (s : State) (n : Nat) : Option HostOp := s.htu.ops.find? (fun o => o.owner == .fetch n && o.isQueued)
/-- DESCRIPTOR_FETCH (R258, R280, R284). A read whose ring was disabled meanwhile (`ix` 1) is discarded. -/
def State.fetched (s : State) (n : Nat) (d : List Byte) (ok : Bool) : State :=
  match s.fetchRead n with
  | none => s
  | some o =>
    if ok ∧ d.length ≠ o.len then s
    else
      let s := (s.dropOp o.id).invalidateCheck
      if o.ix = 1 then s.pump
      else if !ok then (s.stall n 1).pump
      else
        let r := s.ring n
        let k := o.len / 64
        let s := s.setRing n { r with fetched := r.fetched ++ splitDescs d k, fetchIx := (r.fetchIx + k) % r.size, fetchOut := 0 }
        (s.promote n).kick n

/-! ### Disable (R282, R283) -/

/-- STATE becomes DISABLED. -/
def State.ringOff (s : State) (n : Nat) : State :=
  (s.setRing n { s.ring n with state := .disabled, enable := false, fetched := [], fetchOut := 0, item := none }).fenceNote n true
/-- A draining ring with nothing left becomes DISABLED. -/
def State.settleDrain (s : State) (n : Nat) : State :=
  let r := s.ring n
  if r.state = .draining ∧ r.cplQ = [] ∧ r.item.isNone then s.ringOff n else s
/-- The fetch reads of ring `n` are withdrawn: those not yet in the endpoint are not issued, the others are discarded. -/
def State.dropFetch (s : State) (n : Nat) : State :=
  let s := (s.freeEntry (.fetch n)).dropUnqueued (.fetch n)
  { s with htu := { s.htu with ops := s.htu.ops.map (fun (o : HostOp) => if o.owner = .fetch n then { o with ix := 1 } else o) } }
/-- A completion record parked on a fault is withdrawn and written anew, with PARTIAL where that ranks higher (R277, R282 step 4,
R306). -/
def State.reRecord (s : State) (n : Nat) (i : Item) (v : Nat × Nat × Nat) : State :=
  let st := Status.max (Status.ofCode v.1) .partial_
  let s := (s.freeEntry (.item (.ring n))).parkOwner (.item (.ring n)) false
  let s := s.modItem (.ring n) (fun i => { i with fin := some (st.code, v.2) })
  match s.parkedOp (.item (.ring n)) with
  | some o => s.setOp { o with phase := .wait, data := cplBytes (s.ring n) i.desc st.code v.2.1 v.2.2 }
  | none => s
/-- The work item of a ring that is being disabled (R282). -/
def State.drainItem (s : State) (n : Nat) (i : Item) : State :=
  let w : Work := .ring n
  match i.fin with
  | some v => if i.parked then s.reRecord n i v else s
  | none =>
  if !i.begun then s.setRing n { s.ring n with item := none }
  else if i.parked then (((s.freeEntry (.item w)).parkOwner (.item w) false).dropUnqueued (.item w)).killItem w .partial_
  else
    match i.wait with
    | .cond | .ctl _ => s.killItem w .partial_
    | _ => s
/-- RING_DISABLE. -/
def State.ringDisable (s : State) (n : Nat) : State :=
  let r := s.ring n
  if r.state = .disabled ∨ r.state = .draining then s
  else
    let s := (s.setRing n { r with enable := false, state := .draining, fetched := [], fetchOut := 0 }).dropFetch n
    let s := match r.item with
      | some i => s.drainItem n i
      | none => s
    (s.settleDrain n).pump

/-! ### Completion records (R263, R266) -/

/-- COMPLETION_TRANSMITTED: the endpoint's oldest write is a completion record of ring `n`. -/
def State.cplSent (s : State) (n : Nat) : State :=
  match s.htu.firstWrite with
  | none => s
  | some o =>
    if o.cpl ∧ o.owner = .item (.ring n) then
      let s := s.transmit o
      let r := s.ring n
      match r.cplQ with
      | [] => s.pump
      | c :: rest =>
        let wrap := r.head + 1 = r.size
        let s := s.setRing n ({ r with cplQ := rest, head := (r.head + 1) % r.size, phase := if wrap then !r.phase else r.phase
                                       doneCnt := (r.doneCnt + 1) % 2 ^ 32 } : Ring).settle
        let s := match c.signal with
          | some k => s.synOp k { rank := c.engine + 1, add := true, val := 1, mask := 0 }
          | none => s
        let s := if c.notify then s.activate (224 + r.notify) n else s
        let s := s.fenceNote n false
        let s := (s.promote n).settleDrain n
        (s.kick n).scrapCheck
    else s

/-! ### Other operations (R54, R62, R280) -/

/-- A descriptor's read that ends in error: nothing further is issued and it completes with ABORTED (R280). -/
def State.readFailed (s : State) (w : Work) (ix : Nat) : State := (s.opDone w ix [] (some .aborted)).updItem w (fun i => { i with dead := true, todo := s.seqRest w i })
/-- The host word a WAIT has read is compared, unless its read completes after TIMEOUT: the WAIT is satisfied, or ends with
TIMEOUT, or waits for its next read, POLL µs from now (R271). -/
def Item.waitRead (now : Nat) (i : Item) (v : Nat) : Item :=
  if opcodeOf i.desc ≠ 1 ∨ i.dead then i
  else if i.over? now then { i with stage := doneStage, errs := i.errs ++ [.timeout] }
  else if waitHolds (dbits i.desc 0x10 1 2) v (db i.desc 0x18 8) then { i with stage := doneStage, detail := lo32 v }
  else { i with wait := .cond, stage := 3, detail := lo32 v, x := tput 0 i.x 3 (now + 1000 * Nat.max (db i.desc 0x28 2) 2) }
/-- A host read of a work item completes. -/
def State.readDone (s : State) (w : Work) (ix : Nat) (d : List Byte) : State :=
  (s.updItem w (fun i => (i.opDone ix d none).waitRead s.now (leNat d))).drainWait w
/-- The dump store after a write of a command whose range lies outside the usable blocks: any of them may have changed, and the
training area and the seal map have not (Table 18.3). -/
def State.openStore (s : State) : State :=
  { s with freeIx := s.freeIx + 1, store := s.store.reopen (memOf (Config.freeMemory s.freeIx)) (fun a => a < 512 * s.dsBlocks) }
/-- A NOR operation ends (R150); FW_STAGE counts the KiB of the image region programmed (Table 5.8). -/
def State.norDone (s : State) (b : Burst) : State :=
  if b.nor = 3 then s.opDone b.work b.ix (s.norRead b.addr b.len) none
  else if b.nor = 1 then (s.norErase b.addr b.len).opDone b.work b.ix [] none
  else
    let s := (s.norWrite b.addr b.data).opDone b.work b.ix [] none
    if b.addr % 0x80000 < 0x7F000 ∧ b.addr < 0x100000 then { s with boot := { s.boot with kibDone := s.boot.kibDone + 1 } } else s
/-- The NOR device carries out one operation at a time, in order. -/
def State.norNext (s : State) (b : Burst) : Bool := ((s.bursts.filter (fun x => x.nor != 0)).head?).any (fun x => x.id == b.id)
/-- A burst ends, unless survival holds it: a dump-store burst's bytes are in the DRAM with their seal bits (R442), or read from it. -/
def State.burstDone (s : State) (b : Burst) : State :=
  if b.held ∨ (b.nor ≠ 0 ∧ !s.norNext b) then s
  else
  let s := { s with bursts := s.bursts.filter (fun x => x.id != b.id) }
  if b.nor ≠ 0 then s.norDone b
  else if b.refill then (s.drFilled (b.addr / 512)).drRefill
  else if b.write ∧ (s.item? b.work).any (fun i => i.odd.testBit 1) then (s.openStore.traceWritten b.work b.len).opDone b.work b.ix [] none
  else if b.write then
    let bl := b.addr / 512
    let n := cdiv (b.addr % 512 + b.len) 512
    ({ s with store := mwrite s.store b.addr b.data
              dmp := { s.dmp with sealMap := tmodRange false s.dmp.sealMap bl n (fun _ _ => b.sealed_) } }.traceWritten b.work b.len).opDone b.work b.ix [] none
  else s.opDone b.work b.ix (mread s.store b.addr b.len) none
/-- OPERATION_COMPLETE of the host operation or burst `id`, with the data a host read returns; `ok` false is an error of
R280. Host writes are transmitted in the order in which they entered the endpoint. -/
def State.opComplete (s : State) (id : Nat) (d : List Byte) (ok : Bool) : State :=
  match s.bursts.find? (fun b => b.id == id) with
  | some b => s.burstDone b
  | none =>
    match s.htu.ops.find? (fun o => o.id == id) with
    | none => s
    | some o =>
      match o.owner, o.phase with
      | .item w, .queued _ _ =>
        if o.cpl then s
        else if o.write then
          (match s.htu.firstWrite with
           | some p => if p.id = o.id then (((s.transmit o).traceWritten w o.len).opDone w o.ix [] none).pump else s
           | none => s)
        else if !ok then (((s.dropOp o.id).readFailed w o.ix).invalidateCheck).pump
        else if d.length ≠ o.len then s
        else (((s.dropOp o.id).readDone w o.ix d).invalidateCheck).pump
      | _, _ => s
/-- COMPLETION_TIMEOUT of a host read, unless the host has disabled it: a descriptor's, a fetch or a walk read; AER logs it
(R62, R247, R280, R284, R291). -/
def State.complTimeout (s : State) (id : Nat) : State :=
  match s.htu.ops.find? (fun o => o.id == id) with
  | none => s
  | some o =>
    if bit s.cfg.devCtl2 4 ∨ !o.reading then s
    else
      let s := { s with cfg := { s.cfg with aerStatus := s.cfg.aerStatus ||| 2 ^ 14 } }
      match o.phase, o.owner with
      | .queued _ _, .fetch n => let s := (s.dropOp id).invalidateCheck; if o.ix = 1 then s.pump else (s.stall n 1).pump
      | .queued _ _, .item _ => s.opComplete id [] false
      | .queued _ _, .queue _ => s
      | _, _ => s.walkRead id 0 true

/-! ### Commands -/

/-- OPERATION_COMPLETE (R54, R62, R68, R150, R280, R304). -/
def execOperationComplete (id : Nat) (data : List Byte) (ok : Bool) (s : State) : Out :=
  s.gated (fun s => (s.readError id ok).opComplete id data ok)
/-- COMPLETION_TIMEOUT (R62, R280, R284). -/
def execCompletionTimeout (id : Nat) (s : State) : Out := s.gated (fun s => s.complTimeout id)
/-- DESCRIPTOR_FETCH (R69, R258, R284). -/
def execDescriptorFetch (r : Nat) (data : List Byte) (ok : Bool) (s : State) : Out :=
  s.gated (fun s => (match s.fetchRead r with | some o => s.readError o.id ok | none => s).fetched r data ok)
/-- COMPLETION_TRANSMITTED (R263, R266, R268, R273, R276). -/
def execCompletionTransmitted (r : Nat) (s : State) : Out := s.gated (fun s => s.cplSent r)
/-- WALK_READ_COMPLETE (R70, R277, R289–R297, R307). -/
def execWalkReadComplete (id entry : Nat) (err : Bool) (s : State) : Out := s.gated (fun s => (s.readError id !err).walkRead id entry err)
/-- QUEUE_SELECT (R313, R317, R319, R324, R326, R333). -/
def execQueueSelect (q : Nat) (s : State) : Out := .next (s.queueSelect q)
/-- RECORD_TRANSMITTED: the endpoint's oldest write is an event record of queue `q` (R114, R250, R326, R329). -/
def execRecordTransmitted (q : Nat) (s : State) : Out :=
  s.gated (fun s =>
    match s.htu.firstWrite with
    | some o => if o.owner = .queue q then ((s.transmit o).recordSent q).sleepCheck.pump else s
    | none => s)
/-- COAL_TIME_READY (R316). -/
def execCoalTimeReady (n : Nat) (s : State) : Out := .next (s.timeReady n)

end Sys2Proof.Machine
end

