-- ==== Sys2Proof/Machine/Sync.lean ====
section
/-! DEFINITION. NOP, WAIT, SIGNAL and FENCE, and what ends their waits (R267–R276). -/

namespace Sys2Proof.Machine

/-- The work item a command's number names: a ring 0–511, the scan ring 512, a ringless item from 513 on. -/
def workOf (n : Nat) : Work := if n < 512 then .ring n else if n = 512 then .scan else .free (n - 513)
/-- Change the work item a command names, noting when it becomes eligible. -/
def State.onWork (s : State) (n : Nat) (p : Item → Bool) (f : Item → Item) : State :=
  s.updItem (workOf n) (fun i => if p i then f i else i)
/-- Data of the operation the item issued last. -/
def Item.lastData (i : Item) : List Byte := tget [] i.rep (i.nextIx - 1)

/-! ### WAIT (R270, R271) -/

/-- A counter's value is compared in the first stroke. -/
def Item.compare (i : Item) (v : Nat) : Item :=
  let i := { i with detail := lo32 v }
  if waitHolds (dbits i.desc 0x10 1 2) v (db i.desc 0x18 8) then i.done else { i with wait := .cond, stage := 3 }
/-- WAIT: a counter is compared once, and after that by each change; a host word is read, and compared as the read completes. A
read that ends at issue ends the WAIT (R233). -/
def waitAdv : Advance := fun s w i =>
  if i.errs ≠ [] then s.setItem w i.done
  else if dbits i.desc 0x10 0 1 = 1 then s.setItem w { i.push [.hrd (db i.desc 0x20 8) 8] with stage := 1 }
  else if i.stage = 0 then s.setItem w (i.compare (s.counter (dbits i.desc 0x12 0 12)).val.toNat)
  else s.setItem w i.done
/-- WAIT_POLL: the next read of the host word is due. -/
def State.waitPoll (s : State) (n : Nat) : State :=
  s.onWork n (fun i => opcodeOf i.desc == 1 && i.wait == .cond && dbits i.desc 0x10 0 1 == 1 && decide (tget 0 i.x 3 ≤ s.now) && !i.late s.now)
    (fun i => { i with wait := Wait.no })
/-- TIMEOUT of an item of opcode `op` that waits on its condition. It acts once its cycle has passed, so that a condition met in
that cycle wins (R274, log entry 89). -/
def State.condTimeout (s : State) (n op : Nat) : State :=
  s.onWork n (fun i => opcodeOf i.desc == op && i.wait == .cond && i.over? s.now) (fun i => { i.fail .timeout with wait := Wait.no })

/-! ### SIGNAL and FENCE (R272, R273) -/

def signalAdv : Advance := fun s w i =>
  let v : DWord := BitVec.ofNat 64 (db i.desc 0x18 8)
  if dbits i.desc 0x10 0 1 = 0 then
    let k := dbits i.desc 0x12 0 12
    let s := s.synOp k { rank := synRank w (s.engineOf w), add := dbits i.desc 0x10 1 1 == 1, val := v, mask := ~~~ 0 }
    s.modItem w (fun i => { i.done with detail := lo32 (s.counter k).val.toNat })
  else s.setItem w (i.push [.hwr (db i.desc 0x20 8) (leBytes 8 v.toNat)]).done
/-- Completions each ring of the range owes: those between its HEAD and its TAIL; none while DISABLED. -/
def State.owed (s : State) (w : Work) (d : BitVec 512) : List (Nat × Nat) :=
  ((List.range 512).filter (fun n => dbits d 0x10 0 9 ≤ n && n ≤ dbits d 0x12 0 9 && w != .ring n)).filterMap (fun n =>
    let r := s.ring n
    let k := (r.tail + r.size - r.head) % r.size
    if r.state = .disabled ∨ k = 0 then none else some (1000 + n, k))
def fenceAdv : Advance := fun s w i =>
  let o := s.owed w i.desc
  s.setItem w (if o = [] then i.done else { i with x := o, detail := o.length, wait := .cond, stage := 1 })

/-! ### Commands -/

/-- NOP (R269). -/
def execNop (e : Nat) (s : State) : Out := s.row e 0x00 noCheck (fun s w i => s.setItem w i.done) repItem
/-- WAIT (R270, R271, R276). -/
def execWait (e : Nat) (s : State) : Out := s.row e 0x01 noCheck waitAdv repItem
/-- SIGNAL (R268, R272). -/
def execSignal (e : Nat) (s : State) : Out := s.row e 0x02 noCheck signalAdv repItem
/-- FENCE (R273). -/
def execFence (e : Nat) (s : State) : Out := s.row e 0x03 noCheck fenceAdv repItem
/-- WAIT_POLL (R271). -/
def execWaitPoll (w : Nat) (s : State) : Out := .next (s.waitPoll w)
/-- WAIT_TIMEOUT (R271, R274). -/
def execWaitTimeout (w : Nat) (s : State) : Out := .next (s.condTimeout w 1)
/-- FENCE_TIMEOUT (R273, R274). -/
def execFenceTimeout (w : Nat) (s : State) : Out := .next (s.condTimeout w 3)

end Sys2Proof.Machine
end

