-- ==== Sys2Proof/Machine/Judge.lean ====
section
/-! DEFINITION. What each command names or reaches, the level it needs there, and the refusals of the lifecycle state
(R140, R162, R171, R192, R198, R206, R208, R399, R439, R447, R480, Tables 6.5, 7.5, 15.3). -/

namespace Sys2Proof.Machine

/-! ### Targets (R206, R399) -/

/-- FULL for each fabric address of a list. -/
def fullFor (l : List Nat) : List (Nat × Nat) := l.map (fun f => (f, 2))
/-- FULL for HUB. -/
def hubFull : List (Nat × Nat) := [(128, 2)]
/-- Fabric addresses the regions of a plan name. -/
def planFabrics (p : List Region) : List Nat := (List.range 128).filter (fun f => p.any (fun r => r.first ≤ f && f ≤ r.last))
/-- A register of Table 1.3, or of the first 16 bytes of a unit's debug window. -/
def observeReg (a : Nat) : Bool :=
  if wdaBase ≤ a && a < wdaBase + 0x10000 then
    let o := a - wdaBase
    [0, 4, 0x10, 0x14, 0x20, 0x24, 0x30].contains o || (0x100 ≤ o && o < 0x130)
  else if coreWin ≤ a && a < coreWin + 0x20000 then (a - coreWin) % 0x1000 < 16
  else if engWin ≤ a && a < engWin + 0x200000 then (a - engWin) % 0x1000 < 16
  else false
/-- The level READ_REG needs. -/
def readRegLevel (d : BitVec 512) : Nat :=
  if dbits d 0x10 0 1 = 0 ∧ (List.range (Nat.max (regCount d) 1)).all (fun j => observeReg (db d 0x18 8 + 4 * j)) then 1 else 2
/-- Context and DUMP_ID bits of a dump cursor (Table 15.9). -/
def cursorCtx (d : BitVec 512) : Nat := dbits d 0x14 0 3
def cursorId (d : BitVec 512) : Nat := db d 0x15 1
/-- The context a cursor names, when it is in use and its DUMP_ID matches (R455, R456). -/
def State.cursorHit (s : State) (d : BitVec 512) : Option Nat :=
  let n := cursorCtx d
  if n < 5 ∧ (s.ctx n).state ≠ CtxState.free ∧ (s.ctx n).id % 256 = cursorId d then some n else none
/-- What a DUMP_RUN or DUMP_TENSOR with descriptor `d` needs. -/
def State.dumpNeeds (s : State) (d : BitVec 512) : List (Nat × Nat) :=
  let hub := if dbits d 0x11 1 1 = 1 then hubFull else []
  if opcodeOf d = 0x32 then
    fullFor ((List.range 128).filter (fun f => f == dbits d 0x10 0 7 || (dbits d 0x13 0 7 ≤ f && f ≤ dbits d 0x38 0 7))) ++ hub
  else fullFor (planFabrics (tget [] s.dmp.plans (dbits d 0x10 0 3))) ++ hub
/-- The levels a descriptor needs, fabric addresses first, HUB as 128 (Table 7.5). -/
def State.needs (s : State) (d : BitVec 512) : List (Nat × Nat) :=
  let op := opcodeOf d
  if op = 0x10 ∨ op = 0x11 then fullFor ((List.range 128).filter (fun f => bit (db d 0x10 1) (f / 16)))
  else if op = 0x12 ∨ op = 0x13 ∨ op = 0x16 ∨ op = 0x17 ∨ op = 0x24 then fullFor (fabRange (fabFirst d) (fabLast d))
  else if op = 0x14 ∨ op = 0x15 then [(dbits d 0x10 10 7, 2)]
  else if op = 0x18 ∨ (0x40 ≤ op ∧ op ≤ 0x43) ∨ op = 0x66 then [(128, 1)]
  else if op = 0x20 then [(dbits d 0x14 10 7, readRegLevel d)]
  else if op = 0x21 then [(dbits d 0x14 10 7, 2)]
  else if op = 0x22 ∨ op = 0x23 then (if dbits d 0x10 0 1 = 0 then [(dbits d 0x11 0 7, 2)] else hubFull)
  else if op = 0x31 ∨ op = 0x32 then s.dumpNeeds d
  else if op = 0x33 ∨ (op = 0x34 ∧ dbits d 0x16 0 1 = 0) then
    (match s.cursorHit d with
     | some n => if n = 4 then fullFor (planFabrics (tget [] s.dmp.plans (s.ctx 4).planId)) ++ hubFull else s.dumpNeeds (s.ctx n).desc
     | none => [])
  else if op = 0x34 then (if s.dmp.survArmed then fullFor (planFabrics (tget [] s.dmp.plans s.dmp.survPlan)) ++ hubFull else [])
  else if op = 0x35 ∨ op = 0x63 then hubFull
  else if op = 0x50 ∨ op = 0x51 ∨ op = 0x52 then fullFor (List.range 128) ++ hubFull
  else []
/-- What falls short of Table 7.5: an OPEN also needs UNSEAL, reported as HUB (R200). -/
def State.judge (s : State) (w : Work) (d : BitVec 512) : Option (Nat × Nat × Nat) :=
  match s.shortfall w (s.needs d) with
  | some x => some x
  | none =>
    if opcodeOf d = 0x35 ∧ dbits d 0x10 0 1 = 1 ∧ !s.unseal (w == .scan) then some (128, 2, s.workLevel w 128) else none

/-! ### Content (R171, R442, R447) -/

/-- Content of the hub at `n` bytes from `a` may be returned or changed in plain (Table 6.5). -/
def State.hubContentOk (s : State) (write : Bool) (a n : Nat) : Bool :=
  let st := s.lcs.state
  let locked := st == 6 || st == 15
  let wipe := st == 5 && !s.fuses.wiped && (!write || s.lcs.wipePending)
  !(overlaps a n 0 0x1000000 && (locked || st == 4)) &&
  !(overlaps a n dsHub (512 * s.dsBlocks) && (locked || st == 4 || wipe)) &&
  !(overlaps a n norHub s.norSize && locked) &&
  !(overlaps a n (norHub + userBase) (s.norSize - userBase) && wipe) &&
  !overlaps a n (norHub + 0x112000) 0xE000 && !(write && overlaps a n norHub userBase)
/-- The descriptor would touch the dump store. -/
def State.touchesStore (s : State) (d : BitVec 512) : Bool :=
  let op := opcodeOf d
  (op == 0x31 && dbits d 0x11 1 1 == 1) || (op == 0x32 && dbits d 0x11 1 1 == 1) || (op == 0x35 && dbits d 0x10 0 1 == 0) ||
  (op == 0x42 && dbits d 0x10 0 1 == 1) || (op == 0x33 && (match s.cursorHit d with | some n => (s.ctx n).toStore | none => false))
/-- The lifecycle state refuses the opcode (R140, R162, R262). -/
def State.opcodeRefused (s : State) (d : BitVec 512) : Bool :=
  let op := opcodeOf d
  (s.boot.stage == 5 && !(op == 0 || (op == 0x66 && dbits d 0x10 0 2 == 0))) || (s.lcs.state == 15 && op != 0x60)
/-- The lifecycle state refuses the content (R171, R443, R447). -/
def State.contentRefused (s : State) (d : BitVec 512) : Bool :=
  let op := opcodeOf d
  ((op == 0x22 || op == 0x23) && dbits d 0x10 0 1 == 1 && !s.hubContentOk (op == 0x23) (db d 0x18 8) (db d 0x14 4)) ||
  (s.touchesStore d && s.lcs.wipePending)

/-! ### The first stroke's checks (R216, R262) -/

/-- A denial completes the work item with AUTH_DENIED. -/
def State.refuse (s : State) (w : Work) (d : BitVec 512) (short : Option (Nat × Nat × Nat)) : State :=
  (s.deny (opcodeOf d) (w == .scan) (match w with | .ring n => n | _ => 0) short).finish w .authDenied 0 0
/-- A BREAK_SET or BREAK_CLEAR that makes a misuse leaves its selected units open, each until a BREAK_CLEAR with ALL_SLOTS for each KIND
(Table 18.3). `d` is the descriptor as posted. -/
def State.breakOdd (s : State) (d : BitVec 512) : State :=
  let op := opcodeOf d
  if (op = 0x16 ∨ op = 0x17) ∧ (encodingBad d ∨ rangeBad d) then
    ((fabRange (fabFirst d) (fabLast d)).filter s.present).foldl (fun s f =>
      s.setChip f { s.chip f with
        cores := if dbits d 0x20 0 2 = 2 then (s.chip f).cores
                 else tmodRange {} (s.chip f).cores 0 32 (fun i u => if dbits d 0x12 0 1 = 1 ∨ bit (db d 0x14 4) i then { u with brkOdd := u.brkOdd ||| 3 } else u)
        engines := if dbits d 0x20 0 2 < 2 then (s.chip f).engines
                   else tmodRange {} (s.chip f).engines 0 512 (fun i u =>
                     if dbits d 0x12 0 1 = 1 ∨ (bit (db d 0x18 2) (i / 32) ∧ bit (db d 0x1C 4) (i % 32)) then { u with brkOdd := u.brkOdd ||| 4 } else u) }) s
  else s
/-- The item as it is taken up: one whose descriptor makes a misuse goes on as a free choice reads it, its scope open. -/
def State.takeUp (s : State) (w : Work) (i : Item) : Item × State :=
  if !opcodes.contains (opcodeOf i.desc) then (i, s)
  else
    let r := if descOdd i.desc then
        let r := s.free
        ({ i with desc := legal i.desc r.1.toNat, odd := 1 }, r.2)
      else (i, s)
    let r := if s.storeOdd r.1.desc then ({ r.1 with odd := (if opcodeOf i.desc = 0x35 then 3 else r.1.odd + 2) }, r.2.openStore) else r
    (r.1, (r.2.breakOdd i.desc).setItem w r.1)
/-- The checks of R262, in order; a work item that passes them all has begun, with the path's FULL chips noted (R208). -/
def State.firstChecks (s : State) (w : Work) (i : Item) : State :=
  let r := s.takeUp w i
  let s := r.2
  let i := r.1
  let d := i.desc
  if !opcodes.contains (opcodeOf d) then s.finish w .badOpcode 0 0
  else if s.opcodeRefused d then s.refuse w d none
  else
    match s.judge w d with
    | some x => s.refuse w d (some x)
    | none =>
      if s.contentRefused d then s.refuse w d none
      else s.setItem w { i with begun := true, began := s.now, fullMask := maskOf 128 (fun f => 2 ≤ s.workLevel w f) }

end Sys2Proof.Machine
end

