-- ==== Sys2Proof/Machine/Arbiter.lean ====
section
/-! DEFINITION. Arbitration at stroke boundaries: the order of service, the bulk rounds and floor, the scan guard, and a
grant with the first stroke's checks (R53, R55–R61, R63, R66). -/

namespace Sys2Proof.Machine

/-! ### Bulk work (R57) -/

/-- Place in the bulk order: bulk rings 448–511, then ringless items by age. -/
def bulkPlace : Work → Nat
  | .ring n => n - 448
  | .free k => 64 + k
  | .scan => 0
/-- Credit of a work item at the start of a round. -/
def State.bulkWeight (s : State) : Work → Nat
  | .ring n => Nat.max (s.ring n).weight 1
  | _ => 1
/-- Eligible bulk work in bulk order. -/
def State.bulkWork (s : State) : List Work :=
  ((List.range 64).map (fun j => Work.ring (448 + j)) ++ s.hub.free.map (fun p => Work.free p.1)).filter s.eligible
/-- Credit left in this round. -/
def State.hasCredit (s : State) (w : Work) : Bool := tget 0 s.hub.credit (bulkPlace w) < s.bulkWeight w
/-- The first work at or after the pointer, else the first of all. -/
def fromPtr (ptr : Nat) (l : List Work) : Option Work := (l.find? (fun w => ptr ≤ bulkPlace w)).or l.head?
/-- The bulk work a grant would go to, and whether a new round begins with it. -/
def State.bulkPick (s : State) : Option (Work × Bool) :=
  match fromPtr s.hub.bulkPtr (s.bulkWork.filter s.hasCredit) with
  | some w => some (w, false)
  | none => (fromPtr s.hub.bulkPtr s.bulkWork).map (fun w => (w, true))
/-- Bulk work comes ahead of the normal rings (R57). -/
def State.bulkFloor (s : State) : Bool := ((s.hub.window.take 15).filter id).length < Nat.min s.hub.bulkMin 8

/-! ### The order (R56, R58, R61) -/

/-- The scan guard's time has passed. -/
def State.guardDue (s : State) : Bool :=
  match s.scan.item with
  | some i => s.eligible .scan && !s.dmp.surviving && decide (i.eligAt + 2000 * Nat.max s.hub.scanGuard 1 ≤ s.now)
  | none => false
/-- The normal rings from the round-robin pointer on. -/
def State.normalPick (s : State) : Option Work :=
  let l := (List.range 432).map (fun j => 16 + (s.hub.rr - 16 + j) % 432)
  (l.find? (fun n => s.eligible (.ring n))).map Work.ring
/-- A store dump that survival serves is under way. -/
def State.survDumping (s : State) : Bool :=
  (List.range 5).any (fun n => (s.ctx n).toStore && ((s.ctx n).state == .running || (s.ctx n).state == .finishing))
/-- Opcode under which the last-gasp write is kept; no descriptor of Table 19.5 has it. -/
def lgOpcode : Nat := 0xFF
/-- A dump that survival serves (R61, R444). -/
def State.survServed (s : State) (w : Work) : Bool :=
  (List.range 5).any (fun n =>
    let c := s.ctx n
    c.toStore && c.work == some w && (c.state == .running || c.state == .finishing))
/-- The last-gasp write, a ringless work item with an opcode of its own (R55, log entry 10). -/
def State.lgWork (s : State) (w : Work) : Bool := (match w with | .free _ => true | _ => false) && (s.item? w).any (fun i => opcodeOf i.desc == lgOpcode)
/-- The first eligible work item. -/
def State.pick (s : State) : Option Work :=
  if s.dmp.surviving then s.works.find? (fun w => s.eligible w && (s.survServed w || (s.lgWork w && !s.survDumping)))
  else
    let scan := s.eligible .scan
    if scan && (s.hub.guard || s.guardDue) then some .scan
    else
      match (List.range 16).find? (fun n => s.eligible (.ring n)) with
      | some n => some (.ring n)
      | none =>
        if scan then some .scan
        else
          let bulk := s.bulkPick.map (·.1)
          if s.bulkFloor then bulk.or s.normalPick else s.normalPick.or bulk

/-! ### A grant (R57, R58, R60, R262) -/

/-- What a grant does to the arbiter's own state. -/
def State.noteGrant (s : State) (w : Work) : State :=
  let h := s.hub
  let h := { h with strokes := (h.strokes + 1) % 2 ^ 64 }
  let win := fun (b : Bool) => (b :: h.window).take 15
  let bulk := fun (h : HubRegs) =>
    let used := match s.bulkPick with | some (_, true) => [] | _ => h.credit
    { h with window := win true, credit := tput 0 used (bulkPlace w) (tget 0 used (bulkPlace w) + 1), bulkPtr := bulkPlace w + 1 }
  { s with hub :=
      match w with
      | .scan => { h with guard := false }
      | .free _ => if s.dmp.surviving then h else bulk h
      | .ring n => if n < 16 ∨ s.dmp.surviving then h else if n < 448 then { h with window := win false, rr := if n = 447 then 16 else n + 1 } else bulk h }
/-- Start latency of a first stroke (R60). -/
def State.noteLatency (s : State) (w : Work) (i : Item) : State :=
  let l := Nat.min (s.now - i.eligAt) (2 ^ 32 - 1)
  match w with
  | .scan => { s with hub := { s.hub with latScan := Nat.max s.hub.latScan l } }
  | .ring n => if n < 16 then { s with hub := { s.hub with latUrg := Nat.max s.hub.latUrg l } } else s
  | .free _ => s
/-- Engine `e` gets work item `w`, whose stroke begins. -/
def State.grant (s : State) (e : Nat) (w : Work) : State :=
  match s.item? w with
  | none => s
  | some i =>
    let i := { i with engine := e }
    let s := ((s.noteGrant w).setSe e { work := some w, opcode := opcodeOf i.desc, started := s.now, yieldWait := s.hub.yieldWait }).setItem w i
    if i.begun then
      match w with
      | .ring n =>
        if (s.ring n).state = .draining ∧ !i.over ∧ tget 0 i.x 99 = 0 then
          let s := s.setItem w { i with draining := true }
          if (s.seqRest w i).length < i.todo.length then s.killItem w .partial_ else s
        else s
      | _ => s
    else (s.noteLatency w i).firstChecks w i

/-- A lower-numbered engine decides first: it is free as well (R59). -/
def State.decidesLater (s : State) (e : Nat) : Bool := (List.range e).any (fun j => (s.se j).work.isNone)
/-- The decision of engine `e`: the first eligible work item is its own, unless a lower engine is to have it. -/
def State.arbitrate (s : State) (e : Nat) : State :=
  if s.fastUp ∧ e < 4 ∧ (s.se e).work.isNone ∧ !s.decidesLater e then
    match s.pick with
    | some w => s.grant e w
    | none => s
  else s

/-! ### Commands -/

/-- ARBITER_DECISION for engine `e` (R53, R55–R61, R262). -/
def execArbiterDecision (e : Nat) (s : State) : Out := .next (s.arbitrate e)
/-- STROKE_YIELD of engine `e` (R63, R68, R74). -/
def execStrokeYield (e : Nat) (s : State) : Out := .next (s.strokeYield e)
/-- SCAN_GUARD_FIRE (R58). -/
def execScanGuardFire (s : State) : Out := .next (if s.guardDue then { s with hub := { s.hub with guard := true } } else s)

end Sys2Proof.Machine
end

