-- ==== Sys2Proof/Machine/RunCtl.lean ====
section
/-! DEFINITION. The run-control descriptors and the commands of the stop lines: PEAL, TOLL, MUFFLE, RESUME, STEP_CORE,
STEP_ENGINE, BREAK_SET, BREAK_CLEAR, pulses, relay, confirmation and toll (R378–R407, R411). -/

namespace Sys2Proof.Machine

/-- Statuses of the PRESENT positions that `p` picks and that take no operation (R341, R399). -/
def State.reachErrs (s : State) (p : Nat → Bool) : List Status :=
  ((List.range 128).filter (fun f => p f && s.present f)).filterMap s.issueStatus
/-- Operation `ix` was issued and did not fail. -/
def Item.opOk (i : Item) (ix : Nat) : Bool := ix < i.issued && tget 0 i.bad ix == 0
/-- How many of `n` operations, the `j`th at index `at_ j`, were issued and did not fail. -/
def Item.countOk (i : Item) (n : Nat) (at_ : Nat → Nat) : Nat := ((List.range n).filter (fun j => i.opOk (at_ j))).length

/-! ### PEAL (R400) -/

def pealAdv : Advance := fun s w i =>
  let m := db i.desc 0x10 1
  let confirm := dbits i.desc 0x11 0 1 == 1
  if i.stage = 0 then
    if m = 0 then s.setItem w i.done
    else
      let d := s.drivenMask m
      let errs := if confirm then s.reachErrs (fun f => bit m (f / 16)) else []
      let s := { s with run := { s.run with pealCnt := satAdd s.run.pealCnt 1 32 } }
      let s := (s.stopRequest m s.time).stopInstant 1 m s.time
      s.modItem w (fun i =>
        let i := { i with detail := d + place (m ^^^ d) 8 8, errs := i.errs ++ errs }
        if confirm then { i with stage := 1, wait := .ctl none } else i.done)
  else
    let un := tget 0 i.x 2
    s.setItem w { i.done with detail := i.detail + place (tget 0 i.x 1) 16 8 + place un 24 8, errs := if un = 0 then i.errs else i.errs ++ [.timeout] }

/-! ### TOLL (R386, R401) -/

/-- Chips of the chains of a mask. -/
def inMask (m f : Nat) : Bool := bit m (f / 16)
/-- A chip's arming (R386). -/
def tollOps (t f : Nat) : List OpK :=
  [regWr f (wdaBase + 0x300) (lo32 t), regWr f (wdaBase + 0x304) (hi32 t), regWr f (wdaBase + 0x308) 1, .rd f (wdaBase + 0x308) 8]
def disarmOp (f : Nat) : OpK := regWr f (wdaBase + 0x308) 0
/-- The hub's toll is replaced or ended: its backup stop is cancelled, and an arming in progress stops (R386). -/
def State.tollDrop (s : State) (w : Work) : State :=
  let s := s.mapItems (fun v j =>
    if v ≠ w ∧ opcodeOf j.desc = 0x11 ∧ j.stage = 1 then { j with todo := s.seqRest v j, x := tput 0 j.x 1 0 } else j)
  { s with run := { s.run with tollState := TollState.none_, backup := false, arming := [], armQ := s.run.armQ.filter (fun q => q.2 != 0) } }
/-- The first stroke of a TOLL. -/
def State.tollFirst (s : State) (w : Work) (i : Item) : State :=
  let mode := dbits i.desc 0x11 0 2
  let m := db i.desc 0x10 1
  let t := db i.desc 0x18 8
  let held := s.run.tollState == TollState.armed || s.run.tollState == TollState.arming
  let old := fun f => held && inMask s.run.tollMask f
  let arm := chipsOf m s.addressable
  let errs := s.reachErrs (inMask m)
  let stale := (List.range 128).filter (fun f => old f && s.addressable f && !(mode == 0 && inMask m f))
  let s := s.tollDrop w
  let r := s.run
  if mode = 0 then
    let i := arm.foldl (fun (i : Item) f => i.pushSeq (tollOps t f)) { i with stage := 1, errs := i.errs ++ errs, x := tput 0 (tput 0 i.x 0 arm.length) 1 1 }
    { s with run := { r with tollState := TollState.arming, tollMask := m, tollT := t, backup := true } }.setItem w (i.push (stale.map disarmOp))
  else if mode = 1 then
    { s with run := { r with tollState := TollState.waitTrig, tollMask := m, tollEdge := dbits i.desc 0x11 2 2, tollOffset := t } }.setItem w
      { i.push (stale.map disarmOp) with stage := 1 }
  else s.setItem w { i.push (arm.map disarmOp) with stage := 1, errs := i.errs ++ errs }
def tollAdv : Advance := fun s w i => if i.stage = 0 then s.tollFirst w i else s.setItem w i.done
/-- The end of a TOLL: in mode AT the toll is ARMED, with its LATE chips counted. -/
def tollRep : Report := fun s _ i _ =>
  if dbits i.desc 0x11 0 2 = 0 then
    let n := tget 0 i.x 0
    let late := ((List.range n).filter (fun j => i.opOk (4 * j + 3) && bit (leNat (tget [] i.rep (4 * j + 3))) 2)).length
    let r := s.run
    let r := { r with tollLate := r.tollLate || late != 0
                      tollState := if tget 0 i.x 1 = 1 ∧ r.tollState = TollState.arming then TollState.armed else r.tollState }
    ({ s with run := r }, i.countOk n (fun j => 4 * j + 3) + place late 8 8, 0)
  else (s, i.countOk i.nextIx id, 0)

/-! ### MUFFLE and RESUME (R388–R390, R398, R402, R403) -/

def selAll (d : BitVec 512) : Bool := dbits d 0x12 0 1 == 1
def selTimed (d : BitVec 512) : Bool := opcodeOf d == 0x13 && dbits d 0x12 1 1 == 1
/-- The selection and GO of one chip; none when no unit is selected. -/
def goOps (d : BitVec 512) (f : Nat) : List OpK :=
  let cores := db d 0x14 4
  let engs := db d 0x1C 4
  let sel := if selAll d then []
    else (if cores = 0 then [] else [regWr f (wdaBase + 0x290) cores]) ++
      ((List.range 16).filter (fun c => engs != 0 && bit (db d 0x18 2) c)).map (fun c => regWr f (wdaBase + 0x2A0 + 4 * c) engs)
  let at_ := if selTimed d then [regWr f (wdaBase + 0x2E8) (lo32 (db d 0x20 8)), regWr f (wdaBase + 0x2EC) (hi32 (db d 0x20 8))] else []
  if selAll d || !sel.isEmpty then
    sel ++ at_ ++ [regWr f (wdaBase + 0x2E0) ((if opcodeOf d = 0x13 then 2 else 1) + place (b2n (selTimed d)) 2 1 + place (b2n (selAll d)) 3 1)]
  else []
/-- One sequence for each PRESENT chip of the range: its length is kept under 1, and the chips from 2000 on. -/
def State.pushChips (s : State) (i : Item) (ops : Nat → List OpK) : Item :=
  let fs := (fabRange (fabFirst i.desc) (fabLast i.desc)).filter s.present
  let i := fs.foldl (fun (i : Item) f => i.pushSeq (ops f)) i
  { i with stage := 1, x := (fs.zipIdx).foldl (fun x p => tput 0 x (2000 + p.2) p.1) (tput 0 i.x 1 (ops 0).length) }
/-- Chains that a range of fabric addresses reaches. -/
def chainsIn (a b : Nat) : Nat := maskOf 8 (fun k => (fabRange a b).any (fun f => f / 16 == k))
/-- STOP_N_OUT of the chains a RESUME with ALL_UNITS reaches rises, at once or at AT (R403). -/
def State.resumeRaise (s : State) (d : BitVec 512) : State :=
  if opcodeOf d = 0x13 ∧ selAll d then
    let m := chainsIn (fabFirst d) (fabLast d)
    if selTimed d then { s with run := { s.run with raises := s.run.raises ++ [(db d 0x20 8, m)] } } else s.raiseStops m
  else s
def selAdv : Advance := fun s w i =>
  if i.stage = 0 then (s.resumeRaise i.desc).setItem w (s.pushChips i (goOps i.desc)) else s.setItem w i.done
/-- DETAIL counts groups of `per` operations done; CURSOR names the lowest chip whose sequence was not begun. -/
def Item.selReport (i : Item) (per : Nat) : Nat × Nat :=
  (if per = 0 then 0 else i.countOk (i.nextIx / per) (fun j => per * j + (per - 1)), tget 0 i.x (2000 + cdiv i.issued (Nat.max (tget 0 i.x 1) 1)))
def selRep : Report := fun s _ i _ => (s, i.selReport (tget 0 i.x 1))

/-! ### BREAK_SET and BREAK_CLEAR (R406, R407) -/

/-- The selected units of the class that KIND names. -/
def breakUnits (d : BitVec 512) : List Nat :=
  if dbits d 0x20 0 2 = 2 then (List.range 512).filter (fun e => selAll d || (bit (db d 0x18 2) (e / 32) && bit (db d 0x1C 4) (e % 32)))
  else (List.range 32).filter (fun c => selAll d || bit (db d 0x14 4) c)
/-- Offsets of a comparator's first VALUE register and of its CTRL. -/
def breakRegs (kind slot : Nat) : Nat × Nat :=
  if kind = 0 then (0x100 + 8 * slot, 0x104 + 8 * slot) else if kind = 1 then (0x140 + 8 * slot, 0x144 + 8 * slot) else (0x100, 0x108)
/-- CTRL of an enabled comparator (Table 13.8). -/
def breakCtrl (d : BitVec 512) : Nat :=
  1 + place (dbits d 0x22 0 2) 1 2 +
  (if dbits d 0x20 0 2 = 1 then place (dbits d 0x22 3 2) 5 2 + place (dbits d 0x23 0 5) 8 5
   else if dbits d 0x20 0 2 = 2 then place (dbits d 0x22 2 1) 4 1 else 0)
/-- The writes to one unit. -/
def breakUnitOps (d : BitVec 512) (f u : Nat) : List OpK :=
  let kind := dbits d 0x20 0 2
  let base := (if kind = 2 then engWin else coreWin) + 0x1000 * u
  let slot := dbits d 0x21 0 3
  let r := breakRegs kind slot
  if opcodeOf d = 0x16 then
    [regWr f (base + r.2) 0, regWr f (base + r.1) (db d 0x24 4)] ++ (if kind = 2 then [regWr f (base + 0x104) (db d 0x28 4)] else []) ++
    [regWr f (base + r.2) (breakCtrl d)]
  else
    let slots := if dbits d 0x21 3 1 = 1 then List.range (if kind = 0 then 8 else if kind = 1 then 4 else 1) else [slot]
    slots.map (fun n => regWr f (base + (breakRegs kind n).2) 0)
def breakOps (d : BitVec 512) (f : Nat) : List OpK := ((breakUnits d).map (breakUnitOps d f)).flatten
def breakAdv : Advance := fun s w i => if i.stage = 0 then s.setItem w (s.pushChips i (breakOps i.desc)) else s.setItem w i.done
/-- What is left of the misuses of R415 after a completed BREAK_SET or BREAK_CLEAR. -/
def brkLeft (d : BitVec 512) (odd : Nat) : Nat :=
  if opcodeOf d = 0x16 then setFld odd 4 1 0
  else
    let odd := if dbits d 0x21 3 1 = 1 then setFld odd (dbits d 0x20 0 2) 1 0 else odd
    if bit odd 3 then setFld (setFld odd 3 1 0) 4 1 1 else odd
/-- A completed BREAK_SET or BREAK_CLEAR is the recovery, or part of it, of the misuses of R415 in its units (Table 18.3). -/
def State.brkRecover (s : State) (w : Work) (i : Item) : State :=
  if s.itemOdd w i || i.nextIx == 0 then s
  else
    ((fabRange (fabFirst i.desc) (fabLast i.desc)).filter s.present).foldl (fun s f =>
      (breakUnits i.desc).foldl (fun s n =>
        let c := s.chip f
        s.setChip f (if dbits i.desc 0x20 0 2 = 2 then (if (c.eng n).brkOdd = 0 then c else c.setEng n { c.eng n with brkOdd := brkLeft i.desc (c.eng n).brkOdd })
                     else if (c.core n).brkOdd = 0 then c else c.setCore n { c.core n with brkOdd := brkLeft i.desc (c.core n).brkOdd })) s) s
def breakRep : Report := fun s w i _ => (s.brkRecover w i, i.selReport (breakUnitOps i.desc 0 0).length)

/-! ### STEP_CORE and STEP_ENGINE (R404, R405) -/

def stepUnit (d : BitVec 512) : Nat := dbits d 0x10 0 17
/-- First stroke: the unit's class, then R13 and R341; then the chain controller works (log entry 25). -/
def stepAdv (engine : Bool) : Advance := fun s w i =>
  let u := stepUnit i.desc
  if i.stage = 0 then
    if !bit u 9 ∧ 32 ≤ u % 512 then s.setItem w (i.fail .chipAbsent)
    else if bit u 9 ≠ engine then s.setItem w (i.fail .aborted)
    else
      match s.issueStatus (u / 1024) with
      | some e => s.setItem w (i.fail e)
      | none => s.setItem w { i with stage := 1, wait := .ctl (some s.now) }
  else s.setItem w i.done
/-- The item goes on waiting, or ends with a status and DETAIL. -/
def Item.pollEnd (i : Item) (det : Nat) (e : Option Status) : Item :=
  { i with wait := Wait.no, stage := doneStage, detail := det, errs := i.errs ++ e.toList }
def Item.pollAgain (i : Item) (now : Nat) : Item := { i with wait := .ctl (some (now + 1000)), x := tput 0 i.x 0 1 }
/-- DETAIL of STEP_CORE. -/
def Core.stepDetail (u : Core) : Nat := u.state.code + place u.cause 8 8
/-- One action of the chain controller for a STEP_CORE: the check and the CORE_STEP write, then the polls. -/
def State.stepCorePoll (s : State) (w : Work) (i : Item) : State :=
  let f := stepUnit i.desc / 1024
  let n := stepUnit i.desc % 512
  let u := (s.chip f).core n
  if tget 0 i.x 0 = 0 then
    if u.state ≠ CoreState.monitor then s.updItem w (fun i => i.pollEnd u.stepDetail (some .aborted))
    else (s.chipOp f (fun c => c.coreStep n)).updItem w (fun i => { i.pollAgain s.now with x := tput 0 (tput 0 i.x 0 1) 1 (s.now + 100000) })
  else if u.state = CoreState.monitor then s.updItem w (fun i => i.pollEnd u.stepDetail none)
  else if tget 0 i.x 1 ≤ s.now then s.updItem w (fun i => i.pollEnd u.stepDetail (some .timeout))
  else s.updItem w (fun i => i.pollAgain s.now)
/-- The same for a STEP_ENGINE: an engine that stays MUFFLED with its LAST_DONE had no further command. -/
def State.stepEngPoll (s : State) (w : Work) (i : Item) : State :=
  let f := stepUnit i.desc / 1024
  let n := stepUnit i.desc % 512
  let u := (s.chip f).eng n
  let limit := db i.desc 0x14 4
  if tget 0 i.x 0 = 0 then
    if (u.state ≠ EngState.muffled ∧ u.state ≠ EngState.forced) ∨ (u.state = EngState.forced ∧ u.redo?.isNone) then s.updItem w (fun i => i.pollEnd u.lastDone (some .aborted))
    else (s.chipOp f (fun c => c.engStep (s.chipTime f) n)).updItem w (fun i =>
      { i.pollAgain s.now with x := tput 0 (tput 0 (tput 0 i.x 0 1) 1 (if limit = 0 then 0 else s.now + 1000 * limit)) 2 u.lastDone })
  else if u.state = EngState.muffled then s.updItem w (fun i => i.pollEnd u.lastDone (if u.lastDone = tget 0 i.x 2 then some .aborted else none))
  else if tget 0 i.x 1 ≠ 0 ∧ tget 0 i.x 1 ≤ s.now then s.updItem w (fun i => i.pollEnd u.currentRead (some .timeout))
  else s.updItem w (fun i => i.pollAgain s.now)
/-- STEP_POLL of the work item with number `n`. -/
def State.stepPoll (s : State) (n : Nat) : State :=
  let w := workOf n
  match s.item? w with
  | none => s
  | some i =>
    let op := opcodeOf i.desc
    let f := stepUnit i.desc / 1024
    match i.wait with
    | .ctl (some t) =>
      if (op = 0x14 ∨ op = 0x15) ∧ t ≤ s.now ∧ s.fastClock ∧ (s.chain (f / 16)).tagFree w.urgent then
        match s.issueStatus f with
        | some e => s.updItem w (fun i => i.pollEnd 0 (some e))
        | none =>
          if (s.chip f).inReset then s.updItem w (fun i => i.pollEnd 0 (some .chipAbsent))
          else if op = 0x14 then s.stepCorePoll w i else s.stepEngPoll w i
      else s
    | _ => s

/-! ### Commands -/

/-- PEAL (R378, R387, R400, R411). -/
def execPeal (e : Nat) (s : State) : Out := s.row e 0x10 noCheck pealAdv repItem
/-- TOLL (R383–R386, R401). -/
def execToll (e : Nat) (s : State) : Out := s.row e 0x11 noCheck tollAdv tollRep
/-- MUFFLE (R388, R390, R398, R399, R402). -/
def execMuffle (e : Nat) (s : State) : Out := s.row e 0x12 noCheck selAdv selRep
/-- RESUME (R388–R390, R398, R399, R403). -/
def execResume (e : Nat) (s : State) : Out := s.row e 0x13 noCheck selAdv selRep
/-- STEP_CORE (R391, R404). -/
def execStepCore (e : Nat) (s : State) : Out := s.row e 0x14 noCheck (stepAdv false) repItem
/-- STEP_ENGINE (R392, R405). -/
def execStepEngine (e : Nat) (s : State) : Out := s.row e 0x15 noCheck (stepAdv true) repItem
/-- STEP_POLL (R404, R405). -/
def execStepPoll (w : Nat) (s : State) : Out := .next (s.stepPoll w)
/-- BREAK_SET (R393, R398, R406). -/
def execBreakSet (e : Nat) (s : State) : Out := s.row e 0x16 noCheck breakAdv breakRep
/-- BREAK_CLEAR (R398, R407). -/
def execBreakClear (e : Nat) (s : State) : Out := s.row e 0x17 noCheck breakAdv breakRep
/-- STOP_PULSE_END of chain `k` (R378). -/
def execStopPulseEnd (k : Nat) (s : State) : Out := .next (s.pulseEnd k)
/-- STOP_RELAY: a fall of STOP_N_IN_k (R381, R382, R387). -/
def execStopRelay (k : Nat) (s : State) : Out := .next (s.stopInFall k)
/-- CONFIRMATION_READ of chip `f` (R387). -/
def execConfirmationRead (f : Nat) (s : State) : Out := .next (s.confirmRead f)
/-- TOLL_BACKUP_STOP (R384). -/
def execTollBackupStop (s : State) : Out := .next s.backupStop
/-- TIMED_STOP_RAISE (R403). -/
def execTimedStopRaise (s : State) : Out := .next s.timedRaise
/-- TOUT_PULSE_END (R501, R513). -/
def execToutPulseEnd (s : State) : Out := .next s.toutEnd

end Sys2Proof.Machine
end

