-- ==== Sys2Proof/Machine/CutData.lean ====
section
/-! DEFINITION. What a cut collects and how it is laid out: halt pictures, ledgers, snapshots, shard-map fields, pairs, the
summary, chip blocks and buffer records (R416, R420–R424, R427, R428, R431, R432). -/

namespace Sys2Proof.Machine

/-! ### Halt pictures (R395, R416, R418) -/

def allOnes32 : Nat := 2 ^ 32 - 1
/-- Words of a byte run. -/
def wordsOf (d : List Byte) (n : Nat) : List Nat := (List.range n).map (fun j => leNat ((d.drop (4 * j)).take 4))
/-- A halt picture (36 words from 0x200) shows the chip stopped. -/
def picStopped (p : List Nat) : Bool :=
  bit (p.getD 0 0) 0 && (p.getD 1 0 ||| p.getD 2 0) == allOnes32 && (List.range 16).all (fun n => (p.getD (4 + n) 0 ||| p.getD (20 + n) 0) == allOnes32)
/-- Engines a halt picture shows not still, a word a cluster. -/
def picPend (p : List Nat) : List Nat := (List.range 16).map (fun n => allOnes32 - p.getD (20 + n) 0)
/-- The lowest engine of a list of cluster words; 0 with none. -/
def lowestEngine (l : List Nat) : Nat := ((List.range 512).find? (fun e => bit (l.getD (e / 32) 0) (e % 32))).getD 0
/-- Note a halt picture read at fabric time `t`. -/
def CutChip.picture (c : CutChip) (t : Nat) (p : List Nat) : CutChip :=
  let q := picPend p
  if picStopped p then
    let c := { c with halt := if c.stopped then c.halt else p.getD 0 0 % 16, stopped := true }
    if q.all (· == 0) && c.stillAt.isNone then { c with stillAt := some t, slow := lowestEngine c.pend, pend := q } else { c with pend := q }
  else { c with pend := q }
/-- Covered: PRESENT and not absent. -/
def CutChip.covered (c : CutChip) : Bool := c.absent.isNone
/-- The status a lost chip gives (R421, R432). -/
def lostStatus (e : Status) : Status := if e = .chainDown then .chainDown else .chipAbsent
def Cut.chip? (c : Cut) (f : Nat) : Option CutChip := c.chips.find? (fun x => x.f == f)
def Cut.covers (c : Cut) (f : Nat) : Bool := match c.chip? f with | some x => x.covered | none => false
def Cut.mapChips (c : Cut) (g : CutChip → CutChip) : Cut := { c with chips := c.chips.map g }
/-- Covered chips' fabric addresses. -/
def Cut.coveredList (c : Cut) : List Nat := (c.chips.filter (fun x => x.covered)).map (fun x => x.f)
/-- Positions that have left reach or been reset since they were covered are absent (R432). -/
def State.cutRefresh (s : State) : State :=
  { s with cut := s.cut.mapChips (fun x => if x.covered then { x with absent := (s.issueStatus x.f).map lostStatus } else x) }
/-- A register run of chip `f` as a chain controller reads it now; `none` when the chip does not answer (log entry 25). -/
def State.ctlRead (s : State) (f a n : Nat) : Option (List Nat) :=
  match s.issueStatus f with
  | some _ => none
  | none => if (s.chip f).inReset then none else some (wordsOf ((s.chip f).regs (s.chipTime f) a n).1 n)

/-! ### Phases of reads: what chip `f` gave in phase `ph` -/

/-- Issue the operations of one phase for a chip, noting where they begin. -/
def Item.phase (i : Item) (ph f : Nat) (ks : List OpK) : Item := { i.push ks with x := tput 0 i.x (3000 + 128 * ph + f) (i.nextIx + 1) }
/-- Data of operation `m` of chip `f` in phase `ph`; empty when it was not read or failed. -/
def Item.got (i : Item) (ph f m : Nat) : List Byte :=
  match tget 0 i.x (3000 + 128 * ph + f) with
  | 0 => []
  | n + 1 => if i.opOk (n + m) then tget [] i.rep (n + m) else []
/-- A status met by one of the `k` operations of chip `f` in phase `ph`. -/
def Item.lost (i : Item) (ph f k : Nat) : Option Status :=
  match tget 0 i.x (3000 + 128 * ph + f) with
  | 0 => none
  | n + 1 => ((List.range k).filterMap (fun m => i.opStatus (n + m))).head?
/-- Chips lost in phase `ph` become absent. -/
def Cut.lose (c : Cut) (i : Item) (ph k : Nat) : Cut :=
  c.mapChips (fun x => if x.covered then { x with absent := (i.lost ph x.f k).map lostStatus } else x)

/-! ### Ledgers and snapshots (R420, R425) -/

/-- TX and RX of link `l` of chip `f`. -/
def Item.tx (i : Item) (f l : Nat) : Nat := leNat (((i.got 1 f 0).drop (8 * l)).take 4)
def Item.rx (i : Item) (f l : Nat) : Nat := leNat (((i.got 1 f 0).drop (8 * l + 4)).take 4)
/-- The 8,704 bytes of unit entries of chip `f`. -/
def Item.snap (i : Item) (f : Nat) : List Byte := i.got 1 f 1 ++ i.got 1 f 2 ++ i.got 1 f 3
/-- STATE of core or engine entry `u`, 0–543, of a snapshot. -/
def snapState (d : List Byte) (u : Nat) : Nat := fld (leNat ((d.drop (16 * u)).take 1)) 0 3
def snapCount (d : List Byte) (lo n : Nat) (p : Nat → Bool) : Nat := ((List.range n).filter (fun j => p (snapState d (lo + j)))).length
/-- Engines FORCED, and engines IDLE or MUFFLED, of a chip. -/
def Item.forcedOf (i : Item) (f : Nat) : Nat := snapCount (i.snap f) 32 512 (· == 4)
def Item.drainedOf (i : Item) (f : Nat) : Nat := snapCount (i.snap f) 32 512 (fun x => x == 0 || x == 3)

/-! ### Pairs (R420, R431) -/

/-- The topology copy's peer of link `l` of chip `f`, when it holds one. -/
def State.topoPeer (s : State) (f l : Nat) : Option (Nat × Nat) :=
  let t := s.topo f
  let w := t.links.getD l 0
  if t.known && bit w 7 then some (fld w 0 7, fld w 8 4) else none
/-- PAIR: 0 BALANCED, 1 MISMATCH, 2 BOUNDARY, 3 UNPAIRED, with the peer of a judged pair. -/
def State.pairOf (s : State) (i : Item) (f l : Nat) : Nat × Nat × Nat :=
  match s.topoPeer f l with
  | none => (3, 0, 0)
  | some (g, m) =>
    if bit (s.topo f).mismatch l then (3, 0, 0)
    else if !s.cut.covers g then (2, 0, 0)
    else (if i.tx f l = i.rx g m ∧ i.tx g m = i.rx f l then 0 else 1, g, m)
def State.judged (s : State) (i : Item) (f l : Nat) : Bool := (s.pairOf i f l).1 < 2
/-- A difference of two counters, signed, saturating at ±32,767, in 16 bits. -/
def diff16 (a b : Nat) : Nat :=
  let d : Int := (Int.ofNat a - Int.ofNat b) % (2 ^ 32)
  let d := if (2 : Int) ^ 31 ≤ d then d - 2 ^ 32 else d
  let d := if 32767 < d then 32767 else if d < -32767 then -32767 else d
  (d % 65536).toNat
def State.diffTx (s : State) (i : Item) (f l : Nat) : Nat :=
  let p := s.pairOf i f l
  if p.1 < 2 then diff16 (i.tx f l) (i.rx p.2.1 p.2.2) else 0
def State.diffRx (s : State) (i : Item) (f l : Nat) : Nat :=
  let p := s.pairOf i f l
  if p.1 < 2 then diff16 (i.tx p.2.1 p.2.2) (i.rx f l) else 0
/-- Every endpoint of the covered chips. -/
def Cut.endpoints (c : Cut) : List (Nat × Nat) := (c.coveredList.map (fun f => (List.range 12).map (fun l => (f, l)))).flatten
/-- Number of different pairs among endpoints. -/
def State.pairCount (s : State) (i : Item) (l : List (Nat × Nat)) : Nat :=
  ((l.map (fun e =>
    let p := s.pairOf i e.1 e.2
    let a := 12 * e.1 + e.2
    let b := 12 * p.2.1 + p.2.2
    (Nat.min a b, Nat.max a b))).eraseDups).length
/-- A MISMATCH pair decides the outcome unless a chip of it resumed (R431). -/
def State.decides (s : State) (i : Item) (e : Nat × Nat) : Bool :=
  let p := s.pairOf i e.1 e.2
  let up := fun f => match s.cut.chip? f with | some x => x.resumed | none => false
  p.1 == 1 && !up e.1 && !up p.2.1
def Cut.resumedAny (c : Cut) : Bool := c.chips.any (fun x => x.covered && x.resumed)

/-! ### Shard-map fields (R423, R26, R32, R33) -/

/-- WDA_SMAP_BASE as read. -/
def smapBase (d : List Byte) : Nat := let lo := leNat (d.take 4); lo - lo % 64 + fld (leNat (d.drop 4)) 0 8 * 2 ^ 32
def Item.root (i : Item) (f : Nat) : List Byte := i.got 3 f 0
def Item.rootField (i : Item) (f o n : Nat) : Nat := leNat (((i.root f).drop o).take n)
/-- The 64-byte units to read for the PHASE_ID of slot `k`, and the address of the field. -/
def Item.slotAddr (i : Item) (f k : Nat) : Nat := i.rootField f (0x10 + 8 * k) 8 % 2 ^ 40
def slotRead (f a : Nat) : OpK := .rd f (a - a % 64) (if a % 64 ≤ 60 then 64 else 128)
/-- PHASE_ID of the slot that bit 0 of ACTIVE names (`other` false) or of the other one. -/
def Item.phaseId (i : Item) (f : Nat) (other : Bool) : Nat :=
  let k := (i.rootField f 0xC 1 + b2n other) % 2
  leNat (((i.got 4 f k).drop (i.slotAddr f k % 64)).take 4)
def Item.smapRead (i : Item) (f : Nat) : Bool := !(i.root f).isEmpty && !(i.got 4 f 0).isEmpty && !(i.got 4 f 1).isEmpty
/-- ACTIVE or RESHARD departs from R32: the fields are open (R41, R423). -/
def Item.smapBad (i : Item) (f : Nat) : Bool := i.smapRead f && (2 ≤ i.rootField f 0xC 1 || 2 ≤ i.rootField f 0xD 1)
/-- Bytes 0x08–0x1F of a chip block's header. -/
def Item.smapFields (i : Item) (f : Nat) : List Byte :=
  if i.smapRead f then
    leBytes 8 (smapBase (i.got 2 f 0)) ++ leBytes 4 (i.rootField f 8 4) ++ leBytes 1 (i.rootField f 0xC 1) ++ leBytes 1 (i.rootField f 0xD 1) ++ zeros 2 ++
    leBytes 4 (i.phaseId f false) ++ leBytes 4 (i.phaseId f true)
  else zeros 24
/-- EPOCH_SPLIT. -/
def State.epochSplit (s : State) (i : Item) : Bool :=
  let l := (s.cut.coveredList.filter (fun f => i.smapRead f)).map (fun f => (i.rootField f 8 4, i.phaseId f false))
  l.any (fun a => l.any (fun b => a != b))

/-! ### Layout (R427, R428) -/

def blockSize (units : Bool) : Nat := if units then 8960 else 256
/-- Replace bytes of a list from offset `o`. -/
def setBytes (l : List Byte) (o : Nat) (b : List Byte) : List Byte := l.take o ++ b ++ l.drop (o + b.length)
/-- Fabric addresses of the chains of the mask. -/
def maskFabrics (m : Nat) : List Nat := chipsOf m (fun _ => true)
def drainNs (c : Cut) (x : CutChip) : Nat := match x.stillAt with | some t => Nat.min (t - c.ref) allOnes32 | none => 0
/-- A chip block's header (Table 14.4), with its shard-map fields. -/
def State.blockHeader (s : State) (i : Item) (f : Nat) (smap : List Byte) : List Byte :=
  match s.cut.chip? f with
  | none => leBytes 1 f ++ zeros 63
  | some x =>
    if !x.covered then leBytes 1 f ++ leBytes 1 1 ++ zeros 62
    else
      let mis := (List.range 12).any (fun l => (s.pairOf i f l).1 == 1)
      let flags := 3 + place (b2n x.resumed) 2 1 + place (b2n (i.forcedOf f != 0)) 3 1 + place (b2n mis) 4 1 + place (b2n (i.smapRead f)) 5 1 +
        place (b2n (i.smapRead f && i.rootField f 8 4 % 2 == 1)) 6 1 + place (b2n x.resumed) 7 1
      leBytes 1 f ++ leBytes 1 flags ++ leBytes 1 x.halt ++ zeros 1 ++ leBytes 2 (i.forcedOf f) ++
      leBytes 1 (snapCount (i.snap f) 0 32 (fun v => v == 1 || v == 2)) ++ leBytes 1 (snapCount (i.snap f) 0 32 (· == 3)) ++ smap ++
      leBytes 4 (drainNs s.cut x) ++ zeros 28
/-- A ledger entry (Table 14.5). -/
def State.ledgerEntry (s : State) (i : Item) (f l : Nat) : List Byte :=
  let peer := (s.topoPeer f l).getD (0x7F, 0)
  let st := match s.cut.chip? f with | some x => x.links.getD l 0 | none => 0
  leBytes 4 (i.tx f l) ++ leBytes 4 (i.rx f l) ++ leBytes 1 peer.1 ++ leBytes 1 peer.2 ++ leBytes 1 st ++ leBytes 1 (s.pairOf i f l).1 ++
  leBytes 2 (s.diffTx i f l) ++ leBytes 2 (s.diffRx i f l)
/-- A chip block: header and ledgers, and unit entries; of a position not covered its header alone. -/
def State.chipBlock (s : State) (i : Item) (f : Nat) (smap : List Byte) (units : Bool) : List Byte :=
  if s.cut.covers f then
    s.blockHeader i f smap ++ ((List.range 12).map (s.ledgerEntry i f)).flatten ++ (if units then i.snap f else [])
  else s.blockHeader i f smap
/-- Key under which the place of a buffer's read is kept. -/
def bufKey (f l : Nat) : Nat := 4000 + 12 * f + l
def Item.bufData (i : Item) (f l : Nat) : List Byte :=
  match tget 0 i.x (bufKey f l) with
  | 0 => []
  | n + 1 => if i.opOk n then tget [] i.rep n else []
/-- Endpoints whose buffers were captured. -/
def State.bufList (s : State) (i : Item) : List (Nat × Nat) := s.cut.endpoints.filter (fun e => !(i.bufData e.1 e.2).isEmpty)
def State.bufRecord (s : State) (i : Item) (e : Nat × Nat) : List Byte :=
  leBytes 1 e.1 ++ leBytes 1 e.2 ++ zeros 2 ++ leBytes 2 (s.diffTx i e.1 e.2) ++ leBytes 2 (s.diffRx i e.1 e.2) ++ zeros 8 ++ i.bufData e.1 e.2
/-- A map of fabric addresses, 16 bytes. -/
def fabMap (p : Nat → Bool) : List Byte := leBytes 16 (maskOf 128 p)
/-- OUTCOME (R421). `ok` false: the cut ended at step 3. -/
def State.cutOutcome (s : State) (i : Item) (ok : Bool) : Nat :=
  place (b2n (s.cut.chips.any (fun x => !x.covered))) 3 1 +
  (if ok then
    b2n (s.cut.coveredList.any (fun f => i.forcedOf f != 0)) + place (b2n (s.cut.endpoints.any (s.decides i))) 1 1 + place (b2n s.cut.resumedAny) 2 1
   else 4)
/-- Statuses of the outcome (R421). -/
def State.cutStatuses (s : State) (i : Item) (ok : Bool) : List Status :=
  let o := s.cutOutcome i ok
  s.cut.chips.filterMap (fun x => x.absent) ++ (if bit o 0 then [.forcedCut] else []) ++ (if bit o 1 then [.ledgerMismatch] else []) ++
  (if bit o 2 then [.aborted] else [])
/-- The engine found still last: the latest time, then the lowest packed address. -/
def Cut.slowest (c : Cut) : Option CutChip :=
  (c.chips.filter (fun x => x.covered && x.stillAt.isSome)).foldl (fun m x =>
    match m with
    | none => some x
    | some y => if y.stillAt.getD 0 < x.stillAt.getD 0 then some x else m) none
/-- The summary record (Table 14.3), END_TIME 0. -/
def State.cutSummary (s : State) (i : Item) (ok : Bool) (units trunc split : Bool) (status : Nat) : List Byte :=
  let c := s.cut
  let d := i.desc
  let eps := c.endpoints
  let mis := if ok then eps.filter (fun e => (s.pairOf i e.1 e.2).1 == 1) else []
  let bufs := s.bufList i
  let cov := c.coveredList
  let late := fun f => match c.chip? f with | some x => x.covered && (x.resumed || !x.stopped) | none => false
  let flags := b2n units + place (b2n (!bufs.isEmpty)) 1 1 + place (b2n trunc) 2 1 + place (b2n split) 3 1 + place (b2n c.resumedAny) 4 1 + place (dbits d 0x11 2 1) 5 1
  let forced := if ok then (cov.map (fun f => i.forcedOf f)).sum else 0
  let drained := if ok then (cov.map (fun f => i.drainedOf f)).sum else 0
  let sl := if ok then c.slowest else none
  leBytes 4 0x31545543 ++ leBytes 2 1 ++ leBytes 2 flags ++ leBytes 4 (if ok then c.lastId else 0) ++ leBytes 1 (s.cutOutcome i ok) ++
  leBytes 1 (db d 0x10 1) ++ leBytes 1 status ++ zeros 1 ++ leBytes 8 c.ref ++ leBytes 8 c.start ++ leBytes 8 (if ok then c.drained else 0) ++ zeros 8 ++
  leBytes 4 c.drainUs ++ leBytes 4 (blockSize units) ++ leBytes 2 cov.length ++ leBytes 2 (c.chips.filter (fun x => !x.covered)).length ++
  leBytes 2 (cov.filter late).length ++ zeros 2 ++ leBytes 4 drained ++ leBytes 4 forced ++
  leBytes 2 (if ok then s.pairCount i (eps.filter (fun e => s.judged i e.1 e.2)) else 0) ++ leBytes 2 (s.pairCount i mis) ++
  leBytes 2 (if ok then (eps.filter (fun e => (s.pairOf i e.1 e.2).1 == 2)).length else 0) ++
  leBytes 2 (c.chips.map (fun x => if x.covered then ((List.range 12).filter (fun l => x.awaited.getD l false && x.links.getD l 0 != 3)).length else 0)).sum ++
  leBytes 2 bufs.length ++
  leBytes 2 (if dbits d 0x11 1 1 = 1 then (mis.filter (fun e => !(bit i.fullMask e.1 && bit i.fullMask (s.pairOf i e.1 e.2).2.1))).length else 0) ++ zeros 12 ++
  fabMap late ++ fabMap (fun f => ok && c.covers f && i.forcedOf f != 0) ++ fabMap (fun f => mis.any (fun e => e.1 == f)) ++
  fabMap (fun f => match c.chip? f with | some x => !x.covered | none => false) ++
  leBytes 4 (match sl with | some x => engUnit x.f x.slow | none => 0) ++ leBytes 4 (match sl with | some x => drainNs c x | none => 0) ++ zeros 88
/-- The summary with its END_TIME. -/
def endTime (d : List Byte) (t : Nat) : List Byte := setBytes d 0x28 (leBytes 8 t)
/-- DETAIL (R426). -/
def State.cutDetail (s : State) (i : Item) (ok : Bool) : Nat :=
  let mis := s.cut.endpoints.filter (fun e => (s.pairOf i e.1 e.2).1 == 1)
  (if ok then Nat.min (s.cut.coveredList.map (fun f => i.forcedOf f)).sum 65535 else 0) + place s.cut.coveredList.length 16 8 +
  (if ok then place (Nat.min (s.pairCount i mis) 255) 24 8 else 0)
/-- The retained cut's place in the staging SRAM (Table 2.14). -/
def cutSram : Nat := 0x540000

end Sys2Proof.Machine
end

