-- ==== Sys2Proof/Machine/Cut.lean ====
section
/-! DEFINITION. CUT_COLLECT and what the chain controllers do for it without strokes (R416–R434). -/

namespace Sys2Proof.Machine

/-! ### The chain controllers' part (R416, R418, R419, R432) -/

def State.setCut (s : State) (c : Cut) : State := { s with cut := c }
/-- The CUT_COLLECT that waits for the controllers goes on. -/
def State.cutWake (s : State) : State :=
  s.mapItems (fun _ i => if opcodeOf i.desc = 0x18 ∧ i.wait = .ctl none then Item.mark s.now i { i with wait := Wait.no } else i)
/-- Change chip `f` of the collection. -/
def Cut.modChip (c : Cut) (f : Nat) (g : CutChip → CutChip) : Cut := c.mapChips (fun x => if x.f = f then g x else x)
/-- The stopped check of a chip has its answer. -/
def CutChip.checked (x : CutChip) : Bool := !x.covered || x.stopped || 10 ≤ x.reads
/-- CUT_STOPPED_POLL of chip `f`: the next read of its halt picture (R416). -/
def State.cutStoppedPoll (s : State) (f : Nat) : State :=
  match s.cut.chip? f with
  | none => s
  | some x =>
    if s.cut.phase ≠ 1 ∨ x.checked ∨ s.time < x.due ∨ !s.fastClock ∨ !(s.chain (f / 16)).tagFree true then s
    else
      let y := match s.ctlRead f (wdaBase + 0x200) 36 with
        | none => { x with absent := some (lostStatus ((s.issueStatus f).getD .chipAbsent)) }
        | some p => { x.picture s.time p with reads := x.reads + 1, due := s.time + 1000 }
      let c := s.cut.modChip f (fun _ => y)
      let s := s.setCut c
      if c.chips.all CutChip.checked then s.cutWake else s
/-- The chains of the chips that `p` picks have a tag, a reserved one at least, for the controllers (R62, R418). -/
def State.cutTags (s : State) (p : CutChip → Bool) : Bool := s.cut.chips.all (fun x => !p x || (s.chain (x.f / 16)).tagFree true)
/-- A chip still being drained. -/
def CutChip.draining (x : CutChip) : Bool := x.covered && !x.resumed && x.stillAt.isNone
/-- Every covered engine has been found still: DRAINED_TIME (R418). -/
def State.drainDone (s : State) : State :=
  let t := ((s.cut.chips.filter CutChip.covered).filterMap (fun x => x.stillAt)).foldl Nat.max 0
  s.setCut { s.cut with phase := 0, drained := if t = 0 then s.time else t }
/-- DRAIN_POLL: the halt picture of every chip not yet still (R418, R431). -/
def State.drainPoll (s : State) : State :=
  if s.cut.phase ≠ 2 ∨ s.time < s.cut.pollDue ∨ !s.fastClock ∨ !s.cutTags CutChip.draining then s
  else
    let c := s.cut.mapChips (fun x =>
      if x.draining then
        match s.ctlRead x.f (wdaBase + 0x200) 36 with
        | none => { x with absent := some (lostStatus ((s.issueStatus x.f).getD .chipAbsent)) }
        | some p => if picStopped p then x.picture s.time p else { x with resumed := true }
      else x)
    let s := s.setCut { c with pollDue := s.time + 1000 }
    if c.chips.any CutChip.draining then s else s.drainDone.cutWake
/-- DRAIN_DEADLINE: WDA_FORCE to every chip with an engine not still (R417, R418). A read due in this cycle wins (R434). -/
def State.drainDeadline (s : State) : State :=
  let s := s.drainPoll
  if s.cut.phase = 2 ∧ !s.cut.forced ∧ s.cut.ref + 1000 * s.cut.drainUs ≤ s.time ∧ s.fastClock ∧ s.cutTags CutChip.draining then
    let fs := (s.cut.chips.filter CutChip.draining).map (fun x => x.f)
    fs.foldl (fun s f => s.ctlWrite f (wdaBase + 0x400) 1) (s.setCut { s.cut with forced := true })
  else s
/-- Endpoint `l` of chip `f` belongs to a pair R420 will judge. -/
def State.awaitable (s : State) (f l : Nat) : Bool :=
  match s.topoPeer f l with
  | some (g, _) => !bit (s.topo f).mismatch l && s.cut.covers g
  | none => false
/-- Every awaited link of a chip is MUFFLED. -/
def CutChip.muffled (x : CutChip) : Bool := !x.covered || (x.awaited.length == 12 && (List.range 12).all (fun l => !x.awaited.getD l false || x.links.getD l 0 == 3))
/-- LINK_POLL: WDA_LINK_0–11 of every covered chip (R419). -/
def State.linkPoll (s : State) : State :=
  if s.cut.phase ≠ 3 ∨ s.time < s.cut.pollDue ∨ !s.fastClock ∨ !s.cutTags CutChip.covered then s
  else
    let c := s.cut.mapChips (fun x =>
      if x.covered then
        match s.ctlRead x.f (wdaBase + 0x100) 12 with
        | none => { x with absent := some (lostStatus ((s.issueStatus x.f).getD .chipAbsent)) }
        | some w =>
          let st := w.map (fun v => fld v 12 2)
          let aw := (List.range 12).map (fun l => s.awaitable x.f l && (if x.awaited.isEmpty then 2 ≤ st.getD l 0 else x.awaited.getD l false))
          { x with links := st, awaited := aw }
      else x)
    let done := c.chips.all CutChip.muffled
    let s := s.setCut { c with pollDue := s.time + 1000, phase := if done then 0 else 3 }
    if done then s.cutWake else s
/-- LINK_LIMIT_EXPIRY: the link poll ends with the STATEs last read (R419), a read due in this cycle among them (R434). -/
def State.linkExpiry (s : State) : State :=
  let s := if s.cut.linkFrom + 1000 * s.cut.linkUs ≤ s.time then s.linkPoll else s
  if s.cut.phase = 3 ∧ s.cut.linkFrom + 1000 * s.cut.linkUs ≤ s.time ∧ s.cut.chips.all (fun x => !x.covered || x.awaited.length == 12) then
    (s.setCut { s.cut with phase := 0 }).cutWake
  else s

/-! ### The descriptor's steps (R426) -/

/-- Step 2: BUSY, the reference instant, the coverage, and the first halt pictures. -/
def State.cutBegin (s : State) (w : Work) (i : Item) : State :=
  let d := i.desc
  let m := db d 0x10 1
  let chips := ((maskFabrics m).filter s.present).map (fun f => ({ f := f, absent := s.issueStatus f } : CutChip))
  let c := { s.cut with busy := true, chips := chips, phase := 0, start := s.time, ref := if dbits d 0x11 2 1 = 1 ∨ s.stopRef = 0 then s.time else s.stopRef,
                        drained := 0, forced := false, linkFrom := 0, pollDue := 0,
                        drainUs := if db d 0x14 4 = 0 then Nat.max s.cut.drainLimit 1 else db d 0x14 4, linkUs := Nat.max s.cut.linkLimit 1 }
  let i := c.coveredList.foldl (fun (i : Item) f => i.phase 0 f [.rd f (wdaBase + 0x200) 144]) { i with x := tput 0 i.x 0 1 }
  (s.setCut c).setItem w { i with stage := 1 }
/-- The first halt pictures have come (R416). -/
def State.cutPictures (s : State) (w : Work) (i : Item) : State :=
  let c := (s.cut.lose i 0 1).mapChips (fun x =>
    if x.covered then { x.picture s.time (wordsOf (i.got 0 x.f 0) 36) with reads := 1, due := s.time + 1000 } else x)
  let ready := c.chips.all CutChip.checked
  (s.setCut { c with phase := if ready then 0 else 1 }).setItem w { i with stage := 2, wait := if ready then Wait.no else .ctl none }
/-- Bytes of a run at offset `o` that fall below `size`. -/
def clip (size o : Nat) (d : List Byte) : List Byte := d.take (size - o)
/-- Step 3: a chip is not stopped. -/
def State.cutNotStopped (s : State) (w : Work) (i : Item) : State :=
  let st := (Status.highest (s.cutStatuses i false)).code
  let size := db i.desc 0x20 4
  let out := db i.desc 0x18 8
  let sum := endTime (s.cutSummary i false (dbits i.desc 0x11 0 1 == 1) (out != 0 && decide (size < 256)) false st) s.time
  let s := s.setCut { s.cut with phase := 0, summary := sum, outcome := s.cutOutcome i false, status := st }
  s.setItem w { (if out = 0 then i else i.push (hostWrites out (clip size 0 sum))) with stage := 20 }
/-- Step 4: the CUT_ID, and the drain. -/
def State.cutDrain (s : State) (w : Work) (i : Item) : State :=
  let busy := s.cut.chips.any CutChip.draining
  let s := s.setCut { s.cut with lastId := (s.cut.lastId + 1) % 2 ^ 32, retained := false, phase := 2, pollDue := s.time + 1000 }
  let s := if busy then s else s.drainDone
  s.setItem w { i with stage := 3, wait := if busy then .ctl none else Wait.no }
/-- Step 5: link muffles. -/
def State.cutMuffle (s : State) (w : Work) (i : Item) : State :=
  let i := s.cut.coveredList.foldl (fun (i : Item) f => i.phase 5 f [regWr f (wdaBase + 0x410) 0xFFF]) i
  s.setItem w { i with stage := 4 }
def State.cutLinks (s : State) (w : Work) (i : Item) : State :=
  let s := s.setCut { s.cut.lose i 5 1 with phase := 3, linkFrom := s.time, pollDue := s.time }
  if s.cut.coveredList = [] then (s.setCut { s.cut with phase := 0 }).setItem w { i with stage := 5 }
  else s.setItem w { i with stage := 5, wait := .ctl none }
/-- Step 6: ledgers, snapshots, and with FULL the shard-map base. -/
def State.cutReads (s : State) (w : Work) (i : Item) : State :=
  let i := s.cut.coveredList.foldl (fun (i : Item) f =>
    let i := i.phase 1 f [.rd f (wdaBase + 0x440) 96, .rd f (wdaBase + 0x4000) 4096, .rd f (wdaBase + 0x5000) 4096, .rd f (wdaBase + 0x6000) 512]
    if bit i.fullMask f then i.phase 2 f [.rd f (wdaBase + 0x10) 8] else i) i
  s.setItem w { i with stage := 6 }
def State.cutRoots (s : State) (w : Work) (i : Item) : State :=
  let s := s.setCut ((s.cut.lose i 1 4).lose i 2 1)
  let i := s.cut.coveredList.foldl (fun (i : Item) f =>
    let b := smapBase (i.got 2 f 0)
    if b = 0 then i else i.phase 3 f [.rd f b 64]) i
  s.setItem w { i with stage := 7 }
def State.cutSlots (s : State) (w : Work) (i : Item) : State :=
  let s := s.setCut (s.cut.lose i 3 1)
  let i := s.cut.coveredList.foldl (fun (i : Item) f =>
    if (i.root f).isEmpty then i else i.phase 4 f [slotRead f (i.slotAddr f 0), slotRead f (i.slotAddr f 1)]) i
  let i := s.cut.coveredList.foldl (fun (i : Item) f => i.phase 6 f [.rd f (wdaBase + 0x200) 144]) i
  s.setItem w { i with stage := 8 }
/-- Step 7: the chips resumed are known; the buffers of MISMATCH pairs are read where R422 allows. -/
def State.cutBuffers (s : State) (w : Work) (i : Item) : State :=
  let s := (s.setCut ((s.cut.lose i 4 2).lose i 6 1)).cutRefresh
  let s := s.setCut (s.cut.mapChips (fun x => if x.covered && !picStopped (wordsOf (i.got 6 x.f 0) 36) then { x with resumed := true } else x))
  let want := if dbits i.desc 0x11 1 1 = 1 then
      s.cut.endpoints.filter (fun e => let p := s.pairOf i e.1 e.2; p.1 == 1 && bit i.fullMask e.1 && bit i.fullMask p.2.1)
    else []
  let i := want.foldl (fun (i : Item) e =>
    { i.push [.rd e.1 (wdaBase + 0x8000 + 0x800 * e.2) 2048] with x := tput 0 i.x (bufKey e.1 e.2) (i.nextIx + 1) }) i
  s.setItem w { i with stage := 9 }
/-- Free bytes for the shard-map fields of chips whose root departs from R32, and for EPOCH_SPLIT with them. -/
def State.cutOpen (s : State) (i : Item) : List (Nat × List Byte) × Bool × State :=
  let bad := s.cut.coveredList.filter (fun f => i.smapBad f)
  let r := bad.foldl (fun (p : List (Nat × List Byte) × State) f =>
    let v := p.2.freeWide 192
    (p.1 ++ [(f, leBytes 24 v.1.toNat)], v.2)) ([], s)
  if bad = [] then (r.1, s.epochSplit i, r.2) else let b := r.2.free; (r.1, b.1.getLsbD 0, b.2)
/-- Chips whose buffers could not be read, and those gone since, are absent (R432). -/
def State.cutLost (s : State) (i : Item) : State :=
  (s.setCut (s.cut.mapChips (fun x =>
    if x.covered then
      { x with absent := ((((List.range 12).filterMap (fun l =>
          match tget 0 i.x (bufKey x.f l) with | 0 => none | n + 1 => i.opStatus n)).head?).map lostStatus) }
    else x))).cutRefresh
/-- Step 8: the output is formed and written, stopping at OUT_SIZE. The retained cut's blocks and buffers are kept under
5000, its summary under 5001 and the host's under 5002, END_TIME still to come. -/
def State.cutWrite (s : State) (w : Work) (i : Item) : State :=
  let o := (s.cutLost i).cutOpen i
  let s := o.2.2
  let d := i.desc
  let units := dbits d 0x11 0 1 == 1
  let out := db d 0x18 8
  let size := db d 0x20 4
  let fs := maskFabrics (db d 0x10 1)
  let smap := fun f => ((o.1.find? (fun p => p.1 == f)).map (fun p => p.2)).getD (i.smapFields f)
  let bufs := (s.bufList i).map (s.bufRecord i)
  let st := (Status.highest (s.cutStatuses i true)).code
  let bs := blockSize units
  let pieces := (fs.zipIdx.map (fun p => (256 + bs * p.2, s.chipBlock i p.1 (smap p.1) units))) ++
    bufs.zipIdx.map (fun p => (256 + bs * fs.length + 2064 * p.2, p.1))
  let total := 256 + bs * fs.length + 2064 * bufs.length
  let body := (fs.map (fun f => let b := s.chipBlock i f (smap f) true; b ++ zeros (8960 - b.length))).flatten ++ bufs.flatten
  let trunc := out != 0 && decide (size < total)
  let i := { i with rep := tput [] (tput [] (tput [] i.rep 5000 body) 5001 (s.cutSummary i true true false o.2.1 st)) 5002 (s.cutSummary i true units trunc o.2.1 st)
                    detail := s.cutDetail i true }
  s.setItem w { (if out = 0 then i else i.push ((pieces.map (fun p => hostWrites (out + p.1) (clip size p.1 p.2))).flatten)) with stage := 10 }
/-- CUT_SUMMARY and the retained cut are completed, at END_TIME. -/
def State.cutRetain (s : State) (i : Item) (status : Nat) : State :=
  let stamp := fun (d : List Byte) => setBytes (endTime d s.time) 0xE (leBytes 1 status)
  let sum := stamp (tget [] i.rep 5002)
  { s with sram := mwrite s.sram cutSram (stamp (tget [] i.rep 5001) ++ tget [] i.rep 5000)
           cut := { s.cut with retained := true, summary := sum, outcome := leNat ((sum.drop 0xC).take 1), status := status } }
/-- The summary record is formed and written. -/
def State.cutSummarise (s : State) (w : Work) (i : Item) : State :=
  let s := s.cutRetain i (Status.highest (i.errs ++ s.cutStatuses i true)).code
  let out := db i.desc 0x18 8
  s.setItem w { (if out = 0 then i else i.push (hostWrites out (clip (db i.desc 0x20 4) 0 s.cut.summary))) with stage := 11 }
/-- Step 9: source 170 activates, and the descriptor ends. -/
def State.cutEnd (s : State) (w : Work) (i : Item) (ok : Bool) : State :=
  let errs := i.errs ++ s.cutStatuses i ok
  let st := (Status.highest errs).code
  let s := s.setCut { s.cut with busy := false, status := st }
  let s := s.activate 170 ((if ok then s.cut.lastId else 0) + place s.cut.outcome 32 4 + place st 40 8 + place (db i.desc 0x10 1) 48 8)
  s.modItem w (fun i => { i.done with errs := errs, detail := if ok then i.detail else s.cutDetail i false })
/-- A read that fails makes its chip absent and is no status of its own; a host write that fails is. -/
def Item.cutClean (i : Item) : Item := { i with errs := i.errs.filter (fun e => e == .aborted) }
def cutAdv : Advance := fun s w i =>
  if i.stage = 0 then (if s.cut.busy then s.setItem w { i.fail .aborted with detail := allOnes32 } else s.cutBegin w i)
  else
    let i := i.cutClean
    if i.stage = 1 then s.cutPictures w i
    else if i.stage = 2 then (if s.cut.chips.any (fun x => x.covered && !x.stopped) then s.cutNotStopped w i else s.cutDrain w i)
    else if i.stage = 3 then s.cutMuffle w i
    else if i.stage = 4 then s.cutLinks w i
    else if i.stage = 5 then s.cutReads w i
    else if i.stage = 6 then s.cutRoots w i
    else if i.stage = 7 then s.cutSlots w i
    else if i.stage = 8 then s.cutBuffers w i
    else if i.stage = 9 then s.cutWrite w i
    else if i.stage = 10 then s.cutSummarise w i
    else s.cutEnd w i (i.stage != 20)
/-- The end of a CUT_COLLECT that did not reach step 9 (R433). -/
def cutRep : Report := fun s _ i st =>
  if tget 0 i.x 0 = 0 ∨ i.stage = doneStage then (s, i.detail, 0)
  else
    let s := s.setCut { s.cut with busy := false, phase := 0 }
    if st = .translationFault then
      (if 10 ≤ i.stage ∧ i.stage < 20 then (s.cutRetain i st.code, i.detail, 0) else (s.setCut { s.cut with status := st.code }, i.detail, 0))
    else (s.setCut { s.cut with retained := false, status := 1 }, 0, 0)

/-! ### Commands -/

/-- CUT_COLLECT (R416–R433). -/
def execCutCollect (e : Nat) (s : State) : Out := s.row e 0x18 noCheck cutAdv cutRep
/-- CUT_STOPPED_POLL (R416, R432). -/
def execCutStoppedPoll (f : Nat) (s : State) : Out := .next (s.cutStoppedPoll f)
/-- DRAIN_POLL (R418, R431, R432). -/
def execDrainPoll (s : State) : Out := .next s.drainPoll
/-- DRAIN_DEADLINE (R417, R418, R434). -/
def execDrainDeadline (s : State) : Out := .next s.drainDeadline
/-- LINK_POLL (R419, R432). -/
def execLinkPoll (s : State) : Out := .next s.linkPoll
/-- LINK_LIMIT_EXPIRY (R419, R434). -/
def execLinkLimitExpiry (s : State) : Out := .next s.linkExpiry

end Sys2Proof.Machine
end

