-- ==== Sys2Proof/Machine/Access.lean ====
section
/-! DEFINITION. Single access to unit state and memory: READ_REG, WRITE_REG, READ_MEM, WRITE_MEM, INSTALL_MONITOR, and the
exchange with a core's monitor (R436, R447–R451, R151, R152, R157, R522). -/

namespace Sys2Proof.Machine

/-! ### The exchange with a monitor (R436, Table 15.1) -/

/-- Keys of an exchange in an item: unit 20, first word 21, count 22, write 23, value 24, words done 25, reply awaited 26,
deadline 27, final status code + 1 at 28, in progress 29. Words read are kept under 7000. -/
def Item.askMonitor (i : Item) (now unit first count : Nat) (write : Bool) (v : Nat) : Item :=
  let x := [(20, unit), (21, first), (22, count), (23, b2n write), (24, v), (25, 0), (26, 0), (27, 0), (28, 0), (29, 1)].foldl
    (fun x (p : Nat × Nat) => tput 0 x p.1 p.2) i.x
  { i with x := x, wait := .ctl (some now) }
/-- The exchange ends with a status. -/
def Item.monitorEnd (i : Item) (e : Option Status) : Item :=
  { i with wait := Wait.no, x := tput 0 (tput 0 (tput 0 i.x 6 0) 29 0) 28 ((match e with | some x => x.code | none => 0) + 1) }
/-- How the exchange ended. -/
def Item.monitorStatus (i : Item) : Option Status :=
  match tget 0 i.x 28 with
  | 0 => none
  | n + 1 => if n = 0 then none else some (Status.ofCode n)
/-- The words read so far, in order. -/
def Item.monitorWords (i : Item) (n : Nat) : List Nat := (List.range n).map (fun j => leNat (tget [] i.rep (7000 + j)))
/-- The command word for context word `j`, and the value after it for a write. -/
def Item.monitorAsk (i : Item) (c : Chip) (n : Nat) : Chip :=
  let j := (tget 0 i.x 21 + tget 0 i.x 25) % 64
  if tget 0 i.x 23 = 1 then (c.coreWrite n 0x80 (0x20000000 + j)).coreWrite n 0x80 (tget 0 i.x 24)
  else c.coreWrite n 0x80 (0x10000000 + j)
/-- One action of the chain controller: the next command word, or a poll of OUT_FULL (log entry 25). -/
def State.monitorStep (s : State) (w : Work) (i : Item) : State :=
  let f := tget 0 i.x 20 / 1024
  let n := tget 0 i.x 20 % 512
  match s.issueStatus f with
  | some e => s.updItem w (fun i => i.monitorEnd (some e))
  | none =>
    let c := s.chip f
    if c.inReset then s.updItem w (fun i => i.monitorEnd (some .chipAbsent))
    else if tget 0 i.x 26 = 0 then
      if tget 0 i.x 25 = 0 ∧ (c.core n).state ≠ CoreState.monitor then s.updItem w (fun i => i.monitorEnd (some .aborted))
      else (s.chipOp f (fun c => i.monitorAsk c n)).updItem w (fun i =>
        { i with wait := .ctl (some (s.now + 1000)), x := tput 0 (tput 0 (tput 0 i.x 26 1) 27 (s.now + 50000)) 6 (coreUnit f n + 1) })
    else
    let op := (c.core n).wild || (c.core n).odd == 1 || c.mbxOpen
    let r := if op then s.free else (0, s)
    let s := r.2
    if (if op then r.1.getLsbD 32 else (c.core n).outFull) then
      let v := if op then r.1.toNat % 2 ^ 32 else (c.core n).mbxOut.toNat
      let s := s.chipOp f (fun c => c.setCore n ((c.core n).readFx 0x84))
      let k := tget 0 i.x 25
      s.updItem w (fun i =>
        let i := { i with rep := tput [] i.rep (7000 + k) (leBytes 4 v), x := tput 0 (tput 0 i.x 25 (k + 1)) 26 0 }
        if k + 1 < tget 0 i.x 22 then { i with wait := .ctl (some s.now) } else i.monitorEnd none)
    else if tget 0 i.x 27 ≤ s.now then s.updItem w (fun i => i.monitorEnd (some .timeout))
    else s.updItem w (fun i => { i with wait := .ctl (some (s.now + 1000)) })
/-- MONITOR_REPLY_POLL of the work item with number `n`. -/
def State.monitorPoll (s : State) (n : Nat) : State :=
  let w := workOf n
  match s.item? w with
  | none => s
  | some i =>
    match i.wait with
    | .ctl (some t) =>
      if tget 0 i.x 29 = 1 ∧ t ≤ s.now ∧ s.fastClock ∧ (s.chain (tget 0 i.x 20 / 1024)).tagFree w.urgent then s.monitorStep w i else s
    | _ => s

/-! ### READ_REG and WRITE_REG (R449, R450) -/

/-- Words a register access names. -/
def accessCount (d : BitVec 512) : Nat := if opcodeOf d = 0x20 then regCount d else 1
/-- The 8-byte aligned READ that covers the words asked for (R347). -/
def regRead (f a n : Nat) : OpK := .rd f (a - a % 8) (cdiv (a % 8 + 4 * n) 8 * 8)
/-- The first stroke of a context access. -/
def State.ctxAccess (s : State) (w : Work) (i : Item) : State :=
  let d := i.desc
  let u := dbits d 0x14 0 17
  let n := accessCount d
  if bit u 9 then s.setItem w (i.fail .aborted)
  else if n = 0 then s.setItem w i.done
  else if 32 ≤ u % 512 then s.setItem w (i.fail .chipAbsent)
  else
    match s.issueStatus (u / 1024) with
    | some e => s.setItem w (i.fail e)
    | none => s.setItem w { (if ((s.chip (u / 1024)).core (u % 512)).odd = 3 then { i with odd := i.odd ||| 1 } else i).askMonitor s.now u (db d 0x18 8) n (opcodeOf d == 0x21) (db d 0x28 4) with stage := 3 }
/-- The words have come: DETAIL is the last, and OUT_ADDR takes them all. -/
def Item.regsGot (i : Item) (ws : List Nat) : Item :=
  let out := db i.desc 0x20 8
  let i := { i with detail := ws.getLastD 0, stage := 2 }
  if opcodeOf i.desc = 0x21 then { i.done with detail := 0 }
  else if out = 0 then i.done else i.push (hostWrites out (ws.map (leBytes 4)).flatten)
def regAdv : Advance := fun s w i =>
  let d := i.desc
  let a := db d 0x18 8
  let f := dbits d 0x14 10 7
  if i.stage = 0 then
    if dbits d 0x10 0 1 = 1 then s.ctxAccess w i
    else if opcodeOf d = 0x21 then s.setItem w { i.push [regWr f a (db d 0x28 4)] with stage := 2 }
    else if regCount d = 0 then s.setItem w i.done
    else s.setItem w { i.push [regRead f a (regCount d)] with stage := 1 }
  else if i.stage = 1 then
    if i.errs ≠ [] then s.setItem w i.done
    else s.setItem w (i.regsGot (wordsOf ((tget [] i.rep 0).drop (a % 8)) (regCount d)))
  else if i.stage = 3 then
    match i.monitorStatus with
    | some e => s.setItem w (i.fail e)
    | none => s.setItem w (i.regsGot (i.monitorWords (accessCount d)))
  else s.setItem w i.done

/-! ### Region entries (R453) -/

def regionOf (r : List Byte) : Region :=
  let w := fun o n => leNat ((r.drop o).take n)
  { kind := w 0 1, first := w 2 1, last := w 3 1, unitFirst := w 4 2, unitLast := w 6 2, offset := w 8 8, length := w 0x10 8, tag := w 0x18 4, raw := r.take 32 }
/-- Bytes each unit of a region gives. -/
def Region.unitLen (r : Region) : Nat :=
  if r.length ≠ 0 then r.length
  else if r.kind = 2 then 0x40000 - r.offset
  else if r.kind = 3 then 0x10000 - r.offset
  else if r.kind = 5 then 256 else 0
/-- Last unit number of a region's KIND. -/
def Region.top (r : Region) : Nat := if r.kind = 2 then 511 else if r.kind = 3 ∨ r.kind = 5 then 31 else 0
/-- The entry makes a misuse: a reserved byte, KIND, or field outside its range (R469, R522). -/
def Region.odd (r : Region) : Bool :=
  let w := fun o n => leNat ((r.raw.drop o).take n)
  w 1 1 != 0 || w 0x1C 4 != 0 || r.kind == 0 || 5 < r.kind || 127 < r.first || 127 < r.last || r.top < r.unitFirst || r.top < r.unitLast ||
  (r.kind != 5 && (r.offset % 64 != 0 || r.length % 64 != 0)) || (r.kind == 1 && !regRange r.offset) ||
  (r.kind == 5 && 256 < 4 * r.offset + r.unitLen)
/-- What such an entry is taken as, by the free number `n` (R519, scope D). -/
def Region.legal (r : Region) (n : Nat) : Region :=
  let r := if r.kind = 0 ∨ 5 < r.kind then { r with kind := 1 + n % 5 } else r
  let r := { r with first := r.first % 128, last := r.last % 128, unitFirst := Nat.min r.unitFirst r.top, unitLast := Nat.min r.unitLast r.top }
  if r.kind = 5 then (if 256 < 4 * r.offset + r.unitLen then { r with offset := 0, length := 0 } else r)
  else
    let r := { r with offset := r.offset / 64 * 64, length := r.length / 64 * 64 }
    if r.kind = 1 ∧ !regRange r.offset then { r with offset := 0x1020000000 } else r

/-! ### READ_MEM and WRITE_MEM (R447, R448, R451) -/

def memHub (d : BitVec 512) : Bool := dbits d 0x10 0 1 == 1
/-- Bytes moved together from offset `off`: up to the next multiple of 8,192. -/
def batchLen (a len off : Nat) : Nat := Nat.min (len - off) (8192 - (a + off) % 8192)
/-- Pieces of a range that cross no multiple of 4,096: offset and length of each. -/
def memPieces (a n : Nat) : List (Nat × Nat) :=
  let k := Nat.min n (4096 - a % 4096)
  if n = 0 then [] else if k = n then [(0, n)] else [(0, k), (k, n - k)]
/-- Pieces of a byte run that cross no multiple of 4,096. -/
def memPieces4 (a : Nat) (d : List Byte) : Nat → List (Nat × List Byte)
  | 0 => []
  | fuel + 1 => if d = [] then [] else (a, d.take (4096 - a % 4096)) :: memPieces4 (a + (4096 - a % 4096)) (d.drop (4096 - a % 4096)) fuel
/-- Places of the staging SRAM where the spec says what is kept and not at which byte: the trace region, the read-ahead windows, the
shard cache, the resolved lists, and the copies and buffers after the plan slots (Table 2.14, log entry 88). -/
def stageLive (a : Nat) : Bool := a < 0x540000 || (0x980000 ≤ a && a < 0xE80000) || (0xF10000 ≤ a && a < 0x1000000)
/-- Hub content outside the dump store (Table 15.3). A byte at one of those places reads as free, unless the SRAM has been zeroed
and they have not been used since. -/
def State.hubRead (s : State) (a n : Nat) : List Byte :=
  if a < 0x1000000 then
    (mread s.sram a n).zipIdx.map (fun p =>
      if stageLive (a + p.2) && !s.sramClean then (Config.freeValue (s.freeIx + (a + p.2) % 8192)).truncate 8 else p.1)
  else if norHub ≤ a ∧ a < norHub + s.norSize then s.norRead (a - norHub) n
  else zeros n
/-- The dump store's usable blocks. -/
def State.inStore (s : State) (a : Nat) : Bool := dsHub ≤ a && a < dsHub + 512 * s.dsBlocks
/-- The plans whose slots a write of `n` bytes from `a` reaches are as their bytes now say (Table 2.14, R453). -/
def State.rePlan (s : State) (a n : Nat) : State :=
  (List.range 8).foldl (fun s id =>
    let k := (tget [] s.dmp.plans id).length
    let b := 0xF00000 + 0x2000 * id
    if overlaps a n b (32 * k) then
      let r := s.free
      let p := (List.range k).map (fun j => regionOf (mread s.sram (b + 32 * j) 32))
      { r.2 with dmp := { r.2.dmp with plans := tput [] r.2.dmp.plans id (p.map (fun x => if x.odd then x.legal r.1.toNat else x)) } }
    else s) s
/-- A record kept in a place that a write has reached. -/
def openRec (ix : Nat) : TraceRec :=
  let v := fun j w => fld (Config.freeValue (ix + j)).toNat 0 w
  { type := v 0 8, fabric := v 1 8, arg16 := v 2 16, arg32 := v 3 32, time := v 4 56, seq := v 5 8 }
/-- What the hub keeps in the staging SRAM beside plans, cut and FW_STAGE copy, after a WRITE_MEM to the places it may lie at: trace
records, the data of running dumps, the shard cache, requests not yet served and DUMP_READ's buffer are open (R50, log entry 88). -/
def State.spoil (s : State) (a n : Nat) : State :=
  let hit := fun b m => overlaps a n b m
  let x := s.freeIx
  let s := { s with freeIx := x + 8 * (s.trc.ring.length + 1) }
  let s := if hit 0 0x400000 then
      { s with freeIx := s.freeIx + 8,
               trc := { s.trc with ring := s.trc.ring.zipIdx.map (fun p => openRec (x + 8 * p.2))
                                   chips := s.trc.chips.map (fun (p : Nat × TraceChip) => (p.1, { p.2 with window := p.2.window.map (fun _ => openRec s.freeIx) })) } }
    else s
  let tail := hit 0xF10000 0xF0000
  let s := if hit 0x400000 0x140000 ∨ hit 0xA80000 0x400000 ∨ tail then
      s.mapItems (fun _ i => if 0x31 ≤ opcodeOf i.desc ∧ opcodeOf i.desc ≤ 0x33 then { i with odd := i.odd ||| 1 } else i)
    else s
  let s := if (hit 0x980000 0x100000 ∨ tail) ∧ s.dmp.cache ≠ [] then { s with dmp := { s.dmp with cacheOdd := true } } else s
  if tail then
    let r := s.freeBytes 512
    { r.2 with scan := { r.2.scan with drBuf := r.2.scan.drBuf.map (fun p => (p.1, r.1)) }
               hub := { r.2.hub with coreQ := r.2.hub.coreQ.map (fun q =>
                 (q.1, match q.2 with | k :: src :: d => k :: src :: (if k < 2 then (r.1.take d.length).map BitVec.toNat else d) | l => l)) } }
  else s
/-- A plain write of hub content that takes no operation: the staging SRAM. -/
def State.hubWrite (s : State) (a : Nat) (v : List Byte) : State :=
  if a < 0x1000000 then (({ s with sram := mwrite s.sram a v }.rePlan a v.length).spoil a v.length) else s
/-- A place of the NOR user partition. -/
def State.inUser (s : State) (a : Nat) : Bool := norHub + userBase ≤ a && a < norHub + s.norSize
/-- The 4 KiB sectors that a run covers are erased, each before its bytes are programmed (R448, R150). -/
def norWrites (a : Nat) (v : List Byte) : List (OpK × Nat) :=
  ((memPieces a v.length).map (fun p =>
    let b := a + p.1 - norHub
    let u := (v.drop p.1).take p.2
    (OpK.nor 1 (b / 4096 * 4096) 4096 [], 0) ::
      (List.range (cdiv p.2 1024)).map (fun j => let d := (u.drop (1024 * j)).take 1024; (OpK.nor 2 (b + 1024 * j) d.length d, d.length)))).flatten
/-- Reads of a batch from chip or hub. Content that no operation reads is kept at once under its index. -/
def State.batchReads (s : State) (i : Item) (a n : Nat) : Item :=
  let f := dbits i.desc 0x11 0 7
  (memPieces a n).foldl (fun (i : Item) p =>
    let b := a + p.1
    if !memHub i.desc then i.push [.rd f b p.2]
    else if s.inStore b then i.push [.dsRd (b - dsHub) p.2]
    else { i with rep := tput [] i.rep i.nextIx (s.hubRead b p.2), nextIx := i.nextIx + 1 }) i
/-- Writes of a batch to a chip, with the bytes each moves: whole transactions of memory, single registers elsewhere (R347). -/
def chipWrites (f a : Nat) (v : List Byte) : List (OpK × Nat) :=
  ((memPieces a v.length).map (fun p =>
    let b := a + p.1
    let u := (v.drop p.1).take p.2
    if inRegs b then (List.range (p.2 / 4)).map (fun j => (regWr f (b + 4 * j) (leNat ((u.drop (4 * j)).take 4)), 4))
    else [(OpK.wr f b u, p.2)])).flatten
def storeWrites (a : Nat) (v : List Byte) : List (OpK × Nat) :=
  (memPieces a v.length).map (fun p => (OpK.dsWr (a + p.1 - dsHub) ((v.drop p.1).take p.2) false, p.2))
/-- Keys of a move: offset moved 0, end of the batch being written 4, bytes read ahead 5, its first read 3, its reads 2, first
write of the batch 8, 1 at 9 once a read has failed. The bytes each write moves are kept under 9000. -/
def Item.moved (i : Item) : Nat :=
  let lo := tget 0 i.x 8
  let n := Nat.min (i.issued - lo) (i.nextIx - lo)
  let sizes := (tget [] i.rep 9000)
  let good := ((List.range n).takeWhile (fun j => tget 0 i.bad (lo + j) == 0)).length
  tget 0 i.x 0 + ((List.range good).map (fun j => leNat ((sizes.drop (4 * j)).take 4))).sum
/-- The writes of a batch `v` at offset `at_`, with the bytes each moves. The staging SRAM takes none. -/
def State.batchWrites (s : State) (d : BitVec 512) (at_ : Nat) (v : List Byte) : List (OpK × Nat) :=
  let a := db d 0x18 8 + at_
  if opcodeOf d = 0x22 then (pieces (db d 0x20 8 + at_) v (v.length / 256 + 2)).map (fun (p : Nat × List Byte) => (OpK.hwr p.1 p.2, p.2.length))
  else if !memHub d then chipWrites (dbits d 0x11 0 7) a v
  else if s.inStore a then storeWrites a v
  else if s.inUser a then norWrites a v else []
/-- Hub content that a batch changes at once. -/
def State.batchNow (s : State) (d : BitVec 512) (at_ : Nat) (v : List Byte) : State :=
  if opcodeOf d = 0x23 ∧ memHub d ∧ v ≠ [] ∧ !s.inStore (db d 0x18 8 + at_) then s.hubWrite (db d 0x18 8 + at_) v else s
/-- The batch just read is written, and the next one read. A read that failed ends the move after the bytes before it. -/
def State.moveBatch (s : State) (w : Work) (i : Item) : State :=
  let d := i.desc
  let len := db d 0x14 4
  let at_ := tget 0 i.x 4
  if i.moved < at_ then s.setItem w i.done
  else
    let lo := tget 0 i.x 3
    let n := tget 0 i.x 2
    let good := ((List.range n).takeWhile (fun j => tget 0 i.bad (lo + j) == 0)).length
    let v := i.gather lo good
    let stop := tget 0 i.x 9 = 1 ∨ good < n
    let ws := s.batchWrites d at_ v
    let next := at_ + v.length
    let s := s.batchNow d at_ v
    let x := [(0, if ws = [] then next else at_), (4, next), (8, i.nextIx), (9, b2n stop), (2, 0)].foldl (fun x (p : Nat × Nat) => tput 0 x p.1 p.2) i.x
    let i := { i.push (ws.map (fun (p : OpK × Nat) => p.1)) with x := x, rep := tput [] i.rep 9000 ((ws.map (fun (p : OpK × Nat) => leBytes 4 p.2)).flatten) }
    if stop ∨ len ≤ next then s.setItem w { i with stage := if ws = [] then doneStage else 1 }
    else
      let m := batchLen (db d 0x18 8) len next
      let j := if opcodeOf d = 0x23 then i.push (hostReads (db d 0x20 8 + next) m) else s.batchReads i (db d 0x18 8 + next) m
      let s := if memHub d then { s with freeIx := s.freeIx + 8192 } else s
      s.setItem w { j with stage := 1, x := tput 0 (tput 0 j.x 3 i.nextIx) 2 (j.nextIx - i.nextIx) }
def memAdv : Advance := fun s w i =>
  if db i.desc 0x14 4 = 0 then s.setItem w i.done else s.moveBatch w i
/-- DETAIL and CURSOR give the bytes moved. -/
def memRep : Report := fun s _ i _ => (s, Nat.min i.moved (2 ^ 32 - 1), i.moved)

/-! ### INSTALL_MONITOR (R151, R152, R157) -/

/-- Cores of a chip the mask selects. -/
def maskCores (d : BitVec 512) : List Nat := (List.range 32).filter (bit (db d 0x14 4))
/-- PRESENT chips of the range. -/
def State.rangeChips (s : State) (d : BitVec 512) : List Nat := (fabRange (fabFirst d) (fabLast d)).filter s.present
/-- The 8,192 bytes of the active monitor copy. -/
def State.monitorCopy (s : State) : List Byte := s.boot.monitor.take 8192 ++ zeros (8192 - s.boot.monitor.length)
def installAdv : Advance := fun s w i =>
  if i.stage = 0 then
    let lo := s.monitorCopy.take 4096
    let hi := s.monitorCopy.drop 4096
    let ops := ((s.rangeChips i.desc).map (fun f => ((maskCores i.desc).map (fun n =>
      [OpK.wr f (coreMemBase + 0x10000 * n + 0xE000) lo, OpK.wr f (coreMemBase + 0x10000 * n + 0xF000) hi])).flatten)).flatten
    s.setItem w { i.push ops with stage := 1 }
  else s.setItem w i.done

/-! ### Commands -/

/-- READ_REG (R436, R449). -/
def execReadReg (e : Nat) (s : State) : Out := s.row e 0x20 noCheck regAdv repItem
/-- WRITE_REG (R436, R450). -/
def execWriteReg (e : Nat) (s : State) : Out := s.row e 0x21 noCheck regAdv repItem
/-- READ_MEM (R447, R451). -/
def execReadMem (e : Nat) (s : State) : Out := s.row e 0x22 noCheck memAdv memRep
/-- WRITE_MEM (R447, R448, R451). -/
def execWriteMem (e : Nat) (s : State) : Out := s.row e 0x23 noCheck memAdv memRep
/-- INSTALL_MONITOR (R22, R151, R152). -/
def execInstallMonitor (e : Nat) (s : State) : Out := s.row e 0x24 noCheck installAdv repItem
/-- MONITOR_REPLY_POLL (R436). -/
def execMonitorReplyPoll (w : Nat) (s : State) : Out := .next (s.monitorPoll w)

end Sys2Proof.Machine
end

