-- ==== Sys2Proof/Machine/Alerts.lean ====
section
/-! DEFINITION. Alerts at the hub, and hops that fail or come up with trace armed (R351–R354, R368, R382, R408, R497, R500,
R501). -/

namespace Sys2Proof.Machine

/-- A lost link leaves a LINK gap for each armed chip it held: `s` before, `t` after (R500). -/
def State.noteLost (s t : State) (k : Nat) : State :=
  if (t.chain k).reach < (s.chain k).reach then t.traceLost k (t.chain k).reach (s.chain k).reach else t
/-- The RESET alert: the chip is no longer ADDRESSABLE (R353). -/
def State.alertReset (s : State) (k p : Nat) : State :=
  let c := s.chain k
  let s := s.setChain k { c with addressable := setFld c.addressable p 1 0, resets := satAdd c.resets 1 16 }
  let s := s.endTxnsWhere k (fun q => q == p) .chipAbsent
  (s.chainEvent k 4 p 0).traceReset (16 * k + p)
/-- The READY alert: rediscovery by the chain controller, or a wait for a DISCOVER (R354). -/
def State.alertReady (s : State) (k p : Nat) : State :=
  if s.bhv.autoRedisc then { s with run := { s.run with armQ := s.run.armQ ++ [(16 * k + p, 1)] } }.armPump
  else s.chainEvent k 8 p 0
/-- BREAK (R408). Table 13.11 gives bit 16 of its DATA to UNIT and to HALT_CAUSE: where the two differ it is open. -/
def State.breakEvent (s : State) (unit cz : Nat) : State :=
  let d := unit % 2 ^ 16 + place (cz / 2) 17 7
  if bit unit 16 = bit cz 0 then s.activate 169 (d + place (cz % 2) 16 1)
  else
    let v := s.freeWide 1
    v.2.activate 169 (d + place v.1.toNat 16 1)
/-- A unit halted: BREAK, its trace trigger and TRIG_OUT, and the relay (R382, R408, R497, R501). -/
def State.alertHalt (s : State) (word : Nat) : State :=
  let cz := fld word 32 8
  let r := fld cz 4 2
  let s := if 0x40 ≤ cz ∧ cz < 0x80 ∧ 2 ≤ r then s.breakEvent (fld word 8 17) cz else s
  let s := if 0x40 ≤ cz ∧ cz < 0x80 then (s.traceTrigger 4 s.time (fld word 8 17)).toutEvent 3 else s
  if 0x40 ≤ cz ∧ cz < 0x80 ∧ r = 3 then s.alertRelay else s
/-- The hub awaits a reply of the default monitor on this core, whose packed address is kept in the item (R436). -/
def State.replyAwaited (s : State) (unit : Nat) : Bool :=
  s.works.any (fun w => match s.item? w with | some i => i.wait != Wait.no && tget 0 i.x 6 == unit + 1 | none => false)
/-- An accepted alert (R352). -/
def State.alertAccept (s : State) (k p word : Nat) : State :=
  let f := 16 * k + p
  let cause := fld word 0 8
  let s :=
    if cause = 7 then s.alertReset k p
    else if cause = 8 then s.alertReady k p
    else if cause = 2 ∧ s.replyAwaited (fld word 8 17) then s
    else if s.addressable f then s.activate (32 + f) word
    else s.chainEvent k 7 p (lo32 word)
  if cause = 1 then s.alertHalt word else s
/-- The hub receives the oldest alert position `p` of chain `k` holds (R351, log entry 26), and acknowledges it. -/
def State.recvAlert (s : State) (k p : Nat) : State :=
  let c := s.chain k
  match (s.chip (16 * k + p)).alerts with
  | [] => s
  | a :: _ =>
    if c.state = ChainState.up ∧ p < c.reach ∧ s.fastClock then
      let seen := tget 0 c.lastAlert p = a.num + 1
      let s := s.setChain k { c with down := c.down ++ [.alertAck p a.num], lastAlert := tput 0 c.lastAlert p (a.num + 1) }
      if seen then s else s.alertAccept k p a.word
    else s

end Sys2Proof.Machine
end

