-- ==== Sys2Proof/Machine/Chains.lean ====
section
/-! DEFINITION. The commands of the Bihevan chains: hops, frames at the hub's receiver and at the WDA, alerts, sync symbols
and timeouts (R343–R358, R365–R371, R495). -/

namespace Sys2Proof.Machine

/-- A TIME_ALIGN that has recalibrated waits for two sync symbols (R365). -/
def State.syncCheck (s : State) : State :=
  s.mapItems (fun _ i =>
    if opcodeOf i.desc = 0x51 ∧ i.stage = 1 ∧ i.wait = .ctl none ∧ 2 ≤ (s.bhv.syncCnt + 2 ^ 32 - tget 0 i.x 1) % 2 ^ 32 then
      Item.mark s.now i { i with wait := Wait.no }
    else i)
/-- The chain controllers' part of a command: done while their clocks run, in RUN and IDLE (R108, R110). -/
def State.ctlClocked (s : State) (f : State → State) : Out := .next (if s.fastClock then f s else s)
/-- TRANSACTION_TIMEOUT (R350); a freed activity of the controllers goes on. -/
def execTransactionTimeout (k tag : Nat) (s : State) : Out := s.ctlClocked (fun s => (s.txnTimeout k tag).armPump)
/-- SYNC_SYMBOL (R356). -/
def execSyncSymbol (s : State) : Out := s.ctlClocked (fun s => s.syncSymbol.syncCheck)
/-- SYNC_APPLY (R358). -/
def execSyncApply (f : Nat) (s : State) : Out := .next (s.syncApply f)
/-- HOP_UP, with the hop's calibrated one-way delay in ps (R343, R344, R357). -/
def execHopUp (k p ps : Nat) (s : State) : Out := s.ctlClocked (fun s => (s.hopUp k p ps).trainCheck)
/-- HOP_FAIL (R344, R370, R500). -/
def execHopFail (k p : Nat) (s : State) : Out := s.ctlClocked (fun s => (s.noteLost (s.hopFail k p) k).trainCheck.armPump)
/-- HOP_RETRY (R344). -/
def execHopRetry (k : Nat) (s : State) : Out := s.ctlClocked (fun s => s.hopRetry k)
/-- TRAINING_TIMEOUT (R343). -/
def execTrainingTimeout (k : Nat) (s : State) : Out := s.ctlClocked (fun s => (s.trainTimeout k).trainCheck)
/-- READ_DATA (R347, R368). -/
def execReadData (k : Nat) (s : State) : Out := s.ctlClocked (fun s => (s.recvReadData k).armPump)
/-- WRITE_ACK (R347, R368). -/
def execWriteAck (k : Nat) (s : State) : Out := s.ctlClocked (fun s => (s.recvWriteAck k).armPump)
/-- NACK (R353). -/
def execNack (k : Nat) (s : State) : Out := s.ctlClocked (fun s => (s.recvNack k).armPump)
/-- ALERT (R351, R352). -/
def execAlert (k p : Nat) (s : State) : Out := s.ctlClocked (fun s => s.recvAlert k p)
/-- TRACE (R495, R498, R500). -/
def execTrace (k : Nat) (s : State) : Out := s.ctlClocked (fun s => s.recvTrace k)
/-- PROBE_STAMP (R365). -/
def execProbeStamp (k : Nat) (s : State) : Out := s.ctlClocked (fun s => s.recvProbeStamp k)
/-- FRAME_CRC_FAIL at hop `p` (R344, R349). -/
def execFrameCrcFail (k p : Nat) (upstream : Bool) (s : State) : Out := s.ctlClocked (fun s => (s.noteLost (s.crcFail k p upstream) k).trainCheck.armPump)
/-- READ: the WDA answers the frame at the head of chain `k` (R24, R347, R353). -/
def execRead (k : Nat) (s : State) : Out := .next (s.wdaRead k)
/-- WRITE (R24, R347, R353). -/
def execWrite (k : Nat) (s : State) : Out := .next (s.wdaWrite k)
/-- ALERT_ACK (R351). -/
def execAlertAck (k : Nat) (s : State) : Out := .next (s.wdaAlertAck k)
/-- PROBE (R365). -/
def execProbe (k : Nat) (s : State) : Out := .next (s.wdaProbe k)

end Sys2Proof.Machine
end

