-- ==== Sys2Proof/Machine/Fabric.lean ====
section
/-! DEFINITION. DISCOVER, CHAIN_ENABLE and TIME_ALIGN, with the hub core's part of a DISCOVER (R92, R343, R355, R357,
R362–R365, R367, R369). -/

namespace Sys2Proof.Machine

/-! ### Training the chains of a mask (R92, R343, R364) -/

def chainMask (d : BitVec 512) : Nat := db d 0x10 1
/-- Chains of a mask. -/
def chainsOf (m : Nat) : List Nat := (List.range 8).filter (bit m)
/-- A selected chain trains unless it is UP, when the positions within REACH become PRESENT. -/
def State.enableChain (s : State) (k : Nat) : State :=
  let s := s.enableStop k
  let c := s.chain k
  if c.state = ChainState.up then s.setChain k { c with present := c.present ||| (2 ^ c.reach - 1) } else s.train k
/-- The first stroke of DISCOVER and of an ENABLE; the item waits while a selected chain trains. -/
def State.enableChains (s : State) (w : Work) (i : Item) : State :=
  let l := chainsOf (chainMask i.desc)
  let s := l.foldl State.enableChain s
  s.modItem w (fun i => { i with stage := 1, wait := if l.any (fun k => (s.chain k).training) then .ctl none else Wait.no })
/-- Chips within REACH of the selected chains that are UP, in ascending order. -/
def State.inReach (s : State) (m : Nat) : List Nat :=
  chipsOf m (fun f => (s.chain (f / 16)).state == ChainState.up && f % 16 < (s.chain (f / 16)).reach)
/-- Every selected chain is UP or EMPTY. -/
def State.chainsSettled (s : State) (m : Nat) : Bool :=
  (chainsOf m).all (fun k => (s.chain k).state == ChainState.up || (s.chain k).state == ChainState.empty)
/-- The end: OK or CHAIN_DOWN, whatever its operations met. -/
def State.chainEnd (s : State) (w : Work) (i : Item) (det : Nat) : State :=
  let e := i.errs.filter (fun e => e == .aborted)
  s.setItem w { i.done with detail := det, errs := if s.chainsSettled (chainMask i.desc) then e else e ++ [.chainDown] }
/-- Chains of a mask in a state, as a mask. -/
def State.stateMask (s : State) (m : Nat) (st : ChainState) : Nat := maskOf 8 (fun k => bit m k && (s.chain k).state == st)
/-- Chips of a mask's chains that `p` picks. -/
def countChips (m : Nat) (p : Nat → Bool) : Nat := (chipsOf m p).length

/-! ### DISCOVER (R355, R362, R363) -/

/-- Links that the topology copy marks MISMATCH. -/
def State.mismatchCount (s : State) : Nat := ((List.range 128).map (fun f => countBits 12 (s.topo f).mismatch)).sum
/-- A topology record (Table 12.6). -/
def State.topoRecord (s : State) (f : Nat) : List Byte :=
  let t := s.topo f
  let pr := s.present f
  leBytes 1 f ++ leBytes 1 (b2n pr + place (b2n (s.addressable f)) 1 1 + place (b2n (t.mismatch != 0)) 2 1) ++ leBytes 1 (f / 16) ++ leBytes 1 (f % 16) ++
  leBytes 4 (if pr then t.wdaId else 0) ++ leBytes 4 (if pr then tget 0 (s.chain (f / 16)).delay (f % 16) else 0) ++ leBytes 2 t.mismatch ++ zeros 2 ++
  ((List.range 12).map (fun n => leBytes 4 (if pr then t.links.getD n 0 else 0))).flatten
def State.discoverDetail (s : State) : Nat :=
  countChips 0xFF s.addressable + place (s.stateMask 0xFF .up) 8 8 + place (s.stateMask 0xFF .empty) 16 8 + place (Nat.min s.mismatchCount 255) 24 8
def discoverAdv : Advance := fun s w i =>
  let m := chainMask i.desc
  if i.stage = 0 then s.enableChains w i
  else if i.stage = 1 then
    let s := (chainsOf m).foldl (fun s k => let c := s.chain k; if c.state = ChainState.up then s.setChain k { c with present := c.present ||| (2 ^ c.reach - 1) } else s) s
    s.setItem w { i.push ((s.inReach m).map (fun f => regWr f (wdaBase + 4) (f + 2 ^ 31))) with stage := 2, x := tput 0 i.x 3 s.now }
  else if i.stage = 2 then s.setItem w { i with stage := 3, wait := .ctl (some (tget 0 i.x 3 + 20000)) }
  else if i.stage = 3 then
    let i := (s.inReach m).foldl (fun (i : Item) f => i.phase 0 f [.rd f wdaBase 64, .rd f (wdaBase + 0x100) 48]) i
    s.setItem w { i with stage := 4 }
  else if i.stage = 4 then s.setItem w { i.push [.core [4]] with stage := 5 }
  else if i.stage = 5 then
    let a := db i.desc 0x18 8
    let recs := ((List.range 128).map s.topoRecord).flatten
    s.setItem w { (if a = 0 then i else i.push (hostWrites a recs)) with stage := 6 }
  else s.chainEnd w i s.discoverDetail
/-- DISCOVER_SETTLE: 20 µs have passed since the last WRITE_ACK. -/
def State.discoverSettle (s : State) (n : Nat) : State :=
  s.onWork n (fun i => opcodeOf i.desc == 0x50 && i.stage == 3 && (match i.wait with | .ctl (some t) => decide (t ≤ s.now) | _ => false)) (fun i => { i with wait := Wait.no })
/-- The hub core's topology copy takes what the DISCOVER read; positions of its chains no longer PRESENT hold none. -/
def State.topoTake (s : State) (m : Nat) (i : Item) : State :=
  (maskFabrics m).foldl (fun s f =>
    let a := i.got 0 f 0
    let b := i.got 0 f 1
    if !s.present f then s.setTopo f {}
    else if a.isEmpty ∨ b.isEmpty then s
    else s.setTopo f { s.topo f with known := true, wdaId := leNat (a.take 4), links := wordsOf b 12 }) s
/-- Link `n` of chip `f` is MISMATCH: its peer's entry, where the copy holds one, does not name it (R355). -/
def State.linkMismatch (s : State) (f n : Nat) : Bool :=
  match s.topoPeer f n with
  | none => false
  | some (g, m) => (s.topo g).known && s.topoPeer g m != some (f, n)
/-- The hub core builds the topology: MISMATCH marks of the chains the DISCOVER covers. -/
def State.topoBuild (s : State) (m : Nat) (i : Item) : State :=
  let s := s.topoTake m i
  (maskFabrics m).foldl (fun t f => t.setTopo f { t.topo f with mismatch := maskOf 12 (s.linkMismatch f) }) s
/-- The DISCOVER request at the head of the hub core's queue is done. -/
def State.discoverCore (s : State) : State :=
  match s.coreHead 4 with
  | some (some w, _, _) =>
    (match s.item? w with
     | some i => (s.topoBuild (chainMask i.desc) i).coreReply []
     | none => s.coreReply [])
  | some (none, _, _) => s.coreReply []
  | none => s

/-! ### CHAIN_ENABLE (R364, R367) -/

/-- DISABLE of the selected chains. -/
def State.disableChains (s : State) (m : Nat) : State :=
  ((chainsOf m).foldl (fun s k => s.noteLost (s.disableChain k) k) s).trainCheck.armPump
def chainEnableAdv : Advance := fun s w i =>
  let m := chainMask i.desc
  if dbits i.desc 0x11 0 1 = 1 then (s.disableChains m).modItem w Item.done
  else if i.stage = 0 then s.enableChains w i
  else if i.stage = 1 then
    let s := (chainsOf m).foldl (fun s k => let c := s.chain k; if c.state = ChainState.up then s.setChain k { c with present := c.present ||| (2 ^ c.reach - 1) } else s) s
    s.setItem w { i.push ((s.inReach m).map (fun f => OpK.rd f wdaBase 64)) with stage := 2 }
  else
    s.chainEnd w i (countChips m s.addressable + place (s.stateMask m .up) 8 8 + place (countChips m (fun f => s.present f && !s.addressable f)) 16 8)

/-! ### TIME_ALIGN (R357, R365) -/

/-- Every hop within REACH is calibrated anew; the delay found is open (log entry 2). -/
def State.recalibrate (s : State) (k : Nat) : State :=
  let c := s.chain k
  let n := s.freeIx
  let d := (List.range c.reach).foldl (fun (p : Tab Nat × Nat) h =>
    let t := p.2 + Config.hopDelay k h n
    (tput 0 p.1 h t, t)) (c.delay, 0)
  { s with freeIx := n + 1 }.setChain k { c with delay := d.1 }
def alignAdv : Advance := fun s w i =>
  let m := chainMask i.desc
  let up := chainsOf (s.stateMask m .up)
  if i.stage = 0 then
    let down := if up.length = (chainsOf m).length then [] else [Status.chainDown]
    if dbits i.desc 0x11 0 1 = 1 ∧ up ≠ [] then
      (up.foldl State.recalibrate s).setItem w { i with stage := 1, wait := .ctl none, errs := i.errs ++ down, x := tput 0 i.x 1 s.bhv.syncCnt }
    else s.setItem w { i with stage := 1, errs := i.errs ++ down }
  else if i.stage = 1 then s.setItem w { i.push ((chipsOf m s.addressable).map OpK.probe) with stage := 2 }
  else
    let got := ((List.range i.nextIx).filter i.opOk).map (fun j => leNat (tget [] i.rep j))
    s.setItem w { i.done with detail := got.foldl Nat.max 0 + place got.length 8 8 }

/-! ### Commands -/

/-- DISCOVER (R92, R355, R362, R363, R369). -/
def execDiscover (e : Nat) (s : State) : Out := s.row e 0x50 noCheck discoverAdv repItem
/-- TIME_ALIGN (R357, R365). -/
def execTimeAlign (e : Nat) (s : State) : Out := s.row e 0x51 noCheck alignAdv repItem
/-- CHAIN_ENABLE (R92, R364, R367). -/
def execChainEnable (e : Nat) (s : State) : Out := s.row e 0x52 noCheck chainEnableAdv repItem
/-- DISCOVER_SETTLE (R355). -/
def execDiscoverSettle (w : Nat) (s : State) : Out := .next (s.discoverSettle w)

end Sys2Proof.Machine
end

