-- ==== Sys2Proof/Machine/Sdf.lean ====
section
/-! DEFINITION. The Crerdoa block format, sealing, and the Sahmuku dump format: headers, sections, TOC (R210, R441, R443,
R458–R460, R483). -/

namespace Sys2Proof.Machine

/-! ### Crerdoa block format (R458) -/

/-- `n` bytes copied one at a time from `dist` bytes back. -/
def copyBack (dist : Nat) : Nat → List Byte → List Byte
  | 0, o => o
  | n + 1, o => copyBack dist n (o ++ [o.getD (o.length - dist) 0])
/-- An LZ operation stream decoded after `o`, which must come to `len` bytes with the stream's end (R458). -/
def lzDecode (len : Nat) : Nat → List Byte → List Byte → Option (List Byte)
  | 0, _, _ => none
  | fuel + 1, z, o =>
    if o.length = len then (if z = [] then some o else none)
    else
      match z with
      | [] => none
      | c :: z =>
        let v := c.toNat
        if v < 128 then (if v + 1 ≤ z.length ∧ o.length + v + 1 ≤ len then lzDecode len fuel (z.drop (v + 1)) (o ++ z.take (v + 1)) else none)
        else
          let k := fld v 3 4
          let e := if k = 15 then 1 else 0
          let n := if k = 15 then 18 + leNat (z.take 1) else k + 3
          let dist := leNat ((z.drop e).take 2)
          if v % 8 = 0 ∧ e + 2 ≤ z.length ∧ 1 ≤ dist ∧ dist ≤ o.length ∧ o.length + n ≤ len then lzDecode len fuel (z.drop (e + 2)) (copyBack dist n o) else none
/-- One CBF block of at most 65,536 raw bytes: ZERO, LZ when that is shorter, or STORED. Which of the streams that decode to the
block the hub's encoder makes is open (log entry 8). -/
def cbfBlock (b : List Byte) : List Byte :=
  let z := if lzDecode b.length (b.length + 1) (Config.lzEncode b) [] = some b then Config.lzEncode b else b
  if b.all (· == 0) then leBytes 4 b.length ++ leBytes 3 0 ++ leBytes 1 1
  else if z.length < b.length then leBytes 4 b.length ++ leBytes 3 z.length ++ leBytes 1 2 ++ z
  else leBytes 4 b.length ++ leBytes 3 b.length ++ leBytes 1 0 ++ b
/-- Whole blocks of a raw stream, and with `last` its remainder as the last block: the stored bytes and what is left. -/
def cbfRun (last : Bool) : Nat → List Byte → List Byte × List Byte
  | 0, b => ([], b)
  | n + 1, b =>
    if 65536 ≤ b.length then
      let r := cbfRun last n (b.drop 65536)
      (cbfBlock (b.take 65536) ++ r.1, r.2)
    else if last && !b.isEmpty then (cbfBlock b, [])
    else ([], b)

/-! ### Sealing (R210, R443) -/

/-- The IV of a chunk: section number, chunk number, last chunk. -/
def sealIv (num chunk : Nat) (last : Bool) : List Byte := leBytes 4 num ++ leBytes 7 chunk ++ leBytes 1 (b2n last)
/-- A byte run of exactly `n` bytes. -/
def fit (n : Nat) (l : List Byte) : List Byte := (l ++ zeros n).take n
/-- K_SEAL: keyed by the device secret, over "CDH-SEAL" and UNIT_ID (R210). -/
def Fuses.sealKey (f : Fuses) : List Byte :=
  half (Config.hmac384 f.deviceSecret ([0x43, 0x44, 0x48, 0x2D, 0x53, 0x45, 0x41, 0x4C] ++ unitBytes f.unitId))
/-- The key of a dump: keyed by K_SEAL, over SALT. -/
def Fuses.dumpKey (f : Fuses) (salt : BitVec 128) : List Byte := half (Config.hmac384 f.sealKey (leBytes 16 salt.toNat))
/-- The additional authenticated data: UNIT_ID, then SALT. -/
def Fuses.sealAad (f : Fuses) (salt : BitVec 128) : List Byte := unitBytes f.unitId ++ leBytes 16 salt.toNat
/-- One chunk sealed: cipher text as long as the plain text, and the 16-byte tag (R210). -/
def sealOf (f : Fuses) (salt : BitVec 128) (iv b : List Byte) : List Byte × List Byte :=
  let v := Config.gcmSeal (f.dumpKey salt) iv (f.sealAad salt) b
  (fit b.length v.1, leBytes 16 v.2.toNat)
/-- One chunk opened, when its tag verifies. -/
def openOf (f : Fuses) (salt : BitVec 128) (iv b tag : List Byte) : Option (List Byte) :=
  (Config.gcmOpen (f.dumpKey salt) iv (f.sealAad salt) b tag).map (fit b.length)
/-- Seal the chunks of a stored stream that are complete, the last one with `last`: cipher text, tags, and what is left. The
section's last chunk is known only when nothing follows it. -/
def sealRun (f : Fuses) (salt : BitVec 128) (num : Nat) (last : Bool) : Nat → Nat → List Byte → List Byte × List Byte × List Byte
  | 0, _, b => ([], [], b)
  | n + 1, chunk, b =>
    if 65536 < b.length then
      let v := sealOf f salt (sealIv num chunk false) (b.take 65536)
      let r := sealRun f salt num last n (chunk + 1) (b.drop 65536)
      (v.1 ++ r.1, v.2 ++ r.2.1, r.2.2)
    else if last then
      let v := sealOf f salt (sealIv num chunk true) b
      (v.1, v.2, [])
    else ([], [], b)
/-- The IV of a dump-store block encrypted on the way out (R443). -/
def blockIv (b : Nat) : List Byte := leBytes 4 0xFFFFFFFF ++ leBytes 7 b ++ leBytes 1 1

/-! ### Sections (Tables 15.10, 15.11, R460) -/

/-- A length rounded up to 64 bytes. -/
def round64 (n : Nat) : Nat := cdiv n 64 * 64
/-- Bytes of a TOC section of `n` entries. -/
def tocBytes (n : Nat) : Nat := round64 (64 + 32 * n)
/-- What a section header carries beside its lengths and CRC: bytes 0x20–0x3F. -/
structure SecHead where
  type : Nat
  flags : Nat
  number : Nat
  fabric : Nat
  status : Nat
  region : Nat
  tail : List Byte
/-- A section header with its CRC over header, payload and tags. -/
def secHeader (h : SecHead) (raw stored tags : Nat) (crc : Nat) : List Byte :=
  leBytes 2 h.type ++ leBytes 2 h.flags ++ leBytes 4 h.number ++ leBytes 8 raw ++ leBytes 8 stored ++ leBytes 4 tags ++ leBytes 4 crc ++ h.tail
def secCrc (h : SecHead) (raw : Nat) (payload tags : List Byte) : Nat :=
  crc32 (secHeader h raw payload.length (tags.length / 16) 0 ++ payload ++ tags)
/-- The TOC entry of a section at `off`. -/
def SecHead.entry (h : SecHead) (raw crc off : Nat) : TocEntry :=
  { number := h.number, type := h.type, flags := h.flags, offset := off, rawLen := raw, status := h.status, fabric := h.fabric, region := h.region, crc := crc }
def TocEntry.bytes (t : TocEntry) : List Byte :=
  leBytes 4 t.number ++ leBytes 2 t.type ++ leBytes 2 t.flags ++ leBytes 8 t.offset ++ leBytes 8 t.rawLen ++ leBytes 1 t.status ++
  leBytes 1 t.fabric ++ leBytes 2 t.region ++ leBytes 4 t.crc
/-- The TOC section, padded. -/
def tocSection (l : List TocEntry) : List Byte :=
  let p := (l.map TocEntry.bytes).flatten
  let h : SecHead := { type := 0xF, flags := 0, number := 0xFFFFFFFF, fabric := 0, status := 0, region := 0, tail := zeros 32 }
  secHeader h p.length p.length 0 (secCrc h p.length p []) ++ p ++ zeros (tocBytes l.length - 64 - p.length)
/-- The 512-byte SDF header. `state` 0 is OPEN, with the fields that are 0 while OPEN. -/
def State.sdfHeader (s : State) (c : Ctx) (state status endTime_ length tocOff : Nat) : List Byte :=
  let flags := b2n c.sealed_ + place (b2n c.compress) 1 1 + place (b2n c.survival) 2 1 + place (b2n c.hostDropped) 3 1 + place (b2n c.toStore) 4 1 +
    place (b2n c.toHost) 5 1 + place (b2n c.tensor) 6 1
  let done := state != 0
  let h := leBytes 4 0x31464453 ++ leBytes 2 1 ++ leBytes 1 state ++ leBytes 1 flags ++ unitBytes s.fuses.unitId ++ leBytes 4 s.boot.count ++
    leBytes 4 c.id ++ leBytes 1 c.lcState ++ leBytes 1 c.planId ++ leBytes 2 s.boot.fwVersion ++ leBytes 4 c.start ++
    leBytes 4 (if done then c.toc.length + 1 else 0) ++ leBytes 4 c.cutId ++ leBytes 8 c.startTime ++ leBytes 8 endTime_ ++ leBytes 8 length ++
    leBytes 8 tocOff ++ leBytes 16 (if c.sealed_ then c.salt.toNat else 0) ++ leBytes 4 c.items ++ leBytes 1 (if done then status else 0) ++ zeros 407
  h ++ leBytes 4 (crc32 h)

/-! ### Plans (R437, R452, R453) -/

/-- The chips a region names, in item order: positions, then chains. -/
def regionChips (r : Region) : List Nat :=
  ((List.range 16).map (fun p => (List.range 8).map (fun k => 16 * k + p))).flatten.filter (fun f => r.first ≤ f && f ≤ r.last)
/-- Items 2, 3, … of a plan: region index and chip of each. -/
def planItems (p : List Region) : List (Nat × Nat) := (p.zipIdx.map (fun r => (regionChips r.1).map (fun f => (r.2, f)))).flatten
/-- Units of a region, one nameless unit for REG and DRAM. -/
def Region.units (r : Region) : List Nat :=
  if r.kind = 1 ∨ r.kind = 4 then [0] else (List.range (r.unitLast + 1 - r.unitFirst)).map (fun j => r.unitFirst + j)

end Sys2Proof.Machine
end

