-- ==== Sys2Proof/Machine/Sources.lean ====
section
/-! DEFINITION. Where a dump's raw bytes come from: runs of bytes of a section, and the shards of a resolved tensor
(R35–R39, R437, R453, R459, R470–R476, R482, R483). -/

namespace Sys2Proof.Machine

/-- A run of raw bytes: given, not ready (R472), not reachable (R474), chip memory or registers, context words. -/
inductive Seg where
  | const (d : List Byte)
  | unready (n : Nat)
  | lost (n : Nat) (e : Status)
  | mem (f a n : Nat)
  | ctx (f core first n : Nat)
def Seg.len : Seg → Nat
  | .const d => d.length
  | .unready n | .lost n _ | .mem _ _ n | .ctx _ _ _ n => n
/-- Bytes `o` to `o + n − 1` of a run. Context words are read whole. -/
def Seg.clip (g : Seg) (o n : Nat) : Seg :=
  match g with
  | .const d => .const ((d.drop o).take n)
  | .unready m => .unready (Nat.min n (m - o))
  | .lost m e => .lost (Nat.min n (m - o)) e
  | .mem f a m => .mem f (a + o) (Nat.min n (m - o))
  | .ctx f c i m => .ctx f c i m
/-- Bytes `o` to `o + n − 1` of a list of runs. -/
def clipSegs : List Seg → Nat → Nat → List Seg
  | [], _, _ => []
  | g :: r, o, n =>
    if n = 0 then []
    else if g.len ≤ o then clipSegs r (o - g.len) n
    else g.clip o n :: clipSegs r 0 (n - (g.len - o))
def segsLen (l : List Seg) : Nat := (l.map Seg.len).sum

/-! ### Shard records (R35, R37, R39) -/

def Resolved.field (e : Resolved) (o n : Nat) : Nat := leNat ((e.rec_.drop o).take n)
def Resolved.fabric (e : Resolved) : Nat := e.field 0 1 % 128
def Resolved.origin (e : Resolved) (k : Nat) : Nat := e.field (0x10 + 4 * k) 4
def Resolved.extent (e : Resolved) (k : Nat) : Nat := e.field (0x20 + 4 * k) 4
def Resolved.gated (e : Resolved) : Bool := bit (e.field 2 2) 0
/-- READY_UNIT as a packed address. -/
def Resolved.unit (e : Resolved) : Nat := e.field 4 4 % 2 ^ 17
/-- Complete under R473, with its READY_UNIT's values. -/
def Resolved.ready (e : Resolved) : Bool := e.stream == e.field 0x38 4 && e.lastDone != 0xFFFFFFFF && e.field 8 4 ≤ e.lastDone
/-- Bytes of an element; 0 for a reserved type (Table 1.19). -/
def elemSize (t : Nat) : Nat :=
  if t = 1 ∨ t = 2 then 1 else if t = 3 ∨ t = 4 ∨ t = 5 ∨ t = 8 then 2 else if t = 6 ∨ t = 7 ∨ t = 9 ∨ t = 10 then 4 else 0

/-! ### The tensor of a context (R472, R475, R482) -/

def Ctx.headField (c : Ctx) (o n : Nat) : Nat := leNat ((c.head.drop o).take n)
def Ctx.active (c : Ctx) : Nat := c.headField 0xC 1
def Ctx.reshard (c : Ctx) : Nat := c.headField 0xD 1
def Ctx.elemType (c : Ctx) : Nat := c.headField 0xC8 1
def Ctx.elem (c : Ctx) : Nat := elemSize c.elemType
def Ctx.rank (c : Ctx) : Nat := c.headField 0xC9 1
def Ctx.axis (c : Ctx) (k : Nat) : Nat := c.headField (0xD8 + 4 * k) 4
/-- Length of a logical line, in elements. -/
def Ctx.line (c : Ctx) : Nat := c.axis (c.rank - 1)
def Ctx.image (c : Ctx) : Nat := (List.range c.rank).foldl (fun a k => a * c.axis k) c.elem
/-- SLOT_SEL (Table 16.1). -/
def Ctx.slotSel (c : Ctx) : Nat := dbits c.desc 0x12 2 2
/-- The position on each axis but the last of line `n`. -/
def Ctx.prefixOf (c : Ctx) (n : Nat) : List Nat :=
  (List.range (c.rank - 1)).map (fun k => n / ((List.range (c.rank - 1)).foldl (fun a j => if k < j then a * c.axis j else a) 1) % c.axis k)
/-- The shard's block holds the positions `p` on the axes before the last. -/
def Resolved.onLine (e : Resolved) (p : List Nat) : Bool :=
  p.zipIdx.all (fun x => e.origin x.2 ≤ x.1 && x.1 < e.origin x.2 + e.extent x.2)
def Resolved.covers (e : Resolved) (last : Nat) (p : List Nat) (a : Nat) : Bool :=
  e.onLine p && e.origin last ≤ a && a < e.origin last + e.extent last
/-- The shard of a slot at a position. -/
def Ctx.shardAt (c : Ctx) (slot : Nat) (p : List Nat) (a : Nat) : Option Resolved :=
  c.list.find? (fun e => e.slot == slot && e.covers (c.rank - 1) p a)
def Ctx.hasSlot (c : Ctx) (slot : Nat) : Bool := c.list.any (fun e => e.slot == slot)
/-- The source of a logical position; none where it is UNREADY (Table 16.1). -/
def Ctx.sourceAt (c : Ctx) (p : List Nat) (a : Nat) : Option Resolved :=
  let act := c.active
  let oth := 1 - act
  let other := c.shardAt oth p a
  let ready : Bool := match other with | some e => e.complete | none => false
  if c.slotSel = 1 then c.shardAt act p a
  else if c.slotSel = 2 then (if c.reshard = 0 ∨ ready then other else none)
  else if c.reshard = 0 then c.shardAt act p a
  else if c.hasSlot oth && ready then other else c.shardAt act p a
/-- The next boundary of a shard on the last axis after `a`, at most `b`. -/
def Ctx.boundary (c : Ctx) (p : List Nat) (a b : Nat) : Nat :=
  c.list.foldl (fun m e =>
    if e.onLine p then
      let o := e.origin (c.rank - 1)
      let z := o + e.extent (c.rank - 1)
      let m := if a < o then Nat.min m o else m
      if a < z then Nat.min m z else m
    else m) b
/-- A piece of the logical image: its source, its bytes, and its address in the source's chip. -/
structure Piece where
  src : Option Resolved
  len : Nat
  addr : Nat := 0
/-- The pieces of `n` bytes of the image from byte `lo` (R37, R475). -/
def Ctx.pieces (c : Ctx) : Nat → Nat → Nat → List Piece
  | 0, _, _ => []
  | fuel + 1, lo, n =>
    if n = 0 then []
    else
      let es := Nat.max c.elem 1
      let el := lo / es
      let p := c.prefixOf (el / c.line)
      let a := el % c.line
      let b := c.boundary p a (Nat.min c.line (a + n / es))
      let m := (b - a) * es
      if m = 0 then []
      else
        let src := c.sourceAt p a
        let addr := match src with
          | some e =>
            let row := p.zipIdx.foldl (fun r x => r * e.extent x.2 + (x.1 - e.origin x.2)) 0
            e.field 0x30 8 % 2 ^ 40 + row * e.field 0xC 4 + (a - e.origin (c.rank - 1)) * es
          | none => 0
        { src := src, len := m, addr := addr } :: c.pieces fuel (lo + m) (n - m)
def Ctx.piecesOf (c : Ctx) (lo n : Nat) : List Piece := c.pieces (n + 1) lo n
def Piece.seg (p : Piece) : Seg :=
  match p.src with
  | none => .unready p.len
  | some e => match e.lost with | some x => .lost p.len x | none => .mem e.fabric p.addr p.len
/-- Bytes of the image a shard supplies. -/
def supplied (ps : List Piece) (e : Resolved) : Nat :=
  if e.lost.isSome then 0
  else ((ps.filter (fun p => match p.src with | some x => x.slot == e.slot && x.index == e.index | none => false)).map (fun p => p.len)).sum
/-- A resolved entry of the PLAN section (Table 16.4). -/
def resolvedBytes (ps : List Piece) (e : Resolved) : List Byte :=
  let n := supplied ps e
  let st := if e.lost.isSome then 3 else if n ≠ 0 then 0 else if !e.complete then 1 else 2
  leBytes 1 e.slot ++ leBytes 1 (e.field 1 1) ++ leBytes 1 e.fabric ++ leBytes 1 st ++ leBytes 4 e.index ++ leBytes 4 e.lastDone ++ leBytes 4 e.stream ++
  leBytes 8 n ++ zeros 8
/-- The payload of a tensor dump's PLAN section (R482). -/
def Ctx.tensorPlan (c : Ctx) : List Byte :=
  let ps := c.piecesOf 0 c.image
  c.head ++ (c.list.map (resolvedBytes ps)).flatten
/-- Bytes of one TENSOR section (R476). -/
def tensorSection : Nat := 0x1000000

/-! ### Sections of a context (R439, R459, R476) -/

def State.planOf (s : State) (c : Ctx) : List Region := tget [] s.dmp.plans c.planId
/-- Bytes of the retained cut: summary, blocks with UNITS and buffer records (R427). -/
def State.cutBytes (s : State) : List Byte :=
  let sum := mread s.sram cutSram 256
  let chains := countBits 8 (leNat ((sum.drop 0xD).take 1))
  let bufs := leNat ((sum.drop 0x50).take 2)
  mread s.sram cutSram (256 + 16 * chains * 8960 + bufs * 2064)
/-- The region and chip of item `num` of a plan dump. -/
def State.itemOf (s : State) (c : Ctx) (num : Nat) : Option (Region × Nat × Nat) :=
  match (planItems (s.planOf c))[num - 2]? with
  | some (r, f) => (match (s.planOf c)[r]? with | some reg => some (reg, r, f) | none => none)
  | none => none
/-- Item `num` gives a section. -/
def State.hasSection (s : State) (c : Ctx) (num : Nat) : Bool :=
  if num = 0 then true
  else if num = 1 then c.cut && s.cut.retained
  else if c.tensor then num < c.items
  else match s.itemOf c num with | some x => s.present x.2.2 | none => false
/-- The next item from `num` on that gives a section. -/
def State.nextSection (s : State) (c : Ctx) (num : Nat) : Option Nat :=
  ((List.range c.items).drop num).find? (fun m => s.hasSection c m)
/-- One unit of a region on chip `f`. -/
def Region.seg (r : Region) (f u : Nat) : Seg :=
  if r.kind = 5 then .ctx f u r.offset r.unitLen
  else if r.kind = 2 then .mem f (lstoreBase + 0x40000 * u + r.offset) r.unitLen
  else if r.kind = 3 then .mem f (coreMemBase + 0x10000 * u + r.offset) r.unitLen
  else .mem f r.offset r.unitLen
/-- Raw length of section `num`. -/
def State.sectionLen (s : State) (c : Ctx) (num : Nat) : Nat :=
  if num = 0 then (if c.tensor then c.head.length + 32 * c.list.length else 32 * (s.planOf c).length)
  else if num = 1 then s.cutBytes.length
  else if c.tensor then Nat.min tensorSection (c.image - (num - 2) * tensorSection)
  else match s.itemOf c num with | some x => x.1.units.length * x.1.unitLen | none => 0
/-- The runs that make bytes `o` to `o + n − 1` of section `num`. -/
def State.sectionSegs (s : State) (c : Ctx) (num o n : Nat) : List Seg :=
  if num = 0 then clipSegs [.const (if c.tensor then c.tensorPlan else ((s.planOf c).map (fun r => r.raw)).flatten)] o n
  else if num = 1 then clipSegs [.const s.cutBytes] o n
  else if c.tensor then (c.piecesOf ((num - 2) * tensorSection + o) n).map Piece.seg
  else match s.itemOf c num with
    | some x => clipSegs (x.1.units.map (x.1.seg x.2.2)) o n
    | none => []
/-- Bytes 0x20–0x3F of a section's header, its fabric address and region. -/
def State.sectionTail (s : State) (c : Ctx) (num bad st unready : Nat) : List Byte × Nat × Nat :=
  if num < 2 then (zeros 6 ++ leBytes 1 st ++ zeros 17 ++ leBytes 8 bad, 0, 0)
  else if c.tensor then
    let lo := (num - 2) * tensorSection
    let ps := c.piecesOf lo (s.sectionLen c num)
    let used := c.list.filter (fun e => supplied ps e != 0)
    let chips := (used.map Resolved.fabric).eraseDups
    let f := match chips with | [x] => x | _ => 0xFF
    let slots := b2n (used.any (fun e => e.slot == 0)) + place (b2n (used.any (fun e => e.slot == 1))) 1 1
    (leBytes 1 c.elemType ++ leBytes 1 f ++ leBytes 1 c.rank ++ leBytes 1 slots ++ leBytes 2 (Nat.min used.length 0xFFFF) ++ leBytes 1 st ++ zeros 1 ++
      leBytes 8 (lo / Nat.max c.elem 1) ++ leBytes 4 (Nat.min unready 0xFFFFFFFF) ++ zeros 4 ++ leBytes 8 bad, f, 0)
  else match s.itemOf c num with
    | some x =>
      (leBytes 1 x.1.kind ++ leBytes 1 x.2.2 ++ leBytes 2 x.1.unitFirst ++ leBytes 2 x.1.unitLast ++ leBytes 1 st ++ zeros 1 ++ leBytes 8 x.1.offset ++
        leBytes 4 x.1.tag ++ leBytes 2 x.2.1 ++ zeros 2 ++ leBytes 8 bad, x.2.2, x.2.1)
    | none => (zeros 32, 0, 0)
/-- CHIP_HALTED of a section. -/
def State.sectionHalted (s : State) (c : Ctx) (num : Nat) : Bool :=
  if num < 2 then false
  else if c.tensor then
    let ps := c.piecesOf ((num - 2) * tensorSection) (s.sectionLen c num)
    let chips := (c.list.filter (fun e => supplied ps e != 0)).map Resolved.fabric
    chips != [] && chips.all (fun f => tget 0 c.haltSeen f == 2)
  else match s.itemOf c num with | some x => tget 0 c.haltSeen x.2.2 == 2 | none => false
/-- TYPE of a section. -/
def sectionType (c : Ctx) (num : Nat) : Nat := if num = 0 then 4 else if num = 1 then 3 else if c.tensor then 2 else 1

end Sys2Proof.Machine
end

