-- ==== Sys2Proof/Machine/DumpRun.lean ====
section
/-! DEFINITION. A dump under way: reading batches of raw bytes, compressing, sealing and writing sections, finishing, suspending
and ending (R436–R446, R455, R463–R465, R527). -/

namespace Sys2Proof.Machine

/-! ### What a dump's item keeps

x 10 context + 1; 30 jobs of the batch, each at 60000 + 8j: number, offset, length, first operation, WDA_HALT's operation + 1;
31 raw bytes of the section taken; 40 BAD_BYTES, 41 first failing status + 1, 42 cut short, 43 UNREADY elements, 44 chunks
sealed; 52 the item only finishes a dump that was SUSPENDED; 53 reason + 1 at the header; 50 reason to stop (Item.stopDump); 51 section not written whole + 1; 99 FINISHING. rep 8000 raw bytes not yet
compressed, 8001 stored bytes not yet sealed, 8002 payload, 8003 tags. -/

/-- Bytes of payload a section has on its way. -/
def Item.payload (i : Item) : List Byte := tget [] i.rep 8002
/-- SDF bytes at an offset go to every destination still open (R439, R465). -/
def Item.emit (i : Item) (c : Ctx) (off : Nat) (d : List Byte) : Item :=
  let host := c.toHost && !c.hostDropped && tget 0 i.x 50 != 3
  let a := 512 * c.storeBlock + off
  let i := if host then i.push (hostWrites (c.hostAddr + off) d) else i
  if c.toStore then i.push ((memPieces4 a d (d.length / 4096 + 2)).map (fun (p : Nat × List Byte) => OpK.dsWr p.1 p.2 c.sealed_)) else i
/-- Nothing of a section in progress remains. -/
def Item.clearSection (i : Item) : Item :=
  { i with x := [31, 40, 41, 42, 43, 44].foldl (fun x k => tput 0 x k 0) i.x, rep := [8000, 8001, 8002, 8003].foldl (fun r k => tput [] r k []) i.rep }

/-! ### Space (R441) -/

/-- Bytes from the SDF's start that the destination with the least room can hold before the TOC reserve. -/
def Ctx.room (c : Ctx) (size : Nat) : Nat := size - tocBytes c.items
def Ctx.fits (c : Ctx) (end_ : Nat) : Bool :=
  !(c.toHost && !c.hostDropped && decide (c.room c.hostSize < end_)) && !(c.toStore && decide (c.room (512 * c.storeBlocks) < end_))
/-- A destination cannot hold the header and the TOC. -/
def Ctx.noSpace (c : Ctx) : Bool :=
  (c.toHost && decide (c.hostSize < 512 + tocBytes c.items)) || (c.toStore && decide (512 * c.storeBlocks < 512 + tocBytes c.items))

/-! ### Reads of a run (R347, R439, R440, R475) -/

/-- The pieces of `n` bytes from `a` that cross no multiple of 4,096. -/
def memParts (a n : Nat) : Nat → List (Nat × Nat)
  | 0 => []
  | fuel + 1 => if n = 0 then [] else let k := Nat.min n (4096 - a % 4096); (a, k) :: memParts (a + k) (n - k) fuel
def partsOf (a n : Nat) : List (Nat × Nat) := memParts a n (n / 4096 + 2)
/-- The 64-byte aligned span that holds a piece. -/
def spanRd (f : Nat) (p : Nat × Nat) : OpK := .rd f (p.1 - p.1 % 64) (round64 (p.1 % 64 + p.2))
def Seg.ops (gone : List Nat) : Seg → List OpK
  | .mem f a n => if gone.contains f then [] else (partsOf a n).map (spanRd f)
  | _ => []
/-- Raw bytes with what is wrong with them. -/
structure Raw where
  data : List Byte := []
  good : Nat := 0
  bad : Nat := 0
  unready : Nat := 0
  status : Option Status := none
  cut : Bool := false
  gone : List Nat
  /-- Next operation. -/
  ix : Nat
def Raw.fail (r : Raw) (n : Nat) (e : Status) (f : Nat) : Raw :=
  { r with data := r.data ++ zeros n, bad := r.bad + n, status := r.status.or (some e), gone := if e = .chipAbsent then f :: r.gone else r.gone }
/-- One piece: its operation's data, or zeros. -/
def Raw.part (i : Item) (f : Nat) (r : Raw) (p : Nat × Nat) : Raw :=
  let b := tget 0 i.bad r.ix
  let n := r.ix + 1
  if r.gone.contains f then { r.fail p.2 .chipAbsent f with ix := n }
  else if b = notRead then { r with data := r.data ++ zeros p.2, bad := r.bad + p.2, cut := true, ix := n }
  else if b ≠ 0 then { r.fail p.2 (Status.ofCode (b - 1)) f with ix := n }
  else { r with data := r.data ++ ((tget [] i.rep r.ix).drop (p.1 % 64)).take p.2, good := r.good + p.2, ix := n }
/-- One run; `gone0` are the chips gone when the batch was set up, to which no read was issued. -/
def Raw.seg (i : Item) (gone0 : List Nat) (es : Nat) (r : Raw) (g : Seg) : Raw :=
  match g with
  | .const d => { r with data := r.data ++ d, good := r.good + d.length }
  | .unready n => { r with data := r.data ++ zeros n, unready := r.unready + n / Nat.max es 1 }
  | .lost n e => { r with data := r.data ++ zeros n, bad := r.bad + n, status := r.status.or (some e) }
  | .mem f a n => if gone0.contains f then r.fail n .chipAbsent f else (partsOf a n).foldl (Raw.part i f) r
  | .ctx f _ _ n =>
    if gone0.contains f then r.fail n .chipAbsent f
    else if tget 0 i.x 28 = 0 then { r with data := r.data ++ zeros n, bad := r.bad + n, cut := true }
    else match i.monitorStatus with
      | some e => r.fail n e f
      | none =>
        let d := ((i.monitorWords (n / 4)).map (leBytes 4)).flatten
        { r with data := r.data ++ d ++ zeros (n - d.length), good := r.good + n }

/-! ### Writing a section (R439, R441, R458, R460) -/

/-- Compress and seal what the section has so far, `last` with its end, and write the payload bytes that result. -/
def State.flush (s : State) (c : Ctx) (i : Item) (last : Bool) : Item :=
  let raw := tget [] i.rep 8000
  let st := if c.compress then cbfRun last (raw.length / 65536 + 1) raw else (raw, [])
  let pend := tget [] i.rep 8001 ++ st.1
  let k := tget 0 i.x 44
  let out := if c.sealed_ then sealRun s.fuses c.salt c.section_ last (pend.length / 65536 + 1) k pend else (pend, [], [])
  let pay := i.payload
  let i := { i with rep := tput [] (tput [] (tput [] (tput [] i.rep 8000 st.2) 8001 out.2.2) 8002 (pay ++ out.1)) 8003 (tget [] i.rep 8003 ++ out.2.1)
                    x := tput 0 i.x 44 (k + out.2.1.length / 16) }
  if out.1 = [] then i else i.emit c (c.next + 64 + pay.length) out.1
/-- Where the section in progress would end. -/
def Item.sectionEnd (i : Item) (c : Ctx) : Nat :=
  let stored := i.payload.length + (tget [] i.rep 8001).length + (tget [] i.rep 8000).length
  let tags := if c.sealed_ then 16 * Nat.max 1 (cdiv stored 65536) else 0
  c.next + round64 (64 + stored + tags)
/-- The section in progress is whole: tags, padding and header. The context goes on after it. -/
def State.endSection (s : State) (c : Ctx) (i : Item) : Ctx × Item :=
  let num := c.section_
  let i := s.flush c i true
  let pay := i.payload
  let tags := tget [] i.rep 8003
  let bad := tget 0 i.x 40
  let st := tget 0 i.x 41 - 1
  let unready := tget 0 i.x 43
  let t := s.sectionTail c num bad st unready
  let flags := b2n c.compress + place (b2n c.sealed_) 1 1 + place (b2n (s.sectionHalted c num)) 2 1 +
    place (b2n (bad != 0 || tget 0 i.x 42 != 0 || tget 0 i.x 41 != 0)) 3 1 + place (b2n (unready != 0)) 4 1
  let h : SecHead := { type := sectionType c num, flags := flags, number := num, fabric := t.2.1, status := st, region := t.2.2, tail := t.1 }
  let raw := tget 0 i.x 31
  let crc := secCrc h raw pay tags
  let len := round64 (64 + pay.length + tags.length)
  let i := i.emit c (c.next + 64 + pay.length) (tags ++ zeros (len - 64 - pay.length - tags.length))
  let i := i.emit c c.next (secHeader h raw pay.length (tags.length / 16) crc)
  let i := { i.clearSection with x := tput 0 i.clearSection.x (70000 + c.toc.length) i.nextIx }
  ({ c with toc := c.toc ++ [h.entry raw crc c.next], next := c.next + len, out := c.next + len, section_ := num + 1 }, i)
/-- Raw bytes join the section in progress; what no longer fits before the TOC reserve ends the dump without the section. -/
def State.takeRaw (s : State) (c : Ctx) (i : Item) (r : Raw) : Ctx × Item :=
  let add := fun (x : Tab Nat) k n => tmod 0 x k (fun v => v + n)
  let x := add (add (add i.x 31 r.data.length) 40 r.bad) 43 r.unready
  let x := match r.status with | some e => if tget 0 x 41 = 0 then tput 0 x 41 (e.code + 1) else x | none => x
  let i := { i with rep := tput [] i.rep 8000 (tget [] i.rep 8000 ++ r.data), x := if r.cut then tput 0 x 42 1 else x }
  let c := { c with raw := c.raw + r.good, gone := r.gone.eraseDups, errs := c.errs ++ r.status.toList }
  if !c.compress ∧ !c.fits (c.next + round64 (64 + s.sectionLen c c.section_ + (if c.sealed_ then 16 * Nat.max 1 (cdiv (s.sectionLen c c.section_) 65536) else 0))) then (c, i.clearSection.stopDump 4)
  else
    let j := s.flush c i false
    if c.fits (j.sectionEnd c) then ({ c with out := c.next + 64 + j.payload.length }, j) else (c, i.clearSection.stopDump 4)

/-! ### Batches (R438, R439) -/

/-- Job `j` of the batch: number, offset, length, first operation, WDA_HALT's operation + 1. -/
def Item.job (i : Item) (j : Nat) : List Nat := (List.range 5).map (fun k => tget 0 i.x (60000 + 8 * j + k))
def Item.addJob (i : Item) (v : List Nat) : Item :=
  let j := tget 0 i.x 30
  { i with x := tput 0 (v.zipIdx.foldl (fun x p => tput 0 x (60000 + 8 * j + p.2) p.1) i.x) 30 (j + 1) }
/-- WDA_HALT before a chip's first item. -/
def haltRead (f : Nat) : OpK := .rd f (wdaBase + 0x200) 8
/-- The chip of item `num` of a plan dump. -/
def State.itemChip (s : State) (c : Ctx) (num : Nat) : Option Nat :=
  if num < 2 ∨ c.tensor then none else (s.itemOf c num).map (fun x => x.2.2)
/-- Item `num` reads context words. -/
def State.itemCtx (s : State) (c : Ctx) (num : Nat) : Bool :=
  if num < 2 ∨ c.tensor then false else match s.itemOf c num with | some x => x.1.kind == 5 | none => false
/-- Set up the reads of up to `room` raw bytes from byte `o` of item `num` on, 256 KiB at most (R439). A context unit is asked
alone. `asked`: chips whose WDA_HALT this batch reads. -/
def State.planBatch (s : State) (c : Ctx) : Nat → Item → Nat → Nat → Nat → List Nat → Item
  | 0, i, _, _, _, _ => i
  | fuel + 1, i, num, o, room, asked =>
    match (if o ≠ 0 ∨ s.hasSection c num then some num else s.nextSection c num) with
    | none => i
    | some m =>
      let o := if m = num then o else 0
      let len := s.sectionLen c m
      let words := s.itemCtx c m
      let n := if words then (match s.itemOf c m with | some x => Nat.min (len - o) x.1.unitLen | none => 0) else Nat.min (len - o) (Nat.min 65536 room)
      if (words ∧ 0 < n ∧ tget 0 i.x 30 ≠ 0) ∨ (n = 0 ∧ o < len) then i
      else
        let ask := match s.itemChip c m with | some f => if tget 0 c.haltSeen f = 0 ∧ !asked.contains f ∧ !c.gone.contains f then some f else none | none => none
        let i1 := match ask with | some f => i.push [haltRead f] | none => i
        let first := i1.nextIx
        let i2 := i1.push (((s.sectionSegs c m o n).map (Seg.ops c.gone)).flatten)
        let i3 := i2.addJob [m, o, n, first, (match ask with | some _ => first | none => 0)]
        if words ∧ 0 < n then i3
        else if len ≤ o + n then s.planBatch c fuel i3 (m + 1) 0 (room - n) (ask.toList ++ asked)
        else s.planBatch c fuel i3 m (o + n) (room - n) (ask.toList ++ asked)
/-- Take one job's bytes. `gone0`: chips gone when the batch was set up. -/
def State.takeJob (s : State) (gone0 : List Nat) (p : Ctx × Item) (v : List Nat) : Ctx × Item :=
  let c := p.1
  let i := p.2
  if tget 0 i.x 42 ≠ 0 ∨ tget 0 i.x 50 = 4 then p
  else
    let num := v.getD 0 0
    let o := v.getD 1 0
    let n := v.getD 2 0
    let c := { c with section_ := num }
    let c := match s.itemChip c num, v.getD 4 0 with
      | some f, k + 1 =>
        let b := tget 0 i.bad k
        { c with haltSeen := tput 0 c.haltSeen f (if b = 0 then 1 + (leNat (tget [] i.rep k)) % 2 else 1), gone := if b = Status.chipAbsent.code + 1 then f :: c.gone else c.gone }
      | _, _ => c
    let r := (s.sectionSegs c num o n).foldl (Raw.seg i gone0 c.elem) { gone := c.gone, ix := v.getD 3 0 }
    let q := s.takeRaw c i r
    if tget 0 q.2.x 50 = 4 then q
    else if tget 0 q.2.x 42 = 0 ∧ tget 0 q.2.x 31 = s.sectionLen q.1 num then s.endSection q.1 q.2 else q
/-- The section in progress is closed with zeros (R464, R527): it is not whole. -/
def State.closeSection (s : State) (p : Ctx × Item) : Ctx × Item :=
  let c := p.1
  let i := p.2
  if tget 0 i.x 31 = 0 ∧ tget 0 i.x 42 = 0 then p
  else
    let n := s.sectionLen c c.section_ - tget 0 i.x 31
    let q := s.takeRaw c { i with x := tput 0 i.x 51 (c.section_ + 1) } { data := zeros n, bad := n, cut := true, gone := c.gone, ix := 0 }
    if tget 0 q.2.x 50 = 4 then q else s.endSection q.1 q.2
/-- What came of the batch is written; then the next batch is read, or the dump goes on to FINISHING. -/
def State.dumpBatch (s : State) (w : Work) (i : Item) (n : Nat) : State :=
  let c := s.ctx n
  let why := tget 0 i.x 50
  let jobs := (List.range (tget 0 i.x 30)).map i.job
  let i := { i with x := tput 0 i.x 30 0 }
  let p := if why = 3 ∨ why = 5 then (c, i.clearSection) else jobs.foldl (s.takeJob c.gone) (c, i)
  let p := if tget 0 p.2.x 50 ≠ 0 ∨ tget 0 p.2.x 42 ≠ 0 then (if tget 0 p.2.x 50 < 3 then s.closeSection p else (p.1, p.2.clearSection)) else p
  let i := { p.2 with x := tput 0 p.2.x 28 0 }
  let s := s.setCtx n p.1
  if tget 0 i.x 50 ≠ 0 then s.setItem w { i with stage := 20 }
  else
    let j := s.planBatch p.1 (p.1.items + 1024) i p.1.section_ (tget 0 i.x 31) 262144 []
    if tget 0 j.x 30 = 0 then s.setItem w { i with stage := 20 }
    else
      let v := j.job 0
      match (s.sectionSegs p.1 (v.getD 0 0) (v.getD 1 0) (v.getD 2 0)) with
      | [.ctx f u first len] =>
        if p.1.gone.contains f then s.setItem w { j with stage := 3 }
        else
          match s.issueStatus f with
          | some e => s.setItem w { j with stage := 3, x := tput 0 j.x 28 (e.code + 1) }
          | none => s.setItem w { j.askMonitor s.now (coreUnit f u) first (len / 4) false 0 with stage := 3 }
      | _ => s.setItem w { j with stage := 3 }

/-! ### The end (R439 steps 5 and 6, R455, R463–R465) -/

/-- Wake the DUMP_ABORT that waits for context `n`. -/
def State.abortWake (s : State) (n : Nat) : State :=
  s.mapItems (fun _ i => if opcodeOf i.desc = 0x34 ∧ i.wait = .ctl none ∧ tget 0 i.x 11 = n + 1 then Item.mark s.now i { i with wait := Wait.no } else i)
/-- The completion status, SDF STATE and CURSOR's section of a dump that ends. -/
def Item.dumpOutcome (i : Item) (c : Ctx) : Status × Nat × Nat :=
  let why := tget 0 i.x 50
  let met := Status.highest (c.errs ++ i.errs)
  let short := match tget 0 i.x 51 with | 0 => c.section_ | k + 1 => k
  if why = 2 then (.aborted, 2, 0)
  else if why = 3 then (.translationFault, 2, 0)
  else if why = 1 then (Status.max met .incomplete, 2, short)
  else if why = 4 then (Status.max met .incomplete, 2, c.section_)
  else if c.hostDropped then (Status.max met .incomplete, 1, c.hostFirst)
  else (met, 1, 0)
/-- A cursor (Table 15.9). -/
def dumpCursor (c : Ctx) (n sec : Nat) (suspended : Bool) : Nat := lo32 sec + (if suspended then place n 32 3 else 0) + place c.id 40 8
/-- The context is freed and source 172 reports; what the last-gasp record says of a dump survival served is kept. -/
def State.dumpFree (s : State) (n sdf : Nat) (st : Status) : State :=
  let c := s.ctx n
  let s := s.dumpEvent n sdf st.code
  let s := if s.dmp.surviving ∧ c.toStore then
      { s with dmp := { s.dmp with survInfo := { started := true, done := true, hostDropped := c.hostDropped, sealed_ := c.sealed_, plan := c.survival,
                                                 sdfState := sdf, dumpId := c.id, endTime := s.time, block := c.storeBlock, sections := c.toc.length + 1,
                                                 length := c.next + tocBytes c.toc.length } } }
    else s
  (s.setCtx n {}).abortWake n
/-- FINISHING: the TOC section. -/
def State.dumpToc (s : State) (w : Work) (i : Item) (n : Nat) : State :=
  let c := s.ctx n
  let s := s.setCtx n { c with state := .finishing }
  if tget 0 i.x 50 = 3 ∧ !c.toStore then s.setItem w { i with stage := 22 }
  else s.setItem w { (i.emit c c.next (tocSection c.toc)) with stage := 21, x := tput 0 i.x 99 1 }
/-- The header with its final values, rewritten if a host write's fault is aborted meanwhile. -/
def State.dumpHeader (s : State) (w : Work) (i : Item) (n : Nat) : State :=
  let c := s.ctx n
  let o := i.dumpOutcome c
  let len := c.next + tocBytes c.toc.length
  let st := if opcodeOf i.desc = 0x34 ∨ tget 0 i.x 52 = 1 then Status.incomplete.code else o.1.code
  let i := i.emit c 0 (s.sdfHeader c o.2.1 st s.time len c.next)
  s.setItem w { i with stage := 22, x := tput 0 i.x 53 (tget 0 i.x 50 + 1) }
/-- Step 6. -/
def State.dumpEnd (s : State) (w : Work) (i : Item) (n : Nat) : State :=
  let c := s.ctx n
  let o := i.dumpOutcome c
  let why := tget 0 i.x 50
  let sdf := if why = 3 ∧ !c.toStore then 0 else o.2.1
  let own := opcodeOf i.desc = 0x34 ∨ tget 0 i.x 52 = 1
  let s := s.dumpFree n sdf (if own then .incomplete else o.1)
  s.setItem w { i.done with x := tput 0 (tput 0 i.x 10 0) 99 0
                            errs := if opcodeOf i.desc = 0x34 then [] else [o.1]
                            detail := if opcodeOf i.desc = 0x34 then 0 else if why = 2 then 0x80000009 else c.toc.length + (if sdf = 0 then 0 else 1)
                            cursor := dumpCursor c n o.2.2 false }
/-- A host write fails when the host is out of reach: the dump ends with ABORTED (R233). A dump whose host part was dropped makes none. -/
def State.dumpHostGone (s : State) (w : Work) (i : Item) (n : Nat) : State :=
  let c := s.ctx n
  if i.errs.contains .aborted ∧ s.hostDown ∧ c.toHost ∧ !c.hostDropped then (s.dumpFree n 0 .aborted).setItem w { i.done with x := tput 0 i.x 10 0, errs := [.aborted] }
  else s
/-- A dump in its context: OPEN header, batches, TOC, header, end. -/
def State.dumpGo (s : State) (w : Work) (i : Item) (n : Nat) : State :=
  if i.stage = 1 then s.setItem w { (i.emit (s.ctx n) 0 (s.sdfHeader (s.ctx n) 0 0 0 0 0)) with stage := 2 }
  else if i.stage = 2 then (s.setCtx n { s.ctx n with out := Nat.max 512 (s.ctx n).out }).setItem w { i with stage := 3 }
  else if i.stage = 3 then s.dumpBatch w i n
  else if i.stage = 20 then s.dumpToc w i n
  else if i.stage = 21 ∨ (tget 0 i.x 50 = 3 ∧ tget 0 i.x 53 ≠ 4 ∧ (s.ctx n).toStore) then s.dumpHeader w i n
  else s.dumpEnd w i n
def dumpStep : Advance := fun s w i =>
  match tget 0 i.x 10 with
  | 0 => s.setItem w i.done
  | n + 1 =>
    let s := s.dumpHostGone w i n
    match s.item? w with
    | some j => if j.over then s else s.dumpGo w j n
    | none => s
/-- The end of a dump's item that did not reach step 6: PARTIAL leaves the context SUSPENDED, with the sections written whole;
during resolution, or with any other status, it is freed (R455, R486). -/
def dumpRep : Report := fun s _ i st =>
  match tget 0 i.x 10 with
  | 0 => (s, i.detail, i.cursor)
  | n + 1 =>
    let c := s.ctx n
    if tget 0 i.x 18 = 1 then ((s.setCtx n {}).abortWake n, i.detail, 0)
    else if st = .partial_ then
      let k := i.wholeSections c
      let c := match c.toc[k]? with
        | some t => { c with section_ := t.number, next := t.offset, out := t.offset, toc := c.toc.take k }
        | none => { c with out := Nat.min c.out c.next }
      let c := { c with state := .suspended, work := none, errs := (c.errs ++ i.errs).filter (· != .partial_) }
      ((s.setCtx n c).abortWake n, c.toc.length, dumpCursor c n c.section_ true)
    else (s.dumpFree n 0 st, i.detail, i.cursor)

end Sys2Proof.Machine
end

