-- ==== Sys2Proof/Machine/DumpCmd.lean ====
section
/-! DEFINITION. DUMP_PLAN, DUMP_RUN, DUMP_RESUME, DUMP_ABORT, STORE_DRAIN and DMP_CTRL.ENABLE (R437–R443, R452–R457, R464,
R469, R486, R487). -/

namespace Sys2Proof.Machine

/-! ### DETAIL of an ABORTED dump command (Tables 15.8, 16.3) -/

def noContext : Nat := 0x80000001
def storeBusyCode : Nat := 0x80000002
def noPlan : Nat := 0x80000003
def noSpaceCode : Nat := 0x80000004
def noStore : Nat := 0x80000005
def badCursor : Nat := 0x80000006
def disabledCode : Nat := 0x80000007
def planBusyCode : Nat := 0x80000008
def abortedBy : Nat := 0x80000009
/-- The command completes with ABORTED and a named DETAIL. -/
def Item.abortWith (i : Item) (code : Nat) : Item := { i.fail .aborted with detail := code }

/-! ### DUMP_PLAN (R452) -/

def State.planBusy (s : State) (id : Nat) : Bool :=
  (List.range 5).any (fun n => (s.ctx n).state != .free && !(s.ctx n).tensor && (s.ctx n).planId == id) || (s.dmp.survArmed && s.dmp.survPlan == id)
def planId (d : BitVec 512) : Nat := dbits d 0x10 0 3
def planCount (d : BitVec 512) : Nat := Nat.min (db d 0x12 2) 256
/-- The region entries read. -/
def Item.regions (i : Item) : List Region :=
  let d := i.gather 0 i.nextIx
  (List.range (planCount i.desc)).map (fun j => regionOf ((d.drop (32 * j)).take 32))
/-- The entries have been read, and one makes a misuse: the DUMP_PLAN's scope is open (R469). -/
def planNote (s : State) (w : Work) (i : Item) : State :=
  if i.stage = 1 ∧ i.out = 0 ∧ i.todo = [] ∧ !i.dead ∧ i.regions.any Region.odd then s.markOdd w 1 else s
/-- The plan of a slot, and its bytes in the staging SRAM (Table 2.14). -/
def State.putPlan (s : State) (id : Nat) (p : List Region) : State :=
  { s with dmp := { s.dmp with plans := tput [] s.dmp.plans id p }, sram := mwrite s.sram (0xF00000 + 0x2000 * id) ((p.map (fun r => r.raw)).flatten) }
def planAdv : Advance := fun s w i =>
  let id := planId i.desc
  if i.stage = 0 ∧ planCount i.desc ≠ 0 then s.setItem w { i.push (hostReads (db i.desc 0x18 8) (32 * planCount i.desc)) with stage := 1 }
  else if s.planBusy id then s.setItem w (i.abortWith planBusyCode)
  else if i.stage = 0 then (s.putPlan id []).setItem w i.done
  else
    let r := if i.regions.any Region.odd then
        let r := s.free
        (i.regions.map (fun x => if x.odd then x.legal r.1.toNat else x), r.2)
      else (i.regions, s)
    (r.2.putPlan id r.1).setItem w { i.done with detail := 2 + (planItems r.1).length }

/-! ### Taking a context (R438, R439, R441) -/

/-- A context has the dump store as a destination. -/
def State.storeBusy (s : State) : Bool := (List.range 5).any (fun n => (s.ctx n).state != .free && (s.ctx n).toStore)
def State.freeCtx (s : State) : Option Nat := (List.range 4).find? (fun n => (s.ctx n).state == .free)
/-- The causes of an ABORTED dump that are tested before its plan, in order (log entry 31). -/
def State.dumpBar (s : State) (store : Bool) : Option Nat :=
  if !s.dmp.enable then some disabledCode
  else if store && s.boot.dsSize == 0 then some noStore
  else if store && s.storeBusy then some storeBusyCode
  else none
/-- A context for a descriptor: DUMP_ID, sealing with its SALT, and what the header records of the first stroke. -/
def State.newCtx (s : State) (n : Nat) (d : BitVec 512) (w : Work) (tensor survival : Bool) : State :=
  let sealed_ := s.lcs.state == 4
  let r := if sealed_ then s.freeWide 128 else (0, s)
  let s := { r.2 with dmp := { r.2.dmp with lastId := (r.2.dmp.lastId + 1) % 2 ^ 32 } }
  let c : Ctx := { state := .running, survival := survival, toHost := dbits d 0x11 0 1 == 1, toStore := dbits d 0x11 1 1 == 1, sealed_ := sealed_,
                   compress := dbits d 0x12 0 1 == 1, cut := dbits d 0x12 1 1 == 1, tensor := tensor, planId := if tensor then 0 else planId d, work := some w,
                   id := s.dmp.lastId, start := db d 0x14 4, section_ := db d 0x14 4, next := 512, hostAddr := db d 0x18 8, hostSize := db d 0x20 8,
                   storeBlock := db d 0x28 4, storeBlocks := db d 0x2C 4, salt := r.1, startTime := s.time, lcState := s.lcs.state,
                   cutId := if s.cut.retained then s.cut.lastId else 0, desc := d,
                   items := if tensor then 0 else 2 + (planItems (tget [] s.dmp.plans (planId d))).length }
  { s with sramClean := false }.setCtx n c

/-! ### DUMP_RUN, DUMP_RESUME, DUMP_ABORT (R454–R456) -/

/-- SURVIVE arms the plan, replacing an earlier arming. -/
def State.armSurvival (s : State) (d : BitVec 512) : State :=
  { s with dmp := { s.dmp with survArmed := true, survPlan := planId d, survCompress := dbits d 0x12 0 1 == 1, survCut := dbits d 0x12 1 1 == 1,
                               survBlock := db d 0x28 4, survBlocks := db d 0x2C 4 } }
def runFirst (s : State) (w : Work) (i : Item) : State :=
  let d := i.desc
  if dbits d 0x12 2 1 = 1 then (s.armSurvival d).setItem w i.done
  else
    match s.dumpBar (dbits d 0x11 1 1 == 1), s.freeCtx with
    | some code, _ => s.setItem w (i.abortWith code)
    | none, none => s.setItem w (i.abortWith noContext)
    | none, some n =>
      if tget [] s.dmp.plans (planId d) = [] then s.setItem w (i.abortWith noPlan)
      else
        let t := s.newCtx n d w false false
        if (t.ctx n).noSpace then s.setItem w (i.abortWith noSpaceCode)
        else t.setItem w { i with stage := 1, x := tput 0 i.x 10 (n + 1) }
def runAdv : Advance := fun s w i => if i.stage = 0 then runFirst s w i else dumpStep s w i
/-- The sections from item `sec` on are written anew, from where the first of them began. -/
def Ctx.rewind (c : Ctx) (sec : Nat) : Ctx :=
  let keep := c.toc.takeWhile (fun t => t.number < sec)
  match c.toc[keep.length]? with
  | some t => { c with toc := keep, section_ := sec, next := t.offset, out := Nat.min c.out t.offset }
  | none => { c with section_ := sec }
def resumeAdv : Advance := fun s w i =>
  if i.stage ≠ 0 then dumpStep s w i
  else if !s.dmp.enable then s.setItem w (i.abortWith disabledCode)
  else
    match s.cursorHit i.desc with
    | none => s.setItem w (i.abortWith badCursor)
    | some n =>
      if (s.ctx n).state ≠ CtxState.suspended then s.setItem w (i.abortWith badCursor)
      else
        let c := { (s.ctx n).rewind (db i.desc 0x10 4) with state := CtxState.running, work := some w }
        (s.setCtx n c).setItem w { i with stage := if c.out < 512 then 1 else 3, x := tput 0 i.x 10 (n + 1) }
/-- The dump that context `n` serves stops; one still resolving a tensor ends at once with ABORTED (R456, R464, R487). -/
def State.stopCtx (s : State) (n why code : Nat) : State :=
  match (s.ctx n).work with
  | none => s
  | some w => s.updItem w (fun i =>
      if tget 0 i.x 18 = 1 then { i with dead := true, todo := [], wait := Wait.no, errs := i.errs ++ [.aborted], detail := code } else i.stopDump why)
/-- A parked dump leaves the fault log, as under R282. -/
def State.unparkCtx (s : State) (n : Nat) : State :=
  match (s.ctx n).work with
  | some w => if (s.ctx n).state = .parked then ((s.freeEntry (.item w)).parkOwner (.item w) false).dropUnqueued (.item w) else s
  | none => s
/-- DUMP_ABORT finishes a SUSPENDED dump itself. -/
def State.finishSuspended (s : State) (w : Work) (i : Item) (n : Nat) : State :=
  (s.setCtx n { s.ctx n with work := some w, state := CtxState.finishing }).setItem w { i with stage := 20, x := tput 0 (tput 0 i.x 10 (n + 1)) 50 1 }
def abortAdv : Advance := fun s w i =>
  if tget 0 i.x 10 ≠ 0 then dumpStep s w i
  else if i.stage = 0 ∧ dbits i.desc 0x16 0 1 = 1 then
    { s with dmp := { s.dmp with survArmed := false, survPlan := 0, survCompress := false, survCut := false, survBlock := 0, survBlocks := 0 } }.setItem w i.done
  else
    match s.cursorHit i.desc with
    | none => s.setItem w (if i.stage = 0 then i.abortWith badCursor else i.done)
    | some n =>
      let st := (s.ctx n).state
      if st = .suspended then s.finishSuspended w i n
      else if i.stage = 0 ∧ (st = .running ∨ st = .parked) then
        ((s.stopCtx n 2 abortedBy).unparkCtx n).setItem w { i with stage := 1, wait := .ctl none, x := tput 0 i.x 11 (n + 1) }
      else s.setItem w (if i.stage = 0 then i.abortWith badCursor else i.done)

/-! ### DMP_CTRL.ENABLE (R464, R487) -/

/-- A SUSPENDED dump is finished by a ringless work item. -/
def State.finishFree (s : State) (n : Nat) : State :=
  let c := s.ctx n
  let r := s.addFree { desc := c.desc, begun := true, stage := 20, eligAt := s.now, x := tput 0 (tput 0 (tput 0 [] 10 (n + 1)) 50 1) 52 1 }
  r.2.setCtx n { c with work := some r.1, state := CtxState.finishing }
def State.dumpDisable (s : State) : State :=
  if !s.dmp.enable then s
  else
    let s := { s with dmp := { s.dmp with enable := false, cache := [], cacheOdd := false } }
    (List.range 5).foldl (fun s n =>
      match (s.ctx n).state with
      | .running | .parked => s.stopCtx n 1 disabledCode
      | .suspended => s.finishFree n
      | _ => s) s
def State.dumpEnable (s : State) (on : Bool) : State := if on then { s with dmp := { s.dmp with enable := true } } else s.dumpDisable

/-! ### STORE_DRAIN without OPEN (R443, R457) -/

def drainOpen (d : BitVec 512) : Bool := dbits d 0x10 0 1 == 1
/-- Blocks of the tag table of a range with these seal bits. -/
def tagBlocks (seals : List Bool) : Nat := cdiv (16 * (seals.filter (fun b => !b)).length) 512
/-- What a range's blocks give: as stored where the bit is set, else encrypted, with their tags. -/
def sealedForm (f : Fuses) (salt : BitVec 128) : Nat → List Bool → List Byte → List Byte × List Byte
  | _, [], _ => ([], [])
  | b, sl :: r, d =>
    let t := sealedForm f salt (b + 1) r (d.drop 512)
    if sl then (d.take 512 ++ t.1, t.2)
    else
      let v := sealOf f salt (blockIv b) (d.take 512)
      (v.1 ++ t.1, v.2 ++ t.2)
/-- Whole blocks whose host writes were issued. Keys of a drain: 0 blocks whose host writes are done, 4 blocks written, 5 blocks read
ahead of it, 8 first write, 9 first read. rep 8003 tags of the blocks encrypted so far, 8004 SALT. -/
def Item.drained (i : Item) : Nat :=
  let lo := tget 0 i.x 8
  let h := db i.desc 0x18 8 + 512 * tget 0 i.x 0
  let n := Nat.min (i.issued - lo) (i.nextIx - lo)
  let good := ((List.range n).takeWhile (fun j => tget 0 i.bad (lo + j) == 0)).length
  tget 0 i.x 0 + (if good = 0 then 0 else Nat.min (tget 0 i.x 4 - tget 0 i.x 0) ((256 * good - h % 256) / 512))
def State.drainFirst (s : State) (w : Work) (i : Item) : State :=
  if s.boot.dsSize = 0 then s.setItem w (i.abortWith noStore)
  else
    let r := s.freeWide 128
    r.2.setItem w { i with stage := 1, rep := tput [] i.rep 8004 (leBytes 16 r.1.toNat) }
/-- What was read is written, in the form that the state in effect and the blocks' seal bits then ask for (R199, R443), and the next
64 KiB are read. The tag table follows the last block. -/
def State.drainBatch (s : State) (w : Work) (i : Item) : State :=
  let d := i.desc
  let n := db d 0x2C 4
  let at_ := tget 0 i.x 4
  if i.drained < at_ then s.setItem w i.done
  else
    let m := tget 0 i.x 5
    let data := i.gather (tget 0 i.x 9) (cdiv m 8)
    let seals := (List.range m).map (fun j => s.lcs.state != 4 || tget false s.dmp.sealMap (db d 0x14 4 + at_ + j))
    let v := sealedForm s.fuses (BitVec.ofNat 128 (leNat (tget [] i.rep 8004))) (db d 0x14 4 + at_) seals data
    let tags := tget [] i.rep 8003 ++ v.2
    let host := db d 0x28 4
    let tab := tags ++ zeros (512 * cdiv tags.length 512 - tags.length)
    let out := if at_ + m = n ∧ m ≠ 0 then v.1 ++ tab.take (512 * (host - n)) else v.1
    let next := at_ + out.length / 512
    let h := db d 0x18 8 + 512 * at_
    let j := { i with rep := tput [] i.rep 8003 tags, x := [(0, at_), (4, next), (5, 0), (8, i.nextIx)].foldl (fun x (p : Nat × Nat) => tput 0 x p.1 p.2) i.x }
    let j := j.push (hostWrites h out)
    let room := Nat.min n host
    let k := if next < room then Nat.min 128 (room - next) else 0
    if k = 0 ∧ out = [] then s.setItem w { j.done with x := tput 0 j.x 0 next, errs := if host < n + cdiv tags.length 512 then j.errs ++ [.incomplete] else j.errs }
    else
      let a := 512 * (db d 0x14 4 + next)
      let ops := (List.range (cdiv k 8)).map (fun q => OpK.dsRd (a + 4096 * q) (512 * Nat.min 8 (k - 8 * q)))
      s.setItem w { j.push ops with stage := 1, x := tput 0 (tput 0 j.x 5 k) 9 j.nextIx }

/-! ### STORE_DRAIN with OPEN (R200, R457, log entry 32) -/

/-- One section of a sealed SDF: the plain text of its chunks, and whether every tag verifies. -/
def State.openSection (s : State) (salt : BitVec 128) (num : Nat) (pay tags : List Byte) : Nat → Nat → List Byte × Bool
  | 0, _ => ([], true)
  | k + 1, j =>
    match openOf s.fuses salt (sealIv num j (k == 0)) ((pay.drop (65536 * j)).take 65536) ((tags.drop (16 * j)).take 16) with
    | some a =>
      let t := s.openSection salt num pay tags k (j + 1)
      (a ++ t.1, t.2)
    | none => ([], false)
/-- What opening has produced: plain sections with their offsets, TOC entries, and how it ended. -/
structure Opened where
  out : List (Nat × List Byte) := []
  toc : List TocEntry := []
  next : Nat := 512
  failed : Bool := false
  /-- First section that passes HOST_SIZE. -/
  stop : Option Nat := none
/-- Walk the sections of `sdf` from offset `off`. -/
def State.openWalk (s : State) (salt : BitVec 128) (sdf : List Byte) (room : Nat) : Nat → Nat → Opened → Opened
  | 0, _, r => r
  | fuel + 1, off, r =>
    let h := (sdf.drop off).take 64
    let w := fun o n => leNat ((h.drop o).take n)
    if h.length < 64 ∨ w 0 2 = 0xF ∨ w 0 2 = 0 then r
    else
      let stored := w 0x10 8
      let tags := w 0x18 4
      let pay := (sdf.drop (off + 64)).take stored
      match s.openSection salt (w 4 4) pay ((sdf.drop (off + 64 + stored)).take (16 * tags)) tags 0 with
      | (_, false) => { r with failed := true }
      | (p, true) =>
        let len := round64 (64 + p.length)
        if room < r.next + len then { r with stop := some (w 4 4) }
        else
          let sh : SecHead := { type := w 0 2, flags := setFld (w 2 2) 1 1 0, number := w 4 4, fabric := w 0x21 1, status := w 0x26 1, region := w 0x34 2, tail := h.drop 32 }
          let crc := secCrc sh (w 8 8) p []
          let b := secHeader sh (w 8 8) p.length 0 crc ++ p ++ zeros (len - 64 - p.length)
          s.openWalk salt sdf room fuel (off + round64 (64 + stored + 16 * tags))
            { r with out := r.out ++ [(r.next, b)], toc := r.toc ++ [sh.entry (w 8 8) crc r.next], next := r.next + len }
/-- The plain header. -/
def openHeader (h : List Byte) (count length tocOff : Nat) : List Byte :=
  let f := setFld (leNat ((h.drop 7).take 1)) 0 1 0
  let b := setBytes (setBytes (setBytes (setBytes (setBytes h 7 (leBytes 1 f)) 0x28 (leBytes 4 count)) 0x40 (leBytes 8 length)) 0x48 (leBytes 8 tocOff)) 0x50 (zeros 16)
  setBytes b 0x1FC (leBytes 4 (crc32 (b.take 0x1FC)))
def State.openAll (s : State) (w : Work) (i : Item) : State :=
  let d := i.desc
  let sdf := i.gather 0 i.nextIx
  let h := sdf.take 512
  let room := 512 * db d 0x28 4
  let r := s.openWalk (BitVec.ofNat 128 (leNat ((h.drop 0x50).take 16))) sdf room (sdf.length / 64) 512 {}
  let fit := r.stop.isNone && !r.failed && decide (r.next + tocBytes r.toc.length ≤ room)
  let ws := (r.out.map (fun (p : Nat × List Byte) => hostWrites (db d 0x18 8 + p.1) p.2)).flatten
  let end_ := if fit then hostWrites (db d 0x18 8 + r.next) (tocSection r.toc) else []
  let hd := if r.failed ∨ room < 512 then [] else hostWrites (db d 0x18 8) (openHeader h (r.toc.length + b2n fit) (if fit then r.next + tocBytes r.toc.length else r.next) (if fit then r.next else 0))
  let n := r.toc.length + b2n fit
  let i := { i.push (ws ++ end_ ++ hd) with stage := 12, detail := n, cursor := (match r.stop with | some k => k | none => 0xFFFFFFFF) }
  s.setItem w { i with errs := if r.failed then i.errs ++ [.aborted] else if fit then i.errs else i.errs ++ [.incomplete] }
/-- The header is read; then the rest, when it is a finished sealed SDF of this unit. -/
def State.openFirst (s : State) (w : Work) (i : Item) : State :=
  let src := db i.desc 0x20 8
  if i.stage = 0 then s.setItem w { i.push (hostReads src 512) with stage := 10 }
  else if i.stage = 10 then
    let h := i.gather 0 i.nextIx
    let len := leNat ((h.drop 0x40).take 8)
    if (h.drop 8).take 16 ≠ unitBytes s.fuses.unitId ∨ leNat (h.take 4) ≠ 0x31464453 ∨ !bit (leNat ((h.drop 7).take 1)) 0 ∨ len < 512 then s.setItem w (i.fail .aborted)
    else s.setItem w { i.push (hostReads (src + 512) (len - 512)) with stage := 11 }
  else if i.stage = 11 then s.openAll w i
  else s.setItem w i.done
def drainAdv : Advance := fun s w i =>
  if drainOpen i.desc then s.openFirst w i
  else if i.stage = 0 then s.drainFirst w i
  else s.drainBatch w i
def drainRep : Report := fun s _ i _ =>
  if drainOpen i.desc then (s, i.detail, i.cursor)
  else if tget 0 i.x 0 = 0 ∧ tget 0 i.x 4 = 0 ∧ i.detail ≠ 0 then (s, i.detail, 0)
  else (s, i.drained, db i.desc 0x14 4 + i.drained)

/-! ### Commands -/

/-- DUMP_PLAN (R437, R452, R453). -/
def execDumpPlan (e : Nat) (s : State) : Out := s.row e 0x30 planNote planAdv repItem
/-- DUMP_RUN (R438–R446, R454, R458–R463). -/
def execDumpRun (e : Nat) (s : State) : Out := s.row e 0x31 noCheck runAdv dumpRep
/-- DUMP_RESUME (R455, R531). -/
def execDumpResume (e : Nat) (s : State) : Out := s.row e 0x33 noCheck resumeAdv dumpRep
/-- DUMP_ABORT (R456, R527). -/
def execDumpAbort (e : Nat) (s : State) : Out := s.row e 0x34 noCheck abortAdv dumpRep
/-- STORE_DRAIN (R199, R200, R443, R457). -/
def execStoreDrain (e : Nat) (s : State) : Out := s.row e 0x35 noCheck drainAdv drainRep

end Sys2Proof.Machine
end

