-- ==== Sys2Proof/Machine/TraceCmd.lean ====
section
/-! DEFINITION. TRACE_ARM, TRACE_STOP, TRACE_DRAIN and COUNTER_SNAP, the clock's events of a capture, and what ends their
waits (R495–R500, R506–R510, R514, R515). -/

namespace Sys2Proof.Machine

/-! ### TRACE_ARM (R507) -/

def traceDisabled : Nat := 0x80000001
def traceArmed : Nat := 0x80000002
def traceUndrained : Nat := 0x80000003
def drainBusy : Nat := 0x80000004
/-- Records a window holds. -/
def preOf (d : BitVec 512) : Nat := Nat.min (Nat.max (dbits d 0x16 0 11) 1) 1024
/-- The trace region emptied and set up for a capture, with its START marker (R495, Table 17.5). -/
def State.traceSetup (s : State) (d : BitVec 512) : State :=
  let win := dbits d 0x12 0 1 == 1
  let code := dbits d 0x13 0 3
  let t : Trc := { s.trc with
    state := if win then TraceState.pre else TraceState.streaming, windowMode := win, captured := false, triggered := false, need := 0, trigNow := 0, odd := s.trc.odd && dbits d 0x12 4 1 == 0
    ringSize := if win then 262144 - 128 * preOf d else 262144, received := 0, gaps := 0, dropped := 0, linkGaps := 0, discarded := 0, ignored := 0
    source := code, edge := dbits d 0x13 4 2, trigAt := db d 0x18 8, postNs := db d 0x20 8, preN := preOf d, first := fabFirst d, last := fabLast d
    ring := [], timeFired := false, chips := [] }
  { s with trc := t }.ringPush [marker 0x20 code (fabFirst d + place (fabLast d) 8 7 + place (b2n win) 16 1) s.time]
/-- The writes that turn on one chip's taps. -/
def armOps (d : BitVec 512) (f : Nat) : List OpK :=
  [regWr f (wdaBase + 0x504) (db d 0x28 4), regWr f (wdaBase + 0x500) (1 + place (dbits d 0x12 1 1) 1 1 + place (dbits d 0x12 2 1) 2 1 + place (db d 0x14 2) 16 16)]
def armAdv : Advance := fun s w i =>
  let d := i.desc
  if i.stage ≠ 0 then s.setItem w i.done
  else if !s.trc.enable then s.setItem w (i.abortWith traceDisabled)
  else if s.trc.state.armed then s.setItem w (i.abortWith traceArmed)
  else if s.trc.ring ≠ [] ∧ dbits d 0x12 4 1 = 0 then s.setItem w (i.abortWith traceUndrained)
  else (s.traceSetup d).setItem w (s.pushChips i (armOps d))
/-- Places, in the list of chips written to, of those whose taps were not turned on. -/
def Item.unarmed (i : Item) : List Nat := (List.range (i.nextIx / 2)).filter (fun j => !i.opOk (2 * j + 1))
/-- DETAIL counts the chips armed; a chip that was not written is not armed (R507). -/
def armRep : Report := fun s _ i _ =>
  let s := if i.unarmed = [] then s else (i.unarmed.foldl (fun (s : State) j =>
    let f := tget 0 i.x (2000 + j)
    s.setTchip f { s.tchip f with armed := false }) s).checkFlushed
  (s, if i.nextIx = 0 then i.detail else i.countOk (i.nextIx / 2) (fun j => 2 * j + 1), 0)

/-! ### TRACE_STOP (R508) -/

/-- Chips armed for this capture. -/
def State.armedChips (s : State) : List Nat := (List.range 128).filter (fun f => (s.tchip f).armed)
def stopAdv : Advance := fun s w i =>
  if i.stage = 0 then
    match s.trc.state with
    | .streaming | .pre | .post =>
      (s.stopMarker 0).setItem w { i.push (s.armedChips.map (fun f => regWr f (wdaBase + 0x500) 0)) with stage := 1 }
    | _ => s.setItem w i.done
  else if i.stage = 1 then
    let s := s.checkFlushed
    if s.trc.state = TraceState.flushing then s.setItem w { i with stage := 2, wait := .cond } else s.setItem w { i with stage := 2 }
  else s.setItem w i.done
/-- DETAIL counts the chips whose FLUSHED record was received. -/
def stopRep : Report := fun s _ i _ =>
  (s, if tget 0 i.x 0 = 0 ∧ i.nextIx = 0 then 0 else ((s.armedChips.filter (fun f => (s.tchip f).flushed && decide ((s.tchip f).expect < 256))).length), 0)

/-! ### TRACE_DRAIN (R509) -/

def toStore (d : BitVec 512) : Bool := dbits d 0x10 0 1 == 1
def drainWaits (d : BitVec 512) : Bool := dbits d 0x10 1 1 == 1
def drainFinal (d : BitVec 512) : Bool := dbits d 0x10 2 1 == 1
/-- Records the destination takes. -/
def drainCap (d : BitVec 512) : Nat := if toStore d then 32 * db d 0x2C 4 else db d 0x20 8 / 16
/-- Another TRACE_DRAIN runs. -/
def State.otherDrain (s : State) (w : Work) : Bool :=
  s.works.any (fun v => v != w && (s.item? v).any (fun i => opcodeOf i.desc == 0x42 && tget 0 i.x 7 == 1 && i.fin.isNone))
/-- The wait of a WAIT drain is over (stage 1), by records, by STOPPED, or by TIMEOUT. -/
def State.drainReady (s : State) (i : Item) : Bool :=
  decide (Nat.max (db i.desc 0x30 4) 1 ≤ s.trc.ring.length) || s.trc.state == .stopped || i.late s.now
/-- Trace has stopped, and nothing remains in the output sequence but what the batch under way holds. -/
def State.drainedOut (s : State) : Bool := (s.trc.state == .stopped || s.trc.state == .idle) && s.trc.ring.isEmpty
/-- Copy the next `n` records: keys 1 records copied or being copied, 3 and 4 as in `traceWritten`. -/
def State.drainCopy (s : State) (w : Work) (i : Item) (n : Nat) : State :=
  let d := i.desc
  let n := Nat.min n 4096
  let b := ((s.trc.ring.take n).map TraceRec.bytes).flatten
  let at_ := tget 0 i.x 1
  let ops := if toStore d then
      (let b := b ++ zeros (cdiv n 32 * 512 - b.length)
       let a := 512 * db d 0x28 4 + 16 * at_
       (List.range (cdiv b.length 4096)).map (fun q => OpK.dsWr (a + 4096 * q) ((b.drop (4096 * q)).take 4096) false))
    else hostWrites (db d 0x18 8 + 16 * at_) b
  s.setItem w { i.push ops with stage := 3, x := tput 0 (tput 0 i.x 1 (at_ + n)) 3 n }
/-- What a FINAL drain may copy now: the dump store takes whole blocks until the end. -/
def State.finalNow (s : State) (i : Item) : Nat :=
  let n := Nat.min s.trc.ring.length (drainCap i.desc - tget 0 i.x 1)
  if toStore i.desc ∧ s.trc.state ≠ TraceState.stopped ∧ !i.late s.now then n / 32 * 32 else n
def State.finalStep (s : State) (w : Work) (i : Item) : State :=
  let n := s.finalNow i
  if n ≠ 0 then s.drainCopy w i n
  else if s.drainedOut then s.setItem w i.done
  else if drainCap i.desc ≤ tget 0 i.x 1 then s.setItem w (i.fail .incomplete)
  else if i.late s.now then s.setItem w (i.fail .timeout)
  else s.setItem w { i with wait := .cond }
/-- A drain of what is present: key 2 holds how many records its first copying stroke found. -/
def State.presentStep (s : State) (w : Work) (i : Item) : State :=
  let n := Nat.min (tget 0 i.x 2) (drainCap i.desc) - tget 0 i.x 1
  if n = 0 then s.setItem w (if tget 0 i.x 5 = 1 then i.fail .timeout else i.done) else s.drainCopy w i n
def traceDrainAdv : Advance := fun s w i =>
  if i.stage = 0 then
    if s.otherDrain w then s.setItem w (i.abortWith drainBusy)
    else s.setItem w { i with stage := 1, x := tput 0 i.x 7 1 }
  else if i.errs ≠ [] then s.setItem w i.done
  else if i.stage = 1 then
    if drainWaits i.desc ∧ !s.drainReady i then s.setItem w { i with wait := .cond }
    else
      let out := drainWaits i.desc && !(decide (Nat.max (db i.desc 0x30 4) 1 ≤ s.trc.ring.length)) && s.trc.state != .stopped
      s.setItem w { i with stage := 3, x := tput 0 (tput 0 i.x 2 s.trc.ring.length) 5 (b2n out) }
  else if drainFinal i.desc then s.finalStep w i
  else s.presentStep w i
def traceDrainRep : Report := fun s _ i _ => (s, if tget 0 i.x 7 = 1 then tget 0 i.x 4 else i.detail, 0)
/-- TRACE_DRAIN_TIMEOUT: a drain that waits copies what is present. -/
def State.drainTimeout (s : State) (n : Nat) : State :=
  s.onWork n (fun i => opcodeOf i.desc == 0x42 && i.wait == .cond && i.late s.now) (fun i => { i with wait := Wait.no })

/-! ### COUNTER_SNAP (R510, Table 17.11) -/

def snapEngines (d : BitVec 512) : Bool := dbits d 0x12 0 1 == 1
def snapTimed (d : BitVec 512) : Bool := dbits d 0x12 1 1 == 1
def snapCtl : Nat := wdaBase + 0x600
/-- The latch of one chip. -/
def snapOps (d : BitVec 512) (f : Nat) : List OpK :=
  let clear := place (dbits d 0x12 2 1) 2 1
  if snapTimed d then [regWr f (wdaBase + 0x608) (lo32 (db d 0x28 8)), regWr f (wdaBase + 0x60C) (hi32 (db d 0x28 8)), regWr f snapCtl (3 + clear)]
  else [regWr f snapCtl (1 + clear)]
/-- Reads of a latched chip's shadow. -/
def shadowOps (d : BitVec 512) (f : Nat) : List OpK :=
  .rd f (wdaBase + 0x640) 64 :: (if snapEngines d then [.rd f (wdaBase + 0xE000) 4096, .rd f (wdaBase + 0xF000) 4096] else [])
/-- Chips of the range written, in order; kept from key 2000 on by `pushChips`. -/
def State.snapChips (s : State) (i : Item) : List Nat := (fabRange (fabFirst i.desc) (fabLast i.desc)).filter s.present
def Item.snapList (i : Item) : List Nat := (List.range (tget 0 i.x 12)).map (fun j => tget 0 i.x (2000 + j))
/-- The `j`th chip's latch was written. -/
def Item.latched (i : Item) (j : Nat) : Bool := let n := tget 0 i.x 1; i.opOk (n * j + (n - 1))
/-- Places, in the list of chips written, of those latched. -/
def Item.latchedList (i : Item) : List Nat := (List.range (tget 0 i.x 12)).filter i.latched
/-- Those whose last read of WDA_CNT_CTRL showed PENDING; key 3000 + place holds that read's index + 1, and 4000 + place the
CNT_CTRL word last read. -/
def Item.snapPending (i : Item) : List Nat :=
  i.latchedList.filter (fun j => let k := tget 0 i.x (3000 + j); k = 0 || (i.opOk (k - 1) && bit (leNat ((tget [] i.rep (k - 1)).take 4)) 3))
def Item.pollSnap (i : Item) (l : List Nat) : Item :=
  l.foldl (fun (i : Item) j =>
    let f := tget 0 i.x (2000 + j)
    { i.push [.rd f snapCtl 8] with x := tput 0 i.x (3000 + j) (i.nextIx + 1) }) i
def Item.readShadows (i : Item) : Item :=
  i.latchedList.foldl (fun (i : Item) j => { i.push (shadowOps i.desc (tget 0 i.x (2000 + j))) with x := tput 0 i.x (5000 + j) (i.nextIx + 1) }) i
/-- The highest status of a chip's operations. -/
def Item.snapStatus (i : Item) (j : Nat) : Status :=
  let n := tget 0 i.x 1
  let k := tget 0 i.x (5000 + j)
  let m := if snapEngines i.desc then 3 else 1
  let ixs := (List.range n).map (fun t => n * j + t) ++ (if k = 0 then [] else (List.range m).map (fun t => k - 1 + t)) ++
    (let p := tget 0 i.x (3000 + j); if p = 0 then [] else [p - 1])
  Status.highest (ixs.filterMap i.opStatus)
/-- A block's first 64 bytes. -/
def State.snapBlock (s : State) (i : Item) (f : Nat) : List Byte :=
  match i.snapList.findIdx? (· == f) with
  | some j =>
    let p := tget 0 i.x (3000 + j)
    let late := p != 0 && bit (leNat ((tget [] i.rep (p - 1)).take 4)) 4
    leBytes 1 f ++ leBytes 1 (b2n (s.present f) + place (b2n (i.latched j)) 1 1 + place (b2n (snapTimed i.desc && late)) 2 1) ++ leBytes 1 (i.snapStatus j).code ++ zeros 61
  | none => leBytes 1 f ++ leBytes 1 (b2n (s.present f)) ++ zeros 62
/-- Shadow bytes of the chip at place `j`, 0 where a read failed. -/
def Item.shadow (i : Item) (j : Nat) : List Byte :=
  let k := tget 0 i.x (5000 + j) - 1
  let part := fun t n => let b := (tget [] i.rep (k + t)); b ++ zeros (n - b.length)
  part 0 64 ++ (if snapEngines i.desc then part 1 4096 ++ part 2 4096 else [])
def snapBlockSize (d : BitVec 512) : Nat := if snapEngines d then 8320 else 128
/-- The parts of the output with their offsets, header apart. -/
def State.snapParts (s : State) (i : Item) : List (Nat × List Byte) :=
  (fabRange (fabFirst i.desc) (fabLast i.desc)).map (fun f =>
    (64 + snapBlockSize i.desc * (f - fabFirst i.desc),
     s.snapBlock i f ++ (match i.snapList.findIdx? (· == f) with | some j => if i.latched j then i.shadow j else [] | none => [])))
def snapHeader (i : Item) (start : Nat) (trunc : Bool) : List Byte :=
  let d := i.desc
  leBytes 4 0x50414E53 ++ leBytes 2 1 ++ leBytes 2 (dbits d 0x12 0 3 + place (b2n trunc) 3 1) ++ leBytes 1 (fabFirst d) ++ leBytes 1 (fabLast d) ++
  leBytes 2 i.latchedList.length ++ leBytes 8 (db d 0x28 8) ++ leBytes 8 start ++ leBytes 4 (snapBlockSize d) ++ zeros 32
def State.snapOutput (s : State) (i : Item) : List OpK :=
  let size := db i.desc 0x20 4
  let start := tget 0 i.x 13
  let parts := s.snapParts i
  let trunc := size < 64 || parts.any (fun p => decide (size < p.1 + p.2.length))
  (((0, snapHeader i start trunc) :: parts).map (fun (p : Nat × List Byte) => hostWrites (db i.desc 0x18 8 + p.1) (p.2.take (size - p.1)))).flatten
def snapAdv : Advance := fun s w i =>
  let d := i.desc
  if i.stage = 0 then
    let j := s.pushChips i (snapOps d)
    s.setItem w { j with x := tput 0 (tput 0 j.x 12 (s.snapChips i).length) 13 s.time }
  else if i.stage = 1 then
    if !snapTimed d then s.setItem w { i.readShadows with stage := 3 }
    else if s.time ≤ db d 0x28 8 then s.setItem w { i with stage := 2, wait := .ctl none }
    else s.setItem w { i with stage := 2 }
  else if i.stage = 2 then
    match i.snapPending with
    | [] => s.setItem w { i.readShadows with stage := 3 }
    | l => s.setItem w (i.pollSnap l)
  else if i.stage = 3 then s.setItem w { i.push (s.snapOutput i) with stage := 4 }
  else s.setItem w i.done
def snapRep : Report := fun s _ i _ => (s, i.latchedList.length, 0)
/-- SNAP_AT_PASSED: hub fabric time has passed AT. -/
def State.snapPassed (s : State) (n : Nat) : State :=
  s.onWork n (fun i => opcodeOf i.desc == 0x43 && i.stage == 2 && i.wait == .ctl none && decide (db i.desc 0x28 8 < s.time)) (fun i => { i with wait := Wait.no })

/-! ### Commands -/

/-- TRACE_ARM (R495, R496, R507). -/
def execTraceArm (e : Nat) (s : State) : Out := s.row e 0x40 noCheck armAdv armRep
/-- TRACE_STOP (R508, R515). -/
def execTraceStop (e : Nat) (s : State) : Out := s.row e 0x41 noCheck stopAdv stopRep
/-- TRACE_DRAIN (R499, R509, R515). -/
def execTraceDrain (e : Nat) (s : State) : Out := s.row e 0x42 noCheck traceDrainAdv traceDrainRep
/-- COUNTER_SNAP (R510, R515). -/
def execCounterSnap (e : Nat) (s : State) : Out := s.row e 0x43 noCheck snapAdv snapRep
/-- TRACE_STOP_TIMEOUT (R508). -/
def execTraceStopTimeout (w : Nat) (s : State) : Out := .next (s.condTimeout w 0x41)
/-- TRACE_DRAIN_TIMEOUT (R509). -/
def execTraceDrainTimeout (w : Nat) (s : State) : Out := .next (s.drainTimeout w)
/-- TRACE_TIME_TRIGGER (R497). -/
def execTraceTimeTrigger (s : State) : Out := .next s.timeTrigger
/-- CAPTURE_END (R498). -/
def execCaptureEnd (s : State) : Out := .next s.captureEnd
/-- SNAP_AT_PASSED (R510). -/
def execSnapAtPassed (w : Nat) (s : State) : Out := .next (s.snapPassed w)

end Sys2Proof.Machine
end

