-- ==== Sys2Proof/Machine/HubCmd.lean ====
section
/-! DEFINITION. The descriptors of the HTU and of the hub core: HTU_INVALIDATE, LCS_REQUEST, CERT_INSTALL, CERT_DROP and
FW_STAGE, with the hub core's part of them (R52, R74, R148–R150, R153–R155, R178, R179, R204, R205, R211, R303, R304). -/

namespace Sys2Proof.Machine

/-! ### HTU_INVALIDATE (R303, R304, R307) -/

/-- The operand range as first page and number of pages; none for ALL. -/
def invRange (d : BitVec 512) : Option (Nat × Nat) := if dbits d 0x10 0 1 = 1 then none else some (db d 0x18 8 / 4096, db d 0x14 4)
/-- Pages `vp` to `vp + n − 1` overlap the range. -/
def inInv (d : BitVec 512) (vp n : Nat) : Bool :=
  match invRange d with
  | none => true
  | some (lo, k) => 0 < k && vp < lo + k && lo < vp + n
def TlbEntry.inRange (e : TlbEntry) (d : BitVec 512) : Bool := if e.big then inInv d (e.vpage / 512 * 512) 512 else inInv d e.vpage 1
/-- A walk whose result falls in the range, or would if its leaf is a 2 MiB page. -/
def HostOp.discardFor (o : HostOp) (d : BitVec 512) : HostOp :=
  match o.phase with
  | .walk l a out k =>
    if inInv d o.vpage 1 then { o with phase := .walk l a out 1 }
    else if inInv d (o.vpage / 512 * 512) 512 ∧ k = 0 then { o with phase := .walk l a out 2 } else o
  | _ => o
/-- Operations in the endpoint that went through an old translation of the range. -/
def State.throughOld (s : State) (d : BitVec 512) (gone : List TlbEntry) : List Nat :=
  (s.htu.ops.filter (fun o => o.isQueued && o.page.isSome && (inInv d o.vpage 1 || gone.any (fun e => e.covers o.vpage)))).map (fun o => o.id)
def invAdv : Advance := fun s w i =>
  if i.stage ≠ 0 then s.setItem w i.done
  else
    let d := i.desc
    let gone := s.htu.tlb.filter (fun e => e.inRange d)
    let old := s.throughOld d gone
    let s := { s with htu := { s.htu with tlb := s.htu.tlb.filter (fun e => !e.inRange d), ops := s.htu.ops.map (fun (o : HostOp) => o.discardFor d) } }
    let i := { i with detail := gone.length, x := old.foldl (fun x k => tput 0 x (100 + k) 1) i.x }
    s.setItem w (if old = [] then i.done else { i with stage := 1, wait := .ctl none })

/-! ### LCS_REQUEST, CERT_INSTALL and CERT_DROP (R178, R179, R204, R205) -/

/-- Read `n` bytes once, post them to the hub core as a request of `kind`, and end by its RESULT. -/
def postAdv (kind n : Nat) : Advance := fun s w i =>
  if i.errs ≠ [] then s.setItem w i.done
  else if i.stage = 0 then s.setItem w { i.push (hostReads (db i.desc 0x18 8) n) with stage := 1 }
  else if i.stage = 1 then s.setItem w { i.push [.core (kind :: ((i.gather 0 i.nextIx).map BitVec.toNat))] with stage := 2 }
  else s.setItem w (if tget [] i.rep 900 = [1] then i.done else i.fail .aborted)
/-- A SCRAPPED transition asked for through the scan ring reboots at the completion (R176 step 11). -/
def lcsRep : Report := fun s w i _ => (match w with | .ring _ => s | _ => (s.modItem w (fun i => { i with x := tput 0 i.x 40 0 })).scrapCheck, i.detail, i.cursor)
def dropAdv : Advance := fun s w i =>
  if i.stage = 0 then s.setItem w { i.push [.core [2, dbits i.desc 0x10 0 1, dbits i.desc 0x11 0 1, db i.desc 0x14 4]] with stage := 1 }
  else s.setItem w i.done

/-! ### FW_STAGE (R148–R150) -/

def stageBase : Nat := 0xE80000
/-- Bytes of the staging copy. -/
def stageMax : Nat := 520192
def fwTarget (d : BitVec 512) : Nat := dbits d 0x10 0 2
def fwLen (d : BitVec 512) : Nat := Nat.min (db d 0x14 4) stageMax
/-- An FW_STAGE other than `w` runs. -/
def State.stageRuns (s : State) (w : Option Work) : Bool :=
  s.works.any (fun v => some v != w && (s.item? v).any (fun i => opcodeOf i.desc == 0x66 && tget 0 i.x 7 == 1 && i.fin.isNone))
/-- The slot that an IMAGE is written to. -/
def State.stageSlot (s : State) : Nat := if s.boot.stage = 5 then s.boot.first else 1 - s.boot.slot
def State.stageResult (s : State) (r : Nat) : State := { s with boot := { s.boot with stageResult := r } }
/-- LCS_SLOT_A or LCS_SLOT_B. -/
def State.slotReg (s : State) (x v : Nat) : State := { s with boot := if x = 0 then { s.boot with slotA := v } else { s.boot with slotB := v } }
/-- Fail code of the staged copy under R149 step 3; 0 when it passes. -/
def State.stageCheck (s : State) (d : BitVec 512) : Nat :=
  let mon := fwTarget d == 1
  headerFail (mread s.sram stageBase (Nat.max (fwLen d) 512)) (if mon then 2 else 1) (fun n => n == db d 0x14 4 && (if mon then n == 8704 else fwLength n))
    (fun k h => (k == 0 && h == Config.vendorFwKey) || (mon && k == 1 && s.fuses.ikey && h == s.fuses.ikeyHash)) s.fuses.unitId
/-- The operations of step 6: sector erases, programs of 1 KiB, and the read-back. -/
def eraseOps (x : Nat) : List OpK := (List.range 127).map (fun j => .nor 1 (slotBase x + 4096 * j) 4096 [])
def progOps (x : Nat) (b : List Byte) : List OpK :=
  (List.range (cdiv b.length 1024)).map (fun j => let d := (b.drop (1024 * j)).take 1024; .nor 2 (slotBase x + 1024 * j) d.length d)
def backOps (x n : Nat) : List OpK := (List.range (cdiv n 4096)).map (fun j => .nor 3 (slotBase x + 4096 * j) (Nat.min 4096 (n - 4096 * j)) [])
/-- COMMIT that step 7 writes. -/
def State.stageCommit (s : State) : Nat :=
  (if s.boot.stage = 5 then Nat.max s.boot.commitA s.boot.commitB + 1 else match s.trailer s.boot.slot with | some c => c + 1 | none => 1) % 2 ^ 32
def trailerBytes (c : Nat) : List Byte := leBytes 4 0x53544C53 ++ leBytes 4 c ++ leBytes 4 (2 ^ 32 - 1 - c) ++ zeros 4
/-- After the checks: the monitor is copied, or the slot is written step by step. Key 6 holds the slot, 9 the first read-back,
10 the COMMIT. -/
def State.stageWrite (s : State) (w : Work) (i : Item) : State :=
  let n := fwLen i.desc
  let x := tget 0 i.x 6
  if i.stage = 2 then
    let f := leNat (tget [] i.rep 900)
    if f ≠ 0 then (s.stageResult (f + 1)).setItem w (i.fail .aborted)
    else if fwTarget i.desc = 1 then
      let m := mread s.sram (stageBase + leNat (mread s.sram (stageBase + 0x1C) 4)) 8192
      ({ s with boot := { s.boot with monitor := m, stagedMonitor := true } }.stageResult 1).setItem w i.done
    else
      let x := s.stageSlot
      (s.slotReg x 0).setItem w { i.push [.nor 1 (slotBase x + 0x7F000) 4096 []] with stage := 3, x := tput 0 (tput 0 i.x 6 x) 10 s.stageCommit }
  else if i.stage = 3 then s.setItem w { i.push (eraseOps x) with stage := 4 }
  else if i.stage = 4 then s.setItem w { i.push (progOps x (mread s.sram stageBase n)) with stage := 5 }
  else if i.stage = 5 then s.setItem w { i.push (backOps x n) with stage := 6, x := tput 0 i.x 9 i.nextIx }
  else if i.stage = 6 then
    if i.gather (tget 0 i.x 9) (cdiv n 4096) = mread s.sram stageBase n then
      s.setItem w { i.push [.nor 2 (slotBase x + 0x7F000) 16 (trailerBytes (tget 0 i.x 10))] with stage := 7 }
    else (s.stageResult 8).setItem w (i.fail .aborted)
  else ((s.slotReg x (tget 0 i.x 10)).stageResult 1).setItem w i.done
def stageAdv : Advance := fun s w i =>
  let d := i.desc
  if i.errs ≠ [] then s.setItem w i.done
  else if i.stage = 0 then
    if s.stageRuns (some w) then (s.stageResult 2).setItem w (i.fail .aborted)
    else
      { s with boot := { s.boot with stageResult := 0, stageTarget := fwTarget d, kibDone := 0 } }.setItem w
        { i.push (hostReads (db d 0x18 8) (fwLen d)) with stage := 1, x := tput 0 i.x 7 1 }
  else if i.stage = 1 then
    let b := i.gather 0 i.nextIx
    { s with sram := mwrite s.sram stageBase (b ++ zeros (512 - b.length)) }.setItem w { i.push [.core [3]] with stage := 2, rep := [] }
  else s.stageWrite w i
/-- LCS_STAGE_STATUS (Table 5.8). -/
def State.stageStatus (s : State) : Nat :=
  b2n (s.stageRuns none) + place s.boot.stageResult 1 4 + place s.boot.stageTarget 5 1 + place s.boot.kibDone 16 10
/-- The end of an FW_STAGE: source 178, and in RECOVERY a REBOOT after an OK completion (R140, Table 11.1). -/
def stageRep : Report := fun s w i st =>
  let s := s.modItem w (fun i => { i with x := tput 0 i.x 7 0 })
  let s := s.activate 178 s.stageStatus
  (if s.boot.stage = 5 ∧ st = .ok then { s.modItem w (fun i => { i with x := tput 0 i.x 40 1 }) with boot := { s.boot with recoveryReboot := true } } else s,
   i.detail, i.cursor)
/-- In RECOVERY the boot ROM carries out ring 0's FW_STAGE without stroke engines (R140). -/
def State.romStage (s : State) : State :=
  match (s.ring 0).item with
  | some i =>
    if opcodeOf i.desc ≠ 0x66 ∨ !i.ready ∨ !s.startable (.ring 0) i ∨ !s.fastRun then s
    else (if i.begun then s else s.firstChecks (.ring 0) i).strokeLoop 4 (.ring 0) stageAdv stageRep 2000
  | none => s

/-! ### The hub core (R52) -/

/-- HUB_CORE_REQUEST_DONE: a CERT_DROP, FW_STAGE or DISCOVER request at the head of the queue is done. Lifecycle requests and
certificates have commands of their own. -/
def State.coreDone (s : State) : State :=
  match s.coreHead 2, s.coreHead 3, s.coreHead 4 with
  | some (_, _, d), _, _ => (s.certDrop (d.getD 0 0 == 1) (d.getD 1 0) (d.getD 2 0)).coreReply [1]
  | none, some (ow, _, _), _ =>
    (match ow.bind s.item? with
     | some i => s.coreReply (leBytes 1 (s.stageCheck i.desc))
     | none => s.coreReply [])
  | none, none, some _ => s.discoverCore
  | none, none, none => s

/-! ### Commands -/

/-- HTU_INVALIDATE (R303, R304, R307). -/
def execHtuInvalidate (e : Nat) (s : State) : Out := s.row e 0x64 noCheck invAdv repItem
/-- LCS_REQUEST (R178, R179). -/
def execLcsRequest (e : Nat) (s : State) : Out := s.row e 0x60 noCheck (postAdv 0 256) lcsRep
/-- CERT_INSTALL (R204). -/
def execCertInstall (e : Nat) (s : State) : Out := s.row e 0x61 noCheck (postAdv 1 512) repItem
/-- CERT_DROP (R205). -/
def execCertDrop (e : Nat) (s : State) : Out := s.row e 0x62 noCheck dropAdv repItem
/-- FW_STAGE (R140, R148–R150, R154). -/
def execFwStage (e : Nat) (s : State) : Out := if s.boot.stage = 5 then .next s.romStage else s.row e 0x66 noCheck stageAdv stageRep
/-- HUB_CORE_REQUEST_DONE (R52, R149, R205, R211, R355). -/
def execHubCoreRequestDone (s : State) : Out := s.gated State.coreDone

end Sys2Proof.Machine
end

