-- ==== Sys2Proof/Machine/Sleep.lean ====
section
/-! DEFINITION. SLEEP, and the power controller's commands: the commit edge, entry to DOZE and OFF, the wake, the timer
and the loss of PLL lock (R107–R130). -/

namespace Sys2Proof.Machine

/-! ### SLEEP (R112–R116, R334) -/

/-- The SLEEP finds the hub busy: R113's posted work, or a toll held with TARGET DOZE or OFF. -/
def State.sleepBusy (s : State) (w : Work) (target : Nat) : Bool := s.busy (some w) 0 || (2 ≤ target && s.run.tollState != TollState.none_)
/-- The request is posted, and the item waits for its outcome. -/
def State.sleepPost (s : State) (w : Work) (i : Item) : State :=
  (s.postSleep w (dbits i.desc 0x10 0 2) (db i.desc 0x14 4)).modItem w (fun i => { i with stage := 2, wait := .ctl none })
def sleepAdv : Advance := fun s w i =>
  if i.stage = 0 then
    if s.sleepBusy w (dbits i.desc 0x10 0 2) then { s with pwr := s.pwr.refused }.setItem w (i.fail .aborted)
    else
      let t := s.flushQueues
      let qs := (List.range 64).filter (fun q => (t.queue q).out.length != (s.queue q).out.length)
      if qs = [] then t.sleepPost w i
      else t.modItem w (fun i => { i with stage := 1, wait := .ctl none, x := qs.foldl (fun x q => tput 0 x (100 + q) 1) i.x })
  else if i.stage = 1 then s.sleepPost w i
  else if i.stage = 11 then s.setItem w (i.fail .aborted)
  else s.setItem w i.done

/-! ### OFF (R109, R117, R124) -/

/-- Tick 3 of a request for OFF: the fast domain loses its power, and with it the firmware SRAM, which nothing reads in OFF. -/
def State.offEntry (s : State) : State :=
  match s.pwr.req with
  | none => s
  | some r =>
    if !r.tick2 ∨ r.target ≠ 3 ∨ s.now < r.tick0 + 3000 then s
    else
      let s := s.fastReset
      { s with pwr := s.pwr.reached PwrState.off (r.tick0 + 3000) none, pins := { s.pins with linkUp := false, l1 := false }
               boot := { s.boot with fw := [], monitor := [] } }

/-! ### Commands -/

/-- SLEEP (R112–R117, R334). -/
def execSleep (e : Nat) (s : State) : Out := s.row e 0x63 noCheck sleepAdv repItem
/-- SLEEP_COMMIT (R116, R117, R119, R123). -/
def execSleepCommit (s : State) : Out := .next s.sleepCommit
/-- DOZE_ENTRY (R109, R111, R117, R124, R129, R371). -/
def execDozeEntry (s : State) : Out := .next s.dozeEntry
/-- OFF_ENTRY (R93, R109, R117, R124). -/
def execOffEntry (s : State) : Out := .next s.offEntry
/-- WAKE (R118–R120, R124, R125, R130). -/
def execWake (s : State) : Out := .next s.wake
/-- PWR_TIMER_EXPIRY (R118). -/
def execPwrTimerExpiry (s : State) : Out := .next s.timerExpiry
/-- PLL_UNLOCK (R128). -/
def execPllUnlock (s : State) : Out := .next s.pllUnlock

end Sys2Proof.Machine
end

