-- ==== Sys2Proof/Machine/Tensor.lean ====
section
/-! DEFINITION. DUMP_TENSOR: resolution through a shard map, and the shard cache (R26, R32–R41, R470–R490). -/

namespace Sys2Proof.Machine

/-! ### What resolution keeps in its item

x 12 entries into step 1 of R40, 13 EPOCH read, 14 candidate looked at, 15 and 16 bounds of the bisection, 17 WDA_SMAP_BASE,
18 resolving, 19 first operation of the read under way; 110 + slot found, 112 + slot SHARD_FIRST's record index, 114 + slot from
the cache, 2100 a SHARD_INVALIDATE covers it; 20000 + u the READY_UNIT read + 1, 300000 + f the WDA_HALT read + 1. rep 8100 root, 8101 + slot slot header, 8110 + slot tensor record, 8120 + slot shard records. -/

def noMap : Nat := 0x8000000A
def noTensor : Nat := 0x8000000B
def outOfRange : Nat := 0x8000000C
def tooLarge : Nat := 0x8000000D
def tensorBusy : Nat := 0x8000000E
def tooManyShards : Nat := 0x8000000F

def mapFabric (d : BitVec 512) : Nat := dbits d 0x10 0 7
def tensorId (d : BitVec 512) : Nat := db d 0x30 8
def tensorSel (d : BitVec 512) : Nat := dbits d 0x12 2 2
/-- Resolution reads no chip outside FABRIC_FIRST–FABRIC_LAST but MAP_FABRIC (R480). -/
def tensorRange (d : BitVec 512) (f : Nat) : Bool := dbits d 0x13 0 7 ≤ f && f ≤ dbits d 0x38 0 7

/-! ### Reads -/

/-- Read `n` bytes at `a` of the map's chip and go on at a stage. -/
def Item.readMap (i : Item) (a n stage : Nat) : Item :=
  let f := mapFabric i.desc
  { i.push ((partsOf a n).map (spanRd f)) with stage := stage, x := tput 0 i.x 19 i.nextIx }
/-- The bytes of a read whose operations begin at `ix`. -/
def Item.span (i : Item) (ix a n : Nat) : List Byte :=
  (((partsOf a n).zipIdx).map (fun p => ((tget [] i.rep (ix + p.2)).drop (p.1.1 % 64)).take p.1.2)).flatten
def Item.mapData (i : Item) (a n : Nat) : List Byte := i.span (tget 0 i.x 19) a n
def Item.keep (i : Item) (k : Nat) (d : List Byte) : Item := { i with rep := tput [] i.rep k d }
def Item.note (i : Item) (k v : Nat) : Item := { i with x := tput 0 i.x k v }
def Item.kept (i : Item) (k o n : Nat) : Nat := leNat (((tget [] i.rep k).drop o).take n)
/-- Resolution ends with a status and DETAIL. -/
def Item.unresolved (i : Item) (e : Status) (code : Nat) : Item := { i.fail e with detail := code, todo := [] }

/-! ### The table (R33, R34, R40, R472) -/

def Item.rootActive (i : Item) : Nat := i.kept 8100 0xC 1 % 2
def Item.rootReshard (i : Item) : Nat := Nat.min (i.kept 8100 0xD 1) 1
/-- Candidate slots (Table 16.1). -/
def Item.candidates (i : Item) : List Nat :=
  let a := i.rootActive
  if tensorSel i.desc = 1 then [a] else if tensorSel i.desc = 2 then [1 - a] else if i.rootReshard = 1 then [a, 1 - a] else [a]
/-- Candidate slots that hold the tensor. -/
def Item.foundSlots (i : Item) : List Nat := i.candidates.filter (fun k => tget 0 i.x (110 + k) == 1)
/-- Address of an entry of a slot's tensor or shard table. -/
def Item.tensorAddr (i : Item) (slot j : Nat) : Nat := i.kept (8101 + slot) 0x10 8 % 2 ^ 40 + 64 * j
def Item.shardAddr (i : Item) (slot : Nat) : Nat := i.kept (8101 + slot) 0x18 8 % 2 ^ 40 + 64 * i.kept (8110 + slot) 0xC 4
/-- SHARD_COUNT of the tensor, at most 65,536 (R34). -/
def Item.shardCount (i : Item) (slot : Nat) : Nat := Nat.min (i.kept (8110 + slot) 0x10 4) 65536
/-- The `j`th of a slot's shard records. -/
def Item.shardRec (i : Item) (slot j : Nat) : List Byte := ((tget [] i.rep (8120 + slot)).drop (64 * j)).take 64
/-- The slot whose record gives the shape (R472). -/
def Item.shapeSlot (i : Item) : Nat := if i.foundSlots.contains (1 - i.rootActive) then 1 - i.rootActive else i.rootActive
/-- The head of the PLAN section. -/
def Item.planHead (i : Item) : List Byte := tget [] i.rep 8100 ++ tget [] i.rep 8101 ++ tget [] i.rep 8102 ++ tget [] i.rep (8110 + i.shapeSlot)
/-- Primary records of a slot, in order. -/
def Item.primaries (i : Item) (slot : Nat) : List Resolved :=
  (((List.range (i.shardCount slot)).map (fun j => ({ slot := slot, index := i.kept (8110 + slot) 0xC 4 + j, rec_ := i.shardRec slot j } : Resolved))).filter
    (fun e => e.field 1 1 == 0))
/-- The blocks of two shards share a position. -/
def Resolved.meets (e g : Resolved) (rank : Nat) : Bool :=
  (List.range rank).all (fun k => e.origin k < g.origin k + g.extent k && g.origin k < e.origin k + e.extent k)
/-- The primary records of a slot tile the tensor's extent (R38). -/
def Ctx.tiles (c : Ctx) (l : List Resolved) : Bool :=
  let vol := fun (e : Resolved) => (List.range c.rank).foldl (fun a k => a * e.extent k) 1
  (l.map vol).sum == (List.range c.rank).foldl (fun a k => a * c.axis k) 1 &&
  l.all (fun e => (List.range c.rank).all (fun k => 1 ≤ e.extent k && e.origin k + e.extent k ≤ c.axis k)) &&
  l.zipIdx.all (fun x => l.zipIdx.all (fun y => y.2 ≤ x.2 || !x.1.meets y.1 c.rank))
/-- A table that departs from R32–R39 where the result would rest on it (R41, R490). -/
def Item.tableBad (i : Item) : Bool :=
  let c : Ctx := { head := i.planHead }
  let shape := fun k => (i.kept (8110 + k) 8 2, i.kept (8110 + k) 0x18 16)
  1 < i.kept 8100 0xC 1 || 1 < i.kept 8100 0xD 1 ||
  (i.foundSlots != [] && (c.elem == 0 || c.rank == 0 || decide (4 < c.rank) ||
    i.foundSlots.any (fun k => shape k != shape i.shapeSlot) || i.foundSlots.any (fun k => !c.tiles (i.primaries k))))
/-- Once a read of the table has passed R40, a table that departs from R32–R39 leaves the descriptor open, and the mailboxes of
the chips it covers, until a SHARD_INVALIDATE (Table 18.3). -/
def tensorNote (s : State) (w : Work) (i : Item) : State :=
  if i.stage = 111 ∧ i.out = 0 ∧ i.todo = [] ∧ !i.dead ∧ i.errs = [] ∧ leNat (((i.mapData (tget 0 i.x 17) 64).drop 8).take 4) = tget 0 i.x 13 ∧ i.tableBad then
    (fabRange (dbits i.desc 0x13 0 7) (dbits i.desc 0x38 0 7)).foldl (fun s f => s.setChip f { s.chip f with mbxOpen := true }) (s.markOdd w 1)
  else s

/-! ### The shard cache (R477, R478) -/

def CacheEntry.matches (e : CacheEntry) (i : Item) (slot : Nat) : Bool :=
  e.fabric == mapFabric i.desc && e.slot == slot && e.phase == i.kept (8101 + slot) 0 4 && e.tensor == tensorId i.desc
/-- Use the entry for a slot, making it the most recently used. -/
def State.cacheUse (s : State) (i : Item) (slot : Nat) : Option (State × Item) :=
  match s.dmp.cache.find? (fun e => e.matches i slot) with
  | none => none
  | some e =>
    let s := { s with dmp := { s.dmp with cache := e :: s.dmp.cache.filter (fun x => x != e) } }
    let i := if s.dmp.cacheOdd then { i with odd := i.odd ||| 1 } else i
    some (s, (((i.keep (8110 + slot) e.record).keep (8120 + slot) e.shards.flatten).note (110 + slot) 1).note (114 + slot) 1)
/-- Entries kept, most recently used first, within 32 tensors and 16,384 shard records. -/
def cacheTrim : Nat → Nat → List CacheEntry → List CacheEntry
  | _, _, [] => []
  | n, m, e :: r => if n = 0 ∨ m < e.shards.length then [] else e :: cacheTrim (n - 1) (m - e.shards.length) r
/-- Fill the cache with what a resolution read of a slot. -/
def State.cacheFill (s : State) (i : Item) (slot : Nat) : State :=
  let n := i.shardCount slot
  if tget 0 i.x (114 + slot) = 1 ∨ tget 0 i.x 2100 = 1 ∨ 16384 < n ∨ !s.dmp.enable then s
  else
    let e : CacheEntry := { fabric := mapFabric i.desc, slot := slot, phase := i.kept (8101 + slot) 0 4, tensor := tensorId i.desc, index := tget 0 i.x (112 + slot),
                            record := tget [] i.rep (8110 + slot), shards := (List.range n).map (i.shardRec slot) }
    { s with sramClean := false, dmp := { s.dmp with cache := cacheTrim 32 16384 (e :: s.dmp.cache.filter (fun x => !x.matches i slot)) } }
/-- Entries a SHARD_INVALIDATE covers. -/
def shardCovered (d : BitVec 512) (fabric tensor : Nat) : Bool :=
  dbits d 0x10 0 1 == 1 || (dbits d 0x11 0 7 == fabric && (dbits d 0x10 1 1 == 1 || db d 0x18 8 == tensor))
def shardInvalAdv : Advance := fun s w i =>
  let d := i.desc
  let keep := s.dmp.cache.filter (fun e => !shardCovered d e.fabric e.tensor)
  let n := s.dmp.cache.length - keep.length
  let s := { s with dmp := { s.dmp with cache := keep, cacheOdd := s.dmp.cacheOdd && keep != [] } }
  let s := s.mapItems (fun _ j => if opcodeOf j.desc = 0x32 ∧ tget 0 j.x 18 = 1 ∧ shardCovered d (mapFabric j.desc) (tensorId j.desc) then j.note 2100 1 else j)
  s.modItem w (fun i => { i.done with detail := n })

/-! ### Steps of resolution (R40, R471) -/

/-- Step 1 of R40: EPOCH is read, at most four times. -/
def Item.readEpoch (i : Item) : Item :=
  if 4 ≤ tget 0 i.x 12 then i.unresolved .timeout 0 else ((i.note 12 (tget 0 i.x 12 + 1)).readMap (tget 0 i.x 17) 64 102)
/-- Everything read of the table is discarded. -/
def Item.discard (i : Item) : Item :=
  { i with x := [110, 111, 114, 115].foldl (fun x k => tput 0 x k 0) i.x, rep := [8100, 8101, 8102, 8110, 8111, 8120, 8121].foldl (fun r k => tput [] r k []) i.rep }
def Item.mapBase (i : Item) : Nat := smapBase (tget [] i.rep (tget 0 i.x 19))
def Item.epochRead (i : Item) : Nat := leNat (((i.mapData (tget 0 i.x 17) 64).drop 8).take 4)
/-- The next candidate slot: from the cache, or by bisection. -/
def State.resolveSlot (s : State) (w : Work) (i : Item) : State :=
  match i.candidates[tget 0 i.x 14]? with
  | none => s.setItem w ((i.readMap (tget 0 i.x 17) 64 111))
  | some k =>
    if tget 0 i.x 15 = 0 ∧ tget 0 i.x 16 = 0 ∧ i.kept (8101 + k) 4 4 = 0 then s.setItem w ((i.note 14 (tget 0 i.x 14 + 1)))
    else
      match (if tget 0 i.x 16 = 0 then s.cacheUse i k else none) with
      | some r => r.1.setItem w (r.2.note 14 (tget 0 i.x 14 + 1))
      | none =>
        let hi := if tget 0 i.x 16 = 0 then Nat.min (i.kept (8101 + k) 4 4) 4096 else tget 0 i.x 16
        let lo := tget 0 i.x 15
        if hi ≤ lo then s.setItem w (((i.note 14 (tget 0 i.x 14 + 1)).note 15 0).note 16 0)
        else s.setItem w ((i.note 16 hi).readMap (i.tensorAddr k ((lo + hi) / 2)) 64 107)
/-- One probe of the bisection has come. -/
def State.probeSlot (s : State) (w : Work) (i : Item) : State :=
  let k := (i.candidates[tget 0 i.x 14]?).getD 0
  let lo := tget 0 i.x 15
  let hi := tget 0 i.x 16
  let mid := (lo + hi) / 2
  let r := i.mapData (i.tensorAddr k mid) 64
  let id := leNat (r.take 8)
  if id = tensorId i.desc then
    let j := ((i.keep (8110 + k) r).note (110 + k) 1).note (112 + k) mid
    s.setItem w (j.readMap (j.shardAddr k) (64 * j.shardCount k) 108)
  else if id < tensorId i.desc then
    (if mid + 1 = hi then s.setItem w ({ ((i.note 14 (tget 0 i.x 14 + 1)).note 15 0).note 16 0 with stage := 106 }) else s.setItem w { i.note 15 (mid + 1) with stage := 106 })
  else if mid = lo then s.setItem w ({ ((i.note 14 (tget 0 i.x 14 + 1)).note 15 0).note 16 0 with stage := 106 })
  else s.setItem w { i.note 16 mid with stage := 106 }
def State.shardsRead (s : State) (w : Work) (i : Item) : State :=
  let k := (i.candidates[tget 0 i.x 14]?).getD 0
  let j := i.keep (8120 + k) (i.mapData (i.shardAddr k) (64 * i.shardCount k))
  s.setItem w { ((j.note 14 (tget 0 i.x 14 + 1)).note 15 0).note 16 0 with stage := 106 }
/-- The copy of a primary that is read (R474). -/
def State.chooseCopy (s : State) (i : Item) (e : Resolved) : Resolved :=
  if s.addressable e.fabric then e
  else
    let same := fun (r : List Byte) => (r.drop 0x10).take 32 == (e.rec_.drop 0x10).take 32 && leNat ((r.drop 1).take 1) != 0 && s.addressable (leNat (r.take 1) % 128)
    let reps := if dbits i.desc 0x12 4 1 = 1 then ((List.range (i.shardCount e.slot)).map (i.shardRec e.slot)).filter same else []
    let best := reps.foldl (fun (m : Option (List Byte)) r => match m with
      | none => some r
      | some b => if leNat ((r.drop 1).take 1) < leNat ((b.drop 1).take 1) then some r else m) none
    match best with
    | some r => { e with rec_ := r }
    | none => { e with lost := some ((s.issueStatus e.fabric).getD .chipAbsent) }
/-- A gated shard of the other slot whose completeness counts (R39, R473). -/
def Ctx.judgesReady (c : Ctx) (e : Resolved) : Bool := c.reshard == 1 && e.slot != c.active && e.gated
/-- Where READY_UNIT's debug window begins. -/
def unitWindow (u : Nat) : Nat := (if bit u 9 then engWin else coreWin) + 0x1000 * (u % 512)
/-- Steps 6 and 7: copies are chosen and READY_UNITs read. -/
def State.resolveCopies (s : State) (w : Work) (i : Item) (n : Nat) : State :=
  let act := i.rootActive
  let order := (if i.foundSlots.contains act then [act] else []) ++ (if i.foundSlots.contains (1 - act) then [1 - act] else [])
  let prim := (order.map i.primaries).flatten
  let c : Ctx := { s.ctx n with head := i.planHead, list := prim.map (s.chooseCopy i) }
  if 65536 < prim.length then s.setItem w (i.unresolved .aborted tooManyShards)
  else if 2 ^ 43 < c.image then s.setItem w (i.unresolved .aborted tooLarge)
  else
    let units := ((c.list.filter c.judgesReady).map Resolved.unit).eraseDups
    if units.any (fun u => !tensorRange i.desc (u / 1024)) then s.setItem w (i.unresolved .aborted outOfRange)
    else
      let j := units.foldl (fun (i : Item) u => (i.push [.rd (u / 1024) (unitWindow u) 16]).note (20000 + u) (i.nextIx + 1)) i
      (s.setCtx n c).setItem w { j with stage := 113 }
def Item.unitOk (i : Item) (u : Nat) : Bool := let k := tget 0 i.x (20000 + u); k != 0 && tget 0 i.bad (k - 1) == 0
/-- Chips whose READY_UNIT or WDA_HALT read failed, with the status. -/
def Item.stepFails (i : Item) (c : Ctx) : List (Nat × Status) :=
  (((c.list.filter c.judgesReady).map Resolved.unit).eraseDups.filterMap (fun u =>
    match tget 0 i.x (20000 + u) with | 0 => none | k + 1 => (i.opStatus k).map (fun e => (u / 1024, e)))) ++
  ((List.range 128).filterMap (fun f => match tget 0 i.x (300000 + f) with | 0 => none | k + 1 => (i.opStatus k).map (fun e => (f, e))))
/-- Completeness of each shard (R473, R471). -/
def Item.judgeReady (i : Item) (c : Ctx) (failed : List Nat) (e : Resolved) : Resolved :=
  if c.reshard = 0 ∨ e.slot = c.active then e
  else
    let on := !failed.contains e.fabric || e.lost.isSome
    if e.gated then
      let d := match tget 0 i.x (20000 + e.unit) with | 0 => [] | k + 1 => tget [] i.rep k
      let e := if i.unitOk e.unit then { e with lastDone := leNat ((d.drop 4).take 4), stream := leNat ((d.drop 8).take 4) } else e
      { e with complete := on && i.unitOk e.unit && !failed.contains (e.unit / 1024) && e.ready }
    else { e with complete := on }
/-- Step 8, and WDA_HALT of the chips that supply bytes and were not asked yet; with none left the dump begins. -/
def State.resolveSources (s : State) (w : Work) (i : Item) (n : Nat) : State :=
  let c := s.ctx n
  let fails := i.stepFails c
  match fails.find? (fun p => p.1 == mapFabric i.desc) with
  | some p => s.setItem w (i.unresolved p.2 0)
  | none =>
    let c : Ctx := { c with list := c.list.map (i.judgeReady c (fails.map (fun p => p.1))) }
    let ps := c.piecesOf 0 c.image
    let chips := (ps.filterMap (fun p => match p.src with | some e => if e.lost.isSome then none else some e.fabric | none => none)).eraseDups
    let s := s.setCtx n c
    if chips.any (fun f => !tensorRange i.desc f) then s.setItem w (i.unresolved .aborted outOfRange)
    else
      let ask := chips.filter (fun f => tget 0 i.x (300000 + f) == 0)
      if ask ≠ [] then s.setItem w { (ask.foldl (fun (i : Item) f => (i.push [haltRead f]).note (300000 + f) (i.nextIx + 1)) i) with stage := 113 }
      else
        let halts := chips.foldl (fun (t : Tab Nat) f =>
          match tget 0 i.x (300000 + f) with
          | 0 => t
          | k + 1 => tput 0 t f (if tget 0 i.bad k = 0 then 1 + leNat (tget [] i.rep k) % 2 else 1)) []
        let c : Ctx := { c with items := 2 + cdiv c.image tensorSection, haltSeen := halts }
        let s := s.setCtx n c
        if c.noSpace then s.setItem w (i.unresolved .aborted noSpaceCode)
        else s.setItem w { i.note 18 0 with stage := 1, errs := [] }
/-- One step of resolution. A read of steps 1 to 6 that failed ends the command with its status. -/
def State.resolve_ (s : State) (w : Work) (i : Item) (n : Nat) : State :=
  if i.stage < 113 ∧ i.errs ≠ [] then s.setItem w (i.unresolved (Status.highest i.errs) 0)
  else if i.stage = 101 then
    (if i.mapBase = 0 then s.setItem w (i.unresolved .aborted noMap) else s.setItem w ((i.note 17 i.mapBase).readEpoch))
  else if i.stage = 102 then
    let e := i.epochRead
    if e % 2 = 1 then s.setItem w (if 4 ≤ tget 0 i.x 12 then i.unresolved .timeout 0 else { i with stage := 103, wait := .ctl (some (s.now + 2000)) })
    else s.setItem w ((i.note 13 e).readMap (tget 0 i.x 17) 64 104)
  else if i.stage = 103 then s.setItem w i.readEpoch
  else if i.stage = 104 then
    let r := i.mapData (tget 0 i.x 17) 64
    let j := i.keep 8100 r
    let a := leNat ((r.drop 0x10).take 8) % 2 ^ 40
    let b := leNat ((r.drop 0x18).take 8) % 2 ^ 40
    let f := mapFabric i.desc
    s.setItem w { j.push ((partsOf a 64 ++ partsOf b 64).map (spanRd f)) with stage := 105, x := tput 0 j.x 19 j.nextIx }
  else if i.stage = 105 then
    let a := i.kept 8100 0x10 8 % 2 ^ 40
    let b := i.kept 8100 0x18 8 % 2 ^ 40
    let j := (i.keep 8101 (i.mapData a 64)).keep 8102 (i.span (tget 0 i.x 19 + (partsOf a 64).length) b 64)
    s.setItem w { ((j.note 14 0).note 15 0).note 16 0 with stage := 106 }
  else if i.stage = 106 then s.resolveSlot w i
  else if i.stage = 107 then s.probeSlot w i
  else if i.stage = 108 then s.shardsRead w i
  else if i.stage = 111 then
    if i.epochRead ≠ tget 0 i.x 13 then s.setItem w (if 4 ≤ tget 0 i.x 12 then i.unresolved .timeout 0 else { i.discard with stage := 103, wait := .ctl (some s.now) })
    else if i.foundSlots = [] then s.setItem w (i.unresolved .aborted noTensor)
    else (i.foundSlots.foldl (fun s k => s.cacheFill i k) s).resolveCopies w i n
  else s.resolveSources w i n
/-- The first stroke. -/
def tensorFirst (s : State) (w : Work) (i : Item) : State :=
  let d := i.desc
  match s.dumpBar (dbits d 0x11 1 1 == 1), s.freeCtx with
  | some code, _ => s.setItem w (i.abortWith code)
  | none, none => s.setItem w (i.abortWith noContext)
  | none, some n =>
    if (List.range 5).any (fun k => (s.ctx k).state != .free && (s.ctx k).tensor) then s.setItem w (i.abortWith tensorBusy)
    else
      let i := { i with x := tput 0 (tput 0 (tput 0 i.x 10 (n + 1)) 18 1) 19 i.nextIx }
      (s.newCtx n d w true false).setItem w { i.push [.rd (mapFabric d) (wdaBase + 0x10) 8] with stage := 101 }
def tensorAdv : Advance := fun s w i =>
  if i.stage = 0 then tensorFirst s w i
  else if tget 0 i.x 18 = 1 then (match tget 0 i.x 10 with | 0 => s.setItem w i.done | n + 1 => s.resolve_ w i n)
  else dumpStep s w i
/-- SMAP_EPOCH_RETRY of the work item with number `n`. -/
def State.epochRetry (s : State) (n : Nat) : State :=
  let w := workOf n
  match s.item? w with
  | some i =>
    match i.wait with
    | .ctl (some t) => if opcodeOf i.desc = 0x32 ∧ i.stage = 103 ∧ t ≤ s.now ∧ s.fastClock then s.updItem w (fun i => { i with wait := Wait.no }) else s
    | _ => s
  | none => s

/-! ### Commands -/

/-- DUMP_TENSOR (R470–R489). -/
def execDumpTensor (e : Nat) (s : State) : Out := s.row e 0x32 tensorNote tensorAdv dumpRep
/-- SHARD_INVALIDATE (R478, R484, R485). -/
def execShardInvalidate (e : Nat) (s : State) : Out := s.row e 0x65 noCheck shardInvalAdv repItem
/-- SMAP_EPOCH_RETRY (R40). -/
def execSmapEpochRetry (w : Nat) (s : State) : Out := .next (s.epochRetry w)

end Sys2Proof.Machine
end

