-- ==== Sys2Proof/Machine/Regs.lean ====
section
/-! DEFINITION. BAR 0 as it reads: the registers there are, the bits of each that are not reserved, and the value of each
(R8, R9, R64, R67, R90, R122, R147, R180, R209, R251–R254, R300–R302, R330, R366, R409, R429, R462, R511). -/

namespace Sys2Proof.Machine

/-! ### The registers there are, with their named bits -/

/-- All 32 bits. -/
def full32 : Nat := 0xFFFFFFFF
/-- A table of offsets, or runs of equal registers (first, last), with the bits that are not reserved. -/
abbrev RegTable := List (Nat × Nat × Nat)
def RegTable.mask (t : RegTable) (o : Nat) : Option Nat := (t.find? (fun r => r.1 ≤ o && o ≤ r.2.1)).map (fun r => r.2.2)
def hubMasks : RegTable :=
  [(0x0, 0x0, full32), (0x4, 0x4, 0xFFFF00FF), (0x8, 0x8, 0xFFF7), (0x10, 0x10, 0xFF7FF), (0x14, 0x14, 0xF), (0x20, 0x2C, 0x0FFF07FF),
   (0x30, 0x34, 0x7F7F7F7F), (0x38, 0x38, 0x7F01FF), (0x3C, 0x3C, 0x071F0F3F), (0x40, 0x58, full32), (0x60, 0x6C, full32)]
def pwrMasks : RegTable :=
  [(0x0, 0x0, 0x1FF7F), (0x4, 0x4, 0x3F), (0x8, 0x8, 0xFFFDFF00), (0xC, 0xC, 0x7FE), (0x10, 0x18, full32), (0x80, 0x80, 0xF)]
def lcsMasks : RegTable :=
  [(0x0, 0x0, 0x71FFF), (0x4, 0xC, 0xFFFFFF), (0x10, 0x1C, full32), (0x20, 0x20, 0x3), (0x30, 0x3C, full32), (0x40, 0x40, 0x1FF1F),
   (0x44, 0x44, 0xFF07), (0x48, 0x48, 0x7), (0x50, 0x7C, full32), (0x100, 0x100, 0xFFFF), (0x104, 0x108, full32), (0x10C, 0x10C, 0x1),
   (0x110, 0x110, 0x03FF003F), (0x114, 0x118, full32)]
def authMasks : RegTable :=
  [(0x0, 0x0, 0xFF0F3F), (0x4, 0x4, 0xF1F), (0x8, 0x8, full32), (0xC, 0xC, 0x7FFFFFFF), (0x10, 0x10, 0xFFFF), (0x40, 0x9C, full32),
   (0x100, 0x17C, full32)]
def carMasks : RegTable := [(0x0, 0x4, full32), (0x40, 0xFC, full32), (0x100, 0x1FC, 0x3F3F3F3F), (0x200, 0x27C, 0x31F)]
def queueMasks : RegTable :=
  [(0x0, 0x0, 0xFFFFFFC0), (0x4, 0x4, full32), (0x8, 0x8, 0xFFFFFF0F), (0xC, 0xC, 0x3), (0x10, 0x10, 0xFFF), (0x14, 0x14, 0x10FFF),
   (0x18, 0x18, 0xFF), (0x1C, 0x1C, 0x3), (0x20, 0x20, 0x1FF1F), (0x24, 0x24, 0x1FF), (0x28, 0x28, full32)]
def htuMasks : RegTable :=
  [(0x0, 0x0, 0x1), (0x4, 0x4, 0xFFF7F01), (0x8, 0x8, 0xFFFFF000), (0xC, 0xC, 0xFFFFF), (0x10, 0x10, 0x1FF3F), (0x18, 0x28, full32), (0x2C, 0x2C, 0x1FF)]
def faultMasks : RegTable := [(0x0, 0x4, full32), (0x8, 0x8, 0x1FF37FF), (0xC, 0xC, 0xFFFF03FF)]
def bhvMasks : RegTable := [(0x0, 0x0, 0x71), (0x4, 0x4, 0xFFFF), (0x8, 0x10, full32), (0x400, 0x47C, full32)]
def chainMasks : RegTable := [(0x0, 0x0, 0x1F1F07), (0x4, 0xC, full32), (0x10, 0x10, 0x7FFFFF), (0x14, 0x18, full32)]
def runMasks : RegTable :=
  [(0x0, 0x0, 0xFFF01), (0x4, 0x4, 0x0FFFFFFF), (0x8, 0x24, full32), (0x28, 0x28, 0xFF03), (0x30, 0x38, full32),
   (0x1000, 0x1000, 0xFFFFFF), (0x1004, 0x1004, 0xFFF3), (0x1008, 0x1008, full32), (0x1100, 0x11FC, full32)]
def dmpMasks : RegTable :=
  [(0x0, 0x0, 0x1), (0x4, 0x4, 0xF1F01), (0x8, 0x14, full32), (0x20, 0x20, 0x307), (0x24, 0x28, full32)]
def ctxMasks : RegTable := [(0x0, 0x0, 0x3FF0FFF), (0x4, 0x8, full32), (0x10, 0x1C, full32)]
def trcMasks : RegTable :=
  [(0x0, 0x0, 0x3), (0x4, 0x4, 0xFF3F), (0x8, 0xC, 0x7FFFF), (0x10, 0x14, full32), (0x18, 0x18, 0x7FFFF), (0x20, 0x34, full32),
   (0x40, 0x40, 0x10F1F), (0x44, 0x44, 0x703), (0x48, 0x50, full32)]
def ringMasks : RegTable :=
  [(0x0, 0x0, 0xFFFFFFC0), (0x4, 0x4, full32), (0x8, 0x8, 0xFFFFFFC0), (0xC, 0xC, full32), (0x10, 0x10, 0x1F0F0F), (0x14, 0x14, 0x1),
   (0x18, 0x18, 0x10FFF), (0x1C, 0x1C, 0xFFF), (0x20, 0x20, 0x1FFF77), (0x24, 0x24, full32)]
/-- The bits of the register at a 4-byte aligned BAR 0 offset that are not reserved; none where there is no register. -/
def regMask (o : Nat) : Option Nat :=
  let b := o % 0x1000
  if o < 0x1000 then hubMasks.mask o
  else if o < 0x2000 then pwrMasks.mask b
  else if o < 0x3000 then lcsMasks.mask b
  else if o < 0x4000 then authMasks.mask b
  else if o < 0x5000 then carMasks.mask b
  else if o < 0x6000 then queueMasks.mask (b % 0x40)
  else if o < 0x6100 then htuMasks.mask b
  else if o < 0x6500 then faultMasks.mask (b % 0x10)
  else if o < 0x8000 then none
  else if 0x8100 ≤ o ∧ o < 0x8300 then chainMasks.mask (b % 0x40)
  else if o < 0xA000 then bhvMasks.mask (o - 0x8000)
  else if o < 0xC000 then runMasks.mask (o - 0xA000)
  else if 0xC040 ≤ o ∧ o < 0xC0E0 then ctxMasks.mask (b % 0x20)
  else if o < 0xE000 then dmpMasks.mask (o - 0xC000)
  else if o < 0x10000 then trcMasks.mask (o - 0xE000)
  else if o < 0x18000 then ringMasks.mask (o % 0x40)
  else if 0x20000 ≤ o ∧ o < 0x30000 then some full32
  else none

/-! ### HUB, PWR, LCS and AUTH -/

/-- Work items' numbers as HUB_SE_n and DMP_CTX_n give them: RING, and whether the scan ring is served. -/
def Work.ringNo : Work → Nat
  | .ring n => n
  | _ => 0
def hubReg (s : State) (o : Nat) : Nat :=
  let se := fun n =>
    let v := s.se n
    match v.work with
    | some w => 1 + place (b2n (w == .scan)) 1 1 + place w.ringNo 2 9 + place v.opcode 16 8 +
        (match v.waiting with | some p => place 1 24 1 + place p.1 25 3 | none => 0)
    | none => 0
  let tx := fun k => (s.chain k).txns.length
  if o = 0 then 0x0C4D1A3B
  else if o = 4 then 1 + place s.boot.fwVersion 16 16
  else if o = 8 then 4 + place 8 4 4 + place s.boot.dsSize 8 8
  else if o = 0x10 then s.hub.yieldWait + place s.hub.bulkMin 12 4 + place s.hub.scanGuard 16 4
  else if 0x20 ≤ o ∧ o < 0x30 then se ((o - 0x20) / 4)
  else if o = 0x30 ∨ o = 0x34 then (List.range 4).foldl (fun a j => a + place (tx (o - 0x30 + j)) (8 * j) 7) 0
  else if o = 0x38 then s.htu.posted + place s.htu.reads 16 7
  else if o = 0x3C then
    (s.bursts.filter (fun b => b.nor == 0)).length + place s.htu.walks 8 4 + place s.hub.coreQ.length 16 5 +
    place ((List.range 4).filter (fun e => (s.se e).work.isSome)).length 24 3
  else if 0x40 ≤ o ∧ o < 0x58 then tget 0 s.hub.stalls ((o - 0x40) / 4)
  else if o = 0x58 then s.hub.yields
  else if o = 0x60 then lo32 s.hub.strokes
  else if o = 0x64 then s.hub.strokesHi
  else if o = 0x68 then s.hub.latUrg
  else if o = 0x6C then s.hub.latScan
  else 0
def pwrReg (s : State) (o : Nat) : Nat :=
  let p := s.pwr
  if o = 0 then p.status
  else if o = 4 then p.wakeEn
  else if o = 8 then p.wakeLines
  else if o = 0xC then p.events
  else if o = 0x10 then p.timer
  else if o = 0x14 then p.commits + place p.aborts 16 16
  else if o = 0x18 then p.wakeTime
  else if o = 0x80 then p.straps
  else 0
/-- Word `j` of a byte string of `n` bytes held as a number, byte 0 lowest (Table 6.8). -/
def wordOf (x j : Nat) : Nat := fld x (32 * j) 32
/-- LCS_STATE (Table 6.9). -/
def State.lcsState (s : State) : Nat :=
  let st := s.lcs.state
  st + place (phaseOf st) 4 4 + place (ceilingOf st) 8 2 + place (defaultOf st) 10 2 + place (b2n s.lcs.trans.isSome) 12 1 + place s.lcs.leading 16 3
def State.lcsWipe (s : State) : Nat :=
  b2n s.lcs.wipePending + place (b2n (s.lcs.dsDone || s.boot.dsSize == 0)) 1 1 + place (b2n s.lcs.norDone) 2 1 + place s.lcs.percent 8 8
def State.lcsKeys (s : State) : Nat :=
  b2n s.secretPresent + place (b2n s.fuses.ikey) 1 1 + place (b2n (s.fuses.secret == BitVec.allOnes 512)) 2 1
/-- LCS_BOOT_STATUS (Table 5.6). -/
def Boot.status (b : Boot) : Nat :=
  b.stage + place b.slot 3 1 + place (b2n b.fallback) 4 1 + place b.failFirst 5 3 + place b.failSecond 8 3 + place (b2n b.stagedMonitor) 11 1 +
  place b.cause 12 4
def lcsReg (s : State) (o : Nat) : Nat :=
  if o = 0 then s.lcsState
  else if 4 ≤ o ∧ o < 0x10 then (let n := (o - 4) / 4; s.fuses.group (2 * n + 1) + place (s.fuses.group (2 * n + 2)) 12 12)
  else if 0x10 ≤ o ∧ o < 0x20 then wordOf s.fuses.unitId.toNat ((o - 0x10) / 4)
  else if o = 0x20 then place (b2n s.lcs.nonceValid) 1 1
  else if 0x30 ≤ o ∧ o < 0x40 then wordOf s.lcs.nonce.toNat ((o - 0x30) / 4)
  else if o = 0x40 then s.lcsStatus
  else if o = 0x44 then s.lcsWipe
  else if o = 0x48 then s.lcsKeys
  else if 0x50 ≤ o ∧ o < 0x80 then (if s.lcs.state = 6 ∨ s.lcs.state = 15 then 0 else wordOf s.fuses.ikeyHash.toNat ((o - 0x50) / 4))
  else if o = 0x100 then s.boot.status
  else if o = 0x104 then s.boot.count
  else if o = 0x108 then s.boot.time
  else if o = 0x110 then s.stageStatus
  else if o = 0x114 then s.boot.slotA
  else if o = 0x118 then s.boot.slotB
  else 0
def authReg (s : State) (o : Nat) : Nat :=
  if o = 0 then s.authLevels
  else if o = 4 then s.certStatus
  else if o = 8 then s.auth.denyCnt
  else if o = 0xC then s.auth.denyLast
  else if o = 0x10 then s.certSlots
  else if 0x40 ≤ o ∧ o < 0x60 then s.levelMap false ((o - 0x40) / 4)
  else if 0x60 ≤ o ∧ o < 0x80 then s.levelMap true ((o - 0x60) / 4)
  else if 0x80 ≤ o ∧ o < 0xA0 then (match tget none s.auth.certs ((o - 0x80) / 4) with | some c => c.serial | none => 0)
  else if 0x100 ≤ o ∧ o < 0x180 then tget 0xAAAAAAAA s.auth.caps ((o - 0x100) / 4)
  else 0

/-! ### CAR and HTU -/

/-- A flag of sources 32m to 32m + 31. -/
def State.srcBits (s : State) (m : Nat) (p : Source → Bool) : Nat := maskOf 32 (fun k => p (s.src (32 * m + k)))
def queueReg (s : State) (q o : Nat) : Nat :=
  let u := s.queue q
  if o = 0 then lo32 u.base
  else if o = 4 then hi32 u.base
  else if o = 8 then let c := u.coalNew.getD (u.coalCount, u.coalTime); u.sizeLog2 + place c.1 8 8 + place c.2 16 16
  else if o = 0xC then b2n u.enabled + place (b2n u.irqEn) 1 1
  else if o = 0x10 then u.head
  else if o = 0x14 then u.tail + place (b2n u.tailPhase) 16 1
  else if o = 0x20 then u.status
  else if o = 0x24 then u.named + place (b2n u.none_) 8 1
  else if o = 0x28 then u.dropped + place u.faults 16 16
  else 0
def carReg (s : State) (o : Nat) : Nat :=
  let m := o % 0x20 / 4
  if o = 0 ∨ o = 4 then maskOf 32 (fun n => (s.queue (8 * o + n)).frozen)
  else if 0x40 ≤ o ∧ o < 0x80 then s.srcBits m (fun v => v.pending)
  else if 0x80 ≤ o ∧ o < 0xC0 then s.srcBits m (fun v => v.mask)
  else if 0xC0 ≤ o ∧ o < 0xE0 then s.srcBits m (fun v => v.ovr)
  else if 0xE0 ≤ o ∧ o < 0x100 then s.srcBits m (fun v => v.ready)
  else if 0x100 ≤ o ∧ o < 0x200 then (List.range 4).foldl (fun a j => a + place (s.src (o - 0x100 + j)).route (8 * j) 6) 0
  else if 0x200 ≤ o ∧ o < 0x280 then (s.line ((o - 0x200) / 4)).reg
  else if 0x1000 ≤ o then queueReg s ((o - 0x1000) / 0x40) (o % 0x40)
  else 0
def Htu.parkedBits (h : Htu) (lo : Nat) : Nat := maskOf 32 (fun k => (h.entry (lo + k)).parked)
def htuReg (s : State) (o : Nat) : Nat :=
  let h := s.htu
  if o = 0 then b2n h.enabled
  else if o = 4 then
    b2n h.enabled + place ((List.range 64).filter (fun n => (h.entry n).parked)).length 8 7 +
    place (h.parked.filter (fun p => p.2.1.isNone)).length 16 11 + place (b2n h.stale) 27 1
  else if o = 8 then lo32 h.root
  else if o = 0xC then hi32 h.root
  else if o = 0x18 then h.parkedBits 0
  else if o = 0x1C then h.parkedBits 32
  else if o = 0x20 then h.hits
  else if o = 0x24 then h.misses
  else if o = 0x28 then h.faults
  else if o = 0x2C then h.tlb.length
  else if 0x100 ≤ o ∧ o < 0x500 then
    let e := h.entry ((o - 0x100) / 16)
    let j := o % 16 / 4
    if j = 0 then lo32 e.addr else if j = 1 then hi32 e.addr else if j = 2 then e.w2 else e.w3
  else 0

/-! ### BHV, RUN and CUT -/

/-- BHV_CH_STATUS (Table 12.9). -/
def Chain.status (c : Chain) : Nat := c.state.code + place c.reach 8 5 + place (countBits 16 c.present) 16 5
def chainReg (c : Chain) (o : Nat) : Nat :=
  if o = 0 then c.status
  else if o = 4 then c.present + place c.addressable 16 16
  else if o = 8 then c.crc
  else if o = 0xC then c.retrains + place c.resets 16 16
  else if o = 0x10 then c.timeouts + place (c.txns.filter (fun t => t.quarantined)).length 16 7
  else if o = 0x14 then c.step
  else if o = 0x18 then tget 0 c.delay 0
  else 0
def bhvReg (s : State) (o : Nat) : Nat :=
  let b := s.bhv
  if o = 0 then b2n b.autoRedisc + place b.traceShare 4 3
  else if o = 4 then b.txnTimeout
  else if o = 8 then lo32 s.time
  else if o = 0xC then b.ftHi
  else if o = 0x10 then b.syncCnt
  else if 0x100 ≤ o ∧ o < 0x300 then chainReg (s.chain ((o - 0x100) / 0x40)) (o % 0x40)
  else if 0x400 ≤ o ∧ o < 0x480 then (List.range 4).foldl (fun a j => a + place (tget 0x80 b.ftErr (o - 0x400 + j)) (8 * j) 8) 0
  else 0
/-- RUN_STATUS (Table 13.12). -/
def State.runStatus (s : State) : Nat :=
  maskOf 8 s.stopPad + place (maskOf 8 s.stopInPad) 8 8 + place (maskOf 8 (fun k => tget 0 s.pins.pulse k != 0)) 16 8 +
  place s.run.tollState.code 24 2 + place (b2n s.run.relayFired) 26 1 + place (b2n s.run.tollLate) 27 1
/-- CUT_STATUS (Table 14.7). -/
def Cut.statusReg (c : Cut) : Nat := b2n c.busy + place (b2n c.retained) 1 1 + place c.outcome 4 4 + place c.status 8 8
/-- A LO register with its HI register, which returns what the LO read latched (R27). -/
def pairReg (lo : Nat) (latch : Tab Word) (value : Nat) (o : Nat) : Nat := if o = lo then lo32 value else (tget 0 latch lo).toNat
def runReg (s : State) (o : Nat) : Nat :=
  let r := s.run
  if o = 0 then b2n r.relayEn + place r.relayMask 8 8 + place r.pulse 16 4
  else if o = 4 then s.runStatus
  else if o = 8 ∨ o = 0xC then pairReg 0x8 r.latch r.tollT o
  else if o = 0x10 ∨ o = 0x14 then pairReg 0x10 r.latch r.trigEdge o
  else if o = 0x18 ∨ o = 0x1C then pairReg 0x18 r.latch r.trigStamp o
  else if o = 0x20 ∨ o = 0x24 then pairReg 0x20 r.latch r.stopTime o
  else if o = 0x28 then r.stopKind + place r.stopChains 8 8
  else if o = 0x30 then r.pealCnt
  else if o = 0x34 then r.tollCnt
  else if o = 0x38 then r.relayCnt
  else if o = 0x1000 then s.cut.drainLimit + place s.cut.linkLimit 16 8
  else if o = 0x1004 then s.cut.statusReg
  else if o = 0x1008 then s.cut.lastId
  else if 0x1100 ≤ o ∧ o < 0x1200 then leNat ((s.cut.summary.drop (o - 0x1100)).take 4)
  else 0

/-! ### DMP, TRC and RNG -/

def CtxState.code : CtxState → Nat
  | .free => 0 | .running => 1 | .parked => 2 | .suspended => 3 | .finishing => 4
def ctxReg (s : State) (n o : Nat) : Nat :=
  let c := s.ctx n
  if o = 0 then
    c.state.code + place (b2n c.survival) 3 1 + place (b2n c.toHost) 4 1 + place (b2n c.toStore) 5 1 + place (b2n c.sealed_) 6 1 +
    place (b2n c.compress) 7 1 + place c.planId 8 3 + place (b2n c.tensor) 11 1 +
    (match c.work with | some w => place w.ringNo 16 9 + place (b2n (w == .scan)) 25 1 | none => 0)
  else if o = 4 then c.id
  else if o = 8 then c.section_
  else if o = 0x10 ∨ o = 0x14 then pairReg (0x10) ((s.dmp.latch.filter (fun p => p.1 / 0x20 == n)).map (fun p => (p.1 % 0x20, p.2))) c.raw o
  else if o = 0x18 ∨ o = 0x1C then pairReg (0x18) ((s.dmp.latch.filter (fun p => p.1 / 0x20 == n)).map (fun p => (p.1 % 0x20, p.2))) c.out o
  else 0
def dmpReg (s : State) (o : Nat) : Nat :=
  let d := s.dmp
  if o = 0 then b2n d.enable
  else if o = 4 then
    b2n d.enable + place (maskOf 5 (fun n => (s.ctx n).state != .free)) 8 5 + place (b2n d.survArmed) 16 1 + place (b2n d.surviving) 17 1 +
    place (b2n s.storeBusy) 18 1 + place (b2n d.lgWritten) 19 1
  else if o = 8 then s.dsBlocks
  else if o = 0xC then d.lastId
  else if o = 0x10 then d.lgSeq
  else if o = 0x14 then d.lgAddr
  else if o = 0x20 then d.survPlan + place (b2n d.survCompress) 8 1 + place (b2n d.survCut) 9 1
  else if o = 0x24 then d.survBlock
  else if o = 0x28 then d.survBlocks
  else if 0x40 ≤ o ∧ o < 0xE0 then ctxReg s ((o - 0x40) / 0x20) (o % 0x20)
  else 0
def trcReg (s : State) (o : Nat) : Nat :=
  let t := s.trc
  if o = 0 then b2n t.enable
  else if o = 4 then
    t.state.code + place (b2n t.captured) 3 1 + place (b2n t.triggered) 4 1 + place (b2n s.ringFull) 5 1 + place t.trigCode 8 8
  else if o = 8 then t.watermark
  else if o = 0xC then t.ring.length
  else if o = 0x10 ∨ o = 0x14 then pairReg 0x10 t.latch t.trigTime o
  else if o = 0x18 then t.ringSize
  else if o = 0x20 then t.received
  else if o = 0x24 then t.gaps
  else if o = 0x28 then t.dropped
  else if o = 0x2C then t.linkGaps
  else if o = 0x30 then t.discarded
  else if o = 0x34 then t.ignored
  else if o = 0x40 then t.toutSources + place t.toutWidth 8 4
  else if o = 0x44 then b2n s.pins.trigPulse.isSome + place (b2n s.pins.trigIdle) 1 1 + place t.toutLast 8 3
  else if o = 0x48 ∨ o = 0x4C then pairReg 0x48 t.latch t.toutTime o
  else if o = 0x50 then t.toutCnt
  else 0
def RingState.code : RingState → Nat
  | .disabled => 0 | .idle => 1 | .active => 2 | .draining => 3 | .stalled => 4
/-- WAIT_ON of Table 9.9. -/
def State.waitOn (s : State) (w : Work) (i : Item) : Nat :=
  if i.parked then 3
  else if i.wait = .core then 4
  else if i.wait = .cond ∧ (opcodeOf i.desc = 1 ∨ opcodeOf i.desc = 3) then 2
  else if s.eligible w ∨ s.running w then 1
  else 5
def State.ringStatus (s : State) (n : Nat) : Nat :=
  let r := s.ring n
  r.state.code + (match r.item with | some i => place (s.waitOn (.ring n) i) 4 3 + place (opcodeOf i.desc) 8 8 | none => 0) +
  place (b2n r.dbErr) 16 1 + place r.dbCause 17 2 + place (b2n r.fetchErr) 19 1 + place (b2n r.cplLost) 20 1
def Ring.headReg (r : Ring) : Nat := r.head + place (b2n r.phase) 16 1
def ringReg (s : State) (n o : Nat) : Nat :=
  let r := s.ring n
  if o = 0 then lo32 r.base
  else if o = 4 then hi32 r.base
  else if o = 8 then lo32 r.cpl
  else if o = 0xC then hi32 r.cpl
  else if o = 0x10 then r.sizeLog2 + place r.weight 8 4 + place r.notify 16 5
  else if o = 0x14 then b2n r.enable
  else if o = 0x18 then r.headReg
  else if o = 0x1C then r.tail
  else if o = 0x20 then s.ringStatus n
  else if o = 0x24 then r.doneCnt
  else 0
/-- What a 4-byte read at +0 or +4 of a counter's two windows returns (Table 9.15). -/
def synReg (s : State) (o : Nat) : Nat :=
  if 0x8000 ≤ o then 0
  else
    let c := s.counter (o / 8)
    if o % 8 = 0 then lo32 c.val.toNat else c.latch.toNat

/-! ### A read and what it latches (R8, R27, R267) -/

/-- What a 4-byte read returns. -/
def regVal (s : State) (o : Nat) : Nat :=
  if o < 0x1000 then hubReg s o
  else if o < 0x2000 then pwrReg s (o - 0x1000)
  else if o < 0x3000 then lcsReg s (o - 0x2000)
  else if o < 0x4000 then authReg s (o - 0x3000)
  else if o < 0x6000 then carReg s (o - 0x4000)
  else if o < 0x8000 then htuReg s (o - 0x6000)
  else if o < 0xA000 then bhvReg s (o - 0x8000)
  else if o < 0xC000 then runReg s (o - 0xA000)
  else if o < 0xE000 then dmpReg s (o - 0xC000)
  else if o < 0x10000 then trcReg s (o - 0xE000)
  else if o < 0x18000 then ringReg s ((o - 0x10000) / 0x40) (o % 0x40)
  else if 0x20000 ≤ o ∧ o < 0x30000 then synReg s (o - 0x20000)
  else 0
/-- The high half of a 64-bit value as a latch holds it. -/
def hiWord (x : Nat) : Word := BitVec.ofNat 32 (x / 2 ^ 32)
/-- What a read of a LO register latches. -/
def State.latchHi (s : State) (o : Nat) : State :=
  if o = 0x60 then { s with hub := { s.hub with strokesHi := hi32 s.hub.strokes } }
  else if o = 0x8008 then { s with bhv := { s.bhv with ftHi := hi32 s.time } }
  else if o = 0xA008 ∨ o = 0xA010 ∨ o = 0xA018 ∨ o = 0xA020 then
    let r := s.run
    let v := if o = 0xA008 then r.tollT else if o = 0xA010 then r.trigEdge else if o = 0xA018 then r.trigStamp else r.stopTime
    { s with run := { r with latch := tput 0 r.latch (o - 0xA000) (hiWord v) } }
  else if 0xC040 ≤ o ∧ o < 0xC0E0 ∧ (o % 0x20 = 0x10 ∨ o % 0x20 = 0x18) then
    let n := (o - 0xC040) / 0x20
    let v := if o % 0x20 = 0x10 then (s.ctx n).raw else (s.ctx n).out
    { s with dmp := { s.dmp with latch := tput 0 s.dmp.latch (0x20 * n + o % 0x20) (hiWord v) } }
  else if o = 0xE010 ∨ o = 0xE048 then
    { s with trc := { s.trc with latch := tput 0 s.trc.latch (o - 0xE000) (hiWord (if o = 0xE010 then s.trc.trigTime else s.trc.toutTime)) } }
  else if 0x20000 ≤ o ∧ o < 0x28000 ∧ o % 8 = 0 then
    let k := (o - 0x20000) / 8
    s.setCounter k { s.counter k with latch := hiWord (s.counter k).val.toNat }
  else s

end Sys2Proof.Machine
end

