-- ==== Sys2Proof/Machine/Survival.lean ====
section
/-! DEFINITION. Survival on auxiliary power: its start, the dump it serves, the last-gasp record, its end, and the end of
hold-up (R61, R98–R101, R106, R126, R145, R444–R446, R461). -/

namespace Sys2Proof.Machine

/-- The armed plan as a DUMP_RUN descriptor to the dump store. -/
def State.survDesc (s : State) : BitVec 512 :=
  let d := s.dmp
  BitVec.ofNat 512 (0x31 + place d.survPlan 128 3 + place 2 136 2 + place (b2n d.survCompress) 144 1 + place (b2n d.survCut) 145 1 +
    place d.survBlock 320 32 + place d.survBlocks 352 32)
/-- Context 4 starts the armed plan (R444 step 2, log entry 34). -/
def State.survDump (s : State) : State :=
  if s.dmp.survArmed && s.dmp.survFromRun && s.dmp.enable && s.boot.dsSize != 0 && !s.storeBusy && (s.ctx 4).state == .free &&
     (tget [] s.dmp.plans s.dmp.survPlan != []) then
    let d := s.survDesc
    let r := s.addFree { desc := d, begun := true, stage := 1, eligAt := s.now, began := s.now, x := tput 0 [] 10 5, fullMask := 2 ^ 128 - 1 }
    let t := r.2.newCtx 4 d r.1 false true
    if (t.ctx 4).noSpace then s else t
  else s
/-- The last-gasp write becomes a ringless work item (R55, R61). -/
def State.addGasp (s : State) : State :=
  (s.addFree { desc := BitVec.ofNat 512 lgOpcode, begun := true, stage := 1, eligAt := s.now, began := s.now, fullMask := 2 ^ 128 - 1 }).2
/-- The dump's final header write has been issued: it counts as finished (R467). -/
def State.finalIssued (s : State) (c : Ctx) : Bool := (c.work.bind s.item?).any (fun i => i.stage == 22 && i.todo.isEmpty)
/-- SURVIVAL_START: line 17 is active and strokes may start (R61, R126, R444). -/
def State.survivalStart (s : State) : State :=
  if s.dmp.survDue && (s.line 17).level && !s.dmp.surviving && s.fastUp && s.boot.stage == 4 then
    let s := s.activate 173 0
    let s := { s with dmp := { s.dmp with surviving := true, survDue := false, lgBegun := false, survInfo := {} } }
    (if s.survDumping then
      (List.range 5).foldl (fun s n =>
        let c := s.ctx n
        if c.toStore && (c.state == .running || c.state == .finishing) && !s.finalIssued c then s.dropHostPart n else s) s
    else s.survDump).addGasp
  else s
/-- The last-gasp record (Table 15.12). -/
def State.lgBytes (s : State) (seq : Nat) : List Byte :=
  let i := s.dmp.survInfo
  let flags := b2n i.started + place (b2n i.done) 1 1 + place (b2n i.hostDropped) 2 1 + place (b2n i.sealed_) 3 1 + place (b2n s.cut.retained) 4 1 +
    place (b2n i.plan) 5 1
  let sum := if s.cut.retained then s.cut.summary.take 256 ++ zeros (256 - s.cut.summary.length) else zeros 256
  let b := leBytes 4 0x5053474C ++ leBytes 2 1 ++ leBytes 1 s.dmp.warnPwr ++ leBytes 1 flags ++ leBytes 4 seq ++ leBytes 4 s.boot.count ++
    unitBytes s.fuses.unitId ++ leBytes 1 s.lcs.state ++ leBytes 1 i.sdfState ++ leBytes 2 s.boot.fwVersion ++ leBytes 4 i.dumpId ++
    leBytes 8 s.dmp.warnTime ++ leBytes 8 i.endTime ++ leBytes 4 i.block ++ leBytes 4 i.sections ++ leBytes 8 i.length ++ zeros 24 ++ sum ++
    leBytes 4 s.boot.status ++ leBytes 4 s.runStatus ++ leBytes 4 s.cut.statusReg ++
    ((List.range 8).map (fun k => leBytes 4 (s.chain k).status)).flatten ++ zeros 112
  b ++ leBytes 4 (crc32 b)
/-- The record goes to the slot after the newest; a slot that is not erased is left, and the write skipped (R145). -/
def State.lgWrite (s : State) : State :=
  let p := match s.lgNewest with
    | some i => ((i + 1) % 128, (s.lgSeqOf i + 1) % 2 ^ 32)
    | none => (0, 1)
  if isErased (s.lgRecord p.1) then
    let t := s.norWrite (lgBase + 512 * p.1) (s.lgBytes p.2)
    { t with dmp := { t.dmp with lgWritten := true, lgSeq := p.2, lgAddr := lgBase + 512 * p.1 } }
  else s
/-- The last-gasp work item, when engine `e` serves it. -/
def State.gaspOn (s : State) (e : Nat) : Option Work := (s.se e).work.filter s.lgWork
/-- LAST_GASP_WRITE, by the engine that the arbiter gave the write to. It ends with the dump store in self-refresh and HUB_READY low
(R61, R98, R444 steps 3 and 4). A NOR operation under way is suspended, to be reissued when power recovers (R145, R155). -/
def State.lastGasp (s : State) : State :=
  match (List.range 4).findSome? s.gaspOn with
  | some w =>
    if s.dmp.surviving && !s.dmp.lgBegun && s.fastRun then
      let s := (s.lgWrite.endStrokesOf w).dropItem w
      let s := { s with bursts := s.bursts.map (fun (b : Burst) => if b.nor = 0 then b else { b with held := true }) }
      { s with dmp := { s.dmp with lgBegun := true, selfRefresh := true }, pins := { s.pins with ready := false } }
    else s
  | none => s
/-- A last-gasp write that has not begun is no longer due, and what survival kept waiting becomes eligible now. -/
def State.gaspOver (s : State) : State :=
  let s := (s.works.filter s.lgWork).foldl (fun s w => (s.endStrokesOf w).dropItem w) s
  s.mapItems (fun w i => if i.ready ∧ !s.survServed w then { i with eligAt := s.now } else i)
/-- SURVIVAL_END: line 17 is inactive again (R61, R101, R445). -/
def State.survivalEnd (s : State) : State :=
  if s.dmp.surviving && !(s.line 17).level then
    let begun := s.dmp.lgBegun
    let s := s.gaspOver
    { s with
      bursts := s.bursts.map (fun (b : Burst) => { b with held := false })
      dmp := { s.dmp with surviving := false, survDue := false, selfRefresh := if begun then false else s.dmp.selfRefresh }
      pins := { s.pins with ready := if begun then true else s.pins.ready } }
  else s
/-- HOLD_UP_END: the rails fall while survival is in progress; every output is high-impedance (R106). -/
def State.holdUpEnd (s : State) : State :=
  if s.dmp.surviving then s.railsDown else s

/-! ### Commands -/

/-- SURVIVAL_START (R61, R100, R126, R444). -/
def execSurvivalStart (s : State) : Out := .next s.survivalStart
/-- LAST_GASP_WRITE (R98, R145, R444, R461). -/
def execLastGaspWrite (s : State) : Out := .next s.lastGasp
/-- SURVIVAL_END (R101, R445). -/
def execSurvivalEnd (s : State) : Out := .next s.survivalEnd
/-- HOLD_UP_END (R106, R446). -/
def execHoldUpEnd (s : State) : Out := .next s.holdUpEnd

end Sys2Proof.Machine
end

