-- ==== Sys2Proof/Machine/Endpoint.lean ====
section
/-! DEFINITION. The endpoint's configuration space: identifiers, BARs, power state, MSI-X, PCI Express, AER and L1 substates
capabilities (R247–R249, R280). Places of registers and bits are those of the PCI Express Base Specification, and the places of
the capabilities the model's own (log entry 90). -/

namespace Sys2Proof.Machine

/-- Sizes of BARs 0, 2 and 4 (Table 9.3). -/
def barSize (j : Nat) : Nat := if j = 0 then 2 ^ 20 else if j = 2 then 2 ^ 21 else 2 ^ 14
/-- The 32 bits of configuration space at a multiple of 4. The link's speed and width are left out here: the host trains it. -/
def cfgReg (s : State) (o : Nat) : Nat :=
  let c := s.cfg
  let bar := fun j => tget 0 c.bars j
  if o = 0 then 0x0C4D1E9D
  else if o = 4 then c.command + place (c.status ||| 0x10) 16 16
  else if o = 8 then hubReg s 4 % 256 + place 0x118000 8 24
  else if o = 0x10 ∨ o = 0x18 ∨ o = 0x20 then lo32 (bar ((o - 0x10) / 4)) + 4
  else if o = 0x14 ∨ o = 0x1C ∨ o = 0x24 then hi32 (bar ((o - 0x14) / 4))
  else if o = 0x2C then 0x1E9D
  else if o = 0x34 then 0x40
  else if o = 0x40 then 0x35001
  else if o = 0x44 then (if c.d3hot then 3 else 0) + 8
  else if o = 0x50 then 0x3F6011 + place (b2n c.msixMask) 30 1 + place (b2n c.msixEn) 31 1
  else if o = 0x54 then 4
  else if o = 0x58 then 0x2004
  else if o = 0x60 then 0x20010
  else if o = 0x64 then 0x10008002
  else if o = 0x68 then c.devCtl
  else if o = 0x6C then 0x28845
  else if o = 0x70 then c.linkCtl
  else if o = 0x84 then 0x3001F
  else if o = 0x88 then c.devCtl2
  else if o = 0x8C then 0x3E
  else if o = 0x100 then 0x14020001
  else if o = 0x104 then c.aerStatus
  else if o = 0x108 then c.aerMask
  else if o = 0x10C then c.aerSev
  else if o = 0x110 then c.aerCorr
  else if o = 0x114 then c.aerCorrMask
  else if o = 0x140 then 0x1001E
  else if o = 0x144 then 0x1A
  else if o = 0x148 then c.l1Ctl
  else 0
/-- An access of 1, 2 or 4 bytes that stays within one dword. -/
def cfgFits (off size : Nat) : Bool := (size == 1 || size == 2 || size == 4) && off % size == 0
/-- A read of configuration space. -/
def State.cfgRead (s : State) (off size : Nat) : Nat × State :=
  if !cfgFits off size then (0, s)
  else
    let o := off / 4 * 4
    let r := s.free
    let v := cfgReg s o + (if o = 0x70 then place r.1.toNat 16 16 else 0)
    (fld v (8 * (off % 4)) (8 * size), if o = 0x70 then r.2 else s)
/-- Bits of the uncorrectable errors that AER can report. -/
def aerBits : Nat := 0x1FF030
/-- A dword of configuration space takes a value in the bits of `m`. -/
def State.cfgPut (s : State) (o v m : Nat) : State :=
  let c := s.cfg
  let mix := fun (old keep : Nat) => (old &&& (2 ^ 32 - 1 - (m &&& keep))) ||| (v &&& m &&& keep)
  let clear := fun (old : Nat) => old &&& (2 ^ 32 - 1 - (v &&& m))
  let barLo := fun j => let a := tget 0 c.bars j; { c with bars := tput 0 c.bars j (mix (lo32 a) (2 ^ 32 - barSize j) + 2 ^ 32 * hi32 a) }
  let barHi := fun j => let a := tget 0 c.bars j; { c with bars := tput 0 c.bars j (lo32 a + 2 ^ 32 * mix (hi32 a) (2 ^ 32 - 1)) }
  if o = 4 then { s with cfg := { c with command := mix c.command 0x546, status := c.status &&& (2 ^ 16 - 1 - fld (v &&& m) 16 16) } }
  else if o = 0x10 ∨ o = 0x18 ∨ o = 0x20 then { s with cfg := barLo ((o - 0x10) / 4) }
  else if o = 0x14 ∨ o = 0x1C ∨ o = 0x24 then { s with cfg := barHi ((o - 0x14) / 4) }
  else if o = 0x44 then
    (if m % 4 = 0 then s else if v % 4 = 0 then { s with cfg := { c with d3hot := false } } else if v % 4 = 3 then { s with cfg := { c with d3hot := true } } else s)
  else if o = 0x50 then
    { s with cfg := { c with msixMask := if bit m 30 then bit v 30 else c.msixMask, msixEn := if bit m 31 then bit v 31 else c.msixEn } }
  else if o = 0x68 then
    let s := { s with cfg := { c with devCtl := mix c.devCtl 0x70EF } }
    if bit (v &&& m) 15 then s.flr else s
  else if o = 0x70 then { s with cfg := { c with linkCtl := mix c.linkCtl 0x3 } }
  else if o = 0x88 then { s with cfg := { c with devCtl2 := mix c.devCtl2 0x101F } }
  else if o = 0x104 then { s with cfg := { c with aerStatus := clear c.aerStatus } }
  else if o = 0x108 then { s with cfg := { c with aerMask := mix c.aerMask aerBits } }
  else if o = 0x10C then { s with cfg := { c with aerSev := mix c.aerSev aerBits } }
  else if o = 0x110 then { s with cfg := { c with aerCorr := clear c.aerCorr } }
  else if o = 0x114 then { s with cfg := { c with aerCorrMask := mix c.aerCorrMask 0x31C1 } }
  else if o = 0x148 then { s with cfg := { c with l1Ctl := mix c.l1Ctl 0xA } }
  else s
/-- A write of configuration space. -/
def State.cfgWrite (s : State) (off size v : Nat) : State :=
  if !cfgFits off size then s
  else s.cfgPut (off / 4 * 4) (v * 2 ^ (8 * (off % 4))) ((2 ^ (8 * size) - 1) * 2 ^ (8 * (off % 4)))

end Sys2Proof.Machine
end

