-- ==== Sys2Proof/Machine/Bar0.lean ====
section
/-! DEFINITION. Host accesses: which reach the hub, those held while it sleeps, the writes of BAR 0 register by register,
doorbells and the MSI-X table (R8, R9, R65, R66, R118–R122, R128, R131, R135, R140, R162, R180, R209, R249–R257, R267,
R298, R301, R305, R314–R323, R328–R335, R366, R409, R429, R464, R497, R501, R511, R514, R519). -/

namespace Sys2Proof.Machine

/-! ### Misuse and gating (R9, R140, R162, R252, R519) -/

/-- The SYN windows. -/
def inSyn (off : Nat) : Bool := 0x20000 ≤ off && off < 0x30000
/-- A size and alignment that R252 allows. -/
def sizeOk (off size : Nat) : Bool := (size == 4 && off % 4 == 0) || (size == 8 && off % 8 == 0 && inSyn off)
/-- The misuse a BAR 0 write makes, if any: its register, and whether by its size or alignment (R9, R252, Table 18.3). A write
of 0 to an offset that names no register is none. -/
def writeMisuse (off size v : Nat) : Option (Nat × Bool) :=
  if !sizeOk off size then some (off, true)
  else
    match regMask off with
    | none => if v = 0 then none else some (off, false)
    | some m => if size = 4 ∧ v &&& m ≠ v then some (off, false) else none
/-- The bits of a register that a write reaches. -/
def writable (off size v : Nat) : Nat :=
  match regMask off with
  | none => 0
  | some m => if size = 4 then v &&& m else v
/-- A misuse stands from now on. -/
def State.misuse (s : State) (m : Nat × Bool) : State := if s.misuses.contains m then s else { s with misuses := s.misuses ++ [m] }
/-- The recoveries of Table 18.3: a register rewritten with its reserved bits 0, and a correct access to its block. -/
def State.recover (s : State) (off : Nat) (write : Bool) : State :=
  { s with misuses := s.misuses.filter (fun m => !((write && m == (off, false)) || (m.2 && blockOf m.1 == blockOf off))) }
/-- The lifecycle state and RECOVERY leave the offset served. -/
def State.served0 (s : State) (off : Nat) : Bool :=
  let pwrLcs := 0x1000 ≤ off && off < 0x3000
  (s.boot.stage != 5 || pwrLcs || (0x10000 ≤ off && off < 0x10040)) &&
  (s.lcs.state != 15 || pwrLcs || off < 0x1000 || (0x6000 ≤ off && off < 0x8000) || (0x10000 ≤ off && off < 0x18000))

/-! ### Writes of one register (R8) -/

def hubWrite0 (s : State) (o v : Nat) : State :=
  let h := s.hub
  if o = 0x10 then { s with hub := { h with yieldWait := fld v 0 11, bulkMin := fld v 12 4, scanGuard := fld v 16 4 } }
  else if o = 0x14 then
    let h := if bit v 0 then { h with stalls := [] } else h
    let h := if bit v 1 then { h with yields := 0 } else h
    let h := if bit v 2 then { h with latUrg := 0, latScan := 0 } else h
    { s with hub := if bit v 3 then { h with strokes := 0, strokesHi := 0 } else h }
  else s
def pwrWrite (s : State) (o v : Nat) : State :=
  let p := s.pwr
  if o = 4 then { s with pwr := { p with wakeEn := v % 64 } }
  else if o = 8 then { s with pwr := { p with wakeLines := v &&& 0xFFFDFF00 } }
  else if o = 0xC then { s with pwr := { p with events := maskOf 11 (fun b => bit p.events b && !bit v b) } }
  else if o = 0x10 then { s with pwr := { p with timer := v } }
  else s
def lcsWrite (s : State) (o v : Nat) : State :=
  if o = 0x20 ∧ bit v 0 then s.nonceNew
  else if o = 0x10C ∧ bit v 0 then s.reboot
  else s
def authWrite (s : State) (o v : Nat) : State :=
  if 0x100 ≤ o ∧ o < 0x180 then let s := s.keepRights; { s with auth := { s.auth with caps := tput 0xAAAAAAAA s.auth.caps ((o - 0x100) / 4) v } } else s
/-- Routes of four sources; readiness is judged anew by the new queues' settings (R316, R337). -/
def State.routeWrite (s : State) (m v : Nat) : State :=
  (List.range 4).foldl (fun s j => let n := 4 * m + j; (s.setSrc n { s.src n with route := fld v (8 * j) 6 }).timeReady n) s
def queueWrite (s : State) (q o v : Nat) : State :=
  let u := s.queue q
  if o = 0 then (if u.enabled then s else s.setQueue q { u with base := v + 2 ^ 32 * hi32 u.base })
  else if o = 4 then (if u.enabled then s else s.setQueue q { u with base := lo32 u.base + 2 ^ 32 * v })
  else if o = 8 then
    s.setQueue q { u with sizeLog2 := if u.enabled then u.sizeLog2 else fld v 0 4, coalNew := some (fld v 8 8, fld v 16 16) }
  else if o = 0xC then
    let s := s.setQueue q { u with irqEn := bit v 1 }
    if bit v 0 then s.qEnable q else s.qDisable q
  else if o = 0x10 then s.qHead q v
  else if o = 0x18 then s.qEoi q v
  else if o = 0x1C then (if v = 1 then s.qRecover q false else if v = 2 then s.qRecover q true else s)
  else if o = 0x20 then (if bit v 16 then s.setQueue q { u with headErr := false } else s)
  else s
def carWrite (s : State) (o v : Nat) : State :=
  let m := o % 0x20 / 4
  if 0x40 ≤ o ∧ o < 0x60 then s.eachSource m v State.pendSet
  else if 0x60 ≤ o ∧ o < 0x80 then s.eachSource m v State.pendClr
  else if 0x80 ≤ o ∧ o < 0xA0 then s.eachSource m v (fun s n => s.setMask n true)
  else if 0xA0 ≤ o ∧ o < 0xC0 then s.eachSource m v (fun s n => s.setMask n false)
  else if 0xC0 ≤ o ∧ o < 0xE0 then s.eachSource m v (fun s n => s.setSrc n { s.src n with ovr := false })
  else if 0x100 ≤ o ∧ o < 0x200 then s.routeWrite ((o - 0x100) / 4) v
  else if 0x200 ≤ o ∧ o < 0x280 then s.lineWrite ((o - 0x200) / 4) v
  else if 0x1000 ≤ o then queueWrite s ((o - 0x1000) / 0x40) (o % 0x40) v
  else s
def htuWrite (s : State) (o v : Nat) : State :=
  let h := s.htu
  if o = 0 then (if bit v 0 then s.htuEnable else s.htuDisable)
  else if o = 4 then (if bit v 27 then { s with htu := { h with stale := false } } else s)
  else if o = 8 then (if h.enabled then s else { s with htu := { h with root := v + 2 ^ 32 * hi32 h.root } })
  else if o = 0xC then (if h.enabled then s else { s with htu := { h with root := lo32 h.root + 2 ^ 32 * v } })
  else if o = 0x10 then (s.resolve (fld v 0 6) (fld v 8 8) (bit v 16)).sleepCheck.scrapCheck
  else s
def bhvWrite (s : State) (o v : Nat) : State :=
  if o = 0 then { s with bhv := { s.bhv with autoRedisc := bit v 0, traceShare := fld v 4 3 } }
  else if o = 4 then { s with bhv := { s.bhv with txnTimeout := v } }
  else s
def runWrite (s : State) (o v : Nat) : State :=
  let r := s.run
  if o = 0 then { s with run := { r with relayEn := bit v 0, relayMask := fld v 8 8, pulse := fld v 16 4 } }
  else if o = 4 then { s with run := { r with relayFired := r.relayFired && !bit v 26, tollLate := r.tollLate && !bit v 27 } }
  else if o = 0x1000 then { s with cut := { s.cut with drainLimit := fld v 0 16, linkLimit := fld v 16 8 } }
  else s
def trcWrite (s : State) (o v : Nat) : State :=
  if o = 0 then
    let s := s.traceEnable (bit v 0)
    if bit v 1 then s.traceTrigger 0 s.time 0 else s
  else if o = 8 then { s with trc := { s.trc with watermark := v } }
  else if o = 0x40 then
    let s := { s with trc := { s.trc with toutSources := fld v 0 5, toutWidth := fld v 8 4 } }
    if bit v 16 then s.toutEvent 0 else s
  else s
def ringWrite (s : State) (n o v : Nat) : State :=
  let r := s.ring n
  let off := r.state == RingState.disabled
  if o = 0 then (if off then s.setRing n { r with base := v + 2 ^ 32 * hi32 r.base } else s)
  else if o = 4 then (if off then s.setRing n { r with base := lo32 r.base + 2 ^ 32 * v } else s)
  else if o = 8 then (if off then s.setRing n { r with cpl := v + 2 ^ 32 * hi32 r.cpl } else s)
  else if o = 0xC then (if off then s.setRing n { r with cpl := lo32 r.cpl + 2 ^ 32 * v } else s)
  else if o = 0x10 then s.setRing n { r with sizeLog2 := if off then fld v 0 4 else r.sizeLog2, weight := fld v 8 4, notify := fld v 16 5 }
  else if o = 0x14 then (if bit v 0 then s.ringEnable n else s.ringDisable n)
  else if o = 0x20 then
    s.setRing n { r with dbErr := r.dbErr && !bit v 16, fetchErr := r.fetchErr && !bit v 19, cplLost := r.cplLost && !bit v 20 }
  else s
/-- A write to a SYN window, at offset `o` from 0x2_0000 (Table 9.15). -/
def synWrite (s : State) (o size v : Nat) : State :=
  let hi := o % 8 = 4
  let lo32s : Nat := 2 ^ 32 - 1
  s.synOp (o % 0x8000 / 8)
    { rank := 0, add := 0x8000 ≤ o, val := BitVec.ofNat 64 (if hi then 2 ^ 32 * v else v)
      mask := BitVec.ofNat 64 (if size = 8 then 2 ^ 64 - 1 else if hi then 2 ^ 32 * lo32s else lo32s) }
/-- A BAR 0 write of a size R252 allows. -/
def State.bar0Write (s : State) (off size v : Nat) : State :=
  if !s.served0 off then s
  else if off < 0x1000 then hubWrite0 s off v
  else if off < 0x2000 then pwrWrite s (off - 0x1000) v
  else if off < 0x3000 then lcsWrite s (off - 0x2000) v
  else if off < 0x4000 then authWrite s (off - 0x3000) v
  else if off < 0x6000 then carWrite s (off - 0x4000) v
  else if off < 0x8000 then htuWrite s (off - 0x6000) v
  else if off < 0xA000 then bhvWrite s (off - 0x8000) v
  else if off < 0xC000 then runWrite s (off - 0xA000) v
  else if off < 0xE000 then (if off = 0xC000 then s.dumpEnable (bit v 0) else s)
  else if off < 0x10000 then trcWrite s (off - 0xE000) v
  else if off < 0x18000 then ringWrite s ((off - 0x10000) / 0x40) (off % 0x40) v
  else if inSyn off then synWrite s (off - 0x20000) size v
  else s
/-- A reset of this very hub cycle reaches the register (R532, Tables 5.1 and 19.1). -/
def State.rstReaches (s : State) (off : Nat) : Bool :=
  s.rstAt == s.now + 1 &&
  ((0x3100 ≤ off && off < 0x3180) || (0x6000 ≤ off && off < 0x8000) || 0x10000 ≤ off ||
   (s.rstBoot && (off < 0x1000 || (0x3000 ≤ off && off < 0x4200) || (0x4280 ≤ off && off != 0xA000 && off != 0xE040 && off != 0xE044))))
/-- A BAR 0 write as it arrives: one of a wrong size or alignment does nothing, and reserved bits are left out; both are misuses. -/
def State.bar0Take (s : State) (off size v : Nat) : State :=
  if !s.served0 off ∨ s.rstReaches off then s
  else
    match writeMisuse off size v with
    | some (o, true) => s.misuse (o, true)
    | some m => (s.misuse m).bar0Write off size (writable off size v)
    | none => (s.recover off true).bar0Write off size v
/-- A BAR 0 read: its value, and what it latches. A misuse of the access, or one that stands in the block, leaves the value open. -/
def State.bar0Read (s : State) (off size : Nat) : Nat × State :=
  if !s.served0 off then (0, s)
  else if !sizeOk off size then
    let r := s.free
    (r.1.toNat % 2 ^ (8 * size), r.2.misuse (off, true))
  else
  let s := s.recover off false
  if s.openBlock (blockOf off) ∨ (s.trc.odd ∧ 0xE004 ≤ off ∧ off < 0xE038) then
    let r := s.free
    (r.1.toNat % 2 ^ (8 * size), r.2)
  else if size = 8 then ((if off < 0x28000 then (s.counter ((off - 0x20000) / 8)).val.toNat else 0), s)
  else (regVal s off, s.latchHi off)

/-! ### BAR 2 and BAR 4 (R249, R250, R256, R329) -/

def bar2 : Nat := 0x100000
def bar4 : Nat := 0x300000
def bar4End : Nat := 0x304000
/-- Configuration space, 4 KiB. -/
def cfgBase : Nat := 0x400000
def cfgEnd : Nat := 0x401000
/-- A doorbell page as it reads. -/
def State.pageRead (s : State) (o size : Nat) : Nat :=
  let n := o / 0x1000
  leNat (((zeros 4 ++ leBytes 4 (s.ring n).headReg ++ leBytes 4 (s.ringStatus n)).drop (o % 0x1000)).take size)
/-- A vector that is unmasked while its request is pending is sent. -/
def State.sendPending (s : State) : State :=
  (List.range 64).foldl (fun s n => if bit s.pba n && !s.vectorMasked n then { s with pba := s.pba - 2 ^ n, msiSent := n :: s.msiSent } else s) s
/-- A byte of the MSI-X table, with bit 0 of Vector Control stored as its complement. -/
def flipMask (a : Nat) (b : Byte) : Byte := if a % 16 = 12 then b ^^^ 1 else b
def State.msixWrite (s : State) (o size v : Nat) : State :=
  let s := (leBytes size v).zipIdx.foldl (fun s (p : Byte × Nat) =>
    let a := o + p.2
    if a < 0x400 then { s with msix := mput s.msix a (flipMask a p.1) } else s) s
  s.sendPending
def State.msixRead (s : State) (o size : Nat) : Nat :=
  leNat ((List.range size).map (fun j =>
    let a := o + j
    if a < 0x400 then flipMask a (mget s.msix a)
    else if 0x2000 ≤ a ∧ a < 0x2008 then BitVec.ofNat 8 (fld s.pba (8 * (a - 0x2000)) 8) else 0))

/-! ### The host's accesses (R118–R120, R128, R135; offsets as in log entry 30) -/

/-- The endpoint answers the host's configuration requests; before the end of boot it answers each with a retry (R135). -/
def State.endpointUp (s : State) : Bool :=
  !s.pins.inPor && !s.pins.dead && s.boot.due.isNone && (s.boot.stage == 4 || s.boot.stage == 5) && !bit s.pwr.straps 2 && s.pwr.state != .off
/-- A memory access of the host reaches the hub: Memory Space Enable is set, and the device is in D0 (R247). -/
def State.hostReaches (s : State) : Bool := s.endpointUp && bit s.cfg.command 1 && !s.cfg.d3hot
/-- A write takes effect. -/
def State.hostApply (s : State) (off size v : Nat) : State :=
  if off < bar2 then s.bar0Take off size v
  else if off < bar4 then (if off % 0x1000 = 0 ∧ 4 ≤ size then s.doorbell ((off - bar2) / 0x1000) (v % 2 ^ 32) else s)
  else if off < bar4End then s.msixWrite (off - bar4) size v
  else s
/-- A read gives its value. -/
def State.hostTake (s : State) (off size : Nat) : State :=
  let r := if off < bar2 then s.bar0Read off size else if off < bar4 then (s.pageRead (off - bar2) size, s)
    else if off < bar4End then (s.msixRead (off - bar4) size, s) else (0, s)
  { r.2 with readVal := BitVec.ofNat 64 r.1 }
/-- Served at once in every state: the PWR block, and the endpoint's own MSI-X table. -/
def atOnce (off : Nat) : Bool := (0x1000 ≤ off && off < 0x2000) || bar4 ≤ off
def isDoorbell (off size : Nat) : Bool := bar2 ≤ off && off < bar4 && off % 0x1000 == 0 && 4 ≤ size
/-- The access waits for the fast domain. -/
def State.hostWaits (s : State) (off : Nat) : Bool := !atOnce off && (s.asleep || !s.pwr.pllLock)
/-- Hold an access; while the hub sleeps it is a wake event. -/
def State.hold (s : State) (h : Held) (bell : Bool) : State :=
  let s := { s with held := s.held ++ [h] }
  if s.asleep && !bell then s.wakeEvent 6 0 else s
/-- The link is up and in L0 while it carries an access (R120, Table 4.6). -/
def State.linkUse (s : State) : State := { s with pins := { s.pins with linkUp := true } }.linkWake
/-- A host write of `size` bytes. -/
def State.hostWrite (s : State) (off size v : Nat) : Out :=
  let v := v % 2 ^ (8 * size)
  if cfgBase ≤ off then
    .next (if s.endpointUp && decide (off < cfgEnd) then (s.linkUse.cfgWrite (off - cfgBase) size v).sendPending.scrapCheck else s)
  else if !s.hostReaches then .next s
  else
    let s := s.linkUse
    let bell := isDoorbell off size
    let s := if bell then s.wakeEvent 7 0 else s
    .next (if s.hostWaits off then s.hold (if bell then .doorbell ((off - bar2) / 0x1000) (v % 2 ^ 32) else .write off size v) bell
           else s.hostApply off size v)
/-- A host read of `size` bytes. -/
def State.hostRead (s : State) (off size : Nat) : Out :=
  if cfgBase ≤ off then
    .next (if s.endpointUp && decide (off < cfgEnd) then
        let r := s.linkUse.cfgRead (off - cfgBase) size
        { r.2 with readVal := BitVec.ofNat 64 r.1 }
      else s)
  else if !s.hostReaches then .next s
  else
    let s := s.linkUse
    .next (if s.hostWaits off then s.hold (.read off size) false else s.hostTake off size)
/-- The accesses held are served, in order. -/
def State.serveHeld (s : State) : State :=
  if s.asleep ∨ !s.pwr.pllLock then s
  else
    s.held.foldl (fun s h =>
      match h with
      | .write o n v => s.hostApply o n v
      | .read o n => s.hostTake o n
      | .doorbell r v => s.doorbell r v) { s with held := [] }

/-! ### A filtered line changes (R314, R385, R444, R497) -/

/-- What line 17 starts or withdraws (R100, R126, R444). -/
def State.warnHook (s : State) : State :=
  if (s.line 17).level then
    { s with dmp := { s.dmp with survDue := true, warnTime := s.time, warnPwr := s.pwr.state.code, survFromRun := s.pwr.state == .run } }
  else { s with dmp := { s.dmp with survDue := false } }
/-- What TRIG_IN triggers. -/
def State.trigHook (s : State) (stamp : Nat) : State :=
  let act := (s.line 16).level
  let s := s.tollTrigger act stamp
  if bit s.trc.edge (if act then 0 else 1) ∧ s.fastClock then s.traceTrigger 1 s.edgeTime s.trc.edge else s
/-- LINE_CHANGE: the pad of line `n` has been at a level for `samples` AON edges. The chips drive STOP_N_IN_0–7 and ALERT_N_0–7
(R351, R380). -/
def State.lineChange (s : State) (n : Nat) (high : Bool) (samples stamp : Nat) : State :=
  if 32 ≤ n ∨ samples = 0 ∨ s.pins.inPor ∨ s.pins.dead ∨ (n < 8 ∧ high ≠ s.stopInPad n) ∨ (8 ≤ n ∧ n < 16 ∧ high ≠ s.alertPad (n - 8)) then s
  else
    let l := s.line n
    let s := if n = 16 ∧ l.raw ≠ high then
        { s with run := if high then { s.run with padRise := stamp } else { s.run with padFall := stamp } } else s
    if samples < Nat.max l.filter 1 then s.setLine n { l with raw := high }
    else
      let t := s.lineLevel n high
      if (t.line n).level = l.level then t
      else if n = 17 then t.warnHook
      else if n = 16 then t.trigHook stamp
      else t

/-! ### Commands -/

/-- LINE_CHANGE (R118, R314, R385, R444, R497). -/
def execLineChange (n : Nat) (high : Bool) (samples stamp : Nat) (s : State) : Out := .next (s.lineChange n high samples stamp)
/-- WAKE_COMPLETE (R116, R120, R121, R126). -/
def execWakeComplete (s : State) : Out := .next s.wakeDone.serveHeld
/-- PLL_LOCK (R108, R128). -/
def execPllLock (s : State) : Out := .next s.pllLocked.serveHeld
/-- REBOOT (R131, R156, R187). -/
def execReboot (s : State) : Out := s.hostWrite 0x210C 4 1
/-- DOORBELL of ring `r` (R256, R257). -/
def execDoorbell (r v : Nat) (s : State) : Out := if r < 512 then s.hostWrite (bar2 + 0x1000 * r) 4 v else .next s
/-- RING_ENABLE (R255). -/
def execRingEnable (r : Nat) (s : State) : Out := if r < 512 then s.hostWrite (0x10014 + 0x40 * r) 4 1 else .next s
/-- RING_DISABLE (R282, R283). -/
def execRingDisable (r : Nat) (s : State) : Out := if r < 512 then s.hostWrite (0x10014 + 0x40 * r) 4 0 else .next s
/-- SYN_SET at an offset of the read-and-set window (R267). -/
def execSynSet (off size v : Nat) (s : State) : Out := if off < 0x8000 then s.hostWrite (0x20000 + off) size v else .next s
/-- SYN_ADD at an offset of the add window (R267). -/
def execSynAdd (off size v : Nat) (s : State) : Out := if off < 0x8000 then s.hostWrite (0x28000 + off) size v else .next s
/-- SYN_READ_LO: a read at +0 of counter `k`, of 4 bytes or of the whole value (R267). -/
def execSynReadLo (k size : Nat) (s : State) : Out := if k < 4096 then s.hostRead (0x20000 + 8 * k) size else .next s
/-- HI_LATCH_READ: a read, which at a LO register latches its HI register (R27). -/
def execHiLatchRead (off size : Nat) (s : State) : Out := s.hostRead off size
/-- REGISTER_WRITE (R8, R9, R252). -/
def execRegisterWrite (off size v : Nat) (s : State) : Out := s.hostWrite off size v
/-- HUB_STAT_CLR.STALLS (R65). -/
def execHubStatClrStalls (s : State) : Out := s.hostWrite 0x14 4 1
/-- HUB_STAT_CLR.YIELDS (R65). -/
def execHubStatClrYields (s : State) : Out := s.hostWrite 0x14 4 2
/-- HUB_STAT_CLR.LATENCY (R65). -/
def execHubStatClrLatency (s : State) : Out := s.hostWrite 0x14 4 4
/-- HUB_STAT_CLR.STROKES (R65). -/
def execHubStatClrStrokes (s : State) : Out := s.hostWrite 0x14 4 8
/-- NONCE_NEW (R180). -/
def execNonceNew (s : State) : Out := s.hostWrite 0x2020 4 1
/-- HTU_ENABLE (R305). -/
def execHtuEnable (s : State) : Out := s.hostWrite 0x6000 4 1
/-- HTU_DISABLE (R305). -/
def execHtuDisable (s : State) : Out := s.hostWrite 0x6000 4 0
/-- HTU_RESUME of log entry `n` (R298). -/
def execHtuResume (n gen : Nat) (s : State) : Out := s.hostWrite 0x6010 4 (place n 0 6 + place gen 8 8)
/-- HTU_ABORT of log entry `n` (R298). -/
def execHtuAbort (n gen : Nat) (s : State) : Out := s.hostWrite 0x6010 4 (place n 0 6 + place gen 8 8 + 2 ^ 16)
/-- CAR_PEND_SET_m (R316). -/
def execCarPendSet (m bits : Nat) (s : State) : Out := if m < 8 then s.hostWrite (0x4040 + 4 * m) 4 bits else .next s
/-- CAR_PEND_CLR_m (R317). -/
def execCarPendClr (m bits : Nat) (s : State) : Out := if m < 8 then s.hostWrite (0x4060 + 4 * m) 4 bits else .next s
/-- CAR_Q_EOI (R321, R322). -/
def execCarQEoi (q n : Nat) (s : State) : Out := if q < 64 then s.hostWrite (0x5018 + 0x40 * q) 4 n else .next s
/-- CAR_Q_RECOVER, ACTION KEEP (R323). -/
def execCarQRecoverKeep (q : Nat) (s : State) : Out := if q < 64 then s.hostWrite (0x501C + 0x40 * q) 4 1 else .next s
/-- CAR_Q_RECOVER, ACTION RELEASE (R323). -/
def execCarQRecoverRelease (q : Nat) (s : State) : Out := if q < 64 then s.hostWrite (0x501C + 0x40 * q) 4 2 else .next s
/-- CAR_Q_HEAD (R328, R329). -/
def execCarQHead (q v : Nat) (s : State) : Out := if q < 64 then s.hostWrite (0x5010 + 0x40 * q) 4 v else .next s
/-- CAR_Q_CTRL.ENABLE = 1 (R332). -/
def execCarQEnable (q : Nat) (irqEn : Bool) (s : State) : Out := if q < 64 then s.hostWrite (0x500C + 0x40 * q) 4 (1 + place (b2n irqEn) 1 1) else .next s
/-- CAR_Q_CTRL.ENABLE = 0 (R335). -/
def execCarQDisable (q : Nat) (irqEn : Bool) (s : State) : Out := if q < 64 then s.hostWrite (0x500C + 0x40 * q) 4 (place (b2n irqEn) 1 1) else .next s
/-- CAR_LINE_n (R314). -/
def execCarLineWrite (n v : Nat) (s : State) : Out := if n < 32 then s.hostWrite (0x4200 + 4 * n) 4 v else .next s
/-- SOFT_TRIG: TRC_CTRL.SOFT_TRIG written 1 with ENABLE as it stands (R497). -/
def execSoftTrig (s : State) : Out := s.hostWrite 0xE000 4 (2 + b2n s.trc.enable)
/-- TRACE_DISABLE: TRC_CTRL.ENABLE written 0 (R514). -/
def execTraceDisable (s : State) : Out := s.hostWrite 0xE000 4 0
/-- TOUT_FIRE: TRC_TOUT_CTRL.FIRE written 1 with the other fields as they stand (R501). -/
def execToutFire (s : State) : Out := s.hostWrite 0xE040 4 (s.trc.toutSources + place s.trc.toutWidth 8 4 + 2 ^ 16)
/-- DUMP_DISABLE: DMP_CTRL.ENABLE written 0 (R464, R487). -/
def execDumpDisable (s : State) : Out := s.hostWrite 0xC000 4 0

end Sys2Proof.Machine
end

