-- ==== Sys2Proof/Machine/Chips.lean ====
section
/-! DEFINITION. The commands of one Wonos chip: its stop input and reset, tolls, timed actions, hits, steps, mailboxes,
counters, taps and streams (R19, R42–R48, R95, R351, R353, R374–R397, R418, R419, R491–R506). A register write reaches no
chip in reset (R353). -/

namespace Sys2Proof.Machine

/-- A chip's own event. -/
def State.chipEvent (s : State) (f : Nat) (g : Chip → Nat → Chip) : State :=
  s.engEffects (s.chipOp f (fun c => if c.inReset then c else g c (s.chipTime f))) f
/-- An event of core `i`: where it brings the core's program to MONITOR, the context words are those the program leaves. -/
def State.coreEvent (s : State) (f i : Nat) (g : Chip → Nat → Chip) : State :=
  let t := s.chipEvent f g
  if ((s.chip f).core i).state ≠ .monitor ∧ ((t.chip f).core i).state = .monitor then t.freshCtx f i else t
/-- A write of one WDA register. -/
def State.wdaReg (s : State) (f o v : Nat) : State := s.chipEvent f (fun c t => c.wdaWrite f t o v)

/-- CHIP_STOP_INPUT_FALL: the chain's stop line is low (R95). -/
def execChipStopInputFall (f : Nat) (s : State) : Out :=
  .next (if s.stopPad (f / 16) then s else s.chipEvent f (fun c t => c.inputFall t))
/-- RESET_HOLD_END: the stop input is first seen high (R95). -/
def execResetHoldEnd (f : Nat) (s : State) : Out :=
  .next (if s.stopPad (f / 16) then s.chipEvent f (fun c _ => c.holdEnd) else s)
/-- TOLL_FIRE (R383). -/
def execTollFire (f : Nat) (s : State) : Out := .next (s.chipEvent f (fun c t => c.tollFire t))
/-- TIMED_ACTION (R389). -/
def execTimedAction (f : Nat) (s : State) : Out := .next (s.chipEvent f (fun c t => c.timedAct f t))
/-- HIT of a comparator (R393, R394). -/
def execHit (f : Nat) (engine : Bool) (i src pc : Nat) (first : Bool) (s : State) : Out :=
  .next (let g := fun (c : Chip) t => c.hit f t engine i src pc first
         if engine then s.chipEvent f g else s.coreEvent f i g)
/-- CORE_DEBUG_ENTRY (R375, R377). -/
def execCoreDebugEntry (f i pc : Nat) (s : State) : Out := .next (s.coreEvent f i (fun c t => c.debugEntry t i pc))
/-- ENGINE_COMMAND_COMPLETE (R42, R43, R392, R393). -/
def execEngineCommandComplete (f e : Nat) (s : State) : Out := .next (s.chipEvent f (fun c t => c.complete f t e))
/-- CORE_STEP_END (R391). -/
def execCoreStepEnd (f i pc : Nat) (s : State) : Out := .next (s.coreEvent f i (fun c _ => c.coreStepEnd i pc))
/-- CHIP_RESET (R47, R353, R412). What the memories then hold is open (log entry 6). -/
def execChipReset (f : Nat) (s : State) : Out :=
  .next ({ s with freeIx := s.freeIx + 1 }.chipOp f (fun c => c.resetChip (memOf (Config.freeMemory s.freeIx))))
/-- CHIP_READY (R95, R353). -/
def execChipReady (f : Nat) (s : State) : Out := .next (s.chipOp f (fun c => c.ready (s.stopPad (f / 16))))
/-- ALERT_RAISE (R351). -/
def execAlertRaise (f cause u info : Nat) (s : State) : Out := .next (s.chipEvent f (fun c _ => c.alertOwn (cause % 256) (u % 2 ^ 17) (info % 2 ^ 32)))
/-- RC_GO_HALT (R388, R389). -/
def execRcGoHalt (f : Nat) (timed all : Bool) (s : State) : Out := .next (s.wdaReg f 0x2E0 (1 + place (b2n timed) 2 1 + place (b2n all) 3 1))
/-- RC_GO_RESUME (R388, R389, R393, R410). -/
def execRcGoResume (f : Nat) (timed all : Bool) (s : State) : Out := .next (s.wdaReg f 0x2E0 (2 + place (b2n timed) 2 1 + place (b2n all) 3 1))
/-- TOLL_ARM (R383). -/
def execTollArm (f : Nat) (s : State) : Out := .next (s.wdaReg f 0x308 1)
/-- WDA_FORCE (R45, R418). -/
def execWdaForce (f : Nat) (s : State) : Out := .next (s.wdaReg f 0x400 1)
/-- WDA_LINK_MUFFLE (R419). -/
def execWdaLinkMuffle (f mask : Nat) (s : State) : Out := .next (s.wdaReg f 0x410 mask)
/-- CORE_STEP (R391). -/
def execCoreStep (f i : Nat) (s : State) : Out := .next (s.chipEvent f (fun c _ => c.coreStep i))
/-- ENG_STEP (R392). -/
def execEngStep (f e : Nat) (s : State) : Out := .next (s.chipEvent f (fun c t => c.engStep t e))
/-- MBX_IN (R397). -/
def execMbxIn (f i : Nat) (v : Word) (s : State) : Out := .next (s.chipEvent f (fun c _ => c.setCore i ((c.core i).mbxInWrite v)))
/-- MBX_OUT (R397, Table 15.1). -/
def execMbxOut (f i : Nat) (v : Word) (s : State) : Out := .next (s.chipEvent f (fun c _ => if i < 32 then c.mbxOut f i v else c))
/-- COUNTER_LATCH (R502, R505). -/
def execCounterLatch (f : Nat) (clear : Bool) (s : State) : Out := .next (s.wdaReg f 0x600 (1 + place (b2n clear) 2 1))
/-- TIMED_LATCH (R502). -/
def execTimedLatch (f : Nat) (s : State) : Out := .next (s.chipEvent f (fun c t => c.timedLatch t))
/-- TAP_EN_OFF: a write of WDA_TRC_CTRL with TAP_EN 0 (R506). -/
def execTapEnOff (f v : Nat) (s : State) : Out := .next (s.wdaReg f 0x500 (setFld v 0 1 0))
/-- TAP_EN_ON (R494, R506). -/
def execTapEnOn (f v : Nat) (s : State) : Out := .next (s.wdaReg f 0x500 (setFld v 0 1 1))
/-- TAP_RECORD (R491–R493). -/
def execTapRecord (f : Nat) (s : State) : Out := .next (s.chipEvent f (fun c _ => c.tapRecord f))
/-- GAP_RECORD_ENTRY (R493). -/
def execGapRecordEntry (f : Nat) (s : State) : Out := .next (s.chipEvent f (fun c _ => c.gapEntry f))
/-- TRACE_FRAME_SEND (R348, R494, R506). -/
def execTraceFrameSend (f : Nat) (s : State) : Out := .next (s.traceSend f)
/-- STREAM_LOAD (R19, R44, R46). -/
def execStreamLoad (f e id n : Nat) (s : State) : Out := .next (s.chipEvent f (fun c t => if e < 512 then c.load f t e id n else c))

end Sys2Proof.Machine
end

