-- ==== Sys2Proof/Machine/Scan.lean ====
section
/-! DEFINITION. The serial scan port: instruction loads and their judgement, the boundary register, HUBSTAT, HUBCMD and the
scan ring, LCS_REQ, CERT_LOAD, DUMP_READ and DBGREG (R217–R246, R443). -/

namespace Sys2Proof.Machine

/-! ### Instruction loads (R218, R219, R224–R226) -/

/-- TCK toggles, which is a wake source (Table 4.6). -/
def State.tck (s : State) : State := s.wakeEvent 5 0
/-- The port answers at all: it is held in reset until tick 3 of Table 3.6, and dead once hold-up has ended. -/
def State.tapLive (s : State) : Bool := !s.pins.inPor && !s.pins.dead && !(s.boot.due == some 0 && s.now < s.boot.tick0)
/-- One row of the scan port. -/
def State.scanRow (s : State) (f : State → State) : Out := .next (if s.tapLive then f s.tck else s)
/-- The instructions a lifecycle state serves (Table 8.5). -/
def scanServed (st code : Nat) : Bool :=
  if st = 15 then code == 0xFF || code == 2 || code == 1 || code == 0x10 || code == 0x20
  else if st = 6 then code == 0xFF || code == 2 || code == 0x10
  else true
/-- The levels an instruction needs at its load (Table 7.5). -/
def scanNeed (code : Nat) : List (Nat × Nat) :=
  if code = 0 ∨ code = 3 then (List.range 129).map (fun t => (t, 2)) else if code = 0x13 then [(128, 2)] else []
/-- The denial of an instruction: none when it is accepted, else what falls short, if anything does. -/
def State.scanDenial (s : State) (code : Nat) : Option (Option (Nat × Nat × Nat)) :=
  if !scanServed s.lcs.state code then some none
  else match s.shortfall .scan (scanNeed code) with
    | some x => some (some x)
    | none => none
/-- Update-IR. -/
def State.loadIr (s : State) (code : Nat) : State :=
  let d := s.scanDenial code
  let s := match d with
    | some x => s.deny code true 0 x
    | none => s
  { s with scan := { s.scan with tlr := false, ir := code, denied := d.isSome, lapsed := false, capValid := false, blkValid := false } }.riseStops
/-- The instruction loaded is in force: it was accepted, and no boot has ended its acceptance. After one, an instruction that needs
no level is served where the lifecycle state serves it, and one judged at its load waits to be loaded again (R225, R226, log
entry 87). -/
def State.inForce (s : State) : Bool := !s.scan.denied && (!s.scan.lapsed || ((scanNeed s.scan.ir).isEmpty && scanServed s.lcs.state s.scan.ir))
/-- The data register of instruction `code` is selected. -/
def State.scanSel (s : State) (code : Nat) : Bool := s.scan.ir == code && s.inForce && (!s.scan.tlr || code == 2)
def State.setCapture (s : State) (v : Nat) : State := { s with scan := { s.scan with capture := v } }
/-- Act when the register of `code` is selected. -/
def State.onSel (s : State) (code : Nat) (f : State → State) : State := if s.scanSel code then f s else s
/-- An update that the fast domain serves: discarded while strokes may not start (R227). -/
def State.fastUpdate (s : State) (f : State → State) : State := if s.fastUp then f s else { s with scan := { s.scan with scanLost := true } }
/-- A whole scan that captures and whose update does nothing: that update is lost too while the fast domain is down (R227). -/
def State.fastScan (s : State) (f : State → State) : State := (f s).fastUpdate id
/-- Test-Logic-Reset (R218, R223, R224). -/
def State.scanReset (s : State) : State :=
  { s with scan := { s.scan with tlr := true, ir := 2, denied := false, lapsed := false, boundary := 0, capValid := false, blkValid := false } }.riseStops
/-- Capture-IR (Table 8.2). -/
def State.captureIr (s : State) : State :=
  { s with scan := { s.scan with captureIr := 1 + place (b2n s.scan.denied) 2 1 + place (b2n s.fastUp) 3 1 + place (b2n s.readyPad) 4 1 } }

/-! ### Boundary register (R223) -/

/-- An input cell captures the pad, an output cell what the functional logic presents; `pads` gives the first, and the cells whose
value is open. -/
def State.boundaryCapture (s : State) (pads : BitVec 76) : Nat := maskOf 76 (fun n => (s.cell n).getD (pads.getLsbD n))
/-- A scan of the boundary register: the capture, then the update, which the pads follow under EXTEST (R224). -/
def State.boundaryScan (s : State) (pads update : BitVec 76) : State :=
  { s with scan := { s.scan with capture := s.boundaryCapture pads, boundary := update } }.riseStops

/-! ### HUBSTAT and HUBCMD (R228–R232) -/

def State.sringDone (s : State) : Nat := (s.scan.slots.filter (fun (l : ScanSlot) => l.cpl.isSome)).length
def State.sringFree (s : State) : Nat := 8 - s.scan.slots.length
/-- DUMP_READ: blocks the cursor runs over. -/
def Scan.drEnd (c : Scan) : Nat := c.drFirst + c.drCount + c.drTags
/-- The block at the cursor is buffered: a store block that the controller has read, or a block of the tag table, which those
before it give (R236, R237). In FIELDED the START must have drawn a SALT. -/
def State.drBuffered (s : State) : Bool :=
  let c := s.scan
  c.drOn && c.drCursor < c.drEnd && (c.drFirst + c.drCount ≤ c.drCursor || tget [] c.drBuf c.drCursor != []) && (s.lcs.state != 4 || c.drSealed)
/-- The HUBSTAT capture (Table 8.6); in SCRAPPED only LC_STATE, LEADING and UNIT_ID (Table 8.5). -/
def State.hubstat (s : State) : Nat :=
  let up := s.fastUp
  let fast := fun (v : Nat) => if up then v else 0
  let base := s.lcs.state + place s.lcs.leading 4 3 + place s.fuses.unitId.toNat 64 128
  if s.lcs.state = 6 then base
  else
    base + place s.pwr.state.code 8 2 + place (b2n up) 10 1 + place (b2n s.readyPad) 11 1 + place s.boot.stage 12 3 +
    place (s.level true 128) 16 2 + place (fast s.sringFree) 18 4 + place (fast s.sringDone) 22 4 + place (b2n s.lcsRunning) 26 1 +
    place (fast (fld s.certStatus 0 1)) 27 1 + place (b2n s.scan.scanLost) 28 1 + place (b2n s.scan.sringDrop) 29 1 + place (fast (b2n s.drBuffered)) 30 1 +
    place s.boot.count 32 32
/-- The capture clears the sticky flags (R229). -/
def State.hubstatTake (s : State) : State :=
  let t := s.setCapture s.hubstat
  { t with scan := { t.scan with scanLost := false, sringDrop := false } }
/-- The oldest unpopped completion word. -/
def State.oldestCpl (s : State) : Option Nat :=
  match s.scan.slots with
  | l :: _ => l.cpl
  | [] => none
/-- The HUBCMD capture (Table 8.7): every field but SRING_DROP is the fast domain's. -/
def State.hubcmdTake (s : State) : State :=
  if s.fastUp then
    let w := s.oldestCpl
    let t := s.setCapture (w.getD 0 % 2 ^ 64 + place s.sringFree 512 4 + place s.sringDone 516 4 + place (b2n w.isSome) 520 1 + place 1 521 1 +
      place (b2n s.scan.sringDrop) 522 1 + place s.scan.nextSeq 523 16)
    { t with scan := { t.scan with capValid := w.isSome } }
  else { s with scan := { s.scan with capture := place (b2n s.scan.sringDrop) 522 1, capValid := false } }
/-- POP frees the slot of the completion captured in this scan. -/
def State.hubcmdPop (s : State) : State :=
  if s.scan.capValid then { s with scan := { s.scan with slots := s.scan.slots.drop 1, capValid := false } } else s
/-- POST takes a free slot, or sets SRING_DROP. -/
def State.hubcmdPost (s : State) (d : BitVec 512) : State :=
  if s.scan.slots.length < 8 then
    { s with scan := { s.scan with slots := s.scan.slots ++ [({ seq := s.scan.nextSeq, desc := d } : ScanSlot)], nextSeq := (s.scan.nextSeq + 1) % 65536 } }.scanNext
  else { s with scan := { s.scan with sringDrop := true } }

/-! ### LCS_REQ and CERT_LOAD (R234, R235) -/

def bytesOfReq (w n : Nat) : List Nat := (leBytes n w).map BitVec.toNat
/-- A hub-core request is posted from the port, when a slot of the bound is free (R74). -/
def State.scanCore (s : State) (kind : Nat) (data : List Nat) : State := if s.coreFree true then s.postCore none kind 1 data else s
def State.lcsReqTake (s : State) : State :=
  s.setCapture (s.lcsStatus + place s.lcsState 32 32 + place s.lcs.nonce.toNat 64 128 + place (b2n s.lcs.nonceValid) 192 1)
def State.certTake (s : State) : State := s.setCapture (if s.fastUp then s.certStatus + place s.certSlots 32 32 else 0)

/-! ### DUMP_READ (R236, R237, R244, R443) -/

/-- START: the block asked for and the two after it are read into the buffer. -/
def State.drStart (s : State) (first count : Nat) : State :=
  let room := s.dsBlocks - first
  let n := if count = 0 then room else Nat.min count room
  let enc := s.lcs.state == 4
  let seals := if enc then (List.range n).map (fun j => tget false s.dmp.sealMap (first + j)) else []
  let r := if enc then s.freeWide 128 else (s.scan.drSalt, s)
  { r.2 with scan := { r.2.scan with drFirst := first, drCount := n, drTags := tagBlocks seals, drCursor := first, drOn := true, drSalt := r.1
                                     drSeal := seals, drSealed := enc, drBuf := [], drTab := [], blkValid := false } }.drRefill
/-- The cursor moves on after a scan that captured a block. -/
def State.drAdvance (s : State) : State :=
  if s.scan.blkValid then
    { s with scan := { s.scan with drCursor := s.scan.drCursor + 1, drBuf := tput [] s.scan.drBuf s.scan.drCursor [], blkValid := false } }.drRefill
  else s
def State.drRepeat (s : State) : State := { s with scan := { s.scan with blkValid := false } }
/-- The 512 bytes of the block at the cursor, and its tags where it is encrypted on the way out. -/
def State.drData (s : State) : List Byte × List Byte :=
  let c := s.scan
  let k := c.drCursor - c.drFirst
  if k < c.drCount then
    let d := tget [] c.drBuf c.drCursor
    if s.lcs.state ≠ 4 then (d, []) else sealedForm s.fuses c.drSalt c.drCursor [c.drSeal.getD k false] d
  else
    let t := ((List.range c.drCount).map (fun j => tget [] c.drTab (c.drFirst + j))).flatten
    let b := (t.drop (512 * (k - c.drCount))).take 512
    (b ++ zeros (512 - b.length), [])
/-- The capture (Table 8.9). -/
def State.dumpTake (s : State) : State :=
  if !s.fastUp then { s with scan := { s.scan with capture := 0, blkValid := false } }
  else
    let s := s.drRefill
    let c := s.scan
    let end_ := s.boot.dsSize == 0 || (c.drOn && c.drEnd ≤ c.drCursor)
    let denied := s.lcs.wipePending
    let ok := s.drBuffered && !end_ && !denied
    let r := if ok then s.drData else (zeros 512, [])
    let data := r.1
    let t := s.setCapture (c.drCursor % 2 ^ 24 + place (b2n ok) 24 1 + place (b2n (ok && s.lcs.state == 4)) 25 1 + place (b2n end_) 26 1 +
      place (b2n denied) 27 1 + place (b2n (ok && c.drFirst + c.drCount ≤ c.drCursor)) 28 1 + place (crc32 data) 32 32 + place (leNat data) 64 4096)
    { t with scan := { t.scan with blkValid := ok, drTab := if r.2 = [] then t.scan.drTab else tput [] t.scan.drTab c.drCursor r.2 } }

/-! ### DBGREG (R227, R238, R239) -/

/-- A new GO: its address and direction are kept, and its outcome is open. -/
def State.dbgGo (s : State) (off : Nat) (wr : Bool) : State :=
  { s with scan := { s.scan with dbgAddr := off, dbgWrite := wr, dbgDone := false, dbgDenied := false, dbgAsleep := false } }
/-- Served from the AON domain. -/
def pwrLcs (off : Nat) : Bool := 0x1000 ≤ off && off < 0x3000
/-- The fast domain is down: the access is not performed. -/
def State.dbgSleep (s : State) : State := { s with scan := { s.scan with dbgAsleep := true, scanLost := true } }
/-- The access is refused under Table 7.5. -/
def State.dbgDeny (s : State) (x : Nat × Nat × Nat) : State :=
  let t := s.deny 0x12 true 0 (some x)
  { t with scan := { t.scan with dbgDone := true, dbgDenied := true } }
/-- The access has been performed. -/
def State.dbgEnd (s : State) (v : Nat) : State := { s with scan := { s.scan with dbgDone := true, dbgRdata := BitVec.ofNat 32 v } }
/-- One GO at offset `off`. An address with a low bit set is a misuse, which leaves RDATA, or the register written, open (R221,
Table 18.3). Any other is judged for level `need` on HUB; `act` performs it. -/
def State.dbgAccess (s : State) (off need : Nat) (wr : Bool) (act : State → Out) : Out :=
  if !s.tapLive then .next s
  else
    let s := s.tck
    if !s.scanSel 0x12 then .next s
    else if off % 4 ≠ 0 then
      let r := s.free
      .next (if wr then (r.2.misuse (off / 4 * 4, false)).dbgGo off wr else (r.2.dbgGo off wr).dbgEnd r.1.toNat)
    else
      let s := s.dbgGo off wr
      if s.rstReaches off then .next (s.dbgEnd 0)
      else if !pwrLcs off && !s.fastUp then .next s.dbgSleep
      else
        match s.shortfall .scan [(128, need)] with
        | some x => .next (s.dbgDeny x)
        | none => act s
def State.dbgPut (off v : Nat) (s : State) : Out := .next ((s.bar0Take off 4 v).dbgEnd 0)
def State.dbgGet (off : Nat) (s : State) : Out :=
  let r := s.bar0Read off 4
  .next (r.2.dbgEnd r.1)
/-- The capture (Table 8.10). -/
def State.dbgTake (s : State) : State :=
  let c := s.scan
  let v := if pwrLcs c.dbgAddr || s.fastUp then c.dbgRdata.toNat else 0
  s.setCapture (v + place c.dbgAddr 32 20 + place (b2n c.dbgWrite) 52 1 + place (b2n c.dbgDone) 53 1 + place (b2n c.dbgDenied) 54 1 + place (b2n c.dbgAsleep) 55 1)

/-! ### Commands -/

/-- TEST_LOGIC_RESET (R218, R223, R224, R241). -/
def execTestLogicReset (s : State) : Out := .next (if s.tapLive then s.scanReset else s)
/-- CAPTURE_IR (R220). -/
def execCaptureIr (s : State) : Out := s.scanRow State.captureIr
/-- EXTEST (R217, R224, R225): its load, or a scan of the boundary register while it is in force. -/
def execExtest (load : Bool) (pads update : BitVec 76) (s : State) : Out :=
  s.scanRow (fun s => if load then s.loadIr 0 else s.onSel 0 (fun s => s.boundaryScan pads update))
/-- CLAMP (R224, R225). The bypass register captures 0. -/
def execClamp (s : State) : Out := s.scanRow (fun s => (s.loadIr 3).setCapture 0)
/-- SAMPLE/PRELOAD (R223, R226): `pads` are the pad levels; a denied load selects the bypass register. -/
def execSamplePreload (pads update : BitVec 76) (s : State) : Out :=
  s.scanRow (fun s =>
    let t := s.loadIr 1
    if t.scan.denied then t.setCapture 0 else t.boundaryScan pads update)
/-- IDCODE (R222). -/
def execIdcode (s : State) : Out := s.scanRow (fun s => (s.loadIr 2).setCapture 0x0C4D1A3B)
/-- BYPASS, and every code not listed (R219). -/
def execBypass (s : State) : Out := s.scanRow (fun s => (s.loadIr 0xFF).setCapture 0)
/-- HUBSTAT (R228). -/
def execHubstat (s : State) : Out := s.scanRow (fun s => s.loadIr 0x10)
/-- HUBSTAT_CAPTURE (R227–R229). -/
def execHubstatCapture (s : State) : Out := s.scanRow (fun s => s.onSel 0x10 State.hubstatTake)
/-- HUBCMD (R230). -/
def execHubcmd (s : State) : Out := s.scanRow (fun s => s.loadIr 0x11)
/-- HUBCMD_CAPTURE (R227, R230, R232). -/
def execHubcmdCapture (s : State) : Out := s.scanRow (fun s => s.onSel 0x11 (fun s => s.fastScan State.hubcmdTake))
/-- HUBCMD_POP (R231). -/
def execHubcmdPop (s : State) : Out := s.scanRow (fun s => s.onSel 0x11 (fun s => s.fastUpdate State.hubcmdPop))
/-- HUBCMD_POST (R231). -/
def execHubcmdPost (desc : BitVec 512) (s : State) : Out := s.scanRow (fun s => s.onSel 0x11 (fun s => s.fastUpdate (fun s => s.hubcmdPost desc)))
/-- DBGREG (R238). -/
def execDbgreg (s : State) : Out := s.scanRow (fun s => s.loadIr 0x12)
/-- DBGREG_READ (R238, R239): ADDR is 20 bits. -/
def execDbgregRead (off : Nat) (s : State) : Out := s.dbgAccess (off % 2 ^ 20) 1 false (State.dbgGet (off % 2 ^ 20))
/-- DBGREG_WRITE (R238, R239). -/
def execDbgregWrite (off v : Nat) (s : State) : Out := s.dbgAccess (off % 2 ^ 20) 2 true (State.dbgPut (off % 2 ^ 20) (v % 2 ^ 32))
/-- DBGREG_CAPTURE (R227, R238). -/
def execDbgregCapture (s : State) : Out := s.scanRow (fun s => s.onSel 0x12 State.dbgTake)
/-- DUMP_READ (R225, R236). -/
def execDumpRead (s : State) : Out := s.scanRow (fun s => s.loadIr 0x13)
/-- DUMP_READ_START (R237). -/
def execDumpReadStart (first count : Nat) (s : State) : Out :=
  s.scanRow (fun s => s.onSel 0x13 (fun s => s.fastUpdate (fun s => s.drStart (first % 2 ^ 24) (count % 2 ^ 24))))
/-- DUMP_READ_REPEAT (R237). -/
def execDumpReadRepeat (s : State) : Out := s.scanRow (fun s => s.onSel 0x13 (fun s => s.fastUpdate State.drRepeat))
/-- DUMP_READ_ADVANCE (R237). -/
def execDumpReadAdvance (s : State) : Out := s.scanRow (fun s => s.onSel 0x13 (fun s => s.fastUpdate State.drAdvance))
/-- DUMP_READ_CAPTURE (R227, R236, R237, R244). -/
def execDumpReadCapture (s : State) : Out := s.scanRow (fun s => s.onSel 0x13 State.dumpTake)
/-- LCS_REQ (R234). -/
def execLcsReq (s : State) : Out := s.scanRow (fun s => s.loadIr 0x20)
/-- LCS_REQ_SUBMIT (R227, R234, R243). -/
def execLcsReqSubmit (data : BitVec 2048) (s : State) : Out :=
  s.scanRow (fun s => s.onSel 0x20 (fun s => s.fastUpdate (fun s => s.scanCore 0 (bytesOfReq data.toNat 256))))
/-- LCS_REQ_NEW_NONCE (R180, R234). -/
def execLcsReqNewNonce (s : State) : Out := s.scanRow (fun s => s.onSel 0x20 State.nonceNew)
/-- LCS_REQ_CAPTURE (R234). -/
def execLcsReqCapture (s : State) : Out := s.scanRow (fun s => s.onSel 0x20 State.lcsReqTake)
/-- CERT_LOAD (R235). -/
def execCertLoad (s : State) : Out := s.scanRow (fun s => s.loadIr 0x21)
/-- CERT_LOAD_SUBMIT (R227, R235, R243). -/
def execCertLoadSubmit (data : BitVec 4096) (s : State) : Out :=
  s.scanRow (fun s => s.onSel 0x21 (fun s => s.fastUpdate (fun s => s.scanCore 1 (bytesOfReq data.toNat 512))))
/-- CERT_LOAD_CAPTURE (R227, R235). -/
def execCertLoadCapture (s : State) : Out := s.scanRow (fun s => s.onSel 0x21 (fun s => s.fastScan State.certTake))

end Sys2Proof.Machine
end

