-- ==== Sys2Proof/Machine/Dispatch.lean ====
section
/-! DEFINITION. The dispatch: one arm for each command, each one call of its meaning. -/

namespace Sys2Proof.Machine

/-- The effect of a command on everything but the queue. -/
def exec (i : Instr) (s : State) : Host.Outcome State Fault Refusal :=
  match i with
  | .powerOnReset done straps pulls => Sys2Proof.Machine.execPowerOnReset done straps pulls s
  | .boot v => Sys2Proof.Machine.execBoot v s
  | .pllLock => Sys2Proof.Machine.execPllLock s
  | .bootCountRecord => Sys2Proof.Machine.execBootCountRecord s
  | .lastGaspErase => Sys2Proof.Machine.execLastGaspErase s
  | .reboot => Sys2Proof.Machine.execReboot s
  | .perstN => Sys2Proof.Machine.execPerstN s
  | .functionLevelReset => Sys2Proof.Machine.execFunctionLevelReset s
  | .dlDown => Sys2Proof.Machine.execDlDown s
  | .testLogicReset => Sys2Proof.Machine.execTestLogicReset s
  | .lineChange n high samples stamp => Sys2Proof.Machine.execLineChange n high samples stamp s
  | .wake => Sys2Proof.Machine.execWake s
  | .wakeComplete => Sys2Proof.Machine.execWakeComplete s
  | .pwrTimerExpiry => Sys2Proof.Machine.execPwrTimerExpiry s
  | .pllUnlock => Sys2Proof.Machine.execPllUnlock s
  | .sleepCommit => Sys2Proof.Machine.execSleepCommit s
  | .dozeEntry => Sys2Proof.Machine.execDozeEntry s
  | .offEntry => Sys2Proof.Machine.execOffEntry s
  | .survivalStart => Sys2Proof.Machine.execSurvivalStart s
  | .survivalEnd => Sys2Proof.Machine.execSurvivalEnd s
  | .lastGaspWrite => Sys2Proof.Machine.execLastGaspWrite s
  | .arbiterDecision e => Sys2Proof.Machine.execArbiterDecision e s
  | .strokeYield e => Sys2Proof.Machine.execStrokeYield e s
  | .scanGuardFire => Sys2Proof.Machine.execScanGuardFire s
  | .operationComplete id data ok => Sys2Proof.Machine.execOperationComplete id data ok s
  | .hubCoreRequestDone => Sys2Proof.Machine.execHubCoreRequestDone s
  | .lcsTransition v => Sys2Proof.Machine.execLcsTransition v s
  | .certCheckInstall v => Sys2Proof.Machine.execCertCheckInstall v s
  | .returnedWipe stuck => Sys2Proof.Machine.execReturnedWipe stuck s
  | .descriptorFetch r data ok => Sys2Proof.Machine.execDescriptorFetch r data ok s
  | .completionTransmitted r => Sys2Proof.Machine.execCompletionTransmitted r s
  | .doorbell r v => Sys2Proof.Machine.execDoorbell r v s
  | .ringEnable r => Sys2Proof.Machine.execRingEnable r s
  | .ringDisable r => Sys2Proof.Machine.execRingDisable r s
  | .synSet off size v => Sys2Proof.Machine.execSynSet off size v s
  | .synAdd off size v => Sys2Proof.Machine.execSynAdd off size v s
  | .synReadLo k size => Sys2Proof.Machine.execSynReadLo k size s
  | .hiLatchRead off size => Sys2Proof.Machine.execHiLatchRead off size s
  | .registerWrite off size v => Sys2Proof.Machine.execRegisterWrite off size v s
  | .hubStatClrStalls => Sys2Proof.Machine.execHubStatClrStalls s
  | .hubStatClrYields => Sys2Proof.Machine.execHubStatClrYields s
  | .hubStatClrLatency => Sys2Proof.Machine.execHubStatClrLatency s
  | .hubStatClrStrokes => Sys2Proof.Machine.execHubStatClrStrokes s
  | .nonceNew => Sys2Proof.Machine.execNonceNew s
  | .htuEnable => Sys2Proof.Machine.execHtuEnable s
  | .htuDisable => Sys2Proof.Machine.execHtuDisable s
  | .htuResume n gen => Sys2Proof.Machine.execHtuResume n gen s
  | .htuAbort n gen => Sys2Proof.Machine.execHtuAbort n gen s
  | .walkReadComplete id entry err => Sys2Proof.Machine.execWalkReadComplete id entry err s
  | .carPendSet m bits => Sys2Proof.Machine.execCarPendSet m bits s
  | .carPendClr m bits => Sys2Proof.Machine.execCarPendClr m bits s
  | .carQEoi q n => Sys2Proof.Machine.execCarQEoi q n s
  | .carQRecoverKeep q => Sys2Proof.Machine.execCarQRecoverKeep q s
  | .carQRecoverRelease q => Sys2Proof.Machine.execCarQRecoverRelease q s
  | .carQHead q v => Sys2Proof.Machine.execCarQHead q v s
  | .carQEnable q irqEn => Sys2Proof.Machine.execCarQEnable q irqEn s
  | .carQDisable q irqEn => Sys2Proof.Machine.execCarQDisable q irqEn s
  | .carLineWrite n v => Sys2Proof.Machine.execCarLineWrite n v s
  | .queueSelect q => Sys2Proof.Machine.execQueueSelect q s
  | .recordTransmitted q => Sys2Proof.Machine.execRecordTransmitted q s
  | .coalTimeReady n => Sys2Proof.Machine.execCoalTimeReady n s
  | .softTrig => Sys2Proof.Machine.execSoftTrig s
  | .traceDisable => Sys2Proof.Machine.execTraceDisable s
  | .toutFire => Sys2Proof.Machine.execToutFire s
  | .toutPulseEnd => Sys2Proof.Machine.execToutPulseEnd s
  | .dumpDisable => Sys2Proof.Machine.execDumpDisable s
  | .nop e => Sys2Proof.Machine.execNop e s
  | .wait e => Sys2Proof.Machine.execWait e s
  | .signal e => Sys2Proof.Machine.execSignal e s
  | .fence e => Sys2Proof.Machine.execFence e s
  | .peal e => Sys2Proof.Machine.execPeal e s
  | .toll e => Sys2Proof.Machine.execToll e s
  | .muffle e => Sys2Proof.Machine.execMuffle e s
  | .resume e => Sys2Proof.Machine.execResume e s
  | .stepCore e => Sys2Proof.Machine.execStepCore e s
  | .stepEngine e => Sys2Proof.Machine.execStepEngine e s
  | .breakSet e => Sys2Proof.Machine.execBreakSet e s
  | .breakClear e => Sys2Proof.Machine.execBreakClear e s
  | .cutCollect e => Sys2Proof.Machine.execCutCollect e s
  | .readReg e => Sys2Proof.Machine.execReadReg e s
  | .writeReg e => Sys2Proof.Machine.execWriteReg e s
  | .readMem e => Sys2Proof.Machine.execReadMem e s
  | .writeMem e => Sys2Proof.Machine.execWriteMem e s
  | .installMonitor e => Sys2Proof.Machine.execInstallMonitor e s
  | .dumpPlan e => Sys2Proof.Machine.execDumpPlan e s
  | .dumpRun e => Sys2Proof.Machine.execDumpRun e s
  | .dumpTensor e => Sys2Proof.Machine.execDumpTensor e s
  | .dumpResume e => Sys2Proof.Machine.execDumpResume e s
  | .dumpAbort e => Sys2Proof.Machine.execDumpAbort e s
  | .storeDrain e => Sys2Proof.Machine.execStoreDrain e s
  | .traceArm e => Sys2Proof.Machine.execTraceArm e s
  | .traceStop e => Sys2Proof.Machine.execTraceStop e s
  | .traceDrain e => Sys2Proof.Machine.execTraceDrain e s
  | .counterSnap e => Sys2Proof.Machine.execCounterSnap e s
  | .discover e => Sys2Proof.Machine.execDiscover e s
  | .timeAlign e => Sys2Proof.Machine.execTimeAlign e s
  | .chainEnable e => Sys2Proof.Machine.execChainEnable e s
  | .lcsRequest e => Sys2Proof.Machine.execLcsRequest e s
  | .certInstall e => Sys2Proof.Machine.execCertInstall e s
  | .certDrop e => Sys2Proof.Machine.execCertDrop e s
  | .sleep e => Sys2Proof.Machine.execSleep e s
  | .htuInvalidate e => Sys2Proof.Machine.execHtuInvalidate e s
  | .shardInvalidate e => Sys2Proof.Machine.execShardInvalidate e s
  | .fwStage e => Sys2Proof.Machine.execFwStage e s
  | .waitPoll w => Sys2Proof.Machine.execWaitPoll w s
  | .waitTimeout w => Sys2Proof.Machine.execWaitTimeout w s
  | .fenceTimeout w => Sys2Proof.Machine.execFenceTimeout w s
  | .transactionTimeout k tag => Sys2Proof.Machine.execTransactionTimeout k tag s
  | .smapEpochRetry w => Sys2Proof.Machine.execSmapEpochRetry w s
  | .monitorReplyPoll w => Sys2Proof.Machine.execMonitorReplyPoll w s
  | .stepPoll w => Sys2Proof.Machine.execStepPoll w s
  | .confirmationRead f => Sys2Proof.Machine.execConfirmationRead f s
  | .cutStoppedPoll f => Sys2Proof.Machine.execCutStoppedPoll f s
  | .drainPoll => Sys2Proof.Machine.execDrainPoll s
  | .drainDeadline => Sys2Proof.Machine.execDrainDeadline s
  | .linkPoll => Sys2Proof.Machine.execLinkPoll s
  | .linkLimitExpiry => Sys2Proof.Machine.execLinkLimitExpiry s
  | .discoverSettle w => Sys2Proof.Machine.execDiscoverSettle w s
  | .traceStopTimeout w => Sys2Proof.Machine.execTraceStopTimeout w s
  | .traceDrainTimeout w => Sys2Proof.Machine.execTraceDrainTimeout w s
  | .traceTimeTrigger => Sys2Proof.Machine.execTraceTimeTrigger s
  | .captureEnd => Sys2Proof.Machine.execCaptureEnd s
  | .tollBackupStop => Sys2Proof.Machine.execTollBackupStop s
  | .stopPulseEnd k => Sys2Proof.Machine.execStopPulseEnd k s
  | .timedStopRaise => Sys2Proof.Machine.execTimedStopRaise s
  | .syncSymbol => Sys2Proof.Machine.execSyncSymbol s
  | .syncApply f => Sys2Proof.Machine.execSyncApply f s
  | .hopUp k p ps => Sys2Proof.Machine.execHopUp k p ps s
  | .hopFail k p => Sys2Proof.Machine.execHopFail k p s
  | .hopRetry k => Sys2Proof.Machine.execHopRetry k s
  | .trainingTimeout k => Sys2Proof.Machine.execTrainingTimeout k s
  | .readData k => Sys2Proof.Machine.execReadData k s
  | .writeAck k => Sys2Proof.Machine.execWriteAck k s
  | .nack k => Sys2Proof.Machine.execNack k s
  | .alert k p => Sys2Proof.Machine.execAlert k p s
  | .trace k => Sys2Proof.Machine.execTrace k s
  | .probeStamp k => Sys2Proof.Machine.execProbeStamp k s
  | .frameCrcFail k p upstream => Sys2Proof.Machine.execFrameCrcFail k p upstream s
  | .read k => Sys2Proof.Machine.execRead k s
  | .write k => Sys2Proof.Machine.execWrite k s
  | .alertAck k => Sys2Proof.Machine.execAlertAck k s
  | .probe k => Sys2Proof.Machine.execProbe k s
  | .stopRelay k => Sys2Proof.Machine.execStopRelay k s
  | .chipStopInputFall f => Sys2Proof.Machine.execChipStopInputFall f s
  | .resetHoldEnd f => Sys2Proof.Machine.execResetHoldEnd f s
  | .tollFire f => Sys2Proof.Machine.execTollFire f s
  | .timedAction f => Sys2Proof.Machine.execTimedAction f s
  | .hit f engine n src pc first => Sys2Proof.Machine.execHit f engine n src pc first s
  | .coreDebugEntry f n pc => Sys2Proof.Machine.execCoreDebugEntry f n pc s
  | .engineCommandComplete f e => Sys2Proof.Machine.execEngineCommandComplete f e s
  | .coreStepEnd f n pc => Sys2Proof.Machine.execCoreStepEnd f n pc s
  | .chipReset f => Sys2Proof.Machine.execChipReset f s
  | .chipReady f => Sys2Proof.Machine.execChipReady f s
  | .alertRaise f cause u info => Sys2Proof.Machine.execAlertRaise f cause u info s
  | .rcGoHalt f timed all => Sys2Proof.Machine.execRcGoHalt f timed all s
  | .rcGoResume f timed all => Sys2Proof.Machine.execRcGoResume f timed all s
  | .tollArm f => Sys2Proof.Machine.execTollArm f s
  | .wdaForce f => Sys2Proof.Machine.execWdaForce f s
  | .wdaLinkMuffle f mask => Sys2Proof.Machine.execWdaLinkMuffle f mask s
  | .coreStep f n => Sys2Proof.Machine.execCoreStep f n s
  | .engStep f e => Sys2Proof.Machine.execEngStep f e s
  | .mbxIn f n v => Sys2Proof.Machine.execMbxIn f n v s
  | .mbxOut f n v => Sys2Proof.Machine.execMbxOut f n v s
  | .counterLatch f clear => Sys2Proof.Machine.execCounterLatch f clear s
  | .timedLatch f => Sys2Proof.Machine.execTimedLatch f s
  | .tapEnOff f v => Sys2Proof.Machine.execTapEnOff f v s
  | .tapEnOn f v => Sys2Proof.Machine.execTapEnOn f v s
  | .tapRecord f => Sys2Proof.Machine.execTapRecord f s
  | .gapRecordEntry f => Sys2Proof.Machine.execGapRecordEntry f s
  | .traceFrameSend f => Sys2Proof.Machine.execTraceFrameSend f s
  | .captureIr => Sys2Proof.Machine.execCaptureIr s
  | .extest load pads update => Sys2Proof.Machine.execExtest load pads update s
  | .clamp => Sys2Proof.Machine.execClamp s
  | .samplePreload pads update => Sys2Proof.Machine.execSamplePreload pads update s
  | .idcode => Sys2Proof.Machine.execIdcode s
  | .bypass => Sys2Proof.Machine.execBypass s
  | .hubstat => Sys2Proof.Machine.execHubstat s
  | .hubstatCapture => Sys2Proof.Machine.execHubstatCapture s
  | .hubcmd => Sys2Proof.Machine.execHubcmd s
  | .hubcmdCapture => Sys2Proof.Machine.execHubcmdCapture s
  | .hubcmdPop => Sys2Proof.Machine.execHubcmdPop s
  | .hubcmdPost desc => Sys2Proof.Machine.execHubcmdPost desc s
  | .dbgreg => Sys2Proof.Machine.execDbgreg s
  | .dbgregRead off => Sys2Proof.Machine.execDbgregRead off s
  | .dbgregWrite off v => Sys2Proof.Machine.execDbgregWrite off v s
  | .dbgregCapture => Sys2Proof.Machine.execDbgregCapture s
  | .dumpRead => Sys2Proof.Machine.execDumpRead s
  | .dumpReadStart first count => Sys2Proof.Machine.execDumpReadStart first count s
  | .dumpReadRepeat => Sys2Proof.Machine.execDumpReadRepeat s
  | .dumpReadAdvance => Sys2Proof.Machine.execDumpReadAdvance s
  | .dumpReadCapture => Sys2Proof.Machine.execDumpReadCapture s
  | .lcsReq => Sys2Proof.Machine.execLcsReq s
  | .lcsReqSubmit data => Sys2Proof.Machine.execLcsReqSubmit data s
  | .lcsReqNewNonce => Sys2Proof.Machine.execLcsReqNewNonce s
  | .lcsReqCapture => Sys2Proof.Machine.execLcsReqCapture s
  | .certLoad => Sys2Proof.Machine.execCertLoad s
  | .certLoadSubmit data => Sys2Proof.Machine.execCertLoadSubmit data s
  | .certLoadCapture => Sys2Proof.Machine.execCertLoadCapture s
  | .streamLoad f e id n => Sys2Proof.Machine.execStreamLoad f e id n s
  | .completionTimeout id => Sys2Proof.Machine.execCompletionTimeout id s
  | .holdUpEnd => Sys2Proof.Machine.execHoldUpEnd s
  | .snapAtPassed w => Sys2Proof.Machine.execSnapAtPassed w s

end Sys2Proof.Machine
end

