-- ==== Sys2Proof/Machine/Tick.lean ====
section
/-! DEFINITION. One tick of the clocks, which is what a step does while no command waits (log entry 1): hub time moves by
one hub cycle while the fast clocks run and by one AON cycle otherwise; at an AON edge the wake timer counts and a sleep
request latches its enables; and a reset that a REBOOT asked for takes place when it is due. -/

namespace Sys2Proof.Machine

/-- An AON edge: PWR_TIMER counts down; at tick 0 of a sleep request the wake enables are latched; the events of the last AON
cycle are seen; the Carillon applies what was written to its lines and coalescing; and the chains are usable again 85 µs after a DOZE
wake (R107, R117, R118, R121, R314, R331). -/
def State.aonTick (s : State) : State :=
  let p : Pwr := { s.pwr with timer := s.pwr.timer - 1, timerHit := s.pwr.timerHit || s.pwr.timer == 1 }
  let p : Pwr := { p with req := p.req.map (fun (r : SleepReq) => if r.latched.isNone && r.tick0 ≤ s.now then { r with latched := some (p.wakeEn, p.wakeLines) } else r) }
  let s := { s with pwr := { p with coming := [] } }
  let s := p.coming.foldl (fun (s : State) (e : Nat × Nat) => s.seeEvent s.now e.1 e.2) s
  let s := s.carEdge
  match s.pwr.chainsDue with
  | some t => if t ≤ s.now then { s with pwr := { s.pwr with chainsDue := none } }.chainsUp else s
  | none => s
/-- One tick. -/
def State.tick (s : State) : State :=
  let s := { s with now := if s.fastClock then s.now + 1 else aonEdge (s.now + 1) }
  let s := if s.now % 1000 = 0 then s.aonTick else s
  s.rebootReset

end Sys2Proof.Machine
end

