-- ==== Sys2Proof/WellFormed.lean ====
section
/-! DEFINITION. Which commands name something the hub has: operand by operand the bound the spec gives it (a ring below 512,
a chip below 128, a register value of the access's width), and the shapes an access or a transfer can have. A command that is
not well-formed still has a meaning (log entry 7); the sender of R8 and of the table's rows sends well-formed ones. -/

namespace Sys2Proof

/-- The numeric operands of a command, each with the bound it stays below. -/
def Instr.operands : Instr → List (Nat × Nat)
  | .powerOnReset _ straps pulls => [(straps, 16), (pulls, 512)]
  | .boot _ => []
  | .pllLock => []
  | .bootCountRecord => []
  | .lastGaspErase => []
  | .reboot => []
  | .perstN => []
  | .functionLevelReset => []
  | .dlDown => []
  | .testLogicReset => []
  | .lineChange n _ _ stamp => [(n, 32), (stamp, 2 ^ 64)]
  | .wake => []
  | .wakeComplete => []
  | .pwrTimerExpiry => []
  | .pllUnlock => []
  | .sleepCommit => []
  | .dozeEntry => []
  | .offEntry => []
  | .survivalStart => []
  | .survivalEnd => []
  | .lastGaspWrite => []
  | .arbiterDecision e => [(e, 4)]
  | .strokeYield e => [(e, 4)]
  | .scanGuardFire => []
  | .operationComplete _ _ _ => []
  | .hubCoreRequestDone => []
  | .lcsTransition _ => []
  | .certCheckInstall _ => []
  | .returnedWipe stuck => [(stuck, 16)]
  | .descriptorFetch r _ _ => [(r, 512)]
  | .completionTransmitted r => [(r, 512)]
  | .doorbell r v => [(r, 512), (v, 2 ^ 32)]
  | .ringEnable r => [(r, 512)]
  | .ringDisable r => [(r, 512)]
  | .synSet off size v => [(off, 0x8000), (v, 2 ^ (8 * size))]
  | .synAdd off size v => [(off, 0x8000), (v, 2 ^ (8 * size))]
  | .synReadLo k _ => [(k, 4096)]
  | .hiLatchRead off _ => [(off, 0x401000)]
  | .registerWrite off size v => [(off, 0x401000), (v, 2 ^ (8 * size))]
  | .hubStatClrStalls => []
  | .hubStatClrYields => []
  | .hubStatClrLatency => []
  | .hubStatClrStrokes => []
  | .nonceNew => []
  | .htuEnable => []
  | .htuDisable => []
  | .htuResume n gen => [(n, 64), (gen, 256)]
  | .htuAbort n gen => [(n, 64), (gen, 256)]
  | .walkReadComplete _ entry _ => [(entry, 2 ^ 64)]
  | .carPendSet m bits => [(m, 8), (bits, 2 ^ 32)]
  | .carPendClr m bits => [(m, 8), (bits, 2 ^ 32)]
  | .carQEoi q n => [(q, 64), (n, 256)]
  | .carQRecoverKeep q => [(q, 64)]
  | .carQRecoverRelease q => [(q, 64)]
  | .carQHead q v => [(q, 64), (v, 2 ^ 32)]
  | .carQEnable q _ => [(q, 64)]
  | .carQDisable q _ => [(q, 64)]
  | .carLineWrite n v => [(n, 32), (v, 2 ^ 32)]
  | .queueSelect q => [(q, 64)]
  | .recordTransmitted q => [(q, 64)]
  | .coalTimeReady n => [(n, 256)]
  | .softTrig => []
  | .traceDisable => []
  | .toutFire => []
  | .toutPulseEnd => []
  | .dumpDisable => []
  | .nop e => [(e, 4)]
  | .wait e => [(e, 4)]
  | .signal e => [(e, 4)]
  | .fence e => [(e, 4)]
  | .peal e => [(e, 4)]
  | .toll e => [(e, 4)]
  | .muffle e => [(e, 4)]
  | .resume e => [(e, 4)]
  | .stepCore e => [(e, 4)]
  | .stepEngine e => [(e, 4)]
  | .breakSet e => [(e, 4)]
  | .breakClear e => [(e, 4)]
  | .cutCollect e => [(e, 4)]
  | .readReg e => [(e, 4)]
  | .writeReg e => [(e, 4)]
  | .readMem e => [(e, 4)]
  | .writeMem e => [(e, 4)]
  | .installMonitor e => [(e, 4)]
  | .dumpPlan e => [(e, 4)]
  | .dumpRun e => [(e, 4)]
  | .dumpTensor e => [(e, 4)]
  | .dumpResume e => [(e, 4)]
  | .dumpAbort e => [(e, 4)]
  | .storeDrain e => [(e, 4)]
  | .traceArm e => [(e, 4)]
  | .traceStop e => [(e, 4)]
  | .traceDrain e => [(e, 4)]
  | .counterSnap e => [(e, 4)]
  | .discover e => [(e, 4)]
  | .timeAlign e => [(e, 4)]
  | .chainEnable e => [(e, 4)]
  | .lcsRequest e => [(e, 4)]
  | .certInstall e => [(e, 4)]
  | .certDrop e => [(e, 4)]
  | .sleep e => [(e, 4)]
  | .htuInvalidate e => [(e, 4)]
  | .shardInvalidate e => [(e, 4)]
  | .fwStage e => [(e, 4)]
  | .waitPoll _ => []
  | .waitTimeout _ => []
  | .fenceTimeout _ => []
  | .transactionTimeout k tag => [(k, 8), (tag, 64)]
  | .smapEpochRetry _ => []
  | .monitorReplyPoll _ => []
  | .stepPoll _ => []
  | .confirmationRead f => [(f, 128)]
  | .cutStoppedPoll f => [(f, 128)]
  | .drainPoll => []
  | .drainDeadline => []
  | .linkPoll => []
  | .linkLimitExpiry => []
  | .discoverSettle _ => []
  | .traceStopTimeout _ => []
  | .traceDrainTimeout _ => []
  | .traceTimeTrigger => []
  | .captureEnd => []
  | .tollBackupStop => []
  | .stopPulseEnd k => [(k, 8)]
  | .timedStopRaise => []
  | .syncSymbol => []
  | .syncApply f => [(f, 128)]
  | .hopUp k p _ => [(k, 8), (p, 16)]
  | .hopFail k p => [(k, 8), (p, 16)]
  | .hopRetry k => [(k, 8)]
  | .trainingTimeout k => [(k, 8)]
  | .readData k => [(k, 8)]
  | .writeAck k => [(k, 8)]
  | .nack k => [(k, 8)]
  | .alert k p => [(k, 8), (p, 16)]
  | .trace k => [(k, 8)]
  | .probeStamp k => [(k, 8)]
  | .frameCrcFail k p _ => [(k, 8), (p, 16)]
  | .read k => [(k, 8)]
  | .write k => [(k, 8)]
  | .alertAck k => [(k, 8)]
  | .probe k => [(k, 8)]
  | .stopRelay k => [(k, 8)]
  | .chipStopInputFall f => [(f, 128)]
  | .resetHoldEnd f => [(f, 128)]
  | .tollFire f => [(f, 128)]
  | .timedAction f => [(f, 128)]
  | .hit f engine n src pc _ => [(f, 128), (n, (if engine then 512 else 32)), (src, (if engine then 13 else 12)), (pc, 2 ^ 32)]
  | .coreDebugEntry f n pc => [(f, 128), (n, 32), (pc, 2 ^ 32)]
  | .engineCommandComplete f e => [(f, 128), (e, 512)]
  | .coreStepEnd f n pc => [(f, 128), (n, 32), (pc, 2 ^ 32)]
  | .chipReset f => [(f, 128)]
  | .chipReady f => [(f, 128)]
  | .alertRaise f cause u info => [(f, 128), (cause, 256), (u, 2 ^ 17), (info, 2 ^ 32)]
  | .rcGoHalt f _ _ => [(f, 128)]
  | .rcGoResume f _ _ => [(f, 128)]
  | .tollArm f => [(f, 128)]
  | .wdaForce f => [(f, 128)]
  | .wdaLinkMuffle f mask => [(f, 128), (mask, 2 ^ 12)]
  | .coreStep f n => [(f, 128), (n, 32)]
  | .engStep f e => [(f, 128), (e, 512)]
  | .mbxIn f n _ => [(f, 128), (n, 32)]
  | .mbxOut f n _ => [(f, 128), (n, 32)]
  | .counterLatch f _ => [(f, 128)]
  | .timedLatch f => [(f, 128)]
  | .tapEnOff f v => [(f, 128), (v, 2 ^ 32)]
  | .tapEnOn f v => [(f, 128), (v, 2 ^ 32)]
  | .tapRecord f => [(f, 128)]
  | .gapRecordEntry f => [(f, 128)]
  | .traceFrameSend f => [(f, 128)]
  | .captureIr => []
  | .extest _ _ _ => []
  | .clamp => []
  | .samplePreload _ _ => []
  | .idcode => []
  | .bypass => []
  | .hubstat => []
  | .hubstatCapture => []
  | .hubcmd => []
  | .hubcmdCapture => []
  | .hubcmdPop => []
  | .hubcmdPost _ => []
  | .dbgreg => []
  | .dbgregRead off => [(off, 2 ^ 20)]
  | .dbgregWrite off v => [(off, 2 ^ 20), (v, 2 ^ 32)]
  | .dbgregCapture => []
  | .dumpRead => []
  | .dumpReadStart first count => [(first, 2 ^ 24), (count, 2 ^ 24)]
  | .dumpReadRepeat => []
  | .dumpReadAdvance => []
  | .dumpReadCapture => []
  | .lcsReq => []
  | .lcsReqSubmit _ => []
  | .lcsReqNewNonce => []
  | .lcsReqCapture => []
  | .certLoad => []
  | .certLoadSubmit _ => []
  | .certLoadCapture => []
  | .streamLoad f e id n => [(f, 128), (e, 512), (id, 2 ^ 32), (n, 2 ^ 32)]
  | .completionTimeout _ => []
  | .holdUpEnd => []
  | .snapAtPassed _ => []

/-- The shape of a command's access or data: sizes of R252, fetches of R258, host reads of at most 512 bytes. -/
def Instr.shape : Instr → Bool
  | .powerOnReset _ _ _ => true
  | .boot _ => true
  | .pllLock => true
  | .bootCountRecord => true
  | .lastGaspErase => true
  | .reboot => true
  | .perstN => true
  | .functionLevelReset => true
  | .dlDown => true
  | .testLogicReset => true
  | .lineChange _ _ samples _ => samples != 0
  | .wake => true
  | .wakeComplete => true
  | .pwrTimerExpiry => true
  | .pllUnlock => true
  | .sleepCommit => true
  | .dozeEntry => true
  | .offEntry => true
  | .survivalStart => true
  | .survivalEnd => true
  | .lastGaspWrite => true
  | .arbiterDecision _ => true
  | .strokeYield _ => true
  | .scanGuardFire => true
  | .operationComplete _ data _ => data.length ≤ 512
  | .hubCoreRequestDone => true
  | .lcsTransition _ => true
  | .certCheckInstall _ => true
  | .returnedWipe _ => true
  | .descriptorFetch _ data ok => !ok || (data.length % 64 == 0 && data.length != 0 && data.length ≤ 256)
  | .completionTransmitted _ => true
  | .doorbell _ _ => true
  | .ringEnable _ => true
  | .ringDisable _ => true
  | .synSet _ size _ => size == 4 || size == 8
  | .synAdd _ size _ => size == 4 || size == 8
  | .synReadLo _ size => size == 4 || size == 8
  | .hiLatchRead _ size => size == 1 || size == 2 || size == 4 || size == 8
  | .registerWrite _ size _ => size == 1 || size == 2 || size == 4 || size == 8
  | .hubStatClrStalls => true
  | .hubStatClrYields => true
  | .hubStatClrLatency => true
  | .hubStatClrStrokes => true
  | .nonceNew => true
  | .htuEnable => true
  | .htuDisable => true
  | .htuResume _ _ => true
  | .htuAbort _ _ => true
  | .walkReadComplete _ _ _ => true
  | .carPendSet _ _ => true
  | .carPendClr _ _ => true
  | .carQEoi _ _ => true
  | .carQRecoverKeep _ => true
  | .carQRecoverRelease _ => true
  | .carQHead _ _ => true
  | .carQEnable _ _ => true
  | .carQDisable _ _ => true
  | .carLineWrite _ _ => true
  | .queueSelect _ => true
  | .recordTransmitted _ => true
  | .coalTimeReady _ => true
  | .softTrig => true
  | .traceDisable => true
  | .toutFire => true
  | .toutPulseEnd => true
  | .dumpDisable => true
  | .nop _ => true
  | .wait _ => true
  | .signal _ => true
  | .fence _ => true
  | .peal _ => true
  | .toll _ => true
  | .muffle _ => true
  | .resume _ => true
  | .stepCore _ => true
  | .stepEngine _ => true
  | .breakSet _ => true
  | .breakClear _ => true
  | .cutCollect _ => true
  | .readReg _ => true
  | .writeReg _ => true
  | .readMem _ => true
  | .writeMem _ => true
  | .installMonitor _ => true
  | .dumpPlan _ => true
  | .dumpRun _ => true
  | .dumpTensor _ => true
  | .dumpResume _ => true
  | .dumpAbort _ => true
  | .storeDrain _ => true
  | .traceArm _ => true
  | .traceStop _ => true
  | .traceDrain _ => true
  | .counterSnap _ => true
  | .discover _ => true
  | .timeAlign _ => true
  | .chainEnable _ => true
  | .lcsRequest _ => true
  | .certInstall _ => true
  | .certDrop _ => true
  | .sleep _ => true
  | .htuInvalidate _ => true
  | .shardInvalidate _ => true
  | .fwStage _ => true
  | .waitPoll _ => true
  | .waitTimeout _ => true
  | .fenceTimeout _ => true
  | .transactionTimeout _ _ => true
  | .smapEpochRetry _ => true
  | .monitorReplyPoll _ => true
  | .stepPoll _ => true
  | .confirmationRead _ => true
  | .cutStoppedPoll _ => true
  | .drainPoll => true
  | .drainDeadline => true
  | .linkPoll => true
  | .linkLimitExpiry => true
  | .discoverSettle _ => true
  | .traceStopTimeout _ => true
  | .traceDrainTimeout _ => true
  | .traceTimeTrigger => true
  | .captureEnd => true
  | .tollBackupStop => true
  | .stopPulseEnd _ => true
  | .timedStopRaise => true
  | .syncSymbol => true
  | .syncApply _ => true
  | .hopUp _ _ _ => true
  | .hopFail _ _ => true
  | .hopRetry _ => true
  | .trainingTimeout _ => true
  | .readData _ => true
  | .writeAck _ => true
  | .nack _ => true
  | .alert _ _ => true
  | .trace _ => true
  | .probeStamp _ => true
  | .frameCrcFail _ _ _ => true
  | .read _ => true
  | .write _ => true
  | .alertAck _ => true
  | .probe _ => true
  | .stopRelay _ => true
  | .chipStopInputFall _ => true
  | .resetHoldEnd _ => true
  | .tollFire _ => true
  | .timedAction _ => true
  | .hit _ _ _ _ _ _ => true
  | .coreDebugEntry _ _ _ => true
  | .engineCommandComplete _ _ => true
  | .coreStepEnd _ _ _ => true
  | .chipReset _ => true
  | .chipReady _ => true
  | .alertRaise _ _ _ _ => true
  | .rcGoHalt _ _ _ => true
  | .rcGoResume _ _ _ => true
  | .tollArm _ => true
  | .wdaForce _ => true
  | .wdaLinkMuffle _ _ => true
  | .coreStep _ _ => true
  | .engStep _ _ => true
  | .mbxIn _ _ _ => true
  | .mbxOut _ _ _ => true
  | .counterLatch _ _ => true
  | .timedLatch _ => true
  | .tapEnOff _ _ => true
  | .tapEnOn _ _ => true
  | .tapRecord _ => true
  | .gapRecordEntry _ => true
  | .traceFrameSend _ => true
  | .captureIr => true
  | .extest _ _ _ => true
  | .clamp => true
  | .samplePreload _ _ => true
  | .idcode => true
  | .bypass => true
  | .hubstat => true
  | .hubstatCapture => true
  | .hubcmd => true
  | .hubcmdCapture => true
  | .hubcmdPop => true
  | .hubcmdPost _ => true
  | .dbgreg => true
  | .dbgregRead _ => true
  | .dbgregWrite _ _ => true
  | .dbgregCapture => true
  | .dumpRead => true
  | .dumpReadStart _ _ => true
  | .dumpReadRepeat => true
  | .dumpReadAdvance => true
  | .dumpReadCapture => true
  | .lcsReq => true
  | .lcsReqSubmit _ => true
  | .lcsReqNewNonce => true
  | .lcsReqCapture => true
  | .certLoad => true
  | .certLoadSubmit _ => true
  | .certLoadCapture => true
  | .streamLoad _ _ _ _ => true
  | .completionTimeout _ => true
  | .holdUpEnd => true
  | .snapAtPassed _ => true

/-- The command names something the hub has. -/
def Instr.wf (i : Instr) : Bool := i.shape && i.operands.all (fun p => p.1 < p.2)

end Sys2Proof
end

