-- ==== Sys2Proof/Safety.lean ====
section
/-! DEFINITION. What a safe step is, in the terms the statements use: an answer that is a next state, what every command
leaves alone, memories in canonical form, fuses that only burn, and host operations under numbers of their own. -/

namespace Sys2Proof.Machine

/-- The command answers a next state, of which `P` holds. -/
def Answers (c : Instr) (s : State) (P : State → Prop) : Prop := ∃ t, exec c s = .next t ∧ P t

/-- A memory in its canonical form: addresses strictly rising, and no byte equal to what an unlisted one reads as. -/
abbrev Memory.wf (m : Mem) : Bool := twf 0 m

/-- Host memory, the dump store, the staging SRAM, the NOR and the MSI-X table are in canonical form. -/
def State.memoriesWf (s : State) : Prop :=
  Memory.wf s.host = true ∧ Memory.wf s.store = true ∧ Memory.wf s.sram = true ∧ Memory.wf s.nor = true ∧ Memory.wf s.msix = true

/-- Host operations in progress stand in the order of their numbers, which lie below the next one to be given. -/
def State.numbered (s : State) : Prop := (s.htu.ops.map (·.id)).Pairwise (· < ·) ∧ ∀ o ∈ s.htu.ops, o.id < s.htu.nextId

/-- Every burned fuse bit of `f` is burned in `g`, and UNIT_ID is the same (R158–R160). -/
def Fuses.stay (f g : Fuses) : Prop :=
  g.unitId = f.unitId ∧
  (∀ k b, bit (f.group k) b = true → bit (g.group k) b = true) ∧
  (∀ b, f.secret.getLsbD b = true → g.secret.getLsbD b = true) ∧
  (∀ b, f.ikeyHash.getLsbD b = true → g.ikeyHash.getLsbD b = true) ∧
  (∀ b, b < 4 → bit f.ikeyDone b = true → bit g.ikeyDone b = true) ∧
  (∀ b, b < 4 → bit f.retWiped b = true → bit g.retWiped b = true) ∧
  (∀ b, b < 255 → bit f.floor b = true → bit g.floor b = true) ∧
  (∀ b, f.trim.getLsbD b = true → g.trim.getLsbD b = true)

/-- The state a host access finds: the link up, and woken from L1 (log entry 56). -/
def State.linked (s : State) : State := s.linkUse
/-- A host access at an offset is served at once: it reaches the hub, which is awake, the boot stage and lifecycle state leave the
offset's block served, no reset of this cycle reaches it, and no misuse of a register stands (R118–R120, R128, R135, R140, R162,
R519, R532). -/
def State.serves (s : State) (off : Nat) : Bool :=
  s.hostReaches && !s.linked.hostWaits off && s.linked.served0 off && !s.linked.rstReaches off && s.linked.misuses.isEmpty

/-- Every byte of the chip's memory is the same but those that programs, DMA transfers and engine commands that have ended since
leave as they will (R18, R20, R21, R48). -/
def Chip.memKept (c d : Chip) : Prop := ∀ a, c.settles d a = false → touched (c.ended d) a = false → mget d.mem a = mget c.mem a
/-- Between `s` and `t` only chip `f` has changed, to `c`, and with it what its chain's STOP_N_IN shows and the free values drawn. -/
def ChipStep (s t : State) (f : Nat) (c : Chip) : Prop :=
  t.chip f = c ∧ (s.chip f).memKept c ∧ (∀ g, g ≠ f → t.chip g = s.chip g) ∧
  { t with chips := s.chips, freeIx := s.freeIx, pins := { t.pins with stopInLow := s.pins.stopInLow } } = s

/-- The code an instruction-load row loads. -/
def scanLoad : Instr → Option Nat
  | .extest true _ _ => some 0 | .samplePreload _ _ => some 1 | .idcode => some 2 | .clamp => some 3 | .hubstat => some 0x10 | .hubcmd => some 0x11
  | .dbgreg => some 0x12 | .dumpRead => some 0x13 | .lcsReq => some 0x20 | .certLoad => some 0x21 | .bypass => some 0xFF
  | _ => none
/-- A halt with this cause has reached every unit of the chip at time `t`: `c` before, `d` after. A unit that a halt of this very
cycle reached before keeps the first cause of R377's order. -/
def Chip.haltedBy (c d : Chip) (t cause : Nat) : Prop :=
  (∀ i, i < 32 → (c.core i).state = .running → (d.core i).state = .running ∧ (d.core i).pend = (c.core i).pend ++ [cause]) ∧
  (∀ i, i < 32 → (c.core i).state ≠ .running → (d.core i).state = (c.core i).state ∧ (d.core i).cause = (c.core i).cause) ∧
  (∀ e, e < 512 → (c.eng e).state = .running → (d.eng e).state = .muffling ∧ (d.eng e).cause = cause ∧ (d.eng e).current = (c.eng e).current) ∧
  (∀ e, e < 512 → (c.eng e).state = .idle → (d.eng e).state = .muffled ∧ (d.eng e).cause = cause ∧ (d.eng e).lastDone = (c.eng e).lastDone ∧
    (d.eng e).streamId = (c.eng e).streamId) ∧
  (∀ e, e < 512 → (c.eng e).state.halted = true → (d.eng e).state = (c.eng e).state ∧ (d.eng e).current = (c.eng e).current ∧
    (d.eng e).lastDone = (c.eng e).lastDone ∧ ((c.eng e).haltAt ≠ t + 1 → (d.eng e).cause = (c.eng e).cause))
/-- The wait of an item has ended and nothing else of it has changed but its note of when it became eligible. -/
def Item.freed (i j : Item) : Prop := j.wait = .no ∧ { j with wait := i.wait, eligAt := i.eligAt } = i

/-! ### First strokes of descriptors -/

/-- Engine `e` is in the first stroke of work item `w`, a descriptor of opcode `op` whose bits make no misuse, with the hub in RUN
and within the stroke's time. -/
structure State.Starts (s : State) (e op : Nat) (w : Work) (i : Item) : Prop where
  work : (s.se e).work = some w
  item : s.item? w = some i
  opcode : opcodeOf i.desc = op
  fresh : i = { desc := i.desc, begun := true, fullMask := i.fullMask, began := i.began, eligAt := i.eligAt, engine := i.engine }
  clock : s.fastRun = true
  time : s.now < (s.se e).started + 1936
  ring : ∀ n, w = .ring n → n < 512

/-- Issue what item `w` has left, in order, as one stroke of engine `e` does: none when a bound is full, when the item has
nothing left and nothing outstanding, or when the number of operations exceeds the first argument. -/
def State.issueAll (e : Nat) (w : Work) : Nat → State → Option State
  | 0, _ => none
  | n + 1, s =>
    match s.item? w with
    | none => none
    | some i =>
      if i.fin.isSome ∨ i.parked ∨ i.wait ≠ Wait.no then some s
      else
        match i.todo with
        | [] => if i.out ≠ 0 then some s else none
        | o :: rest =>
          let r := (s.setItem w { i with todo := rest, issued := o.ix + 1, sent := i.sent ++ [o] }).issueOp w o
          match r.2 with
          | none => State.issueAll e w n (r.1.setSe e { r.1.se e with waiting := none })
          | some _ => none

/-- The first stroke of `c` ends its item `w`: `u` is the state it leaves and `j` the item, with the status `st` of its record. -/
def State.Ends (s : State) (c : Instr) (e op : Nat) (w : Work) (i : Item) (u : State) (j : Item) (st : Status) : Prop :=
  s.Starts e op w i → exec c s = .next (((u.setItem w j).finish w st j.detail j.cursor).drainWait w)
/-- The first stroke of `c` leaves its item `w` waiting: `u` and `j` are the state and the item at its end. -/
def State.Waits (s : State) (c : Instr) (e op : Nat) (w : Work) (i : Item) (u : State) (j : Item) : Prop :=
  s.Starts e op w i → exec c s = .next (((u.setItem w j).endStroke e).drainWait w)
/-- The first stroke of `c` answers a next state: it sets up the operations of `j` in the state `u`, and where no bound keeps one back
it has issued them all. -/
def State.Sends (s : State) (c : Instr) (e op : Nat) (w : Work) (i : Item) (u : State) (j : Item) : Prop :=
  s.Starts e op w i → ∃ t, exec c s = .next t ∧ ∀ v, State.issueAll e w 1900 (u.setItem w j) = some v → t = (v.endStroke e).drainWait w

end Sys2Proof.Machine
end

