-- ==== Sys2Proof/Certificates/Slice0/Obligations.lean ====
section
/-! DEFINITION. The statements for the provers, from the rules of the spec. Each is proved or refuted against `exec` and
`step`; the terms they use are in `Sys2Proof/Safety.lean`. -/

open Sys2Proof Sys2Proof.Machine

/-- O1. Step of a state with command c at the front of its queue is exec c on that state with the queue's rest. (Scope,
Readers and Conventions) -/
def Obligations.StepTakesTheFrontCommand : Prop :=
  ∀ (s : State) (c : Instr) (rest : List Instr), step { s with pending := c :: rest } = exec c { s with pending := rest }

/-- O2. With no command waiting and no REBOOT due, a step moves hub time by one hub cycle while the fast clocks run and to
the next AON edge otherwise, and off an AON edge changes nothing else. At an AON edge, with no wake event coming in and no
chain due, a physical line takes the FILTER and POLARITY written to it; and where none is waiting, nothing changes but the
wake timer, which counts down to 0 and notes its expiry, and a sleep request whose tick 0 has come, which latches the wake
enables. That an empty queue ticks is the model's choice (log entry 1). (R107, R117, R118, R314, R331) -/
def Obligations.EmptyQueueTicksTheClocks : Prop :=
  ∀ s : State, s.pending = [] → s.boot.resetDue = none →
    ∃ t, step s = .next t ∧ t.now = (if s.fastClock then s.now + 1 else (s.now / 1000 + 1) * 1000) ∧
      (t.now % 1000 ≠ 0 → { t with now := s.now } = s) ∧
      (t.now % 1000 = 0 → s.pwr.coming = [] → s.pwr.chainsDue = none →
        (∀ n f h, n < 32 → (s.line n).next = some (f, h) → (t.line n).filter = f ∧ (t.line n).high = h ∧ (t.line n).next = none ∧
          (t.line n).level = (if h = (s.line n).high then (s.line n).level else !(s.line n).level)) ∧
        ((∀ n, (s.line n).next = none) → (∀ q, (s.queue q).coalNew = none) →
          { t with now := s.now, pwr := s.pwr } = s ∧ t.pwr.timer = s.pwr.timer - 1 ∧ t.pwr.timerHit = (s.pwr.timerHit || s.pwr.timer == 1) ∧
          { t.pwr with timer := s.pwr.timer, timerHit := s.pwr.timerHit, req := s.pwr.req } = s.pwr ∧
          (∀ r, s.pwr.req = some r → r.latched = none → r.tick0 ≤ t.now → t.pwr.req = some { r with latched := some (s.pwr.wakeEn, s.pwr.wakeLines) })))

/-- O3. At reset no command waits; every ring and every Carillon queue is disabled, every counter 0, the translation unit
off with an empty TLB, the PLL unlocked, WAKE_EN 0x2F, the wake timer 0, no output enabled, no scan slot and no certificate
held, dumps and trace enabled in their control registers, and a boot with cause 0 due (log entry 5 names the model's own
choices); the memories are canonical and the host operations numbered. (R84, R92, R131, R255, R267, R532) -/
def Obligations.ResetLeavesTheHub : Prop :=
  State.reset.memoriesWf ∧ State.reset.numbered ∧ State.reset.pending = [] ∧
    (∀ n, (State.reset.ring n).state = .disabled ∧ (State.reset.ring n).enable = false ∧ (State.reset.ring n).head = 0 ∧ (State.reset.ring n).tail = 0) ∧
    (∀ n, (State.reset.counter n).val = 0) ∧ (∀ q, (State.reset.queue q).enabled = false ∧ (State.reset.queue q).frozen = false) ∧
    State.reset.htu.enabled = false ∧ State.reset.htu.tlb = [] ∧ State.reset.pwr.pllLock = false ∧ State.reset.pwr.wakeEn = 0x2F ∧ State.reset.pwr.timer = 0 ∧
    State.reset.pins.stopEn = 0 ∧ State.reset.pins.readyEn = false ∧ State.reset.pins.trigEn = false ∧ State.reset.boot.due = some 0 ∧ State.reset.boot.count = 0 ∧
    State.reset.scan.slots = [] ∧ State.reset.auth.certs = [] ∧ State.reset.dmp.enable = true ∧ State.reset.trc.enable = true

/-- O4. From every state, a step keeps host memory, the dump store, the staging SRAM, the NOR and the MSI-X table in
canonical form (addresses strictly rising, no byte listed that an unlisted address reads as), and keeps the host operations
in progress in the order of their numbers, below the next number to be given. (Host Memory Translation and Faults, State
Access and Dumps) -/
def Obligations.StepsKeepMemoriesAndHostOperationsSound : Prop :=
  ∀ s t : State, step s = .next t → (s.memoriesWf → t.memoriesWf) ∧ (s.numbered → t.numbered)

/-- O5. From every state, a step leaves UNIT_ID as it is and every burned bit of the fuse groups, the device secret, the
issuer-key hash, IKEY_DONE, RET_WIPED, the serial floor and TRIM burned. (R158, R159, R160, Lifecycle States) -/
def Obligations.BurnedFusesStayBurned : Prop :=
  ∀ s t : State, step s = .next t → s.fuses.stay t.fuses

/-- O6. From every state, every command that answers a next state leaves the queue of waiting commands and the hub's time as
they are: time passes only in ticks of an empty queue (the model's choice, log entry 1). (Hub Architecture and the Stroke) -/
def Obligations.CommandsLeaveTheQueueAndTime : Prop :=
  ∀ (c : Instr) (s t : State), exec c s = .next t → t.pending = s.pending ∧ t.now = s.now

/-- O7. From every state, every command with every operand answers a next state, none is refused or faults, and the queue of
waiting commands is left as it is: misuses leave values open (log entry 40) and stop nothing. (R519, R522, R9, R252, R259) -/
def Obligations.EveryCommandAnswersANextState : Prop :=
  ∀ (c : Instr) (s : State), ∃ t, exec c s = .next t ∧ t.pending = s.pending

/-- O8. A served write of HUB_STAT_CLR clears the statistics of its bit alone. A served write of HUB_ARB, the wake enables,
the wake lines, the timer, BHV_CTRL, BHV_TXN_TIMEOUT, RUN_CTRL's relay fields or the cut limits, with its reserved bits 0,
sets the fields of that register and changes nothing else. A 1 written to a bit of PWR_EVENTS clears it and a 0 leaves it.
(R8, R65, R66, R252, Table 2.9) -/
def Obligations.HubStatisticsAndPlainRegisters : Prop :=
  (∀ s : State, s.serves 0x14 = true →
     exec .hubStatClrStalls s = .next { s.linked with hub := { s.hub with stalls := [] } } ∧
     exec .hubStatClrYields s = .next { s.linked with hub := { s.hub with yields := 0 } } ∧
     exec .hubStatClrLatency s = .next { s.linked with hub := { s.hub with latUrg := 0, latScan := 0 } } ∧
     exec .hubStatClrStrokes s = .next { s.linked with hub := { s.hub with strokes := 0, strokesHi := 0 } }) ∧
  (∀ (s : State) (v : Nat), v < 2 ^ 32 →
     (s.serves 0x10 = true → v &&& 0xFF7FF = v →
       exec (.registerWrite 0x10 4 v) s =
         .next { s.linked with hub := { s.hub with yieldWait := fld v 0 11, bulkMin := fld v 12 4, scanGuard := fld v 16 4 } }) ∧
     (s.serves 0x1004 = true → v < 64 → exec (.registerWrite 0x1004 4 v) s = .next { s.linked with pwr := { s.linked.pwr with wakeEn := v } }) ∧
     (s.serves 0x1008 = true → v &&& 0xFFFDFF00 = v →
       exec (.registerWrite 0x1008 4 v) s = .next { s.linked with pwr := { s.linked.pwr with wakeLines := v } }) ∧
     (s.serves 0x1010 = true → exec (.registerWrite 0x1010 4 v) s = .next { s.linked with pwr := { s.linked.pwr with timer := v } }) ∧
     (s.serves 0x8000 = true → v &&& 0x71 = v →
       exec (.registerWrite 0x8000 4 v) s = .next { s.linked with bhv := { s.bhv with autoRedisc := bit v 0, traceShare := fld v 4 3 } }) ∧
     (s.serves 0x8004 = true → v < 2 ^ 16 →
       exec (.registerWrite 0x8004 4 v) s = .next { s.linked with bhv := { s.bhv with txnTimeout := v } }) ∧
     (s.serves 0xA000 = true → v &&& 0xFFF01 = v →
       exec (.registerWrite 0xA000 4 v) s =
         .next { s.linked with run := { s.run with relayEn := bit v 0, relayMask := fld v 8 8, pulse := fld v 16 4 } }) ∧
     (s.serves 0xB000 = true → v < 2 ^ 24 →
       exec (.registerWrite 0xB000 4 v) s =
         .next { s.linked with cut := { s.cut with drainLimit := fld v 0 16, linkLimit := fld v 16 8 } })) ∧
  (∀ (s : State) (v : Nat), s.serves 0x100C = true → v < 2 ^ 32 → v &&& 0x7FE = v →
     ∃ e, exec (.registerWrite 0x100C 4 v) s = .next { s.linked with pwr := { s.linked.pwr with events := e } } ∧
       ∀ b, bit e b = (decide (b < 11) && bit s.linked.pwr.events b && !bit v b))

/-- O9. A write of a size or alignment not allowed writes nothing and is noted, a read of one gives a free value; a non-zero
write to no register and a write with a reserved bit set are noted and the rest of the write takes effect; a write without
misuse takes away what was noted of its register. Where the boot stage, the lifecycle state or a reset of the very cycle
leaves a block unserved a write is discarded. An access that waits, while the hub sleeps or wakes or its PLL is unlocked, is
held in order, and while the hub sleeps it is a HOST_ACCESS wake event (log entries 40 and 76). (R8, R9, R118, R120, R135,
R140, R162, R252) -/
def Obligations.MisusedUnservedAndHeldAccesses : Prop :=
  (∀ (s : State) (off size v : Nat), s.hostReaches = true → off < bar2 → s.linked.hostWaits off = false → s.linked.served0 off = true →
     s.linked.rstReaches off = false → v < 2 ^ (8 * size) →
     (sizeOk off size = false → exec (.registerWrite off size v) s = .next (s.linked.misuse (off, true))) ∧
     (sizeOk off size = false →
       exec (.hiLatchRead off size) s =
         .next { s.linked.free.2.misuse (off, true) with readVal := BitVec.ofNat 64 (s.linked.free.1.toNat % 2 ^ (8 * size)) }) ∧
     (sizeOk off size = true → regMask off = none → v ≠ 0 →
       exec (.registerWrite off size v) s = .next ((s.linked.misuse (off, false)).bar0Write off size 0)) ∧
     (∀ m, off % 4 = 0 → size = 4 → regMask off = some m → v &&& m ≠ v →
       exec (.registerWrite off size v) s = .next ((s.linked.misuse (off, false)).bar0Write off 4 (v &&& m))) ∧
     (∀ m, sizeOk off size = true → regMask off = some m → (size = 4 → v &&& m = v) →
       exec (.registerWrite off size v) s = .next ((s.linked.recover off true).bar0Write off size v)) ∧
     (∀ m, m ∈ s.linked.misuses → m = (off, false) → m ∉ (s.linked.recover off true).misuses)) ∧
  (∀ (s : State) (off size v : Nat), s.hostReaches = true → off < bar2 → s.linked.hostWaits off = false →
     (s.linked.served0 off = false ∨ s.linked.rstReaches off = true) → exec (.registerWrite off size v) s = .next s.linked) ∧
  (∀ (s : State) (off v : Nat), s.hostReaches = true → off < bar2 → v < 2 ^ 32 → s.linked.hostWaits off = true →
     ∃ t, exec (.registerWrite off 4 v) s = .next t ∧ t.held = s.held ++ [.write off 4 v] ∧
       (s.asleep = true → s.now % 1000 = 0 → t.pwr.events = s.linked.pwr.events ||| 2 ^ 6) ∧
       (s.asleep = true → s.now % 1000 ≠ 0 → t.pwr = { s.linked.pwr with coming := s.linked.pwr.coming ++ [(6, 0)] }) ∧
       (s.asleep = false → t.pwr = s.linked.pwr) ∧ { t with held := s.held, pwr := s.linked.pwr } = s.linked)

/-- O10. Enabling a DISABLED ring zeroes HEAD, TAIL and DONE_CNT, sets PHASE and makes it IDLE, keeping its set-up; in any
other state the write has no effect. Disabling a ring that is not DISABLED or DRAINING stops fetching: it is DISABLED at
once when it has neither a work item nor a record to write, and DRAINING or DISABLED in every case; HEAD and TAIL stay.
(R255, R282, R283) -/
def Obligations.RingsStartAndDrain : Prop :=
  (∀ (s : State) (r : Nat), r < 512 → s.serves (0x10014 + 0x40 * r) = true →
     ((s.ring r).state = .disabled →
       ∃ t, exec (.ringEnable r) s = .next t ∧
         (t.ring r).state = .idle ∧ (t.ring r).enable = true ∧ (t.ring r).head = 0 ∧ (t.ring r).tail = 0 ∧ (t.ring r).phase = true ∧ (t.ring r).doneCnt = 0 ∧
         (t.ring r).base = (s.ring r).base ∧ (t.ring r).cpl = (s.ring r).cpl ∧ (t.ring r).sizeLog2 = (s.ring r).sizeLog2 ∧ (t.ring r).weight = (s.ring r).weight ∧
         (∀ n, n ≠ r → t.ring n = s.ring n) ∧ { t with rings := s.rings } = s.linked) ∧
     ((s.ring r).state ≠ .disabled → exec (.ringEnable r) s = .next s.linked)) ∧
  (∀ (s : State) (r : Nat), r < 512 → s.serves (0x10014 + 0x40 * r) = true →
     (((s.ring r).state = .disabled ∨ (s.ring r).state = .draining) → exec (.ringDisable r) s = .next s.linked) ∧
     ((s.ring r).state ≠ .disabled → (s.ring r).state ≠ .draining → (s.ring r).item = none → (s.ring r).cplQ = [] →
       ∃ t, exec (.ringDisable r) s = .next t ∧ (t.ring r).state = .disabled ∧ (t.ring r).enable = false ∧ (t.ring r).fetched = []) ∧
     ((s.ring r).state ≠ .disabled → (s.ring r).state ≠ .draining →
       ∃ t, exec (.ringDisable r) s = .next t ∧ ((t.ring r).state = .disabled ∨ (t.ring r).state = .draining) ∧ (t.ring r).enable = false ∧
         (t.ring r).tail = (s.ring r).tail ∧ (t.ring r).head = (s.ring r).head))

/-- O11. A doorbell on a DISABLED or DRAINING ring, with a tail out of range, or that would move the tail back, changes no
tail: DB_ERR and its cause are set and source 194 activates with the ring's number. An accepted new tail sets TAIL, makes
the ring ACTIVE while it holds a descriptor and IDLE otherwise, leaves the other rings' pointers, and is a wake event, seen
at the first AON edge at or after it. (R256, R257, R255, R118) -/
def Obligations.DoorbellsAreChecked : Prop :=
  (∀ (s : State) (r v c : Nat), r < 512 → v < 2 ^ 32 → s.hostReaches = true → s.linked.hostWaits bar2 = false →
     ((((s.ring r).state = .disabled ∨ (s.ring r).state = .draining) ∧ c = 3) ∨
      (¬ ((s.ring r).state = .disabled ∨ (s.ring r).state = .draining) ∧ (s.ring r).size ≤ v ∧ c = 1) ∨
      (¬ ((s.ring r).state = .disabled ∨ (s.ring r).state = .draining) ∧ v < (s.ring r).size ∧
        (v + (s.ring r).size - (s.ring r).head) % (s.ring r).size < ((s.ring r).tail + (s.ring r).size - (s.ring r).head) % (s.ring r).size ∧ c = 2)) →
     ∃ t, exec (.doorbell r v) s = .next t ∧ t.ring r = { s.ring r with dbErr := true, dbCause := c } ∧
       (∀ n, n ≠ r → t.ring n = s.ring n) ∧
       (s.inService 194 = false → t.htu = s.htu ∧ (t.src 194).pending = true ∧ (t.src 194).data = r + 2 ^ 16)) ∧
  (∀ (s : State) (r v : Nat), r < 512 → s.hostReaches = true → s.linked.hostWaits bar2 = false →
     ((s.ring r).state = .idle ∨ (s.ring r).state = .active) → v < (s.ring r).size → v ≠ (s.ring r).tail →
     ((s.ring r).tail + (s.ring r).size - (s.ring r).head) % (s.ring r).size ≤ (v + (s.ring r).size - (s.ring r).head) % (s.ring r).size →
     ∃ t, exec (.doorbell r v) s = .next t ∧ (t.ring r).tail = v ∧ (t.ring r).head = (s.ring r).head ∧
       (t.ring r).state = (if (s.ring r).head = v then .idle else .active) ∧
       (∀ n, n ≠ r → (t.ring n).tail = (s.ring n).tail ∧ (t.ring n).head = (s.ring n).head ∧ (t.ring n).state = (s.ring n).state) ∧
       (if s.now % 1000 = 0 then bit t.pwr.events 7 = true else (7, 0) ∈ t.pwr.coming) ∧ t.fuses = s.fuses ∧ t.counters = s.counters ∧ t.host = s.host ∧ t.chips = s.chips)

/-- O12. A write of 8 bytes to the read-and-set window sets its counter, a write of 4 bytes one half of it; a write to the
add window adds modulo 2^64, at the half written; no other counter changes; after a change by a stroke of the same cycle the
host's set takes its place ahead of it. A read of a LO half answers it and keeps the HI half, which the next read of HI
answers, for a counter and for HUB_STROKES; an 8-byte read answers the whole counter. (R267, R268, R27) -/
def Obligations.SyncCountersWrapAndLatch : Prop :=
  (∀ (s : State) (k v : Nat), k < 4096 →
     ((s.counter k).cycle ≠ s.now ∨ (s.counter k).ops = [] →
       (s.serves (0x20000 + 8 * k) = true → v < 2 ^ 64 →
         ∃ t, exec (.synSet (8 * k) 8 v) s = .next t ∧ (t.counter k).val = BitVec.ofNat 64 v ∧ (∀ j, j ≠ k → t.counter j = s.counter j)) ∧
       (s.serves (0x20000 + 8 * k) = true → v < 2 ^ 32 →
         ∃ t, exec (.synSet (8 * k) 4 v) s = .next t ∧ (t.counter k).val = BitVec.ofNat 64 ((s.counter k).val.toNat / 2 ^ 32 * 2 ^ 32 + v) ∧
           (∀ j, j ≠ k → t.counter j = s.counter j)) ∧
       (s.serves (0x20000 + 8 * k + 4) = true → v < 2 ^ 32 →
         ∃ t, exec (.synSet (8 * k + 4) 4 v) s = .next t ∧ (t.counter k).val = BitVec.ofNat 64 ((s.counter k).val.toNat % 2 ^ 32 + 2 ^ 32 * v) ∧
           (∀ j, j ≠ k → t.counter j = s.counter j)) ∧
       (s.serves (0x28000 + 8 * k) = true → v < 2 ^ 64 →
         ∃ t, exec (.synAdd (8 * k) 8 v) s = .next t ∧ (t.counter k).val = (s.counter k).val + BitVec.ofNat 64 v ∧ (∀ j, j ≠ k → t.counter j = s.counter j)) ∧
       (s.serves (0x28000 + 8 * k) = true → v < 2 ^ 32 →
         ∃ t, exec (.synAdd (8 * k) 4 v) s = .next t ∧ (t.counter k).val = (s.counter k).val + BitVec.ofNat 64 v ∧ (∀ j, j ≠ k → t.counter j = s.counter j)) ∧
       (s.serves (0x28000 + 8 * k + 4) = true → v < 2 ^ 32 →
         ∃ t, exec (.synAdd (8 * k + 4) 4 v) s = .next t ∧ (t.counter k).val = (s.counter k).val + BitVec.ofNat 64 (2 ^ 32 * v) ∧
           (∀ j, j ≠ k → t.counter j = s.counter j))) ∧
     (∀ o : SynOp, (s.counter k).cycle = s.now → (s.counter k).ops = [o] → o.rank ≠ 0 → s.serves (0x20000 + 8 * k) = true → v < 2 ^ 64 →
       ∃ t, exec (.synSet (8 * k) 8 v) s = .next t ∧ (t.counter k).val = o.apply (BitVec.ofNat 64 v))) ∧
  (∀ (s : State) (k : Nat), k < 4096 →
     (s.serves (0x20000 + 8 * k) = true → s.linked.trc.odd = false →
       (∃ t, exec (.synReadLo k 4) s = .next t ∧ t.readVal = BitVec.ofNat 64 ((s.counter k).val.toNat % 2 ^ 32) ∧
         (t.counter k).val = (s.counter k).val ∧
         (s.serves (0x20000 + 8 * k + 4) = true →
           ∃ u, exec (.hiLatchRead (0x20000 + 8 * k + 4) 4) t = .next u ∧ u.readVal = BitVec.ofNat 64 ((s.counter k).val.toNat / 2 ^ 32))) ∧
       exec (.synReadLo k 8) s = .next { s.linked with readVal := (s.counter k).val }) ∧
     (s.serves 0x60 = true →
       ∃ t, exec (.hiLatchRead 0x60 4) s = .next t ∧ t.readVal = BitVec.ofNat 64 (s.hub.strokes % 2 ^ 32) ∧
         ∃ u, exec (.hiLatchRead 0x64 4) t = .next u ∧ u.readVal = BitVec.ofNat 64 (s.hub.strokes / 2 ^ 32 % 2 ^ 32)))

/-- O13. CAR_PEND_SET activates and makes ready the sources whose bits are 1, with the SOFT cause; CAR_PEND_CLR clears their
pending record but keeps an activation of its own cycle; no other source changes. A pending source whose queue has a
coalescing time becomes ready at the AON edge that reaches FIRST plus that time, and a source that is not pending does not.
(R316, R317, R315) -/
def Obligations.PendingSourcesAndCoalescing : Prop :=
  (∀ (s : State) (m bits : Nat), m < 8 → bits < 2 ^ 32 →
     (s.serves (0x4040 + 4 * m) = true →
       ∃ t, exec (.carPendSet m bits) s = .next t ∧ { t with car := s.car } = s.linked ∧ t.car.queues = s.car.queues ∧ t.car.lines = s.car.lines ∧
         (∀ k, k < 32 → bit bits k = true → (t.src (32 * m + k)).pending = true ∧ (t.src (32 * m + k)).ready = true ∧
           (t.src (32 * m + k)).cause = (s.src (32 * m + k)).cause ||| 4 ∧
           ((s.src (32 * m + k)).pending = false → (t.src (32 * m + k)).count = 1 ∧ (t.src (32 * m + k)).first = s.time)) ∧
         (∀ n, ¬ (n / 32 = m ∧ bit bits (n % 32) = true) → t.src n = s.src n)) ∧
     (s.serves (0x4060 + 4 * m) = true →
       ∃ t, exec (.carPendClr m bits) s = .next t ∧ { t with car := s.car } = s.linked ∧ t.car.queues = s.car.queues ∧ t.car.lines = s.car.lines ∧
         (∀ k, k < 32 → bit bits k = true → (s.src (32 * m + k)).recent.actAt ≠ s.now + 1 →
           t.src (32 * m + k) = { s.src (32 * m + k) with pending := false, count := 0, first := 0, last := 0, ready := false, cause := 0 }) ∧
         (∀ k, k < 32 → bit bits k = true → (s.src (32 * m + k)).recent.actAt = s.now + 1 → (s.src (32 * m + k)).pending = true →
           (t.src (32 * m + k)).pending = true ∧ (t.src (32 * m + k)).count = Nat.min (s.src (32 * m + k)).recent.acts 255) ∧
         (∀ n, ¬ (n / 32 = m ∧ bit bits (n % 32) = true) → t.src n = s.src n))) ∧
  (∀ (s : State) (n : Nat), n < 256 →
     ((s.src n).pending = true → (s.src n).ready = false → (s.queue (s.src n).route).coalTime ≠ 0 →
       (s.src n).first + (s.queue (s.src n).route).coalTime * 1000 ≤ s.edgeTime →
       ∃ t, exec (.coalTimeReady n) s = .next t ∧ (t.src n).ready = true ∧ bit (t.src n).cause 1 = true ∧ (t.src n).pending = true ∧
         (∀ k, k ≠ n → t.src k = s.src k) ∧ { t with car := s.car } = s ∧ t.car.queues = s.car.queues) ∧
     ((s.src n).pending = false → exec (.coalTimeReady n) s = .next s))

/-- O14. CAR_Q_EOI naming the source in service releases it, and an activation lost to it in that cycle becomes pending;
naming another, or with none in service, freezes the queue, records the source named, counts the fault and activates source
193; on a frozen queue it is discarded. CAR_Q_RECOVER unfreezes a frozen queue and keeps or releases the source in service;
on a queue that is not frozen it has no effect. (R321, R322, R323) -/
def Obligations.EndOfInterruptFreezeAndRecover : Prop :=
  (∀ (s : State) (q n : Nat), q < 64 → n < 256 → s.serves (0x5018 + 0x40 * q) = true →
     ((s.queue q).frozen = true → exec (.carQEoi q n) s = .next s.linked) ∧
     ((s.queue q).frozen = false → (s.queue q).insvc = some n → (s.src n).recent.lossAt ≠ s.now + 1 →
       exec (.carQEoi q n) s = .next (s.linked.setQueue q { s.queue q with insvc := none, relAt := s.now + 1 })) ∧
     ((s.queue q).frozen = false → (s.queue q).insvc = some n → (s.src n).recent.lossAt = s.now + 1 → (s.src n).recent.losses = 1 →
       (∀ p, p ≠ q → (s.queue p).insvc ≠ some n) → (s.src n).pending = false →
       ∃ t, exec (.carQEoi q n) s = .next t ∧ (t.queue q).insvc = none ∧ (t.src n).pending = true ∧ (t.src n).ovr = (s.src n).recent.lossOvr ∧
         (t.src n).lost = (s.src n).recent.lossLost ∧ (t.src n).data = (s.src n).recent.lossData) ∧
     ((s.queue q).frozen = false → (s.queue q).insvc ≠ some n → s.inService 193 = false →
       ∃ t, exec (.carQEoi q n) s = .next t ∧
         t.queue q = { s.queue q with frozen := true, named := n, none_ := (s.queue q).insvc.isNone, faults := satAdd (s.queue q).faults 1 16 } ∧
         (∀ p, p ≠ q → t.queue p = s.queue p) ∧ (∀ k, k ≠ 193 → t.src k = s.src k) ∧ { t with car := s.car } = s.linked ∧
         (t.src 193).pending = true)) ∧
  (∀ (s : State) (q : Nat), q < 64 → s.serves (0x501C + 0x40 * q) = true →
     ((s.queue q).frozen = true →
       exec (.carQRecoverKeep q) s = .next (s.linked.setQueue q { s.queue q with frozen := false }) ∧
       ((∀ n, (s.queue q).insvc = some n → (s.src n).recent.lossAt ≠ s.now + 1) →
         exec (.carQRecoverRelease q) s = .next (s.linked.setQueue q { s.queue q with frozen := false, insvc := none, relAt := s.now + 1 }))) ∧
     ((s.queue q).frozen = false → exec (.carQRecoverKeep q) s = .next s.linked ∧ exec (.carQRecoverRelease q) s = .next s.linked))

/-- O15. Enabling a disabled queue zeroes HEAD, TAIL, the issue index, SEQ and CAR_Q_STATS, sets PHASE, sets IRQ_EN as
written and leaves FROZEN, the source in service and every other field of the queue; on an enabled queue only IRQ_EN is
written, and disabling leaves everything but ENABLED and IRQ_EN. CAR_Q_HEAD past the records transmitted sets HEAD_ERR and
nothing else; otherwise it sets HEAD and, while the queue still holds records and IRQ_EN is 1, requests the queue's vector,
once in a hub cycle. (R332) -/
def Obligations.QueueEnableAndHead : Prop :=
  (∀ (s : State) (q : Nat) (irq : Bool), q < 64 → s.serves (0x500C + 0x40 * q) = true →
     ((s.queue q).enabled = false →
       exec (.carQEnable q irq) s = .next (s.linked.setQueue q { s.queue q with
         irqEn := irq, enabled := true, head := 0, tail := 0, tailPhase := true, issue := 0, phase := true, seq := 0, dropped := 0, faults := 0,
         oldOut := (s.queue q).out.length })) ∧
     ((s.queue q).enabled = true → exec (.carQEnable q irq) s = .next (s.linked.setQueue q { s.queue q with irqEn := irq })) ∧
     exec (.carQDisable q irq) s = .next (s.linked.setQueue q { s.queue q with irqEn := irq, enabled := false })) ∧
  (∀ (s : State) (q v : Nat), q < 64 → v < 0x1000 → s.serves (0x5010 + 0x40 * q) = true →
     ((s.queue q).size ≤ v ∨
         ((s.queue q).tail + (s.queue q).size - (s.queue q).head) % (s.queue q).size < (v + (s.queue q).size - (s.queue q).head) % (s.queue q).size →
       exec (.carQHead q v) s = .next (s.linked.setQueue q { s.queue q with headErr := true })) ∧
     (v < (s.queue q).size →
         (v + (s.queue q).size - (s.queue q).head) % (s.queue q).size ≤ ((s.queue q).tail + (s.queue q).size - (s.queue q).head) % (s.queue q).size →
       ∃ t, exec (.carQHead q v) s = .next t ∧ (t.queue q).head = v ∧ (t.queue q).tail = (s.queue q).tail ∧ (t.queue q).headErr = (s.queue q).headErr ∧
         (∀ p, p ≠ q → t.queue p = s.queue p) ∧
         { t with car := s.car, pba := s.pba, msiSent := s.msiSent } = s.linked ∧
         ((s.queue q).irqEn = true ∧ v ≠ (s.queue q).tail ∧ (s.queue q).reqAt ≠ s.now + 1 →
           if s.vectorMasked q then bit t.pba q = true ∧ t.msiSent = s.msiSent else t.msiSent = q :: s.msiSent ∧ t.pba = s.pba) ∧
         ((s.queue q).irqEn = false ∨ v = (s.queue q).tail ∨ (s.queue q).reqAt = s.now + 1 → t.pba = s.pba ∧ t.msiSent = s.msiSent)))

/-- O16. CAR_LINE_n's FILTER and, for the lines that have one, POLARITY act from the next AON edge; a polarity change that
makes the level active then activates the source, with the edge's time. A line's pad that has held a level for its filter's
samples gives that level, and the activation of its source when it becomes active; a shorter one changes the raw level
alone. TRIG_IN notes the times of its edges; line 17's change makes survival due or not. (R314, R118) -/
def Obligations.LinesAreFilteredAndPolarised : Prop :=
  (∀ (s : State) (n v : Nat), n < 32 → v < 32 →
     (s.serves (0x4200 + 4 * n) = true →
       exec (.carLineWrite n v) s = .next (s.linked.setLine n { s.line n with next := some (v % 16, if n = 16 ∨ 18 ≤ n then bit v 4 else (s.line n).high) })) ∧
     (∀ high, (s.line n).next = some (v % 16, high) →
       ((s.lineApply n).line n).filter = v % 16 ∧ ((s.lineApply n).line n).high = high ∧ ((s.lineApply n).line n).next = none ∧
       ((s.lineApply n).line n).level = (if high = (s.line n).high then (s.line n).level else !(s.line n).level) ∧
       (∀ k, k ≠ n → (s.lineApply n).line k = s.line k) ∧
       (high ≠ (s.line n).high → (s.line n).level = false → s.inService n = false → ((s.lineApply n).src n).pending = true ∧
         ((s.lineApply n).src n).last = s.edgeTime))) ∧
  (∀ (s : State) (n : Nat) (high : Bool) (samples stamp : Nat), n < 32 → 0 < samples → s.pins.inPor = false → s.pins.dead = false →
     (n < 8 → high = s.stopInPad n) → (8 ≤ n → n < 16 → high = s.alertPad (n - 8)) →
     (n ≠ 16 → samples < Nat.max (s.line n).filter 1 →
       exec (.lineChange n high samples stamp) s = .next (s.setLine n { s.line n with raw := high })) ∧
     (n ≠ 16 → n ≠ 17 → Nat.max (s.line n).filter 1 ≤ samples →
       ∃ t, exec (.lineChange n high samples stamp) s = .next t ∧ (t.line n).raw = high ∧ (t.line n).level = (high == (s.line n).high) ∧
         (t.line n).filter = (s.line n).filter ∧ (∀ k, k ≠ n → t.line k = s.line k) ∧
         ((t.line n).level = true → (s.line n).level = false → s.inService n = false →
           (t.src n).pending = true ∧ (t.src n).last = s.edgeTime) ∧
         ((t.line n).level = (s.line n).level → t.src n = s.src n ∧ t.pwr = s.pwr) ∧ t.chips = s.chips ∧ t.host = s.host) ∧
     (n = 16 → (s.line 16).raw ≠ high →
       ∃ t, exec (.lineChange n high samples stamp) s = .next t ∧ (t.line 16).raw = high ∧
         (samples < Nat.max (s.line 16).filter 1 →
           t.run = (if high then { s.run with padRise := stamp } else { s.run with padFall := stamp }) ∧ (t.line 16).level = (s.line 16).level)) ∧
     (n = 17 → Nat.max (s.line 17).filter 1 ≤ samples → (s.line 17).level ≠ (high == (s.line 17).high) →
       ∃ t, exec (.lineChange n high samples stamp) s = .next t ∧ (t.line 17).level = (high == (s.line 17).high) ∧
         t.dmp.survDue = (high == (s.line 17).high) ∧ (t.dmp.survDue = true → t.dmp.warnTime = s.time) ∧ t.dmp.surviving = s.dmp.surviving))

/-- O17. A queue that may select takes its lowest ready, unmasked source into service, issues one event record at the slot
of its issue index with the next SEQ, and, for a source other than 192, clears what was pending; a queue that may not select
does nothing. When the record's write is transmitted its bytes are in host memory and TAIL has advanced by one slot, but for
a record issued before the queue was last enabled. (R319, R324, R326, R333, R329) -/
def Obligations.QueuesSelectAndTransmit : Prop :=
  (∀ (s : State) (q n : Nat), q < 64 → n < 256 →
     (s.canSelect q = false → exec (.queueSelect q) s = .next s) ∧
     (s.numbered → s.canSelect q = true → (s.src n).ready = true → s.masked (s.src n) = false → (s.src n).route = q →
       (∀ k, k < n → ¬ ((s.src k).ready = true ∧ s.masked (s.src k) = false ∧ (s.src k).route = q)) →
       s.openBlock 4 = false → s.openBlock 6 = false →
       ∃ t, exec (.queueSelect q) s = .next t ∧ (t.queue q).insvc = some n ∧ (t.queue q).issue = ((s.queue q).issue + 1) % (s.queue q).size ∧
         (t.queue q).seq = ((s.queue q).seq + 1) % 2 ^ 32 ∧ (t.queue q).out = (s.queue q).out ++ [n] ∧
         (n ≠ 192 → (t.src n).pending = false ∧ (t.src n).count = 0 ∧ (t.src n).ready = false) ∧
         (∃ o ∈ t.htu.ops, o.id = s.htu.nextId ∧ o.owner = .queue q ∧ o.write = true ∧ o.addr = (s.queue q).base + 32 * (s.queue q).issue ∧
           o.data = s.eventRecord q n))) ∧
  (∀ (s : State) (q : Nat) (o : HostOp) (p k : Nat), q < 64 → s.fastRun = true → s.htu.firstWrite = some o → o.owner = .queue q → o.phase = .queued p k →
     ∃ t, exec (.recordTransmitted q) s = .next t ∧ t.host = mwrite s.host p o.data ∧
       (t.queue q).tail = (if (s.queue q).oldOut = 0 then ((s.queue q).tail + 1) % (s.queue q).size else (s.queue q).tail) ∧
       (t.queue q).out = (s.queue q).out.drop 1 ∧
       (t.queue q).head = (s.queue q).head ∧ t.store = s.store ∧ t.chips = s.chips ∧ t.counters = s.counters)

/-- O18. In SCRAPPED only BYPASS, IDCODE and HUBSTAT load, in INVALID also SAMPLE/PRELOAD and LCS_REQ; in every other state
EXTEST and CLAMP ask for CONTROL of every unit and DUMP_READ for CONTROL of the hub, and nothing else is denied. A denied
load selects the bypass register and changes no pad; it is counted, recorded with its code and activates source 182. (R224,
R225, R243, R190, R215) -/
def Obligations.ScanLoadsAreJudged : Prop :=
  (∀ (s : State) (i : Instr) (code : Nat), scanLoad i = some code →
     (s.lcs.state = 6 → (s.scanDenial code = none ↔ code = 0xFF ∨ code = 2 ∨ code = 0x10)) ∧
     (s.lcs.state = 15 → (s.scanDenial code = none ↔ code = 0xFF ∨ code = 2 ∨ code = 1 ∨ code = 0x10 ∨ code = 0x20)) ∧
     (s.lcs.state ≠ 6 → s.lcs.state ≠ 15 →
       (s.scanDenial code = none ↔ ((code = 0 ∨ code = 3) → ∀ x, x ≤ 128 → 2 ≤ s.workLevel .scan x) ∧ (code = 0x13 → 2 ≤ s.workLevel .scan 128)))) ∧
  (∀ (s : State) (i : Instr) (code : Nat) (x : Option (Nat × Nat × Nat)), scanLoad i = some code → s.tapLive = true → s.scanDenial code = some x →
     ∃ t, exec i s = .next t ∧ t.scan.ir = code ∧ t.scan.denied = true ∧ t.scan.boundary = s.scan.boundary ∧ t.scan.slots = s.scan.slots ∧
       t.auth.denyCnt = satAdd s.auth.denyCnt 1 32 ∧ fld t.auth.denyLast 0 8 = code ∧ bit t.auth.denyLast 8 = true ∧ fld t.auth.denyLast 9 9 = 0 ∧
       (bit t.auth.denyLast 30 = true ↔ x = none) ∧ t.auth.certs = s.auth.certs ∧ t.pins = s.pins ∧
       (s.inService 182 = false → (t.src 182).pending = true) ∧
       (∀ c, scanLoad c ≠ none → scanLoad c ≠ some 1 → t.scanSel ((scanLoad c).getD 0) = false))

/-- O19. An instruction load that is not denied holds its code, leaves the scan ring, and captures: IDCODE its value, BYPASS
and CLAMP 0, SAMPLE/PRELOAD the functional value of each boundary cell or else its pad, and then updates the boundary
register; nothing else but the pins of the chips and the scan registers changes beside the SCAN wake event of its TCK edges.
While EXTEST is loaded a further scan captures and updates the boundary register. (R223, R224, R225, R226, R118) -/
def Obligations.AcceptedScanLoads : Prop :=
  ∀ (s : State) (pads up : BitVec 76), s.tapLive = true →
    (∀ (i : Instr) (code : Nat), (i, code) ∈ [(Instr.extest true pads up, 0), (Instr.samplePreload pads up, 1), (Instr.idcode, 2), (Instr.clamp, 3), (Instr.hubstat, 0x10),
        (Instr.hubcmd, 0x11), (Instr.dbgreg, 0x12), (Instr.dumpRead, 0x13), (Instr.lcsReq, 0x20), (Instr.certLoad, 0x21), (Instr.bypass, 0xFF)] →
      s.scanDenial code = none →
      ∃ t, exec i s = .next t ∧ t.scan.ir = code ∧ t.scan.denied = false ∧ t.scan.lapsed = false ∧ t.scan.tlr = false ∧
        t.scan.slots = s.scan.slots ∧ t.scan.nextSeq = s.scan.nextSeq ∧ t.scan.drCursor = s.scan.drCursor ∧
        (code = 2 → t.scan.capture = 0x0C4D1A3B) ∧ (code = 3 ∨ code = 0xFF → t.scan.capture = 0) ∧
        (code ≠ 1 → t.scan.boundary = s.scan.boundary) ∧
        (code = 1 → t.scan.boundary = up ∧ ∀ n, n < 76 → t.scan.capture.testBit n = (s.cell n).getD (pads.getLsbD n)) ∧
        (∀ f, { t.chip f with stopIn := (s.chip f).stopIn } = s.chip f) ∧
        { t with scan := s.scan, chips := s.chips } = s.tck) ∧
    (s.scanSel 0 = true →
      ∃ t, exec (.extest false pads up) s = .next t ∧ t.scan = { s.scan with capture := t.scan.capture, boundary := up } ∧
        (∀ n, n < 76 → t.scan.capture.testBit n = (s.cell n).getD (pads.getLsbD n)) ∧
        (∀ f, { t.chip f with stopIn := (s.chip f).stopIn } = s.chip f) ∧ { t with scan := s.scan, chips := s.chips } = s.tck)

/-- O20. Capture-IR loads 0b01, DENIED of the last load, FAST_UP, the level of HUB_READY and zeros, and changes nothing else
beside the SCAN wake event. Test-Logic-Reset selects IDCODE and clears the denial, the boundary register and the validity of
captures. HUBSTAT captures the lifecycle state, its leading bits, UNIT_ID, FAST_UP and the sticky flags, which it then
clears, with the flags 0 in SCRAPPED. (R220) -/
def Obligations.CaptureIrHubstatAndReset : Prop :=
  (∀ s : State, s.tapLive = true →
     (∃ t, exec .captureIr s = .next t ∧ { t with scan := s.scan } = s.tck ∧ { t.scan with captureIr := s.scan.captureIr } = s.scan ∧
       fld t.scan.captureIr 0 2 = 1 ∧ bit t.scan.captureIr 2 = s.scan.denied ∧ bit t.scan.captureIr 3 = s.fastUp ∧
       bit t.scan.captureIr 4 = s.readyPad ∧ fld t.scan.captureIr 5 3 = 0) ∧
     (∃ t, exec .testLogicReset s = .next t ∧ { t with scan := s.scan, chips := s.chips } = s ∧
       (∀ f, { t.chip f with stopIn := (s.chip f).stopIn } = s.chip f) ∧
       t.scan = { s.scan with tlr := true, ir := 2, denied := false, lapsed := false, boundary := 0, capValid := false, blkValid := false }) ∧
     (s.now % 1000 ≠ 0 → s.tck = { s with pwr := { s.pwr with coming := s.pwr.coming ++ [(5, 0)] } }) ∧
     (s.now % 1000 = 0 → s.fastUp = true → s.tck = { s with pwr := { s.pwr with events := s.pwr.events ||| 2 ^ 5 } })) ∧
  (∀ s : State, s.tapLive = true → s.scanSel 0x10 = true → s.lcs.state < 16 → s.lcs.leading < 8 →
     ∃ t, exec .hubstatCapture s = .next t ∧ { t with scan := s.scan } = s.tck ∧
       t.scan = { s.scan with capture := t.scan.capture, scanLost := false, sringDrop := false } ∧
       fld t.scan.capture 0 4 = s.lcs.state ∧ fld t.scan.capture 4 3 = s.lcs.leading ∧ fld t.scan.capture 64 128 = s.fuses.unitId.toNat ∧
       (s.lcs.state ≠ 6 → bit t.scan.capture 28 = s.scan.scanLost ∧ bit t.scan.capture 29 = s.scan.sringDrop ∧ bit t.scan.capture 10 = s.fastUp ∧ bit t.scan.capture 11 = s.readyPad) ∧
       (s.lcs.state = 6 → bit t.scan.capture 28 = false ∧ bit t.scan.capture 29 = false ∧ bit t.scan.capture 10 = false))

/-- O21. A POST takes a free slot with the next SEQ, and with none free sets SRING_DROP alone; a POP frees the slot whose
completion this scan captured and otherwise does nothing; the capture shows the oldest completion. While strokes may not
start, the updates of HUBCMD, DUMP_READ, LCS_REQ and CERT_LOAD are discarded and SCAN_LOST is set, and the captures of
HUBCMD, CERT_LOAD and DUMP_READ show 0, but for SRING_DROP. (R227, R230, R231, R232, R243) -/
def Obligations.ScanRingPostsAndPops : Prop :=
  (∀ (s : State) (d : BitVec 512), s.tapLive = true → s.scanSel 0x11 = true → s.fastUp = true →
     (s.scan.slots.length < 8 →
       ∃ t, exec (.hubcmdPost d) s = .next t ∧ t.scan.nextSeq = (s.scan.nextSeq + 1) % 65536 ∧ t.scan.sringDrop = s.scan.sringDrop ∧
         t.scan.slots = s.scan.slots ++ [({ seq := s.scan.nextSeq, desc := d } : ScanSlot)] ∧
         (s.scan.item = none → (∀ x ∈ s.scan.slots, x.cpl.isSome = true) → ∃ i, t.scan.item = some i ∧ i.desc = d) ∧
         (∀ i, s.scan.item = some i → t.scan.item = some i) ∧ t.rings = s.rings ∧ t.host = s.host ∧ t.store = s.store ∧ t.chips = s.chips ∧ t.counters = s.counters) ∧
     (¬ s.scan.slots.length < 8 →
       ∃ t, exec (.hubcmdPost d) s = .next t ∧ t.scan = { s.scan with sringDrop := true } ∧ { t with scan := s.scan } = s.tck) ∧
     (∃ t, exec .hubcmdPop s = .next t ∧ { t with scan := s.scan } = s.tck ∧
       (s.scan.capValid = true → t.scan = { s.scan with slots := s.scan.slots.drop 1, capValid := false }) ∧
       (s.scan.capValid = false → t.scan = s.scan)) ∧
     (∃ t, exec .hubcmdCapture s = .next t ∧ { t with scan := s.scan } = s.tck ∧ t.scan.slots = s.scan.slots ∧
       t.scan.capValid = s.oldestCpl.isSome ∧ bit t.scan.capture 520 = s.oldestCpl.isSome ∧ bit t.scan.capture 521 = true ∧
       (∀ w, s.oldestCpl = some w → w < 2 ^ 64 → fld t.scan.capture 0 64 = w))) ∧
  (∀ s : State, s.tapLive = true → s.fastUp = false →
     (∀ i : Instr,
       (((∃ d, i = .hubcmdPost d) ∨ i = .hubcmdPop) ∧ s.scanSel 0x11 = true ∨
        ((∃ a b, i = .dumpReadStart a b) ∨ i = .dumpReadRepeat ∨ i = .dumpReadAdvance) ∧ s.scanSel 0x13 = true ∨
        (∃ d, i = .lcsReqSubmit d) ∧ s.scanSel 0x20 = true ∨ (∃ d, i = .certLoadSubmit d) ∧ s.scanSel 0x21 = true) →
       ∃ t, exec i s = .next t ∧ t.scan = { s.scan with scanLost := true } ∧ { t with scan := s.scan } = s.tck) ∧
     (s.scanSel 0x11 = true →
       ∃ t, exec .hubcmdCapture s = .next t ∧ { t with scan := s.scan } = s.tck ∧
         t.scan = { s.scan with capture := if s.scan.sringDrop then 2 ^ 522 else 0, capValid := false, scanLost := true }) ∧
     (s.scanSel 0x21 = true →
       ∃ t, exec .certLoadCapture s = .next t ∧ { t with scan := s.scan } = s.tck ∧ t.scan = { s.scan with capture := 0, scanLost := true }) ∧
     (s.scanSel 0x13 = true →
       ∃ t, exec .dumpReadCapture s = .next t ∧ { t with scan := s.scan } = s.tck ∧ t.scan = { s.scan with capture := 0, blkValid := false }))

/-- O22. DUMP_READ's START sets the cursor and the range and reads the first blocks into its buffer, REPEAT keeps the
cursor, an advance moves it past a block captured, and a capture shows the buffered block at the cursor, or END. A DBGREG
access with its level has the effect of a host access at its offset; without it, it is denied and counted; outside the PWR
and LCS blocks while strokes may not start it is not performed; an address with a low bit set is a misuse (log entries 40,
81 to 83). (R236, R237, R238, R239, R244) -/
def Obligations.DumpReadsAndDebugRegisters : Prop :=
  (∀ (s : State) (first count : Nat), s.tapLive = true → s.scanSel 0x13 = true → s.fastUp = true → first < 2 ^ 24 → count < 2 ^ 24 →
     (∃ t, exec (.dumpReadStart first count) s = .next t ∧ t.scan.drFirst = first ∧ t.scan.drCursor = first ∧ t.scan.drOn = true ∧
       t.scan.drBuf = [] ∧ t.scan.drTab = [] ∧ t.scan.blkValid = false ∧ t.scan.slots = s.scan.slots ∧
       t.scan.drCount = (if count = 0 then s.dsBlocks - first else Nat.min count (s.dsBlocks - first)) ∧
       (s.lcs.state ≠ 4 → t.scan.drTags = 0 ∧ t.scan.drSalt = s.scan.drSalt ∧ t.scan.drSealed = false) ∧
       (s.lcs.state = 4 → t.scan.drSalt = (s.tck.freeWide 128).1 ∧ t.scan.drSealed = true) ∧
       (∀ b ∈ t.bursts, b ∈ s.bursts ∨ b.refill = true ∧ b.write = false ∧ b.len = 512 ∧ ∃ j, j < 3 ∧ j < t.scan.drCount ∧ b.addr = 512 * (first + j)) ∧
       (s.bursts = [] → s.dmp.surviving = false → t.scan.drCount ≠ 0 → ∃ b ∈ t.bursts, b.refill = true ∧ b.addr = 512 * first) ∧
       { t with scan := s.scan, freeIx := s.freeIx, bursts := s.bursts, htu := s.htu } = s.tck) ∧
     (∃ t, exec .dumpReadRepeat s = .next t ∧ t.scan = { s.scan with blkValid := false } ∧ { t with scan := s.scan } = s.tck) ∧
     (∃ t, exec .dumpReadAdvance s = .next t ∧ { t with scan := s.scan, bursts := s.bursts, htu := s.htu } = s.tck ∧
       t.scan.drFirst = s.scan.drFirst ∧ t.scan.drCount = s.scan.drCount ∧
       t.scan.drCursor = (if s.scan.blkValid then s.scan.drCursor + 1 else s.scan.drCursor)) ∧
     (s.lcs.state ≠ 4 → s.scan.drCursor < 2 ^ 24 →
       ∃ t, exec .dumpReadCapture s = .next t ∧ { t with scan := s.scan, bursts := s.bursts, htu := s.htu } = s.tck ∧
         t.scan.drCursor = s.scan.drCursor ∧ fld t.scan.capture 0 24 = s.scan.drCursor ∧
         bit t.scan.capture 24 = t.scan.blkValid ∧ bit t.scan.capture 27 = s.lcs.wipePending ∧
         (∀ d, tget [] s.scan.drBuf s.scan.drCursor = d → d.length = 512 → s.scan.drOn = true → s.scan.drFirst ≤ s.scan.drCursor →
           s.scan.drCursor < s.scan.drFirst + s.scan.drCount → s.boot.dsSize ≠ 0 → s.lcs.wipePending = false →
           t.scan.blkValid = true ∧ bit t.scan.capture 26 = false ∧ fld t.scan.capture 32 32 = crc32 d ∧ fld t.scan.capture 64 4096 = leNat d) ∧
         (s.boot.dsSize = 0 ∨ (s.scan.drOn = true ∧ s.scan.drEnd ≤ s.scan.drCursor) → t.scan.blkValid = false ∧ bit t.scan.capture 26 = true ∧ fld t.scan.capture 64 4096 = 0))) ∧
  (∀ (s : State) (off v : Nat), s.tapLive = true → s.scanSel 0x12 = true → off < 2 ^ 20 → v < 2 ^ 32 → s.rstReaches off = false →
     (off % 4 = 0 → (pwrLcs off = true ∨ s.fastUp = true) → 1 ≤ s.workLevel .scan 128 →
       ∃ t, exec (.dbgregRead off) s = .next t ∧ t.scan.dbgDone = true ∧ t.scan.dbgDenied = false ∧ t.scan.dbgAddr = off ∧
         t.scan.dbgRdata = BitVec.ofNat 32 ((s.tck.dbgGo off false).bar0Read off 4).1 ∧
         { t with scan := s.scan } = { ((s.tck.dbgGo off false).bar0Read off 4).2 with scan := s.scan }) ∧
     (off % 4 = 0 → (pwrLcs off = true ∨ s.fastUp = true) → 2 ≤ s.workLevel .scan 128 →
       (∃ t, exec (.dbgregWrite off v) s = .next t ∧ t.scan.dbgDone = true ∧ t.scan.dbgDenied = false ∧ t.scan.dbgAddr = off ∧ t.scan.dbgWrite = true ∧
         { t with scan := s.scan } = { (s.tck.dbgGo off true).bar0Take off 4 v with scan := s.scan }) ∧
       (s.served0 off = true → s.misuses = [] → writeMisuse off 4 v = none →
         (s.tck.dbgGo off true).bar0Take off 4 v = (s.tck.dbgGo off true).bar0Write off 4 v)) ∧
     (off % 4 = 0 → pwrLcs off = false → s.fastUp = false →
       ∃ t, exec (.dbgregRead off) s = .next t ∧ t.scan.dbgAsleep = true ∧ t.scan.dbgDone = false ∧ t.scan.scanLost = true ∧ { t with scan := s.scan } = s.tck) ∧
     (off % 4 = 0 → (pwrLcs off = true ∨ s.fastUp = true) → s.workLevel .scan 128 < 2 →
       ∃ t, exec (.dbgregWrite off v) s = .next t ∧ t.scan.dbgDone = true ∧ t.scan.dbgDenied = true ∧
         t.auth.denyCnt = satAdd s.auth.denyCnt 1 32 ∧ fld t.auth.denyLast 0 8 = 0x12 ∧ t.rings = s.rings ∧ t.counters = s.counters ∧ t.chips = s.chips ∧ t.run = s.run) ∧
     (off % 4 ≠ 0 →
       (∃ t, exec (.dbgregRead off) s = .next t ∧ t.scan.dbgDone = true ∧ t.scan.dbgAddr = off ∧ { t with scan := s.scan, freeIx := s.freeIx } = s.tck) ∧
       (∃ t, exec (.dbgregWrite off v) s = .next t ∧ t.scan.dbgAddr = off ∧ (off / 4 * 4, false) ∈ t.misuses ∧
         { t with scan := s.scan, freeIx := s.freeIx, misuses := s.misuses } = s.tck)) ∧
     (∃ t, exec .dbgregCapture s = .next t ∧ { t with scan := s.scan } = s.tck ∧ bit t.scan.capture 53 = s.scan.dbgDone ∧ bit t.scan.capture 54 = s.scan.dbgDenied ∧
       bit t.scan.capture 55 = s.scan.dbgAsleep ∧ ((pwrLcs s.scan.dbgAddr = true ∨ s.fastUp = true) → s.scan.dbgAddr < 2 ^ 20 → fld t.scan.capture 0 32 = s.scan.dbgRdata.toNat ∧
         fld t.scan.capture 32 20 = s.scan.dbgAddr)))

/-- O23. SUBMIT posts a hub-core request of the scan path while a slot of the bound is free and none of its kind is served,
and while one is, the answer BUSY stands in the result; NEW_NONCE draws a nonce, a free value (log entry 2); the captures
show the status registers. (R180, R227, R234, R235, R243) -/
def Obligations.ScanRequestsAndNonce : Prop :=
  ∀ (s : State) (d : BitVec 2048) (c : BitVec 4096), s.tapLive = true →
    (s.scanSel 0x20 = true → s.fastUp = true → s.coreFree true = true → s.coreBusy 0 = false →
      ∃ t, exec (.lcsReqSubmit d) s = .next t ∧ t.hub.coreQ = s.hub.coreQ ++ [(none, 0 :: 1 :: (leBytes 256 d.toNat).map BitVec.toNat)] ∧ { t with hub := s.hub, sramClean := s.sramClean } = s.tck) ∧
    (s.scanSel 0x20 = true → s.fastUp = true → s.coreFree true = true → s.coreBusy 0 = true →
      ∃ t, exec (.lcsReqSubmit d) s = .next t ∧ t.hub = s.hub ∧ t.lcs.result = 0xB ∧ t.lcs.nonce = s.lcs.nonce ∧ t.lcs.nonceValid = s.lcs.nonceValid ∧ t.lcs.state = s.lcs.state) ∧
    (s.scanSel 0x21 = true → s.fastUp = true → s.coreFree true = true → s.coreBusy 1 = false →
      ∃ t, exec (.certLoadSubmit c) s = .next t ∧ t.hub.coreQ = s.hub.coreQ ++ [(none, 1 :: 1 :: (leBytes 512 c.toNat).map BitVec.toNat)] ∧ { t with hub := s.hub, sramClean := s.sramClean } = s.tck) ∧
    (s.scanSel 0x21 = true → s.fastUp = true → s.coreFree true = true → s.coreBusy 1 = true →
      ∃ t, exec (.certLoadSubmit c) s = .next t ∧ t.hub = s.hub ∧ t.auth.result = 0xB ∧ t.auth.certs = s.auth.certs) ∧
    (s.scanSel 0x20 = true →
      ∃ t, exec .lcsReqNewNonce s = .next t ∧ t.lcs = { s.lcs with nonce := (s.tck.freeWide 128).1, nonceValid := true } ∧ { t with lcs := s.lcs, freeIx := s.freeIx } = s.tck) ∧
    (s.scanSel 0x20 = true → s.lcsStatus < 2 ^ 32 → s.lcsState < 2 ^ 32 →
      ∃ t, exec .lcsReqCapture s = .next t ∧ { t with scan := { t.scan with capture := s.scan.capture } } = s.tck ∧ fld t.scan.capture 0 32 = s.lcsStatus ∧
        fld t.scan.capture 32 32 = s.lcsState ∧ fld t.scan.capture 64 128 = s.lcs.nonce.toNat ∧ bit t.scan.capture 192 = s.lcs.nonceValid) ∧
    (s.scanSel 0x21 = true → s.fastUp = true → s.certStatus < 2 ^ 32 →
      ∃ t, exec .certLoadCapture s = .next t ∧ { t with scan := { t.scan with capture := s.scan.capture } } = s.tck ∧ fld t.scan.capture 0 32 = s.certStatus ∧
        fld t.scan.capture 32 32 = s.certSlots)

/-- O24. A fall of the stop input, an armed toll whose time has come and a toll armed with its time past halt every unit: a
running core has the cause to enter its monitor with, a running engine muffles, an idle one is MUFFLED at once with
LAST_DONE and STREAM_ID unchanged, a halted one is unchanged. A toll armed in time, or not yet reached, waits. (R43, R95,
R375, R377, R383) -/
def Obligations.ChipStopsHaltEveryUnit : Prop :=
  ∀ (s : State) (f : Nat), f < 128 → (s.chip f).inReset = false →
    (s.stopPad (f / 16) = false → (s.chip f).seenHigh = true → (s.chip f).stopIn = true →
      ∃ t c, exec (.chipStopInputFall f) s = .next t ∧ ChipStep s t f c ∧ (s.chip f).haltedBy c (s.chipTime f) 1 ∧ c.stopIn = false ∧
        ((s.chip f).cntPend = none → c.stops = ((s.chip f).stops + 1) % 2 ^ 32) ∧ c.stopReq = (s.chip f).stopReq) ∧
    (∀ T, (s.chip f).toll = some T → T ≤ s.chipTime f →
      ∃ t c, exec (.tollFire f) s = .next t ∧ ChipStep s t f c ∧ (s.chip f).haltedBy c (s.chipTime f) 2 ∧ c.toll = none ∧ c.tollFired = true ∧
        c.tollLate = (s.chip f).tollLate ∧ c.stopReq = true) ∧
    (∀ T, (s.chip f).toll = some T → s.chipTime f < T → ∃ t, exec (.tollFire f) s = .next t ∧ ChipStep s t f (s.chip f)) ∧
    ((∀ T, (s.chip f).toll = some T → s.chipTime f ≤ T) → (s.chip f).tollLo + (s.chip f).tollHi * 2 ^ 32 ≤ s.chipTime f →
      ∃ t c, exec (.tollArm f) s = .next t ∧ ChipStep s t f c ∧ (s.chip f).haltedBy c (s.chipTime f) 2 ∧ c.toll = none ∧ c.tollFired = true ∧
        c.tollLate = decide ((s.chip f).tollLo + (s.chip f).tollHi * 2 ^ 32 < s.chipTime f)) ∧
    ((∀ T, (s.chip f).toll = some T → s.chipTime f ≤ T) → s.chipTime f < (s.chip f).tollLo + (s.chip f).tollHi * 2 ^ 32 →
      ∃ t, exec (.tollArm f) s = .next t ∧
        ChipStep s t f { s.chip f with toll := some ((s.chip f).tollLo + (s.chip f).tollHi * 2 ^ 32), tollFired := false, tollLate := false })

/-- O25. A GO acts on the selected units and clears the selection: a halt gives each running core its cause and muffles each
running or idle engine, a resume lets cores and halted engines run; with AT a future time it becomes the pending action,
which is performed once the chip's time reaches it and not before. WDA_FORCE abandons the command of every engine still
MUFFLING; WDA_LINK_MUFFLE holds the links named. (R45, R388, R389, R410, R418, R419) -/
def Obligations.RunControlGo : Prop :=
  (∀ (s : State) (f : Nat) (all : Bool), f < 128 → (s.chip f).inReset = false →
     (∃ t c, exec (.rcGoHalt f false all) s = .next t ∧ ChipStep s t f c ∧ c.selCores = 0 ∧ c.selEng = [] ∧ c.timed = none ∧
       (∀ i, i < 32 → (all || bit (s.chip f).selCores i) = true → ((s.chip f).core i).state = .running →
         (c.core i).pend = ((s.chip f).core i).pend ++ [3]) ∧
       (∀ e, e < 512 → (all || bit (tget 0 (s.chip f).selEng (e / 32)) (e % 32)) = true →
         (((s.chip f).eng e).state = .running → (c.eng e).state = .muffling ∧ (c.eng e).cause = 3) ∧
         (((s.chip f).eng e).state = .idle → (c.eng e).state = .muffled ∧ (c.eng e).cause = 3)) ∧
       (∀ i, i < 32 → (all || bit (s.chip f).selCores i) = false → c.core i = (s.chip f).core i) ∧
       (∀ e, e < 512 → (all || bit (tget 0 (s.chip f).selEng (e / 32)) (e % 32)) = false → c.eng e = (s.chip f).eng e)) ∧
     (∃ t c, exec (.rcGoResume f false all) s = .next t ∧ ChipStep s t f c ∧ c.selCores = 0 ∧ c.selEng = [] ∧ c.timed = none ∧
       ((∀ e, e < 512 → ((s.chip f).eng e).cmpEn = false) → (∀ T x r, (s.chip f).lastStop = some (T, x, r) → T ≠ s.chipTime f) →
         (∀ i, i < 32 → (all || bit (s.chip f).selCores i) = true → ((s.chip f).core i).state = .monitor → (c.core i).state = .running) ∧
         (∀ e, e < 512 → (all || bit (tget 0 (s.chip f).selEng (e / 32)) (e % 32)) = true → ((s.chip f).eng e).state.halted = true →
           (c.eng e).state = .running ∨ (c.eng e).state = .idle) ∧
         (∀ i, i < 32 → (all || bit (s.chip f).selCores i) = false → c.core i = (s.chip f).core i) ∧
         (∀ e, e < 512 → (all || bit (tget 0 (s.chip f).selEng (e / 32)) (e % 32)) = false → c.eng e = (s.chip f).eng e))) ∧
     (∀ resume : Bool, s.chipTime f < (s.chip f).rcAtLo + (s.chip f).rcAtHi * 2 ^ 32 →
       ∃ t, exec (if resume then .rcGoResume f true all else .rcGoHalt f true all) s = .next t ∧
         ChipStep s t f { s.chip f with selCores := 0, selEng := [], timed := some { cores := (s.chip f).selCores, engs := (s.chip f).selEng, all := all, resume := resume, at_ := (s.chip f).rcAtLo + (s.chip f).rcAtHi * 2 ^ 32 } }) ∧
     (∀ g, (s.chip f).timed = some g → g.at_ ≤ s.chipTime f → g.resume = false →
       ∃ t c, exec (.timedAction f) s = .next t ∧ ChipStep s t f c ∧ c.timed = none ∧
         (∀ e, e < 512 → (g.all || bit (tget 0 g.engs (e / 32)) (e % 32)) = true → ((s.chip f).eng e).state = .running → (c.eng e).state = .muffling ∧ (c.eng e).cause = 3) ∧
         (∀ e, e < 512 → (g.all || bit (tget 0 g.engs (e / 32)) (e % 32)) = false → c.eng e = (s.chip f).eng e)) ∧
     (∀ g, (s.chip f).timed = some g → s.chipTime f < g.at_ → ∃ t, exec (.timedAction f) s = .next t ∧ ChipStep s t f (s.chip f))) ∧
  (∀ (s : State) (f mask : Nat), f < 128 → (s.chip f).inReset = false →
     (∃ t c, exec (.wdaForce f) s = .next t ∧ ChipStep s t f c ∧ c.cores = (s.chip f).cores ∧
       ∀ e, e < 512 →
         (((s.chip f).eng e).state = .muffling → (c.eng e).state = .forced ∧ (c.eng e).cause = 5 ∧ (c.eng e).current = ((s.chip f).eng e).current ∧
           (c.eng e).lastDone = ((s.chip f).eng e).lastDone ∧ (c.eng e).forcedCnt = (((s.chip f).eng e).forcedCnt + 1) % 2 ^ 16) ∧
         (((s.chip f).eng e).state ≠ .muffling → c.eng e = (s.chip f).eng e)) ∧
     (∃ t c, exec (.wdaLinkMuffle f mask) s = .next t ∧ ChipStep s t f c ∧ { c with links := (s.chip f).links } = s.chip f ∧
       ∀ n, n < 12 → c.link n = { (s.chip f).link n with muffle := bit mask n || ((s.chip f).link n).muffle }))

/-- O26. A core with causes pending enters its monitor with the first of them; a core in MONITOR steps one instruction and
returns with cause STEP, or runs on when it was resumed. An engine's completion counts and starts the next command, or
leaves it MUFFLED while muffling or IDLE at the stream's end; a step runs one command of a muffled engine or reissues a
forced one; a loaded stream starts at command 0, waits on a muffled or forced engine, and is not loaded while no core runs.
(R42, R43, R44, R46, R375, R377, R391, R392) -/
def Obligations.CoresAndEnginesStep : Prop :=
  (∀ (s : State) (f i pc : Nat), f < 128 → i < 32 → pc < 2 ^ 32 → (s.chip f).inReset = false →
     (((s.chip f).core i).state = .running → ((s.chip f).core i).pend ≠ [] →
       ∃ t c, exec (.coreDebugEntry f i pc) s = .next t ∧ ChipStep s t f c ∧ c.engines = (s.chip f).engines ∧
         c.core i = { ((s.chip f).core i).mishalt with state := .monitor, cause := firstCause ((s.chip f).core i).pend, pend := [], pc := pc, haltAt := s.chipTime f + 1, ctx := (c.core i).ctx } ∧
         (∀ j, j ≠ i → c.core j = (s.chip f).core j) ∧
         ((s.chip f).stopping = true → (∀ j, j < 32 → j ≠ i → ((s.chip f).core j).state ≠ .running) → c.stopSeen = true)) ∧
     (((s.chip f).core i).state = .monitor →
       ∃ t c, exec (.coreStep f i) s = .next t ∧ ChipStep s t f c ∧ (c.core i).state = .stepping ∧ c.engines = (s.chip f).engines ∧
         (c.core i).cause = ((s.chip f).core i).cause ∧ (∀ j, j ≠ i → c.core j = (s.chip f).core j)) ∧
     (((s.chip f).core i).state ≠ .monitor → ∃ t, exec (.coreStep f i) s = .next t ∧ ChipStep s t f (s.chip f)) ∧
     (((s.chip f).core i).state = .stepping → ((s.chip f).core i).resumeStep = false →
       ∃ t c, exec (.coreStepEnd f i pc) s = .next t ∧ ChipStep s t f c ∧ c.engines = (s.chip f).engines ∧
         c.core i = { (s.chip f).core i with state := .monitor, pc := pc, cause := 4, ctx := (c.core i).ctx } ∧ (∀ j, j ≠ i → c.core j = (s.chip f).core j)) ∧
     (((s.chip f).core i).state = .stepping → ((s.chip f).core i).resumeStep = true →
       ∃ t c, exec (.coreStepEnd f i pc) s = .next t ∧ ChipStep s t f c ∧ (c.core i).state = .running ∧ (c.core i).cause = 4 ∧ (c.core i).pc = pc)) ∧
  (∀ (s : State) (f e : Nat), f < 128 → e < 512 → (s.chip f).inReset = false → ((s.chip f).eng e).cmpEn = false →
     (((s.chip f).eng e).state = .muffling →
       ∃ t c, exec (.engineCommandComplete f e) s = .next t ∧ ChipStep s t f c ∧ c.cores = (s.chip f).cores ∧
         (c.eng e).state = .muffled ∧ (c.eng e).lastDone = ((s.chip f).eng e).current ∧ (c.eng e).done = (((s.chip f).eng e).done + 1) % 2 ^ 32 ∧
         (c.eng e).cause = (if ((s.chip f).eng e).stepping then 4 else ((s.chip f).eng e).cause) ∧ (∀ j, j ≠ e → c.eng j = (s.chip f).eng j)) ∧
     (((s.chip f).eng e).state = .running →
       ∃ t c, exec (.engineCommandComplete f e) s = .next t ∧ ChipStep s t f c ∧ c.cores = (s.chip f).cores ∧
         (c.eng e).lastDone = ((s.chip f).eng e).current ∧ (∀ j, j ≠ e → c.eng j = (s.chip f).eng j) ∧
         (if (((s.chip f).eng e).current + 1) % 2 ^ 32 < ((s.chip f).eng e).len
          then (c.eng e).state = .running ∧ (c.eng e).current = (((s.chip f).eng e).current + 1) % 2 ^ 32 else (c.eng e).state = .idle)) ∧
     (((s.chip f).eng e).state.busy = false →
       ∃ t, exec (.engineCommandComplete f e) s = .next t ∧ ChipStep s t f (s.chip f)) ∧
     (((s.chip f).eng e).state = .muffled → (((s.chip f).eng e).lastDone + 1) % 2 ^ 32 < ((s.chip f).eng e).len →
       ∃ t c, exec (.engStep f e) s = .next t ∧ ChipStep s t f c ∧ c.cores = (s.chip f).cores ∧ (c.eng e).state = .muffling ∧ (c.eng e).stepping = true ∧
         (c.eng e).current = (((s.chip f).eng e).lastDone + 1) % 2 ^ 32 ∧ (∀ j, j ≠ e → c.eng j = (s.chip f).eng j)) ∧
     (((s.chip f).eng e).state = .muffled → ¬ (((s.chip f).eng e).lastDone + 1) % 2 ^ 32 < ((s.chip f).eng e).len →
       ∃ t, exec (.engStep f e) s = .next t ∧ ChipStep s t f (s.chip f)) ∧
     (((s.chip f).eng e).state = .forced → ((s.chip f).eng e).current < ((s.chip f).eng e).len →
       ∃ t c, exec (.engStep f e) s = .next t ∧ ChipStep s t f c ∧ (c.eng e).state = .muffling ∧ (c.eng e).current = ((s.chip f).eng e).current) ∧
     (∀ id n, (s.chip f).canLoad = false → ∃ t, exec (.streamLoad f e id n) s = .next t ∧ ChipStep s t f (s.chip f)) ∧
     (∀ id n, id < 2 ^ 32 → 0 < n → n < 2 ^ 32 → (s.chip f).canLoad = true → (s.chip f).resetHold = false → ((s.chip f).eng e).state = .idle →
       ∃ t c, exec (.streamLoad f e id n) s = .next t ∧ ChipStep s t f c ∧ (c.eng e).state = .running ∧ (c.eng e).streamId = id ∧ (c.eng e).len = n ∧
         (c.eng e).current = 0 ∧ (c.eng e).lastDone = 0xFFFFFFFF ∧ (∀ j, j ≠ e → c.eng j = (s.chip f).eng j)) ∧
     (∀ id n, id < 2 ^ 32 → n < 2 ^ 32 → (s.chip f).canLoad = true → (s.chip f).resetHold = false →
         ((s.chip f).eng e).state = .muffled ∨ ((s.chip f).eng e).state = .forced →
       ∃ t c, exec (.streamLoad f e id n) s = .next t ∧ ChipStep s t f c ∧ (c.eng e).state = ((s.chip f).eng e).state ∧ (c.eng e).streamId = id ∧
         (c.eng e).len = n ∧ (c.eng e).lastDone = 0xFFFFFFFF ∧ (((s.chip f).eng e).state = .forced → (c.eng e).current = 0)))

/-- O27. An enabled breakpoint at the PC, a watchpoint, and an engine comparator after or before its command halt their own
unit with its HIT cause and set the hit bit; a breakpoint just resumed from is passed once without a hit (log entry 48). No
other unit of the chip changes for reach 0. (R393, R394, R408) -/
def Obligations.HitsHaltTheirUnit : Prop :=
  ∀ (s : State) (f i n pc : Nat) (first : Bool), f < 128 → pc < 2 ^ 32 → (s.chip f).inReset = false →
    (i < 32 → n < 8 → ((s.chip f).core i).state = .running → (tget {} ((s.chip f).core i).brk n).en = true →
      (tget {} ((s.chip f).core i).brk n).addr = pc → (first = false ∨ ((s.chip f).core i).skipBrk ≠ some pc) → (tget {} ((s.chip f).core i).brk n).reach = 0 →
      ∃ t c, exec (.hit f false i n pc first) s = .next t ∧ ChipStep s t f c ∧ (c.core i).state = .monitor ∧ (c.core i).cause = 0x40 + n ∧ (c.core i).pc = pc ∧
        (tget {} (c.core i).brk n).hit = true ∧ (∀ j, j ≠ i → c.core j = (s.chip f).core j) ∧ c.engines = (s.chip f).engines ∧
        c.alertNum = ((s.chip f).alertNum + 1) % 64 ∧ c.alerts ≠ []) ∧
    (i < 32 → n < 8 → ((s.chip f).core i).state = .running → (tget {} ((s.chip f).core i).brk n).en = true →
      (tget {} ((s.chip f).core i).brk n).addr = pc → ((s.chip f).core i).skipBrk = some pc → ((s.chip f).core i).brkOdd = 0 →
      ∃ t, exec (.hit f false i n pc true) s = .next t ∧ ChipStep s t f (s.chip f)) ∧
    (i < 32 → n < 4 → (((s.chip f).core i).state = .running ∨ ((s.chip f).core i).state = .stepping) →
      (tget {} ((s.chip f).core i).wp n).en = true → (tget {} ((s.chip f).core i).wp n).reach = 0 →
      ∃ t c, exec (.hit f false i (8 + n) pc first) s = .next t ∧ ChipStep s t f c ∧ (c.core i).state = .monitor ∧ (c.core i).cause = 0x48 + n ∧ (c.core i).pc = pc ∧
        (tget {} (c.core i).wp n).hit = true ∧ (∀ j, j ≠ i → c.core j = (s.chip f).core j)) ∧
    (i < 512 → ((s.chip f).eng i).state = .running → ((s.chip f).eng i).brkOdd = 0 → ((s.chip f).eng i).cmpEn = true → ((s.chip f).eng i).cmpAfter = true → ((s.chip f).eng i).cmpReach = 0 →
      ((s.chip f).eng i).cmpIndex = ((s.chip f).eng i).current → ((s.chip f).eng i).cmpStream = 0 →
      ∃ t c, exec (.hit f true i 12 pc first) s = .next t ∧ ChipStep s t f c ∧ (c.eng i).state = .muffled ∧ (c.eng i).cause = 0x4C ∧ (c.eng i).cmpHit = true ∧
        (c.eng i).lastDone = ((s.chip f).eng i).current ∧ (∀ j, j ≠ i → c.eng j = (s.chip f).eng j) ∧ c.cores = (s.chip f).cores ∧ c.alerts ≠ []) ∧
    (i < 512 → ((s.chip f).eng i).state = .running → ((s.chip f).eng i).brkOdd = 0 → ((s.chip f).eng i).cmpEn = true → ((s.chip f).eng i).cmpAfter = false → ((s.chip f).eng i).cmpReach = 0 →
      ((s.chip f).eng i).cmpSkip ≠ ((s.chip f).eng i).cmpIndex + 1 → (((s.chip f).eng i).current + 1) % 2 ^ 32 < ((s.chip f).eng i).len →
      ((s.chip f).eng i).cmpIndex = (((s.chip f).eng i).current + 1) % 2 ^ 32 → ((s.chip f).eng i).cmpStream = 0 →
      ∃ t c, exec (.hit f true i 12 pc first) s = .next t ∧ ChipStep s t f c ∧ (c.eng i).state = .muffled ∧ (c.eng i).cause = 0x4C ∧ (c.eng i).cmpHit = true ∧
        (c.eng i).lastDone = ((s.chip f).eng i).current ∧ (∀ j, j ≠ i → c.eng j = (s.chip f).eng j))

/-- O28. A chip reset returns the WDA and its units to reset values, with memories of free contents (log entry 6), and
raises the next alert; leaving reset raises the next one, and with the stop input low every core is HELD until it is first
seen high. A WDA holds four alerts at most: a fifth replaces the newest and marks it LOST; numbers go modulo 64. A watchdog
raises none while the peripheral clock is stopped. (R47, R95, R351, R353, R412) -/
def Obligations.ChipResetAlertsAndReady : Prop :=
  (∀ (s : State) (f : Nat), f < 128 →
     (∃ t c, exec (.chipReset f) s = .next t ∧ t.chip f = c ∧ (∀ g, g ≠ f → t.chip g = s.chip g) ∧
       { t with chips := s.chips, freeIx := s.freeIx, pins := { t.pins with stopInLow := s.pins.stopInLow } } = s ∧ t.freeIx = s.freeIx + 1 ∧ c.inReset = true ∧ c.faddr = 0x7F ∧ c.assigned = false ∧
       c.smapLo = 0 ∧ c.smapHi = 0 ∧ c.cores = [] ∧ c.engines = [] ∧ c.links = [] ∧ c.toll = none ∧ c.timed = none ∧ c.tapEn = false ∧ c.fifo = [] ∧ c.ftAdj = (s.chip f).ftAdj ∧
       c.alertNum = ((s.chip f).alertNum + 1) % 64 ∧ c.mem = memOf (Config.freeMemory s.freeIx)) ∧
     ((s.chip f).inReset = true →
       ∃ t c, exec (.chipReady f) s = .next t ∧ ChipStep s t f c ∧ c.inReset = false ∧ c.seenHigh = s.stopPad (f / 16) ∧
         c.alertNum = ((s.chip f).alertNum + 1) % 64 ∧ c.engines = (s.chip f).engines ∧
         (s.stopPad (f / 16) = false → c.clkStopped = true ∧ ∀ i, i < 32 → (c.core i).state = .held) ∧
         (s.stopPad (f / 16) = true → c.cores = (s.chip f).cores)) ∧
     ((s.chip f).inReset = false → (s.chip f).seenHigh = false → s.stopPad (f / 16) = true →
       ∃ t c, exec (.resetHoldEnd f) s = .next t ∧ ChipStep s t f c ∧ c.seenHigh = true ∧ c.resetHold = false ∧
         (∀ i, i < 32 → ((s.chip f).core i).state = .held → (c.core i).state = .running) ∧
         (∀ i, i < 32 → ((s.chip f).core i).state ≠ .held → c.core i = (s.chip f).core i) ∧ c.engines = (s.chip f).engines)) ∧
  (∀ (s : State) (f cause u info : Nat), f < 128 → (s.chip f).inReset = false → u < 2 ^ 17 → info < 2 ^ 32 →
     (1 ≤ cause → cause ≤ 8 → ¬ (cause = 6 ∧ (s.chip f).clkStopped = true) →
       ∃ t c, exec (.alertRaise f cause u info) s = .next t ∧ ChipStep s t f c ∧ c.cores = (s.chip f).cores ∧ c.engines = (s.chip f).engines ∧
         c.alertNum = ((s.chip f).alertNum + 1) % 64 ∧ c.alertCnt = ((s.chip f).alertCnt + 1) % 2 ^ 32 ∧
         (cause ≠ 5 → c.links = (s.chip f).links) ∧
         (if (s.chip f).alerts.length < 4
          then c.alerts = (s.chip f).alerts ++ [{ num := (s.chip f).alertNum, word := cause + u * 256 + info * 2 ^ 32 }]
          else c.alerts = (s.chip f).alerts.dropLast ++ [{ num := (s.chip f).alertNum, word := cause + u * 256 + 2 ^ 31 + info * 2 ^ 32 }])) ∧
     ((s.chip f).clkStopped = true → ∃ t, exec (.alertRaise f 6 u info) s = .next t ∧ ChipStep s t f (s.chip f)))

/-- O29. MBX_IN sets IN_FULL; a core's write of MBX_OUT sets OUT_FULL and raises an alert, and a monitor's answer to a
register read gives the register. A latch copies every live counter of the chip and its engines to the shadow, CLEAR zeroes
them in the same cycle, and a timed latch waits for its time. (R397, R502, R505) -/
def Obligations.MailboxesAndCounterLatches : Prop :=
  (∀ (s : State) (f i : Nat) (v : Word), f < 128 → i < 32 → (s.chip f).inReset = false →
     (∃ t c, exec (.mbxIn f i v) s = .next t ∧ ChipStep s t f c ∧ (c.core i).mbxIn = v ∧ (c.core i).inFull = true ∧ (c.core i).mbxOut = ((s.chip f).core i).mbxOut ∧
       (c.core i).state = ((s.chip f).core i).state ∧ (∀ j, j ≠ i → c.core j = (s.chip f).core j) ∧ c.alerts = (s.chip f).alerts) ∧
     (((s.chip f).core i).answers = true → ((s.chip f).core i).inFull = true → ((s.chip f).core i).monWr = none →
       fld ((s.chip f).core i).mbxIn.toNat 28 4 = 2 →
       ∃ t c, exec (.mbxOut f i v) s = .next t ∧ ChipStep s t f c ∧ (c.core i).monWr = some (fld ((s.chip f).core i).mbxIn.toNat 0 6) ∧
         (c.core i).mbxOut = ((s.chip f).core i).mbxOut ∧ (c.core i).inFull = false ∧ c.alerts = (s.chip f).alerts) ∧
     ((((s.chip f).core i).answers && ((s.chip f).core i).inFull) = false →
       ∃ t c, exec (.mbxOut f i v) s = .next t ∧ ChipStep s t f c ∧ (c.core i).mbxOut = v ∧ (c.core i).outFull = true ∧
         (∀ j, j ≠ i → c.core j = (s.chip f).core j) ∧ c.alertNum = ((s.chip f).alertNum + 1) % 64 ∧ c.alerts ≠ []) ∧
     (((s.chip f).core i).answers = true → ((s.chip f).core i).inFull = true → ((s.chip f).core i).monWr = none →
       fld ((s.chip f).core i).mbxIn.toNat 28 4 = 1 → ((s.chip f).core i).staged = false →
       ∃ t c, exec (.mbxOut f i v) s = .next t ∧ ChipStep s t f c ∧ (c.core i).mbxOut = tget 0 ((s.chip f).core i).ctx (fld ((s.chip f).core i).mbxIn.toNat 0 6) ∧
         (c.core i).outFull = true ∧ (c.core i).inFull = false)) ∧
  (∀ (s : State) (f : Nat) (clear : Bool), f < 128 → (s.chip f).inReset = false →
     (∃ t c, exec (.counterLatch f clear) s = .next t ∧ ChipStep s t f c ∧ c.cntPend = none ∧
       c.shadow = [s.chipTime f, (s.chip f).cmdsDone, (s.chip f).stops, (s.chip f).accepted, (s.chip f).dropped, (s.chip f).gaps, (s.chip f).alertCnt] ∧
       (∀ e, e < 512 → (c.eng e).sDone = ((s.chip f).eng e).done ∧ (c.eng e).sHalts = ((s.chip f).eng e).halts ∧ (c.eng e).sForced = ((s.chip f).eng e).forcedCnt ∧
         (c.eng e).done = (if clear then 0 else ((s.chip f).eng e).done) ∧ (c.eng e).state = ((s.chip f).eng e).state) ∧
       (if clear then c.cmdsDone = 0 ∧ c.stops = 0 ∧ c.accepted = 0 ∧ c.dropped = 0 ∧ c.gaps = 0 ∧ c.alertCnt = 0
        else c.cmdsDone = (s.chip f).cmdsDone ∧ c.stops = (s.chip f).stops ∧ c.accepted = (s.chip f).accepted ∧ c.dropped = (s.chip f).dropped ∧
          c.gaps = (s.chip f).gaps ∧ c.alertCnt = (s.chip f).alertCnt)) ∧
     (∀ T, (s.chip f).cntPend = some (T, clear) → T ≤ s.chipTime f →
       ∃ t c, exec (.timedLatch f) s = .next t ∧ ChipStep s t f c ∧ c.cntPend = none ∧
         c.shadow = [s.chipTime f, (s.chip f).cmdsDone, (s.chip f).stops, (s.chip f).accepted, (s.chip f).dropped, (s.chip f).gaps, (s.chip f).alertCnt]) ∧
     (∀ T, (s.chip f).cntPend = some (T, clear) → s.chipTime f < T → ∃ t, exec (.timedLatch f) s = .next t ∧ ChipStep s t f (s.chip f)))

/-- O30. Turning the taps off flushes, turning them on restarts SEQ, or waits for the flush under way; a record enters the
FIFO after the gap record it owes, and with no room is counted in the gap; a TRACE frame takes up to 256 records numbered in
order, and the FLUSHED record ends a flush. (R491, R492, R493, R494, R348, R506) -/
def Obligations.TapsRecordAndSend : Prop :=
  ∀ (s : State) (f v : Nat), f < 128 → v < 2 ^ 32 → (s.chip f).inReset = false →
    ((s.chip f).tapEn = true →
      ∃ t, exec (.tapEnOff f v) s = .next t ∧ ChipStep s t f { s.chip f with tapBegin := bit v 1, tapEnd := bit v 2, tapClusters := fld v 16 16, tapEn := false, flushing := true, emptied := s.chipTime f }) ∧
    ((s.chip f).tapEn = false → (s.chip f).flushing = false →
      ∃ t, exec (.tapEnOn f v) s = .next t ∧ ChipStep s t f { s.chip f with tapBegin := bit v 1, tapEnd := bit v 2, tapClusters := fld v 16 16, tapEn := true, seq := 0, accSince := 0, flushed := false }) ∧
    ((s.chip f).flushing = true →
      ∃ t, exec (.tapEnOn f v) s = .next t ∧ ChipStep s t f { s.chip f with tapBegin := bit v 1, tapEnd := bit v 2, tapClusters := fld v 16 16, tapResume := true }) ∧
    (∀ x q, (s.chip f).tapQ = x :: q → (s.chip f).gap = none →
      ∃ t c, exec (.tapRecord f) s = .next t ∧ ChipStep s t f c ∧ c.tapQ = q ∧
        (if (s.chip f).fifo.length < 2048 then c.fifo = (s.chip f).fifo ++ [tapRec f x] ∧ c.gap = none
         else c.fifo = (s.chip f).fifo ∧ c.gap = some (x.time % 2 ^ 56, 1))) ∧
    (∀ x q T n, (s.chip f).tapQ = x :: q → (s.chip f).gap = some (T, n) →
      ∃ t c, exec (.tapRecord f) s = .next t ∧ ChipStep s t f c ∧ c.tapQ = q ∧
        (if (s.chip f).fifo.length + 2 ≤ 2048 then c.fifo = (s.chip f).fifo ++ [gapRec f (T, n), tapRec f x] ∧ c.gap = none
         else c.fifo = (s.chip f).fifo ∧ c.gap = some (T, satAdd n 1 32))) ∧
    (∀ T n, (s.chip f).tapQ = [] → (s.chip f).gap = some (T, n) → (s.chip f).fifo.length < 2048 →
      ∃ t c, exec (.gapRecordEntry f) s = .next t ∧ ChipStep s t f c ∧ c.fifo = (s.chip f).fifo ++ [gapRec f (T, n)] ∧ c.gap = none) ∧
    ((s.chain (f / 16)).state = .up → f % 16 < (s.chain (f / 16)).reach → (s.chip f).fifo ≠ [] →
      ∃ t, exec (.traceFrameSend f) s = .next t ∧ (t.chip f).fifo = (s.chip f).fifo.drop 256 ∧
        (t.chip f).seq = ((s.chip f).seq + ((s.chip f).fifo.take 256).length) % 256 ∧
        (t.chain (f / 16)).upTrace = (s.chain (f / 16)).upTrace ++ [.trace (f % 16) (numberRecs (s.chip f).seq ((s.chip f).fifo.take 256))] ∧
        (∀ g, g ≠ f → t.chip g = s.chip g) ∧ (∀ k, k ≠ f / 16 → t.chain k = s.chain k)) ∧
    ((s.chain (f / 16)).state = .up → f % 16 < (s.chain (f / 16)).reach → (s.chip f).fifo = [] → (s.chip f).flushing = true → (s.chip f).gap = none → (s.chip f).tapQ = [] →
      ∃ t, exec (.traceFrameSend f) s = .next t ∧ (t.chip f).flushed = !(s.chip f).tapResume ∧ (t.chip f).flushing = false ∧ (t.chip f).tapEn = (s.chip f).tapResume)

/-- O31. The chip at the position of the frame at the head of its chain answers it: a read with its data, a write with an
acknowledgement, with the bytes in the chip's memory where the address is memory, an alert acknowledgement by dropping the
alert of that number, a probe with its time; a chip in reset answers reads and writes with NACK; bytes the spec leaves open
are free. The second half of a monitor's copy makes it installed. No other chip and no other chain changes. (R347, R351,
R353, R365, R24) -/
def Obligations.WdaAnswersItsFrames : Prop :=
  ∀ (s : State) (k p : Nat) (rest : List Frame), k < 8 → p < 16 →
    (∀ tag a n, (s.chain k).down = .read p tag a n :: rest →
      (∃ t, exec (.read k) s = .next t ∧ (t.chain k).down = rest ∧ (∀ j, j ≠ k → t.chain j = s.chain j) ∧ (∀ g, g ≠ 16 * k + p → t.chip g = s.chip g) ∧
        (if (s.chip (16 * k + p)).inReset then (t.chain k).up = (s.chain k).up ++ [.nack p tag] ∧ t.chip (16 * k + p) = s.chip (16 * k + p)
         else
           (∃ d : List Byte, (t.chain k).up = (s.chain k).up ++ [.readData p tag d] ∧
             d.length = ((s.seen (16 * k + p)).read (s.chipTime (16 * k + p)) a n).1.length ∧
             (∀ j, (s.chip (16 * k + p)).openAt (a + j) = false → d.getD j 0 = ((s.seen (16 * k + p)).read (s.chipTime (16 * k + p)) a n).1.getD j 0)) ∧
           (inMemory a = true → t.chip (16 * k + p) = s.chip (16 * k + p))) ∧
        { t with chips := s.chips, bhv := s.bhv, freeIx := s.freeIx } = s)) ∧
    (∀ tag a d, (s.chain k).down = .write p tag a d :: rest →
      (∃ t, exec (.write k) s = .next t ∧ (t.chain k).down = rest ∧ (∀ j, j ≠ k → t.chain j = s.chain j) ∧ (∀ g, g ≠ 16 * k + p → t.chip g = s.chip g) ∧
        (if (s.chip (16 * k + p)).inReset then (t.chain k).up = (s.chain k).up ++ [.nack p tag] ∧ t.chip (16 * k + p) = s.chip (16 * k + p)
         else (t.chain k).up = (s.chain k).up ++ [.writeAck p tag] ∧
           ((∀ x ∈ (s.chain k).txns, x.tag = tag → x.mon = false) →
             (inMemory a = true → t.chip (16 * k + p) = { s.chip (16 * k + p) with mem := mwrite (s.chip (16 * k + p)).mem a d }) ∧
             (inMemory a = false →
               { t.chip (16 * k + p) with mem := (s.chip (16 * k + p)).mem } =
                 { (s.chip (16 * k + p)).regWrite (16 * k + p) (s.chipTime (16 * k + p)) a (leNat (d.take 4)) with mem := (s.chip (16 * k + p)).mem })) ∧
           (∀ n x, n < 32 → x ∈ (s.chain k).txns → x.tag = tag → x.mon = true → x.write = true → a = 0x101000F000 + 0x10000 * n →
             ((s.chip (16 * k + p)).core n).half = 1 → ((t.chip (16 * k + p)).core n).monitor = true)))) ∧
    (∀ n, (s.chain k).down = .alertAck p n :: rest →
      ∃ t, exec (.alertAck k) s = .next t ∧ (t.chain k).down = rest ∧ (t.chain k).up = (s.chain k).up ∧
        t.chip (16 * k + p) = { s.chip (16 * k + p) with alerts := (s.chip (16 * k + p)).alerts.filter (fun a => a.num != n) } ∧
        (∀ g, g ≠ 16 * k + p → t.chip g = s.chip g) ∧ { t with chips := s.chips, bhv := s.bhv } = s) ∧
    (∀ sent iss, (s.chain k).down = .probe p sent iss :: rest → (s.chip (16 * k + p)).inReset = false →
      ∃ t, exec (.probe k) s = .next t ∧ (t.chain k).down = rest ∧ t.chips = s.chips ∧
        (t.chain k).up = (s.chain k).up ++ [.probeStamp p (s.chipTime (16 * k + p)) sent iss] ∧ { t with bhv := s.bhv } = s)

/-- O32. A response releases its tag and gives its work item the data, or CHIP_ABSENT for a NACK; a response to a
quarantined tag only releases it. A transaction whose limit has passed ends with TIMEOUT, is counted, activates the chain's
source, and its tag is quarantined; before that nothing happens. (R347, R350, R353, R368) -/
def Obligations.ResponsesAndTimeoutsEndTransactions : Prop :=
  (∀ (s : State) (k p tag : Nat) (rest : List Frame) (x : Txn), k < 8 → s.fastClock = true → s.run.armQ = [] →
     (s.chain k).txns.find? (fun x => x.tag == tag) = some x → (x.limit = 0 ∨ s.now ≤ x.sentAt + x.limit * 1000) →
     (∀ (d : List Byte) (c : Instr) (fr : Frame), (c = .readData k ∧ fr = .readData p tag d) ∨ (c = .writeAck k ∧ fr = .writeAck p tag ∧ d = []) →
       (s.chain k).up = fr :: rest →
       (∀ w ix i, x.quarantined = false → x.issuer = .item w ix → ix ≠ voidIx → s.item? w = some i → (∀ n, w = .ring n → n < 512) →
         ∃ t j, exec c s = .next t ∧ (t.chain k).up = rest ∧ (t.chain k).txns = (s.chain k).txns.filter (fun y => y.tag != tag) ∧
           t.item? w = some j ∧ j.out = i.out - 1 ∧ tget [] j.rep ix = d ∧ j.errs = i.errs ∧ j.todo = i.todo) ∧
       (x.quarantined = true →
         ∃ t, exec c s = .next t ∧ (t.chain k).up = rest ∧ (t.chain k).txns = (s.chain k).txns.filter (fun y => y.tag != tag) ∧ { t with bhv := s.bhv } = s)) ∧
     ((s.chain k).up = .nack p tag :: rest → ∀ w ix i, x.quarantined = false → x.issuer = .item w ix → ix ≠ voidIx → s.item? w = some i →
       (∀ n, w = .ring n → n < 512) →
       ∃ t j, exec (.nack k) s = .next t ∧ (t.chain k).up = rest ∧ (t.chain k).txns = (s.chain k).txns.filter (fun y => y.tag != tag) ∧
         t.item? w = some j ∧ j.out = i.out - 1 ∧ j.errs = i.errs ++ [.chipAbsent] ∧ t.chips = s.chips ∧ t.host = s.host)) ∧
  (∀ (s : State) (k tag : Nat) (x : Txn), k < 8 → s.run.armQ = [] → (s.chain k).txns.find? (fun x => x.tag == tag) = some x →
     (s.fastClock = true → x.quarantined = false → x.limit ≠ 0 → x.sentAt + x.limit * 1000 < s.now →
       ∀ w ix i, x.issuer = .item w ix → ix ≠ voidIx → s.item? w = some i → (∀ n, w = .ring n → n < 512) →
       ∃ t j, exec (.transactionTimeout k tag) s = .next t ∧ t.item? w = some j ∧ j.out = i.out - 1 ∧ j.errs = i.errs ++ [.timeout] ∧
         (t.chain k).timeouts = satAdd (s.chain k).timeouts 1 16 ∧
         (t.chain k).txns = (s.chain k).txns.map (fun y => if y.tag = tag then { y with quarantined := true } else y) ∧
         (s.inService (160 + k) = false → (t.src (160 + k)).pending = true)) ∧
     (x.quarantined = true ∨ x.limit = 0 ∨ s.now ≤ x.sentAt + x.limit * 1000 ∨ s.fastClock = false → exec (.transactionTimeout k tag) s = .next s))

/-- O33. A position that answers training joins the chain; a hop that fails takes every position from it on and retrains
after 1 ms, and each failed try waits 1 ms more; training ends 500 us after it began. A position that comes back within 60
us of its attempt's start brings back those it connects. A frame that fails its CRC is counted where the hub's own receiver
sees it, and the eighth replay in a row fails the hop. (R343, R344, R349, R357, R370) -/
def Obligations.HopsComeUpFailAndCount : Prop :=
  (∀ (s : State) (k p ps : Nat), k < 8 → p < 16 → s.fastClock = true →
     ((s.chain k).training = true → (s.chain k).reach = p → ((s.chain k).state = .training ∨ (s.chain k).state = .up) → s.now ≤ (s.chain k).trainFrom + 500000 →
       ∃ t, exec (.hopUp k p ps) s = .next t ∧ (t.chain k).state = .up ∧ (t.chain k).reach = p + 1 ∧ bit (t.chain k).present p = true ∧
         (t.chain k).training = decide (p + 1 < 16) ∧ tget 0 (t.chain k).delay p = (if p = 0 then 0 else tget 0 (s.chain k).delay (p - 1)) + ps ∧
         (∀ j, j ≠ k → t.chain j = s.chain j) ∧ t.chips = s.chips ∧ (s.inService (160 + k) = false → (t.src (160 + k)).pending = true)) ∧
     ((s.chain k).state = .up → p < (s.chain k).reach →
       ∃ t, exec (.hopFail k p) s = .next t ∧ (t.chain k).state = (if p = 0 then .down else .up) ∧ (t.chain k).reach = p ∧
         (t.chain k).retrains = satAdd (s.chain k).retrains 1 16 ∧ tget 0 (t.chain k).failed p = s.now + 1 ∧ (t.chain k).present = (s.chain k).present) ∧
     (∀ n, (s.chain k).training = false → ((s.chain k).state = .up ∨ (s.chain k).state = .down) → tget 0 (s.chain k).failed p = n + 1 → s.now ≤ n + 60000 →
       ∃ t, exec (.hopUp k p ps) s = .next t ∧ tget 0 (t.chain k).failed p = 0 ∧ (∀ q, q ≠ p → tget 0 (t.chain k).failed q = tget 0 (s.chain k).failed q) ∧
         (t.chain k).reach = (t.chain k).span ∧ (t.chain k).state = (if (t.chain k).span = 0 then (s.chain k).state else .up) ∧
         (t.chain k).addressable = (s.chain k).addressable) ∧
     (∀ n, (s.chain k).training = false → tget 0 (s.chain k).failed p = n + 1 → n + 60000 < s.now →
       ∃ t, exec (.hopUp k p ps) s = .next t ∧ t.bhv = s.bhv) ∧
     (∀ n, tget 0 (s.chain k).failed p = n + 1 → n + 1000000 < s.now →
       ∃ t, exec (.hopRetry k) s = .next t ∧ tget 0 (t.chain k).failed p = n + 1000001 ∧
         { t.chain k with failed := (s.chain k).failed } = s.chain k ∧ { t with bhv := s.bhv } = s) ∧
     ((s.chain k).training = true → (s.chain k).trainFrom + 500000 ≤ s.now →
       ∃ t, exec (.trainingTimeout k) s = .next t ∧ (t.chain k).training = false ∧ (t.chain k).reach = (s.chain k).reach ∧
         (t.chain k).state = (if (s.chain k).reach = 0 then .empty else (s.chain k).state) ∧ (∀ j, j ≠ k → t.chain j = s.chain j))) ∧
  (∀ (s : State) (k p : Nat) (up : Bool), k < 8 → p < 16 → s.fastClock = true → s.run.armQ = [] →
     (tget 0 (s.chain k).replays (2 * p + b2n (!up)) < 7 →
       ∃ t, exec (.frameCrcFail k p up) s = .next t ∧ (t.chain k).crc = (if up ∧ p = 0 then satAdd (s.chain k).crc 1 32 else (s.chain k).crc) ∧
         tget 0 (t.chain k).replays (2 * p + b2n (!up)) = tget 0 (s.chain k).replays (2 * p + b2n (!up)) + 1 ∧
         (t.chain k).state = (s.chain k).state ∧ (t.chain k).reach = (s.chain k).reach ∧ (t.chain k).txns = (s.chain k).txns) ∧
     (tget 0 (s.chain k).replays (2 * p + b2n (!up)) = 7 → (s.chain k).state = .up → p < (s.chain k).reach →
       ∃ t, exec (.frameCrcFail k p up) s = .next t ∧ (t.chain k).state = (if p = 0 then .down else .up) ∧ (t.chain k).reach = p ∧ (t.chain k).replays = []))

/-- O34. A held alert that reaches the hub is acknowledged; with the number last accepted it has no other effect; a RESET
alert ends the chip's addressability and its transactions, and any other alert of an addressable chip that is no unit halt,
stop or ready alert activates the chip's source with its word. (R351, R352, R353) -/
def Obligations.AlertsAreAcceptedOnce : Prop :=
  ∀ (s : State) (k p : Nat) (a : HeldAlert) (l : List HeldAlert), k < 8 → p < 16 → s.fastClock = true → (s.chain k).state = .up → p < (s.chain k).reach →
    (s.chip (16 * k + p)).alerts = a :: l →
    (tget 0 (s.chain k).lastAlert p = a.num + 1 →
      ∃ t, exec (.alert k p) s = .next t ∧ (t.chain k).down = (s.chain k).down ++ [.alertAck p a.num] ∧ { t with bhv := s.bhv } = s ∧
        { t.chain k with down := (s.chain k).down, lastAlert := (s.chain k).lastAlert } = s.chain k) ∧
    (tget 0 (s.chain k).lastAlert p ≠ a.num + 1 → fld a.word 0 8 = 7 →
      ∃ t, exec (.alert k p) s = .next t ∧ bit (t.chain k).addressable p = false ∧ (t.chain k).resets = satAdd (s.chain k).resets 1 16 ∧
        tget 0 (t.chain k).lastAlert p = a.num + 1 ∧ (∀ x ∈ (t.chain k).txns, x.pos ≠ p)) ∧
    (tget 0 (s.chain k).lastAlert p ≠ a.num + 1 → fld a.word 0 8 ≠ 1 → fld a.word 0 8 ≠ 2 → fld a.word 0 8 ≠ 7 → fld a.word 0 8 ≠ 8 →
      s.addressable (16 * k + p) = true → s.inService (32 + 16 * k + p) = false →
      ∃ t, exec (.alert k p) s = .next t ∧ (t.chain k).down = (s.chain k).down ++ [.alertAck p a.num] ∧ tget 0 (t.chain k).lastAlert p = a.num + 1 ∧
        (t.src (32 + 16 * k + p)).pending = true ∧ (t.src (32 + 16 * k + p)).data = a.word ∧ (∀ n, n ≠ 32 + 16 * k + p → t.src n = s.src n) ∧
        t.chips = s.chips ∧ t.run = s.run)

/-- O35. A TRACE frame is dropped while trace is not armed, waits while the ring lacks room and otherwise enters the ring in
order. A sync symbol goes to each usable chain every 1 ms and is applied by a chip as a step the first time and as a slew of
at most 200 after that; a probe's stamp is kept as the chip's error. (R495, R498, R500, R356, R358, R365) -/
def Obligations.TraceFramesAndFabricTime : Prop :=
  (∀ (s : State) (k p : Nat) (rs : List TraceRec) (rest : List Frame), k < 8 → s.fastClock = true → (s.chain k).upTrace = .trace p rs :: rest →
     (s.trc.state.armed = false → exec (.trace k) s = .next (s.setChain k { s.chain k with upTrace := rest })) ∧
     (s.trc.state.armed = true → s.ringFull = false → s.ringFree < rs.length →
       exec (.trace k) s = .next { s with trc := { s.trc with need := rs.length } }) ∧
     (s.trc.state.armed = true → s.ringFull = true → exec (.trace k) s = .next s) ∧
     (s.trc.state = .streaming → s.trc.windowMode = false → s.ringFull = false → rs.length ≤ s.ringFree →
       ∃ t x, exec (.trace k) s = .next t ∧ t.trc.ring = s.trc.ring ++ x ∧ rs.Sublist x ∧ t.trc.state = .streaming ∧ t.trc.need = 0 ∧
         (t.chain k).upTrace = rest ∧ t.chips = s.chips)) ∧
  (∀ (s : State) (k p : Nat), k < 8 → p < 16 →
     (s.fastClock = true → s.time % 1000000 = 0 → s.bhv.lastSync ≠ s.time / 1000000 + 1 →
       ∃ t, exec .syncSymbol s = .next t ∧ t.bhv.syncCnt = (s.bhv.syncCnt + 1) % 2 ^ 32 ∧
         ((s.chain k).state = .up → p < (s.chain k).reach → tget 0 (t.chain k).symbol p = s.time + 1) ∧
         ((s.chain k).state ≠ .up → t.chain k = s.chain k) ∧ t.chips = s.chips) ∧
     (tget 0 (s.chain k).symbol p ≠ 0 → (s.chip (16 * k + p)).inReset = false → (s.chip (16 * k + p)).synced = false →
       ∃ t, exec (.syncApply (16 * k + p)) s = .next t ∧ t.chipTime (16 * k + p) = s.time ∧ (t.chip (16 * k + p)).synced = true ∧
         tget 0 (t.chain k).symbol p = 0 ∧ (∀ g, g ≠ 16 * k + p → t.chip g = s.chip g)) ∧
     (tget 0 (s.chain k).symbol p ≠ 0 → (s.chip (16 * k + p)).inReset = false → (s.chip (16 * k + p)).synced = true →
       ∃ t, exec (.syncApply (16 * k + p)) s = .next t ∧ -200 ≤ (t.chip (16 * k + p)).slew ∧ (t.chip (16 * k + p)).slew ≤ 200 ∧
         t.chipTime (16 * k + p) = s.chipTime (16 * k + p) ∧ tget 0 (t.chain k).symbol p = 0) ∧
     (∀ stamp sent iss rest, s.fastClock = true → (s.chain k).up = .probeStamp p stamp sent iss :: rest →
       ∃ t, exec (.probeStamp k) s = .next t ∧ (t.chain k).up = rest ∧
         tget 0x80 t.bhv.ftErr (16 * k + p) = ftErrOf stamp sent (tget 0 (s.chain k).delay p) ∧ t.chips = s.chips))

/-- O36. A fall of a stop input relays a stop to the lines of the relay's mask while the relay is enabled. A stop pulse ends
at the AON edge after its width, not before; a toll's backup stop and a timed raise take place at their times. A
confirmation reads a chip three times at most and counts it confirmed or unconfirmed; the last one reports HALT on source
168. (R378, R381, R382, R384, R387, R403) -/
def Obligations.StopLinesRelayPulseAndConfirm : Prop :=
  (∀ (s : State) (k : Nat), k < 8 → s.pins.inPor = false → s.pins.dead = false → s.stopInPad k = false → bit s.pins.stopInLow k = false →
     (s.run.relayEn = true → s.run.relayMask ≠ 0 →
       ∃ t, exec (.stopRelay k) s = .next t ∧ bit t.pins.stopInLow k = true ∧ t.run.relayCnt = satAdd s.run.relayCnt 1 32 ∧ t.run.relayFired = true ∧
         (∀ j, j < 8 → bit s.run.relayMask j = true → s.drivable j = true → bit t.pins.stopOut j = false ∧ tget 0 t.pins.pulse j = s.now + 1) ∧
         (∀ j, j < 8 → bit s.run.relayMask j = false → bit t.pins.stopOut j = bit s.pins.stopOut j) ∧ t.chips = s.chips) ∧
     (s.run.relayEn = false ∨ s.run.relayMask = 0 →
       ∃ t, exec (.stopRelay k) s = .next t ∧ bit t.pins.stopInLow k = true ∧ t.pins.stopOut = s.pins.stopOut ∧ t.run = s.run ∧ t.chips = s.chips)) ∧
  (∀ (s : State) (k : Nat), k < 8 →
     (∀ n, tget 0 s.pins.pulse k = n + 1 → aonEdge (n + 1000 * Nat.max s.run.pulse 1) ≤ s.now →
       ∃ t, exec (.stopPulseEnd k) s = .next t ∧ bit t.pins.stopOut k = true ∧ tget 0 t.pins.pulse k = 0 ∧
         (∀ j, j ≠ k → bit t.pins.stopOut j = bit s.pins.stopOut j) ∧ t.run = s.run ∧ t.host = s.host) ∧
     (∀ n, tget 0 s.pins.pulse k = n + 1 → s.now < aonEdge (n + 1000 * Nat.max s.run.pulse 1) → exec (.stopPulseEnd k) s = .next s) ∧
     (s.run.backup = true → s.run.tollT ≤ s.time → s.fastClock = true → bit s.run.tollMask k = true → s.drivable k = true →
       ∃ t, exec .tollBackupStop s = .next t ∧ bit t.pins.stopOut k = false ∧ tget 0 t.pins.pulse k = s.now + 1 ∧ t.run.backup = false ∧ t.run.tollState = .none_ ∧
         t.run.tollCnt = satAdd s.run.tollCnt 1 32 ∧ t.run.stopTime = s.run.tollT ∧ t.chips = s.chips) ∧
     (s.run.backup = false ∨ s.time < s.run.tollT → exec .tollBackupStop s = .next s) ∧
     (∀ AT mask, s.run.raises = [(AT, mask)] → AT ≤ s.time → bit mask k = true → bit s.pins.stopEn k = true → tget 0 s.pins.pulse k = 0 →
       ∃ t, exec .timedStopRaise s = .next t ∧ bit t.pins.stopOut k = true ∧ t.run.raises = [] ∧ t.host = s.host)) ∧
  (∀ (s : State) (f : Nat) (c : Confirm) (n : Nat), f < 128 → s.run.confirm = some c → c.started = true → c.left = [(f, n, c.instant + 1000)] → s.fastClock = true →
     c.instant + 1000 ≤ s.time → (s.chain (f / 16)).tagFree true = true → (∀ k, k < 8 → bit c.chains k = true → (s.chain k).state ≠ .eIdle) →
     (s.addressable f = true → (s.chip f).inReset = false → (s.chip f).stopSeen = true →
       ∃ t, exec (.confirmationRead f) s = .next t ∧ t.run.confirm = none ∧ t.run.lastConf = (c.confirmed + 1, c.unconfirmed) ∧ t.chips = s.chips ∧
         (s.inService 168 = false → (t.src 168).pending = true)) ∧
     (s.addressable f = false ∨ (s.chip f).inReset = true ∨ ((s.chip f).stopSeen = false ∧ 2 ≤ n) →
       ∃ t, exec (.confirmationRead f) s = .next t ∧ t.run.confirm = none ∧ t.run.lastConf = (c.confirmed, c.unconfirmed + 1) ∧ t.chips = s.chips) ∧
     (s.addressable f = true → (s.chip f).inReset = false → (s.chip f).stopSeen = false → n < 2 →
       exec (.confirmationRead f) s = .next { s with run := { s.run with confirm := some { c with left := [(f, n + 1, s.time + 1000)] } } }))

/-- O37. Enabling the HTU empties the TLB and zeroes its statistics, and is no change while it is enabled; disabling it
empties the TLB and faults a walk that waits with cause DISABLED. While no REBOOT waits for records to be sent, a resolve of
an entry that is not parked or of another generation sets STALE alone; RESUME lets the owner reissue from its faulting
operation, and ABORT ends it with TRANSLATION_FAULT. (R298, R305, R306) -/
def Obligations.TranslationControlAndResolve : Prop :=
  (∀ s : State, s.serves 0x6000 = true →
     (s.htu.enabled = true → exec .htuEnable s = .next s.linked) ∧
     (s.htu.enabled = false → s.htu.ops = [] →
       exec .htuEnable s = .next { s.linked with htu := { s.htu with enabled := true, tlb := [], hits := 0, misses := 0, faults := 0, seq := 0 } }) ∧
     (s.htu.enabled = false →
       ∃ t, exec .htuEnable s = .next t ∧ t.htu.enabled = true ∧ t.htu.root = s.htu.root ∧ t.htu.tlb = [] ∧ t.host = s.host ∧ t.chips = s.chips) ∧
     (s.htu.ops = [] → exec .htuDisable s = .next { s.linked with htu := { s.htu with enabled := false, tlb := [] } }) ∧
     (∃ t, exec .htuDisable s = .next t ∧ t.htu.enabled = false ∧ t.htu.tlb = [] ∧ t.htu.root = s.htu.root ∧ t.host = s.host ∧ t.chips = s.chips) ∧
     (∀ o l a d w i, s.htu.ops = [o] → o.phase = .walk l a false d → o.owner = .item w → (∀ n, w = .ring n → n < 512) → s.item? w = some i →
       s.htu.freeEntry ≠ none →
       ∃ t j n, exec .htuDisable s = .next t ∧ t.item? w = some j ∧ j.parked = true ∧ n < 64 ∧
         (t.htu.entry n).cause = 4 ∧ (t.htu.entry n).addr = o.addr ∧ (t.htu.entry n).parked = true)) ∧
  (∀ (s : State) (n gen : Nat), n < 64 → gen < 256 → s.serves 0x6010 = true → s.lcs.scrapReboot = false → s.boot.recoveryReboot = false →
     ((∀ p ∈ s.htu.parked, p.2.1 ≠ some n) ∨ (s.htu.entry n).parked = false ∨ (s.htu.entry n).gen ≠ gen →
       ∃ t, exec (.htuResume n gen) s = .next t ∧ exec (.htuAbort n gen) s = .next t ∧ t.htu = { s.htu with stale := true } ∧ t.host = s.host ∧ t.chips = s.chips) ∧
     (∀ r w i, s.htu.parked = [(.item w, some n, r)] → (s.htu.entry n).parked = true → (s.htu.entry n).gen = gen → s.htu.ops = [] →
       (∀ k, w = .ring k → k < 512) → s.item? w = some i →
       (∃ t j, exec (.htuAbort n gen) s = .next t ∧ t.htu.ops = [] ∧ t.htu.parked = [] ∧ (t.htu.entry n).parked = false ∧ t.item? w = some j ∧
         j.parked = false ∧ j.out = i.out ∧ (i.isDump = false → j.dead = true ∧ j.errs = i.errs ++ [.translationFault])) ∧
       (∃ t j, exec (.htuResume n gen) s = .next t ∧ t.htu.ops = [] ∧ t.htu.parked = [] ∧ (t.htu.entry n).parked = false ∧ t.item? w = some j ∧
         j.parked = false ∧ j.todo = i.todo ∧ j.out = i.out ∧ j.errs = i.errs ∧ t.host = s.host)) ∧
     (∀ r o k i, s.htu.parked = [(.item (.ring k), some n, r)] → (s.htu.entry n).parked = true → (s.htu.entry n).gen = gen → s.htu.ops = [o] →
       o.owner = .item (.ring k) → o.cpl = true → o.phase = .parked → k < 512 → (s.ring k).item = some i → (s.ring k).state = .active →
       (∃ t, exec (.htuAbort n gen) s = .next t ∧ t.htu.ops = [] ∧ t.htu.parked = [] ∧ (t.htu.entry n).parked = false ∧ (t.ring k).state = .stalled ∧
         (t.ring k).cplLost = true ∧ (t.ring k).item = none ∧ (t.ring k).head = (s.ring k).head) ∧
       (s.htu.enabled = true → s.boot.stage ≠ 5 → o.addr < 2 ^ 48 → s.htu.tlb = [] →
         ∃ t out, exec (.htuResume n gen) s = .next t ∧ t.htu.parked = [] ∧ (t.htu.entry n).parked = false ∧
           t.htu.ops = [{ o with phase := .walk 3 (s.htu.root + 8 * levelIndex o.addr 3) out 0 }])))

/-- O38. An entry that is not present, a store through a read-only leaf, and a failed read fault with their cause and level
and park the owner; a table entry leads to the next level's read; a leaf of 4 KiB or 2 MiB enters the TLB. (R289, R290,
R292, R293, R294, R295, R296) -/
def Obligations.WalksFollowTheTable : Prop :=
  ∀ (s : State) (o : HostOp) (l a entry : Nat), s.numbered → s.fastRun = true → o ∈ s.htu.ops → o.phase = .walk l a true 0 → s.htu.enabled = true → l < 4 →
    (∀ p ∈ s.htu.ops, p.owner = o.owner → p.id < o.id → p.isQueued = true) →
    (bit entry 0 = true → 2 ≤ l ∨ (l = 1 ∧ bit entry 2 = false) →
      ∃ t out, exec (.walkReadComplete o.id entry false) s = .next t ∧
        { o with phase := .walk (l - 1) (fld entry 12 40 * 4096 + 8 * levelIndex o.addr (l - 1)) out 0 } ∈ t.htu.ops ∧ t.host = s.host) ∧
    (bit entry 0 = true → (o.write = true → bit entry 1 = true) → l = 0 →
      ∃ t, exec (.walkReadComplete o.id entry false) s = .next t ∧
        ({ vpage := o.addr / 4096, big := false, phys := fld entry 12 40 * 4096, write := bit entry 1 } : TlbEntry) ∈ t.htu.tlb ∧ t.host = s.host) ∧
    (bit entry 0 = true → (o.write = true → bit entry 1 = true) → l = 1 → bit entry 2 = true →
      ∃ t, exec (.walkReadComplete o.id entry false) s = .next t ∧
        ({ vpage := o.addr / 4096 / 512 * 512, big := true, phys := fld entry 12 40 * 4096 / 2 ^ 21 * 2 ^ 21, write := bit entry 1 } : TlbEntry) ∈ t.htu.tlb ∧
        t.host = s.host) ∧
    (∀ (err : Bool) (c : Nat), s.htu.freeEntry ≠ none →
      (err = true ∧ c = 5) ∨ (err = false ∧ bit entry 0 = false ∧ c = 1) ∨
        (err = false ∧ bit entry 0 = true ∧ (l = 0 ∨ l = 1 ∧ bit entry 2 = true) ∧ o.write = true ∧ bit entry 1 = false ∧ c = 2) →
      ∃ t n, exec (.walkReadComplete o.id entry err) s = .next t ∧
        ((o.cpl = true ∨ ∀ w, o.owner ≠ .item w) → { o with phase := .parked } ∈ t.htu.ops) ∧
        (∀ w i, o.cpl = false → o.owner = .item w → s.item? w = some i → (∀ k, w = .ring k → k < 512) →
          (∀ q ∈ t.htu.ops, q.id ≠ o.id) ∧ ∃ j, t.item? w = some j ∧ j.parked = true) ∧
        (t.htu.entry n).cause = c ∧ (t.htu.entry n).level = l ∧ (t.htu.entry n).addr = o.addr ∧ (t.htu.entry n).write = o.write ∧
        (t.htu.entry n).parked = true ∧ (t.htu.entry n).gen = ((s.htu.entry n).gen + 1) % 256)

/-- O39. A burst or host write that completes has its bytes in their place and the seal of its blocks, a read gives the item
its bytes, a completion timeout, unless it is disabled, ends the item with ABORTED and is logged, and the operation is gone;
a burst that is held does not complete. A descriptor fetch gives the ring its descriptors in order and the first as its work
item; one that ends in error stalls the ring and activates source 194. (R54, R68, R69, R150, R258, R280, R284) -/
def Obligations.OperationsAndFetchesComplete : Prop :=
  (∀ (s : State) (id : Nat) (w : Work) (ix : Nat) (i : Item), s.fastRun = true → s.item? w = some i → (∀ n, w = .ring n → n < 512 ∧ (s.ring n).state ≠ .draining) →
     i.fin = none → opcodeOf i.desc ≠ 0x42 → i.odd = 0 → ix ≠ voidIx →
     (∀ b ok data, s.bursts.find? (fun b => b.id == id) = some b → b.work = w → b.ix = ix → b.nor = 0 → b.held = false → b.refill = false →
       (b.write = true →
         ∃ t j, exec (.operationComplete id data ok) s = .next t ∧ t.store = mwrite s.store b.addr b.data ∧
           (∀ k, b.addr / 512 ≤ k → k < b.addr / 512 + cdiv (b.addr % 512 + b.len) 512 → tget false t.dmp.sealMap k = b.sealed_) ∧
           t.bursts = s.bursts.filter (fun x => x.id != id) ∧ t.item? w = some j ∧ j.out = i.out - 1 ∧ j.errs = i.errs ∧ t.host = s.host ∧ t.chips = s.chips) ∧
       (b.write = false →
         ∃ t j, exec (.operationComplete id data ok) s = .next t ∧ t.store = s.store ∧ t.dmp = s.dmp ∧ t.bursts = s.bursts.filter (fun x => x.id != id) ∧
           t.item? w = some j ∧ j.out = i.out - 1 ∧ tget [] j.rep ix = mread s.store b.addr b.len ∧ j.errs = i.errs)) ∧
     (∀ b ok data, s.bursts.find? (fun b => b.id == id) = some b → b.held = true → s.htu.ops = [] → exec (.operationComplete id data ok) s = .next s) ∧
     (∀ o p k data, (∀ b ∈ s.bursts, b.id ≠ id) → s.htu.ops.find? (fun o => o.id == id) = some o → o.owner = .item w → o.ix = ix →
       o.phase = .queued p k → o.cpl = false → (∀ q ∈ s.htu.ops, q.owner = .item w → q.isQueued = true) →
       (o.write = true → s.htu.firstWrite = some o →
         ∃ t j, exec (.operationComplete id data true) s = .next t ∧ t.host = mwrite s.host p o.data ∧ t.item? w = some j ∧ j.out = i.out - 1 ∧ j.errs = i.errs ∧
           t.chips = s.chips ∧ t.store = s.store ∧ (∀ q ∈ t.htu.ops, q.id ≠ id)) ∧
       (o.write = false → data.length = o.len →
         ∃ t j, exec (.operationComplete id data true) s = .next t ∧ t.host = s.host ∧ t.item? w = some j ∧ j.out = i.out - 1 ∧ tget [] j.rep ix = data ∧
           (∀ q ∈ t.htu.ops, q.id ≠ id)) ∧
       (o.write = false → bit s.cfg.devCtl2 4 = false →
         ∃ t j, exec (.completionTimeout id) s = .next t ∧ t.host = s.host ∧ t.item? w = some j ∧ j.dead = true ∧ j.errs = i.errs ++ [.aborted] ∧
           bit t.cfg.aerStatus 14 = true ∧ (∀ q ∈ t.htu.ops, q.id ≠ id)) ∧
       (o.write = false → bit s.cfg.devCtl2 4 = true → exec (.completionTimeout id) s = .next s))) ∧
  (∀ (s : State) (r : Nat) (o : HostOp) (p k : Nat) (data : List Byte), r < 512 → s.fastRun = true → s.htu.ops.find? (fun o => o.owner == .fetch r && o.isQueued) = some o →
     o.phase = .queued p k → o.ix = 0 →
     (data.length = o.len → (s.ring r).state = .active → (s.ring r).item = none → (s.ring r).fetched = [] → 64 ≤ o.len →
       ∃ t i, exec (.descriptorFetch r data true) s = .next t ∧ (t.ring r).item = some i ∧ i.desc = BitVec.ofNat 512 (leNat (data.take 64)) ∧ i.stage = 0 ∧
         i.begun = false ∧ (t.ring r).fetched = splitDescs (data.drop 64) (o.len / 64 - 1) ∧ (t.ring r).fetchIx = ((s.ring r).fetchIx + o.len / 64) % (s.ring r).size ∧
         (t.ring r).head = (s.ring r).head ∧ (t.ring r).tail = (s.ring r).tail ∧ t.host = s.host) ∧
     (((s.ring r).state = .active ∨ (s.ring r).state = .idle) → s.inService 194 = false →
       ∃ t, (exec (.descriptorFetch r data false) s = .next t) ∧ (t.ring r).state = .stalled ∧ (t.ring r).fetchErr = true ∧ (t.ring r).head = (s.ring r).head ∧
         (t.ring r).tail = (s.ring r).tail ∧ (t.src 194).pending = true))

/-- O40. When a ring's completion record is transmitted its bytes are in host memory, HEAD advances modulo SIZE, PHASE flips
at the wrap, DONE_CNT counts, the counter the descriptor names is incremented and no other, and its notification source
activates. (R263, R266, R268, R273, R276) -/
def Obligations.CompletionsAdvanceTheHead : Prop :=
  ∀ (s : State) (r : Nat) (o : HostOp) (p k : Nat) (c : CplRec) (rest : List CplRec), r < 512 → s.fastRun = true → s.htu.firstWrite = some o → o.cpl = true → o.owner = .item (.ring r) →
    o.phase = .queued p k → (s.ring r).cplQ = c :: rest → (s.ring r).state = .active → s.boot.recoveryReboot = false → s.lcs.scrapReboot = false →
    (∀ n, c.signal = some n → (s.counter n).cycle ≠ s.now) →
    ∃ t, exec (.completionTransmitted r) s = .next t ∧ t.host = mwrite s.host p o.data ∧ (t.ring r).head = ((s.ring r).head + 1) % (s.ring r).size ∧
      (t.ring r).doneCnt = ((s.ring r).doneCnt + 1) % 2 ^ 32 ∧ (t.ring r).tail = (s.ring r).tail ∧
      (t.ring r).phase = (if (s.ring r).head + 1 = (s.ring r).size then !(s.ring r).phase else (s.ring r).phase) ∧
      (∀ n, (t.counter n).val = if c.signal = some n ∧ n < 4096 then (s.counter n).val + 1 else (s.counter n).val) ∧
      (c.notify = true → (s.ring r).notify < 32 → s.inService (224 + (s.ring r).notify) = false → (t.src (224 + (s.ring r).notify)).pending = true)

/-- O41. A software trigger or the trigger time starts POST with its marker, and a later trigger is counted as ignored. A
capture ends at POST's end or when ENABLE is cleared: the STOP marker is written and every armed chip's taps stop. A
TRIG_OUT pulse is counted and stamped, a later event extends it, and it ends at the AON edge after its width and not before.
(R497, R498, R501, R513, R514) -/
def Obligations.TraceTriggersCapturesAndPulses : Prop :=
  (∀ s : State,
     (s.serves 0xE000 = true → s.trc.enable = true → s.trc.state = .pre → s.trc.trigNow ≠ s.now + 1 →
       ∃ t, exec .softTrig s = .next t ∧ t.trc.triggered = true ∧ t.trc.trigCode = 0 ∧ t.trc.trigTime = s.time ∧ t.trc.state = .post ∧
         t.trc.ring = s.trc.ring ++ [marker 0x21 0 0 s.time] ∧ t.trc.ignored = s.trc.ignored ∧ t.chips = s.chips) ∧
     (s.serves 0xE000 = true → s.trc.enable = true →
         (s.trc.state = .post ∨ s.trc.state = .flushing ∨ s.trc.state = .stopped ∨ (s.trc.state ≠ .idle ∧ s.trc.trigNow = s.now + 1)) →
       exec .softTrig s = .next { s.linked with trc := { s.trc with ignored := satAdd s.trc.ignored 1 32 } }) ∧
     (s.serves 0xE000 = true → s.trc.state = .idle ∨ s.trc.enable = false → exec .softTrig s = .next s.linked) ∧
     (s.trc.source = 3 → s.trc.trigAt ≤ s.time → s.trc.timeFired = false → s.trc.enable = true → s.trc.state = .pre ∨ s.trc.state = .streaming → s.trc.trigNow ≠ s.now + 1 →
       ∃ t, exec .traceTimeTrigger s = .next t ∧ t.trc.timeFired = true ∧ t.trc.triggered = true ∧ t.trc.trigCode = 3 ∧ t.trc.trigTime = s.trc.trigAt ∧
         t.trc.ring = s.trc.ring ++ [marker 0x21 3 0 s.trc.trigAt] ∧ t.chips = s.chips) ∧
     (s.trc.source ≠ 3 ∨ s.time < s.trc.trigAt ∨ s.trc.timeFired = true → exec .traceTimeTrigger s = .next s)) ∧
  (∀ s : State,
     (s.trc.state = .post → s.trc.trigTime + s.trc.postNs ≤ s.time →
       ∃ t x, exec .captureEnd s = .next t ∧ t.trc.stopCode = 1 ∧ t.trc.stopAt = s.time ∧ (t.trc.state = .flushing ∨ t.trc.state = .stopped) ∧
         t.trc.ring = s.trc.ring ++ marker 0x22 1 s.trc.ring.length s.time :: x ∧
         (∀ f, f < 128 → (s.tchip f).armed = true → s.addressable f = true → (s.chip f).inReset = false → (t.chip f).tapEn = false)) ∧
     (s.trc.state ≠ .post ∨ s.time < s.trc.trigTime + s.trc.postNs → exec .captureEnd s = .next s) ∧
     (s.serves 0xE000 = true → s.trc.enable = true → (s.trc.state = .streaming ∨ s.trc.state = .pre ∨ s.trc.state = .post) →
       ∃ t x, exec .traceDisable s = .next t ∧ t.trc.enable = false ∧ t.trc.stopCode = 2 ∧ (t.trc.state = .flushing ∨ t.trc.state = .stopped) ∧
         t.trc.ring = s.trc.ring ++ marker 0x22 2 s.trc.ring.length s.time :: x) ∧
     (s.serves 0xE000 = true → (s.trc.state = .idle ∨ s.trc.state = .flushing ∨ s.trc.state = .stopped) →
       exec .traceDisable s = .next { s.linked with trc := { s.trc with enable := false } })) ∧
  (∀ s : State, s.trc.toutSources < 32 → s.trc.toutWidth < 16 →
     (s.serves 0xE040 = true → s.pins.trigEn = true → bit s.trc.toutSources 0 = true → s.fastClock = true → s.pins.trigPulse = none → s.pins.trigEnd ≠ s.now + 1 →
       exec .toutFire s = .next { s.linked with
         pins := { s.linked.pins with trigPulse := some s.now }
         trc := { s.trc with toutLast := 0, toutCnt := satAdd s.trc.toutCnt 1 32, toutTime := s.time } }) ∧
     (s.serves 0xE040 = true → s.pins.trigEn = true → bit s.trc.toutSources 0 = true → s.fastClock = true →
         (s.pins.trigPulse ≠ none ∨ s.pins.trigEnd = s.now + 1) →
       exec .toutFire s = .next { s.linked with pins := { s.linked.pins with trigPulse := some s.now }, trc := { s.trc with toutLast := 0 } }) ∧
     (s.serves 0xE040 = true → s.pins.trigEn = false ∨ bit s.trc.toutSources 0 = false → exec .toutFire s = .next s.linked) ∧
     (∀ x, s.pins.trigPulse = some x → aonEdge (x + 1000 * Nat.max s.trc.toutWidth 1) ≤ s.now →
       exec .toutPulseEnd s = .next { s with pins := { s.pins with trigPulse := none, trigEnd := s.now + 1 } }) ∧
     (∀ x, s.pins.trigPulse = some x → s.now < aonEdge (x + 1000 * Nat.max s.trc.toutWidth 1) → exec .toutPulseEnd s = .next s))

/-- O42. At the commit edge a request with an enabled wake event seen by then is aborted, counted and notes the event; with
none it commits, to IDLE at once. Tick 2 of a DOZE or OFF request stops the PLL and idles the chains that are up; tick 3 of
an OFF request resets the fast domain and keeps the stores, the fuses, the wake settings and the lines, and the NOR where no
erase or program is under way. (R109, R111, R116, R117, R119, R123, R124, R129) -/
def Obligations.SleepCommitsAndEnters : Prop :=
  (∀ (s : State) (r : SleepReq), s.pwr.req = some r → r.committed = false → r.tick0 + 1000 ≤ s.now →
     (s.pwr.seen = [] →
       (r.target = 1 → exec .sleepCommit s = .next { s with
         pwr := { s.pwr with state := .idle, req := none, reqBy := some r.by_, lastTarget := 1, aborted := false, entering := false, commits := satAdd s.pwr.commits 1 16 }
         dmp := { s.dmp with selfRefresh := true } }) ∧
       (r.target ≠ 1 → exec .sleepCommit s = .next { s with pwr := { s.pwr with
         req := some { r with committed := true }, lastTarget := r.target, aborted := false, entering := false, commits := satAdd s.pwr.commits 1 16 } })) ∧
     (∀ at_ code line, s.pwr.seen = [(at_, code, line)] → at_ ≤ r.tick0 + 1000 →
       ∃ t, exec .sleepCommit s = .next t ∧ t.pwr.req = none ∧ t.pwr.aborted = true ∧ t.pwr.aborts = satAdd s.pwr.aborts 1 16 ∧ t.pwr.wakeSrc = code ∧
         t.pwr.state = s.pwr.state ∧ t.pwr.commits = s.pwr.commits ∧ bit t.pwr.events 9 = true)) ∧
  (∀ (s : State) (r : SleepReq), s.pwr.req = some r →
     (r.committed = true → r.tick2 = false → r.tick0 + 2000 ≤ s.now →
       ∃ t, exec .dozeEntry s = .next t ∧ t.pwr.pllLock = false ∧ t.dmp.selfRefresh = true ∧ t.pins.l1 = (s.pins.linkUp && bit s.cfg.linkCtl 1) ∧
         (∀ k, k < 8 → (t.chain k).state = (if (s.chain k).state = .up then .eIdle else (s.chain k).state)) ∧ t.host = s.host ∧ t.store = s.store ∧ t.fuses = s.fuses ∧
         (r.target = 2 → t.pwr.state = .doze ∧ t.pwr.req = none ∧ t.pwr.reqBy = some r.by_) ∧
         (r.target ≠ 2 → t.pwr.state = s.pwr.state ∧ t.pwr.req = some { r with tick2 := true })) ∧
     (r.target = 3 → r.tick2 = true → r.tick0 + 3000 ≤ s.now →
       ∃ t, exec .offEntry s = .next t ∧ t.pwr.state = .off ∧ t.pwr.req = none ∧ t.rings = [] ∧ t.counters = [] ∧ t.hub = {} ∧ t.auth = {} ∧ t.boot.fw = [] ∧
         (∀ k, t.chain k = {}) ∧ t.store = s.store ∧ ((∀ b ∈ s.bursts, b.nor ≠ 1 ∧ b.nor ≠ 2) → t.nor = s.nor) ∧ t.fuses = s.fuses ∧ t.host = s.host ∧
         t.lcs.state = s.lcs.state ∧ t.pwr.wakeEn = s.pwr.wakeEn ∧ t.car.lines = s.car.lines))

/-- O43. An enabled event wakes a sleeping hub, and from OFF a boot becomes due; the wake is complete after its ticks with
the PLL locked, never sooner, and activates source 180. The timer's expiry is a TIMER event; a loss of lock is recorded and
activates source 181; a lock is taken while the PLL is enabled, and what the loss froze goes on. (R108, R116, R118, R120,
R121, R124, R125, R128) -/
def Obligations.WakesTimerAndPll : Prop :=
  (∀ s : State,
     (∀ at_ code line, s.pwr.state ≠ .run → s.pwr.waking = none → s.pwr.seen = [(at_, code, line)] → at_ ≤ s.now →
       ∃ t, exec .wake s = .next t ∧ t.pwr.waking = some (at_, s.pwr.state) ∧ t.pwr.wakeSrc = code ∧ t.pwr.state = s.pwr.state ∧
         (s.pwr.state = .off → t.boot.due = some 1 ∧ t.boot.tick0 = at_ ∧ t.boot.stage = 0) ∧ (s.pwr.state ≠ .off → t.boot = s.boot) ∧ t.rings = s.rings ∧ t.chips = s.chips) ∧
     (s.pwr.state = .run → exec .wake s = .next s) ∧
     (∀ e st, s.pwr.waking = some (e, st) → st ≠ .off → s.pwr.pllLock = true → e + 1000 * wakeTicks st ≤ s.now → s.held = [] → s.inService 180 = false →
       ∃ t, exec .wakeComplete s = .next t ∧ t.pwr.state = .run ∧ t.pwr.waking = none ∧ t.pwr.wakeTime = Nat.min (cdiv (s.now - e) 1000) (2 ^ 32 - 1) ∧
         (st = .doze → t.pwr.chainsDue = some (e + 85000)) ∧
         t.dmp.selfRefresh = false ∧ (t.src 180).pending = true ∧ t.host = s.host ∧ t.store = s.store) ∧
     (∀ e st, s.pwr.waking = some (e, st) → s.held = [] → s.now < e + 1000 * wakeTicks st → exec .wakeComplete s = .next s)) ∧
  (∀ s : State,
     (s.pwr.timerHit = true →
       ∃ t, exec .pwrTimerExpiry s = .next t ∧ t.pwr.timerHit = false ∧ bit t.pwr.events 4 = true ∧ { t with pwr := s.pwr } = s ∧ t.pwr.state = s.pwr.state) ∧
     (s.pwr.timerHit = false → exec .pwrTimerExpiry s = .next s) ∧
     (s.fastClock = true → s.inService 181 = false →
       ∃ t, exec .pllUnlock s = .next t ∧ t.pwr.pllLock = false ∧ t.pwr.pllOff = some s.now ∧ bit t.pwr.events 10 = true ∧ (t.src 181).pending = true ∧
         t.pwr.state = s.pwr.state ∧ { t with pwr := s.pwr, car := s.car } = s) ∧
     (s.pllEnabled = true → s.held = [] → s.pwr.pllOff = none →
       exec .pllLock s = .next { s with pwr := { s.pwr with pllLock := true } }) ∧
     (∀ g, s.pllEnabled = true → s.held = [] → s.pwr.pllOff = some g →
       ∃ t, exec .pllLock s = .next t ∧ t.pwr = { s.pwr with pllLock := true, pllOff := none } ∧ t.store = s.store ∧ t.host = s.host ∧
         (∀ e, e < 4 → (s.se e).work ≠ none → (t.se e).started = (if (s.se e).started ≤ g then (s.se e).started + (s.now - g) else s.now))) ∧
     (s.pllEnabled = false → s.held = [] → exec .pllLock s = .next s))

/-- O44. Survival starts while line 17 warns and strokes may start, has a stroke engine write the last-gasp record as a work
item of its own, and ends when the line is inactive; the end of hold-up leaves every output undriven; none of them acts
outside survival. Clearing DMP_CTRL.ENABLE empties the tensor cache and has each SUSPENDED dump finished by a work item of
its own. (R98, R100, R101, R106, R145, R444, R445, R446, R464, R487) -/
def Obligations.SurvivalAndDumpDisable : Prop :=
  (∀ s : State,
     (s.dmp.survDue = true → (s.line 17).level = true → s.dmp.surviving = false → s.fastUp = true → s.boot.stage = 4 → s.dmp.survArmed = false →
         s.survDumping = false → s.inService 173 = false → (∀ p ∈ s.hub.free, p.1 < s.hub.nextFree) →
       ∃ t, exec .survivalStart s = .next t ∧ t.dmp.surviving = true ∧ t.dmp.survDue = false ∧ t.dmp.lgBegun = false ∧ (t.src 173).pending = true ∧
         t.lgWork (.free s.hub.nextFree) = true ∧ t.store = s.store ∧ t.host = s.host ∧ t.chips = s.chips) ∧
     (∀ e w, e < 4 → (s.se e).work = some w → s.lgWork w = true → s.dmp.surviving = true → s.dmp.lgBegun = false → s.fastRun = true →
       ∃ t, exec .lastGaspWrite s = .next t ∧ t.dmp.lgBegun = true ∧ t.dmp.selfRefresh = true ∧ t.pins.ready = false ∧ t.store = s.store ∧ t.host = s.host ∧
         (∀ b ∈ t.bursts, b.nor ≠ 0 → b.held = true) ∧
         (s.lgNewest = none → isErased (s.lgRecord 0) = true → t.nor = mwrite s.nor 0x100000 ((s.lgBytes 1).map (fun b => ~~~ b)) ∧ t.dmp.lgSeq = 1 ∧ t.dmp.lgWritten = true)) ∧
     (s.dmp.surviving = true → (s.line 17).level = false →
       ∃ t, exec .survivalEnd s = .next t ∧
         t.dmp = { s.dmp with surviving := false, survDue := false, selfRefresh := if s.dmp.lgBegun then false else s.dmp.selfRefresh } ∧
         t.pins = { s.pins with ready := if s.dmp.lgBegun then true else s.pins.ready } ∧ (∀ b ∈ t.bursts, b.held = false) ∧
         t.store = s.store ∧ t.nor = s.nor ∧ t.host = s.host ∧ t.chips = s.chips) ∧
     (s.dmp.surviving = true →
       ∃ t, exec .holdUpEnd s = .next t ∧ t.pins.dead = true ∧ t.pins.stopEn = 0 ∧ t.pins.trigEn = false ∧ t.pins.readyEn = false ∧ t.pins.ready = false ∧
         t.pins.qspiEn = false ∧ t.pins.dsEn = false ∧ t.pins.pcieTx = false ∧
         t.pwr.pllLock = false ∧ t.fuses = s.fuses ∧ t.nor = s.nor ∧ { t with pins := s.pins, pwr := s.pwr, chips := s.chips } = s) ∧
     (s.dmp.surviving = false ∨ (∀ e, e < 4 → ∀ w, (s.se e).work = some w → s.lgWork w = false) → exec .lastGaspWrite s = .next s) ∧
     (s.dmp.surviving = false → exec .survivalEnd s = .next s ∧ exec .holdUpEnd s = .next s)) ∧
  (∀ s : State, s.serves 0xC000 = true →
     (s.dmp.enable = true → (∀ p ∈ s.hub.free, p.1 < s.hub.nextFree) →
       ∃ t, exec .dumpDisable s = .next t ∧ t.dmp.enable = false ∧ t.dmp.cache = [] ∧ t.dmp.plans = s.dmp.plans ∧ t.store = s.store ∧ t.host = s.host ∧ t.chips = s.chips ∧
         (∀ n, n < 5 → (s.ctx n).state = .suspended → (t.ctx n).state = .finishing ∧ ∃ k i, (t.ctx n).work = some (.free k) ∧ t.item? (.free k) = some i ∧ i.desc = (s.ctx n).desc) ∧
         (∀ n, n < 5 → (s.ctx n).state ≠ .suspended → t.ctx n = s.ctx n)) ∧
     (s.dmp.enable = false → exec .dumpDisable s = .next s.linked))

/-- O45. PERST_N, a function-level reset and a link-down reset the endpoint, the rings, counters, queues, translation unit,
MSI-X table and ring caps, a function-level reset but for the configuration registers it keeps, and nothing of the chains,
stores, pins, lifecycle or power. Power-on reset leaves only the fuses, the NOR, host memory and time; its end latches the
straps, zeroes fabric time and makes a boot due at tick 3, and does nothing outside a power-on reset. (R84, R89, R102, R131,
R132, R278, R310, R338) -/
def Obligations.ResetsStartOver : Prop :=
  (∀ s : State, s.lcs.scrapReboot = false → s.boot.recoveryReboot = false →
     ∃ t c, exec .perstN s = .next t ∧ exec .functionLevelReset s = .next { t with cfg := c } ∧
       exec .dlDown s = .next { t with pins := { t.pins with linkUp := false, l1 := false } } ∧
       t.cfg = {} ∧ c.linkCtl = s.cfg.linkCtl ∧ c.aerStatus = s.cfg.aerStatus ∧ c.command = t.cfg.command ∧
       t.rings = [] ∧ t.counters = [] ∧ t.msix = [] ∧ t.pba = 0 ∧ t.held = [] ∧ t.auth = { s.auth with caps := [] } ∧
       t.htu.enabled = false ∧ t.htu.tlb = [] ∧ t.htu.ops = [] ∧ t.htu.log = [] ∧ t.car.queues = [] ∧
       t.store = s.store ∧ t.nor = s.nor ∧ t.sram = s.sram ∧ t.host = s.host ∧ t.chips = s.chips ∧ t.fuses = s.fuses ∧ t.lcs = s.lcs ∧ t.boot = s.boot ∧
       t.pwr = s.pwr ∧ t.pins = s.pins ∧ t.car.lines = s.car.lines ∧ t.run = s.run) ∧
  (∀ (s : State) (straps pulls : Nat),
     (∃ t, exec (.powerOnReset false straps pulls) s = .next t ∧ t.pins.inPor = true ∧ t.fuses = s.fuses ∧
       ((∀ b ∈ s.bursts, b.nor ≠ 1 ∧ b.nor ≠ 2) → t.nor = s.nor) ∧ t.host = s.host ∧ t.now = s.now ∧
       t.rings = [] ∧ t.counters = [] ∧ t.car = {} ∧ t.pwr = {} ∧ t.boot = {} ∧ t.lcs = {} ∧ t.auth = {} ∧ t.htu = {} ∧ t.hub = {} ∧ t.scan = {} ∧ t.run = {} ∧ t.cut = {} ∧
       t.trc = {} ∧ t.bhv = {} ∧ t.cfg = {}) ∧
     (s.pins.inPor = true → straps < 16 →
       ∃ t, exec (.powerOnReset true straps pulls) s = .next t ∧ t.pins.inPor = false ∧ t.pwr = { s.pwr with straps := straps } ∧ t.time = 0 ∧
         t.boot = s.boot.restart 0 (s.now + 1000) ∧ t.nor = s.nor ∧ t.fuses = s.fuses) ∧
     (s.pins.inPor = false → exec (.powerOnReset true straps pulls) s = .next s))

/-- O46. A REBOOT makes a boot with cause 2 due and resets the host side, and during a lifecycle request waits for its end.
LCS_NONCE_CTRL.NEW draws a nonce, a free value (log entry 2), and sets VALID; nothing else changes. (R131, R156, R180, R187) -/
def Obligations.RebootsAndNonces : Prop :=
  (∀ s : State, s.serves 0x210C = true → s.boot.due = none → (s.boot.stage = 4 ∨ s.boot.stage = 5) →
     (s.lcsRunning = false →
       ∃ t, exec .reboot s = .next t ∧ t.boot = { s.boot with due := some 2, resetDue := some s.now, rebootPend := false } ∧ t.pins.linkUp = false ∧ t.rings = [] ∧
         (∀ e, e < 4 → (t.se e).work = none) ∧ t.fuses = s.fuses ∧ t.nor = s.nor ∧ t.store = s.store) ∧
     (s.lcsRunning = true → exec .reboot s = .next { s.linked with boot := { s.boot with rebootPend := true } })) ∧
  (∀ s : State, s.serves 0x2020 = true →
     ∃ t, exec .nonceNew s = .next t ∧ t.lcs = { s.lcs with nonce := (s.freeWide 128).1, nonceValid := true } ∧
       { t with lcs := s.lcs, freeIx := s.freeIx } = s.linked)

/-- O47. A boot due and ready goes on by one stage a command (log entry 4): after its fuses in SCRAPPED it halts; else it
latches the state, takes its first slot once the PLL is locked, a first slot that passes starts, else the other, and with
both rejected it ends in RECOVERY. The boot-count record of a boot is written once, in the slot after the newest record's
when that is erased; the sector after the newest last-gasp record is erased and no other byte. (R133, R134, R136, R137,
R140, R145, R146) -/
def Obligations.BootsAndNorHousekeeping : Prop :=
  (∀ (s : State) (v : BootView) (cause : Nat), s.boot.due = some cause →
     (s.bootReady = false → exec (.boot v) s = .next s) ∧
     (s.bootReady = true → s.boot.fused = false → s.fuses.decode = 6 →
       ∃ t, exec (.boot v) s = .next t ∧ t.boot.stage = 6 ∧ t.boot.due = none ∧ t.lcs.state = 6 ∧ t.fuses.secret = BitVec.allOnes 512 ∧ t.fuses.groups = s.fuses.groups) ∧
     (s.bootReady = true → s.boot.fused = false → s.fuses.decode ≠ 6 →
       ∃ t, exec (.boot v) s = .next t ∧ t.boot.fused = true ∧ t.lcs.state = s.fuses.decode ∧ t.lcs.leading = s.fuses.leading ∧ t.lcs.nonceValid = false ∧
         t.lcs.wipePending = (s.fuses.decode == 5 && !s.fuses.wiped) ∧ (cause ≠ 0 → t.boot.count = (s.boot.count + 1) % 2 ^ 32) ∧
         { t with lcs := s.lcs, boot := s.boot } = s ∧ t.boot.stage = s.boot.stage) ∧
     (s.bootReady = true → s.boot.fused = true → s.pwr.pllLock = false → exec (.boot v) s = .next s) ∧
     (s.bootReady = true → s.boot.fused = true → s.pwr.pllLock = true →
       (s.boot.stage = 0 →
         ∃ t, exec (.boot v) s = .next t ∧ t.boot.stage = 1 ∧ t.boot.first = (if v.norOk then s.firstSlot else 0) ∧ t.pins.qspiEn = true ∧
           { t with boot := s.boot, pins := s.pins } = s) ∧
       (s.boot.stage = 1 → s.slotFail v.norOk s.boot.first = 0 →
         ∃ t, exec (.boot v) s = .next t ∧ t.boot.stage = 3 ∧ t.boot.slot = s.boot.first ∧ t.boot.fw = memFrom (s.slotCopy s.boot.first) ∧ { t with boot := s.boot } = s) ∧
       (s.boot.stage = 1 → s.slotFail v.norOk s.boot.first ≠ 0 →
         exec (.boot v) s = .next { s with boot := { s.boot with stage := 2, fallback := true, failFirst := s.slotFail v.norOk s.boot.first } }) ∧
       (s.boot.stage = 2 → s.slotFail v.norOk (1 - s.boot.first) = 0 →
         ∃ t, exec (.boot v) s = .next t ∧ t.boot.stage = 3 ∧ t.boot.slot = 1 - s.boot.first ∧ t.boot.fallback = s.boot.fallback ∧ { t with boot := s.boot } = s) ∧
       (s.boot.stage = 2 → s.slotFail v.norOk (1 - s.boot.first) ≠ 0 →
         ∃ t, exec (.boot v) s = .next t ∧ t.boot.stage = 5 ∧ t.boot.failSecond = s.slotFail v.norOk (1 - s.boot.first) ∧ t.boot.due = none ∧ t.pins.ready = false ∧
           t.pwr.state = .run) ∧
       (s.boot.stage = 3 →
         ∃ t, exec (.boot v) s = .next t ∧ t.boot.stage = 4 ∧ t.boot.slot = s.boot.slot ∧ t.boot.due = none ∧ t.boot.cause = s.boot.cause ∧
           t.pwr.state = .run ∧ t.pins.readyEn = true ∧ t.pins.ready = true ∧ t.pins.trigEn = true ∧ t.dmp.survDue = (s.line 17).level ∧
           t.dmp.survFromRun = false ∧ t.boot.time = cdiv (s.now - s.boot.tick0) 1000 ∧ t.nor = s.nor ∧ t.store = s.store ∧ t.fuses = s.fuses))) ∧
  (∀ s : State, s.boot.stage = 4 →
     (s.boot.countWritten = true ∨ s.secretPresent = false ∨ s.fastRun = false ∨ s.dmp.surviving = true → exec .bootCountRecord s = .next s) ∧
     (∀ i, s.fastRun = true → s.dmp.surviving = false → s.boot.countWritten = false → s.secretPresent = true → i = (s.bcNewest.map (fun j => (j + 1) % 128)).getD 0 → isErased (s.bcRecord i) = true →
       ∃ t, exec .bootCountRecord s = .next t ∧ t.boot.countWritten = true ∧ t.fuses = s.fuses ∧
         t.norRead (0x110000 + 64 * i) 4 = [0x48, 0x42, 0x43, 0x4E] ∧ t.norRead (0x110004 + 64 * i) 4 = leBytes 4 s.boot.count) ∧
     (∀ i, s.fastUp = true → s.dmp.surviving = false → s.lgNewest = some i →
       ∃ t, exec .lastGaspErase s = .next t ∧ (∀ a, 0x100000 + 4096 * ((i / 8 + 1) % 16) ≤ a → a < 0x100000 + 4096 * ((i / 8 + 1) % 16) + 4096 → t.norByte a = 0xFF) ∧
         (∀ a, ¬ (0x100000 + 4096 * ((i / 8 + 1) % 16) ≤ a ∧ a < 0x100000 + 4096 * ((i / 8 + 1) % 16) + 4096) → t.norByte a = s.norByte a) ∧ { t with nor := s.nor } = s))

/-- O48. A request that fails a check leaves fuses, state and nonce, with its result. One that passes, with no power cut and
no stuck bit in its operands (log entries 8, 33), burns every bit of its transition, unburns none, ends in the state the
fuses decode to, spends the nonce and erases what its target erases. While line 17 warns no lifecycle-group bit burns and a
SCRAPPED transition waits; a transition once begun goes on and ends with its result. (R172, R173, R174, R175, R176, R181,
R182, R183, R184, R185, R186, R188) -/
def Obligations.LifecycleRequestsBurnOrLeave : Prop :=
  ∀ (s : State) (v : LcsView) (ow : Option Work) (src : Nat) (d : List Nat), s.coreHead 0 = some (ow, src, d) → s.fastRun = true →
    (s.lcs.trans = none → s.lcsCheck ow { raw := d } ≠ 1 →
      ∃ t, exec (.lcsTransition v) s = .next t ∧ t.fuses = s.fuses ∧ t.lcs.state = s.lcs.state ∧ t.lcs.result = s.lcsCheck ow { raw := d } ∧
        t.lcs.from_ = s.lcs.state ∧ t.lcs.nonce = s.lcs.nonce ∧ t.lcs.nonceValid = s.lcs.nonceValid ∧ t.store = s.store ∧ t.nor = s.nor) ∧
    (s.lcs.trans = none → s.lcsCheck ow { raw := d } = 1 → (s.line 17).level = false → v.cut = none → v.stuck = [] →
      ∃ t, exec (.lcsTransition v) s = .next t ∧ s.fuses.stay t.fuses ∧
        (∀ b ∈ s.lcsBurns { raw := d } (s.freeWide 512).1, t.fuses.burned b = true) ∧
        t.lcs.trans = none ∧ t.lcs.state = t.fuses.decode ∧ t.lcs.result = 1 ∧ t.lcs.from_ = s.lcs.state ∧ t.lcs.to_ = LcsReq.target { raw := d } ∧
        t.lcs.nonceValid = false ∧
        (LcsReq.target { raw := d } = 5 → t.lcs.wipePending = true ∧ t.sram = [] ∧ t.store = s.store) ∧
        (LcsReq.target { raw := d } = 6 → t.sram = [] ∧ t.store = [] ∧ t.nor = []) ∧
        (LcsReq.target { raw := d } < 5 → t.sram = s.sram ∧ t.store = s.store ∧ t.nor = s.nor)) ∧
    (s.lcs.trans = none → s.lcsCheck ow { raw := d } = 1 → (s.line 17).level = true → v.cut = none →
      ∃ t, exec (.lcsTransition v) s = .next t ∧ t.fuses.groups = s.fuses.groups ∧ s.fuses.stay t.fuses ∧ t.store = s.store ∧ t.nor = s.nor ∧
        t.lcs.nonceValid = false ∧ (LcsReq.target { raw := d } = 6 → t.fuses = s.fuses ∧ t.lcs.trans ≠ none)) ∧
    (∀ r, s.lcs.trans = some r → (r.target = 6 → r.wiped = true) → (s.line 17).level = false → v.cut = none → v.stuck = [] →
      (∀ b ∈ r.left, (b.1 = 0 → b.2 < 512) ∧ (b.1 = 1 → b.2 < 384)) →
      ∃ t, exec (.lcsTransition v) s = .next t ∧ s.fuses.stay t.fuses ∧ (∀ b ∈ r.left, t.fuses.burned b = true) ∧ t.lcs.trans = none ∧
        t.lcs.state = t.fuses.decode ∧ t.lcs.result = (if r.bad then 0xC else 1) ∧ t.lcs.from_ = r.from_ ∧ t.lcs.to_ = r.target)

/-- O49. A certificate that fails a check leaves the certificates and the fuses; one that passes waits for the boot-count
record where a secret is present, then takes its slot with result OK; one that raises the floor burns the floor bits and
drops every other certificate below the new floor. (R196, R202, R203, R211, R212, R213) -/
def Obligations.CertificatesInstallOnTheirChecks : Prop :=
  ∀ (s : State) (v : CertView) (ow : Option Work) (src : Nat) (d : List Nat), s.coreHead 1 = some (ow, src, d) → s.fastRun = true →
    (s.certCheck d ≠ 1 →
      ∃ t, exec (.certCheckInstall v) s = .next t ∧ t.auth.certs = s.auth.certs ∧ t.auth.result = s.certCheck d ∧ t.fuses = s.fuses ∧ t.hub.coreQ = s.hub.coreQ.drop 1) ∧
    (s.certCheck d = 1 → s.secretPresent = true → s.boot.countWritten = false → exec (.certCheckInstall v) s = .next s) ∧
    (s.certCheck d = 1 → (s.secretPresent = false ∨ s.boot.countWritten = true) → bit (certAt d 7 1) 0 = false → v.cut = none →
      ∃ t n, exec (.certCheckInstall v) s = .next t ∧ n < 8 ∧ s.slotOf (certOf d) = some n ∧ tget none t.auth.certs n = some (certOf d) ∧ t.auth.result = 1 ∧
        t.auth.slot = n ∧ t.fuses = s.fuses ∧ t.hub.coreQ = s.hub.coreQ.drop 1) ∧
    (s.certCheck d = 1 → (s.secretPresent = false ∨ s.boot.countWritten = true) → bit (certAt d 7 1) 0 = true → v.cut = none → v.stuck = [] → (s.line 17).level = false →
      ∃ t n, exec (.certCheckInstall v) s = .next t ∧ tget none t.auth.certs n = some (certOf d) ∧ t.auth.result = 1 ∧ s.fuses.stay t.fuses ∧
        (∀ b ∈ s.fuses.floorBits (certAt d 0x20 4 / 2 ^ 24), bit t.fuses.floor b = true) ∧
        (∀ k c, tget none t.auth.certs k = some c → k ≠ n → t.fuses.floorCount * 2 ^ 24 ≤ c.serial))

/-- O50. A certificate drop, a stage check and a discovery's topology request end in order and their items go on: a drop
takes the certificates it names, a discovery leaves chips outside its chains. The wipe of RETURNED erases the dump store and
the NOR's user partition and burns RET_WIPED, and waits while line 17 warns. Neither goes on while the fast domain's clocks
are gated. (R52, R149, R167, R205, R211, R355) -/
def Obligations.HubCoreRequestsAndWipe : Prop :=
  (∀ (s : State) (w : Work) (i : Item), s.item? w = some i → i.wait = .core → (∀ n, w = .ring n → n < 512) →
     (s.fastRun = true → ∀ src d, s.coreHead 2 = some (some w, src, d) →
       ∃ t j, exec .hubCoreRequestDone s = .next t ∧ t.hub.coreQ = s.hub.coreQ.drop 1 ∧ t.item? w = some j ∧ j.wait = .no ∧
         (∀ n c, tget none t.auth.certs n = some c → ¬ (d.getD 0 0 = 1 ∨ (c.issuer = d.getD 1 0 ∧ c.serial = d.getD 2 0))) ∧ t.fuses = s.fuses) ∧
     (s.fastRun = true → ∀ src d, s.coreHead 3 = some (some w, src, d) →
       ∃ t j, exec .hubCoreRequestDone s = .next t ∧ t.hub.coreQ = s.hub.coreQ.drop 1 ∧ t.item? w = some j ∧ j.wait = .no ∧
         tget [] j.rep 900 = [BitVec.ofNat 8 (s.stageCheck i.desc)] ∧ t.auth = s.auth ∧ t.nor = s.nor) ∧
     (s.fastRun = true → ∀ src d, s.coreHead 4 = some (some w, src, d) →
       ∃ t j, exec .hubCoreRequestDone s = .next t ∧ t.hub.coreQ = s.hub.coreQ.drop 1 ∧ t.item? w = some j ∧ j.wait = .no ∧ t.auth = s.auth ∧
         (∀ f, f < 128 → bit (chainMask i.desc) (f / 16) = false → t.topo f = s.topo f)) ∧
     (s.hub.coreQ = [] ∨ s.fastRun = false → exec .hubCoreRequestDone s = .next s)) ∧
  (∀ (s : State) (stuck : Nat),
     (s.lcs.wipePending = true → s.lcs.state = 5 → s.boot.stage = 4 → s.fastRun = true → (s.line 17).level = false →
       ∃ t, exec (.returnedWipe stuck) s = .next t ∧ t.store = [] ∧ t.dmp = { s.dmp with sealMap := [] } ∧ t.scan = { s.scan with drBuf := [] } ∧
         (∀ a, 0x120000 ≤ a → t.norByte a = 0xFF) ∧ (∀ a, a < 0x120000 → t.norByte a = s.norByte a) ∧
         t.lcs.dsDone = true ∧ t.lcs.norDone = true ∧ t.lcs.percent = 100 ∧
         s.fuses.stay t.fuses ∧ (∀ b, b < 4 → bit stuck b = false → bit t.fuses.retWiped b = true) ∧
         (stuck = 0 → t.lcs.wipePending = false) ∧ t.lcs.state = 5 ∧ t.host = s.host) ∧
     (s.lcs.wipePending = false ∨ s.fastRun = false ∨ (s.line 17).level = true → exec (.returnedWipe stuck) s = .next s))

/-- O51. Outside survival: the scan ring while its guard is due, else the lowest eligible urgent ring, else the scan ring,
else, unless the bulk floor is due, the eligible normal ring in turn, and the eligible bulk ring where no other work waits.
(R55, R56, R57, R58, R59, R60) -/
def Obligations.ArbitrationFollowsItsOrder : Prop :=
  ∀ s : State, s.dmp.surviving = false →
    (s.eligible .scan = true → (s.hub.guard = true ∨ s.guardDue = true) → s.pick = some .scan) ∧
    (∀ n, n < 16 → s.hub.guard = false → s.guardDue = false → s.eligible (.ring n) = true → (∀ m, m < n → s.eligible (.ring m) = false) → s.pick = some (.ring n)) ∧
    ((∀ m, m < 16 → s.eligible (.ring m) = false) → s.eligible .scan = true → s.pick = some .scan) ∧
    ((∀ m, m < 16 → s.eligible (.ring m) = false) → s.eligible .scan = false → s.bulkFloor = false →
      ∀ n, 16 ≤ n → n < 448 → 16 ≤ s.hub.rr → s.hub.rr < 448 → s.eligible (.ring n) = true → (∀ m, 16 ≤ m → m < 448 → m ≠ n → s.eligible (.ring m) = false) → s.pick = some (.ring n)) ∧
    ((∀ m, m < 448 → s.eligible (.ring m) = false) → s.eligible .scan = false → s.hub.free = [] →
      ∀ n, 448 ≤ n → n < 512 → s.eligible (.ring n) = true → (∀ m, 448 ≤ m → m < 512 → m ≠ n → s.eligible (.ring m) = false) → s.pick = some (.ring n))

/-- O52. A decision gives a free engine, when no lower one is free, the stroke of the picked work item; a first stroke whose
command lacks a level ends denied, counted and recorded, with no stroke. A stroke that has waited its time at a full bound
yields its engine, and not before; the scan guard fires when it is due. (R53, R58, R62, R63, R189, R215, R262) -/
def Obligations.DecisionsYieldsAndTheGuard : Prop :=
  (∀ (s : State) (e n : Nat) (i : Item), e < 4 → n < 512 → s.fastUp = true → (s.se e).work = none → (∀ j, j < e → (s.se j).work ≠ none) →
     s.pick = some (.ring n) → (s.ring n).item = some i →
     (i.begun = true → (s.ring n).state = .active →
       ∃ t, exec (.arbiterDecision e) s = .next t ∧
         t.se e = { work := some (.ring n), opcode := opcodeOf i.desc, started := s.now, yieldWait := s.hub.yieldWait } ∧
         t.hub.strokes = (s.hub.strokes + 1) % 2 ^ 64 ∧ (t.ring n).item = some { i with engine := e } ∧ (∀ m, m ≠ n → t.ring m = s.ring m) ∧
         (∀ x, x ≠ e → t.se x = s.se x)) ∧
     (i.begun = false → descOdd i.desc = false → s.storeOdd i.desc = false → opcodes.contains (opcodeOf i.desc) = true → s.opcodeRefused i.desc = false →
       s.judge (.ring n) i.desc = none → s.contentRefused i.desc = false →
       ∃ t j, exec (.arbiterDecision e) s = .next t ∧
         t.se e = { work := some (.ring n), opcode := opcodeOf i.desc, started := s.now, yieldWait := s.hub.yieldWait } ∧
         (t.ring n).item = some j ∧ j.begun = true ∧ j.began = s.now ∧ j.stage = i.stage ∧ j.desc = i.desc ∧ j.engine = e ∧ t.auth = s.auth ∧
         (∀ f, f < 128 → bit j.fullMask f = decide (2 ≤ s.workLevel (.ring n) f))) ∧
     (i.begun = false → descOdd i.desc = false → s.storeOdd i.desc = false → opcodes.contains (opcodeOf i.desc) = true → s.opcodeRefused i.desc = false →
       ∀ x, s.judge (.ring n) i.desc = some x →
       ∃ t, exec (.arbiterDecision e) s = .next t ∧ (t.se e).work = none ∧ t.auth.denyCnt = satAdd s.auth.denyCnt 1 32 ∧ fld t.auth.denyLast 0 8 = opcodeOf i.desc ∧
         fld t.auth.denyLast 9 9 = n ∧ bit t.auth.denyLast 8 = false ∧ t.chips = s.chips ∧ t.counters = s.counters)) ∧
  (∀ (s : State) (e b since : Nat) (w : Work) (i : Item) (o : Op) (rest : List Op), e < 4 →
     ((s.se e).work = some w → (s.se e).waiting = some (b, since) → since + Nat.min (s.se e).yieldWait 1936 ≤ s.now → s.fastRun = true →
       s.item? w = some i → i.todo = o :: rest → (s.issueOp w o).2 ≠ none →
       ∃ t, exec (.strokeYield e) s = .next t ∧ (t.se e).work = none ∧ (t.se e).waiting = none ∧ t.hub.yields = satAdd s.hub.yields 1 32 ∧
         (∀ x, x ≠ e → t.se x = s.se x) ∧ t.chips = s.chips ∧ t.host = s.host) ∧
     ((s.se e).work = some w → (s.se e).waiting = some (b, since) → s.now < since + Nat.min (s.se e).yieldWait 1936 → s.now < (s.se e).started + 1936 →
       exec (.strokeYield e) s = .next s) ∧
     (s.fastRun = false → exec (.strokeYield e) s = .next s) ∧
     (s.guardDue = true → exec .scanGuardFire s = .next { s with hub := { s.hub with guard := true } }) ∧
     (s.guardDue = false → exec .scanGuardFire s = .next s))

/-- O53. At its time, and for an item that waits for it, the next read of a WAIT, an epoch's retry, a DISCOVER's settling, a
timed snapshot and a drain's timeout free the item and change nothing else; the timeouts of WAIT, FENCE and TRACE_STOP end
it with TIMEOUT; before its time a timeout changes no item. (R40, R271, R273, R274, R355, R508, R509, R510) -/
def Obligations.TimedWaitsEnd : Prop :=
  ∀ (s : State) (n : Nat) (i : Item), s.item? (workOf n) = some i →
    (∀ c : Instr,
      (c = .waitPoll n ∧ opcodeOf i.desc = 1 ∧ i.wait = .cond ∧ dbits i.desc 0x10 0 1 = 1 ∧ tget 0 i.x 3 ≤ s.now ∧ i.late s.now = false) ∨
      (c = .smapEpochRetry n ∧ opcodeOf i.desc = 0x32 ∧ i.stage = 103 ∧ s.fastClock = true ∧ ∃ t, i.wait = .ctl (some t) ∧ t ≤ s.now) ∨
      (c = .discoverSettle n ∧ opcodeOf i.desc = 0x50 ∧ i.stage = 3 ∧ ∃ t, i.wait = .ctl (some t) ∧ t ≤ s.now) ∨
      (c = .snapAtPassed n ∧ opcodeOf i.desc = 0x43 ∧ i.stage = 2 ∧ i.wait = .ctl none ∧ db i.desc 0x28 8 < s.time) ∨
      (c = .traceDrainTimeout n ∧ opcodeOf i.desc = 0x42 ∧ i.wait = .cond ∧ i.late s.now = true) →
      ∃ t j, exec c s = .next t ∧ t.item? (workOf n) = some j ∧ i.freed j ∧ (∀ v, v ≠ workOf n → t.item? v = s.item? v) ∧
        { t with rings := s.rings, scan := s.scan, hub := s.hub } = s) ∧
    (∀ c : Instr,
      (c = .waitTimeout n ∧ opcodeOf i.desc = 1 ∨ c = .fenceTimeout n ∧ opcodeOf i.desc = 3 ∨ c = .traceStopTimeout n ∧ opcodeOf i.desc = 0x41) →
      i.wait = .cond → i.over? s.now = true →
      ∃ t j, exec c s = .next t ∧ t.item? (workOf n) = some j ∧ j.wait = .no ∧ j.stage = doneStage ∧ j.errs = i.errs ++ [.timeout] ∧ j.detail = i.detail ∧
        (∀ v, v ≠ workOf n → t.item? v = s.item? v) ∧ { t with rings := s.rings, scan := s.scan, hub := s.hub } = s) ∧
    (∀ c : Instr, (c = .waitTimeout n ∨ c = .fenceTimeout n ∨ c = .traceStopTimeout n ∨ c = .traceDrainTimeout n) → i.late s.now = false ∨ (c ≠ .traceDrainTimeout n ∧ i.over? s.now = false) →
      ∃ t, exec c s = .next t ∧ ∀ v, t.item? v = s.item? v)

/-- O54. A step's first poll steps a core in MONITOR, and ends the command with ABORTED for another; its later polls end it
when the unit has halted again, with where it halted. A monitor's reply is read when it has come, a core not in MONITOR ends
the exchange with ABORTED, and no reply by the limit with TIMEOUT; until then it polls every 1 us. (R404, R405, R436) -/
def Obligations.StepsAndMonitorExchangesPoll : Prop :=
  (∀ (s : State) (n at_ : Nat) (i : Item), s.item? (workOf n) = some i → i.wait = .ctl (some at_) → at_ ≤ s.now → s.fastClock = true →
     (s.chain (stepUnit i.desc / 1024 / 16)).tagFree (workOf n).urgent = true →
     s.issueStatus (stepUnit i.desc / 1024) = none → (s.chip (stepUnit i.desc / 1024)).inReset = false →
     (opcodeOf i.desc = 0x14 → tget 0 i.x 0 = 0 → stepUnit i.desc % 512 < 32 → ((s.chip (stepUnit i.desc / 1024)).core (stepUnit i.desc % 512)).state = .monitor →
       ∃ t j, exec (.stepPoll n) s = .next t ∧ ((t.chip (stepUnit i.desc / 1024)).core (stepUnit i.desc % 512)).state = .stepping ∧ t.item? (workOf n) = some j ∧
         j.wait = .ctl (some (s.now + 1000)) ∧ j.stage = i.stage) ∧
     (opcodeOf i.desc = 0x14 → tget 0 i.x 0 = 0 → ((s.chip (stepUnit i.desc / 1024)).core (stepUnit i.desc % 512)).state ≠ .monitor →
       ∃ t j, exec (.stepPoll n) s = .next t ∧ t.chips = s.chips ∧ t.item? (workOf n) = some j ∧ j.wait = .no ∧ j.stage = doneStage ∧ j.errs = i.errs ++ [.aborted] ∧
         j.detail = ((s.chip (stepUnit i.desc / 1024)).core (stepUnit i.desc % 512)).stepDetail) ∧
     (opcodeOf i.desc = 0x14 → tget 0 i.x 0 ≠ 0 → ((s.chip (stepUnit i.desc / 1024)).core (stepUnit i.desc % 512)).state = .monitor →
       ∃ t j, exec (.stepPoll n) s = .next t ∧ t.chips = s.chips ∧ t.item? (workOf n) = some j ∧ j.wait = .no ∧ j.stage = doneStage ∧ j.errs = i.errs ∧
         j.detail = ((s.chip (stepUnit i.desc / 1024)).core (stepUnit i.desc % 512)).stepDetail) ∧
     (opcodeOf i.desc = 0x15 → tget 0 i.x 0 ≠ 0 → ((s.chip (stepUnit i.desc / 1024)).eng (stepUnit i.desc % 512)).state = .muffled →
       ∃ t j, exec (.stepPoll n) s = .next t ∧ t.chips = s.chips ∧ t.item? (workOf n) = some j ∧ j.wait = .no ∧ j.stage = doneStage ∧
         j.detail = ((s.chip (stepUnit i.desc / 1024)).eng (stepUnit i.desc % 512)).lastDone ∧
         j.errs = (if ((s.chip (stepUnit i.desc / 1024)).eng (stepUnit i.desc % 512)).lastDone = tget 0 i.x 2 then i.errs ++ [.aborted] else i.errs))) ∧
  (∀ (s : State) (n at_ f k : Nat) (i : Item), s.item? (workOf n) = some i → i.wait = .ctl (some at_) → at_ ≤ s.now → s.fastClock = true → tget 0 i.x 29 = 1 →
     f = tget 0 i.x 20 / 1024 → k = tget 0 i.x 20 % 512 → s.issueStatus f = none → (s.chip f).inReset = false → f < 128 → (s.chain (f / 16)).tagFree (workOf n).urgent = true →
     ((s.chip f).core k).wild = false → ((s.chip f).core k).odd ≠ 1 → (s.chip f).mbxOpen = false →
     (tget 0 i.x 26 ≠ 0 → ((s.chip f).core k).outFull = true → k < 32 → tget 0 i.x 22 = tget 0 i.x 25 + 1 →
       ∃ t j, exec (.monitorReplyPoll n) s = .next t ∧ ((t.chip f).core k).outFull = false ∧ t.item? (workOf n) = some j ∧ j.wait = .no ∧
         tget [] j.rep (7000 + tget 0 i.x 25) = leBytes 4 ((s.chip f).core k).mbxOut.toNat ∧ j.errs = i.errs) ∧
     (tget 0 i.x 26 = 0 → tget 0 i.x 25 = 0 → ((s.chip f).core k).state ≠ .monitor →
       ∃ t j, exec (.monitorReplyPoll n) s = .next t ∧ t.chips = s.chips ∧ t.item? (workOf n) = some j ∧ j.wait = .no ∧ j.monitorStatus = some .aborted) ∧
     (tget 0 i.x 26 ≠ 0 → ((s.chip f).core k).outFull = false → tget 0 i.x 27 ≤ s.now →
       ∃ t j, exec (.monitorReplyPoll n) s = .next t ∧ t.chips = s.chips ∧ t.item? (workOf n) = some j ∧ j.wait = .no ∧ j.monitorStatus = some .timeout) ∧
     (tget 0 i.x 26 ≠ 0 → ((s.chip f).core k).outFull = false → s.now < tget 0 i.x 27 →
       ∃ t j, exec (.monitorReplyPoll n) s = .next t ∧ t.chips = s.chips ∧ t.item? (workOf n) = some j ∧ j.wait = .ctl (some (s.now + 1000)) ∧ j.errs = i.errs))

/-- O55. Stopped checks drop a chip that cannot be read and note what was read; a drain poll ends the drain when nothing is
pending, or resumed units show; the deadline forces the engines still muffling; link polls end when the links are muffled or
the limit passes. (R416, R417, R418, R419, R431, R432, R434) -/
def Obligations.CutControllersPoll : Prop :=
  ∀ (s : State) (f : Nat) (x : CutChip), s.fastClock = true → (s.chain (f / 16)).tagFree true = true →
    (s.cut.phase = 1 → s.cut.chips = [x] → x.f = f → x.checked = false → x.due ≤ s.time → s.ctlRead f (wdaBase + 0x200) 36 = none →
      ∃ t, exec (.cutStoppedPoll f) s = .next t ∧ t.chips = s.chips ∧ ∃ y, t.cut.chips = [y] ∧ y.covered = false ∧ y.f = f ∧ t.cut.phase = 1) ∧
    (∀ p, s.cut.phase = 1 → s.cut.chips = [x] → x.f = f → x.checked = false → x.due ≤ s.time → s.ctlRead f (wdaBase + 0x200) 36 = some p →
      ∃ t y, exec (.cutStoppedPoll f) s = .next t ∧ t.chips = s.chips ∧ t.cut.chips = [y] ∧ y.stopped = picStopped p ∧ y.reads = x.reads + 1 ∧ y.due = s.time + 1000 ∧ y.f = f) ∧
    (∀ p, s.cut.phase = 2 → s.cut.chips = [x] → x.f = f → x.draining = true → s.cut.pollDue ≤ s.time → s.ctlRead f (wdaBase + 0x200) 36 = some p →
      ∃ t y, exec .drainPoll s = .next t ∧ t.chips = s.chips ∧ t.cut.chips = [y] ∧
        (picStopped p = false → y.resumed = true ∧ t.cut.phase = 0) ∧
        (picStopped p = true → (picPend p).all (· == 0) = true → y.stillAt = some s.time ∧ t.cut.phase = 0 ∧ t.cut.drained = s.time) ∧
        (picStopped p = true → (picPend p).all (· == 0) = false → y.stillAt = none ∧ t.cut.phase = 2 ∧ t.cut.pollDue = s.time + 1000)) ∧
    (s.cut.phase = 2 → s.cut.forced = false → s.cut.ref + 1000 * s.cut.drainUs ≤ s.time → s.time < s.cut.pollDue → s.cut.chips = [x] → x.f = f → x.draining = true → f < 128 →
      s.addressable f = true → (s.chip f).inReset = false →
      ∃ t, exec .drainDeadline s = .next t ∧ t.cut = { s.cut with forced := true } ∧ (∀ g, g ≠ f → t.chip g = s.chip g) ∧
        ∀ e, e < 512 → ((s.chip f).eng e).state = .muffling → ((t.chip f).eng e).state = .forced ∧ ((t.chip f).eng e).cause = 5) ∧
    (s.cut.phase = 2 → s.time < s.cut.pollDue → s.cut.forced = true ∨ s.time < s.cut.ref + 1000 * s.cut.drainUs → exec .drainDeadline s = .next s) ∧
    (∀ p, s.cut.phase = 2 → s.cut.chips = [x] → x.f = f → x.draining = true → s.cut.pollDue ≤ s.time → s.ctlRead f (wdaBase + 0x200) 36 = some p →
      picStopped p = true → (picPend p).all (· == 0) = true → ∃ t, exec .drainDeadline s = .next t ∧ t.cut.phase = 0 ∧ t.cut.forced = s.cut.forced ∧ t.chips = s.chips) ∧
    (∀ p, s.cut.phase = 3 → s.cut.chips = [x] → x.f = f → x.covered = true → s.cut.pollDue ≤ s.time → s.ctlRead f (wdaBase + 0x100) 12 = some p →
      ∃ t y, exec .linkPoll s = .next t ∧ t.chips = s.chips ∧ t.cut.chips = [y] ∧ y.links = p.map (fun v => fld v 12 2) ∧ t.cut.phase = (if y.muffled then 0 else 3)) ∧
    (s.cut.phase = 3 → s.cut.linkFrom + 1000 * s.cut.linkUs ≤ s.time → s.time < s.cut.pollDue → s.cut.chips = [x] → (x.covered = true → x.awaited.length = 12) →
      ∃ t, exec .linkLimitExpiry s = .next t ∧ t.cut = { s.cut with phase := 0 } ∧ t.chips = s.chips)

/-- O56. The first stroke of NOP ends OK; WAIT on a counter ends OK when its condition holds and else waits, and on host
memory reads it; SIGNAL sets or adds to its counter or writes host memory; FENCE ends OK or waits for what it owes. PEAL
counts, pulses the drivable lines of its mask and ends or waits for its confirmation; TOLL arms the chips of its mask, waits
for TRIG_IN, or disarms. (R268, R269, R270, R271, R272, R273, R378, R383, R384, R386, R387, R401) -/
def Obligations.SyncPealAndTollRun : Prop :=
  (∀ (s : State) (e : Nat) (w : Work) (i : Item),
     s.Ends (.nop e) e 0x00 w i s i.done .ok ∧
     (∀ v, dbits i.desc 0x10 0 1 = 0 → v = (s.counter (dbits i.desc 0x12 0 12)).val.toNat → waitHolds (dbits i.desc 0x10 1 2) v (db i.desc 0x18 8) = true →
       s.Ends (.wait e) e 0x01 w i s { i.done with detail := lo32 v } .ok) ∧
     (∀ v, dbits i.desc 0x10 0 1 = 0 → v = (s.counter (dbits i.desc 0x12 0 12)).val.toNat → waitHolds (dbits i.desc 0x10 1 2) v (db i.desc 0x18 8) = false →
       s.Waits (.wait e) e 0x01 w i s { i with detail := lo32 v, wait := .cond, stage := 3 }) ∧
     (dbits i.desc 0x10 0 1 = 1 → s.Sends (.wait e) e 0x01 w i s { i.push [.hrd (db i.desc 0x20 8) 8] with stage := 1 }) ∧
     (∀ k u, dbits i.desc 0x10 0 1 = 0 → k = dbits i.desc 0x12 0 12 →
       u = s.synOp k { rank := synRank w (s.engineOf w), add := dbits i.desc 0x10 1 1 == 1, val := BitVec.ofNat 64 (db i.desc 0x18 8), mask := ~~~ 0 } →
       s.Ends (.signal e) e 0x02 w i u { i.done with detail := lo32 (u.counter k).val.toNat } .ok ∧
       ((s.counter k).cycle ≠ s.now → (u.counter k).val =
         (if dbits i.desc 0x10 1 1 = 0 then BitVec.ofNat 64 (db i.desc 0x18 8) else (s.counter k).val + BitVec.ofNat 64 (db i.desc 0x18 8)))) ∧
     (dbits i.desc 0x10 0 1 = 1 → s.Sends (.signal e) e 0x02 w i s (i.push [.hwr (db i.desc 0x20 8) (leBytes 8 (db i.desc 0x18 8))]).done) ∧
     (s.owed w i.desc = [] → s.Ends (.fence e) e 0x03 w i s i.done .ok) ∧
     (∀ o, s.owed w i.desc = o → o ≠ [] → s.Waits (.fence e) e 0x03 w i s { i with x := o, detail := o.length, wait := .cond, stage := 1 })) ∧
  (∀ (s : State) (e m : Nat) (w : Work) (i : Item), m = db i.desc 0x10 1 →
     (m = 0 → s.Ends (.peal e) e 0x10 w i s i.done .ok) ∧
     (∀ u, u = ({ s with run := { s.run with pealCnt := satAdd s.run.pealCnt 1 32 } }.stopRequest m s.time).stopInstant 1 m s.time → m ≠ 0 →
       (dbits i.desc 0x11 0 1 = 0 → s.Ends (.peal e) e 0x10 w i u { i.done with detail := s.drivenMask m + place (m ^^^ s.drivenMask m) 8 8 } .ok) ∧
       (dbits i.desc 0x11 0 1 = 1 → s.Waits (.peal e) e 0x10 w i u { i with
         detail := s.drivenMask m + place (m ^^^ s.drivenMask m) 8 8, errs := s.reachErrs (fun f => bit m (f / 16)), stage := 1, wait := .ctl none }) ∧
       (∀ k, k < 8 → bit m k = true → s.drivable k = true → bit u.pins.stopOut k = false ∧ tget 0 u.pins.pulse k = s.now + 1) ∧
       (∀ k, k < 8 → bit m k = false → bit u.pins.stopOut k = bit s.pins.stopOut k)) ∧
     (s.run.tollState = .none_ →
       (dbits i.desc 0x11 0 2 = 0 →
         s.Sends (.toll e) e 0x11 w i { s.tollDrop w with run := { (s.tollDrop w).run with tollState := .arming, tollMask := m, tollT := db i.desc 0x18 8, backup := true } }
           ((chipsOf m s.addressable).foldl (fun (j : Item) f => j.pushSeq
             [regWr f (wdaBase + 0x300) (lo32 (db i.desc 0x18 8)), regWr f (wdaBase + 0x304) (hi32 (db i.desc 0x18 8)), regWr f (wdaBase + 0x308) 1, .rd f (wdaBase + 0x308) 8])
             { i with stage := 1, errs := s.reachErrs (inMask m), x := tput 0 (tput 0 [] 0 (chipsOf m s.addressable).length) 1 1 })) ∧
       (dbits i.desc 0x11 0 2 = 1 →
         s.Ends (.toll e) e 0x11 w i { s.tollDrop w with
           run := { (s.tollDrop w).run with tollState := .waitTrig, tollMask := m, tollEdge := dbits i.desc 0x11 2 2, tollOffset := db i.desc 0x18 8 } } i.done .ok) ∧
       (dbits i.desc 0x11 0 2 = 2 →
         s.Sends (.toll e) e 0x11 w i (s.tollDrop w)
           { i.push ((chipsOf m s.addressable).map (fun f => regWr f (wdaBase + 0x308) 0)) with stage := 1, errs := s.reachErrs (inMask m) })))

/-- O57. MUFFLE, RESUME, BREAK_SET and BREAK_CLEAR issue their register writes chip by chip, those of the whole selection
and of a core's breakpoint as stated; a step of a core number that no chip has ends CHIP_ABSENT, of the other unit class
ABORTED, of an unreachable chip with that chip's status, and else waits for the chain controller. (R388, R389, R390, R391,
R392, R398, R402, R403, R404, R405, R406, R407) -/
def Obligations.RunControlDescriptorsRun : Prop :=
  ∀ (s : State) (e : Nat) (w : Work) (i : Item),
    s.Sends (.muffle e) e 0x12 w i s (s.pushChips i (goOps i.desc)) ∧
    (∀ f, opcodeOf i.desc = 0x12 → selAll i.desc = true → goOps i.desc f = [regWr f (wdaBase + 0x2E0) 9]) ∧
    s.Sends (.resume e) e 0x13 w i (s.resumeRaise i.desc) (s.pushChips i (goOps i.desc)) ∧
    (∀ f, opcodeOf i.desc = 0x13 → selAll i.desc = true → dbits i.desc 0x12 1 1 = 0 → goOps i.desc f = [regWr f (wdaBase + 0x2E0) 10]) ∧
    (∀ f, opcodeOf i.desc = 0x13 → selAll i.desc = true → dbits i.desc 0x12 1 1 = 1 → goOps i.desc f =
      [regWr f (wdaBase + 0x2E8) (lo32 (db i.desc 0x20 8)), regWr f (wdaBase + 0x2EC) (hi32 (db i.desc 0x20 8)), regWr f (wdaBase + 0x2E0) 14]) ∧
    s.Sends (.breakSet e) e 0x16 w i s (s.pushChips i (breakOps i.desc)) ∧
    (∀ f u, opcodeOf i.desc = 0x16 → dbits i.desc 0x20 0 2 = 0 → breakUnitOps i.desc f u =
      [regWr f (coreWin + 0x1000 * u + (0x104 + 8 * dbits i.desc 0x21 0 3)) 0, regWr f (coreWin + 0x1000 * u + (0x100 + 8 * dbits i.desc 0x21 0 3)) (db i.desc 0x24 4),
       regWr f (coreWin + 0x1000 * u + (0x104 + 8 * dbits i.desc 0x21 0 3)) (1 + place (dbits i.desc 0x22 0 2) 1 2)]) ∧
    s.Sends (.breakClear e) e 0x17 w i s (s.pushChips i (breakOps i.desc)) ∧
    (∀ f u, opcodeOf i.desc = 0x17 → dbits i.desc 0x20 0 2 = 0 → dbits i.desc 0x21 3 1 = 0 →
      breakUnitOps i.desc f u = [regWr f (coreWin + 0x1000 * u + (0x104 + 8 * dbits i.desc 0x21 0 3)) 0]) ∧
    (∀ (engine : Bool) (c : Instr) (op : Nat), (engine = false ∧ c = .stepCore e ∧ op = 0x14) ∨ (engine = true ∧ c = .stepEngine e ∧ op = 0x15) →
      (bit (stepUnit i.desc) 9 = false → 32 ≤ stepUnit i.desc % 512 → s.Ends c e op w i s (i.fail .chipAbsent) .chipAbsent) ∧
      (bit (stepUnit i.desc) 9 ≠ engine → (engine = false ∨ stepUnit i.desc % 512 < 32) → s.Ends c e op w i s (i.fail .aborted) .aborted) ∧
      (bit (stepUnit i.desc) 9 = engine → (engine = true ∨ stepUnit i.desc % 512 < 32) →
        (∀ x, s.issueStatus (stepUnit i.desc / 1024) = some x → s.Ends c e op w i s (i.fail x) x) ∧
        (s.issueStatus (stepUnit i.desc / 1024) = none → s.Waits c e op w i s { i with stage := 1, wait := .ctl (some s.now) })))

/-- O58. Each issues the reads or writes of its range, or ends OK when its length is 0; a context access asks the core's
monitor, and ends ABORTED on an engine and CHIP_ABSENT on a core number that no chip has. (R151, R152, R436, R447, R448,
R449, R450, R451) -/
def Obligations.AccessDescriptorsRun : Prop :=
  ∀ (s : State) (e : Nat) (w : Work) (i : Item),
    (dbits i.desc 0x10 0 1 = 0 →
      (regCount i.desc ≠ 0 → s.Sends (.readReg e) e 0x20 w i s { i.push [regRead (dbits i.desc 0x14 10 7) (db i.desc 0x18 8) (regCount i.desc)] with stage := 1 }) ∧
      (regCount i.desc = 0 → s.Ends (.readReg e) e 0x20 w i s i.done .ok) ∧
      s.Sends (.writeReg e) e 0x21 w i s { i.push [regWr (dbits i.desc 0x14 10 7) (db i.desc 0x18 8) (db i.desc 0x28 4)] with stage := 2 }) ∧
    (∀ u, dbits i.desc 0x10 0 1 = 1 → u = dbits i.desc 0x14 0 17 →
      (bit u 9 = true → s.Ends (.readReg e) e 0x20 w i s (i.fail .aborted) .aborted ∧ s.Ends (.writeReg e) e 0x21 w i s (i.fail .aborted) .aborted) ∧
      (bit u 9 = false → regCount i.desc = 0 → s.Ends (.readReg e) e 0x20 w i s i.done .ok) ∧
      (bit u 9 = false → 32 ≤ u % 512 → s.Ends (.writeReg e) e 0x21 w i s (i.fail .chipAbsent) .chipAbsent) ∧
      (bit u 9 = false → u % 512 < 32 → s.issueStatus (u / 1024) = none → ((s.chip (u / 1024)).core (u % 512)).odd ≠ 3 →
        (regCount i.desc ≠ 0 → s.Waits (.readReg e) e 0x20 w i s { i.askMonitor s.now u (db i.desc 0x18 8) (regCount i.desc) false (db i.desc 0x28 4) with stage := 3 }) ∧
        s.Waits (.writeReg e) e 0x21 w i s { i.askMonitor s.now u (db i.desc 0x18 8) 1 true (db i.desc 0x28 4) with stage := 3 })) ∧
    (db i.desc 0x14 4 = 0 → s.Ends (.readMem e) e 0x22 w i s i.done .ok ∧ s.Ends (.writeMem e) e 0x23 w i s i.done .ok) ∧
    (∀ u n, db i.desc 0x14 4 ≠ 0 → u = (if memHub i.desc then { s with freeIx := s.freeIx + 8192 } else s) → n = batchLen (db i.desc 0x18 8) (db i.desc 0x14 4) 0 →
      (∀ j, j = s.batchReads i (db i.desc 0x18 8) n →
        s.Sends (.readMem e) e 0x22 w i u { j with stage := 1, x := tput 0 [] 2 j.nextIx }) ∧
      (∀ j, j = i.push (hostReads (db i.desc 0x20 8) n) →
        s.Sends (.writeMem e) e 0x23 w i u { j with stage := 1, x := tput 0 [] 2 j.nextIx })) ∧
    (∀ f a n, memHub i.desc = false → f = dbits i.desc 0x11 0 7 → s.batchReads i a n = (memPieces a n).foldl (fun (j : Item) p => j.push [.rd f (a + p.1) p.2]) i) ∧
    s.Sends (.installMonitor e) e 0x24 w i s { i.push (((s.rangeChips i.desc).map (fun f => ((maskCores i.desc).map (fun n =>
      [OpK.wr f (coreMemBase + 0x10000 * n + 0xE000) (s.monitorCopy.take 4096), OpK.wr f (coreMemBase + 0x10000 * n + 0xF000) (s.monitorCopy.drop 4096)])).flatten)).flatten)
      with stage := 1 }

/-- O59. A plan of count 0 is cleared unless in use, another is read; a dump takes a free context and issues its header or
its map's base, arms survival, or ends ABORTED with its cause; a resume continues the context its cursor names; an abort
stops it, or disarms survival; a drain reads the store or the sealed input (log entry 31: the order of causes). (R437, R438,
R443, R444, R452, R453, R454, R455, R456, R457, R470, R471) -/
def Obligations.DumpDescriptorsRun : Prop :=
  ∀ (s : State) (e : Nat) (w : Work) (i : Item),
    (planCount i.desc = 0 → s.planBusy (planId i.desc) = false → s.Ends (.dumpPlan e) e 0x30 w i (s.putPlan (planId i.desc) []) i.done .ok) ∧
    (planCount i.desc = 0 → s.planBusy (planId i.desc) = true → s.Ends (.dumpPlan e) e 0x30 w i s { i.fail .aborted with detail := 0x80000008 } .aborted) ∧
    (planCount i.desc ≠ 0 → s.Sends (.dumpPlan e) e 0x30 w i s { i.push (hostReads (db i.desc 0x18 8) (32 * planCount i.desc)) with stage := 1 }) ∧
    ((dbits i.desc 0x12 2 1 = 1 → s.Ends (.dumpRun e) e 0x31 w i (s.armSurvival i.desc) i.done .ok) ∧
      (∀ code, s.dumpBar (dbits i.desc 0x11 1 1 == 1) = some code →
        (dbits i.desc 0x12 2 1 = 0 → s.Ends (.dumpRun e) e 0x31 w i s { i.fail .aborted with detail := code } .aborted) ∧
        s.Ends (.dumpTensor e) e 0x32 w i s { i.fail .aborted with detail := code } .aborted) ∧
      (s.dumpBar (dbits i.desc 0x11 1 1 == 1) = none → s.freeCtx = none →
        (dbits i.desc 0x12 2 1 = 0 → s.Ends (.dumpRun e) e 0x31 w i s { i.fail .aborted with detail := 0x80000001 } .aborted) ∧
        s.Ends (.dumpTensor e) e 0x32 w i s { i.fail .aborted with detail := 0x80000001 } .aborted) ∧
      (∀ n, s.dumpBar (dbits i.desc 0x11 1 1 == 1) = none → s.freeCtx = some n →
        (∀ t, t = s.newCtx n i.desc w false false → dbits i.desc 0x12 2 1 = 0 → tget [] s.dmp.plans (planId i.desc) ≠ [] → (t.ctx n).noSpace = false →
          s.Sends (.dumpRun e) e 0x31 w i t
            { ({ i with stage := 1, x := tput 0 [] 10 (n + 1) } : Item).emit (t.ctx n) 0 (t.sdfHeader (t.ctx n) 0 0 0 0 0) with stage := 2 }) ∧
        ((∀ k, k < 5 → (s.ctx k).state = .free ∨ (s.ctx k).tensor = false) →
          s.Sends (.dumpTensor e) e 0x32 w i (s.newCtx n i.desc w true false)
            { ({ i with x := tput 0 (tput 0 [] 10 (n + 1)) 18 1 } : Item).push [.rd (mapFabric i.desc) (wdaBase + 0x10) 8] with stage := 101 }))) ∧
    (s.dmp.enable = false → s.Ends (.dumpResume e) e 0x33 w i s { i.fail .aborted with detail := 0x80000007 } .aborted) ∧
    (s.dmp.enable = true → (∀ n, s.cursorHit i.desc = some n → (s.ctx n).state ≠ .suspended) →
      s.Ends (.dumpResume e) e 0x33 w i s { i.fail .aborted with detail := 0x80000006 } .aborted) ∧
    (∀ n c, s.dmp.enable = true → s.cursorHit i.desc = some n → (s.ctx n).state = .suspended →
      c = { (s.ctx n).rewind (db i.desc 0x10 4) with state := .running, work := some w } → c.out < 512 →
      s.Sends (.dumpResume e) e 0x33 w i (s.setCtx n c)
        { ({ i with stage := 1, x := tput 0 [] 10 (n + 1) } : Item).emit c 0 ((s.setCtx n c).sdfHeader c 0 0 0 0 0) with stage := 2 }) ∧
    (dbits i.desc 0x16 0 1 = 1 → s.Ends (.dumpAbort e) e 0x34 w i { s with dmp := { s.dmp with
      survArmed := false, survPlan := 0, survCompress := false, survCut := false, survBlock := 0, survBlocks := 0 } } i.done .ok) ∧
    (dbits i.desc 0x16 0 1 = 0 → s.cursorHit i.desc = none → s.Ends (.dumpAbort e) e 0x34 w i s { i.fail .aborted with detail := 0x80000006 } .aborted) ∧
    (∀ n, dbits i.desc 0x16 0 1 = 0 → s.cursorHit i.desc = some n → (s.ctx n).state = .running → (s.ctx n).work ≠ some w →
      s.Waits (.dumpAbort e) e 0x34 w i (s.stopCtx n 2 0x80000009) { i with stage := 1, wait := .ctl none, x := tput 0 [] 11 (n + 1) }) ∧
    (drainOpen i.desc = true → s.Sends (.storeDrain e) e 0x35 w i s { i.push (hostReads (db i.desc 0x20 8) 512) with stage := 10 }) ∧
    (drainOpen i.desc = false → s.boot.dsSize = 0 → s.Ends (.storeDrain e) e 0x35 w i s { i.fail .aborted with detail := 0x80000005 } .aborted) ∧
    (∀ k, drainOpen i.desc = false → s.boot.dsSize ≠ 0 →
      k = Nat.min 128 (Nat.min (db i.desc 0x2C 4) (db i.desc 0x28 4)) → k ≠ 0 →
      s.Sends (.storeDrain e) e 0x35 w i (s.freeWide 128).2 { i.push ((List.range (cdiv k 8)).map (fun q =>
        OpK.dsRd (512 * db i.desc 0x14 4 + 4096 * q) (512 * Nat.min 8 (k - 8 * q)))) with stage := 1, x := tput 0 [] 5 k, rep := tput [] [] 8004 (leBytes 16 (s.freeWide 128).1.toNat) }) ∧
    (drainOpen i.desc = false → s.boot.dsSize ≠ 0 → db i.desc 0x2C 4 = 0 → s.Starts e 0x35 w i → ∃ t, exec (.storeDrain e) s = .next t ∧ t.store = s.store)

/-- O60. TRACE_ARM sets up a capture and writes its taps or ends ABORTED with its cause; TRACE_STOP writes its marker;
TRACE_DRAIN copies records to host memory, waits or ends; COUNTER_SNAP latches its chips; DISCOVER and CHAIN_ENABLE train
their chains, TIME_ALIGN recalibrates or probes. LCS_REQUEST, CERT_INSTALL and FW_STAGE read their input, CERT_DROP asks the
hub core, SLEEP posts its request, HTU_INVALIDATE and SHARD_INVALIDATE drop what they cover, CUT_COLLECT begins its cut, and
each of the busy ones ends ABORTED. (R112, R204, R205, R303, R355, R364, R365, R416, R484, R507, R508, R510) -/
def Obligations.TraceChainAndHubDescriptorsRun : Prop :=
  (∀ (s : State) (e : Nat) (w : Work) (i : Item),
     (∀ code, (s.trc.enable = false ∧ code = 0x80000001) ∨ (s.trc.enable = true ∧ s.trc.state.armed = true ∧ code = 0x80000002) ∨
         (s.trc.enable = true ∧ s.trc.state.armed = false ∧ s.trc.ring ≠ [] ∧ dbits i.desc 0x12 4 1 = 0 ∧ code = 0x80000003) →
       s.Ends (.traceArm e) e 0x40 w i s { i.fail .aborted with detail := code } .aborted) ∧
     (s.trc.enable = true → s.trc.state.armed = false → s.trc.ring = [] ∨ dbits i.desc 0x12 4 1 = 1 →
       s.Sends (.traceArm e) e 0x40 w i (s.traceSetup i.desc) (s.pushChips i (fun f => [regWr f (wdaBase + 0x504) (db i.desc 0x28 4),
         regWr f (wdaBase + 0x500) (1 + place (dbits i.desc 0x12 1 1) 1 1 + place (dbits i.desc 0x12 2 1) 2 1 + place (db i.desc 0x14 2) 16 16)]))) ∧
     (s.trc.state = .idle ∨ s.trc.state = .stopped ∨ s.trc.state = .flushing → s.Ends (.traceStop e) e 0x41 w i s i.done .ok) ∧
     (s.trc.state = .streaming ∨ s.trc.state = .pre ∨ s.trc.state = .post →
       s.Sends (.traceStop e) e 0x41 w i (s.stopMarker 0) { i.push (s.armedChips.map (fun f => regWr f (wdaBase + 0x500) 0)) with stage := 1 }) ∧
     ((s.otherDrain w = true → s.Ends (.traceDrain e) e 0x42 w i s { i.fail .aborted with detail := 0x80000004 } .aborted) ∧
       (s.otherDrain w = false →
         (drainWaits i.desc = true → s.drainReady i = false → s.Waits (.traceDrain e) e 0x42 w i s { i with stage := 1, x := tput 0 [] 7 1, wait := .cond }) ∧
         (drainWaits i.desc = false → s.trc.ring = [] → (drainFinal i.desc = false ∨ s.trc.state = .stopped ∨ s.trc.state = .idle) →
           s.Ends (.traceDrain e) e 0x42 w i s { i.done with x := tput 0 [] 7 1 } .ok) ∧
         (drainWaits i.desc = false → s.trc.ring = [] → drainFinal i.desc = true → s.trc.state ≠ .stopped → s.trc.state ≠ .idle → drainCap i.desc ≠ 0 → i.late s.now = false →
           s.Waits (.traceDrain e) e 0x42 w i s { i with stage := 3, x := tput 0 [] 7 1, wait := .cond }) ∧
         (∀ n, drainWaits i.desc = false → toStore i.desc = false → n = Nat.min (Nat.min s.trc.ring.length (db i.desc 0x20 8 / 16)) 4096 → n ≠ 0 →
           s.Sends (.traceDrain e) e 0x42 w i s { i.push (hostWrites (db i.desc 0x18 8) ((s.trc.ring.take n).map TraceRec.bytes).flatten) with
             stage := 3, x := tput 0 (tput 0 (tput 0 (tput 0 [] 7 1) 2 s.trc.ring.length) 1 n) 3 n }))) ∧
     (∀ j, j = s.pushChips i (snapOps i.desc) →
       s.Sends (.counterSnap e) e 0x43 w i s { j with x := tput 0 (tput 0 j.x 12 (s.snapChips i).length) 13 s.time }) ∧
     (∀ f, dbits i.desc 0x12 1 1 = 0 → snapOps i.desc f = [regWr f (wdaBase + 0x600) (1 + place (dbits i.desc 0x12 2 1) 2 1)])) ∧
  (∀ (s : State) (e : Nat) (w : Work) (i : Item),
     (∀ u, u = (chainsOf (chainMask i.desc)).foldl State.enableChain s → u.item? w = some i → (chainsOf (chainMask i.desc)).any (fun k => (u.chain k).training) = true →
       s.Waits (.discover e) e 0x50 w i u { i with stage := 1, wait := .ctl none } ∧
       (dbits i.desc 0x11 0 1 = 0 → s.Waits (.chainEnable e) e 0x52 w i u { i with stage := 1, wait := .ctl none })) ∧
     (∀ u v, u = (chainsOf (chainMask i.desc)).foldl State.enableChain s → u.item? w = some i → (chainsOf (chainMask i.desc)).any (fun k => (u.chain k).training) = false →
       v = (chainsOf (chainMask i.desc)).foldl (fun (t : State) k =>
         if (t.chain k).state = ChainState.up then t.setChain k { t.chain k with present := (t.chain k).present ||| (2 ^ (t.chain k).reach - 1) } else t) u →
       s.Sends (.discover e) e 0x50 w i v
         { i.push ((v.inReach (chainMask i.desc)).map (fun f => regWr f (wdaBase + 4) (f + 2 ^ 31))) with stage := 2, x := tput 0 [] 3 s.now } ∧
       (dbits i.desc 0x11 0 1 = 0 →
         s.Sends (.chainEnable e) e 0x52 w i v { i.push ((v.inReach (chainMask i.desc)).map (fun f => OpK.rd f wdaBase 64)) with stage := 2 })) ∧
     (∀ u, u = s.disableChains (chainMask i.desc) → u.item? w = some i → dbits i.desc 0x11 0 1 = 1 → s.Ends (.chainEnable e) e 0x52 w i u i.done .ok) ∧
     (∀ up down, up = chainsOf (s.stateMask (chainMask i.desc) .up) → down = (if up.length = (chainsOf (chainMask i.desc)).length then [] else [Status.chainDown]) →
       (dbits i.desc 0x11 0 1 = 1 → up ≠ [] → (∀ k ∈ up, (s.chain k).reach ≤ 16) →
         s.Waits (.timeAlign e) e 0x51 w i (up.foldl State.recalibrate s) { i with stage := 1, wait := .ctl none, errs := down, x := tput 0 [] 1 s.bhv.syncCnt }) ∧
       (dbits i.desc 0x11 0 1 = 0 ∨ up = [] →
         s.Sends (.timeAlign e) e 0x51 w i s { i.push ((chipsOf (chainMask i.desc) s.addressable).map OpK.probe) with stage := 2, errs := down }))) ∧
  (∀ (s : State) (e : Nat) (w : Work) (i : Item),
     s.Sends (.lcsRequest e) e 0x60 w i s { i.push (hostReads (db i.desc 0x18 8) 256) with stage := 1 } ∧
     s.Sends (.certInstall e) e 0x61 w i s { i.push (hostReads (db i.desc 0x18 8) 512) with stage := 1 } ∧
     s.Sends (.certDrop e) e 0x62 w i s { i.push [.core [2, dbits i.desc 0x10 0 1, dbits i.desc 0x11 0 1, db i.desc 0x14 4]] with stage := 1 } ∧
     (s.sleepBusy w (dbits i.desc 0x10 0 2) = true → s.Ends (.sleep e) e 0x63 w i { s with pwr := s.pwr.refused } (i.fail .aborted) .aborted) ∧
     (s.sleepBusy w (dbits i.desc 0x10 0 2) = false → s.car.queues = [] →
       s.Waits (.sleep e) e 0x63 w i { s with pwr := { s.pwr with
         entering := true, req := some { posted := s.now, target := dbits i.desc 0x10 0 2, by_ := w }, seen := [], timer := if db i.desc 0x14 4 = 0 then s.pwr.timer else db i.desc 0x14 4 } }
         { i with stage := 2, wait := .ctl none }) ∧
     (∀ gone old u, gone = s.htu.tlb.filter (fun x => x.inRange i.desc) → old = s.throughOld i.desc gone →
       u = { s with htu := { s.htu with tlb := s.htu.tlb.filter (fun x => !x.inRange i.desc), ops := s.htu.ops.map (fun (o : HostOp) => o.discardFor i.desc) } } →
       (old = [] → s.Ends (.htuInvalidate e) e 0x64 w i u { i.done with detail := gone.length } .ok) ∧
       (old ≠ [] → s.Waits (.htuInvalidate e) e 0x64 w i u { i with
         detail := gone.length, x := old.foldl (fun x k => tput 0 x (100 + k) 1) [], stage := 1, wait := .ctl none })) ∧
     (∀ keep u, keep = s.dmp.cache.filter (fun x => !shardCovered i.desc x.fabric x.tensor) →
       u = State.mapItems { s with dmp := { s.dmp with cache := keep, cacheOdd := s.dmp.cacheOdd && keep != [] } } (fun _ j =>
         if opcodeOf j.desc = 0x32 ∧ tget 0 j.x 18 = 1 ∧ shardCovered i.desc (mapFabric j.desc) (tensorId j.desc) then j.note 2100 1 else j) →
       s.Ends (.shardInvalidate e) e 0x65 w i u { i.done with detail := s.dmp.cache.length - keep.length } .ok ∧ u.dmp.cache = keep) ∧
     (∀ u, s.boot.stage ≠ 5 → s.stageRuns (some w) = true → u = State.setItem { s with boot := { s.boot with stageResult := 2 } } w (i.fail .aborted) → s.Starts e 0x66 w i →
       exec (.fwStage e) s = .next (((u.activate 178 u.stageStatus).finish w .aborted 0 0).drainWait w)) ∧
     (s.boot.stage ≠ 5 → s.stageRuns (some w) = false →
       s.Sends (.fwStage e) e 0x66 w i { s with boot := { s.boot with stageResult := 0, stageTarget := dbits i.desc 0x10 0 2, kibDone := 0 } }
         { i.push (hostReads (db i.desc 0x18 8) (Nat.min (db i.desc 0x14 4) 520192)) with stage := 1, x := tput 0 [] 7 1 }) ∧
     (s.cut.busy = true → s.Ends (.cutCollect e) e 0x18 w i s { i.fail .aborted with detail := 0xFFFFFFFF } .aborted) ∧
     (s.cut.busy = false → s.Starts e 0x18 w i →
       (∃ t, exec (.cutCollect e) s = .next t ∧ ∀ v, State.issueAll e w 1900 (s.cutBegin w i) = some v → t = (v.endStroke e).drainWait w) ∧
       (s.cutBegin w i).cut.busy = true ∧ (s.cutBegin w i).cut.start = s.time ∧
       (s.cutBegin w i).cut.ref = (if dbits i.desc 0x11 2 1 = 1 ∨ s.stopRef = 0 then s.time else s.stopRef) ∧
       (s.cutBegin w i).cut.chips.map (·.f) = (maskFabrics (db i.desc 0x10 1)).filter s.present))
end

