-- ==== Sys2Proof/Laws/Tables.lean ====
section
/-! SUPPORT. Laws of the sparse tables: what a key holds after one is written, that a second write of a key replaces the
first, and that every operation on a memory keeps its canonical form. -/

namespace Sys2Proof.Machine

/-! ### The canonical form of tables -/

theorem twf_tail {α : Type} [DecidableEq α] {d : α} {x : Nat × α} {t : Tab α} (h : twf d (x :: t) = true) : twf d t = true := by
  simp only [twf, Bool.and_eq_true] at h; exact h.2
/-- All keys of a table are above `n`. -/
def above {α : Type} (n : Nat) (t : Tab α) : Prop := ∀ p ∈ t, n < p.1
theorem twf_cons {α : Type} [DecidableEq α] (d : α) (k : Nat) (v : α) (t : Tab α) :
    twf d ((k, v) :: t) = true ↔ v ≠ d ∧ above k t ∧ twf d t = true := by
  induction t generalizing k v with
  | nil => simp [twf, above]
  | cons p t ih =>
    obtain ⟨k', v'⟩ := p
    have e : twf d ((k, v) :: (k', v') :: t) = (decide (v ≠ d) && decide (k < k') && twf d ((k', v') :: t)) := rfl
    rw [e, ih k' v']
    simp only [Bool.and_eq_true, decide_eq_true_eq, ih k' v']
    constructor
    · rintro ⟨⟨h1, h2⟩, h3, h4, h5⟩
      refine ⟨h1, ?_, h3, h4, h5⟩
      intro p hp
      rcases List.mem_cons.mp hp with rfl | hp
      · exact h2
      · exact lt_trans h2 (h4 p hp)
    · rintro ⟨h1, h2, h3, h4, h5⟩
      exact ⟨⟨h1, h2 (k', v') (by simp)⟩, h3, h4, h5⟩
theorem above_filter {α : Type} {n : Nat} {t : Tab α} (f : Nat × α → Bool) (h : above n t) : above n (t.filter f) := fun p hp => h p (List.mem_filter.mp hp).1
theorem twf_filter {α : Type} [DecidableEq α] (d : α) (f : Nat × α → Bool) (t : Tab α) (h : twf d t = true) : twf d (t.filter f) = true := by
  induction t with
  | nil => exact h
  | cons x t ih =>
    obtain ⟨k, w⟩ := x
    obtain ⟨h1, h2, h3⟩ := (twf_cons d k w t).mp h
    rw [List.filter_cons]
    split
    · exact (twf_cons d k w _).mpr ⟨h1, above_filter f h2, ih h3⟩
    · exact ih h3
theorem twf_append {α : Type} [DecidableEq α] (d : α) (a b : Tab α) (n : Nat) (ha : twf d a = true) (hb : twf d b = true)
    (h1 : ∀ p ∈ a, p.1 ≤ n) (h2 : ∀ p ∈ b, n < p.1) : twf d (a ++ b) = true := by
  induction a with
  | nil => exact hb
  | cons x a ih =>
    obtain ⟨k, w⟩ := x
    obtain ⟨q1, q2, q3⟩ := (twf_cons d k w a).mp ha
    refine (twf_cons d k w (a ++ b)).mpr ⟨q1, ?_, ih q3 (fun p hp => h1 p (List.mem_cons_of_mem _ hp))⟩
    intro p hp
    rcases List.mem_append.mp hp with hp | hp
    · exact q2 p hp
    · have := h1 (k, w) (by simp); have := h2 p hp; simp at *; omega
/-- Writing a table keeps its canonical form. -/
theorem twf_tput {α : Type} [DecidableEq α] (d : α) (t : Tab α) (n : Nat) (v : α) (h : twf d t = true) : twf d (tput d t n v) = true := by
  unfold tput
  refine twf_append d _ _ n ?_ (twf_filter d _ t h) ?_ ?_
  · split
    · simpa using twf_filter d _ t h
    · rename_i hv
      have h3 := twf_filter d (fun p : Nat × α => decide (p.1 < n)) t h
      by_cases hn : n = 0
      · subst hn
        have : t.filter (fun p : Nat × α => decide (p.1 < 0)) = [] := by simp
        rw [this]; simp [twf, hv]
      · refine twf_append d _ _ (n - 1) h3 (by simp [twf, hv]) ?_ ?_
        · intro p hp; have := (List.mem_filter.mp hp).2; simp at this; omega
        · intro p hp; simp at hp; subst hp; simp; omega
  · intro p hp
    rcases List.mem_append.mp hp with hp | hp
    · have := (List.mem_filter.mp hp).2; simp at this; omega
    · split at hp
      · simp at hp
      · simp at hp; subst hp; simp
  · intro p hp; have := (List.mem_filter.mp hp).2; simpa using this
theorem tget_append {α : Type} (d : α) (a b : Tab α) (m : Nat) : tget d (a ++ b) m = if a.any (fun p => p.1 == m) then tget d a m else tget d b m := by
  induction a with
  | nil => simp
  | cons x a ih =>
    obtain ⟨k, w⟩ := x
    by_cases h : m = k
    · subst h; simp [tget]
    · have h' : (k == m) = false := by simpa using fun e => h e.symm
      have e : ((k, w) :: a).any (fun p => p.1 == m) = a.any (fun p => p.1 == m) := by rw [List.any_cons, h', Bool.false_or]
      rw [e]; simp only [List.cons_append, tget, if_neg h]; exact ih
theorem tget_filter {α : Type} (d : α) (t : Tab α) (f : Nat → Bool) (m : Nat) : tget d (t.filter (fun p => f p.1)) m = if f m then tget d t m else d := by
  induction t with
  | nil => simp [tget]
  | cons x t ih =>
    obtain ⟨k, w⟩ := x
    rw [List.filter_cons]
    by_cases h : m = k
    · subst h
      cases hf : f m <;> simp [hf, tget, ih]
    · by_cases hk : f k = true <;> simp [hk, tget, h, ih]
theorem any_filter {α : Type} (t : Tab α) (f : Nat → Bool) (m : Nat) (h : f m = false) : (t.filter (fun p => f p.1)).any (fun p => p.1 == m) = false := by
  simp only [List.any_eq_false, List.mem_filter, beq_iff_eq, and_imp]
  intro p _ hp e; rw [e, h] at hp; cases hp
/-- What a key holds after one is written. -/
theorem tget_tput {α : Type} [DecidableEq α] (d : α) (t : Tab α) (n m : Nat) (v : α) : tget d (tput d t n v) m = if m = n then v else tget d t m := by
  unfold tput
  have e1 := tget_filter d t (fun k => decide (k < n)) m
  have e2 := tget_filter d t (fun k => decide (n < k)) m
  rw [List.append_assoc, tget_append, tget_append, e1, e2]
  rcases Nat.lt_trichotomy m n with h | h | h
  · have h1 : ¬ m = n := by omega
    have h2 : ¬ n < m := by omega
    split
    · simp [h, h1]
    · rename_i ha
      have hz : tget d t m = d := by
        have hn : ∀ p ∈ t, p.1 ≠ m := by
          intro p hp e
          apply ha
          simp only [List.any_eq_true, List.mem_filter, beq_iff_eq]
          exact ⟨p, ⟨hp, by simp [e, h]⟩, e⟩
        clear ha e1 e2
        induction t with
        | nil => rfl
        | cons x t ih =>
          obtain ⟨k, w⟩ := x
          have : ¬ m = k := fun e => hn (k, w) (by simp) e.symm
          simp only [tget, this, if_false]
          exact ih (fun p hp => hn p (List.mem_cons_of_mem _ hp))
      have h3 : ¬ n = m := by omega
      split <;> simp [h1, h2, h3, hz, tget]
  · subst h
    have a1 := any_filter t (fun k => decide (k < m)) m (by simp)
    rw [a1]
    by_cases hv : v = d <;> simp [hv, tget]
  · have h1 : ¬ m = n := by omega
    have h2 : ¬ m < n := by omega
    have h3 : ¬ n = m := by omega
    have a1 := any_filter t (fun k => decide (k < n)) m (by simp [h2])
    rw [a1]
    by_cases hv : v = d <;> simp [hv, h1, h2, h3, h, tget]
theorem twf_mput (m : Mem) (a : Nat) (b : Byte) (h : twf 0 m = true) : twf 0 (mput m a b) = true := twf_tput 0 m a b h
/-- Storing a run of bytes keeps a memory's canonical form. -/
theorem twf_mwrite (l : List Byte) (m : Mem) (a : Nat) (h : twf 0 m = true) : twf 0 (mwrite m a l) = true := by
  induction l generalizing m a with
  | nil => exact h
  | cons b l ih => exact ih _ _ (twf_mput m a b h)
/-- A byte reads as it was last written. -/
theorem mget_mput (m : Mem) (a x : Nat) (b : Byte) : mget (mput m a b) x = if x = a then b else mget m x := tget_tput 0 m a x b
/-- A byte of a range reads as written, every other byte as before. -/
theorem mget_mwrite (l : List Byte) (m : Mem) (a x : Nat) : mget (mwrite m a l) x = if a ≤ x ∧ x < a + l.length then l.getD (x - a) 0 else mget m x := by
  induction l generalizing m a with
  | nil => simp [mwrite]
  | cons b bs ih =>
    rw [mwrite, ih, mget_mput]
    by_cases h : x = a
    · subst h; simp
    · by_cases h2 : a + 1 ≤ x ∧ x < a + 1 + bs.length
      · rw [if_pos h2, if_pos (by simp; omega), show x - a = (x - (a + 1)) + 1 from by omega, List.getD_cons_succ]
      · rw [if_neg h2, if_neg h, if_neg (by simp; omega)]
theorem twf_foldl {β : Type} (g : Mem → β → Mem) (hg : ∀ m x, twf 0 m = true → twf 0 (g m x) = true) (l : List β) (m : Mem) (h : twf 0 m = true) : twf 0 (l.foldl g m) = true := by
  induction l generalizing m with
  | nil => exact h
  | cons b l ih => exact ih _ (hg _ _ h)
theorem twf_memOf (l : List (Nat × Byte)) : twf 0 (memOf l) = true := twf_foldl _ (fun m _ h => twf_mput m _ _ h) l [] rfl
/-- A second write of a key replaces the first. -/
theorem tput_tput {α : Type} [DecidableEq α] (d : α) (t : Tab α) (n : Nat) (u v : α) : tput d (tput d t n u) n v = tput d t n v := by
  unfold tput
  simp only [List.filter_append, List.filter_filter]
  congr 1
  · congr 1
    have : ∀ (p : Nat × α), (decide (p.1 < n) && decide (n < p.1)) = false := by intro p; simp; omega
    simp only [this]
    split <;> simp
  · have : ∀ (p : Nat × α), (decide (n < p.1) && decide (p.1 < n)) = false := by intro p; simp; omega
    simp only [this]
    split <;> simp

end Sys2Proof.Machine
end

