-- ==== Sys2Proof/Laws/State.lean ====
section
/-! SUPPORT. What each table's write leaves of the state, field by field, and what each table holds after a write: the
lemmas that let a proof go past a write without unfolding it. -/

namespace Sys2Proof.Machine


/-! ### setChip -/

@[simp] theorem State.setChip_pending (s : State) (f : Nat) (c : Chip) : (s.setChip f c).pending = s.pending := by unfold State.setChip; split <;> rfl
@[simp] theorem State.setChip_now (s : State) (f : Nat) (c : Chip) : (s.setChip f c).now = s.now := by unfold State.setChip; split <;> rfl
@[simp] theorem State.setChip_ftAdj (s : State) (f : Nat) (c : Chip) : (s.setChip f c).ftAdj = s.ftAdj := by unfold State.setChip; split <;> rfl
@[simp] theorem State.setChip_freeIx (s : State) (f : Nat) (c : Chip) : (s.setChip f c).freeIx = s.freeIx := by unfold State.setChip; split <;> rfl
@[simp] theorem State.setChip_misuses (s : State) (f : Nat) (c : Chip) : (s.setChip f c).misuses = s.misuses := by unfold State.setChip; split <;> rfl
@[simp] theorem State.setChip_rstAt (s : State) (f : Nat) (c : Chip) : (s.setChip f c).rstAt = s.rstAt := by unfold State.setChip; split <;> rfl
@[simp] theorem State.setChip_rstBoot (s : State) (f : Nat) (c : Chip) : (s.setChip f c).rstBoot = s.rstBoot := by unfold State.setChip; split <;> rfl
@[simp] theorem State.setChip_pwr (s : State) (f : Nat) (c : Chip) : (s.setChip f c).pwr = s.pwr := by unfold State.setChip; split <;> rfl
@[simp] theorem State.setChip_pins (s : State) (f : Nat) (c : Chip) : (s.setChip f c).pins = s.pins := by unfold State.setChip; split <;> rfl
@[simp] theorem State.setChip_fuses (s : State) (f : Nat) (c : Chip) : (s.setChip f c).fuses = s.fuses := by unfold State.setChip; split <;> rfl
@[simp] theorem State.setChip_lcs (s : State) (f : Nat) (c : Chip) : (s.setChip f c).lcs = s.lcs := by unfold State.setChip; split <;> rfl
@[simp] theorem State.setChip_boot (s : State) (f : Nat) (c : Chip) : (s.setChip f c).boot = s.boot := by unfold State.setChip; split <;> rfl
@[simp] theorem State.setChip_auth (s : State) (f : Nat) (c : Chip) : (s.setChip f c).auth = s.auth := by unfold State.setChip; split <;> rfl
@[simp] theorem State.setChip_hub (s : State) (f : Nat) (c : Chip) : (s.setChip f c).hub = s.hub := by unfold State.setChip; split <;> rfl
@[simp] theorem State.setChip_rings (s : State) (f : Nat) (c : Chip) : (s.setChip f c).rings = s.rings := by unfold State.setChip; split <;> rfl
@[simp] theorem State.setChip_counters (s : State) (f : Nat) (c : Chip) : (s.setChip f c).counters = s.counters := by unfold State.setChip; split <;> rfl
@[simp] theorem State.setChip_scan (s : State) (f : Nat) (c : Chip) : (s.setChip f c).scan = s.scan := by unfold State.setChip; split <;> rfl
@[simp] theorem State.setChip_htu (s : State) (f : Nat) (c : Chip) : (s.setChip f c).htu = s.htu := by unfold State.setChip; split <;> rfl
@[simp] theorem State.setChip_bursts (s : State) (f : Nat) (c : Chip) : (s.setChip f c).bursts = s.bursts := by unfold State.setChip; split <;> rfl
@[simp] theorem State.setChip_car (s : State) (f : Nat) (c : Chip) : (s.setChip f c).car = s.car := by unfold State.setChip; split <;> rfl
@[simp] theorem State.setChip_bhv (s : State) (f : Nat) (c : Chip) : (s.setChip f c).bhv = s.bhv := by unfold State.setChip; split <;> rfl
@[simp] theorem State.setChip_run (s : State) (f : Nat) (c : Chip) : (s.setChip f c).run = s.run := by unfold State.setChip; split <;> rfl
@[simp] theorem State.setChip_cut (s : State) (f : Nat) (c : Chip) : (s.setChip f c).cut = s.cut := by unfold State.setChip; split <;> rfl
@[simp] theorem State.setChip_dmp (s : State) (f : Nat) (c : Chip) : (s.setChip f c).dmp = s.dmp := by unfold State.setChip; split <;> rfl
@[simp] theorem State.setChip_trc (s : State) (f : Nat) (c : Chip) : (s.setChip f c).trc = s.trc := by unfold State.setChip; split <;> rfl
@[simp] theorem State.setChip_cfg (s : State) (f : Nat) (c : Chip) : (s.setChip f c).cfg = s.cfg := by unfold State.setChip; split <;> rfl
@[simp] theorem State.setChip_msix (s : State) (f : Nat) (c : Chip) : (s.setChip f c).msix = s.msix := by unfold State.setChip; split <;> rfl
@[simp] theorem State.setChip_pba (s : State) (f : Nat) (c : Chip) : (s.setChip f c).pba = s.pba := by unfold State.setChip; split <;> rfl
@[simp] theorem State.setChip_msiSent (s : State) (f : Nat) (c : Chip) : (s.setChip f c).msiSent = s.msiSent := by unfold State.setChip; split <;> rfl
@[simp] theorem State.setChip_held (s : State) (f : Nat) (c : Chip) : (s.setChip f c).held = s.held := by unfold State.setChip; split <;> rfl
@[simp] theorem State.setChip_readVal (s : State) (f : Nat) (c : Chip) : (s.setChip f c).readVal = s.readVal := by unfold State.setChip; split <;> rfl
@[simp] theorem State.setChip_host (s : State) (f : Nat) (c : Chip) : (s.setChip f c).host = s.host := by unfold State.setChip; split <;> rfl
@[simp] theorem State.setChip_store (s : State) (f : Nat) (c : Chip) : (s.setChip f c).store = s.store := by unfold State.setChip; split <;> rfl
@[simp] theorem State.setChip_sram (s : State) (f : Nat) (c : Chip) : (s.setChip f c).sram = s.sram := by unfold State.setChip; split <;> rfl
@[simp] theorem State.setChip_sramClean (s : State) (f : Nat) (c : Chip) : (s.setChip f c).sramClean = s.sramClean := by unfold State.setChip; split <;> rfl
@[simp] theorem State.setChip_nor (s : State) (f : Nat) (c : Chip) : (s.setChip f c).nor = s.nor := by unfold State.setChip; split <;> rfl
/-- What the table holds after a write of key `f`. -/
theorem State.chip_setChip (s : State) (f : Nat) (c : Chip) (m : Nat) (h : f < 128) : (s.setChip f c).chip m = if m = f then c else s.chip m := by
  unfold State.setChip; rw [if_pos h]; exact tget_tput _ _ _ _ _
@[simp] theorem State.chip_setChip_same (s : State) (f : Nat) (c : Chip) (h : f < 128) : (s.setChip f c).chip f = c := by rw [State.chip_setChip _ _ _ _ h, if_pos rfl]
theorem State.chip_setChip_ne (s : State) (f : Nat) (c : Chip) (m : Nat) (h : m ≠ f) : (s.setChip f c).chip m = s.chip m := by
  by_cases hk : f < 128
  · rw [State.chip_setChip _ _ _ _ hk, if_neg h]
  · unfold State.setChip; rw [if_neg hk]
@[simp] theorem State.chain_setChip (s : State) (f : Nat) (c : Chip) (m : Nat) : (s.setChip f c).chain m = s.chain m := by unfold State.setChip; split <;> rfl
@[simp] theorem State.ring_setChip (s : State) (f : Nat) (c : Chip) (m : Nat) : (s.setChip f c).ring m = s.ring m := by unfold State.setChip; split <;> rfl
@[simp] theorem State.counter_setChip (s : State) (f : Nat) (c : Chip) (m : Nat) : (s.setChip f c).counter m = s.counter m := by unfold State.setChip; split <;> rfl
@[simp] theorem State.src_setChip (s : State) (f : Nat) (c : Chip) (m : Nat) : (s.setChip f c).src m = s.src m := by unfold State.setChip; split <;> rfl
@[simp] theorem State.queue_setChip (s : State) (f : Nat) (c : Chip) (m : Nat) : (s.setChip f c).queue m = s.queue m := by unfold State.setChip; split <;> rfl
@[simp] theorem State.line_setChip (s : State) (f : Nat) (c : Chip) (m : Nat) : (s.setChip f c).line m = s.line m := by unfold State.setChip; split <;> rfl
@[simp] theorem State.se_setChip (s : State) (f : Nat) (c : Chip) (m : Nat) : (s.setChip f c).se m = s.se m := by unfold State.setChip; split <;> rfl
@[simp] theorem State.ctx_setChip (s : State) (f : Nat) (c : Chip) (m : Nat) : (s.setChip f c).ctx m = s.ctx m := by unfold State.setChip; split <;> rfl
@[simp] theorem State.tchip_setChip (s : State) (f : Nat) (c : Chip) (m : Nat) : (s.setChip f c).tchip m = s.tchip m := by unfold State.setChip; split <;> rfl
@[simp] theorem State.topo_setChip (s : State) (f : Nat) (c : Chip) (m : Nat) : (s.setChip f c).topo m = s.topo m := by unfold State.setChip; split <;> rfl

/-! ### setChain -/

@[simp] theorem State.setChain_pending (s : State) (k : Nat) (c : Chain) : (s.setChain k c).pending = s.pending := by unfold State.setChain; split <;> rfl
@[simp] theorem State.setChain_now (s : State) (k : Nat) (c : Chain) : (s.setChain k c).now = s.now := by unfold State.setChain; split <;> rfl
@[simp] theorem State.setChain_ftAdj (s : State) (k : Nat) (c : Chain) : (s.setChain k c).ftAdj = s.ftAdj := by unfold State.setChain; split <;> rfl
@[simp] theorem State.setChain_freeIx (s : State) (k : Nat) (c : Chain) : (s.setChain k c).freeIx = s.freeIx := by unfold State.setChain; split <;> rfl
@[simp] theorem State.setChain_misuses (s : State) (k : Nat) (c : Chain) : (s.setChain k c).misuses = s.misuses := by unfold State.setChain; split <;> rfl
@[simp] theorem State.setChain_rstAt (s : State) (k : Nat) (c : Chain) : (s.setChain k c).rstAt = s.rstAt := by unfold State.setChain; split <;> rfl
@[simp] theorem State.setChain_rstBoot (s : State) (k : Nat) (c : Chain) : (s.setChain k c).rstBoot = s.rstBoot := by unfold State.setChain; split <;> rfl
@[simp] theorem State.setChain_pwr (s : State) (k : Nat) (c : Chain) : (s.setChain k c).pwr = s.pwr := by unfold State.setChain; split <;> rfl
@[simp] theorem State.setChain_pins (s : State) (k : Nat) (c : Chain) : (s.setChain k c).pins = s.pins := by unfold State.setChain; split <;> rfl
@[simp] theorem State.setChain_fuses (s : State) (k : Nat) (c : Chain) : (s.setChain k c).fuses = s.fuses := by unfold State.setChain; split <;> rfl
@[simp] theorem State.setChain_lcs (s : State) (k : Nat) (c : Chain) : (s.setChain k c).lcs = s.lcs := by unfold State.setChain; split <;> rfl
@[simp] theorem State.setChain_boot (s : State) (k : Nat) (c : Chain) : (s.setChain k c).boot = s.boot := by unfold State.setChain; split <;> rfl
@[simp] theorem State.setChain_auth (s : State) (k : Nat) (c : Chain) : (s.setChain k c).auth = s.auth := by unfold State.setChain; split <;> rfl
@[simp] theorem State.setChain_hub (s : State) (k : Nat) (c : Chain) : (s.setChain k c).hub = s.hub := by unfold State.setChain; split <;> rfl
@[simp] theorem State.setChain_rings (s : State) (k : Nat) (c : Chain) : (s.setChain k c).rings = s.rings := by unfold State.setChain; split <;> rfl
@[simp] theorem State.setChain_counters (s : State) (k : Nat) (c : Chain) : (s.setChain k c).counters = s.counters := by unfold State.setChain; split <;> rfl
@[simp] theorem State.setChain_scan (s : State) (k : Nat) (c : Chain) : (s.setChain k c).scan = s.scan := by unfold State.setChain; split <;> rfl
@[simp] theorem State.setChain_htu (s : State) (k : Nat) (c : Chain) : (s.setChain k c).htu = s.htu := by unfold State.setChain; split <;> rfl
@[simp] theorem State.setChain_bursts (s : State) (k : Nat) (c : Chain) : (s.setChain k c).bursts = s.bursts := by unfold State.setChain; split <;> rfl
@[simp] theorem State.setChain_car (s : State) (k : Nat) (c : Chain) : (s.setChain k c).car = s.car := by unfold State.setChain; split <;> rfl
@[simp] theorem State.setChain_run (s : State) (k : Nat) (c : Chain) : (s.setChain k c).run = s.run := by unfold State.setChain; split <;> rfl
@[simp] theorem State.setChain_cut (s : State) (k : Nat) (c : Chain) : (s.setChain k c).cut = s.cut := by unfold State.setChain; split <;> rfl
@[simp] theorem State.setChain_dmp (s : State) (k : Nat) (c : Chain) : (s.setChain k c).dmp = s.dmp := by unfold State.setChain; split <;> rfl
@[simp] theorem State.setChain_trc (s : State) (k : Nat) (c : Chain) : (s.setChain k c).trc = s.trc := by unfold State.setChain; split <;> rfl
@[simp] theorem State.setChain_chips (s : State) (k : Nat) (c : Chain) : (s.setChain k c).chips = s.chips := by unfold State.setChain; split <;> rfl
@[simp] theorem State.setChain_cfg (s : State) (k : Nat) (c : Chain) : (s.setChain k c).cfg = s.cfg := by unfold State.setChain; split <;> rfl
@[simp] theorem State.setChain_msix (s : State) (k : Nat) (c : Chain) : (s.setChain k c).msix = s.msix := by unfold State.setChain; split <;> rfl
@[simp] theorem State.setChain_pba (s : State) (k : Nat) (c : Chain) : (s.setChain k c).pba = s.pba := by unfold State.setChain; split <;> rfl
@[simp] theorem State.setChain_msiSent (s : State) (k : Nat) (c : Chain) : (s.setChain k c).msiSent = s.msiSent := by unfold State.setChain; split <;> rfl
@[simp] theorem State.setChain_held (s : State) (k : Nat) (c : Chain) : (s.setChain k c).held = s.held := by unfold State.setChain; split <;> rfl
@[simp] theorem State.setChain_readVal (s : State) (k : Nat) (c : Chain) : (s.setChain k c).readVal = s.readVal := by unfold State.setChain; split <;> rfl
@[simp] theorem State.setChain_host (s : State) (k : Nat) (c : Chain) : (s.setChain k c).host = s.host := by unfold State.setChain; split <;> rfl
@[simp] theorem State.setChain_store (s : State) (k : Nat) (c : Chain) : (s.setChain k c).store = s.store := by unfold State.setChain; split <;> rfl
@[simp] theorem State.setChain_sram (s : State) (k : Nat) (c : Chain) : (s.setChain k c).sram = s.sram := by unfold State.setChain; split <;> rfl
@[simp] theorem State.setChain_sramClean (s : State) (k : Nat) (c : Chain) : (s.setChain k c).sramClean = s.sramClean := by unfold State.setChain; split <;> rfl
@[simp] theorem State.setChain_nor (s : State) (k : Nat) (c : Chain) : (s.setChain k c).nor = s.nor := by unfold State.setChain; split <;> rfl
@[simp] theorem State.setChain_bhv_topo (s : State) (k : Nat) (c : Chain) : (s.setChain k c).bhv.topo = s.bhv.topo := by unfold State.setChain; split <;> rfl
/-- What the table holds after a write of key `k`. -/
theorem State.chain_setChain (s : State) (k : Nat) (c : Chain) (m : Nat) (h : k < 8) : (s.setChain k c).chain m = if m = k then c else s.chain m := by
  unfold State.setChain; rw [if_pos h]; exact tget_tput _ _ _ _ _
@[simp] theorem State.chain_setChain_same (s : State) (k : Nat) (c : Chain) (h : k < 8) : (s.setChain k c).chain k = c := by rw [State.chain_setChain _ _ _ _ h, if_pos rfl]
theorem State.chain_setChain_ne (s : State) (k : Nat) (c : Chain) (m : Nat) (h : m ≠ k) : (s.setChain k c).chain m = s.chain m := by
  by_cases hk : k < 8
  · rw [State.chain_setChain _ _ _ _ hk, if_neg h]
  · unfold State.setChain; rw [if_neg hk]
@[simp] theorem State.chip_setChain (s : State) (k : Nat) (c : Chain) (m : Nat) : (s.setChain k c).chip m = s.chip m := by unfold State.setChain; split <;> rfl
@[simp] theorem State.ring_setChain (s : State) (k : Nat) (c : Chain) (m : Nat) : (s.setChain k c).ring m = s.ring m := by unfold State.setChain; split <;> rfl
@[simp] theorem State.counter_setChain (s : State) (k : Nat) (c : Chain) (m : Nat) : (s.setChain k c).counter m = s.counter m := by unfold State.setChain; split <;> rfl
@[simp] theorem State.src_setChain (s : State) (k : Nat) (c : Chain) (m : Nat) : (s.setChain k c).src m = s.src m := by unfold State.setChain; split <;> rfl
@[simp] theorem State.queue_setChain (s : State) (k : Nat) (c : Chain) (m : Nat) : (s.setChain k c).queue m = s.queue m := by unfold State.setChain; split <;> rfl
@[simp] theorem State.line_setChain (s : State) (k : Nat) (c : Chain) (m : Nat) : (s.setChain k c).line m = s.line m := by unfold State.setChain; split <;> rfl
@[simp] theorem State.se_setChain (s : State) (k : Nat) (c : Chain) (m : Nat) : (s.setChain k c).se m = s.se m := by unfold State.setChain; split <;> rfl
@[simp] theorem State.ctx_setChain (s : State) (k : Nat) (c : Chain) (m : Nat) : (s.setChain k c).ctx m = s.ctx m := by unfold State.setChain; split <;> rfl
@[simp] theorem State.tchip_setChain (s : State) (k : Nat) (c : Chain) (m : Nat) : (s.setChain k c).tchip m = s.tchip m := by unfold State.setChain; split <;> rfl
@[simp] theorem State.topo_setChain (s : State) (k : Nat) (c : Chain) (m : Nat) : (s.setChain k c).topo m = s.topo m := by unfold State.setChain; split <;> rfl

/-! ### setRing -/

@[simp] theorem State.setRing_pending (s : State) (n : Nat) (r : Ring) : (s.setRing n r).pending = s.pending := by unfold State.setRing; split <;> rfl
@[simp] theorem State.setRing_now (s : State) (n : Nat) (r : Ring) : (s.setRing n r).now = s.now := by unfold State.setRing; split <;> rfl
@[simp] theorem State.setRing_ftAdj (s : State) (n : Nat) (r : Ring) : (s.setRing n r).ftAdj = s.ftAdj := by unfold State.setRing; split <;> rfl
@[simp] theorem State.setRing_freeIx (s : State) (n : Nat) (r : Ring) : (s.setRing n r).freeIx = s.freeIx := by unfold State.setRing; split <;> rfl
@[simp] theorem State.setRing_misuses (s : State) (n : Nat) (r : Ring) : (s.setRing n r).misuses = s.misuses := by unfold State.setRing; split <;> rfl
@[simp] theorem State.setRing_rstAt (s : State) (n : Nat) (r : Ring) : (s.setRing n r).rstAt = s.rstAt := by unfold State.setRing; split <;> rfl
@[simp] theorem State.setRing_rstBoot (s : State) (n : Nat) (r : Ring) : (s.setRing n r).rstBoot = s.rstBoot := by unfold State.setRing; split <;> rfl
@[simp] theorem State.setRing_pwr (s : State) (n : Nat) (r : Ring) : (s.setRing n r).pwr = s.pwr := by unfold State.setRing; split <;> rfl
@[simp] theorem State.setRing_pins (s : State) (n : Nat) (r : Ring) : (s.setRing n r).pins = s.pins := by unfold State.setRing; split <;> rfl
@[simp] theorem State.setRing_fuses (s : State) (n : Nat) (r : Ring) : (s.setRing n r).fuses = s.fuses := by unfold State.setRing; split <;> rfl
@[simp] theorem State.setRing_lcs (s : State) (n : Nat) (r : Ring) : (s.setRing n r).lcs = s.lcs := by unfold State.setRing; split <;> rfl
@[simp] theorem State.setRing_boot (s : State) (n : Nat) (r : Ring) : (s.setRing n r).boot = s.boot := by unfold State.setRing; split <;> rfl
@[simp] theorem State.setRing_auth (s : State) (n : Nat) (r : Ring) : (s.setRing n r).auth = s.auth := by unfold State.setRing; split <;> rfl
@[simp] theorem State.setRing_hub (s : State) (n : Nat) (r : Ring) : (s.setRing n r).hub = s.hub := by unfold State.setRing; split <;> rfl
@[simp] theorem State.setRing_counters (s : State) (n : Nat) (r : Ring) : (s.setRing n r).counters = s.counters := by unfold State.setRing; split <;> rfl
@[simp] theorem State.setRing_scan (s : State) (n : Nat) (r : Ring) : (s.setRing n r).scan = s.scan := by unfold State.setRing; split <;> rfl
@[simp] theorem State.setRing_htu (s : State) (n : Nat) (r : Ring) : (s.setRing n r).htu = s.htu := by unfold State.setRing; split <;> rfl
@[simp] theorem State.setRing_bursts (s : State) (n : Nat) (r : Ring) : (s.setRing n r).bursts = s.bursts := by unfold State.setRing; split <;> rfl
@[simp] theorem State.setRing_car (s : State) (n : Nat) (r : Ring) : (s.setRing n r).car = s.car := by unfold State.setRing; split <;> rfl
@[simp] theorem State.setRing_bhv (s : State) (n : Nat) (r : Ring) : (s.setRing n r).bhv = s.bhv := by unfold State.setRing; split <;> rfl
@[simp] theorem State.setRing_run (s : State) (n : Nat) (r : Ring) : (s.setRing n r).run = s.run := by unfold State.setRing; split <;> rfl
@[simp] theorem State.setRing_cut (s : State) (n : Nat) (r : Ring) : (s.setRing n r).cut = s.cut := by unfold State.setRing; split <;> rfl
@[simp] theorem State.setRing_dmp (s : State) (n : Nat) (r : Ring) : (s.setRing n r).dmp = s.dmp := by unfold State.setRing; split <;> rfl
@[simp] theorem State.setRing_trc (s : State) (n : Nat) (r : Ring) : (s.setRing n r).trc = s.trc := by unfold State.setRing; split <;> rfl
@[simp] theorem State.setRing_chips (s : State) (n : Nat) (r : Ring) : (s.setRing n r).chips = s.chips := by unfold State.setRing; split <;> rfl
@[simp] theorem State.setRing_cfg (s : State) (n : Nat) (r : Ring) : (s.setRing n r).cfg = s.cfg := by unfold State.setRing; split <;> rfl
@[simp] theorem State.setRing_msix (s : State) (n : Nat) (r : Ring) : (s.setRing n r).msix = s.msix := by unfold State.setRing; split <;> rfl
@[simp] theorem State.setRing_pba (s : State) (n : Nat) (r : Ring) : (s.setRing n r).pba = s.pba := by unfold State.setRing; split <;> rfl
@[simp] theorem State.setRing_msiSent (s : State) (n : Nat) (r : Ring) : (s.setRing n r).msiSent = s.msiSent := by unfold State.setRing; split <;> rfl
@[simp] theorem State.setRing_held (s : State) (n : Nat) (r : Ring) : (s.setRing n r).held = s.held := by unfold State.setRing; split <;> rfl
@[simp] theorem State.setRing_readVal (s : State) (n : Nat) (r : Ring) : (s.setRing n r).readVal = s.readVal := by unfold State.setRing; split <;> rfl
@[simp] theorem State.setRing_host (s : State) (n : Nat) (r : Ring) : (s.setRing n r).host = s.host := by unfold State.setRing; split <;> rfl
@[simp] theorem State.setRing_store (s : State) (n : Nat) (r : Ring) : (s.setRing n r).store = s.store := by unfold State.setRing; split <;> rfl
@[simp] theorem State.setRing_sram (s : State) (n : Nat) (r : Ring) : (s.setRing n r).sram = s.sram := by unfold State.setRing; split <;> rfl
@[simp] theorem State.setRing_sramClean (s : State) (n : Nat) (r : Ring) : (s.setRing n r).sramClean = s.sramClean := by unfold State.setRing; split <;> rfl
@[simp] theorem State.setRing_nor (s : State) (n : Nat) (r : Ring) : (s.setRing n r).nor = s.nor := by unfold State.setRing; split <;> rfl
/-- What the table holds after a write of key `n`. -/
theorem State.ring_setRing (s : State) (n : Nat) (r : Ring) (m : Nat) (h : n < 512) : (s.setRing n r).ring m = if m = n then r else s.ring m := by
  unfold State.setRing; rw [if_pos h]; exact tget_tput _ _ _ _ _
@[simp] theorem State.ring_setRing_same (s : State) (n : Nat) (r : Ring) (h : n < 512) : (s.setRing n r).ring n = r := by rw [State.ring_setRing _ _ _ _ h, if_pos rfl]
theorem State.ring_setRing_ne (s : State) (n : Nat) (r : Ring) (m : Nat) (h : m ≠ n) : (s.setRing n r).ring m = s.ring m := by
  by_cases hk : n < 512
  · rw [State.ring_setRing _ _ _ _ hk, if_neg h]
  · unfold State.setRing; rw [if_neg hk]
@[simp] theorem State.chip_setRing (s : State) (n : Nat) (r : Ring) (m : Nat) : (s.setRing n r).chip m = s.chip m := by unfold State.setRing; split <;> rfl
@[simp] theorem State.chain_setRing (s : State) (n : Nat) (r : Ring) (m : Nat) : (s.setRing n r).chain m = s.chain m := by unfold State.setRing; split <;> rfl
@[simp] theorem State.counter_setRing (s : State) (n : Nat) (r : Ring) (m : Nat) : (s.setRing n r).counter m = s.counter m := by unfold State.setRing; split <;> rfl
@[simp] theorem State.src_setRing (s : State) (n : Nat) (r : Ring) (m : Nat) : (s.setRing n r).src m = s.src m := by unfold State.setRing; split <;> rfl
@[simp] theorem State.queue_setRing (s : State) (n : Nat) (r : Ring) (m : Nat) : (s.setRing n r).queue m = s.queue m := by unfold State.setRing; split <;> rfl
@[simp] theorem State.line_setRing (s : State) (n : Nat) (r : Ring) (m : Nat) : (s.setRing n r).line m = s.line m := by unfold State.setRing; split <;> rfl
@[simp] theorem State.se_setRing (s : State) (n : Nat) (r : Ring) (m : Nat) : (s.setRing n r).se m = s.se m := by unfold State.setRing; split <;> rfl
@[simp] theorem State.ctx_setRing (s : State) (n : Nat) (r : Ring) (m : Nat) : (s.setRing n r).ctx m = s.ctx m := by unfold State.setRing; split <;> rfl
@[simp] theorem State.tchip_setRing (s : State) (n : Nat) (r : Ring) (m : Nat) : (s.setRing n r).tchip m = s.tchip m := by unfold State.setRing; split <;> rfl
@[simp] theorem State.topo_setRing (s : State) (n : Nat) (r : Ring) (m : Nat) : (s.setRing n r).topo m = s.topo m := by unfold State.setRing; split <;> rfl

/-! ### setCounter -/

@[simp] theorem State.setCounter_pending (s : State) (k : Nat) (c : Counter) : (s.setCounter k c).pending = s.pending := by unfold State.setCounter; split <;> rfl
@[simp] theorem State.setCounter_now (s : State) (k : Nat) (c : Counter) : (s.setCounter k c).now = s.now := by unfold State.setCounter; split <;> rfl
@[simp] theorem State.setCounter_ftAdj (s : State) (k : Nat) (c : Counter) : (s.setCounter k c).ftAdj = s.ftAdj := by unfold State.setCounter; split <;> rfl
@[simp] theorem State.setCounter_freeIx (s : State) (k : Nat) (c : Counter) : (s.setCounter k c).freeIx = s.freeIx := by unfold State.setCounter; split <;> rfl
@[simp] theorem State.setCounter_misuses (s : State) (k : Nat) (c : Counter) : (s.setCounter k c).misuses = s.misuses := by unfold State.setCounter; split <;> rfl
@[simp] theorem State.setCounter_rstAt (s : State) (k : Nat) (c : Counter) : (s.setCounter k c).rstAt = s.rstAt := by unfold State.setCounter; split <;> rfl
@[simp] theorem State.setCounter_rstBoot (s : State) (k : Nat) (c : Counter) : (s.setCounter k c).rstBoot = s.rstBoot := by unfold State.setCounter; split <;> rfl
@[simp] theorem State.setCounter_pwr (s : State) (k : Nat) (c : Counter) : (s.setCounter k c).pwr = s.pwr := by unfold State.setCounter; split <;> rfl
@[simp] theorem State.setCounter_pins (s : State) (k : Nat) (c : Counter) : (s.setCounter k c).pins = s.pins := by unfold State.setCounter; split <;> rfl
@[simp] theorem State.setCounter_fuses (s : State) (k : Nat) (c : Counter) : (s.setCounter k c).fuses = s.fuses := by unfold State.setCounter; split <;> rfl
@[simp] theorem State.setCounter_lcs (s : State) (k : Nat) (c : Counter) : (s.setCounter k c).lcs = s.lcs := by unfold State.setCounter; split <;> rfl
@[simp] theorem State.setCounter_boot (s : State) (k : Nat) (c : Counter) : (s.setCounter k c).boot = s.boot := by unfold State.setCounter; split <;> rfl
@[simp] theorem State.setCounter_auth (s : State) (k : Nat) (c : Counter) : (s.setCounter k c).auth = s.auth := by unfold State.setCounter; split <;> rfl
@[simp] theorem State.setCounter_hub (s : State) (k : Nat) (c : Counter) : (s.setCounter k c).hub = s.hub := by unfold State.setCounter; split <;> rfl
@[simp] theorem State.setCounter_rings (s : State) (k : Nat) (c : Counter) : (s.setCounter k c).rings = s.rings := by unfold State.setCounter; split <;> rfl
@[simp] theorem State.setCounter_scan (s : State) (k : Nat) (c : Counter) : (s.setCounter k c).scan = s.scan := by unfold State.setCounter; split <;> rfl
@[simp] theorem State.setCounter_htu (s : State) (k : Nat) (c : Counter) : (s.setCounter k c).htu = s.htu := by unfold State.setCounter; split <;> rfl
@[simp] theorem State.setCounter_bursts (s : State) (k : Nat) (c : Counter) : (s.setCounter k c).bursts = s.bursts := by unfold State.setCounter; split <;> rfl
@[simp] theorem State.setCounter_car (s : State) (k : Nat) (c : Counter) : (s.setCounter k c).car = s.car := by unfold State.setCounter; split <;> rfl
@[simp] theorem State.setCounter_bhv (s : State) (k : Nat) (c : Counter) : (s.setCounter k c).bhv = s.bhv := by unfold State.setCounter; split <;> rfl
@[simp] theorem State.setCounter_run (s : State) (k : Nat) (c : Counter) : (s.setCounter k c).run = s.run := by unfold State.setCounter; split <;> rfl
@[simp] theorem State.setCounter_cut (s : State) (k : Nat) (c : Counter) : (s.setCounter k c).cut = s.cut := by unfold State.setCounter; split <;> rfl
@[simp] theorem State.setCounter_dmp (s : State) (k : Nat) (c : Counter) : (s.setCounter k c).dmp = s.dmp := by unfold State.setCounter; split <;> rfl
@[simp] theorem State.setCounter_trc (s : State) (k : Nat) (c : Counter) : (s.setCounter k c).trc = s.trc := by unfold State.setCounter; split <;> rfl
@[simp] theorem State.setCounter_chips (s : State) (k : Nat) (c : Counter) : (s.setCounter k c).chips = s.chips := by unfold State.setCounter; split <;> rfl
@[simp] theorem State.setCounter_cfg (s : State) (k : Nat) (c : Counter) : (s.setCounter k c).cfg = s.cfg := by unfold State.setCounter; split <;> rfl
@[simp] theorem State.setCounter_msix (s : State) (k : Nat) (c : Counter) : (s.setCounter k c).msix = s.msix := by unfold State.setCounter; split <;> rfl
@[simp] theorem State.setCounter_pba (s : State) (k : Nat) (c : Counter) : (s.setCounter k c).pba = s.pba := by unfold State.setCounter; split <;> rfl
@[simp] theorem State.setCounter_msiSent (s : State) (k : Nat) (c : Counter) : (s.setCounter k c).msiSent = s.msiSent := by unfold State.setCounter; split <;> rfl
@[simp] theorem State.setCounter_held (s : State) (k : Nat) (c : Counter) : (s.setCounter k c).held = s.held := by unfold State.setCounter; split <;> rfl
@[simp] theorem State.setCounter_readVal (s : State) (k : Nat) (c : Counter) : (s.setCounter k c).readVal = s.readVal := by unfold State.setCounter; split <;> rfl
@[simp] theorem State.setCounter_host (s : State) (k : Nat) (c : Counter) : (s.setCounter k c).host = s.host := by unfold State.setCounter; split <;> rfl
@[simp] theorem State.setCounter_store (s : State) (k : Nat) (c : Counter) : (s.setCounter k c).store = s.store := by unfold State.setCounter; split <;> rfl
@[simp] theorem State.setCounter_sram (s : State) (k : Nat) (c : Counter) : (s.setCounter k c).sram = s.sram := by unfold State.setCounter; split <;> rfl
@[simp] theorem State.setCounter_sramClean (s : State) (k : Nat) (c : Counter) : (s.setCounter k c).sramClean = s.sramClean := by unfold State.setCounter; split <;> rfl
@[simp] theorem State.setCounter_nor (s : State) (k : Nat) (c : Counter) : (s.setCounter k c).nor = s.nor := by unfold State.setCounter; split <;> rfl
/-- What the table holds after a write of key `k`. -/
theorem State.counter_setCounter (s : State) (k : Nat) (c : Counter) (m : Nat) (h : k < 4096) : (s.setCounter k c).counter m = if m = k then c else s.counter m := by
  unfold State.setCounter; rw [if_pos h]; exact tget_tput _ _ _ _ _
@[simp] theorem State.counter_setCounter_same (s : State) (k : Nat) (c : Counter) (h : k < 4096) : (s.setCounter k c).counter k = c := by rw [State.counter_setCounter _ _ _ _ h, if_pos rfl]
theorem State.counter_setCounter_ne (s : State) (k : Nat) (c : Counter) (m : Nat) (h : m ≠ k) : (s.setCounter k c).counter m = s.counter m := by
  by_cases hk : k < 4096
  · rw [State.counter_setCounter _ _ _ _ hk, if_neg h]
  · unfold State.setCounter; rw [if_neg hk]
@[simp] theorem State.chip_setCounter (s : State) (k : Nat) (c : Counter) (m : Nat) : (s.setCounter k c).chip m = s.chip m := by unfold State.setCounter; split <;> rfl
@[simp] theorem State.chain_setCounter (s : State) (k : Nat) (c : Counter) (m : Nat) : (s.setCounter k c).chain m = s.chain m := by unfold State.setCounter; split <;> rfl
@[simp] theorem State.ring_setCounter (s : State) (k : Nat) (c : Counter) (m : Nat) : (s.setCounter k c).ring m = s.ring m := by unfold State.setCounter; split <;> rfl
@[simp] theorem State.src_setCounter (s : State) (k : Nat) (c : Counter) (m : Nat) : (s.setCounter k c).src m = s.src m := by unfold State.setCounter; split <;> rfl
@[simp] theorem State.queue_setCounter (s : State) (k : Nat) (c : Counter) (m : Nat) : (s.setCounter k c).queue m = s.queue m := by unfold State.setCounter; split <;> rfl
@[simp] theorem State.line_setCounter (s : State) (k : Nat) (c : Counter) (m : Nat) : (s.setCounter k c).line m = s.line m := by unfold State.setCounter; split <;> rfl
@[simp] theorem State.se_setCounter (s : State) (k : Nat) (c : Counter) (m : Nat) : (s.setCounter k c).se m = s.se m := by unfold State.setCounter; split <;> rfl
@[simp] theorem State.ctx_setCounter (s : State) (k : Nat) (c : Counter) (m : Nat) : (s.setCounter k c).ctx m = s.ctx m := by unfold State.setCounter; split <;> rfl
@[simp] theorem State.tchip_setCounter (s : State) (k : Nat) (c : Counter) (m : Nat) : (s.setCounter k c).tchip m = s.tchip m := by unfold State.setCounter; split <;> rfl
@[simp] theorem State.topo_setCounter (s : State) (k : Nat) (c : Counter) (m : Nat) : (s.setCounter k c).topo m = s.topo m := by unfold State.setCounter; split <;> rfl

/-! ### setSrc -/

@[simp] theorem State.setSrc_pending (s : State) (n : Nat) (v : Source) : (s.setSrc n v).pending = s.pending := by unfold State.setSrc; split <;> rfl
@[simp] theorem State.setSrc_now (s : State) (n : Nat) (v : Source) : (s.setSrc n v).now = s.now := by unfold State.setSrc; split <;> rfl
@[simp] theorem State.setSrc_ftAdj (s : State) (n : Nat) (v : Source) : (s.setSrc n v).ftAdj = s.ftAdj := by unfold State.setSrc; split <;> rfl
@[simp] theorem State.setSrc_freeIx (s : State) (n : Nat) (v : Source) : (s.setSrc n v).freeIx = s.freeIx := by unfold State.setSrc; split <;> rfl
@[simp] theorem State.setSrc_misuses (s : State) (n : Nat) (v : Source) : (s.setSrc n v).misuses = s.misuses := by unfold State.setSrc; split <;> rfl
@[simp] theorem State.setSrc_rstAt (s : State) (n : Nat) (v : Source) : (s.setSrc n v).rstAt = s.rstAt := by unfold State.setSrc; split <;> rfl
@[simp] theorem State.setSrc_rstBoot (s : State) (n : Nat) (v : Source) : (s.setSrc n v).rstBoot = s.rstBoot := by unfold State.setSrc; split <;> rfl
@[simp] theorem State.setSrc_pwr (s : State) (n : Nat) (v : Source) : (s.setSrc n v).pwr = s.pwr := by unfold State.setSrc; split <;> rfl
@[simp] theorem State.setSrc_pins (s : State) (n : Nat) (v : Source) : (s.setSrc n v).pins = s.pins := by unfold State.setSrc; split <;> rfl
@[simp] theorem State.setSrc_fuses (s : State) (n : Nat) (v : Source) : (s.setSrc n v).fuses = s.fuses := by unfold State.setSrc; split <;> rfl
@[simp] theorem State.setSrc_lcs (s : State) (n : Nat) (v : Source) : (s.setSrc n v).lcs = s.lcs := by unfold State.setSrc; split <;> rfl
@[simp] theorem State.setSrc_boot (s : State) (n : Nat) (v : Source) : (s.setSrc n v).boot = s.boot := by unfold State.setSrc; split <;> rfl
@[simp] theorem State.setSrc_auth (s : State) (n : Nat) (v : Source) : (s.setSrc n v).auth = s.auth := by unfold State.setSrc; split <;> rfl
@[simp] theorem State.setSrc_hub (s : State) (n : Nat) (v : Source) : (s.setSrc n v).hub = s.hub := by unfold State.setSrc; split <;> rfl
@[simp] theorem State.setSrc_rings (s : State) (n : Nat) (v : Source) : (s.setSrc n v).rings = s.rings := by unfold State.setSrc; split <;> rfl
@[simp] theorem State.setSrc_counters (s : State) (n : Nat) (v : Source) : (s.setSrc n v).counters = s.counters := by unfold State.setSrc; split <;> rfl
@[simp] theorem State.setSrc_scan (s : State) (n : Nat) (v : Source) : (s.setSrc n v).scan = s.scan := by unfold State.setSrc; split <;> rfl
@[simp] theorem State.setSrc_htu (s : State) (n : Nat) (v : Source) : (s.setSrc n v).htu = s.htu := by unfold State.setSrc; split <;> rfl
@[simp] theorem State.setSrc_bursts (s : State) (n : Nat) (v : Source) : (s.setSrc n v).bursts = s.bursts := by unfold State.setSrc; split <;> rfl
@[simp] theorem State.setSrc_bhv (s : State) (n : Nat) (v : Source) : (s.setSrc n v).bhv = s.bhv := by unfold State.setSrc; split <;> rfl
@[simp] theorem State.setSrc_run (s : State) (n : Nat) (v : Source) : (s.setSrc n v).run = s.run := by unfold State.setSrc; split <;> rfl
@[simp] theorem State.setSrc_cut (s : State) (n : Nat) (v : Source) : (s.setSrc n v).cut = s.cut := by unfold State.setSrc; split <;> rfl
@[simp] theorem State.setSrc_dmp (s : State) (n : Nat) (v : Source) : (s.setSrc n v).dmp = s.dmp := by unfold State.setSrc; split <;> rfl
@[simp] theorem State.setSrc_trc (s : State) (n : Nat) (v : Source) : (s.setSrc n v).trc = s.trc := by unfold State.setSrc; split <;> rfl
@[simp] theorem State.setSrc_chips (s : State) (n : Nat) (v : Source) : (s.setSrc n v).chips = s.chips := by unfold State.setSrc; split <;> rfl
@[simp] theorem State.setSrc_cfg (s : State) (n : Nat) (v : Source) : (s.setSrc n v).cfg = s.cfg := by unfold State.setSrc; split <;> rfl
@[simp] theorem State.setSrc_msix (s : State) (n : Nat) (v : Source) : (s.setSrc n v).msix = s.msix := by unfold State.setSrc; split <;> rfl
@[simp] theorem State.setSrc_pba (s : State) (n : Nat) (v : Source) : (s.setSrc n v).pba = s.pba := by unfold State.setSrc; split <;> rfl
@[simp] theorem State.setSrc_msiSent (s : State) (n : Nat) (v : Source) : (s.setSrc n v).msiSent = s.msiSent := by unfold State.setSrc; split <;> rfl
@[simp] theorem State.setSrc_held (s : State) (n : Nat) (v : Source) : (s.setSrc n v).held = s.held := by unfold State.setSrc; split <;> rfl
@[simp] theorem State.setSrc_readVal (s : State) (n : Nat) (v : Source) : (s.setSrc n v).readVal = s.readVal := by unfold State.setSrc; split <;> rfl
@[simp] theorem State.setSrc_host (s : State) (n : Nat) (v : Source) : (s.setSrc n v).host = s.host := by unfold State.setSrc; split <;> rfl
@[simp] theorem State.setSrc_store (s : State) (n : Nat) (v : Source) : (s.setSrc n v).store = s.store := by unfold State.setSrc; split <;> rfl
@[simp] theorem State.setSrc_sram (s : State) (n : Nat) (v : Source) : (s.setSrc n v).sram = s.sram := by unfold State.setSrc; split <;> rfl
@[simp] theorem State.setSrc_sramClean (s : State) (n : Nat) (v : Source) : (s.setSrc n v).sramClean = s.sramClean := by unfold State.setSrc; split <;> rfl
@[simp] theorem State.setSrc_nor (s : State) (n : Nat) (v : Source) : (s.setSrc n v).nor = s.nor := by unfold State.setSrc; split <;> rfl
@[simp] theorem State.setSrc_car_queues (s : State) (n : Nat) (v : Source) : (s.setSrc n v).car.queues = s.car.queues := by unfold State.setSrc; split <;> rfl
@[simp] theorem State.setSrc_car_lines (s : State) (n : Nat) (v : Source) : (s.setSrc n v).car.lines = s.car.lines := by unfold State.setSrc; split <;> rfl
/-- What the table holds after a write of key `n`. -/
theorem State.src_setSrc (s : State) (n : Nat) (v : Source) (m : Nat) (h : n < 256) : (s.setSrc n v).src m = if m = n then v else s.src m := by
  unfold State.setSrc; rw [if_pos h]; exact tget_tput _ _ _ _ _
@[simp] theorem State.src_setSrc_same (s : State) (n : Nat) (v : Source) (h : n < 256) : (s.setSrc n v).src n = v := by rw [State.src_setSrc _ _ _ _ h, if_pos rfl]
theorem State.src_setSrc_ne (s : State) (n : Nat) (v : Source) (m : Nat) (h : m ≠ n) : (s.setSrc n v).src m = s.src m := by
  by_cases hk : n < 256
  · rw [State.src_setSrc _ _ _ _ hk, if_neg h]
  · unfold State.setSrc; rw [if_neg hk]
@[simp] theorem State.chip_setSrc (s : State) (n : Nat) (v : Source) (m : Nat) : (s.setSrc n v).chip m = s.chip m := by unfold State.setSrc; split <;> rfl
@[simp] theorem State.chain_setSrc (s : State) (n : Nat) (v : Source) (m : Nat) : (s.setSrc n v).chain m = s.chain m := by unfold State.setSrc; split <;> rfl
@[simp] theorem State.ring_setSrc (s : State) (n : Nat) (v : Source) (m : Nat) : (s.setSrc n v).ring m = s.ring m := by unfold State.setSrc; split <;> rfl
@[simp] theorem State.counter_setSrc (s : State) (n : Nat) (v : Source) (m : Nat) : (s.setSrc n v).counter m = s.counter m := by unfold State.setSrc; split <;> rfl
@[simp] theorem State.queue_setSrc (s : State) (n : Nat) (v : Source) (m : Nat) : (s.setSrc n v).queue m = s.queue m := by unfold State.setSrc; split <;> rfl
@[simp] theorem State.line_setSrc (s : State) (n : Nat) (v : Source) (m : Nat) : (s.setSrc n v).line m = s.line m := by unfold State.setSrc; split <;> rfl
@[simp] theorem State.se_setSrc (s : State) (n : Nat) (v : Source) (m : Nat) : (s.setSrc n v).se m = s.se m := by unfold State.setSrc; split <;> rfl
@[simp] theorem State.ctx_setSrc (s : State) (n : Nat) (v : Source) (m : Nat) : (s.setSrc n v).ctx m = s.ctx m := by unfold State.setSrc; split <;> rfl
@[simp] theorem State.tchip_setSrc (s : State) (n : Nat) (v : Source) (m : Nat) : (s.setSrc n v).tchip m = s.tchip m := by unfold State.setSrc; split <;> rfl
@[simp] theorem State.topo_setSrc (s : State) (n : Nat) (v : Source) (m : Nat) : (s.setSrc n v).topo m = s.topo m := by unfold State.setSrc; split <;> rfl

/-! ### setQueue -/

@[simp] theorem State.setQueue_pending (s : State) (q : Nat) (v : Queue) : (s.setQueue q v).pending = s.pending := by unfold State.setQueue; split <;> rfl
@[simp] theorem State.setQueue_now (s : State) (q : Nat) (v : Queue) : (s.setQueue q v).now = s.now := by unfold State.setQueue; split <;> rfl
@[simp] theorem State.setQueue_ftAdj (s : State) (q : Nat) (v : Queue) : (s.setQueue q v).ftAdj = s.ftAdj := by unfold State.setQueue; split <;> rfl
@[simp] theorem State.setQueue_freeIx (s : State) (q : Nat) (v : Queue) : (s.setQueue q v).freeIx = s.freeIx := by unfold State.setQueue; split <;> rfl
@[simp] theorem State.setQueue_misuses (s : State) (q : Nat) (v : Queue) : (s.setQueue q v).misuses = s.misuses := by unfold State.setQueue; split <;> rfl
@[simp] theorem State.setQueue_rstAt (s : State) (q : Nat) (v : Queue) : (s.setQueue q v).rstAt = s.rstAt := by unfold State.setQueue; split <;> rfl
@[simp] theorem State.setQueue_rstBoot (s : State) (q : Nat) (v : Queue) : (s.setQueue q v).rstBoot = s.rstBoot := by unfold State.setQueue; split <;> rfl
@[simp] theorem State.setQueue_pwr (s : State) (q : Nat) (v : Queue) : (s.setQueue q v).pwr = s.pwr := by unfold State.setQueue; split <;> rfl
@[simp] theorem State.setQueue_pins (s : State) (q : Nat) (v : Queue) : (s.setQueue q v).pins = s.pins := by unfold State.setQueue; split <;> rfl
@[simp] theorem State.setQueue_fuses (s : State) (q : Nat) (v : Queue) : (s.setQueue q v).fuses = s.fuses := by unfold State.setQueue; split <;> rfl
@[simp] theorem State.setQueue_lcs (s : State) (q : Nat) (v : Queue) : (s.setQueue q v).lcs = s.lcs := by unfold State.setQueue; split <;> rfl
@[simp] theorem State.setQueue_boot (s : State) (q : Nat) (v : Queue) : (s.setQueue q v).boot = s.boot := by unfold State.setQueue; split <;> rfl
@[simp] theorem State.setQueue_auth (s : State) (q : Nat) (v : Queue) : (s.setQueue q v).auth = s.auth := by unfold State.setQueue; split <;> rfl
@[simp] theorem State.setQueue_hub (s : State) (q : Nat) (v : Queue) : (s.setQueue q v).hub = s.hub := by unfold State.setQueue; split <;> rfl
@[simp] theorem State.setQueue_rings (s : State) (q : Nat) (v : Queue) : (s.setQueue q v).rings = s.rings := by unfold State.setQueue; split <;> rfl
@[simp] theorem State.setQueue_counters (s : State) (q : Nat) (v : Queue) : (s.setQueue q v).counters = s.counters := by unfold State.setQueue; split <;> rfl
@[simp] theorem State.setQueue_scan (s : State) (q : Nat) (v : Queue) : (s.setQueue q v).scan = s.scan := by unfold State.setQueue; split <;> rfl
@[simp] theorem State.setQueue_htu (s : State) (q : Nat) (v : Queue) : (s.setQueue q v).htu = s.htu := by unfold State.setQueue; split <;> rfl
@[simp] theorem State.setQueue_bursts (s : State) (q : Nat) (v : Queue) : (s.setQueue q v).bursts = s.bursts := by unfold State.setQueue; split <;> rfl
@[simp] theorem State.setQueue_bhv (s : State) (q : Nat) (v : Queue) : (s.setQueue q v).bhv = s.bhv := by unfold State.setQueue; split <;> rfl
@[simp] theorem State.setQueue_run (s : State) (q : Nat) (v : Queue) : (s.setQueue q v).run = s.run := by unfold State.setQueue; split <;> rfl
@[simp] theorem State.setQueue_cut (s : State) (q : Nat) (v : Queue) : (s.setQueue q v).cut = s.cut := by unfold State.setQueue; split <;> rfl
@[simp] theorem State.setQueue_dmp (s : State) (q : Nat) (v : Queue) : (s.setQueue q v).dmp = s.dmp := by unfold State.setQueue; split <;> rfl
@[simp] theorem State.setQueue_trc (s : State) (q : Nat) (v : Queue) : (s.setQueue q v).trc = s.trc := by unfold State.setQueue; split <;> rfl
@[simp] theorem State.setQueue_chips (s : State) (q : Nat) (v : Queue) : (s.setQueue q v).chips = s.chips := by unfold State.setQueue; split <;> rfl
@[simp] theorem State.setQueue_cfg (s : State) (q : Nat) (v : Queue) : (s.setQueue q v).cfg = s.cfg := by unfold State.setQueue; split <;> rfl
@[simp] theorem State.setQueue_msix (s : State) (q : Nat) (v : Queue) : (s.setQueue q v).msix = s.msix := by unfold State.setQueue; split <;> rfl
@[simp] theorem State.setQueue_pba (s : State) (q : Nat) (v : Queue) : (s.setQueue q v).pba = s.pba := by unfold State.setQueue; split <;> rfl
@[simp] theorem State.setQueue_msiSent (s : State) (q : Nat) (v : Queue) : (s.setQueue q v).msiSent = s.msiSent := by unfold State.setQueue; split <;> rfl
@[simp] theorem State.setQueue_held (s : State) (q : Nat) (v : Queue) : (s.setQueue q v).held = s.held := by unfold State.setQueue; split <;> rfl
@[simp] theorem State.setQueue_readVal (s : State) (q : Nat) (v : Queue) : (s.setQueue q v).readVal = s.readVal := by unfold State.setQueue; split <;> rfl
@[simp] theorem State.setQueue_host (s : State) (q : Nat) (v : Queue) : (s.setQueue q v).host = s.host := by unfold State.setQueue; split <;> rfl
@[simp] theorem State.setQueue_store (s : State) (q : Nat) (v : Queue) : (s.setQueue q v).store = s.store := by unfold State.setQueue; split <;> rfl
@[simp] theorem State.setQueue_sram (s : State) (q : Nat) (v : Queue) : (s.setQueue q v).sram = s.sram := by unfold State.setQueue; split <;> rfl
@[simp] theorem State.setQueue_sramClean (s : State) (q : Nat) (v : Queue) : (s.setQueue q v).sramClean = s.sramClean := by unfold State.setQueue; split <;> rfl
@[simp] theorem State.setQueue_nor (s : State) (q : Nat) (v : Queue) : (s.setQueue q v).nor = s.nor := by unfold State.setQueue; split <;> rfl
@[simp] theorem State.setQueue_car_sources (s : State) (q : Nat) (v : Queue) : (s.setQueue q v).car.sources = s.car.sources := by unfold State.setQueue; split <;> rfl
@[simp] theorem State.setQueue_car_lines (s : State) (q : Nat) (v : Queue) : (s.setQueue q v).car.lines = s.car.lines := by unfold State.setQueue; split <;> rfl
/-- What the table holds after a write of key `q`. -/
theorem State.queue_setQueue (s : State) (q : Nat) (v : Queue) (m : Nat) (h : q < 64) : (s.setQueue q v).queue m = if m = q then v else s.queue m := by
  unfold State.setQueue; rw [if_pos h]; exact tget_tput _ _ _ _ _
@[simp] theorem State.queue_setQueue_same (s : State) (q : Nat) (v : Queue) (h : q < 64) : (s.setQueue q v).queue q = v := by rw [State.queue_setQueue _ _ _ _ h, if_pos rfl]
theorem State.queue_setQueue_ne (s : State) (q : Nat) (v : Queue) (m : Nat) (h : m ≠ q) : (s.setQueue q v).queue m = s.queue m := by
  by_cases hk : q < 64
  · rw [State.queue_setQueue _ _ _ _ hk, if_neg h]
  · unfold State.setQueue; rw [if_neg hk]
@[simp] theorem State.chip_setQueue (s : State) (q : Nat) (v : Queue) (m : Nat) : (s.setQueue q v).chip m = s.chip m := by unfold State.setQueue; split <;> rfl
@[simp] theorem State.chain_setQueue (s : State) (q : Nat) (v : Queue) (m : Nat) : (s.setQueue q v).chain m = s.chain m := by unfold State.setQueue; split <;> rfl
@[simp] theorem State.ring_setQueue (s : State) (q : Nat) (v : Queue) (m : Nat) : (s.setQueue q v).ring m = s.ring m := by unfold State.setQueue; split <;> rfl
@[simp] theorem State.counter_setQueue (s : State) (q : Nat) (v : Queue) (m : Nat) : (s.setQueue q v).counter m = s.counter m := by unfold State.setQueue; split <;> rfl
@[simp] theorem State.src_setQueue (s : State) (q : Nat) (v : Queue) (m : Nat) : (s.setQueue q v).src m = s.src m := by unfold State.setQueue; split <;> rfl
@[simp] theorem State.line_setQueue (s : State) (q : Nat) (v : Queue) (m : Nat) : (s.setQueue q v).line m = s.line m := by unfold State.setQueue; split <;> rfl
@[simp] theorem State.se_setQueue (s : State) (q : Nat) (v : Queue) (m : Nat) : (s.setQueue q v).se m = s.se m := by unfold State.setQueue; split <;> rfl
@[simp] theorem State.ctx_setQueue (s : State) (q : Nat) (v : Queue) (m : Nat) : (s.setQueue q v).ctx m = s.ctx m := by unfold State.setQueue; split <;> rfl
@[simp] theorem State.tchip_setQueue (s : State) (q : Nat) (v : Queue) (m : Nat) : (s.setQueue q v).tchip m = s.tchip m := by unfold State.setQueue; split <;> rfl
@[simp] theorem State.topo_setQueue (s : State) (q : Nat) (v : Queue) (m : Nat) : (s.setQueue q v).topo m = s.topo m := by unfold State.setQueue; split <;> rfl

/-! ### setLine -/

@[simp] theorem State.setLine_pending (s : State) (n : Nat) (v : Line) : (s.setLine n v).pending = s.pending := by unfold State.setLine; split <;> rfl
@[simp] theorem State.setLine_now (s : State) (n : Nat) (v : Line) : (s.setLine n v).now = s.now := by unfold State.setLine; split <;> rfl
@[simp] theorem State.setLine_ftAdj (s : State) (n : Nat) (v : Line) : (s.setLine n v).ftAdj = s.ftAdj := by unfold State.setLine; split <;> rfl
@[simp] theorem State.setLine_freeIx (s : State) (n : Nat) (v : Line) : (s.setLine n v).freeIx = s.freeIx := by unfold State.setLine; split <;> rfl
@[simp] theorem State.setLine_misuses (s : State) (n : Nat) (v : Line) : (s.setLine n v).misuses = s.misuses := by unfold State.setLine; split <;> rfl
@[simp] theorem State.setLine_rstAt (s : State) (n : Nat) (v : Line) : (s.setLine n v).rstAt = s.rstAt := by unfold State.setLine; split <;> rfl
@[simp] theorem State.setLine_rstBoot (s : State) (n : Nat) (v : Line) : (s.setLine n v).rstBoot = s.rstBoot := by unfold State.setLine; split <;> rfl
@[simp] theorem State.setLine_pwr (s : State) (n : Nat) (v : Line) : (s.setLine n v).pwr = s.pwr := by unfold State.setLine; split <;> rfl
@[simp] theorem State.setLine_pins (s : State) (n : Nat) (v : Line) : (s.setLine n v).pins = s.pins := by unfold State.setLine; split <;> rfl
@[simp] theorem State.setLine_fuses (s : State) (n : Nat) (v : Line) : (s.setLine n v).fuses = s.fuses := by unfold State.setLine; split <;> rfl
@[simp] theorem State.setLine_lcs (s : State) (n : Nat) (v : Line) : (s.setLine n v).lcs = s.lcs := by unfold State.setLine; split <;> rfl
@[simp] theorem State.setLine_boot (s : State) (n : Nat) (v : Line) : (s.setLine n v).boot = s.boot := by unfold State.setLine; split <;> rfl
@[simp] theorem State.setLine_auth (s : State) (n : Nat) (v : Line) : (s.setLine n v).auth = s.auth := by unfold State.setLine; split <;> rfl
@[simp] theorem State.setLine_hub (s : State) (n : Nat) (v : Line) : (s.setLine n v).hub = s.hub := by unfold State.setLine; split <;> rfl
@[simp] theorem State.setLine_rings (s : State) (n : Nat) (v : Line) : (s.setLine n v).rings = s.rings := by unfold State.setLine; split <;> rfl
@[simp] theorem State.setLine_counters (s : State) (n : Nat) (v : Line) : (s.setLine n v).counters = s.counters := by unfold State.setLine; split <;> rfl
@[simp] theorem State.setLine_scan (s : State) (n : Nat) (v : Line) : (s.setLine n v).scan = s.scan := by unfold State.setLine; split <;> rfl
@[simp] theorem State.setLine_htu (s : State) (n : Nat) (v : Line) : (s.setLine n v).htu = s.htu := by unfold State.setLine; split <;> rfl
@[simp] theorem State.setLine_bursts (s : State) (n : Nat) (v : Line) : (s.setLine n v).bursts = s.bursts := by unfold State.setLine; split <;> rfl
@[simp] theorem State.setLine_bhv (s : State) (n : Nat) (v : Line) : (s.setLine n v).bhv = s.bhv := by unfold State.setLine; split <;> rfl
@[simp] theorem State.setLine_run (s : State) (n : Nat) (v : Line) : (s.setLine n v).run = s.run := by unfold State.setLine; split <;> rfl
@[simp] theorem State.setLine_cut (s : State) (n : Nat) (v : Line) : (s.setLine n v).cut = s.cut := by unfold State.setLine; split <;> rfl
@[simp] theorem State.setLine_dmp (s : State) (n : Nat) (v : Line) : (s.setLine n v).dmp = s.dmp := by unfold State.setLine; split <;> rfl
@[simp] theorem State.setLine_trc (s : State) (n : Nat) (v : Line) : (s.setLine n v).trc = s.trc := by unfold State.setLine; split <;> rfl
@[simp] theorem State.setLine_chips (s : State) (n : Nat) (v : Line) : (s.setLine n v).chips = s.chips := by unfold State.setLine; split <;> rfl
@[simp] theorem State.setLine_cfg (s : State) (n : Nat) (v : Line) : (s.setLine n v).cfg = s.cfg := by unfold State.setLine; split <;> rfl
@[simp] theorem State.setLine_msix (s : State) (n : Nat) (v : Line) : (s.setLine n v).msix = s.msix := by unfold State.setLine; split <;> rfl
@[simp] theorem State.setLine_pba (s : State) (n : Nat) (v : Line) : (s.setLine n v).pba = s.pba := by unfold State.setLine; split <;> rfl
@[simp] theorem State.setLine_msiSent (s : State) (n : Nat) (v : Line) : (s.setLine n v).msiSent = s.msiSent := by unfold State.setLine; split <;> rfl
@[simp] theorem State.setLine_held (s : State) (n : Nat) (v : Line) : (s.setLine n v).held = s.held := by unfold State.setLine; split <;> rfl
@[simp] theorem State.setLine_readVal (s : State) (n : Nat) (v : Line) : (s.setLine n v).readVal = s.readVal := by unfold State.setLine; split <;> rfl
@[simp] theorem State.setLine_host (s : State) (n : Nat) (v : Line) : (s.setLine n v).host = s.host := by unfold State.setLine; split <;> rfl
@[simp] theorem State.setLine_store (s : State) (n : Nat) (v : Line) : (s.setLine n v).store = s.store := by unfold State.setLine; split <;> rfl
@[simp] theorem State.setLine_sram (s : State) (n : Nat) (v : Line) : (s.setLine n v).sram = s.sram := by unfold State.setLine; split <;> rfl
@[simp] theorem State.setLine_sramClean (s : State) (n : Nat) (v : Line) : (s.setLine n v).sramClean = s.sramClean := by unfold State.setLine; split <;> rfl
@[simp] theorem State.setLine_nor (s : State) (n : Nat) (v : Line) : (s.setLine n v).nor = s.nor := by unfold State.setLine; split <;> rfl
@[simp] theorem State.setLine_car_sources (s : State) (n : Nat) (v : Line) : (s.setLine n v).car.sources = s.car.sources := by unfold State.setLine; split <;> rfl
@[simp] theorem State.setLine_car_queues (s : State) (n : Nat) (v : Line) : (s.setLine n v).car.queues = s.car.queues := by unfold State.setLine; split <;> rfl
@[simp] theorem State.chip_setLine (s : State) (n : Nat) (v : Line) (m : Nat) : (s.setLine n v).chip m = s.chip m := by unfold State.setLine; split <;> rfl
@[simp] theorem State.chain_setLine (s : State) (n : Nat) (v : Line) (m : Nat) : (s.setLine n v).chain m = s.chain m := by unfold State.setLine; split <;> rfl
@[simp] theorem State.ring_setLine (s : State) (n : Nat) (v : Line) (m : Nat) : (s.setLine n v).ring m = s.ring m := by unfold State.setLine; split <;> rfl
@[simp] theorem State.counter_setLine (s : State) (n : Nat) (v : Line) (m : Nat) : (s.setLine n v).counter m = s.counter m := by unfold State.setLine; split <;> rfl
@[simp] theorem State.src_setLine (s : State) (n : Nat) (v : Line) (m : Nat) : (s.setLine n v).src m = s.src m := by unfold State.setLine; split <;> rfl
@[simp] theorem State.queue_setLine (s : State) (n : Nat) (v : Line) (m : Nat) : (s.setLine n v).queue m = s.queue m := by unfold State.setLine; split <;> rfl
@[simp] theorem State.se_setLine (s : State) (n : Nat) (v : Line) (m : Nat) : (s.setLine n v).se m = s.se m := by unfold State.setLine; split <;> rfl
@[simp] theorem State.ctx_setLine (s : State) (n : Nat) (v : Line) (m : Nat) : (s.setLine n v).ctx m = s.ctx m := by unfold State.setLine; split <;> rfl
@[simp] theorem State.tchip_setLine (s : State) (n : Nat) (v : Line) (m : Nat) : (s.setLine n v).tchip m = s.tchip m := by unfold State.setLine; split <;> rfl
@[simp] theorem State.topo_setLine (s : State) (n : Nat) (v : Line) (m : Nat) : (s.setLine n v).topo m = s.topo m := by unfold State.setLine; split <;> rfl

/-! ### setSe -/

@[simp] theorem State.setSe_pending (s : State) (e : Nat) (v : StrokeEngine) : (s.setSe e v).pending = s.pending := by unfold State.setSe; split <;> rfl
@[simp] theorem State.setSe_now (s : State) (e : Nat) (v : StrokeEngine) : (s.setSe e v).now = s.now := by unfold State.setSe; split <;> rfl
@[simp] theorem State.setSe_ftAdj (s : State) (e : Nat) (v : StrokeEngine) : (s.setSe e v).ftAdj = s.ftAdj := by unfold State.setSe; split <;> rfl
@[simp] theorem State.setSe_freeIx (s : State) (e : Nat) (v : StrokeEngine) : (s.setSe e v).freeIx = s.freeIx := by unfold State.setSe; split <;> rfl
@[simp] theorem State.setSe_misuses (s : State) (e : Nat) (v : StrokeEngine) : (s.setSe e v).misuses = s.misuses := by unfold State.setSe; split <;> rfl
@[simp] theorem State.setSe_rstAt (s : State) (e : Nat) (v : StrokeEngine) : (s.setSe e v).rstAt = s.rstAt := by unfold State.setSe; split <;> rfl
@[simp] theorem State.setSe_rstBoot (s : State) (e : Nat) (v : StrokeEngine) : (s.setSe e v).rstBoot = s.rstBoot := by unfold State.setSe; split <;> rfl
@[simp] theorem State.setSe_pwr (s : State) (e : Nat) (v : StrokeEngine) : (s.setSe e v).pwr = s.pwr := by unfold State.setSe; split <;> rfl
@[simp] theorem State.setSe_pins (s : State) (e : Nat) (v : StrokeEngine) : (s.setSe e v).pins = s.pins := by unfold State.setSe; split <;> rfl
@[simp] theorem State.setSe_fuses (s : State) (e : Nat) (v : StrokeEngine) : (s.setSe e v).fuses = s.fuses := by unfold State.setSe; split <;> rfl
@[simp] theorem State.setSe_lcs (s : State) (e : Nat) (v : StrokeEngine) : (s.setSe e v).lcs = s.lcs := by unfold State.setSe; split <;> rfl
@[simp] theorem State.setSe_boot (s : State) (e : Nat) (v : StrokeEngine) : (s.setSe e v).boot = s.boot := by unfold State.setSe; split <;> rfl
@[simp] theorem State.setSe_auth (s : State) (e : Nat) (v : StrokeEngine) : (s.setSe e v).auth = s.auth := by unfold State.setSe; split <;> rfl
@[simp] theorem State.setSe_rings (s : State) (e : Nat) (v : StrokeEngine) : (s.setSe e v).rings = s.rings := by unfold State.setSe; split <;> rfl
@[simp] theorem State.setSe_counters (s : State) (e : Nat) (v : StrokeEngine) : (s.setSe e v).counters = s.counters := by unfold State.setSe; split <;> rfl
@[simp] theorem State.setSe_scan (s : State) (e : Nat) (v : StrokeEngine) : (s.setSe e v).scan = s.scan := by unfold State.setSe; split <;> rfl
@[simp] theorem State.setSe_htu (s : State) (e : Nat) (v : StrokeEngine) : (s.setSe e v).htu = s.htu := by unfold State.setSe; split <;> rfl
@[simp] theorem State.setSe_bursts (s : State) (e : Nat) (v : StrokeEngine) : (s.setSe e v).bursts = s.bursts := by unfold State.setSe; split <;> rfl
@[simp] theorem State.setSe_car (s : State) (e : Nat) (v : StrokeEngine) : (s.setSe e v).car = s.car := by unfold State.setSe; split <;> rfl
@[simp] theorem State.setSe_bhv (s : State) (e : Nat) (v : StrokeEngine) : (s.setSe e v).bhv = s.bhv := by unfold State.setSe; split <;> rfl
@[simp] theorem State.setSe_run (s : State) (e : Nat) (v : StrokeEngine) : (s.setSe e v).run = s.run := by unfold State.setSe; split <;> rfl
@[simp] theorem State.setSe_cut (s : State) (e : Nat) (v : StrokeEngine) : (s.setSe e v).cut = s.cut := by unfold State.setSe; split <;> rfl
@[simp] theorem State.setSe_dmp (s : State) (e : Nat) (v : StrokeEngine) : (s.setSe e v).dmp = s.dmp := by unfold State.setSe; split <;> rfl
@[simp] theorem State.setSe_trc (s : State) (e : Nat) (v : StrokeEngine) : (s.setSe e v).trc = s.trc := by unfold State.setSe; split <;> rfl
@[simp] theorem State.setSe_chips (s : State) (e : Nat) (v : StrokeEngine) : (s.setSe e v).chips = s.chips := by unfold State.setSe; split <;> rfl
@[simp] theorem State.setSe_cfg (s : State) (e : Nat) (v : StrokeEngine) : (s.setSe e v).cfg = s.cfg := by unfold State.setSe; split <;> rfl
@[simp] theorem State.setSe_msix (s : State) (e : Nat) (v : StrokeEngine) : (s.setSe e v).msix = s.msix := by unfold State.setSe; split <;> rfl
@[simp] theorem State.setSe_pba (s : State) (e : Nat) (v : StrokeEngine) : (s.setSe e v).pba = s.pba := by unfold State.setSe; split <;> rfl
@[simp] theorem State.setSe_msiSent (s : State) (e : Nat) (v : StrokeEngine) : (s.setSe e v).msiSent = s.msiSent := by unfold State.setSe; split <;> rfl
@[simp] theorem State.setSe_held (s : State) (e : Nat) (v : StrokeEngine) : (s.setSe e v).held = s.held := by unfold State.setSe; split <;> rfl
@[simp] theorem State.setSe_readVal (s : State) (e : Nat) (v : StrokeEngine) : (s.setSe e v).readVal = s.readVal := by unfold State.setSe; split <;> rfl
@[simp] theorem State.setSe_host (s : State) (e : Nat) (v : StrokeEngine) : (s.setSe e v).host = s.host := by unfold State.setSe; split <;> rfl
@[simp] theorem State.setSe_store (s : State) (e : Nat) (v : StrokeEngine) : (s.setSe e v).store = s.store := by unfold State.setSe; split <;> rfl
@[simp] theorem State.setSe_sram (s : State) (e : Nat) (v : StrokeEngine) : (s.setSe e v).sram = s.sram := by unfold State.setSe; split <;> rfl
@[simp] theorem State.setSe_sramClean (s : State) (e : Nat) (v : StrokeEngine) : (s.setSe e v).sramClean = s.sramClean := by unfold State.setSe; split <;> rfl
@[simp] theorem State.setSe_nor (s : State) (e : Nat) (v : StrokeEngine) : (s.setSe e v).nor = s.nor := by unfold State.setSe; split <;> rfl
@[simp] theorem State.setSe_hub_free (s : State) (e : Nat) (v : StrokeEngine) : (s.setSe e v).hub.free = s.hub.free := by unfold State.setSe; split <;> rfl
@[simp] theorem State.setSe_hub_nextFree (s : State) (e : Nat) (v : StrokeEngine) : (s.setSe e v).hub.nextFree = s.hub.nextFree := by unfold State.setSe; split <;> rfl
@[simp] theorem State.setSe_hub_strokes (s : State) (e : Nat) (v : StrokeEngine) : (s.setSe e v).hub.strokes = s.hub.strokes := by unfold State.setSe; split <;> rfl
@[simp] theorem State.setSe_hub_coreQ (s : State) (e : Nat) (v : StrokeEngine) : (s.setSe e v).hub.coreQ = s.hub.coreQ := by unfold State.setSe; split <;> rfl
/-- What the table holds after a write of key `e`. -/
theorem State.se_setSe (s : State) (e : Nat) (v : StrokeEngine) (m : Nat) (h : e < 4) : (s.setSe e v).se m = if m = e then v else s.se m := by
  unfold State.setSe; rw [if_pos h]; exact tget_tput _ _ _ _ _
@[simp] theorem State.se_setSe_same (s : State) (e : Nat) (v : StrokeEngine) (h : e < 4) : (s.setSe e v).se e = v := by rw [State.se_setSe _ _ _ _ h, if_pos rfl]
theorem State.se_setSe_ne (s : State) (e : Nat) (v : StrokeEngine) (m : Nat) (h : m ≠ e) : (s.setSe e v).se m = s.se m := by
  by_cases hk : e < 4
  · rw [State.se_setSe _ _ _ _ hk, if_neg h]
  · unfold State.setSe; rw [if_neg hk]
@[simp] theorem State.chip_setSe (s : State) (e : Nat) (v : StrokeEngine) (m : Nat) : (s.setSe e v).chip m = s.chip m := by unfold State.setSe; split <;> rfl
@[simp] theorem State.chain_setSe (s : State) (e : Nat) (v : StrokeEngine) (m : Nat) : (s.setSe e v).chain m = s.chain m := by unfold State.setSe; split <;> rfl
@[simp] theorem State.ring_setSe (s : State) (e : Nat) (v : StrokeEngine) (m : Nat) : (s.setSe e v).ring m = s.ring m := by unfold State.setSe; split <;> rfl
@[simp] theorem State.counter_setSe (s : State) (e : Nat) (v : StrokeEngine) (m : Nat) : (s.setSe e v).counter m = s.counter m := by unfold State.setSe; split <;> rfl
@[simp] theorem State.src_setSe (s : State) (e : Nat) (v : StrokeEngine) (m : Nat) : (s.setSe e v).src m = s.src m := by unfold State.setSe; split <;> rfl
@[simp] theorem State.queue_setSe (s : State) (e : Nat) (v : StrokeEngine) (m : Nat) : (s.setSe e v).queue m = s.queue m := by unfold State.setSe; split <;> rfl
@[simp] theorem State.line_setSe (s : State) (e : Nat) (v : StrokeEngine) (m : Nat) : (s.setSe e v).line m = s.line m := by unfold State.setSe; split <;> rfl
@[simp] theorem State.ctx_setSe (s : State) (e : Nat) (v : StrokeEngine) (m : Nat) : (s.setSe e v).ctx m = s.ctx m := by unfold State.setSe; split <;> rfl
@[simp] theorem State.tchip_setSe (s : State) (e : Nat) (v : StrokeEngine) (m : Nat) : (s.setSe e v).tchip m = s.tchip m := by unfold State.setSe; split <;> rfl
@[simp] theorem State.topo_setSe (s : State) (e : Nat) (v : StrokeEngine) (m : Nat) : (s.setSe e v).topo m = s.topo m := by unfold State.setSe; split <;> rfl

/-! ### setCtx -/

@[simp] theorem State.setCtx_pending (s : State) (n : Nat) (c : Ctx) : (s.setCtx n c).pending = s.pending := by unfold State.setCtx; split <;> rfl
@[simp] theorem State.setCtx_now (s : State) (n : Nat) (c : Ctx) : (s.setCtx n c).now = s.now := by unfold State.setCtx; split <;> rfl
@[simp] theorem State.setCtx_ftAdj (s : State) (n : Nat) (c : Ctx) : (s.setCtx n c).ftAdj = s.ftAdj := by unfold State.setCtx; split <;> rfl
@[simp] theorem State.setCtx_freeIx (s : State) (n : Nat) (c : Ctx) : (s.setCtx n c).freeIx = s.freeIx := by unfold State.setCtx; split <;> rfl
@[simp] theorem State.setCtx_misuses (s : State) (n : Nat) (c : Ctx) : (s.setCtx n c).misuses = s.misuses := by unfold State.setCtx; split <;> rfl
@[simp] theorem State.setCtx_rstAt (s : State) (n : Nat) (c : Ctx) : (s.setCtx n c).rstAt = s.rstAt := by unfold State.setCtx; split <;> rfl
@[simp] theorem State.setCtx_rstBoot (s : State) (n : Nat) (c : Ctx) : (s.setCtx n c).rstBoot = s.rstBoot := by unfold State.setCtx; split <;> rfl
@[simp] theorem State.setCtx_pwr (s : State) (n : Nat) (c : Ctx) : (s.setCtx n c).pwr = s.pwr := by unfold State.setCtx; split <;> rfl
@[simp] theorem State.setCtx_pins (s : State) (n : Nat) (c : Ctx) : (s.setCtx n c).pins = s.pins := by unfold State.setCtx; split <;> rfl
@[simp] theorem State.setCtx_fuses (s : State) (n : Nat) (c : Ctx) : (s.setCtx n c).fuses = s.fuses := by unfold State.setCtx; split <;> rfl
@[simp] theorem State.setCtx_lcs (s : State) (n : Nat) (c : Ctx) : (s.setCtx n c).lcs = s.lcs := by unfold State.setCtx; split <;> rfl
@[simp] theorem State.setCtx_boot (s : State) (n : Nat) (c : Ctx) : (s.setCtx n c).boot = s.boot := by unfold State.setCtx; split <;> rfl
@[simp] theorem State.setCtx_auth (s : State) (n : Nat) (c : Ctx) : (s.setCtx n c).auth = s.auth := by unfold State.setCtx; split <;> rfl
@[simp] theorem State.setCtx_hub (s : State) (n : Nat) (c : Ctx) : (s.setCtx n c).hub = s.hub := by unfold State.setCtx; split <;> rfl
@[simp] theorem State.setCtx_rings (s : State) (n : Nat) (c : Ctx) : (s.setCtx n c).rings = s.rings := by unfold State.setCtx; split <;> rfl
@[simp] theorem State.setCtx_counters (s : State) (n : Nat) (c : Ctx) : (s.setCtx n c).counters = s.counters := by unfold State.setCtx; split <;> rfl
@[simp] theorem State.setCtx_scan (s : State) (n : Nat) (c : Ctx) : (s.setCtx n c).scan = s.scan := by unfold State.setCtx; split <;> rfl
@[simp] theorem State.setCtx_htu (s : State) (n : Nat) (c : Ctx) : (s.setCtx n c).htu = s.htu := by unfold State.setCtx; split <;> rfl
@[simp] theorem State.setCtx_bursts (s : State) (n : Nat) (c : Ctx) : (s.setCtx n c).bursts = s.bursts := by unfold State.setCtx; split <;> rfl
@[simp] theorem State.setCtx_car (s : State) (n : Nat) (c : Ctx) : (s.setCtx n c).car = s.car := by unfold State.setCtx; split <;> rfl
@[simp] theorem State.setCtx_bhv (s : State) (n : Nat) (c : Ctx) : (s.setCtx n c).bhv = s.bhv := by unfold State.setCtx; split <;> rfl
@[simp] theorem State.setCtx_run (s : State) (n : Nat) (c : Ctx) : (s.setCtx n c).run = s.run := by unfold State.setCtx; split <;> rfl
@[simp] theorem State.setCtx_cut (s : State) (n : Nat) (c : Ctx) : (s.setCtx n c).cut = s.cut := by unfold State.setCtx; split <;> rfl
@[simp] theorem State.setCtx_trc (s : State) (n : Nat) (c : Ctx) : (s.setCtx n c).trc = s.trc := by unfold State.setCtx; split <;> rfl
@[simp] theorem State.setCtx_chips (s : State) (n : Nat) (c : Ctx) : (s.setCtx n c).chips = s.chips := by unfold State.setCtx; split <;> rfl
@[simp] theorem State.setCtx_cfg (s : State) (n : Nat) (c : Ctx) : (s.setCtx n c).cfg = s.cfg := by unfold State.setCtx; split <;> rfl
@[simp] theorem State.setCtx_msix (s : State) (n : Nat) (c : Ctx) : (s.setCtx n c).msix = s.msix := by unfold State.setCtx; split <;> rfl
@[simp] theorem State.setCtx_pba (s : State) (n : Nat) (c : Ctx) : (s.setCtx n c).pba = s.pba := by unfold State.setCtx; split <;> rfl
@[simp] theorem State.setCtx_msiSent (s : State) (n : Nat) (c : Ctx) : (s.setCtx n c).msiSent = s.msiSent := by unfold State.setCtx; split <;> rfl
@[simp] theorem State.setCtx_held (s : State) (n : Nat) (c : Ctx) : (s.setCtx n c).held = s.held := by unfold State.setCtx; split <;> rfl
@[simp] theorem State.setCtx_readVal (s : State) (n : Nat) (c : Ctx) : (s.setCtx n c).readVal = s.readVal := by unfold State.setCtx; split <;> rfl
@[simp] theorem State.setCtx_host (s : State) (n : Nat) (c : Ctx) : (s.setCtx n c).host = s.host := by unfold State.setCtx; split <;> rfl
@[simp] theorem State.setCtx_store (s : State) (n : Nat) (c : Ctx) : (s.setCtx n c).store = s.store := by unfold State.setCtx; split <;> rfl
@[simp] theorem State.setCtx_sram (s : State) (n : Nat) (c : Ctx) : (s.setCtx n c).sram = s.sram := by unfold State.setCtx; split <;> rfl
@[simp] theorem State.setCtx_sramClean (s : State) (n : Nat) (c : Ctx) : (s.setCtx n c).sramClean = s.sramClean := by unfold State.setCtx; split <;> rfl
@[simp] theorem State.setCtx_nor (s : State) (n : Nat) (c : Ctx) : (s.setCtx n c).nor = s.nor := by unfold State.setCtx; split <;> rfl
@[simp] theorem State.setCtx_dmp_cache (s : State) (n : Nat) (c : Ctx) : (s.setCtx n c).dmp.cache = s.dmp.cache := by unfold State.setCtx; split <;> rfl
@[simp] theorem State.setCtx_dmp_plans (s : State) (n : Nat) (c : Ctx) : (s.setCtx n c).dmp.plans = s.dmp.plans := by unfold State.setCtx; split <;> rfl
@[simp] theorem State.setCtx_dmp_enable (s : State) (n : Nat) (c : Ctx) : (s.setCtx n c).dmp.enable = s.dmp.enable := by unfold State.setCtx; split <;> rfl
@[simp] theorem State.setCtx_dmp_surviving (s : State) (n : Nat) (c : Ctx) : (s.setCtx n c).dmp.surviving = s.dmp.surviving := by unfold State.setCtx; split <;> rfl
/-- What the table holds after a write of key `n`. -/
theorem State.ctx_setCtx (s : State) (n : Nat) (c : Ctx) (m : Nat) (h : n < 5) : (s.setCtx n c).ctx m = if m = n then c else s.ctx m := by
  unfold State.setCtx; rw [if_pos h]; exact tget_tput _ _ _ _ _
@[simp] theorem State.ctx_setCtx_same (s : State) (n : Nat) (c : Ctx) (h : n < 5) : (s.setCtx n c).ctx n = c := by rw [State.ctx_setCtx _ _ _ _ h, if_pos rfl]
theorem State.ctx_setCtx_ne (s : State) (n : Nat) (c : Ctx) (m : Nat) (h : m ≠ n) : (s.setCtx n c).ctx m = s.ctx m := by
  by_cases hk : n < 5
  · rw [State.ctx_setCtx _ _ _ _ hk, if_neg h]
  · unfold State.setCtx; rw [if_neg hk]
@[simp] theorem State.chip_setCtx (s : State) (n : Nat) (c : Ctx) (m : Nat) : (s.setCtx n c).chip m = s.chip m := by unfold State.setCtx; split <;> rfl
@[simp] theorem State.chain_setCtx (s : State) (n : Nat) (c : Ctx) (m : Nat) : (s.setCtx n c).chain m = s.chain m := by unfold State.setCtx; split <;> rfl
@[simp] theorem State.ring_setCtx (s : State) (n : Nat) (c : Ctx) (m : Nat) : (s.setCtx n c).ring m = s.ring m := by unfold State.setCtx; split <;> rfl
@[simp] theorem State.counter_setCtx (s : State) (n : Nat) (c : Ctx) (m : Nat) : (s.setCtx n c).counter m = s.counter m := by unfold State.setCtx; split <;> rfl
@[simp] theorem State.src_setCtx (s : State) (n : Nat) (c : Ctx) (m : Nat) : (s.setCtx n c).src m = s.src m := by unfold State.setCtx; split <;> rfl
@[simp] theorem State.queue_setCtx (s : State) (n : Nat) (c : Ctx) (m : Nat) : (s.setCtx n c).queue m = s.queue m := by unfold State.setCtx; split <;> rfl
@[simp] theorem State.line_setCtx (s : State) (n : Nat) (c : Ctx) (m : Nat) : (s.setCtx n c).line m = s.line m := by unfold State.setCtx; split <;> rfl
@[simp] theorem State.se_setCtx (s : State) (n : Nat) (c : Ctx) (m : Nat) : (s.setCtx n c).se m = s.se m := by unfold State.setCtx; split <;> rfl
@[simp] theorem State.tchip_setCtx (s : State) (n : Nat) (c : Ctx) (m : Nat) : (s.setCtx n c).tchip m = s.tchip m := by unfold State.setCtx; split <;> rfl
@[simp] theorem State.topo_setCtx (s : State) (n : Nat) (c : Ctx) (m : Nat) : (s.setCtx n c).topo m = s.topo m := by unfold State.setCtx; split <;> rfl

/-! ### setTchip -/

@[simp] theorem State.setTchip_pending (s : State) (f : Nat) (c : TraceChip) : (s.setTchip f c).pending = s.pending := by unfold State.setTchip; split <;> rfl
@[simp] theorem State.setTchip_now (s : State) (f : Nat) (c : TraceChip) : (s.setTchip f c).now = s.now := by unfold State.setTchip; split <;> rfl
@[simp] theorem State.setTchip_ftAdj (s : State) (f : Nat) (c : TraceChip) : (s.setTchip f c).ftAdj = s.ftAdj := by unfold State.setTchip; split <;> rfl
@[simp] theorem State.setTchip_freeIx (s : State) (f : Nat) (c : TraceChip) : (s.setTchip f c).freeIx = s.freeIx := by unfold State.setTchip; split <;> rfl
@[simp] theorem State.setTchip_misuses (s : State) (f : Nat) (c : TraceChip) : (s.setTchip f c).misuses = s.misuses := by unfold State.setTchip; split <;> rfl
@[simp] theorem State.setTchip_rstAt (s : State) (f : Nat) (c : TraceChip) : (s.setTchip f c).rstAt = s.rstAt := by unfold State.setTchip; split <;> rfl
@[simp] theorem State.setTchip_rstBoot (s : State) (f : Nat) (c : TraceChip) : (s.setTchip f c).rstBoot = s.rstBoot := by unfold State.setTchip; split <;> rfl
@[simp] theorem State.setTchip_pwr (s : State) (f : Nat) (c : TraceChip) : (s.setTchip f c).pwr = s.pwr := by unfold State.setTchip; split <;> rfl
@[simp] theorem State.setTchip_pins (s : State) (f : Nat) (c : TraceChip) : (s.setTchip f c).pins = s.pins := by unfold State.setTchip; split <;> rfl
@[simp] theorem State.setTchip_fuses (s : State) (f : Nat) (c : TraceChip) : (s.setTchip f c).fuses = s.fuses := by unfold State.setTchip; split <;> rfl
@[simp] theorem State.setTchip_lcs (s : State) (f : Nat) (c : TraceChip) : (s.setTchip f c).lcs = s.lcs := by unfold State.setTchip; split <;> rfl
@[simp] theorem State.setTchip_boot (s : State) (f : Nat) (c : TraceChip) : (s.setTchip f c).boot = s.boot := by unfold State.setTchip; split <;> rfl
@[simp] theorem State.setTchip_auth (s : State) (f : Nat) (c : TraceChip) : (s.setTchip f c).auth = s.auth := by unfold State.setTchip; split <;> rfl
@[simp] theorem State.setTchip_hub (s : State) (f : Nat) (c : TraceChip) : (s.setTchip f c).hub = s.hub := by unfold State.setTchip; split <;> rfl
@[simp] theorem State.setTchip_rings (s : State) (f : Nat) (c : TraceChip) : (s.setTchip f c).rings = s.rings := by unfold State.setTchip; split <;> rfl
@[simp] theorem State.setTchip_counters (s : State) (f : Nat) (c : TraceChip) : (s.setTchip f c).counters = s.counters := by unfold State.setTchip; split <;> rfl
@[simp] theorem State.setTchip_scan (s : State) (f : Nat) (c : TraceChip) : (s.setTchip f c).scan = s.scan := by unfold State.setTchip; split <;> rfl
@[simp] theorem State.setTchip_htu (s : State) (f : Nat) (c : TraceChip) : (s.setTchip f c).htu = s.htu := by unfold State.setTchip; split <;> rfl
@[simp] theorem State.setTchip_bursts (s : State) (f : Nat) (c : TraceChip) : (s.setTchip f c).bursts = s.bursts := by unfold State.setTchip; split <;> rfl
@[simp] theorem State.setTchip_car (s : State) (f : Nat) (c : TraceChip) : (s.setTchip f c).car = s.car := by unfold State.setTchip; split <;> rfl
@[simp] theorem State.setTchip_bhv (s : State) (f : Nat) (c : TraceChip) : (s.setTchip f c).bhv = s.bhv := by unfold State.setTchip; split <;> rfl
@[simp] theorem State.setTchip_run (s : State) (f : Nat) (c : TraceChip) : (s.setTchip f c).run = s.run := by unfold State.setTchip; split <;> rfl
@[simp] theorem State.setTchip_cut (s : State) (f : Nat) (c : TraceChip) : (s.setTchip f c).cut = s.cut := by unfold State.setTchip; split <;> rfl
@[simp] theorem State.setTchip_dmp (s : State) (f : Nat) (c : TraceChip) : (s.setTchip f c).dmp = s.dmp := by unfold State.setTchip; split <;> rfl
@[simp] theorem State.setTchip_chips (s : State) (f : Nat) (c : TraceChip) : (s.setTchip f c).chips = s.chips := by unfold State.setTchip; split <;> rfl
@[simp] theorem State.setTchip_cfg (s : State) (f : Nat) (c : TraceChip) : (s.setTchip f c).cfg = s.cfg := by unfold State.setTchip; split <;> rfl
@[simp] theorem State.setTchip_msix (s : State) (f : Nat) (c : TraceChip) : (s.setTchip f c).msix = s.msix := by unfold State.setTchip; split <;> rfl
@[simp] theorem State.setTchip_pba (s : State) (f : Nat) (c : TraceChip) : (s.setTchip f c).pba = s.pba := by unfold State.setTchip; split <;> rfl
@[simp] theorem State.setTchip_msiSent (s : State) (f : Nat) (c : TraceChip) : (s.setTchip f c).msiSent = s.msiSent := by unfold State.setTchip; split <;> rfl
@[simp] theorem State.setTchip_held (s : State) (f : Nat) (c : TraceChip) : (s.setTchip f c).held = s.held := by unfold State.setTchip; split <;> rfl
@[simp] theorem State.setTchip_readVal (s : State) (f : Nat) (c : TraceChip) : (s.setTchip f c).readVal = s.readVal := by unfold State.setTchip; split <;> rfl
@[simp] theorem State.setTchip_host (s : State) (f : Nat) (c : TraceChip) : (s.setTchip f c).host = s.host := by unfold State.setTchip; split <;> rfl
@[simp] theorem State.setTchip_store (s : State) (f : Nat) (c : TraceChip) : (s.setTchip f c).store = s.store := by unfold State.setTchip; split <;> rfl
@[simp] theorem State.setTchip_sram (s : State) (f : Nat) (c : TraceChip) : (s.setTchip f c).sram = s.sram := by unfold State.setTchip; split <;> rfl
@[simp] theorem State.setTchip_sramClean (s : State) (f : Nat) (c : TraceChip) : (s.setTchip f c).sramClean = s.sramClean := by unfold State.setTchip; split <;> rfl
@[simp] theorem State.setTchip_nor (s : State) (f : Nat) (c : TraceChip) : (s.setTchip f c).nor = s.nor := by unfold State.setTchip; split <;> rfl
@[simp] theorem State.setTchip_trc_state (s : State) (f : Nat) (c : TraceChip) : (s.setTchip f c).trc.state = s.trc.state := by unfold State.setTchip; split <;> rfl
@[simp] theorem State.setTchip_trc_ring (s : State) (f : Nat) (c : TraceChip) : (s.setTchip f c).trc.ring = s.trc.ring := by unfold State.setTchip; split <;> rfl
@[simp] theorem State.setTchip_trc_enable (s : State) (f : Nat) (c : TraceChip) : (s.setTchip f c).trc.enable = s.trc.enable := by unfold State.setTchip; split <;> rfl
/-- What the table holds after a write of key `f`. -/
theorem State.tchip_setTchip (s : State) (f : Nat) (c : TraceChip) (m : Nat) (h : f < 128) : (s.setTchip f c).tchip m = if m = f then c else s.tchip m := by
  unfold State.setTchip; rw [if_pos h]; exact tget_tput _ _ _ _ _
@[simp] theorem State.tchip_setTchip_same (s : State) (f : Nat) (c : TraceChip) (h : f < 128) : (s.setTchip f c).tchip f = c := by rw [State.tchip_setTchip _ _ _ _ h, if_pos rfl]
theorem State.tchip_setTchip_ne (s : State) (f : Nat) (c : TraceChip) (m : Nat) (h : m ≠ f) : (s.setTchip f c).tchip m = s.tchip m := by
  by_cases hk : f < 128
  · rw [State.tchip_setTchip _ _ _ _ hk, if_neg h]
  · unfold State.setTchip; rw [if_neg hk]
@[simp] theorem State.chip_setTchip (s : State) (f : Nat) (c : TraceChip) (m : Nat) : (s.setTchip f c).chip m = s.chip m := by unfold State.setTchip; split <;> rfl
@[simp] theorem State.chain_setTchip (s : State) (f : Nat) (c : TraceChip) (m : Nat) : (s.setTchip f c).chain m = s.chain m := by unfold State.setTchip; split <;> rfl
@[simp] theorem State.ring_setTchip (s : State) (f : Nat) (c : TraceChip) (m : Nat) : (s.setTchip f c).ring m = s.ring m := by unfold State.setTchip; split <;> rfl
@[simp] theorem State.counter_setTchip (s : State) (f : Nat) (c : TraceChip) (m : Nat) : (s.setTchip f c).counter m = s.counter m := by unfold State.setTchip; split <;> rfl
@[simp] theorem State.src_setTchip (s : State) (f : Nat) (c : TraceChip) (m : Nat) : (s.setTchip f c).src m = s.src m := by unfold State.setTchip; split <;> rfl
@[simp] theorem State.queue_setTchip (s : State) (f : Nat) (c : TraceChip) (m : Nat) : (s.setTchip f c).queue m = s.queue m := by unfold State.setTchip; split <;> rfl
@[simp] theorem State.line_setTchip (s : State) (f : Nat) (c : TraceChip) (m : Nat) : (s.setTchip f c).line m = s.line m := by unfold State.setTchip; split <;> rfl
@[simp] theorem State.se_setTchip (s : State) (f : Nat) (c : TraceChip) (m : Nat) : (s.setTchip f c).se m = s.se m := by unfold State.setTchip; split <;> rfl
@[simp] theorem State.ctx_setTchip (s : State) (f : Nat) (c : TraceChip) (m : Nat) : (s.setTchip f c).ctx m = s.ctx m := by unfold State.setTchip; split <;> rfl
@[simp] theorem State.topo_setTchip (s : State) (f : Nat) (c : TraceChip) (m : Nat) : (s.setTchip f c).topo m = s.topo m := by unfold State.setTchip; split <;> rfl

/-! ### setTopo -/

@[simp] theorem State.setTopo_pending (s : State) (f : Nat) (t : Topo) : (s.setTopo f t).pending = s.pending := by unfold State.setTopo; split <;> rfl
@[simp] theorem State.setTopo_now (s : State) (f : Nat) (t : Topo) : (s.setTopo f t).now = s.now := by unfold State.setTopo; split <;> rfl
@[simp] theorem State.setTopo_ftAdj (s : State) (f : Nat) (t : Topo) : (s.setTopo f t).ftAdj = s.ftAdj := by unfold State.setTopo; split <;> rfl
@[simp] theorem State.setTopo_freeIx (s : State) (f : Nat) (t : Topo) : (s.setTopo f t).freeIx = s.freeIx := by unfold State.setTopo; split <;> rfl
@[simp] theorem State.setTopo_misuses (s : State) (f : Nat) (t : Topo) : (s.setTopo f t).misuses = s.misuses := by unfold State.setTopo; split <;> rfl
@[simp] theorem State.setTopo_rstAt (s : State) (f : Nat) (t : Topo) : (s.setTopo f t).rstAt = s.rstAt := by unfold State.setTopo; split <;> rfl
@[simp] theorem State.setTopo_rstBoot (s : State) (f : Nat) (t : Topo) : (s.setTopo f t).rstBoot = s.rstBoot := by unfold State.setTopo; split <;> rfl
@[simp] theorem State.setTopo_pwr (s : State) (f : Nat) (t : Topo) : (s.setTopo f t).pwr = s.pwr := by unfold State.setTopo; split <;> rfl
@[simp] theorem State.setTopo_pins (s : State) (f : Nat) (t : Topo) : (s.setTopo f t).pins = s.pins := by unfold State.setTopo; split <;> rfl
@[simp] theorem State.setTopo_fuses (s : State) (f : Nat) (t : Topo) : (s.setTopo f t).fuses = s.fuses := by unfold State.setTopo; split <;> rfl
@[simp] theorem State.setTopo_lcs (s : State) (f : Nat) (t : Topo) : (s.setTopo f t).lcs = s.lcs := by unfold State.setTopo; split <;> rfl
@[simp] theorem State.setTopo_boot (s : State) (f : Nat) (t : Topo) : (s.setTopo f t).boot = s.boot := by unfold State.setTopo; split <;> rfl
@[simp] theorem State.setTopo_auth (s : State) (f : Nat) (t : Topo) : (s.setTopo f t).auth = s.auth := by unfold State.setTopo; split <;> rfl
@[simp] theorem State.setTopo_hub (s : State) (f : Nat) (t : Topo) : (s.setTopo f t).hub = s.hub := by unfold State.setTopo; split <;> rfl
@[simp] theorem State.setTopo_rings (s : State) (f : Nat) (t : Topo) : (s.setTopo f t).rings = s.rings := by unfold State.setTopo; split <;> rfl
@[simp] theorem State.setTopo_counters (s : State) (f : Nat) (t : Topo) : (s.setTopo f t).counters = s.counters := by unfold State.setTopo; split <;> rfl
@[simp] theorem State.setTopo_scan (s : State) (f : Nat) (t : Topo) : (s.setTopo f t).scan = s.scan := by unfold State.setTopo; split <;> rfl
@[simp] theorem State.setTopo_htu (s : State) (f : Nat) (t : Topo) : (s.setTopo f t).htu = s.htu := by unfold State.setTopo; split <;> rfl
@[simp] theorem State.setTopo_bursts (s : State) (f : Nat) (t : Topo) : (s.setTopo f t).bursts = s.bursts := by unfold State.setTopo; split <;> rfl
@[simp] theorem State.setTopo_car (s : State) (f : Nat) (t : Topo) : (s.setTopo f t).car = s.car := by unfold State.setTopo; split <;> rfl
@[simp] theorem State.setTopo_run (s : State) (f : Nat) (t : Topo) : (s.setTopo f t).run = s.run := by unfold State.setTopo; split <;> rfl
@[simp] theorem State.setTopo_cut (s : State) (f : Nat) (t : Topo) : (s.setTopo f t).cut = s.cut := by unfold State.setTopo; split <;> rfl
@[simp] theorem State.setTopo_dmp (s : State) (f : Nat) (t : Topo) : (s.setTopo f t).dmp = s.dmp := by unfold State.setTopo; split <;> rfl
@[simp] theorem State.setTopo_trc (s : State) (f : Nat) (t : Topo) : (s.setTopo f t).trc = s.trc := by unfold State.setTopo; split <;> rfl
@[simp] theorem State.setTopo_chips (s : State) (f : Nat) (t : Topo) : (s.setTopo f t).chips = s.chips := by unfold State.setTopo; split <;> rfl
@[simp] theorem State.setTopo_cfg (s : State) (f : Nat) (t : Topo) : (s.setTopo f t).cfg = s.cfg := by unfold State.setTopo; split <;> rfl
@[simp] theorem State.setTopo_msix (s : State) (f : Nat) (t : Topo) : (s.setTopo f t).msix = s.msix := by unfold State.setTopo; split <;> rfl
@[simp] theorem State.setTopo_pba (s : State) (f : Nat) (t : Topo) : (s.setTopo f t).pba = s.pba := by unfold State.setTopo; split <;> rfl
@[simp] theorem State.setTopo_msiSent (s : State) (f : Nat) (t : Topo) : (s.setTopo f t).msiSent = s.msiSent := by unfold State.setTopo; split <;> rfl
@[simp] theorem State.setTopo_held (s : State) (f : Nat) (t : Topo) : (s.setTopo f t).held = s.held := by unfold State.setTopo; split <;> rfl
@[simp] theorem State.setTopo_readVal (s : State) (f : Nat) (t : Topo) : (s.setTopo f t).readVal = s.readVal := by unfold State.setTopo; split <;> rfl
@[simp] theorem State.setTopo_host (s : State) (f : Nat) (t : Topo) : (s.setTopo f t).host = s.host := by unfold State.setTopo; split <;> rfl
@[simp] theorem State.setTopo_store (s : State) (f : Nat) (t : Topo) : (s.setTopo f t).store = s.store := by unfold State.setTopo; split <;> rfl
@[simp] theorem State.setTopo_sram (s : State) (f : Nat) (t : Topo) : (s.setTopo f t).sram = s.sram := by unfold State.setTopo; split <;> rfl
@[simp] theorem State.setTopo_sramClean (s : State) (f : Nat) (t : Topo) : (s.setTopo f t).sramClean = s.sramClean := by unfold State.setTopo; split <;> rfl
@[simp] theorem State.setTopo_nor (s : State) (f : Nat) (t : Topo) : (s.setTopo f t).nor = s.nor := by unfold State.setTopo; split <;> rfl
@[simp] theorem State.setTopo_bhv_chains (s : State) (f : Nat) (t : Topo) : (s.setTopo f t).bhv.chains = s.bhv.chains := by unfold State.setTopo; split <;> rfl
/-- What the table holds after a write of key `f`. -/
theorem State.topo_setTopo (s : State) (f : Nat) (t : Topo) (m : Nat) (h : f < 128) : (s.setTopo f t).topo m = if m = f then t else s.topo m := by
  unfold State.setTopo; rw [if_pos h]; exact tget_tput _ _ _ _ _
@[simp] theorem State.topo_setTopo_same (s : State) (f : Nat) (t : Topo) (h : f < 128) : (s.setTopo f t).topo f = t := by rw [State.topo_setTopo _ _ _ _ h, if_pos rfl]
theorem State.topo_setTopo_ne (s : State) (f : Nat) (t : Topo) (m : Nat) (h : m ≠ f) : (s.setTopo f t).topo m = s.topo m := by
  by_cases hk : f < 128
  · rw [State.topo_setTopo _ _ _ _ hk, if_neg h]
  · unfold State.setTopo; rw [if_neg hk]
@[simp] theorem State.chip_setTopo (s : State) (f : Nat) (t : Topo) (m : Nat) : (s.setTopo f t).chip m = s.chip m := by unfold State.setTopo; split <;> rfl
@[simp] theorem State.chain_setTopo (s : State) (f : Nat) (t : Topo) (m : Nat) : (s.setTopo f t).chain m = s.chain m := by unfold State.setTopo; split <;> rfl
@[simp] theorem State.ring_setTopo (s : State) (f : Nat) (t : Topo) (m : Nat) : (s.setTopo f t).ring m = s.ring m := by unfold State.setTopo; split <;> rfl
@[simp] theorem State.counter_setTopo (s : State) (f : Nat) (t : Topo) (m : Nat) : (s.setTopo f t).counter m = s.counter m := by unfold State.setTopo; split <;> rfl
@[simp] theorem State.src_setTopo (s : State) (f : Nat) (t : Topo) (m : Nat) : (s.setTopo f t).src m = s.src m := by unfold State.setTopo; split <;> rfl
@[simp] theorem State.queue_setTopo (s : State) (f : Nat) (t : Topo) (m : Nat) : (s.setTopo f t).queue m = s.queue m := by unfold State.setTopo; split <;> rfl
@[simp] theorem State.line_setTopo (s : State) (f : Nat) (t : Topo) (m : Nat) : (s.setTopo f t).line m = s.line m := by unfold State.setTopo; split <;> rfl
@[simp] theorem State.se_setTopo (s : State) (f : Nat) (t : Topo) (m : Nat) : (s.setTopo f t).se m = s.se m := by unfold State.setTopo; split <;> rfl
@[simp] theorem State.ctx_setTopo (s : State) (f : Nat) (t : Topo) (m : Nat) : (s.setTopo f t).ctx m = s.ctx m := by unfold State.setTopo; split <;> rfl
@[simp] theorem State.tchip_setTopo (s : State) (f : Nat) (t : Topo) (m : Nat) : (s.setTopo f t).tchip m = s.tchip m := by unfold State.setTopo; split <;> rfl

/-! ### Work items -/

@[simp] theorem State.item?_setChip (s : State) (f : Nat) (c : Chip) (w : Work) : (s.setChip f c).item? w = s.item? w := by
  unfold State.setChip; split <;> cases w <;> rfl
@[simp] theorem State.item?_setChain (s : State) (k : Nat) (c : Chain) (w : Work) : (s.setChain k c).item? w = s.item? w := by
  unfold State.setChain; split <;> cases w <;> rfl
@[simp] theorem State.item?_setCounter (s : State) (k : Nat) (c : Counter) (w : Work) : (s.setCounter k c).item? w = s.item? w := by
  unfold State.setCounter; split <;> cases w <;> rfl
@[simp] theorem State.item?_setSrc (s : State) (n : Nat) (v : Source) (w : Work) : (s.setSrc n v).item? w = s.item? w := by
  unfold State.setSrc; split <;> cases w <;> rfl
@[simp] theorem State.item?_setQueue (s : State) (q : Nat) (v : Queue) (w : Work) : (s.setQueue q v).item? w = s.item? w := by
  unfold State.setQueue; split <;> cases w <;> rfl
@[simp] theorem State.item?_setLine (s : State) (n : Nat) (v : Line) (w : Work) : (s.setLine n v).item? w = s.item? w := by
  unfold State.setLine; split <;> cases w <;> rfl
@[simp] theorem State.item?_setSe (s : State) (e : Nat) (v : StrokeEngine) (w : Work) : (s.setSe e v).item? w = s.item? w := by
  unfold State.setSe; split <;> cases w <;> rfl
@[simp] theorem State.item?_setCtx (s : State) (n : Nat) (c : Ctx) (w : Work) : (s.setCtx n c).item? w = s.item? w := by
  unfold State.setCtx; split <;> cases w <;> rfl
@[simp] theorem State.item?_setTchip (s : State) (f : Nat) (c : TraceChip) (w : Work) : (s.setTchip f c).item? w = s.item? w := by
  unfold State.setTchip; split <;> cases w <;> rfl
@[simp] theorem State.item?_setTopo (s : State) (f : Nat) (t : Topo) (w : Work) : (s.setTopo f t).item? w = s.item? w := by
  unfold State.setTopo; split <;> cases w <;> rfl
/-- What line `m` holds after a write of line `n`. -/
theorem State.line_setLine (s : State) (n m : Nat) (v : Line) (h : n < 32) : (s.setLine n v).line m = if m = n then v else s.line m := by
  have find : ∀ (l : List (Nat × Line)) (q : Nat → Bool), (l.filter (fun p => q p.1)).find? (fun p => p.1 == m) = if q m then l.find? (fun p => p.1 == m) else none := by
    intro l q
    induction l with
    | nil => simp
    | cons p l ih =>
      by_cases e : p.1 = m
      · subst e; cases hq : q p.1 <;> simp [hq, ih]
      · have e' : (p.1 == m) = false := by simpa using e
        by_cases hq : q p.1 = true <;> simp [hq, ih, e']
  unfold State.setLine State.line
  rw [if_pos h]
  simp only [List.find?_append, find s.car.lines (fun k => decide (k < n)), find s.car.lines (fun k => decide (n < k))]
  rcases Nat.lt_trichotomy m n with a | a | a
  · have b : ¬ n < m := by omega
    have c : m ≠ n := by omega
    have d : n ≠ m := by omega
    simp [a, b, c]
    have z : List.find? (fun p : Nat × Line => p.1 == m) (if v = lineReset n then [] else [(n, v)]) = none := by split <;> simp [d]
    simp [z]
  · subst a
    by_cases hv : v = lineReset m <;> simp [hv]
  · have b : ¬ m < n := by omega
    have c : m ≠ n := by omega
    have d : n ≠ m := by omega
    simp [a, b, c]
    have z : List.find? (fun p : Nat × Line => p.1 == m) (if v = lineReset n then [] else [(n, v)]) = none := by split <;> simp [d]
    simp [z]

end Sys2Proof.Machine
end

