-- ==== Sys2Proof/Laws/Host.lean ====
section
/-! SUPPORT. How a served host access opens: the write of a register, and nothing else but the link's waking. -/

namespace Sys2Proof.Machine

/-- What being served asks. -/
theorem serves_iff (s : State) (o : Nat) : s.serves o = true ↔
    s.hostReaches = true ∧ s.linked.hostWaits o = false ∧ s.linked.served0 o = true ∧ s.linked.rstReaches o = false ∧ s.linked.misuses = [] := by
  simp [State.serves, and_assoc]
/-- With no misuse standing there is nothing to recover. -/
theorem recover_nil {s : State} (h : s.misuses = []) (o : Nat) (w : Bool) : s.recover o w = s := by
  cases s; cases h; rfl
/-- A served write of BAR 0 that is no misuse is the register write. -/
theorem hostWrite_open {s : State} {o : Nat} (h : s.serves o = true) (n v : Nat) (hv : v < 2 ^ (8 * n)) (hb : o < bar2) (hf : writeMisuse o n v = none) :
    s.hostWrite o n v = .next (s.linked.bar0Write o n v) := by
  obtain ⟨h1, h2, h3, h4, h5⟩ := (serves_iff s o).mp h
  simp only [State.linked] at h2 h3 h4 h5
  have e : v % 2 ^ (8 * n) = v := Nat.mod_eq_of_lt hv
  have hd : isDoorbell o n = false := by
    unfold isDoorbell; have : ¬ (bar2 ≤ o) := by omega
    simp [this]
  have hc : ¬ cfgBase ≤ o := by simp only [bar2] at hb; simp only [cfgBase]; omega
  simp [State.hostWrite, e, h1, hd, hc, h2, State.hostApply, hb, State.bar0Take, h3, h4, hf, recover_nil h5, State.linked]
/-- An aligned word with no reserved bit set is no misuse. -/
theorem writeMisuse_none {o v m : Nat} (h0 : o % 4 = 0) (hm : regMask o = some m) (hv : v &&& m = v) : writeMisuse o 4 v = none := by
  simp [writeMisuse, sizeOk, h0, hm, hv]
/-- A served read of BAR 0 that is no misuse gives the register, and latches its HI half. -/
theorem hostRead_open {s : State} {o : Nat} (h : s.serves o = true) (hb : o < bar2) (h0 : o % 4 = 0) (hq : s.linked.trc.odd = false) :
    s.hostRead o 4 = .next { s.linked.latchHi o with readVal := BitVec.ofNat 64 (regVal s.linked o) } := by
  obtain ⟨h1, h2, h3, h4, h5⟩ := (serves_iff s o).mp h
  simp only [State.linked] at h2 h3 h4 h5 hq
  have hc : ¬ cfgBase ≤ o := by simp only [bar2] at hb; simp only [cfgBase]; omega
  have ho : s.linkUse.openBlock (blockOf o) = false := by simp [State.openBlock, h5]
  simp [State.hostRead, hc, h1, h2, State.hostTake, hb, State.bar0Read, h3, sizeOk, h0, recover_nil h5, ho, hq, State.linked]

end Sys2Proof.Machine
end

