-- ==== Sys2Proof/Laws/Orderly.lean ====
section
/-! SUPPORT. What every operation leaves alike (`Orderly`): the queue and the time as they were, no fuse unburned, the memories
canonical and the host operations numbered. This file says what that is and how a change of one piece keeps it. -/

namespace Sys2Proof.Machine

set_option linter.unusedTactic false
set_option linter.unreachableTactic false
set_option linter.unusedSimpArgs false
set_option linter.unusedVariables false
set_option linter.style.nameCheck false
set_option linter.unnecessarySeqFocus false

/-- Five memories in canonical form. -/
def MemsWf (h st sr n x : Mem) : Prop := twf 0 h = true ∧ twf 0 st = true ∧ twf 0 sr = true ∧ twf 0 n = true ∧ twf 0 x = true
def OpsNumbered (l : List HostOp) (n : Nat) : Prop := (l.map (·.id)).Pairwise (· < ·) ∧ ∀ o ∈ l, o.id < n
/-- The data of a state that every command treats alike. -/
def OrdOf (a : State) (p : List Instr) (n : Nat) (f : Fuses) (h st sr nr x : Mem) (l : List HostOp) (k : Nat) : Prop :=
  p = a.pending ∧ n = a.now ∧ a.fuses.stay f ∧ (a.memoriesWf → MemsWf h st sr nr x) ∧ (a.numbered → OpsNumbered l k)
/-- State `s` has the queue and the time of `a`, no burned fuse bit of `a` is unburned in it, and it keeps `a`'s memories
canonical and its host operations numbered. -/
def Orderly (a s : State) : Prop := OrdOf a s.pending s.now s.fuses s.host s.store s.sram s.nor s.msix s.htu.ops s.htu.nextId
@[simp] theorem ordOf_fold (a s : State) : OrdOf a s.pending s.now s.fuses s.host s.store s.sram s.nor s.msix s.htu.ops s.htu.nextId ↔ Orderly a s := Iff.rfl
@[simp] theorem orderly_mk (a : State) (pending' : List Instr) (now' : Nat) (ftAdj' : Nat) (freeIx' : Nat) (misuses' : List (Nat × Bool)) (rstAt' : Nat) (rstBoot' : Bool) (pwr' : Pwr) (pins' : Pins) (fuses' : Fuses) (lcs' : Lcs) (boot' : Boot) (auth' : Auth) (hub' : HubRegs) (rings' : Tab Ring) (counters' : Tab Counter) (scan' : Scan) (htu' : Htu) (bursts' : List Burst) (car' : Car) (bhv' : Bhv) (run' : Run) (cut' : Cut) (dmp' : Dmp) (trc' : Trc) (chips' : Tab Chip) (cfg' : Cfg) (msix' : Mem) (pba' : Nat) (msiSent' : List Nat) (held' : List Held) (readVal' : DWord) (host' : Mem) (store' : Mem) (sram' : Mem) (sramClean' : Bool) (nor' : Mem) :
    Orderly a (State.mk pending' now' ftAdj' freeIx' misuses' rstAt' rstBoot' pwr' pins' fuses' lcs' boot' auth' hub' rings' counters' scan' htu' bursts' car' bhv' run' cut' dmp' trc' chips' cfg' msix' pba' msiSent' held' readVal' host' store' sram' sramClean' nor') ↔
    OrdOf a pending' now' fuses' host' store' sram' nor' msix' htu'.ops htu'.nextId := Iff.rfl
theorem Fuses.stay_refl (f : Fuses) : f.stay f := ⟨rfl, fun _ _ h => h, fun _ h => h, fun _ h => h, fun _ _ h => h, fun _ _ h => h, fun _ _ h => h, fun _ h => h⟩
@[simp] theorem Orderly.refl (a : State) : Orderly a a := ⟨rfl, rfl, Fuses.stay_refl _, fun h => h, fun h => h⟩
theorem orderly_ite {a : State} {c : Prop} [Decidable c] {x y : State} (hx : Orderly a x) (hy : Orderly a y) : Orderly a (if c then x else y) := by split <;> assumption
@[simp] theorem orderly_foldl {α : Type} {a s : State} (g : State → α → State) (h : ∀ s x, Orderly a s → Orderly a (g s x)) (l : List α) (hs : Orderly a s) : Orderly a (l.foldl g s) := by
  induction l generalizing s with
  | nil => exact hs
  | cons x l ih => exact ih (h s x hs)

/-! ### One piece of the data changes -/

section
variable {a s : State} {p : List Instr} {n : Nat} {f : Fuses} {h st sr nr x : Mem} {l : List HostOp} {k : Nat}
theorem OrdOf.host (o : OrdOf a p n f h st sr nr x l k) {m : Mem} (hm : twf 0 h = true → twf 0 m = true) : OrdOf a p n f m st sr nr x l k :=
  ⟨o.1, o.2.1, o.2.2.1, fun w => have q := o.2.2.2.1 w; ⟨hm q.1, q.2⟩, o.2.2.2.2⟩
theorem OrdOf.store (o : OrdOf a p n f h st sr nr x l k) {m : Mem} (hm : twf 0 st = true → twf 0 m = true) : OrdOf a p n f h m sr nr x l k :=
  ⟨o.1, o.2.1, o.2.2.1, fun w => have q := o.2.2.2.1 w; ⟨q.1, hm q.2.1, q.2.2⟩, o.2.2.2.2⟩
theorem OrdOf.sram (o : OrdOf a p n f h st sr nr x l k) {m : Mem} (hm : twf 0 sr = true → twf 0 m = true) : OrdOf a p n f h st m nr x l k :=
  ⟨o.1, o.2.1, o.2.2.1, fun w => have q := o.2.2.2.1 w; ⟨q.1, q.2.1, hm q.2.2.1, q.2.2.2⟩, o.2.2.2.2⟩
theorem OrdOf.nor (o : OrdOf a p n f h st sr nr x l k) {m : Mem} (hm : twf 0 nr = true → twf 0 m = true) : OrdOf a p n f h st sr m x l k :=
  ⟨o.1, o.2.1, o.2.2.1, fun w => have q := o.2.2.2.1 w; ⟨q.1, q.2.1, q.2.2.1, hm q.2.2.2.1, q.2.2.2.2⟩, o.2.2.2.2⟩
theorem OrdOf.msix (o : OrdOf a p n f h st sr nr x l k) {m : Mem} (hm : twf 0 x = true → twf 0 m = true) : OrdOf a p n f h st sr nr m l k :=
  ⟨o.1, o.2.1, o.2.2.1, fun w => have q := o.2.2.2.1 w; ⟨q.1, q.2.1, q.2.2.1, q.2.2.2.1, hm q.2.2.2.2⟩, o.2.2.2.2⟩
theorem OrdOf.fuses (o : OrdOf a p n f h st sr nr x l k) {g : Fuses} (hg : f.stay g) : OrdOf a p n g h st sr nr x l k :=
  ⟨o.1, o.2.1, by
    obtain ⟨a1, a2, a3, a4, a5, a6, a7, a8⟩ := o.2.2.1
    obtain ⟨b1, b2, b3, b4, b5, b6, b7, b8⟩ := hg
    exact ⟨b1.trans a1, fun i j h => b2 i j (a2 i j h), fun i h => b3 i (a3 i h), fun i h => b4 i (a4 i h), fun i l h => b5 i l (a5 i l h),
      fun i l h => b6 i l (a6 i l h), fun i l h => b7 i l (a7 i l h), fun i h => b8 i (a8 i h)⟩, o.2.2.2.1, o.2.2.2.2⟩
theorem OrdOf.ops (o : OrdOf a p n f h st sr nr x l k) {l' : List HostOp} {k' : Nat} (hl : OpsNumbered l k → OpsNumbered l' k') : OrdOf a p n f h st sr nr x l' k' :=
  ⟨o.1, o.2.1, o.2.2.1, o.2.2.2.1, fun w => hl (o.2.2.2.2 w)⟩
@[simp] theorem OrdOf.opsFilter (q : HostOp → Bool) (o : OrdOf a p n f h st sr nr x l k) : OrdOf a p n f h st sr nr x (l.filter q) k :=
  o.ops (fun w => ⟨w.1.sublist (List.filter_sublist.map _), fun _ hp => w.2 _ (List.mem_filter.mp hp).1⟩)
@[simp] theorem OrdOf.opsNil (o : OrdOf a p n f h st sr nr x l k) : OrdOf a p n f h st sr nr x [] k := o.ops (fun _ => ⟨by simp, fun _ hp => by simp at hp⟩)
theorem OrdOf.opsMap (g : HostOp → HostOp) (o : OrdOf a p n f h st sr nr x l k) (hg : ∀ y, (g y).id = y.id) : OrdOf a p n f h st sr nr x (l.map g) k :=
  o.ops (fun w => ⟨by
    have e : (l.map g).map (fun y => y.id) = l.map (fun y => y.id) := by simp [List.map_map, Function.comp_def, hg]
    rw [e]; exact w.1, fun y hy => by obtain ⟨z, hz, rfl⟩ := List.mem_map.mp hy; rw [hg]; exact w.2 z hz⟩)
end
@[simp] theorem Orderly.hostWrite {a s : State} (ad : Nat) (d : List Byte) (h : Orderly a s) :
    OrdOf a s.pending s.now s.fuses (mwrite s.host ad d) s.store s.sram s.nor s.msix s.htu.ops s.htu.nextId := OrdOf.host h (twf_mwrite d _ ad)
@[simp] theorem Orderly.storeWrite {a s : State} (ad : Nat) (d : List Byte) (h : Orderly a s) :
    OrdOf a s.pending s.now s.fuses s.host (mwrite s.store ad d) s.sram s.nor s.msix s.htu.ops s.htu.nextId := OrdOf.store h (twf_mwrite d _ ad)
@[simp] theorem Orderly.sramWrite {a s : State} (ad : Nat) (d : List Byte) (h : Orderly a s) :
    OrdOf a s.pending s.now s.fuses s.host s.store (mwrite s.sram ad d) s.nor s.msix s.htu.ops s.htu.nextId := OrdOf.sram h (twf_mwrite d _ ad)
@[simp] theorem Orderly.norWrite {a s : State} (ad : Nat) (d : List Byte) (h : Orderly a s) :
    OrdOf a s.pending s.now s.fuses s.host s.store s.sram (mwrite s.nor ad d) s.msix s.htu.ops s.htu.nextId := OrdOf.nor h (twf_mwrite d _ ad)
@[simp] theorem Orderly.norFilter {a s : State} (q : Nat × Byte → Bool) (h : Orderly a s) :
    OrdOf a s.pending s.now s.fuses s.host s.store s.sram (s.nor.filter q) s.msix s.htu.ops s.htu.nextId := OrdOf.nor h (twf_filter 0 q _)
@[simp] theorem Orderly.storeNil {a s : State} (h : Orderly a s) :
    OrdOf a s.pending s.now s.fuses s.host [] s.sram s.nor s.msix s.htu.ops s.htu.nextId := OrdOf.store h (fun _ => rfl)
@[simp] theorem Orderly.msixPut {a s : State} (ad : Nat) (b : Byte) (h : Orderly a s) :
    OrdOf a s.pending s.now s.fuses s.host s.store s.sram s.nor (mput s.msix ad b) s.htu.ops s.htu.nextId := OrdOf.msix h (twf_mput _ ad b)
theorem twf_reopen {m f : Mem} {p : Nat → Bool} (h : twf 0 m = true) : twf 0 (m.reopen f p) = true :=
  twf_foldl _ (fun m _ h => twf_mput m _ _ h) _ _ (twf_filter 0 _ _ h)
theorem twf_partWiped {m f : Mem} (h : twf 0 m = true) : twf 0 (m.partWiped f) = true := twf_filter 0 _ _ h
@[simp] theorem Orderly.sramNil {a s : State} (h : Orderly a s) :
    OrdOf a s.pending s.now s.fuses s.host s.store [] s.nor s.msix s.htu.ops s.htu.nextId := OrdOf.sram h (fun _ => rfl)
@[simp] theorem Orderly.norNil {a s : State} (h : Orderly a s) :
    OrdOf a s.pending s.now s.fuses s.host s.store s.sram [] s.msix s.htu.ops s.htu.nextId := OrdOf.nor h (fun _ => rfl)
@[simp] theorem Orderly.storeReopen {a s : State} (f : Mem) (p : Nat → Bool) (h : Orderly a s) :
    OrdOf a s.pending s.now s.fuses s.host (s.store.reopen f p) s.sram s.nor s.msix s.htu.ops s.htu.nextId := OrdOf.store h twf_reopen
@[simp] theorem Orderly.wiped {a s : State} (f g : Mem) (h : Orderly a s) :
    OrdOf a s.pending s.now s.fuses s.host (s.store.partWiped f) s.sram (s.nor.partWiped g) s.msix s.htu.ops s.htu.nextId :=
  OrdOf.store (OrdOf.nor h twf_partWiped) twf_partWiped
@[simp] theorem Orderly.sramFree {a s : State} (l : List (Nat × Byte)) (h : Orderly a s) :
    OrdOf a s.pending s.now s.fuses s.host s.store (memOf l) s.nor s.msix s.htu.ops s.htu.nextId := OrdOf.sram h (fun _ => twf_memOf l)
@[simp] theorem State.setOp_ord {a s : State} (o : HostOp) (ho : Orderly a s) : Orderly a (s.setOp o) := by
  refine OrdOf.opsMap _ ho ?_
  intro y; split <;> simp [*]
/-- Any next state of an outcome is orderly. -/
def OrdOut (a : State) (o : Out) : Prop := ∀ t, o = .next t → Orderly a t
@[simp] theorem ordOut_next (a t : State) : OrdOut a (.next t) ↔ Orderly a t := ⟨fun h => h t rfl, fun h _ e => by cases e; exact h⟩
@[simp] theorem ordOut_fault (a : State) (f : Fault) : OrdOut a (.fault f) := fun _ e => by cases e
@[simp] theorem ordOut_refused (a : State) (f : Refusal) : OrdOut a (.refused f) := fun _ e => by cases e

end Sys2Proof.Machine
end

