-- ==== Sys2Proof/Laws/OrderlyOps.lean ====
section
/-! SUPPORT. The shared operations are orderly, one lemma for each. -/

namespace Sys2Proof.Machine

set_option linter.unusedTactic false
set_option linter.unreachableTactic false
set_option linter.unusedSimpArgs false
set_option linter.unusedVariables false
set_option linter.style.nameCheck false
set_option linter.unnecessarySeqFocus false
set_option maxHeartbeats 400000

variable {base : State}

@[simp] theorem State.setChip_ord {base : State} (s : State) (f : Nat) (c : Chip) (hord : Orderly base s) :
    Orderly base (State.setChip s f c) := by
  unfold State.setChip; split <;> first | exact State.hostWrite_ord _ _ _ _ hord | (simp [hord]; done)
@[simp] theorem State.setChain_ord {base : State} (s : State) (k : Nat) (c : Chain) (hord : Orderly base s) :
    Orderly base (State.setChain s k c) := by
  unfold State.setChain; split <;> first | exact State.hostWrite_ord _ _ _ _ hord | (simp [hord]; done)
@[simp] theorem State.setRing_ord {base : State} (s : State) (n : Nat) (r : Ring) (hord : Orderly base s) :
    Orderly base (State.setRing s n r) := by
  unfold State.setRing; split <;> first | exact State.hostWrite_ord _ _ _ _ hord | (simp [hord]; done)
@[simp] theorem State.setCounter_ord {base : State} (s : State) (k : Nat) (c : Counter) (hord : Orderly base s) :
    Orderly base (State.setCounter s k c) := by
  unfold State.setCounter; split <;> first | exact State.hostWrite_ord _ _ _ _ hord | (simp [hord]; done)
@[simp] theorem State.setSrc_ord {base : State} (s : State) (n : Nat) (v : Source) (hord : Orderly base s) :
    Orderly base (State.setSrc s n v) := by
  unfold State.setSrc; split <;> first | exact State.hostWrite_ord _ _ _ _ hord | (simp [hord]; done)
@[simp] theorem State.setQueue_ord {base : State} (s : State) (q : Nat) (v : Queue) (hord : Orderly base s) :
    Orderly base (State.setQueue s q v) := by
  unfold State.setQueue; split <;> first | exact State.hostWrite_ord _ _ _ _ hord | (simp [hord]; done)
@[simp] theorem State.setLine_ord {base : State} (s : State) (n : Nat) (v : Line) (hord : Orderly base s) :
    Orderly base (State.setLine s n v) := by
  unfold State.setLine; split <;> first | exact State.hostWrite_ord _ _ _ _ hord | (simp [hord]; done)
@[simp] theorem State.setSe_ord {base : State} (s : State) (e : Nat) (v : StrokeEngine) (hord : Orderly base s) :
    Orderly base (State.setSe s e v) := by
  unfold State.setSe; split <;> first | exact State.hostWrite_ord _ _ _ _ hord | (simp [hord]; done)
@[simp] theorem State.setCtx_ord {base : State} (s : State) (n : Nat) (c : Ctx) (hord : Orderly base s) :
    Orderly base (State.setCtx s n c) := by
  unfold State.setCtx; split <;> first | exact State.hostWrite_ord _ _ _ _ hord | (simp [hord]; done)
@[simp] theorem State.setTchip_ord {base : State} (s : State) (f : Nat) (c : TraceChip) (hord : Orderly base s) :
    Orderly base (State.setTchip s f c) := by
  unfold State.setTchip; split <;> first | exact State.hostWrite_ord _ _ _ _ hord | (simp [hord]; done)
@[simp] theorem State.setTopo_ord {base : State} (s : State) (f : Nat) (t : Topo) (hord : Orderly base s) :
    Orderly base (State.setTopo s f t) := by
  unfold State.setTopo; split <;> first | exact State.hostWrite_ord _ _ _ _ hord | (simp [hord]; done)
@[simp] theorem State.norWrite_ord {base : State} (s : State) (a : Nat) (d : List Byte) (hord : Orderly base s) :
    Orderly base (State.norWrite s a d) := by
  unfold State.norWrite
  try dsimp only
  repeat' (first | with_reducible assumption | (simp (maxDischargeDepth := 50) [*]; done) | (refine orderly_foldl _ (fun s x hord' => ?_) _ ?_) | split)
@[simp] theorem State.norErase_ord {base : State} (s : State) (a : Nat) (n : Nat) (hord : Orderly base s) :
    Orderly base (State.norErase s a n) := by
  unfold State.norErase
  try dsimp only
  repeat' (first | with_reducible assumption | (simp (maxDischargeDepth := 50) [*]; done) | (refine orderly_foldl _ (fun s x hord' => ?_) _ ?_) | split)
@[simp] theorem State.relayScan_ord {base : State} (s : State) (k : Nat) (hord : Orderly base s) :
    Orderly base (State.relayScan s k) := by
  unfold State.relayScan; split <;> first | exact State.hostWrite_ord _ _ _ _ hord | (simp [hord]; done)
@[simp] theorem State.chipOp_ord {base : State} (s : State) (f : Nat) (g : Chip → Chip) (hord : Orderly base s) :
    Orderly base (State.chipOp s f g) := by
  unfold State.chipOp
  try dsimp only
  repeat' (first | with_reducible assumption | (simp (maxDischargeDepth := 50) [*]; done) | (refine orderly_foldl _ (fun s x hord' => ?_) _ ?_) | split)
@[simp] theorem State.free_ord {base : State} (s : State) (hord : Orderly base s) :
    Orderly base (State.free s).2 := by
  unfold State.free
  try dsimp only
  repeat' (first | with_reducible assumption | (simp (maxDischargeDepth := 50) [*]; done) | (refine orderly_foldl _ (fun s x hord' => ?_) _ ?_) | split)
@[simp] theorem State.freeWide_ord {base : State} (s : State) (w : Nat) (hord : Orderly base s) :
    Orderly base (State.freeWide s w).2 := by
  unfold State.freeWide
  try dsimp only
  repeat' (first | with_reducible assumption | (simp (maxDischargeDepth := 50) [*]; done) | (refine orderly_foldl _ (fun s x hord' => ?_) _ ?_) | split)
@[simp] theorem State.freeBytes_ord {base : State} (s : State) (n : Nat) (hord : Orderly base s) :
    Orderly base (State.freeBytes s n).2 := by
  unfold State.freeBytes
  try dsimp only
  repeat' (first | with_reducible assumption | (simp (maxDischargeDepth := 50) [*]; done) | (refine orderly_foldl _ (fun s x hord' => ?_) _ ?_) | split)
@[simp] theorem State.mixFree_ord {base : State} (s : State) (d : List Byte) (p : Nat → Bool) (hord : Orderly base s) :
    Orderly base (State.mixFree s d p).2 := by
  unfold State.mixFree; split <;> first | exact State.hostWrite_ord _ _ _ _ hord | (simp [hord]; done)
@[simp] theorem State.engWrote_ord {base : State} (s : State) (f : Nat) (p : Nat → Bool) (hord : Orderly base s) :
    Orderly base (State.engWrote s f p) := by
  unfold State.engWrote; split <;> first | exact State.hostWrite_ord _ _ _ _ hord | (simp [hord]; done)
@[simp] theorem State.freshCtx_ord {base : State} (s : State) (f : Nat) (i : Nat) (hord : Orderly base s) :
    Orderly base (State.freshCtx s f i) := by
  unfold State.freshCtx
  try dsimp only
  repeat' (first | with_reducible assumption | (simp (maxDischargeDepth := 50) [*]; done) | (refine orderly_foldl _ (fun s x hord' => ?_) _ ?_) | split)
@[simp] theorem State.seeEvent_ord {base : State} (s : State) (edge : Nat) (code : Nat) (line : Nat) (hord : Orderly base s) :
    Orderly base (State.seeEvent s edge code line) := by
  unfold State.seeEvent
  try dsimp only
  repeat' (first | with_reducible assumption | (simp (maxDischargeDepth := 50) [*]; done) | (refine orderly_foldl _ (fun s x hord' => ?_) _ ?_) | split)
@[simp] theorem State.wakeEvent_ord {base : State} (s : State) (code : Nat) (line : Nat) (hord : Orderly base s) :
    Orderly base (State.wakeEvent s code line) := by
  unfold State.wakeEvent; split <;> first | exact State.hostWrite_ord _ _ _ _ hord | (simp [hord]; done)
@[simp] theorem State.linkWake_ord {base : State} (s : State) (hord : Orderly base s) :
    Orderly base (State.linkWake s) := by
  unfold State.linkWake; split <;> first | exact State.hostWrite_ord _ _ _ _ hord | (simp [hord]; done)
@[simp] theorem State.lineEvent_ord {base : State} (s : State) (n : Nat) (hord : Orderly base s) :
    Orderly base (State.lineEvent s n) := by
  unfold State.lineEvent; split <;> first | exact State.hostWrite_ord _ _ _ _ hord | (simp [hord]; done)
@[simp] theorem State.requestVector_ord {base : State} (s : State) (n : Nat) (hord : Orderly base s) :
    Orderly base (State.requestVector s n) := by
  unfold State.requestVector; split <;> first | exact State.hostWrite_ord _ _ _ _ hord | (simp [hord]; done)
@[simp] theorem State.judgeReady_ord {base : State} (s : State) (n : Nat) (hord : Orderly base s) :
    Orderly base (State.judgeReady s n) := by
  unfold State.judgeReady
  try dsimp only
  repeat' (first | with_reducible assumption | (simp (maxDischargeDepth := 50) [*]; done) | (refine orderly_foldl _ (fun s x hord' => ?_) _ ?_) | split)
@[simp] theorem State.setItem_ord {base : State} (s : State) (w : Work) (i : Item) (hord : Orderly base s) :
    Orderly base (State.setItem s w i) := by
  unfold State.setItem; split <;> first | exact State.hostWrite_ord _ _ _ _ hord | (simp [hord]; done)
@[simp] theorem State.dropItem_ord {base : State} (s : State) (w : Work) (hord : Orderly base s) :
    Orderly base (State.dropItem s w) := by
  unfold State.dropItem; split <;> first | exact State.hostWrite_ord _ _ _ _ hord | (simp [hord]; done)
@[simp] theorem State.modItem_ord {base : State} (s : State) (w : Work) (f : Item → Item) (hord : Orderly base s) :
    Orderly base (State.modItem s w f) := by
  unfold State.modItem; split <;> first | exact State.hostWrite_ord _ _ _ _ hord | (simp [hord]; done)
@[simp] theorem State.addFree_ord {base : State} (s : State) (i : Item) (hord : Orderly base s) :
    Orderly base (State.addFree s i).2 := by
  unfold State.addFree
  try dsimp only
  repeat' (first | with_reducible assumption | (simp (maxDischargeDepth := 50) [*]; done) | (refine orderly_foldl _ (fun s x hord' => ?_) _ ?_) | split)
@[simp] theorem State.mapItems_ord {base : State} (s : State) (f : Work → Item → Item) (hord : Orderly base s) :
    Orderly base (State.mapItems s f) := by
  unfold State.mapItems
  try dsimp only
  repeat' (first | with_reducible assumption | (simp (maxDischargeDepth := 50) [*]; done) | (refine orderly_foldl _ (fun s x hord' => ?_) _ ?_) | split)
@[simp] theorem State.updItem_ord {base : State} (s : State) (w : Work) (f : Item → Item) (hord : Orderly base s) :
    Orderly base (State.updItem s w f) := by
  unfold State.updItem
  try dsimp only
  repeat' (first | with_reducible assumption | (simp (maxDischargeDepth := 50) [*]; done) | (refine orderly_foldl _ (fun s x hord' => ?_) _ ?_) | split)
@[simp] theorem State.opDone_ord {base : State} (s : State) (w : Work) (ix : Nat) (d : List Byte) (e : Option Status) (hord : Orderly base s) :
    Orderly base (State.opDone s w ix d e) := by
  unfold State.opDone
  try dsimp only
  repeat' (first | with_reducible assumption | (simp (maxDischargeDepth := 50) [*]; done) | (refine orderly_foldl _ (fun s x hord' => ?_) _ ?_) | split)
@[simp] theorem State.putCounter_ord {base : State} (s : State) (k : Nat) (c : Counter) (hord : Orderly base s) :
    Orderly base (State.putCounter s k c) := by
  unfold State.putCounter
  try dsimp only
  repeat' (first | with_reducible assumption | (simp (maxDischargeDepth := 50) [*]; done) | (refine orderly_foldl _ (fun s x hord' => ?_) _ ?_) | split)
@[simp] theorem State.synOp_ord {base : State} (s : State) (k : Nat) (o : SynOp) (hord : Orderly base s) :
    Orderly base (State.synOp s k o) := by
  unfold State.synOp
  try dsimp only
  repeat' (first | with_reducible assumption | (simp (maxDischargeDepth := 50) [*]; done) | (refine orderly_foldl _ (fun s x hord' => ?_) _ ?_) | split)
@[simp] theorem State.fenceNote_ord {base : State} (s : State) (n : Nat) (off : Bool) (hord : Orderly base s) :
    Orderly base (State.fenceNote s n off) := by
  unfold State.fenceNote; split <;> first | exact State.hostWrite_ord _ _ _ _ hord | (simp [hord]; done)
@[simp] theorem State.dropHostPart_ord {base : State} (s : State) (n : Nat) (hord : Orderly base s) :
    Orderly base (State.dropHostPart s n) := by
  unfold State.dropHostPart
  try dsimp only
  repeat' (first | with_reducible assumption | (simp (maxDischargeDepth := 50) [*]; done) | (refine orderly_foldl _ (fun s x hord' => ?_) _ ?_) | split)
@[simp] theorem State.openData_ord {base : State} (s : State) (w : Work) (k : OpK) (hord : Orderly base s) :
    Orderly base (State.openData s w k).2 := by
  unfold State.openData
  try dsimp only
  repeat' (first | with_reducible assumption | (simp (maxDischargeDepth := 50) [*]; done) | (refine orderly_foldl _ (fun s x hord' => ?_) _ ?_) | split)
@[simp] theorem State.endStroke_ord {base : State} (s : State) (e : Nat) (hord : Orderly base s) :
    Orderly base (State.endStroke s e) := by
  unfold State.endStroke; split <;> first | exact State.hostWrite_ord _ _ _ _ hord | (simp [hord]; done)
@[simp] theorem State.endStrokesOf_ord {base : State} (s : State) (w : Work) (hord : Orderly base s) :
    Orderly base (State.endStrokesOf s w) := by
  unfold State.endStrokesOf
  try dsimp only
  repeat' (first | with_reducible assumption | (simp (maxDischargeDepth := 50) [*]; done) | (refine orderly_foldl _ (fun s x hord' => ?_) _ ?_) | split)
@[simp] theorem State.ctxPark_ord {base : State} (s : State) (w : Work) (on : Bool) (hord : Orderly base s) :
    Orderly base (State.ctxPark s w on) := by
  unfold State.ctxPark
  try dsimp only
  repeat' (first | with_reducible assumption | (simp (maxDischargeDepth := 50) [*]; done) | (refine orderly_foldl _ (fun s x hord' => ?_) _ ?_) | split)
@[simp] theorem State.mapChains_ord {base : State} (s : State) (f : Chain → Chain) (hord : Orderly base s) :
    Orderly base (State.mapChains s f) := by
  unfold State.mapChains
  try dsimp only
  repeat' (first | with_reducible assumption | (simp (maxDischargeDepth := 50) [*]; done) | (refine orderly_foldl _ (fun s x hord' => ?_) _ ?_) | split)
@[simp] theorem State.voidOps_ord {base : State} (s : State) (w : Work) (ix : Nat) (hord : Orderly base s) :
    Orderly base (State.voidOps s w ix) := by
  unfold State.voidOps
  try dsimp only
  repeat' (first | with_reducible assumption | (simp (maxDischargeDepth := 50) [*]; done) | (refine orderly_foldl _ (fun s x hord' => ?_) _ ?_) | split)
@[simp] theorem State.parkOwner_ord {base : State} (s : State) (ow : Owner) (on : Bool) (hord : Orderly base s) :
    Orderly base (State.parkOwner s ow on) := by
  unfold State.parkOwner
  try dsimp only
  repeat' (first | with_reducible assumption | (simp (maxDischargeDepth := 50) [*]; done) | (refine orderly_foldl _ (fun s x hord' => ?_) _ ?_) | split)
@[simp] theorem State.dropOp_ord {base : State} (s : State) (id : Nat) (hord : Orderly base s) :
    Orderly base (State.dropOp s id) := by
  unfold State.dropOp
  try dsimp only
  repeat' (first | with_reducible assumption | (simp (maxDischargeDepth := 50) [*]; done) | (refine orderly_foldl _ (fun s x hord' => ?_) _ ?_) | split)
@[simp] theorem State.holdFault_ord {base : State} (s : State) (o : HostOp) (hord : Orderly base s) :
    Orderly base (State.holdFault s o) := by
  unfold State.holdFault
  try dsimp only
  repeat' (first | with_reducible assumption | (simp (maxDischargeDepth := 50) [*]; done) | (refine orderly_foldl _ (fun s x hord' => ?_) _ ?_) | split)
@[simp] theorem State.promote_ord {base : State} (s : State) (n : Nat) (hord : Orderly base s) :
    Orderly base (State.promote s n) := by
  unfold State.promote
  try dsimp only
  repeat' (first | with_reducible assumption | (simp (maxDischargeDepth := 50) [*]; done) | (refine orderly_foldl _ (fun s x hord' => ?_) _ ?_) | split)
@[simp] theorem State.recordQueued_ord {base : State} (s : State) (n : Nat) (hord : Orderly base s) :
    Orderly base (State.recordQueued s n) := by
  unfold State.recordQueued
  try dsimp only
  repeat' (first | with_reducible assumption | (simp (maxDischargeDepth := 50) [*]; done) | (refine orderly_foldl _ (fun s x hord' => ?_) _ ?_) | split)
@[simp] theorem State.queueOp_ord {base : State} (s : State) (o : HostOp) (phys : Nat) (page : Option Nat) (hord : Orderly base s) :
    Orderly base (State.queueOp s o phys page) := by
  unfold State.queueOp; split <;> first | exact State.hostWrite_ord _ _ _ _ hord | (simp [hord]; done)
@[simp] theorem State.translateFilled_ord {base : State} (s : State) (id : Nat) (e : TlbEntry) (hord : Orderly base s) :
    Orderly base (State.translateFilled s id e) := by
  unfold State.translateFilled
  try dsimp only
  repeat' (first | with_reducible assumption | (simp (maxDischargeDepth := 50) [*]; done) | (refine orderly_foldl _ (fun s x hord' => ?_) _ ?_) | split)
@[simp] theorem State.readError_ord {base : State} (s : State) (id : Nat) (ok : Bool) (hord : Orderly base s) :
    Orderly base (State.readError s id ok) := by
  unfold State.readError; split <;> first | exact State.hostWrite_ord _ _ _ _ hord | (simp [hord]; done)
@[simp] theorem State.gated_ord {base : State} (s : State) (f : State → State) (hf : ∀ (a0 : State), Orderly base a0 → Orderly base (f a0)) (hord : Orderly base s) :
    OrdOut base (State.gated s f) := by
  unfold State.gated
  try dsimp only
  repeat' (first | with_reducible assumption | (simp (maxDischargeDepth := 50) [*]; done) | (refine orderly_foldl _ (fun s x hord' => ?_) _ ?_) | split)
@[simp] theorem State.invalidateCheck_ord {base : State} (s : State) (hord : Orderly base s) :
    Orderly base (State.invalidateCheck s) := by
  unfold State.invalidateCheck
  try dsimp only
  repeat' (first | with_reducible assumption | (simp (maxDischargeDepth := 50) [*]; done) | (refine orderly_foldl _ (fun s x hord' => ?_) _ ?_) | split)
@[simp] theorem State.transmit_ord {base : State} (s : State) (o : HostOp) (hord : Orderly base s) :
    Orderly base (State.transmit s o) := by
  unfold State.transmit
  try dsimp only
  repeat' (first | with_reducible assumption | (simp (maxDischargeDepth := 50) [*]; done) | (refine orderly_foldl _ (fun s x hord' => ?_) _ ?_) | split)
@[simp] theorem State.dropUnqueued_ord {base : State} (s : State) (ow : Owner) (hord : Orderly base s) :
    Orderly base (State.dropUnqueued s ow) := by
  unfold State.dropUnqueued; split <;> first | exact State.hostWrite_ord _ _ _ _ hord | (simp [hord]; done)
@[simp] theorem State.killItem_ord {base : State} (s : State) (w : Work) (e : Status) (hord : Orderly base s) :
    Orderly base (State.killItem s w e) := by
  unfold State.killItem
  try dsimp only
  repeat' (first | with_reducible assumption | (simp (maxDischargeDepth := 50) [*]; done) | (refine orderly_foldl _ (fun s x hord' => ?_) _ ?_) | split)
@[simp] theorem State.sendTxn_ord {base : State} (s : State) (iss : Issuer) (f : Nat) (write : Bool) (addr : Nat) (len : Nat) (data : List Byte) (hord : Orderly base s) :
    Orderly base (State.sendTxn s iss f write addr len data) := by
  unfold State.sendTxn; split <;> first | exact State.hostWrite_ord _ _ _ _ hord | (simp [hord]; done)
@[simp] theorem State.markAddr_ord {base : State} (s : State) (f : Nat) (hord : Orderly base s) :
    Orderly base (State.markAddr s f) := by
  unfold State.markAddr
  try dsimp only
  repeat' (first | with_reducible assumption | (simp (maxDischargeDepth := 50) [*]; done) | (refine orderly_foldl _ (fun s x hord' => ?_) _ ?_) | split)
@[simp] theorem State.markOp_ord {base : State} (s : State) (k : Nat) (w : Work) (t : Txn) (d : List Byte) (hord : Orderly base s) :
    Orderly base (State.markOp s k w t d) := by
  unfold State.markOp
  try dsimp only
  repeat' (first | with_reducible assumption | (simp (maxDischargeDepth := 50) [*]; done) | (refine orderly_foldl _ (fun s x hord' => ?_) _ ?_) | split)
@[simp] theorem State.chipRead_ord {base : State} (s : State) (f : Nat) (a : Nat) (n : Nat) (hord : Orderly base s) :
    Orderly base (State.chipRead s f a n).2 := by
  unfold State.chipRead
  try dsimp only
  repeat' (first | with_reducible assumption | (simp (maxDischargeDepth := 50) [*]; done) | (refine orderly_foldl _ (fun s x hord' => ?_) _ ?_) | split)
@[simp] theorem State.wdaRead_ord {base : State} (s : State) (k : Nat) (hord : Orderly base s) :
    Orderly base (State.wdaRead s k) := by
  unfold State.wdaRead
  try dsimp only
  repeat' (first | with_reducible assumption | (simp (maxDischargeDepth := 50) [*]; done) | (refine orderly_foldl _ (fun s x hord' => ?_) _ ?_) | split)
@[simp] theorem State.wdaAlertAck_ord {base : State} (s : State) (k : Nat) (hord : Orderly base s) :
    Orderly base (State.wdaAlertAck s k) := by
  unfold State.wdaAlertAck; split <;> first | exact State.hostWrite_ord _ _ _ _ hord | (simp [hord]; done)
@[simp] theorem State.wdaProbe_ord {base : State} (s : State) (k : Nat) (hord : Orderly base s) :
    Orderly base (State.wdaProbe s k) := by
  unfold State.wdaProbe
  try dsimp only
  repeat' (first | with_reducible assumption | (simp (maxDischargeDepth := 50) [*]; done) | (refine orderly_foldl _ (fun s x hord' => ?_) _ ?_) | split)
@[simp] theorem State.recvProbeStamp_ord {base : State} (s : State) (k : Nat) (hord : Orderly base s) :
    Orderly base (State.recvProbeStamp s k) := by
  unfold State.recvProbeStamp
  try dsimp only
  repeat' (first | with_reducible assumption | (simp (maxDischargeDepth := 50) [*]; done) | (refine orderly_foldl _ (fun s x hord' => ?_) _ ?_) | split)
@[simp] theorem State.unsync_ord {base : State} (s : State) (k : Nat) (lo : Nat) (hord : Orderly base s) :
    Orderly base (State.unsync s k lo) := by
  unfold State.unsync
  try dsimp only
  repeat' (first | with_reducible assumption | (simp (maxDischargeDepth := 50) [*]; done) | (refine orderly_foldl _ (fun s x hord' => ?_) _ ?_) | split)
@[simp] theorem State.hopRetry_ord {base : State} (s : State) (k : Nat) (hord : Orderly base s) :
    Orderly base (State.hopRetry s k) := by
  unfold State.hopRetry
  try dsimp only
  repeat' (first | with_reducible assumption | (simp (maxDischargeDepth := 50) [*]; done) | (refine orderly_foldl _ (fun s x hord' => ?_) _ ?_) | split)
@[simp] theorem State.trainCheck_ord {base : State} (s : State) (hord : Orderly base s) :
    Orderly base (State.trainCheck s) := by
  unfold State.trainCheck
  try dsimp only
  repeat' (first | with_reducible assumption | (simp (maxDischargeDepth := 50) [*]; done) | (refine orderly_foldl _ (fun s x hord' => ?_) _ ?_) | split)
@[simp] theorem State.syncSymbol_ord {base : State} (s : State) (hord : Orderly base s) :
    Orderly base (State.syncSymbol s) := by
  unfold State.syncSymbol
  try dsimp only
  repeat' (first | with_reducible assumption | (simp (maxDischargeDepth := 50) [*]; done) | (refine orderly_foldl _ (fun s x hord' => ?_) _ ?_) | split)
@[simp] theorem State.syncApply_ord {base : State} (s : State) (f : Nat) (hord : Orderly base s) :
    Orderly base (State.syncApply s f) := by
  unfold State.syncApply
  try dsimp only
  repeat' (first | with_reducible assumption | (simp (maxDischargeDepth := 50) [*]; done) | (refine orderly_foldl _ (fun s x hord' => ?_) _ ?_) | split)
@[simp] theorem State.toutEvent_ord {base : State} (s : State) (b : Nat) (hord : Orderly base s) :
    Orderly base (State.toutEvent s b) := by
  unfold State.toutEvent
  try dsimp only
  repeat' (first | with_reducible assumption | (simp (maxDischargeDepth := 50) [*]; done) | (refine orderly_foldl _ (fun s x hord' => ?_) _ ?_) | split)
@[simp] theorem State.toutEnd_ord {base : State} (s : State) (hord : Orderly base s) :
    Orderly base (State.toutEnd s) := by
  unfold State.toutEnd
  try dsimp only
  repeat' (first | with_reducible assumption | (simp (maxDischargeDepth := 50) [*]; done) | (refine orderly_foldl _ (fun s x hord' => ?_) _ ?_) | split)
@[simp] theorem State.drainCheck_ord {base : State} (s : State) (hord : Orderly base s) :
    Orderly base (State.drainCheck s) := by
  unfold State.drainCheck
  try dsimp only
  repeat' (first | with_reducible assumption | (simp (maxDischargeDepth := 50) [*]; done) | (refine orderly_foldl _ (fun s x hord' => ?_) _ ?_) | split)
@[simp] theorem State.traceWritten_ord {base : State} (s : State) (w : Work) (n : Nat) (hord : Orderly base s) :
    Orderly base (State.traceWritten s w n) := by
  unfold State.traceWritten
  try dsimp only
  repeat' (first | with_reducible assumption | (simp (maxDischargeDepth := 50) [*]; done) | (refine orderly_foldl _ (fun s x hord' => ?_) _ ?_) | split)
@[simp] theorem State.ctlWrite_ord {base : State} (s : State) (f : Nat) (a : Nat) (v : Nat) (hord : Orderly base s) :
    Orderly base (State.ctlWrite s f a v) := by
  unfold State.ctlWrite; split <;> first | exact State.hostWrite_ord _ _ _ _ hord | (simp [hord]; done)
@[simp] theorem State.traceSend_ord {base : State} (s : State) (f : Nat) (hord : Orderly base s) :
    Orderly base (State.traceSend s f) := by
  unfold State.traceSend
  try dsimp only
  repeat' (first | with_reducible assumption | (simp (maxDischargeDepth := 50) [*]; done) | (refine orderly_foldl _ (fun s x hord' => ?_) _ ?_) | split)
@[simp] theorem State.riseStops_ord {base : State} (s : State) (hord : Orderly base s) :
    Orderly base (State.riseStops s) := by
  unfold State.riseStops
  try dsimp only
  repeat' (first | with_reducible assumption | (simp (maxDischargeDepth := 50) [*]; done) | (refine orderly_foldl _ (fun s x hord' => ?_) _ ?_) | split)
@[simp] theorem State.enableStop_ord {base : State} (s : State) (k : Nat) (hord : Orderly base s) :
    Orderly base (State.enableStop s k) := by
  unfold State.enableStop; split <;> first | exact State.hostWrite_ord _ _ _ _ hord | (simp [hord]; done)
@[simp] theorem State.raiseStop_ord {base : State} (s : State) (k : Nat) (hord : Orderly base s) :
    Orderly base (State.raiseStop s k) := by
  unfold State.raiseStop; split <;> first | exact State.hostWrite_ord _ _ _ _ hord | (simp [hord]; done)
@[simp] theorem State.raiseStops_ord {base : State} (s : State) (mask : Nat) (hord : Orderly base s) :
    Orderly base (State.raiseStops s mask) := by
  unfold State.raiseStops
  try dsimp only
  repeat' (first | with_reducible assumption | (simp (maxDischargeDepth := 50) [*]; done) | (refine orderly_foldl _ (fun s x hord' => ?_) _ ?_) | split)
@[simp] theorem State.pulseStart_ord {base : State} (s : State) (k : Nat) (hord : Orderly base s) :
    Orderly base (State.pulseStart s k) := by
  unfold State.pulseStart; split <;> first | exact State.hostWrite_ord _ _ _ _ hord | (simp [hord]; done)
@[simp] theorem State.pulseEnd_ord {base : State} (s : State) (k : Nat) (hord : Orderly base s) :
    Orderly base (State.pulseEnd s k) := by
  unfold State.pulseEnd
  try dsimp only
  repeat' (first | with_reducible assumption | (simp (maxDischargeDepth := 50) [*]; done) | (refine orderly_foldl _ (fun s x hord' => ?_) _ ?_) | split)
@[simp] theorem State.stopInstant_ord {base : State} (s : State) (kind : Nat) (chains : Nat) (t : Nat) (hord : Orderly base s) :
    Orderly base (State.stopInstant s kind chains t) := by
  unfold State.stopInstant
  try dsimp only
  repeat' (first | with_reducible assumption | (simp (maxDischargeDepth := 50) [*]; done) | (refine orderly_foldl _ (fun s x hord' => ?_) _ ?_) | split)
@[simp] theorem State.wakePeals_ord {base : State} (s : State) (ok : Nat) (un : Nat) (hord : Orderly base s) :
    Orderly base (State.wakePeals s ok un) := by
  unfold State.wakePeals
  try dsimp only
  repeat' (first | with_reducible assumption | (simp (maxDischargeDepth := 50) [*]; done) | (refine orderly_foldl _ (fun s x hord' => ?_) _ ?_) | split)
@[simp] theorem State.armPump_ord {base : State} (s : State) (hord : Orderly base s) :
    Orderly base (State.armPump s) := by
  unfold State.armPump
  try dsimp only
  repeat' (first | with_reducible assumption | (simp (maxDischargeDepth := 50) [*]; done) | (refine orderly_foldl _ (fun s x hord' => ?_) _ ?_) | split)
@[simp] theorem State.tollTrigger_ord {base : State} (s : State) (active : Bool) (stamp : Nat) (hord : Orderly base s) :
    Orderly base (State.tollTrigger s active stamp) := by
  unfold State.tollTrigger
  try dsimp only
  repeat' (first | with_reducible assumption | (simp (maxDischargeDepth := 50) [*]; done) | (refine orderly_foldl _ (fun s x hord' => ?_) _ ?_) | split)
@[simp] theorem State.timedRaise_ord {base : State} (s : State) (hord : Orderly base s) :
    Orderly base (State.timedRaise s) := by
  unfold State.timedRaise
  try dsimp only
  repeat' (first | with_reducible assumption | (simp (maxDischargeDepth := 50) [*]; done) | (refine orderly_foldl _ (fun s x hord' => ?_) _ ?_) | split)
@[simp] theorem State.timeReady_ord {base : State} (s : State) (n : Nat) (hord : Orderly base s) :
    Orderly base (State.timeReady s n) := by
  unfold State.timeReady
  try dsimp only
  repeat' (first | with_reducible assumption | (simp (maxDischargeDepth := 50) [*]; done) | (refine orderly_foldl _ (fun s x hord' => ?_) _ ?_) | split)
@[simp] theorem State.rejudge_ord {base : State} (s : State) (p : Source → Bool) (hord : Orderly base s) :
    Orderly base (State.rejudge s p) := by
  unfold State.rejudge
  try dsimp only
  repeat' (first | with_reducible assumption | (simp (maxDischargeDepth := 50) [*]; done) | (refine orderly_foldl _ (fun s x hord' => ?_) _ ?_) | split)
@[simp] theorem State.pendSet_ord {base : State} (s : State) (n : Nat) (hord : Orderly base s) :
    Orderly base (State.pendSet s n) := by
  unfold State.pendSet
  try dsimp only
  repeat' (first | with_reducible assumption | (simp (maxDischargeDepth := 50) [*]; done) | (refine orderly_foldl _ (fun s x hord' => ?_) _ ?_) | split)
@[simp] theorem State.pendClr_ord {base : State} (s : State) (n : Nat) (hord : Orderly base s) :
    Orderly base (State.pendClr s n) := by
  unfold State.pendClr
  try dsimp only
  repeat' (first | with_reducible assumption | (simp (maxDischargeDepth := 50) [*]; done) | (refine orderly_foldl _ (fun s x hord' => ?_) _ ?_) | split)
@[simp] theorem State.setMask_ord {base : State} (s : State) (n : Nat) (m : Bool) (hord : Orderly base s) :
    Orderly base (State.setMask s n m) := by
  unfold State.setMask
  try dsimp only
  repeat' (first | with_reducible assumption | (simp (maxDischargeDepth := 50) [*]; done) | (refine orderly_foldl _ (fun s x hord' => ?_) _ ?_) | split)
@[simp] theorem State.eachSource_ord {base : State} (s : State) (m : Nat) (bits : Nat) (f : State → Nat → State) (hf : ∀ (a0 : State) (a1 : Nat), Orderly base a0 → Orderly base (f a0 a1)) (hord : Orderly base s) :
    Orderly base (State.eachSource s m bits f) := by
  unfold State.eachSource
  try dsimp only
  repeat' (first | with_reducible assumption | (simp (maxDischargeDepth := 50) [*]; done) | (refine orderly_foldl _ (fun s x hord' => ?_) _ ?_) | split)
@[simp] theorem State.lineWrite_ord {base : State} (s : State) (n : Nat) (v : Nat) (hord : Orderly base s) :
    Orderly base (State.lineWrite s n v) := by
  unfold State.lineWrite; split <;> first | exact State.hostWrite_ord _ _ _ _ hord | (simp [hord]; done)
@[simp] theorem State.coalApply_ord {base : State} (s : State) (q : Nat) (hord : Orderly base s) :
    Orderly base (State.coalApply s q) := by
  unfold State.coalApply
  try dsimp only
  repeat' (first | with_reducible assumption | (simp (maxDischargeDepth := 50) [*]; done) | (refine orderly_foldl _ (fun s x hord' => ?_) _ ?_) | split)
@[simp] theorem State.queueVector_ord {base : State} (s : State) (q : Nat) (hord : Orderly base s) :
    Orderly base (State.queueVector s q) := by
  unfold State.queueVector; split <;> first | exact State.hostWrite_ord _ _ _ _ hord | (simp [hord]; done)
@[simp] theorem State.recordSent_ord {base : State} (s : State) (q : Nat) (hord : Orderly base s) :
    Orderly base (State.recordSent s q) := by
  unfold State.recordSent
  try dsimp only
  repeat' (first | with_reducible assumption | (simp (maxDischargeDepth := 50) [*]; done) | (refine orderly_foldl _ (fun s x hord' => ?_) _ ?_) | split)
@[simp] theorem State.qHead_ord {base : State} (s : State) (q : Nat) (v : Nat) (hord : Orderly base s) :
    Orderly base (State.qHead s q v) := by
  unfold State.qHead
  try dsimp only
  repeat' (first | with_reducible assumption | (simp (maxDischargeDepth := 50) [*]; done) | (refine orderly_foldl _ (fun s x hord' => ?_) _ ?_) | split)
@[simp] theorem State.qEnable_ord {base : State} (s : State) (q : Nat) (hord : Orderly base s) :
    Orderly base (State.qEnable s q) := by
  unfold State.qEnable
  try dsimp only
  repeat' (first | with_reducible assumption | (simp (maxDischargeDepth := 50) [*]; done) | (refine orderly_foldl _ (fun s x hord' => ?_) _ ?_) | split)
@[simp] theorem State.qDisable_ord {base : State} (s : State) (q : Nat) (hord : Orderly base s) :
    Orderly base (State.qDisable s q) := by
  unfold State.qDisable
  try dsimp only
  repeat' (first | with_reducible assumption | (simp (maxDischargeDepth := 50) [*]; done) | (refine orderly_foldl _ (fun s x hord' => ?_) _ ?_) | split)
@[simp] theorem State.queuesReset_ord {base : State} (s : State) (hord : Orderly base s) :
    Orderly base (State.queuesReset s) := by
  unfold State.queuesReset
  try dsimp only
  repeat' (first | with_reducible assumption | (simp (maxDischargeDepth := 50) [*]; done) | (refine orderly_foldl _ (fun s x hord' => ?_) _ ?_) | split)
@[simp] theorem State.carBoot_ord {base : State} (s : State) (hord : Orderly base s) :
    Orderly base (State.carBoot s) := by
  unfold State.carBoot
  try dsimp only
  repeat' (first | with_reducible assumption | (simp (maxDischargeDepth := 50) [*]; done) | (refine orderly_foldl _ (fun s x hord' => ?_) _ ?_) | split)
@[simp] theorem State.postSleep_ord {base : State} (s : State) (w : Work) (target : Nat) (timer : Nat) (hord : Orderly base s) :
    Orderly base (State.postSleep s w target timer) := by
  unfold State.postSleep; split <;> first | exact State.hostWrite_ord _ _ _ _ hord | (simp [hord]; done)
@[simp] theorem State.wakeSleeper_ord {base : State} (s : State) (w : Work) (ok : Bool) (hord : Orderly base s) :
    Orderly base (State.wakeSleeper s w ok) := by
  unfold State.wakeSleeper; split <;> first | exact State.hostWrite_ord _ _ _ _ hord | (simp [hord]; done)
@[simp] theorem State.sleepCheck_ord {base : State} (s : State) (hord : Orderly base s) :
    Orderly base (State.sleepCheck s) := by
  unfold State.sleepCheck
  try dsimp only
  repeat' (first | with_reducible assumption | (simp (maxDischargeDepth := 50) [*]; done) | (refine orderly_foldl _ (fun s x hord' => ?_) _ ?_) | split)
@[simp] theorem State.sleepCommit_ord {base : State} (s : State) (hord : Orderly base s) :
    Orderly base (State.sleepCommit s) := by
  unfold State.sleepCommit
  try dsimp only
  repeat' (first | with_reducible assumption | (simp (maxDischargeDepth := 50) [*]; done) | (refine orderly_foldl _ (fun s x hord' => ?_) _ ?_) | split)
@[simp] theorem State.wake_ord {base : State} (s : State) (hord : Orderly base s) :
    Orderly base (State.wake s) := by
  unfold State.wake
  try dsimp only
  repeat' (first | with_reducible assumption | (simp (maxDischargeDepth := 50) [*]; done) | (refine orderly_foldl _ (fun s x hord' => ?_) _ ?_) | split)
@[simp] theorem State.timerExpiry_ord {base : State} (s : State) (hord : Orderly base s) :
    Orderly base (State.timerExpiry s) := by
  unfold State.timerExpiry; split <;> first | exact State.hostWrite_ord _ _ _ _ hord | (simp [hord]; done)
@[simp] theorem State.decodeFuses_ord {base : State} (s : State) (hord : Orderly base s) :
    Orderly base (State.decodeFuses s) := by
  unfold State.decodeFuses
  try dsimp only
  repeat' (first | with_reducible assumption | (simp (maxDischargeDepth := 50) [*]; done) | (refine orderly_foldl _ (fun s x hord' => ?_) _ ?_) | split)
@[simp] theorem State.writeBootCount_ord {base : State} (s : State) (hord : Orderly base s) :
    Orderly base (State.writeBootCount s) := by
  unfold State.writeBootCount
  try dsimp only
  repeat' (first | with_reducible assumption | (simp (maxDischargeDepth := 50) [*]; done) | (refine orderly_foldl _ (fun s x hord' => ?_) _ ?_) | split)
@[simp] theorem State.norTorn_ord {base : State} (s : State) (b : Burst) (hord : Orderly base s) :
    Orderly base (State.norTorn s b) := by
  unfold State.norTorn
  try dsimp only
  repeat' (first | with_reducible assumption | (simp (maxDischargeDepth := 50) [*]; done) | (refine orderly_foldl _ (fun s x hord' => ?_) _ ?_) | split)
@[simp] theorem State.dropNor_ord {base : State} (s : State) (hord : Orderly base s) :
    Orderly base (State.dropNor s) := by
  unfold State.dropNor
  try dsimp only
  repeat' (first | with_reducible assumption | (simp (maxDischargeDepth := 50) [*]; done) | (refine orderly_foldl _ (fun s x hord' => ?_) _ ?_) | split)
@[simp] theorem State.orphan_ord {base : State} (s : State) (w : Work) (keep : Option Item) (hord : Orderly base s) :
    Orderly base (State.orphan s w keep) := by
  unfold State.orphan
  try dsimp only
  repeat' (first | with_reducible assumption | (simp (maxDischargeDepth := 50) [*]; done) | (refine orderly_foldl _ (fun s x hord' => ?_) _ ?_) | split)
@[simp] theorem State.cutDropped_ord {base : State} (s : State) (i : Item) (hord : Orderly base s) :
    Orderly base (State.cutDropped s i) := by
  unfold State.cutDropped; split <;> first | exact State.hostWrite_ord _ _ _ _ hord | (simp [hord]; done)
@[simp] theorem State.hostLost_ord {base : State} (s : State) (w : Work) (hord : Orderly base s) :
    Orderly base (State.hostLost s w) := by
  unfold State.hostLost
  try dsimp only
  repeat' (first | with_reducible assumption | (simp (maxDischargeDepth := 50) [*]; done) | (refine orderly_foldl _ (fun s x hord' => ?_) _ ?_) | split)
@[simp] theorem State.railsDown_ord {base : State} (s : State) (hord : Orderly base s) :
    Orderly base (State.railsDown s) := by
  unfold State.railsDown
  try dsimp only
  repeat' (first | with_reducible assumption | (simp (maxDischargeDepth := 50) [*]; done) | (refine orderly_foldl _ (fun s x hord' => ?_) _ ?_) | split)
@[simp] theorem State.porEnd_ord {base : State} (s : State) (straps : Nat) (pulls : Nat) (hord : Orderly base s) :
    Orderly base (State.porEnd s straps pulls) := by
  unfold State.porEnd; split <;> first | exact State.hostWrite_ord _ _ _ _ hord | (simp [hord]; done)
@[simp] theorem State.issueFabric_ord {base : State} (s : State) (w : Work) (o : Op) (f : Nat) (send : State → State) (hsend : ∀ (a0 : State), Orderly base a0 → Orderly base (send a0)) (hord : Orderly base s) :
    Orderly base (State.issueFabric s w o f send).1 := by
  unfold State.issueFabric
  try dsimp only
  repeat' (first | with_reducible assumption | (simp (maxDischargeDepth := 50) [*]; done) | (refine orderly_foldl _ (fun s x hord' => ?_) _ ?_) | split)
@[simp] theorem State.drFilled_ord {base : State} (s : State) (b : Nat) (hord : Orderly base s) :
    Orderly base (State.drFilled s b) := by
  unfold State.drFilled
  try dsimp only
  repeat' (first | with_reducible assumption | (simp (maxDischargeDepth := 50) [*]; done) | (refine orderly_foldl _ (fun s x hord' => ?_) _ ?_) | split)
@[simp] theorem State.coreAnswer_ord {base : State} (s : State) (w : Work) (reply : List Byte) (hord : Orderly base s) :
    Orderly base (State.coreAnswer s w reply) := by
  unfold State.coreAnswer
  try dsimp only
  repeat' (first | with_reducible assumption | (simp (maxDischargeDepth := 50) [*]; done) | (refine orderly_foldl _ (fun s x hord' => ?_) _ ?_) | split)
@[simp] theorem State.coreReply_ord {base : State} (s : State) (reply : List Byte) (hord : Orderly base s) :
    Orderly base (State.coreReply s reply) := by
  unfold State.coreReply
  try dsimp only
  repeat' (first | with_reducible assumption | (simp (maxDischargeDepth := 50) [*]; done) | (refine orderly_foldl _ (fun s x hord' => ?_) _ ?_) | split)
@[simp] theorem State.markArmed_ord {base : State} (s : State) (w : Work) (f : Nat) (a : Nat) (hord : Orderly base s) :
    Orderly base (State.markArmed s w f a) := by
  unfold State.markArmed; split <;> first | exact State.hostWrite_ord _ _ _ _ hord | (simp [hord]; done)
@[simp] theorem State.noteWrite_ord {base : State} (s : State) (w : Work) (f : Nat) (a : Nat) (hord : Orderly base s) :
    Orderly base (State.noteWrite s w f a) := by
  unfold State.noteWrite
  try dsimp only
  repeat' (first | with_reducible assumption | (simp (maxDischargeDepth := 50) [*]; done) | (refine orderly_foldl _ (fun s x hord' => ?_) _ ?_) | split)
@[simp] theorem State.scanNext_ord {base : State} (s : State) (hord : Orderly base s) :
    Orderly base (State.scanNext s) := by
  unfold State.scanNext; split <;> first | exact State.hostWrite_ord _ _ _ _ hord | (simp [hord]; done)
@[simp] theorem State.openEnd_ord {base : State} (s : State) (w : Work) (i : Item) (v : Nat × Nat × Nat) (hord : Orderly base s) :
    Orderly base (State.openEnd s w i v).2 := by
  unfold State.openEnd; split <;> first | exact State.hostWrite_ord _ _ _ _ hord | (simp [hord]; done)
@[simp] theorem State.waitAt_ord {base : State} (s : State) (e : Nat) (b : Nat) (hord : Orderly base s) :
    Orderly base (State.waitAt s e b) := by
  unfold State.waitAt
  try dsimp only
  repeat' (first | with_reducible assumption | (simp (maxDischargeDepth := 50) [*]; done) | (refine orderly_foldl _ (fun s x hord' => ?_) _ ?_) | split)
@[simp] theorem repItem_ord {base : State} (x0 : State) (x1 : Work) (x2 : Item) (x3 : Status) (hord : Orderly base x0) :
    Orderly base (repItem x0 x1 x2 x3).1 := by
  unfold repItem
  try dsimp only
  repeat' (first | with_reducible assumption | (simp (maxDischargeDepth := 50) [*]; done) | (refine orderly_foldl _ (fun s x hord' => ?_) _ ?_) | split)
@[simp] theorem State.strokeOut_ord {base : State} (s : State) (e : Nat) (hord : Orderly base s) :
    Orderly base (State.strokeOut s e) := by
  unfold State.strokeOut; split <;> first | exact State.hostWrite_ord _ _ _ _ hord | (simp [hord]; done)
@[simp] theorem State.strokeYield_ord {base : State} (s : State) (e : Nat) (hord : Orderly base s) :
    Orderly base (State.strokeYield s e) := by
  unfold State.strokeYield
  try dsimp only
  repeat' (first | with_reducible assumption | (simp (maxDischargeDepth := 50) [*]; done) | (refine orderly_foldl _ (fun s x hord' => ?_) _ ?_) | split)
@[simp] theorem State.bootFuses_ord {base : State} (s : State) (cause : Nat) (v : BootView) (hord : Orderly base s) :
    Orderly base (State.bootFuses s cause v) := by
  unfold State.bootFuses; split <;> first | exact State.hostWrite_ord _ _ _ _ hord | (simp [hord]; done)
@[simp] theorem State.bootNor_ord {base : State} (s : State) (v : BootView) (hord : Orderly base s) :
    Orderly base (State.bootNor s v) := by
  unfold State.bootNor; split <;> first | exact State.hostWrite_ord _ _ _ _ hord | (simp [hord]; done)
@[simp] theorem State.bootTake_ord {base : State} (s : State) (x : Nat) (hord : Orderly base s) :
    Orderly base (State.bootTake s x) := by
  unfold State.bootTake
  try dsimp only
  repeat' (first | with_reducible assumption | (simp (maxDischargeDepth := 50) [*]; done) | (refine orderly_foldl _ (fun s x hord' => ?_) _ ?_) | split)
@[simp] theorem State.bootUp_ord {base : State} (s : State) (hord : Orderly base s) :
    Orderly base (State.bootUp s) := by
  unfold State.bootUp; split <;> first | exact State.hostWrite_ord _ _ _ _ hord | (simp [hord]; done)
@[simp] theorem State.bootRecover_ord {base : State} (s : State) (hord : Orderly base s) :
    Orderly base (State.bootRecover s) := by
  unfold State.bootRecover
  try dsimp only
  repeat' (first | with_reducible assumption | (simp (maxDischargeDepth := 50) [*]; done) | (refine orderly_foldl _ (fun s x hord' => ?_) _ ?_) | split)
@[simp] theorem State.bootDone_ord {base : State} (s : State) (v : BootView) (hord : Orderly base s) :
    Orderly base (State.bootDone s v) := by
  unfold State.bootDone
  try dsimp only
  repeat' (first | with_reducible assumption | (simp (maxDischargeDepth := 50) [*]; done) | (refine orderly_foldl _ (fun s x hord' => ?_) _ ?_) | split)
@[simp] theorem State.bootFirst_ord {base : State} (s : State) (v : BootView) (hord : Orderly base s) :
    Orderly base (State.bootFirst s v) := by
  unfold State.bootFirst
  try dsimp only
  repeat' (first | with_reducible assumption | (simp (maxDischargeDepth := 50) [*]; done) | (refine orderly_foldl _ (fun s x hord' => ?_) _ ?_) | split)
@[simp] theorem State.bootSecond_ord {base : State} (s : State) (v : BootView) (hord : Orderly base s) :
    Orderly base (State.bootSecond s v) := by
  unfold State.bootSecond
  try dsimp only
  repeat' (first | with_reducible assumption | (simp (maxDischargeDepth := 50) [*]; done) | (refine orderly_foldl _ (fun s x hord' => ?_) _ ?_) | split)
@[simp] theorem execBootCountRecord_ord {base : State} (s : State) (hord : Orderly base s) :
    OrdOut base (execBootCountRecord s) := by
  unfold execBootCountRecord
  try dsimp only
  repeat' (first | with_reducible assumption | (simp (maxDischargeDepth := 50) [*]; done) | (refine orderly_foldl _ (fun s x hord' => ?_) _ ?_) | split)
@[simp] theorem State.zeroSram_ord {base : State} (s : State) (hord : Orderly base s) :
    Orderly base (State.zeroSram s) := by
  unfold State.zeroSram
  try dsimp only
  repeat' (first | with_reducible assumption | (simp (maxDischargeDepth := 50) [*]; done) | (refine orderly_foldl _ (fun s x hord' => ?_) _ ?_) | split)
@[simp] theorem State.scrapTorn_ord {base : State} (s : State) (hord : Orderly base s) :
    Orderly base (State.scrapTorn s) := by
  unfold State.scrapTorn
  try dsimp only
  repeat' (first | with_reducible assumption | (simp (maxDischargeDepth := 50) [*]; done) | (refine orderly_foldl _ (fun s x hord' => ?_) _ ?_) | split)
@[simp] theorem State.lcsBegin_ord {base : State} (s : State) (q : LcsReq) (hord : Orderly base s) :
    Orderly base (State.lcsBegin s q).2 := by
  unfold State.lcsBegin; split <;> first | exact State.hostWrite_ord _ _ _ _ hord | (simp [hord]; done)
@[simp] theorem State.nonceNew_ord {base : State} (s : State) (hord : Orderly base s) :
    Orderly base (State.nonceNew s) := by
  unfold State.nonceNew
  try dsimp only
  repeat' (first | with_reducible assumption | (simp (maxDischargeDepth := 50) [*]; done) | (refine orderly_foldl _ (fun s x hord' => ?_) _ ?_) | split)
@[simp] theorem State.keepRights_ord {base : State} (s : State) (hord : Orderly base s) :
    Orderly base (State.keepRights s) := by
  unfold State.keepRights
  try dsimp only
  repeat' (first | with_reducible assumption | (simp (maxDischargeDepth := 50) [*]; done) | (refine orderly_foldl _ (fun s x hord' => ?_) _ ?_) | split)
@[simp] theorem State.certDrop_ord {base : State} (s : State) (all : Bool) (issuer : Nat) (serial : Nat) (hord : Orderly base s) :
    Orderly base (State.certDrop s all issuer serial) := by
  unfold State.certDrop
  try dsimp only
  repeat' (first | with_reducible assumption | (simp (maxDischargeDepth := 50) [*]; done) | (refine orderly_foldl _ (fun s x hord' => ?_) _ ?_) | split)
@[simp] theorem State.drainWait_ord {base : State} (s : State) (w : Work) (hord : Orderly base s) :
    Orderly base (State.drainWait s w) := by
  unfold State.drainWait
  try dsimp only
  repeat' (first | with_reducible assumption | (simp (maxDischargeDepth := 50) [*]; done) | (refine orderly_foldl _ (fun s x hord' => ?_) _ ?_) | split)
@[simp] theorem State.markOdd_ord {base : State} (s : State) (w : Work) (bits : Nat) (hord : Orderly base s) :
    Orderly base (State.markOdd s w bits) := by
  unfold State.markOdd
  try dsimp only
  repeat' (first | with_reducible assumption | (simp (maxDischargeDepth := 50) [*]; done) | (refine orderly_foldl _ (fun s x hord' => ?_) _ ?_) | split)
@[simp] theorem noCheck_ord {base : State} (s : State) (x1 : Work) (x2 : Item) (hord : Orderly base s) :
    Orderly base (noCheck s x1 x2) := by
  unfold noCheck
  try dsimp only
  repeat' (first | with_reducible assumption | (simp (maxDischargeDepth := 50) [*]; done) | (refine orderly_foldl _ (fun s x hord' => ?_) _ ?_) | split)
@[simp] theorem State.ringEnable_ord {base : State} (s : State) (n : Nat) (hord : Orderly base s) :
    Orderly base (State.ringEnable s n) := by
  unfold State.ringEnable
  try dsimp only
  repeat' (first | with_reducible assumption | (simp (maxDischargeDepth := 50) [*]; done) | (refine orderly_foldl _ (fun s x hord' => ?_) _ ?_) | split)
@[simp] theorem State.ringOff_ord {base : State} (s : State) (n : Nat) (hord : Orderly base s) :
    Orderly base (State.ringOff s n) := by
  unfold State.ringOff
  try dsimp only
  repeat' (first | with_reducible assumption | (simp (maxDischargeDepth := 50) [*]; done) | (refine orderly_foldl _ (fun s x hord' => ?_) _ ?_) | split)
@[simp] theorem State.settleDrain_ord {base : State} (s : State) (n : Nat) (hord : Orderly base s) :
    Orderly base (State.settleDrain s n) := by
  unfold State.settleDrain
  try dsimp only
  repeat' (first | with_reducible assumption | (simp (maxDischargeDepth := 50) [*]; done) | (refine orderly_foldl _ (fun s x hord' => ?_) _ ?_) | split)
@[simp] theorem State.readFailed_ord {base : State} (s : State) (w : Work) (ix : Nat) (hord : Orderly base s) :
    Orderly base (State.readFailed s w ix) := by
  unfold State.readFailed
  try dsimp only
  repeat' (first | with_reducible assumption | (simp (maxDischargeDepth := 50) [*]; done) | (refine orderly_foldl _ (fun s x hord' => ?_) _ ?_) | split)
@[simp] theorem State.readDone_ord {base : State} (s : State) (w : Work) (ix : Nat) (d : List Byte) (hord : Orderly base s) :
    Orderly base (State.readDone s w ix d) := by
  unfold State.readDone
  try dsimp only
  repeat' (first | with_reducible assumption | (simp (maxDischargeDepth := 50) [*]; done) | (refine orderly_foldl _ (fun s x hord' => ?_) _ ?_) | split)
@[simp] theorem State.openStore_ord {base : State} (s : State) (hord : Orderly base s) :
    Orderly base (State.openStore s) := by
  unfold State.openStore
  try dsimp only
  repeat' (first | with_reducible assumption | (simp (maxDischargeDepth := 50) [*]; done) | (refine orderly_foldl _ (fun s x hord' => ?_) _ ?_) | split)
@[simp] theorem State.norDone_ord {base : State} (s : State) (b : Burst) (hord : Orderly base s) :
    Orderly base (State.norDone s b) := by
  unfold State.norDone
  try dsimp only
  repeat' (first | with_reducible assumption | (simp (maxDischargeDepth := 50) [*]; done) | (refine orderly_foldl _ (fun s x hord' => ?_) _ ?_) | split)
@[simp] theorem execCoalTimeReady_ord {base : State} (n : Nat) (s : State) (hord : Orderly base s) :
    OrdOut base (execCoalTimeReady n s) := by
  unfold execCoalTimeReady
  try dsimp only
  repeat' (first | with_reducible assumption | (simp (maxDischargeDepth := 50) [*]; done) | (refine orderly_foldl _ (fun s x hord' => ?_) _ ?_) | split)
@[simp] theorem State.onWork_ord {base : State} (s : State) (n : Nat) (p : Item → Bool) (f : Item → Item) (hord : Orderly base s) :
    Orderly base (State.onWork s n p f) := by
  unfold State.onWork
  try dsimp only
  repeat' (first | with_reducible assumption | (simp (maxDischargeDepth := 50) [*]; done) | (refine orderly_foldl _ (fun s x hord' => ?_) _ ?_) | split)
@[simp] theorem waitAdv_ord {base : State} (x0 : State) (x1 : Work) (x2 : Item) (hord : Orderly base x0) :
    Orderly base (waitAdv x0 x1 x2) := by
  unfold waitAdv
  try dsimp only
  repeat' (first | with_reducible assumption | (simp (maxDischargeDepth := 50) [*]; done) | (refine orderly_foldl _ (fun s x hord' => ?_) _ ?_) | split)
@[simp] theorem State.waitPoll_ord {base : State} (s : State) (n : Nat) (hord : Orderly base s) :
    Orderly base (State.waitPoll s n) := by
  unfold State.waitPoll
  try dsimp only
  repeat' (first | with_reducible assumption | (simp (maxDischargeDepth := 50) [*]; done) | (refine orderly_foldl _ (fun s x hord' => ?_) _ ?_) | split)
@[simp] theorem State.condTimeout_ord {base : State} (s : State) (n : Nat) (op : Nat) (hord : Orderly base s) :
    Orderly base (State.condTimeout s n op) := by
  unfold State.condTimeout
  try dsimp only
  repeat' (first | with_reducible assumption | (simp (maxDischargeDepth := 50) [*]; done) | (refine orderly_foldl _ (fun s x hord' => ?_) _ ?_) | split)
@[simp] theorem signalAdv_ord {base : State} (x0 : State) (x1 : Work) (x2 : Item) (hord : Orderly base x0) :
    Orderly base (signalAdv x0 x1 x2) := by
  unfold signalAdv; split <;> first | exact State.hostWrite_ord _ _ _ _ hord | (simp [hord]; done)
@[simp] theorem fenceAdv_ord {base : State} (x0 : State) (x1 : Work) (x2 : Item) (hord : Orderly base x0) :
    Orderly base (fenceAdv x0 x1 x2) := by
  unfold fenceAdv
  try dsimp only
  repeat' (first | with_reducible assumption | (simp (maxDischargeDepth := 50) [*]; done) | (refine orderly_foldl _ (fun s x hord' => ?_) _ ?_) | split)
@[simp] theorem execWaitPoll_ord {base : State} (w : Nat) (s : State) (hord : Orderly base s) :
    OrdOut base (execWaitPoll w s) := by
  unfold execWaitPoll
  try dsimp only
  repeat' (first | with_reducible assumption | (simp (maxDischargeDepth := 50) [*]; done) | (refine orderly_foldl _ (fun s x hord' => ?_) _ ?_) | split)
@[simp] theorem execWaitTimeout_ord {base : State} (w : Nat) (s : State) (hord : Orderly base s) :
    OrdOut base (execWaitTimeout w s) := by
  unfold execWaitTimeout
  try dsimp only
  repeat' (first | with_reducible assumption | (simp (maxDischargeDepth := 50) [*]; done) | (refine orderly_foldl _ (fun s x hord' => ?_) _ ?_) | split)
@[simp] theorem execFenceTimeout_ord {base : State} (w : Nat) (s : State) (hord : Orderly base s) :
    OrdOut base (execFenceTimeout w s) := by
  unfold execFenceTimeout
  try dsimp only
  repeat' (first | with_reducible assumption | (simp (maxDischargeDepth := 50) [*]; done) | (refine orderly_foldl _ (fun s x hord' => ?_) _ ?_) | split)
@[simp] theorem State.breakOdd_ord {base : State} (s : State) (d : BitVec 512) (hord : Orderly base s) :
    Orderly base (State.breakOdd s d) := by
  unfold State.breakOdd
  try dsimp only
  repeat' (first | with_reducible assumption | (simp (maxDischargeDepth := 50) [*]; done) | (refine orderly_foldl _ (fun s x hord' => ?_) _ ?_) | split)
@[simp] theorem State.takeUp_ord {base : State} (s : State) (w : Work) (i : Item) (hord : Orderly base s) :
    Orderly base (State.takeUp s w i).2 := by
  unfold State.takeUp
  try dsimp only
  repeat' (first | with_reducible assumption | (simp (maxDischargeDepth := 50) [*]; done) | (refine orderly_foldl _ (fun s x hord' => ?_) _ ?_) | split)
@[simp] theorem State.noteGrant_ord {base : State} (s : State) (w : Work) (hord : Orderly base s) :
    Orderly base (State.noteGrant s w) := by
  unfold State.noteGrant; split <;> first | exact State.hostWrite_ord _ _ _ _ hord | (simp [hord]; done)
@[simp] theorem State.noteLatency_ord {base : State} (s : State) (w : Work) (i : Item) (hord : Orderly base s) :
    Orderly base (State.noteLatency s w i) := by
  unfold State.noteLatency
  try dsimp only
  repeat' (first | with_reducible assumption | (simp (maxDischargeDepth := 50) [*]; done) | (refine orderly_foldl _ (fun s x hord' => ?_) _ ?_) | split)
@[simp] theorem execStrokeYield_ord {base : State} (e : Nat) (s : State) (hord : Orderly base s) :
    OrdOut base (execStrokeYield e s) := by
  unfold execStrokeYield
  try dsimp only
  repeat' (first | with_reducible assumption | (simp (maxDischargeDepth := 50) [*]; done) | (refine orderly_foldl _ (fun s x hord' => ?_) _ ?_) | split)
@[simp] theorem execScanGuardFire_ord {base : State} (s : State) (hord : Orderly base s) :
    OrdOut base (execScanGuardFire s) := by
  unfold execScanGuardFire; split <;> first | exact State.hostWrite_ord _ _ _ _ hord | (simp [hord]; done)
@[simp] theorem State.tollDrop_ord {base : State} (s : State) (w : Work) (hord : Orderly base s) :
    Orderly base (State.tollDrop s w) := by
  unfold State.tollDrop
  try dsimp only
  repeat' (first | with_reducible assumption | (simp (maxDischargeDepth := 50) [*]; done) | (refine orderly_foldl _ (fun s x hord' => ?_) _ ?_) | split)
@[simp] theorem State.tollFirst_ord {base : State} (s : State) (w : Work) (i : Item) (hord : Orderly base s) :
    Orderly base (State.tollFirst s w i) := by
  unfold State.tollFirst
  try dsimp only
  repeat' (first | with_reducible assumption | (simp (maxDischargeDepth := 50) [*]; done) | (refine orderly_foldl _ (fun s x hord' => ?_) _ ?_) | split)
@[simp] theorem tollAdv_ord {base : State} (x0 : State) (x1 : Work) (x2 : Item) (hord : Orderly base x0) :
    Orderly base (tollAdv x0 x1 x2) := by
  unfold tollAdv; split <;> first | exact State.hostWrite_ord _ _ _ _ hord | (simp [hord]; done)
@[simp] theorem tollRep_ord {base : State} (x0 : State) (x1 : Work) (x2 : Item) (x3 : Status) (hord : Orderly base x0) :
    Orderly base (tollRep x0 x1 x2 x3).1 := by
  unfold tollRep; split <;> first | exact State.hostWrite_ord _ _ _ _ hord | (simp [hord]; done)
@[simp] theorem State.resumeRaise_ord {base : State} (s : State) (d : BitVec 512) (hord : Orderly base s) :
    Orderly base (State.resumeRaise s d) := by
  unfold State.resumeRaise
  try dsimp only
  repeat' (first | with_reducible assumption | (simp (maxDischargeDepth := 50) [*]; done) | (refine orderly_foldl _ (fun s x hord' => ?_) _ ?_) | split)
@[simp] theorem selAdv_ord {base : State} (x0 : State) (x1 : Work) (x2 : Item) (hord : Orderly base x0) :
    Orderly base (selAdv x0 x1 x2) := by
  unfold selAdv; split <;> first | exact State.hostWrite_ord _ _ _ _ hord | (simp [hord]; done)
@[simp] theorem selRep_ord {base : State} (x0 : State) (x1 : Work) (x2 : Item) (x3 : Status) (hord : Orderly base x0) :
    Orderly base (selRep x0 x1 x2 x3).1 := by
  unfold selRep
  try dsimp only
  repeat' (first | with_reducible assumption | (simp (maxDischargeDepth := 50) [*]; done) | (refine orderly_foldl _ (fun s x hord' => ?_) _ ?_) | split)
@[simp] theorem breakAdv_ord {base : State} (x0 : State) (x1 : Work) (x2 : Item) (hord : Orderly base x0) :
    Orderly base (breakAdv x0 x1 x2) := by
  unfold breakAdv; split <;> first | exact State.hostWrite_ord _ _ _ _ hord | (simp [hord]; done)
@[simp] theorem State.brkRecover_ord {base : State} (s : State) (w : Work) (i : Item) (hord : Orderly base s) :
    Orderly base (State.brkRecover s w i) := by
  unfold State.brkRecover
  try dsimp only
  repeat' (first | with_reducible assumption | (simp (maxDischargeDepth := 50) [*]; done) | (refine orderly_foldl _ (fun s x hord' => ?_) _ ?_) | split)
@[simp] theorem breakRep_ord {base : State} (x0 : State) (x1 : Work) (x2 : Item) (x3 : Status) (hord : Orderly base x0) :
    Orderly base (breakRep x0 x1 x2 x3).1 := by
  unfold breakRep
  try dsimp only
  repeat' (first | with_reducible assumption | (simp (maxDischargeDepth := 50) [*]; done) | (refine orderly_foldl _ (fun s x hord' => ?_) _ ?_) | split)
@[simp] theorem stepAdv_ord {base : State} (engine : Bool) (x1 : State) (x2 : Work) (x3 : Item) (hord : Orderly base x1) :
    Orderly base (stepAdv engine x1 x2 x3) := by
  unfold stepAdv
  try dsimp only
  repeat' (first | with_reducible assumption | (simp (maxDischargeDepth := 50) [*]; done) | (refine orderly_foldl _ (fun s x hord' => ?_) _ ?_) | split)
@[simp] theorem State.stepCorePoll_ord {base : State} (s : State) (w : Work) (i : Item) (hord : Orderly base s) :
    Orderly base (State.stepCorePoll s w i) := by
  unfold State.stepCorePoll
  try dsimp only
  repeat' (first | with_reducible assumption | (simp (maxDischargeDepth := 50) [*]; done) | (refine orderly_foldl _ (fun s x hord' => ?_) _ ?_) | split)
@[simp] theorem State.stepEngPoll_ord {base : State} (s : State) (w : Work) (i : Item) (hord : Orderly base s) :
    Orderly base (State.stepEngPoll s w i) := by
  unfold State.stepEngPoll
  try dsimp only
  repeat' (first | with_reducible assumption | (simp (maxDischargeDepth := 50) [*]; done) | (refine orderly_foldl _ (fun s x hord' => ?_) _ ?_) | split)
@[simp] theorem State.stepPoll_ord {base : State} (s : State) (n : Nat) (hord : Orderly base s) :
    Orderly base (State.stepPoll s n) := by
  unfold State.stepPoll
  try dsimp only
  repeat' (first | with_reducible assumption | (simp (maxDischargeDepth := 50) [*]; done) | (refine orderly_foldl _ (fun s x hord' => ?_) _ ?_) | split)
@[simp] theorem execStepPoll_ord {base : State} (w : Nat) (s : State) (hord : Orderly base s) :
    OrdOut base (execStepPoll w s) := by
  unfold execStepPoll
  try dsimp only
  repeat' (first | with_reducible assumption | (simp (maxDischargeDepth := 50) [*]; done) | (refine orderly_foldl _ (fun s x hord' => ?_) _ ?_) | split)
@[simp] theorem execStopPulseEnd_ord {base : State} (k : Nat) (s : State) (hord : Orderly base s) :
    OrdOut base (execStopPulseEnd k s) := by
  unfold execStopPulseEnd
  try dsimp only
  repeat' (first | with_reducible assumption | (simp (maxDischargeDepth := 50) [*]; done) | (refine orderly_foldl _ (fun s x hord' => ?_) _ ?_) | split)
@[simp] theorem execTimedStopRaise_ord {base : State} (s : State) (hord : Orderly base s) :
    OrdOut base (execTimedStopRaise s) := by
  unfold execTimedStopRaise
  try dsimp only
  repeat' (first | with_reducible assumption | (simp (maxDischargeDepth := 50) [*]; done) | (refine orderly_foldl _ (fun s x hord' => ?_) _ ?_) | split)
@[simp] theorem execToutPulseEnd_ord {base : State} (s : State) (hord : Orderly base s) :
    OrdOut base (execToutPulseEnd s) := by
  unfold execToutPulseEnd
  try dsimp only
  repeat' (first | with_reducible assumption | (simp (maxDischargeDepth := 50) [*]; done) | (refine orderly_foldl _ (fun s x hord' => ?_) _ ?_) | split)
@[simp] theorem State.cutRefresh_ord {base : State} (s : State) (hord : Orderly base s) :
    Orderly base (State.cutRefresh s) := by
  unfold State.cutRefresh
  try dsimp only
  repeat' (first | with_reducible assumption | (simp (maxDischargeDepth := 50) [*]; done) | (refine orderly_foldl _ (fun s x hord' => ?_) _ ?_) | split)
@[simp] theorem State.setCut_ord {base : State} (s : State) (c : Cut) (hord : Orderly base s) :
    Orderly base (State.setCut s c) := by
  unfold State.setCut
  try dsimp only
  repeat' (first | with_reducible assumption | (simp (maxDischargeDepth := 50) [*]; done) | (refine orderly_foldl _ (fun s x hord' => ?_) _ ?_) | split)
@[simp] theorem State.cutWake_ord {base : State} (s : State) (hord : Orderly base s) :
    Orderly base (State.cutWake s) := by
  unfold State.cutWake
  try dsimp only
  repeat' (first | with_reducible assumption | (simp (maxDischargeDepth := 50) [*]; done) | (refine orderly_foldl _ (fun s x hord' => ?_) _ ?_) | split)
@[simp] theorem State.cutStoppedPoll_ord {base : State} (s : State) (f : Nat) (hord : Orderly base s) :
    Orderly base (State.cutStoppedPoll s f) := by
  unfold State.cutStoppedPoll
  try dsimp only
  repeat' (first | with_reducible assumption | (simp (maxDischargeDepth := 50) [*]; done) | (refine orderly_foldl _ (fun s x hord' => ?_) _ ?_) | split)
@[simp] theorem State.drainDone_ord {base : State} (s : State) (hord : Orderly base s) :
    Orderly base (State.drainDone s) := by
  unfold State.drainDone
  try dsimp only
  repeat' (first | with_reducible assumption | (simp (maxDischargeDepth := 50) [*]; done) | (refine orderly_foldl _ (fun s x hord' => ?_) _ ?_) | split)
@[simp] theorem State.drainPoll_ord {base : State} (s : State) (hord : Orderly base s) :
    Orderly base (State.drainPoll s) := by
  unfold State.drainPoll
  try dsimp only
  repeat' (first | with_reducible assumption | (simp (maxDischargeDepth := 50) [*]; done) | (refine orderly_foldl _ (fun s x hord' => ?_) _ ?_) | split)
@[simp] theorem State.drainDeadline_ord {base : State} (s : State) (hord : Orderly base s) :
    Orderly base (State.drainDeadline s) := by
  unfold State.drainDeadline
  try dsimp only
  repeat' (first | with_reducible assumption | (simp (maxDischargeDepth := 50) [*]; done) | (refine orderly_foldl _ (fun s x hord' => ?_) _ ?_) | split)
@[simp] theorem State.linkPoll_ord {base : State} (s : State) (hord : Orderly base s) :
    Orderly base (State.linkPoll s) := by
  unfold State.linkPoll
  try dsimp only
  repeat' (first | with_reducible assumption | (simp (maxDischargeDepth := 50) [*]; done) | (refine orderly_foldl _ (fun s x hord' => ?_) _ ?_) | split)
@[simp] theorem State.linkExpiry_ord {base : State} (s : State) (hord : Orderly base s) :
    Orderly base (State.linkExpiry s) := by
  unfold State.linkExpiry
  try dsimp only
  repeat' (first | with_reducible assumption | (simp (maxDischargeDepth := 50) [*]; done) | (refine orderly_foldl _ (fun s x hord' => ?_) _ ?_) | split)
@[simp] theorem State.cutBegin_ord {base : State} (s : State) (w : Work) (i : Item) (hord : Orderly base s) :
    Orderly base (State.cutBegin s w i) := by
  unfold State.cutBegin
  try dsimp only
  repeat' (first | with_reducible assumption | (simp (maxDischargeDepth := 50) [*]; done) | (refine orderly_foldl _ (fun s x hord' => ?_) _ ?_) | split)
@[simp] theorem State.cutPictures_ord {base : State} (s : State) (w : Work) (i : Item) (hord : Orderly base s) :
    Orderly base (State.cutPictures s w i) := by
  unfold State.cutPictures
  try dsimp only
  repeat' (first | with_reducible assumption | (simp (maxDischargeDepth := 50) [*]; done) | (refine orderly_foldl _ (fun s x hord' => ?_) _ ?_) | split)
@[simp] theorem State.cutNotStopped_ord {base : State} (s : State) (w : Work) (i : Item) (hord : Orderly base s) :
    Orderly base (State.cutNotStopped s w i) := by
  unfold State.cutNotStopped
  try dsimp only
  repeat' (first | with_reducible assumption | (simp (maxDischargeDepth := 50) [*]; done) | (refine orderly_foldl _ (fun s x hord' => ?_) _ ?_) | split)
@[simp] theorem State.cutDrain_ord {base : State} (s : State) (w : Work) (i : Item) (hord : Orderly base s) :
    Orderly base (State.cutDrain s w i) := by
  unfold State.cutDrain
  try dsimp only
  repeat' (first | with_reducible assumption | (simp (maxDischargeDepth := 50) [*]; done) | (refine orderly_foldl _ (fun s x hord' => ?_) _ ?_) | split)
@[simp] theorem State.cutMuffle_ord {base : State} (s : State) (w : Work) (i : Item) (hord : Orderly base s) :
    Orderly base (State.cutMuffle s w i) := by
  unfold State.cutMuffle
  try dsimp only
  repeat' (first | with_reducible assumption | (simp (maxDischargeDepth := 50) [*]; done) | (refine orderly_foldl _ (fun s x hord' => ?_) _ ?_) | split)
@[simp] theorem State.cutLinks_ord {base : State} (s : State) (w : Work) (i : Item) (hord : Orderly base s) :
    Orderly base (State.cutLinks s w i) := by
  unfold State.cutLinks
  try dsimp only
  repeat' (first | with_reducible assumption | (simp (maxDischargeDepth := 50) [*]; done) | (refine orderly_foldl _ (fun s x hord' => ?_) _ ?_) | split)
@[simp] theorem State.cutReads_ord {base : State} (s : State) (w : Work) (i : Item) (hord : Orderly base s) :
    Orderly base (State.cutReads s w i) := by
  unfold State.cutReads
  try dsimp only
  repeat' (first | with_reducible assumption | (simp (maxDischargeDepth := 50) [*]; done) | (refine orderly_foldl _ (fun s x hord' => ?_) _ ?_) | split)
@[simp] theorem State.cutRoots_ord {base : State} (s : State) (w : Work) (i : Item) (hord : Orderly base s) :
    Orderly base (State.cutRoots s w i) := by
  unfold State.cutRoots
  try dsimp only
  repeat' (first | with_reducible assumption | (simp (maxDischargeDepth := 50) [*]; done) | (refine orderly_foldl _ (fun s x hord' => ?_) _ ?_) | split)
@[simp] theorem State.cutSlots_ord {base : State} (s : State) (w : Work) (i : Item) (hord : Orderly base s) :
    Orderly base (State.cutSlots s w i) := by
  unfold State.cutSlots
  try dsimp only
  repeat' (first | with_reducible assumption | (simp (maxDischargeDepth := 50) [*]; done) | (refine orderly_foldl _ (fun s x hord' => ?_) _ ?_) | split)
@[simp] theorem State.cutBuffers_ord {base : State} (s : State) (w : Work) (i : Item) (hord : Orderly base s) :
    Orderly base (State.cutBuffers s w i) := by
  unfold State.cutBuffers
  try dsimp only
  repeat' (first | with_reducible assumption | (simp (maxDischargeDepth := 50) [*]; done) | (refine orderly_foldl _ (fun s x hord' => ?_) _ ?_) | split)
@[simp] theorem State.cutLost_ord {base : State} (s : State) (i : Item) (hord : Orderly base s) :
    Orderly base (State.cutLost s i) := by
  unfold State.cutLost
  try dsimp only
  repeat' (first | with_reducible assumption | (simp (maxDischargeDepth := 50) [*]; done) | (refine orderly_foldl _ (fun s x hord' => ?_) _ ?_) | split)
@[simp] theorem State.cutRetain_ord {base : State} (s : State) (i : Item) (status : Nat) (hord : Orderly base s) :
    Orderly base (State.cutRetain s i status) := by
  unfold State.cutRetain
  try dsimp only
  repeat' (first | with_reducible assumption | (simp (maxDischargeDepth := 50) [*]; done) | (refine orderly_foldl _ (fun s x hord' => ?_) _ ?_) | split)
@[simp] theorem State.cutSummarise_ord {base : State} (s : State) (w : Work) (i : Item) (hord : Orderly base s) :
    Orderly base (State.cutSummarise s w i) := by
  unfold State.cutSummarise
  try dsimp only
  repeat' (first | with_reducible assumption | (simp (maxDischargeDepth := 50) [*]; done) | (refine orderly_foldl _ (fun s x hord' => ?_) _ ?_) | split)
@[simp] theorem cutRep_ord {base : State} (x0 : State) (x1 : Work) (x2 : Item) (x3 : Status) (hord : Orderly base x0) :
    Orderly base (cutRep x0 x1 x2 x3).1 := by
  unfold cutRep
  try dsimp only
  repeat' (first | with_reducible assumption | (simp (maxDischargeDepth := 50) [*]; done) | (refine orderly_foldl _ (fun s x hord' => ?_) _ ?_) | split)
@[simp] theorem execCutStoppedPoll_ord {base : State} (f : Nat) (s : State) (hord : Orderly base s) :
    OrdOut base (execCutStoppedPoll f s) := by
  unfold execCutStoppedPoll
  try dsimp only
  repeat' (first | with_reducible assumption | (simp (maxDischargeDepth := 50) [*]; done) | (refine orderly_foldl _ (fun s x hord' => ?_) _ ?_) | split)
@[simp] theorem execDrainPoll_ord {base : State} (s : State) (hord : Orderly base s) :
    OrdOut base (execDrainPoll s) := by
  unfold execDrainPoll
  try dsimp only
  repeat' (first | with_reducible assumption | (simp (maxDischargeDepth := 50) [*]; done) | (refine orderly_foldl _ (fun s x hord' => ?_) _ ?_) | split)
@[simp] theorem execDrainDeadline_ord {base : State} (s : State) (hord : Orderly base s) :
    OrdOut base (execDrainDeadline s) := by
  unfold execDrainDeadline
  try dsimp only
  repeat' (first | with_reducible assumption | (simp (maxDischargeDepth := 50) [*]; done) | (refine orderly_foldl _ (fun s x hord' => ?_) _ ?_) | split)
@[simp] theorem execLinkPoll_ord {base : State} (s : State) (hord : Orderly base s) :
    OrdOut base (execLinkPoll s) := by
  unfold execLinkPoll
  try dsimp only
  repeat' (first | with_reducible assumption | (simp (maxDischargeDepth := 50) [*]; done) | (refine orderly_foldl _ (fun s x hord' => ?_) _ ?_) | split)
@[simp] theorem execLinkLimitExpiry_ord {base : State} (s : State) (hord : Orderly base s) :
    OrdOut base (execLinkLimitExpiry s) := by
  unfold execLinkLimitExpiry
  try dsimp only
  repeat' (first | with_reducible assumption | (simp (maxDischargeDepth := 50) [*]; done) | (refine orderly_foldl _ (fun s x hord' => ?_) _ ?_) | split)
@[simp] theorem State.ctxAccess_ord {base : State} (s : State) (w : Work) (i : Item) (hord : Orderly base s) :
    Orderly base (State.ctxAccess s w i) := by
  unfold State.ctxAccess
  try dsimp only
  repeat' (first | with_reducible assumption | (simp (maxDischargeDepth := 50) [*]; done) | (refine orderly_foldl _ (fun s x hord' => ?_) _ ?_) | split)
@[simp] theorem regAdv_ord {base : State} (x0 : State) (x1 : Work) (x2 : Item) (hord : Orderly base x0) :
    Orderly base (regAdv x0 x1 x2) := by
  unfold regAdv
  try dsimp only
  repeat' (first | with_reducible assumption | (simp (maxDischargeDepth := 50) [*]; done) | (refine orderly_foldl _ (fun s x hord' => ?_) _ ?_) | split)
@[simp] theorem State.rePlan_ord {base : State} (s : State) (a : Nat) (n : Nat) (hord : Orderly base s) :
    Orderly base (State.rePlan s a n) := by
  unfold State.rePlan
  try dsimp only
  repeat' (first | with_reducible assumption | (simp (maxDischargeDepth := 50) [*]; done) | (refine orderly_foldl _ (fun s x hord' => ?_) _ ?_) | split)
@[simp] theorem State.spoil_ord {base : State} (s : State) (a : Nat) (n : Nat) (hord : Orderly base s) :
    Orderly base (State.spoil s a n) := by
  unfold State.spoil
  try dsimp only
  repeat' (first | with_reducible assumption | (simp (maxDischargeDepth := 50) [*]; done) | (refine orderly_foldl _ (fun s x hord' => ?_) _ ?_) | split)
@[simp] theorem State.hubWrite_ord {base : State} (s : State) (a : Nat) (v : List Byte) (hord : Orderly base s) :
    Orderly base (State.hubWrite s a v) := by
  unfold State.hubWrite
  try dsimp only
  repeat' (first | with_reducible assumption | (simp (maxDischargeDepth := 50) [*]; done) | (refine orderly_foldl _ (fun s x hord' => ?_) _ ?_) | split)
@[simp] theorem State.batchNow_ord {base : State} (s : State) (d : BitVec 512) (at_ : Nat) (v : List Byte) (hord : Orderly base s) :
    Orderly base (State.batchNow s d at_ v) := by
  unfold State.batchNow; split <;> first | exact State.hostWrite_ord _ _ _ _ hord | (simp [hord]; done)
@[simp] theorem State.moveBatch_ord {base : State} (s : State) (w : Work) (i : Item) (hord : Orderly base s) :
    Orderly base (State.moveBatch s w i) := by
  unfold State.moveBatch
  try dsimp only
  repeat' (first | with_reducible assumption | (simp (maxDischargeDepth := 50) [*]; done) | (refine orderly_foldl _ (fun s x hord' => ?_) _ ?_) | split)
@[simp] theorem memAdv_ord {base : State} (x0 : State) (x1 : Work) (x2 : Item) (hord : Orderly base x0) :
    Orderly base (memAdv x0 x1 x2) := by
  unfold memAdv; split <;> first | exact State.hostWrite_ord _ _ _ _ hord | (simp [hord]; done)
@[simp] theorem memRep_ord {base : State} (x0 : State) (x1 : Work) (x2 : Item) (x3 : Status) (hord : Orderly base x0) :
    Orderly base (memRep x0 x1 x2 x3).1 := by
  unfold memRep
  try dsimp only
  repeat' (first | with_reducible assumption | (simp (maxDischargeDepth := 50) [*]; done) | (refine orderly_foldl _ (fun s x hord' => ?_) _ ?_) | split)
@[simp] theorem State.abortWake_ord {base : State} (s : State) (n : Nat) (hord : Orderly base s) :
    Orderly base (State.abortWake s n) := by
  unfold State.abortWake
  try dsimp only
  repeat' (first | with_reducible assumption | (simp (maxDischargeDepth := 50) [*]; done) | (refine orderly_foldl _ (fun s x hord' => ?_) _ ?_) | split)
@[simp] theorem State.dumpToc_ord {base : State} (s : State) (w : Work) (i : Item) (n : Nat) (hord : Orderly base s) :
    Orderly base (State.dumpToc s w i n) := by
  unfold State.dumpToc
  try dsimp only
  repeat' (first | with_reducible assumption | (simp (maxDischargeDepth := 50) [*]; done) | (refine orderly_foldl _ (fun s x hord' => ?_) _ ?_) | split)
@[simp] theorem State.dumpHeader_ord {base : State} (s : State) (w : Work) (i : Item) (n : Nat) (hord : Orderly base s) :
    Orderly base (State.dumpHeader s w i n) := by
  unfold State.dumpHeader; split <;> first | exact State.hostWrite_ord _ _ _ _ hord | (simp [hord]; done)
@[simp] theorem planNote_ord {base : State} (s : State) (w : Work) (i : Item) (hord : Orderly base s) :
    Orderly base (planNote s w i) := by
  unfold planNote; split <;> first | exact State.hostWrite_ord _ _ _ _ hord | (simp [hord]; done)
@[simp] theorem State.putPlan_ord {base : State} (s : State) (id : Nat) (p : List Region) (hord : Orderly base s) :
    Orderly base (State.putPlan s id p) := by
  unfold State.putPlan
  try dsimp only
  repeat' (first | with_reducible assumption | (simp (maxDischargeDepth := 50) [*]; done) | (refine orderly_foldl _ (fun s x hord' => ?_) _ ?_) | split)
@[simp] theorem planAdv_ord {base : State} (x0 : State) (x1 : Work) (x2 : Item) (hord : Orderly base x0) :
    Orderly base (planAdv x0 x1 x2) := by
  unfold planAdv
  try dsimp only
  repeat' (first | with_reducible assumption | (simp (maxDischargeDepth := 50) [*]; done) | (refine orderly_foldl _ (fun s x hord' => ?_) _ ?_) | split)
@[simp] theorem State.newCtx_ord {base : State} (s : State) (n : Nat) (d : BitVec 512) (w : Work) (tensor : Bool) (survival : Bool) (hord : Orderly base s) :
    Orderly base (State.newCtx s n d w tensor survival) := by
  unfold State.newCtx
  try dsimp only
  repeat' (first | with_reducible assumption | (simp (maxDischargeDepth := 50) [*]; done) | (refine orderly_foldl _ (fun s x hord' => ?_) _ ?_) | split)
@[simp] theorem State.armSurvival_ord {base : State} (s : State) (d : BitVec 512) (hord : Orderly base s) :
    Orderly base (State.armSurvival s d) := by
  unfold State.armSurvival
  try dsimp only
  repeat' (first | with_reducible assumption | (simp (maxDischargeDepth := 50) [*]; done) | (refine orderly_foldl _ (fun s x hord' => ?_) _ ?_) | split)
@[simp] theorem runFirst_ord {base : State} (s : State) (w : Work) (i : Item) (hord : Orderly base s) :
    Orderly base (runFirst s w i) := by
  unfold runFirst
  try dsimp only
  repeat' (first | with_reducible assumption | (simp (maxDischargeDepth := 50) [*]; done) | (refine orderly_foldl _ (fun s x hord' => ?_) _ ?_) | split)
@[simp] theorem State.stopCtx_ord {base : State} (s : State) (n : Nat) (why : Nat) (code : Nat) (hord : Orderly base s) :
    Orderly base (State.stopCtx s n why code) := by
  unfold State.stopCtx; split <;> first | exact State.hostWrite_ord _ _ _ _ hord | (simp [hord]; done)
@[simp] theorem State.finishSuspended_ord {base : State} (s : State) (w : Work) (i : Item) (n : Nat) (hord : Orderly base s) :
    Orderly base (State.finishSuspended s w i n) := by
  unfold State.finishSuspended
  try dsimp only
  repeat' (first | with_reducible assumption | (simp (maxDischargeDepth := 50) [*]; done) | (refine orderly_foldl _ (fun s x hord' => ?_) _ ?_) | split)
@[simp] theorem State.finishFree_ord {base : State} (s : State) (n : Nat) (hord : Orderly base s) :
    Orderly base (State.finishFree s n) := by
  unfold State.finishFree
  try dsimp only
  repeat' (first | with_reducible assumption | (simp (maxDischargeDepth := 50) [*]; done) | (refine orderly_foldl _ (fun s x hord' => ?_) _ ?_) | split)
@[simp] theorem State.dumpDisable_ord {base : State} (s : State) (hord : Orderly base s) :
    Orderly base (State.dumpDisable s) := by
  unfold State.dumpDisable
  try dsimp only
  repeat' (first | with_reducible assumption | (simp (maxDischargeDepth := 50) [*]; done) | (refine orderly_foldl _ (fun s x hord' => ?_) _ ?_) | split)
@[simp] theorem State.dumpEnable_ord {base : State} (s : State) (on : Bool) (hord : Orderly base s) :
    Orderly base (State.dumpEnable s on) := by
  unfold State.dumpEnable; split <;> first | exact State.hostWrite_ord _ _ _ _ hord | (simp [hord]; done)
@[simp] theorem State.drainFirst_ord {base : State} (s : State) (w : Work) (i : Item) (hord : Orderly base s) :
    Orderly base (State.drainFirst s w i) := by
  unfold State.drainFirst; split <;> first | exact State.hostWrite_ord _ _ _ _ hord | (simp [hord]; done)
@[simp] theorem State.drainBatch_ord {base : State} (s : State) (w : Work) (i : Item) (hord : Orderly base s) :
    Orderly base (State.drainBatch s w i) := by
  unfold State.drainBatch
  try dsimp only
  repeat' (first | with_reducible assumption | (simp (maxDischargeDepth := 50) [*]; done) | (refine orderly_foldl _ (fun s x hord' => ?_) _ ?_) | split)
@[simp] theorem State.openAll_ord {base : State} (s : State) (w : Work) (i : Item) (hord : Orderly base s) :
    Orderly base (State.openAll s w i) := by
  unfold State.openAll
  try dsimp only
  repeat' (first | with_reducible assumption | (simp (maxDischargeDepth := 50) [*]; done) | (refine orderly_foldl _ (fun s x hord' => ?_) _ ?_) | split)
@[simp] theorem State.openFirst_ord {base : State} (s : State) (w : Work) (i : Item) (hord : Orderly base s) :
    Orderly base (State.openFirst s w i) := by
  unfold State.openFirst
  try dsimp only
  repeat' (first | with_reducible assumption | (simp (maxDischargeDepth := 50) [*]; done) | (refine orderly_foldl _ (fun s x hord' => ?_) _ ?_) | split)
@[simp] theorem drainAdv_ord {base : State} (x0 : State) (x1 : Work) (x2 : Item) (hord : Orderly base x0) :
    Orderly base (drainAdv x0 x1 x2) := by
  unfold drainAdv
  try dsimp only
  repeat' (first | with_reducible assumption | (simp (maxDischargeDepth := 50) [*]; done) | (refine orderly_foldl _ (fun s x hord' => ?_) _ ?_) | split)
@[simp] theorem drainRep_ord {base : State} (x0 : State) (x1 : Work) (x2 : Item) (x3 : Status) (hord : Orderly base x0) :
    Orderly base (drainRep x0 x1 x2 x3).1 := by
  unfold drainRep
  try dsimp only
  repeat' (first | with_reducible assumption | (simp (maxDischargeDepth := 50) [*]; done) | (refine orderly_foldl _ (fun s x hord' => ?_) _ ?_) | split)
@[simp] theorem stopRep_ord {base : State} (x0 : State) (x1 : Work) (x2 : Item) (x3 : Status) (hord : Orderly base x0) :
    Orderly base (stopRep x0 x1 x2 x3).1 := by
  unfold stopRep; split <;> first | exact State.hostWrite_ord _ _ _ _ hord | (simp [hord]; done)
@[simp] theorem State.drainCopy_ord {base : State} (s : State) (w : Work) (i : Item) (n : Nat) (hord : Orderly base s) :
    Orderly base (State.drainCopy s w i n) := by
  unfold State.drainCopy
  try dsimp only
  repeat' (first | with_reducible assumption | (simp (maxDischargeDepth := 50) [*]; done) | (refine orderly_foldl _ (fun s x hord' => ?_) _ ?_) | split)
@[simp] theorem State.finalStep_ord {base : State} (s : State) (w : Work) (i : Item) (hord : Orderly base s) :
    Orderly base (State.finalStep s w i) := by
  unfold State.finalStep
  try dsimp only
  repeat' (first | with_reducible assumption | (simp (maxDischargeDepth := 50) [*]; done) | (refine orderly_foldl _ (fun s x hord' => ?_) _ ?_) | split)
@[simp] theorem State.presentStep_ord {base : State} (s : State) (w : Work) (i : Item) (hord : Orderly base s) :
    Orderly base (State.presentStep s w i) := by
  unfold State.presentStep
  try dsimp only
  repeat' (first | with_reducible assumption | (simp (maxDischargeDepth := 50) [*]; done) | (refine orderly_foldl _ (fun s x hord' => ?_) _ ?_) | split)
@[simp] theorem traceDrainAdv_ord {base : State} (x0 : State) (x1 : Work) (x2 : Item) (hord : Orderly base x0) :
    Orderly base (traceDrainAdv x0 x1 x2) := by
  unfold traceDrainAdv
  try dsimp only
  repeat' (first | with_reducible assumption | (simp (maxDischargeDepth := 50) [*]; done) | (refine orderly_foldl _ (fun s x hord' => ?_) _ ?_) | split)
@[simp] theorem traceDrainRep_ord {base : State} (x0 : State) (x1 : Work) (x2 : Item) (x3 : Status) (hord : Orderly base x0) :
    Orderly base (traceDrainRep x0 x1 x2 x3).1 := by
  unfold traceDrainRep; split <;> first | exact State.hostWrite_ord _ _ _ _ hord | (simp [hord]; done)
@[simp] theorem State.drainTimeout_ord {base : State} (s : State) (n : Nat) (hord : Orderly base s) :
    Orderly base (State.drainTimeout s n) := by
  unfold State.drainTimeout
  try dsimp only
  repeat' (first | with_reducible assumption | (simp (maxDischargeDepth := 50) [*]; done) | (refine orderly_foldl _ (fun s x hord' => ?_) _ ?_) | split)
@[simp] theorem snapAdv_ord {base : State} (x0 : State) (x1 : Work) (x2 : Item) (hord : Orderly base x0) :
    Orderly base (snapAdv x0 x1 x2) := by
  unfold snapAdv
  try dsimp only
  repeat' (first | with_reducible assumption | (simp (maxDischargeDepth := 50) [*]; done) | (refine orderly_foldl _ (fun s x hord' => ?_) _ ?_) | split)
@[simp] theorem snapRep_ord {base : State} (x0 : State) (x1 : Work) (x2 : Item) (x3 : Status) (hord : Orderly base x0) :
    Orderly base (snapRep x0 x1 x2 x3).1 := by
  unfold snapRep
  try dsimp only
  repeat' (first | with_reducible assumption | (simp (maxDischargeDepth := 50) [*]; done) | (refine orderly_foldl _ (fun s x hord' => ?_) _ ?_) | split)
@[simp] theorem State.snapPassed_ord {base : State} (s : State) (n : Nat) (hord : Orderly base s) :
    Orderly base (State.snapPassed s n) := by
  unfold State.snapPassed
  try dsimp only
  repeat' (first | with_reducible assumption | (simp (maxDischargeDepth := 50) [*]; done) | (refine orderly_foldl _ (fun s x hord' => ?_) _ ?_) | split)
@[simp] theorem execTraceStopTimeout_ord {base : State} (w : Nat) (s : State) (hord : Orderly base s) :
    OrdOut base (execTraceStopTimeout w s) := by
  unfold execTraceStopTimeout
  try dsimp only
  repeat' (first | with_reducible assumption | (simp (maxDischargeDepth := 50) [*]; done) | (refine orderly_foldl _ (fun s x hord' => ?_) _ ?_) | split)
@[simp] theorem execTraceDrainTimeout_ord {base : State} (w : Nat) (s : State) (hord : Orderly base s) :
    OrdOut base (execTraceDrainTimeout w s) := by
  unfold execTraceDrainTimeout
  try dsimp only
  repeat' (first | with_reducible assumption | (simp (maxDischargeDepth := 50) [*]; done) | (refine orderly_foldl _ (fun s x hord' => ?_) _ ?_) | split)
@[simp] theorem execSnapAtPassed_ord {base : State} (w : Nat) (s : State) (hord : Orderly base s) :
    OrdOut base (execSnapAtPassed w s) := by
  unfold execSnapAtPassed
  try dsimp only
  repeat' (first | with_reducible assumption | (simp (maxDischargeDepth := 50) [*]; done) | (refine orderly_foldl _ (fun s x hord' => ?_) _ ?_) | split)
@[simp] theorem State.syncCheck_ord {base : State} (s : State) (hord : Orderly base s) :
    Orderly base (State.syncCheck s) := by
  unfold State.syncCheck
  try dsimp only
  repeat' (first | with_reducible assumption | (simp (maxDischargeDepth := 50) [*]; done) | (refine orderly_foldl _ (fun s x hord' => ?_) _ ?_) | split)
@[simp] theorem State.ctlClocked_ord {base : State} (s : State) (f : State → State) (hf : ∀ (a0 : State), Orderly base a0 → Orderly base (f a0)) (hord : Orderly base s) :
    OrdOut base (State.ctlClocked s f) := by
  unfold State.ctlClocked
  try dsimp only
  repeat' (first | with_reducible assumption | (simp (maxDischargeDepth := 50) [*]; done) | (refine orderly_foldl _ (fun s x hord' => ?_) _ ?_) | split)
@[simp] theorem execSyncApply_ord {base : State} (f : Nat) (s : State) (hord : Orderly base s) :
    OrdOut base (execSyncApply f s) := by
  unfold execSyncApply
  try dsimp only
  repeat' (first | with_reducible assumption | (simp (maxDischargeDepth := 50) [*]; done) | (refine orderly_foldl _ (fun s x hord' => ?_) _ ?_) | split)
@[simp] theorem execRead_ord {base : State} (k : Nat) (s : State) (hord : Orderly base s) :
    OrdOut base (execRead k s) := by
  unfold execRead
  try dsimp only
  repeat' (first | with_reducible assumption | (simp (maxDischargeDepth := 50) [*]; done) | (refine orderly_foldl _ (fun s x hord' => ?_) _ ?_) | split)
@[simp] theorem execAlertAck_ord {base : State} (k : Nat) (s : State) (hord : Orderly base s) :
    OrdOut base (execAlertAck k s) := by
  unfold execAlertAck
  try dsimp only
  repeat' (first | with_reducible assumption | (simp (maxDischargeDepth := 50) [*]; done) | (refine orderly_foldl _ (fun s x hord' => ?_) _ ?_) | split)
@[simp] theorem execProbe_ord {base : State} (k : Nat) (s : State) (hord : Orderly base s) :
    OrdOut base (execProbe k s) := by
  unfold execProbe
  try dsimp only
  repeat' (first | with_reducible assumption | (simp (maxDischargeDepth := 50) [*]; done) | (refine orderly_foldl _ (fun s x hord' => ?_) _ ?_) | split)
@[simp] theorem State.chainEnd_ord {base : State} (s : State) (w : Work) (i : Item) (det : Nat) (hord : Orderly base s) :
    Orderly base (State.chainEnd s w i det) := by
  unfold State.chainEnd; split <;> first | exact State.hostWrite_ord _ _ _ _ hord | (simp [hord]; done)
@[simp] theorem State.discoverSettle_ord {base : State} (s : State) (n : Nat) (hord : Orderly base s) :
    Orderly base (State.discoverSettle s n) := by
  unfold State.discoverSettle
  try dsimp only
  repeat' (first | with_reducible assumption | (simp (maxDischargeDepth := 50) [*]; done) | (refine orderly_foldl _ (fun s x hord' => ?_) _ ?_) | split)
@[simp] theorem State.topoTake_ord {base : State} (s : State) (m : Nat) (i : Item) (hord : Orderly base s) :
    Orderly base (State.topoTake s m i) := by
  unfold State.topoTake
  try dsimp only
  repeat' (first | with_reducible assumption | (simp (maxDischargeDepth := 50) [*]; done) | (refine orderly_foldl _ (fun s x hord' => ?_) _ ?_) | split)
@[simp] theorem State.topoBuild_ord {base : State} (s : State) (m : Nat) (i : Item) (hord : Orderly base s) :
    Orderly base (State.topoBuild s m i) := by
  unfold State.topoBuild
  try dsimp only
  repeat' (first | with_reducible assumption | (simp (maxDischargeDepth := 50) [*]; done) | (refine orderly_foldl _ (fun s x hord' => ?_) _ ?_) | split)
@[simp] theorem State.discoverCore_ord {base : State} (s : State) (hord : Orderly base s) :
    Orderly base (State.discoverCore s) := by
  unfold State.discoverCore
  try dsimp only
  repeat' (first | with_reducible assumption | (simp (maxDischargeDepth := 50) [*]; done) | (refine orderly_foldl _ (fun s x hord' => ?_) _ ?_) | split)
@[simp] theorem State.recalibrate_ord {base : State} (s : State) (k : Nat) (hord : Orderly base s) :
    Orderly base (State.recalibrate s k) := by
  unfold State.recalibrate
  try dsimp only
  repeat' (first | with_reducible assumption | (simp (maxDischargeDepth := 50) [*]; done) | (refine orderly_foldl _ (fun s x hord' => ?_) _ ?_) | split)
@[simp] theorem execDiscoverSettle_ord {base : State} (w : Nat) (s : State) (hord : Orderly base s) :
    OrdOut base (execDiscoverSettle w s) := by
  unfold execDiscoverSettle
  try dsimp only
  repeat' (first | with_reducible assumption | (simp (maxDischargeDepth := 50) [*]; done) | (refine orderly_foldl _ (fun s x hord' => ?_) _ ?_) | split)
@[simp] theorem postAdv_ord {base : State} (kind : Nat) (n : Nat) (x2 : State) (x3 : Work) (x4 : Item) (hord : Orderly base x2) :
    Orderly base (postAdv kind n x2 x3 x4) := by
  unfold postAdv
  try dsimp only
  repeat' (first | with_reducible assumption | (simp (maxDischargeDepth := 50) [*]; done) | (refine orderly_foldl _ (fun s x hord' => ?_) _ ?_) | split)
@[simp] theorem dropAdv_ord {base : State} (x0 : State) (x1 : Work) (x2 : Item) (hord : Orderly base x0) :
    Orderly base (dropAdv x0 x1 x2) := by
  unfold dropAdv; split <;> first | exact State.hostWrite_ord _ _ _ _ hord | (simp [hord]; done)
@[simp] theorem State.stageResult_ord {base : State} (s : State) (r : Nat) (hord : Orderly base s) :
    Orderly base (State.stageResult s r) := by
  unfold State.stageResult
  try dsimp only
  repeat' (first | with_reducible assumption | (simp (maxDischargeDepth := 50) [*]; done) | (refine orderly_foldl _ (fun s x hord' => ?_) _ ?_) | split)
@[simp] theorem State.slotReg_ord {base : State} (s : State) (x : Nat) (v : Nat) (hord : Orderly base s) :
    Orderly base (State.slotReg s x v) := by
  unfold State.slotReg; split <;> first | exact State.hostWrite_ord _ _ _ _ hord | (simp [hord]; done)
@[simp] theorem State.stageWrite_ord {base : State} (s : State) (w : Work) (i : Item) (hord : Orderly base s) :
    Orderly base (State.stageWrite s w i) := by
  unfold State.stageWrite
  try dsimp only
  repeat' (first | with_reducible assumption | (simp (maxDischargeDepth := 50) [*]; done) | (refine orderly_foldl _ (fun s x hord' => ?_) _ ?_) | split)
@[simp] theorem stageAdv_ord {base : State} (x0 : State) (x1 : Work) (x2 : Item) (hord : Orderly base x0) :
    Orderly base (stageAdv x0 x1 x2) := by
  unfold stageAdv
  try dsimp only
  repeat' (first | with_reducible assumption | (simp (maxDischargeDepth := 50) [*]; done) | (refine orderly_foldl _ (fun s x hord' => ?_) _ ?_) | split)
@[simp] theorem State.coreDone_ord {base : State} (s : State) (hord : Orderly base s) :
    Orderly base (State.coreDone s) := by
  unfold State.coreDone
  try dsimp only
  repeat' (first | with_reducible assumption | (simp (maxDischargeDepth := 50) [*]; done) | (refine orderly_foldl _ (fun s x hord' => ?_) _ ?_) | split)
@[simp] theorem tensorNote_ord {base : State} (s : State) (w : Work) (i : Item) (hord : Orderly base s) :
    Orderly base (tensorNote s w i) := by
  unfold tensorNote
  try dsimp only
  repeat' (first | with_reducible assumption | (simp (maxDischargeDepth := 50) [*]; done) | (refine orderly_foldl _ (fun s x hord' => ?_) _ ?_) | split)
@[simp] theorem State.cacheFill_ord {base : State} (s : State) (i : Item) (slot : Nat) (hord : Orderly base s) :
    Orderly base (State.cacheFill s i slot) := by
  unfold State.cacheFill
  try dsimp only
  repeat' (first | with_reducible assumption | (simp (maxDischargeDepth := 50) [*]; done) | (refine orderly_foldl _ (fun s x hord' => ?_) _ ?_) | split)
@[simp] theorem shardInvalAdv_ord {base : State} (x0 : State) (x1 : Work) (x2 : Item) (hord : Orderly base x0) :
    Orderly base (shardInvalAdv x0 x1 x2) := by
  unfold shardInvalAdv
  try dsimp only
  repeat' (first | with_reducible assumption | (simp (maxDischargeDepth := 50) [*]; done) | (refine orderly_foldl _ (fun s x hord' => ?_) _ ?_) | split)
@[simp] theorem State.probeSlot_ord {base : State} (s : State) (w : Work) (i : Item) (hord : Orderly base s) :
    Orderly base (State.probeSlot s w i) := by
  unfold State.probeSlot
  try dsimp only
  repeat' (first | with_reducible assumption | (simp (maxDischargeDepth := 50) [*]; done) | (refine orderly_foldl _ (fun s x hord' => ?_) _ ?_) | split)
@[simp] theorem State.shardsRead_ord {base : State} (s : State) (w : Work) (i : Item) (hord : Orderly base s) :
    Orderly base (State.shardsRead s w i) := by
  unfold State.shardsRead
  try dsimp only
  repeat' (first | with_reducible assumption | (simp (maxDischargeDepth := 50) [*]; done) | (refine orderly_foldl _ (fun s x hord' => ?_) _ ?_) | split)
@[simp] theorem State.resolveSources_ord {base : State} (s : State) (w : Work) (i : Item) (n : Nat) (hord : Orderly base s) :
    Orderly base (State.resolveSources s w i n) := by
  unfold State.resolveSources
  try dsimp only
  repeat' (first | with_reducible assumption | (simp (maxDischargeDepth := 50) [*]; done) | (refine orderly_foldl _ (fun s x hord' => ?_) _ ?_) | split)
@[simp] theorem tensorFirst_ord {base : State} (s : State) (w : Work) (i : Item) (hord : Orderly base s) :
    Orderly base (tensorFirst s w i) := by
  unfold tensorFirst
  try dsimp only
  repeat' (first | with_reducible assumption | (simp (maxDischargeDepth := 50) [*]; done) | (refine orderly_foldl _ (fun s x hord' => ?_) _ ?_) | split)
@[simp] theorem State.epochRetry_ord {base : State} (s : State) (n : Nat) (hord : Orderly base s) :
    Orderly base (State.epochRetry s n) := by
  unfold State.epochRetry
  try dsimp only
  repeat' (first | with_reducible assumption | (simp (maxDischargeDepth := 50) [*]; done) | (refine orderly_foldl _ (fun s x hord' => ?_) _ ?_) | split)
@[simp] theorem execSmapEpochRetry_ord {base : State} (w : Nat) (s : State) (hord : Orderly base s) :
    OrdOut base (execSmapEpochRetry w s) := by
  unfold execSmapEpochRetry
  try dsimp only
  repeat' (first | with_reducible assumption | (simp (maxDischargeDepth := 50) [*]; done) | (refine orderly_foldl _ (fun s x hord' => ?_) _ ?_) | split)
@[simp] theorem State.sleepPost_ord {base : State} (s : State) (w : Work) (i : Item) (hord : Orderly base s) :
    Orderly base (State.sleepPost s w i) := by
  unfold State.sleepPost
  try dsimp only
  repeat' (first | with_reducible assumption | (simp (maxDischargeDepth := 50) [*]; done) | (refine orderly_foldl _ (fun s x hord' => ?_) _ ?_) | split)
@[simp] theorem execSleepCommit_ord {base : State} (s : State) (hord : Orderly base s) :
    OrdOut base (execSleepCommit s) := by
  unfold execSleepCommit
  try dsimp only
  repeat' (first | with_reducible assumption | (simp (maxDischargeDepth := 50) [*]; done) | (refine orderly_foldl _ (fun s x hord' => ?_) _ ?_) | split)
@[simp] theorem execWake_ord {base : State} (s : State) (hord : Orderly base s) :
    OrdOut base (execWake s) := by
  unfold execWake
  try dsimp only
  repeat' (first | with_reducible assumption | (simp (maxDischargeDepth := 50) [*]; done) | (refine orderly_foldl _ (fun s x hord' => ?_) _ ?_) | split)
@[simp] theorem execPwrTimerExpiry_ord {base : State} (s : State) (hord : Orderly base s) :
    OrdOut base (execPwrTimerExpiry s) := by
  unfold execPwrTimerExpiry
  try dsimp only
  repeat' (first | with_reducible assumption | (simp (maxDischargeDepth := 50) [*]; done) | (refine orderly_foldl _ (fun s x hord' => ?_) _ ?_) | split)
@[simp] theorem State.latchHi_ord {base : State} (s : State) (o : Nat) (hord : Orderly base s) :
    Orderly base (State.latchHi s o) := by
  unfold State.latchHi
  try dsimp only
  repeat' (first | with_reducible assumption | (simp (maxDischargeDepth := 50) [*]; done) | (refine orderly_foldl _ (fun s x hord' => ?_) _ ?_) | split)
@[simp] theorem State.survDump_ord {base : State} (s : State) (hord : Orderly base s) :
    Orderly base (State.survDump s) := by
  unfold State.survDump
  try dsimp only
  repeat' (first | with_reducible assumption | (simp (maxDischargeDepth := 50) [*]; done) | (refine orderly_foldl _ (fun s x hord' => ?_) _ ?_) | split)
@[simp] theorem State.addGasp_ord {base : State} (s : State) (hord : Orderly base s) :
    Orderly base (State.addGasp s) := by
  unfold State.addGasp
  try dsimp only
  repeat' (first | with_reducible assumption | (simp (maxDischargeDepth := 50) [*]; done) | (refine orderly_foldl _ (fun s x hord' => ?_) _ ?_) | split)
@[simp] theorem State.gaspOver_ord {base : State} (s : State) (hord : Orderly base s) :
    Orderly base (State.gaspOver s) := by
  unfold State.gaspOver
  try dsimp only
  repeat' (first | with_reducible assumption | (simp (maxDischargeDepth := 50) [*]; done) | (refine orderly_foldl _ (fun s x hord' => ?_) _ ?_) | split)
@[simp] theorem State.survivalEnd_ord {base : State} (s : State) (hord : Orderly base s) :
    Orderly base (State.survivalEnd s) := by
  unfold State.survivalEnd; split <;> first | exact State.hostWrite_ord _ _ _ _ hord | (simp [hord]; done)
@[simp] theorem State.holdUpEnd_ord {base : State} (s : State) (hord : Orderly base s) :
    Orderly base (State.holdUpEnd s) := by
  unfold State.holdUpEnd; split <;> first | exact State.hostWrite_ord _ _ _ _ hord | (simp [hord]; done)
@[simp] theorem execSurvivalEnd_ord {base : State} (s : State) (hord : Orderly base s) :
    OrdOut base (execSurvivalEnd s) := by
  unfold execSurvivalEnd
  try dsimp only
  repeat' (first | with_reducible assumption | (simp (maxDischargeDepth := 50) [*]; done) | (refine orderly_foldl _ (fun s x hord' => ?_) _ ?_) | split)
@[simp] theorem execHoldUpEnd_ord {base : State} (s : State) (hord : Orderly base s) :
    OrdOut base (execHoldUpEnd s) := by
  unfold execHoldUpEnd
  try dsimp only
  repeat' (first | with_reducible assumption | (simp (maxDischargeDepth := 50) [*]; done) | (refine orderly_foldl _ (fun s x hord' => ?_) _ ?_) | split)
@[simp] theorem State.cfgRead_ord {base : State} (s : State) (off : Nat) (size : Nat) (hord : Orderly base s) :
    Orderly base (State.cfgRead s off size).2 := by
  unfold State.cfgRead
  try dsimp only
  repeat' (first | with_reducible assumption | (simp (maxDischargeDepth := 50) [*]; done) | (refine orderly_foldl _ (fun s x hord' => ?_) _ ?_) | split)
@[simp] theorem State.misuse_ord {base : State} (s : State) (m : Nat × Bool) (hord : Orderly base s) :
    Orderly base (State.misuse s m) := by
  unfold State.misuse; split <;> first | exact State.hostWrite_ord _ _ _ _ hord | (simp [hord]; done)
@[simp] theorem State.recover_ord {base : State} (s : State) (off : Nat) (write : Bool) (hord : Orderly base s) :
    Orderly base (State.recover s off write) := by
  unfold State.recover
  try dsimp only
  repeat' (first | with_reducible assumption | (simp (maxDischargeDepth := 50) [*]; done) | (refine orderly_foldl _ (fun s x hord' => ?_) _ ?_) | split)
@[simp] theorem hubWrite0_ord {base : State} (s : State) (o : Nat) (v : Nat) (hord : Orderly base s) :
    Orderly base (hubWrite0 s o v) := by
  unfold hubWrite0
  try dsimp only
  repeat' (first | with_reducible assumption | (simp (maxDischargeDepth := 50) [*]; done) | (refine orderly_foldl _ (fun s x hord' => ?_) _ ?_) | split)
@[simp] theorem pwrWrite_ord {base : State} (s : State) (o : Nat) (v : Nat) (hord : Orderly base s) :
    Orderly base (pwrWrite s o v) := by
  unfold pwrWrite
  try dsimp only
  repeat' (first | with_reducible assumption | (simp (maxDischargeDepth := 50) [*]; done) | (refine orderly_foldl _ (fun s x hord' => ?_) _ ?_) | split)
@[simp] theorem authWrite_ord {base : State} (s : State) (o : Nat) (v : Nat) (hord : Orderly base s) :
    Orderly base (authWrite s o v) := by
  unfold authWrite; split <;> first | exact State.hostWrite_ord _ _ _ _ hord | (simp [hord]; done)
@[simp] theorem State.routeWrite_ord {base : State} (s : State) (m : Nat) (v : Nat) (hord : Orderly base s) :
    Orderly base (State.routeWrite s m v) := by
  unfold State.routeWrite
  try dsimp only
  repeat' (first | with_reducible assumption | (simp (maxDischargeDepth := 50) [*]; done) | (refine orderly_foldl _ (fun s x hord' => ?_) _ ?_) | split)
@[simp] theorem bhvWrite_ord {base : State} (s : State) (o : Nat) (v : Nat) (hord : Orderly base s) :
    Orderly base (bhvWrite s o v) := by
  unfold bhvWrite
  try dsimp only
  repeat' (first | with_reducible assumption | (simp (maxDischargeDepth := 50) [*]; done) | (refine orderly_foldl _ (fun s x hord' => ?_) _ ?_) | split)
@[simp] theorem runWrite_ord {base : State} (s : State) (o : Nat) (v : Nat) (hord : Orderly base s) :
    Orderly base (runWrite s o v) := by
  unfold runWrite
  try dsimp only
  repeat' (first | with_reducible assumption | (simp (maxDischargeDepth := 50) [*]; done) | (refine orderly_foldl _ (fun s x hord' => ?_) _ ?_) | split)
@[simp] theorem synWrite_ord {base : State} (s : State) (o : Nat) (size : Nat) (v : Nat) (hord : Orderly base s) :
    Orderly base (synWrite s o size v) := by
  unfold synWrite
  try dsimp only
  repeat' (first | with_reducible assumption | (simp (maxDischargeDepth := 50) [*]; done) | (refine orderly_foldl _ (fun s x hord' => ?_) _ ?_) | split)
@[simp] theorem State.bar0Read_ord {base : State} (s : State) (off : Nat) (size : Nat) (hord : Orderly base s) :
    Orderly base (State.bar0Read s off size).2 := by
  unfold State.bar0Read
  try dsimp only
  repeat' (first | with_reducible assumption | (simp (maxDischargeDepth := 50) [*]; done) | (refine orderly_foldl _ (fun s x hord' => ?_) _ ?_) | split)
@[simp] theorem State.sendPending_ord {base : State} (s : State) (hord : Orderly base s) :
    Orderly base (State.sendPending s) := by
  unfold State.sendPending
  try dsimp only
  repeat' (first | with_reducible assumption | (simp (maxDischargeDepth := 50) [*]; done) | (refine orderly_foldl _ (fun s x hord' => ?_) _ ?_) | split)
@[simp] theorem State.msixWrite_ord {base : State} (s : State) (o : Nat) (size : Nat) (v : Nat) (hord : Orderly base s) :
    Orderly base (State.msixWrite s o size v) := by
  unfold State.msixWrite
  try dsimp only
  repeat' (first | with_reducible assumption | (simp (maxDischargeDepth := 50) [*]; done) | (refine orderly_foldl _ (fun s x hord' => ?_) _ ?_) | split)
@[simp] theorem State.hostTake_ord {base : State} (s : State) (off : Nat) (size : Nat) (hord : Orderly base s) :
    Orderly base (State.hostTake s off size) := by
  unfold State.hostTake
  try dsimp only
  repeat' (first | with_reducible assumption | (simp (maxDischargeDepth := 50) [*]; done) | (refine orderly_foldl _ (fun s x hord' => ?_) _ ?_) | split)
@[simp] theorem State.hold_ord {base : State} (s : State) (h : Held) (bell : Bool) (hord : Orderly base s) :
    Orderly base (State.hold s h bell) := by
  unfold State.hold
  try dsimp only
  repeat' (first | with_reducible assumption | (simp (maxDischargeDepth := 50) [*]; done) | (refine orderly_foldl _ (fun s x hord' => ?_) _ ?_) | split)
@[simp] theorem State.linkUse_ord {base : State} (s : State) (hord : Orderly base s) :
    Orderly base (State.linkUse s) := by
  unfold State.linkUse
  try dsimp only
  repeat' (first | with_reducible assumption | (simp (maxDischargeDepth := 50) [*]; done) | (refine orderly_foldl _ (fun s x hord' => ?_) _ ?_) | split)
@[simp] theorem State.hostRead_ord {base : State} (s : State) (off : Nat) (size : Nat) (hord : Orderly base s) :
    OrdOut base (State.hostRead s off size) := by
  unfold State.hostRead
  try dsimp only
  repeat' (first | with_reducible assumption | (simp (maxDischargeDepth := 50) [*]; done) | (refine orderly_foldl _ (fun s x hord' => ?_) _ ?_) | split)
@[simp] theorem State.warnHook_ord {base : State} (s : State) (hord : Orderly base s) :
    Orderly base (State.warnHook s) := by
  unfold State.warnHook; split <;> first | exact State.hostWrite_ord _ _ _ _ hord | (simp [hord]; done)
@[simp] theorem execSynReadLo_ord {base : State} (k : Nat) (size : Nat) (s : State) (hord : Orderly base s) :
    OrdOut base (execSynReadLo k size s) := by
  unfold execSynReadLo; split <;> first | exact State.hostWrite_ord _ _ _ _ hord | (simp [hord]; done)
@[simp] theorem execHiLatchRead_ord {base : State} (off : Nat) (size : Nat) (s : State) (hord : Orderly base s) :
    OrdOut base (execHiLatchRead off size s) := by
  unfold execHiLatchRead
  try dsimp only
  repeat' (first | with_reducible assumption | (simp (maxDischargeDepth := 50) [*]; done) | (refine orderly_foldl _ (fun s x hord' => ?_) _ ?_) | split)
@[simp] theorem execChipReset_ord {base : State} (f : Nat) (s : State) (hord : Orderly base s) :
    OrdOut base (execChipReset f s) := by
  unfold execChipReset
  try dsimp only
  repeat' (first | with_reducible assumption | (simp (maxDischargeDepth := 50) [*]; done) | (refine orderly_foldl _ (fun s x hord' => ?_) _ ?_) | split)
@[simp] theorem execChipReady_ord {base : State} (f : Nat) (s : State) (hord : Orderly base s) :
    OrdOut base (execChipReady f s) := by
  unfold execChipReady
  try dsimp only
  repeat' (first | with_reducible assumption | (simp (maxDischargeDepth := 50) [*]; done) | (refine orderly_foldl _ (fun s x hord' => ?_) _ ?_) | split)
@[simp] theorem execTraceFrameSend_ord {base : State} (f : Nat) (s : State) (hord : Orderly base s) :
    OrdOut base (execTraceFrameSend f s) := by
  unfold execTraceFrameSend
  try dsimp only
  repeat' (first | with_reducible assumption | (simp (maxDischargeDepth := 50) [*]; done) | (refine orderly_foldl _ (fun s x hord' => ?_) _ ?_) | split)
@[simp] theorem State.tck_ord {base : State} (s : State) (hord : Orderly base s) :
    Orderly base (State.tck s) := by
  unfold State.tck
  try dsimp only
  repeat' (first | with_reducible assumption | (simp (maxDischargeDepth := 50) [*]; done) | (refine orderly_foldl _ (fun s x hord' => ?_) _ ?_) | split)
@[simp] theorem State.scanRow_ord {base : State} (s : State) (f : State → State) (hf : ∀ (a0 : State), Orderly base a0 → Orderly base (f a0)) (hord : Orderly base s) :
    OrdOut base (State.scanRow s f) := by
  unfold State.scanRow
  try dsimp only
  repeat' (first | with_reducible assumption | (simp (maxDischargeDepth := 50) [*]; done) | (refine orderly_foldl _ (fun s x hord' => ?_) _ ?_) | split)
@[simp] theorem State.setCapture_ord {base : State} (s : State) (v : Nat) (hord : Orderly base s) :
    Orderly base (State.setCapture s v) := by
  unfold State.setCapture
  try dsimp only
  repeat' (first | with_reducible assumption | (simp (maxDischargeDepth := 50) [*]; done) | (refine orderly_foldl _ (fun s x hord' => ?_) _ ?_) | split)
@[simp] theorem State.onSel_ord {base : State} (s : State) (code : Nat) (f : State → State) (hf : ∀ (a0 : State), Orderly base a0 → Orderly base (f a0)) (hord : Orderly base s) :
    Orderly base (State.onSel s code f) := by
  unfold State.onSel
  try dsimp only
  repeat' (first | with_reducible assumption | (simp (maxDischargeDepth := 50) [*]; done) | (refine orderly_foldl _ (fun s x hord' => ?_) _ ?_) | split)
@[simp] theorem State.fastUpdate_ord {base : State} (s : State) (f : State → State) (hf : ∀ (a0 : State), Orderly base a0 → Orderly base (f a0)) (hord : Orderly base s) :
    Orderly base (State.fastUpdate s f) := by
  unfold State.fastUpdate
  try dsimp only
  repeat' (first | with_reducible assumption | (simp (maxDischargeDepth := 50) [*]; done) | (refine orderly_foldl _ (fun s x hord' => ?_) _ ?_) | split)
@[simp] theorem State.fastScan_ord {base : State} (s : State) (f : State → State) (hf : ∀ (a0 : State), Orderly base a0 → Orderly base (f a0)) (hord : Orderly base s) :
    Orderly base (State.fastScan s f) := by
  unfold State.fastScan
  try dsimp only
  repeat' (first | with_reducible assumption | (simp (maxDischargeDepth := 50) [*]; done) | (refine orderly_foldl _ (fun s x hord' => ?_) _ ?_) | split)
@[simp] theorem State.scanReset_ord {base : State} (s : State) (hord : Orderly base s) :
    Orderly base (State.scanReset s) := by
  unfold State.scanReset
  try dsimp only
  repeat' (first | with_reducible assumption | (simp (maxDischargeDepth := 50) [*]; done) | (refine orderly_foldl _ (fun s x hord' => ?_) _ ?_) | split)
@[simp] theorem State.captureIr_ord {base : State} (s : State) (hord : Orderly base s) :
    Orderly base (State.captureIr s) := by
  unfold State.captureIr
  try dsimp only
  repeat' (first | with_reducible assumption | (simp (maxDischargeDepth := 50) [*]; done) | (refine orderly_foldl _ (fun s x hord' => ?_) _ ?_) | split)
@[simp] theorem State.boundaryScan_ord {base : State} (s : State) (pads : BitVec 76) (update : BitVec 76) (hord : Orderly base s) :
    Orderly base (State.boundaryScan s pads update) := by
  unfold State.boundaryScan
  try dsimp only
  repeat' (first | with_reducible assumption | (simp (maxDischargeDepth := 50) [*]; done) | (refine orderly_foldl _ (fun s x hord' => ?_) _ ?_) | split)
@[simp] theorem State.hubstatTake_ord {base : State} (s : State) (hord : Orderly base s) :
    Orderly base (State.hubstatTake s) := by
  unfold State.hubstatTake
  try dsimp only
  repeat' (first | with_reducible assumption | (simp (maxDischargeDepth := 50) [*]; done) | (refine orderly_foldl _ (fun s x hord' => ?_) _ ?_) | split)
@[simp] theorem State.hubcmdTake_ord {base : State} (s : State) (hord : Orderly base s) :
    Orderly base (State.hubcmdTake s) := by
  unfold State.hubcmdTake; split <;> first | exact State.hostWrite_ord _ _ _ _ hord | (simp [hord]; done)
@[simp] theorem State.hubcmdPop_ord {base : State} (s : State) (hord : Orderly base s) :
    Orderly base (State.hubcmdPop s) := by
  unfold State.hubcmdPop; split <;> first | exact State.hostWrite_ord _ _ _ _ hord | (simp [hord]; done)
@[simp] theorem State.hubcmdPost_ord {base : State} (s : State) (d : BitVec 512) (hord : Orderly base s) :
    Orderly base (State.hubcmdPost s d) := by
  unfold State.hubcmdPost; split <;> first | exact State.hostWrite_ord _ _ _ _ hord | (simp [hord]; done)
@[simp] theorem State.lcsReqTake_ord {base : State} (s : State) (hord : Orderly base s) :
    Orderly base (State.lcsReqTake s) := by
  unfold State.lcsReqTake
  try dsimp only
  repeat' (first | with_reducible assumption | (simp (maxDischargeDepth := 50) [*]; done) | (refine orderly_foldl _ (fun s x hord' => ?_) _ ?_) | split)
@[simp] theorem State.certTake_ord {base : State} (s : State) (hord : Orderly base s) :
    Orderly base (State.certTake s) := by
  unfold State.certTake; split <;> first | exact State.hostWrite_ord _ _ _ _ hord | (simp [hord]; done)
@[simp] theorem State.drRepeat_ord {base : State} (s : State) (hord : Orderly base s) :
    Orderly base (State.drRepeat s) := by
  unfold State.drRepeat
  try dsimp only
  repeat' (first | with_reducible assumption | (simp (maxDischargeDepth := 50) [*]; done) | (refine orderly_foldl _ (fun s x hord' => ?_) _ ?_) | split)
@[simp] theorem State.dbgGo_ord {base : State} (s : State) (off : Nat) (wr : Bool) (hord : Orderly base s) :
    Orderly base (State.dbgGo s off wr) := by
  unfold State.dbgGo
  try dsimp only
  repeat' (first | with_reducible assumption | (simp (maxDischargeDepth := 50) [*]; done) | (refine orderly_foldl _ (fun s x hord' => ?_) _ ?_) | split)
@[simp] theorem State.dbgSleep_ord {base : State} (s : State) (hord : Orderly base s) :
    Orderly base (State.dbgSleep s) := by
  unfold State.dbgSleep
  try dsimp only
  repeat' (first | with_reducible assumption | (simp (maxDischargeDepth := 50) [*]; done) | (refine orderly_foldl _ (fun s x hord' => ?_) _ ?_) | split)
@[simp] theorem State.dbgEnd_ord {base : State} (s : State) (v : Nat) (hord : Orderly base s) :
    Orderly base (State.dbgEnd s v) := by
  unfold State.dbgEnd
  try dsimp only
  repeat' (first | with_reducible assumption | (simp (maxDischargeDepth := 50) [*]; done) | (refine orderly_foldl _ (fun s x hord' => ?_) _ ?_) | split)
@[simp] theorem State.dbgGet_ord {base : State} (off : Nat) (s : State) (hord : Orderly base s) :
    OrdOut base (State.dbgGet off s) := by
  unfold State.dbgGet
  try dsimp only
  repeat' (first | with_reducible assumption | (simp (maxDischargeDepth := 50) [*]; done) | (refine orderly_foldl _ (fun s x hord' => ?_) _ ?_) | split)
@[simp] theorem State.dbgTake_ord {base : State} (s : State) (hord : Orderly base s) :
    Orderly base (State.dbgTake s) := by
  unfold State.dbgTake
  try dsimp only
  repeat' (first | with_reducible assumption | (simp (maxDischargeDepth := 50) [*]; done) | (refine orderly_foldl _ (fun s x hord' => ?_) _ ?_) | split)
@[simp] theorem execTestLogicReset_ord {base : State} (s : State) (hord : Orderly base s) :
    OrdOut base (execTestLogicReset s) := by
  unfold execTestLogicReset; split <;> first | exact State.hostWrite_ord _ _ _ _ hord | (simp [hord]; done)
@[simp] theorem State.memSettled_ord {base : State} (s t : State) (f : Nat) (hord : Orderly base t) : Orderly base (State.memSettled s t f) := by
  unfold State.memSettled
  dsimp only
  split <;> simp [hord]
@[simp] theorem State.engEffects_ord {base : State} (s t : State) (f : Nat) (hord : Orderly base t) : Orderly base (State.engEffects s t f) := by
  unfold State.engEffects; simp [hord]
@[simp] theorem State.joinRecord_ord {base : State} (s : State) (q : Nat) (n : Nat) (data : Nat) (t : Nat) (hord : Orderly base s) : Orderly base (State.joinRecord s q n data t) := by
  unfold State.joinRecord
  dsimp only
  split <;> simp [hord]
@[simp] theorem State.addHostOp_ord {base : State} (s : State) (o : HostOp) (hord : Orderly base s) : Orderly base (State.addHostOp s o) := by
  refine OrdOf.ops hord ?_
  intro w
  refine ⟨?_, ?_⟩
  · have e : ((s.addHostOp o).htu.ops.map (fun y => y.id)) = s.htu.ops.map (fun y => y.id) ++ [s.htu.nextId] := by simp [State.addHostOp]
    rw [e]
    refine List.pairwise_append.mpr ⟨w.1, by simp, ?_⟩
    intro x hx y hy
    obtain ⟨z, hz, rfl⟩ := List.mem_map.mp hx
    obtain rfl := List.mem_singleton.mp hy
    exact w.2 z hz
  · intro y hy
    rcases List.mem_append.mp hy with h | h
    · exact Nat.lt_succ_of_lt (w.2 y h)
    · obtain rfl := List.mem_singleton.mp h
      exact Nat.lt_succ_self _
@[simp] theorem State.htuReset_ord {base : State} (s : State) (hord : Orderly base s) : Orderly base s.htuReset := by
  refine OrdOf.ops hord (fun _ => ⟨by simp [State.htuReset], fun _ hy => by simp [State.htuReset] at hy⟩)

end Sys2Proof.Machine
end

