-- ==== Sys2Proof/Laws/OrderlyIssue.lean ====
section
/-! SUPPORT. The operations that issue, complete and abort work, and those of reset and of the dump store, are orderly. -/

namespace Sys2Proof.Machine

set_option linter.unusedTactic false
set_option linter.unreachableTactic false
set_option linter.unusedSimpArgs false
set_option linter.unusedVariables false
set_option linter.style.nameCheck false
set_option linter.unnecessarySeqFocus false
set_option maxHeartbeats 400000

variable {base : State}

@[simp] theorem State.activateAt_ord {base : State} (s : State) (n : Nat) (data : Nat) (t : Nat) (hord : Orderly base s) :
    Orderly base (State.activateAt s n data t) := by
  unfold State.activateAt
  try dsimp only
  repeat' (first | with_reducible assumption | (simp (maxDischargeDepth := 50) [*]; done) | (refine orderly_foldl _ (fun s x hord' => ?_) _ ?_) | split)
@[simp] theorem State.activate_ord {base : State} (s : State) (n : Nat) (data : Nat) (hord : Orderly base s) :
    Orderly base (State.activate s n data) := by
  unfold State.activate
  try dsimp only
  repeat' (first | with_reducible assumption | (simp (maxDischargeDepth := 50) [*]; done) | (refine orderly_foldl _ (fun s x hord' => ?_) _ ?_) | split)
@[simp] theorem State.ringErr_ord {base : State} (s : State) (n : Nat) (flag : Nat) (hord : Orderly base s) :
    Orderly base (State.ringErr s n flag) := by
  unfold State.ringErr
  try dsimp only
  repeat' (first | with_reducible assumption | (simp (maxDischargeDepth := 50) [*]; done) | (refine orderly_foldl _ (fun s x hord' => ?_) _ ?_) | split)
@[simp] theorem State.logFault_ord {base : State} (s : State) (ow : Owner) (r : Fault192) (hord : Orderly base s) :
    Orderly base (State.logFault s ow r) := by
  unfold State.logFault
  try dsimp only
  repeat' (first | with_reducible assumption | (simp (maxDischargeDepth := 50) [*]; done) | (refine orderly_foldl _ (fun s x hord' => ?_) _ ?_) | split)
@[simp] theorem State.logWaiting_ord {base : State} (s : State) (hord : Orderly base s) :
    Orderly base (State.logWaiting s) := by
  unfold State.logWaiting; split <;> first | exact State.hostWrite_ord _ _ _ _ hord | (simp [hord]; done)
@[simp] theorem State.faultOp_ord {base : State} (s : State) (o : HostOp) (cause : Nat) (level : Nat) (hit : Bool) (hord : Orderly base s) :
    Orderly base (State.faultOp s o cause level hit) := by
  unfold State.faultOp
  try dsimp only
  repeat' (first | with_reducible assumption | (simp (maxDischargeDepth := 50) [*]; done) | (refine orderly_foldl _ (fun s x hord' => ?_) _ ?_) | split)
@[simp] theorem State.fetchMore_ord {base : State} (s : State) (n : Nat) (hord : Orderly base s) :
    Orderly base (State.fetchMore s n) := by
  unfold State.fetchMore
  try dsimp only
  repeat' (first | with_reducible assumption | (simp (maxDischargeDepth := 50) [*]; done) | (refine orderly_foldl _ (fun s x hord' => ?_) _ ?_) | split)
@[simp] theorem State.stall_ord {base : State} (s : State) (n : Nat) (flag : Nat) (hord : Orderly base s) :
    Orderly base (State.stall s n flag) := by
  unfold State.stall; split <;> first | exact State.hostWrite_ord _ _ _ _ hord | (simp [hord]; done)
@[simp] theorem State.translate_ord {base : State} (s : State) (id : Nat) (hord : Orderly base s) :
    Orderly base (State.translate s id) := by
  unfold State.translate
  try dsimp only
  repeat' (first | with_reducible assumption | (simp (maxDischargeDepth := 50) [*]; done) | (refine orderly_foldl _ (fun s x hord' => ?_) _ ?_) | split)
@[simp] theorem State.pump_ord {base : State} (s : State) (hord : Orderly base s) :
    Orderly base (State.pump s) := by
  unfold State.pump
  try dsimp only
  repeat' (first | with_reducible assumption | (simp (maxDischargeDepth := 50) [*]; done) | (refine orderly_foldl _ (fun s x hord' => ?_) _ ?_) | split)
@[simp] theorem State.walkRead_ord {base : State} (s : State) (id : Nat) (entry : Nat) (err : Bool) (hord : Orderly base s) :
    Orderly base (State.walkRead s id entry err) := by
  unfold State.walkRead
  try dsimp only
  repeat' (first | with_reducible assumption | (simp (maxDischargeDepth := 50) [*]; done) | (refine orderly_foldl _ (fun s x hord' => ?_) _ ?_) | split)
@[simp] theorem State.freeEntry_ord {base : State} (s : State) (ow : Owner) (hord : Orderly base s) :
    Orderly base (State.freeEntry s ow) := by
  unfold State.freeEntry; split <;> first | exact State.hostWrite_ord _ _ _ _ hord | (simp [hord]; done)
@[simp] theorem State.resumeOwner_ord {base : State} (s : State) (ow : Owner) (hord : Orderly base s) :
    Orderly base (State.resumeOwner s ow) := by
  unfold State.resumeOwner
  try dsimp only
  repeat' (first | with_reducible assumption | (simp (maxDischargeDepth := 50) [*]; done) | (refine orderly_foldl _ (fun s x hord' => ?_) _ ?_) | split)
@[simp] theorem State.htuEnable_ord {base : State} (s : State) (hord : Orderly base s) :
    Orderly base (State.htuEnable s) := by
  unfold State.htuEnable; split <;> first | exact State.hostWrite_ord _ _ _ _ hord | (simp [hord]; done)
@[simp] theorem State.htuDisable_ord {base : State} (s : State) (hord : Orderly base s) :
    Orderly base (State.htuDisable s) := by
  unfold State.htuDisable
  try dsimp only
  repeat' (first | with_reducible assumption | (simp (maxDischargeDepth := 50) [*]; done) | (refine orderly_foldl _ (fun s x hord' => ?_) _ ?_) | split)
@[simp] theorem State.chainEvent_ord {base : State} (s : State) (k : Nat) (cause : Nat) (pos : Nat) (info : Nat) (hord : Orderly base s) :
    Orderly base (State.chainEvent s k cause pos info) := by
  unfold State.chainEvent
  try dsimp only
  repeat' (first | with_reducible assumption | (simp (maxDischargeDepth := 50) [*]; done) | (refine orderly_foldl _ (fun s x hord' => ?_) _ ?_) | split)
@[simp] theorem State.ctlDone_ord {base : State} (s : State) (k : Nat) (t : Txn) (d : List Byte) (e : Option Status) (hord : Orderly base s) :
    Orderly base (State.ctlDone s k t d e) := by
  unfold State.ctlDone
  try dsimp only
  repeat' (first | with_reducible assumption | (simp (maxDischargeDepth := 50) [*]; done) | (refine orderly_foldl _ (fun s x hord' => ?_) _ ?_) | split)
@[simp] theorem State.endTxn_ord {base : State} (s : State) (k : Nat) (t : Txn) (d : List Byte) (e : Option Status) (hord : Orderly base s) :
    Orderly base (State.endTxn s k t d e) := by
  unfold State.endTxn; split <;> first | exact State.hostWrite_ord _ _ _ _ hord | (simp [hord]; done)
@[simp] theorem State.endTxnsWhere_ord {base : State} (s : State) (k : Nat) (p : Nat → Bool) (e : Status) (hord : Orderly base s) :
    Orderly base (State.endTxnsWhere s k p e) := by
  unfold State.endTxnsWhere
  try dsimp only
  repeat' (first | with_reducible assumption | (simp (maxDischargeDepth := 50) [*]; done) | (refine orderly_foldl _ (fun s x hord' => ?_) _ ?_) | split)
@[simp] theorem State.txnTimeout_ord {base : State} (s : State) (k : Nat) (tag : Nat) (hord : Orderly base s) :
    Orderly base (State.txnTimeout s k tag) := by
  unfold State.txnTimeout
  try dsimp only
  repeat' (first | with_reducible assumption | (simp (maxDischargeDepth := 50) [*]; done) | (refine orderly_foldl _ (fun s x hord' => ?_) _ ?_) | split)
@[simp] theorem State.wdaWrite_ord {base : State} (s : State) (k : Nat) (hord : Orderly base s) :
    Orderly base (State.wdaWrite s k) := by
  unfold State.wdaWrite
  try dsimp only
  repeat' (first | with_reducible assumption | (simp (maxDischargeDepth := 50) [*]; done) | (refine orderly_foldl _ (fun s x hord' => ?_) _ ?_) | split)
@[simp] theorem State.response_ord {base : State} (s : State) (k : Nat) (tag : Nat) (d : List Byte) (e : Option Status) (hord : Orderly base s) :
    Orderly base (State.response s k tag d e) := by
  unfold State.response
  try dsimp only
  repeat' (first | with_reducible assumption | (simp (maxDischargeDepth := 50) [*]; done) | (refine orderly_foldl _ (fun s x hord' => ?_) _ ?_) | split)
@[simp] theorem State.recvReadData_ord {base : State} (s : State) (k : Nat) (hord : Orderly base s) :
    Orderly base (State.recvReadData s k) := by
  unfold State.recvReadData; split <;> first | exact State.hostWrite_ord _ _ _ _ hord | (simp [hord]; done)
@[simp] theorem State.recvWriteAck_ord {base : State} (s : State) (k : Nat) (hord : Orderly base s) :
    Orderly base (State.recvWriteAck s k) := by
  unfold State.recvWriteAck; split <;> first | exact State.hostWrite_ord _ _ _ _ hord | (simp [hord]; done)
@[simp] theorem State.recvNack_ord {base : State} (s : State) (k : Nat) (hord : Orderly base s) :
    Orderly base (State.recvNack s k) := by
  unfold State.recvNack; split <;> first | exact State.hostWrite_ord _ _ _ _ hord | (simp [hord]; done)
@[simp] theorem State.train_ord {base : State} (s : State) (k : Nat) (hord : Orderly base s) :
    Orderly base (State.train s k) := by
  unfold State.train
  try dsimp only
  repeat' (first | with_reducible assumption | (simp (maxDischargeDepth := 50) [*]; done) | (refine orderly_foldl _ (fun s x hord' => ?_) _ ?_) | split)
@[simp] theorem State.hopUp_ord {base : State} (s : State) (k : Nat) (p : Nat) (ps : Nat) (hord : Orderly base s) :
    Orderly base (State.hopUp s k p ps) := by
  unfold State.hopUp
  try dsimp only
  repeat' (first | with_reducible assumption | (simp (maxDischargeDepth := 50) [*]; done) | (refine orderly_foldl _ (fun s x hord' => ?_) _ ?_) | split)
@[simp] theorem State.hopFail_ord {base : State} (s : State) (k : Nat) (p : Nat) (hord : Orderly base s) :
    Orderly base (State.hopFail s k p) := by
  unfold State.hopFail
  try dsimp only
  repeat' (first | with_reducible assumption | (simp (maxDischargeDepth := 50) [*]; done) | (refine orderly_foldl _ (fun s x hord' => ?_) _ ?_) | split)
@[simp] theorem State.trainTimeout_ord {base : State} (s : State) (k : Nat) (hord : Orderly base s) :
    Orderly base (State.trainTimeout s k) := by
  unfold State.trainTimeout
  try dsimp only
  repeat' (first | with_reducible assumption | (simp (maxDischargeDepth := 50) [*]; done) | (refine orderly_foldl _ (fun s x hord' => ?_) _ ?_) | split)
@[simp] theorem State.crcFail_ord {base : State} (s : State) (k : Nat) (p : Nat) (upstream : Bool) (hord : Orderly base s) :
    Orderly base (State.crcFail s k p upstream) := by
  unfold State.crcFail
  try dsimp only
  repeat' (first | with_reducible assumption | (simp (maxDischargeDepth := 50) [*]; done) | (refine orderly_foldl _ (fun s x hord' => ?_) _ ?_) | split)
@[simp] theorem State.disableChain_ord {base : State} (s : State) (k : Nat) (hord : Orderly base s) :
    Orderly base (State.disableChain s k) := by
  unfold State.disableChain
  try dsimp only
  repeat' (first | with_reducible assumption | (simp (maxDischargeDepth := 50) [*]; done) | (refine orderly_foldl _ (fun s x hord' => ?_) _ ?_) | split)
@[simp] theorem State.ringPush_ord {base : State} (s : State) (rs : List TraceRec) (hord : Orderly base s) :
    Orderly base (State.ringPush s rs) := by
  unfold State.ringPush
  try dsimp only
  repeat' (first | with_reducible assumption | (simp (maxDischargeDepth := 50) [*]; done) | (refine orderly_foldl _ (fun s x hord' => ?_) _ ?_) | split)
@[simp] theorem State.placeRec_ord {base : State} (s : State) (f : Nat) (r : TraceRec) (hord : Orderly base s) :
    Orderly base (State.placeRec s f r) := by
  unfold State.placeRec
  try dsimp only
  repeat' (first | with_reducible assumption | (simp (maxDischargeDepth := 50) [*]; done) | (refine orderly_foldl _ (fun s x hord' => ?_) _ ?_) | split)
@[simp] theorem State.gapEvent_ord {base : State} (s : State) (f : Nat) (hub : Bool) (count : Nat) (hord : Orderly base s) :
    Orderly base (State.gapEvent s f hub count) := by
  unfold State.gapEvent
  try dsimp only
  repeat' (first | with_reducible assumption | (simp (maxDischargeDepth := 50) [*]; done) | (refine orderly_foldl _ (fun s x hord' => ?_) _ ?_) | split)
@[simp] theorem State.hubGap_ord {base : State} (s : State) (f : Nat) (cause : Nat) (count : Nat) (hord : Orderly base s) :
    Orderly base (State.hubGap s f cause count) := by
  unfold State.hubGap
  try dsimp only
  repeat' (first | with_reducible assumption | (simp (maxDischargeDepth := 50) [*]; done) | (refine orderly_foldl _ (fun s x hord' => ?_) _ ?_) | split)
@[simp] theorem State.payGaps_ord {base : State} (s : State) (f : Nat) (hord : Orderly base s) :
    Orderly base (State.payGaps s f) := by
  unfold State.payGaps
  try dsimp only
  repeat' (first | with_reducible assumption | (simp (maxDischargeDepth := 50) [*]; done) | (refine orderly_foldl _ (fun s x hord' => ?_) _ ?_) | split)
@[simp] theorem State.traceLost_ord {base : State} (s : State) (k : Nat) (lo : Nat) (hi : Nat) (hord : Orderly base s) :
    Orderly base (State.traceLost s k lo hi) := by
  unfold State.traceLost
  try dsimp only
  repeat' (first | with_reducible assumption | (simp (maxDischargeDepth := 50) [*]; done) | (refine orderly_foldl _ (fun s x hord' => ?_) _ ?_) | split)
@[simp] theorem State.traceTrigger_ord {base : State} (s : State) (code : Nat) (tt : Nat) (arg : Nat) (hord : Orderly base s) :
    Orderly base (State.traceTrigger s code tt arg) := by
  unfold State.traceTrigger
  try dsimp only
  repeat' (first | with_reducible assumption | (simp (maxDischargeDepth := 50) [*]; done) | (refine orderly_foldl _ (fun s x hord' => ?_) _ ?_) | split)
@[simp] theorem State.stopMarker_ord {base : State} (s : State) (code : Nat) (hord : Orderly base s) :
    Orderly base (State.stopMarker s code) := by
  unfold State.stopMarker
  try dsimp only
  repeat' (first | with_reducible assumption | (simp (maxDischargeDepth := 50) [*]; done) | (refine orderly_foldl _ (fun s x hord' => ?_) _ ?_) | split)
@[simp] theorem State.timeTrigger_ord {base : State} (s : State) (hord : Orderly base s) :
    Orderly base (State.timeTrigger s) := by
  unfold State.timeTrigger; split <;> first | exact State.hostWrite_ord _ _ _ _ hord | (simp [hord]; done)
@[simp] theorem State.confirmDone_ord {base : State} (s : State) (c : Confirm) (hord : Orderly base s) :
    Orderly base (State.confirmDone s c) := by
  unfold State.confirmDone
  try dsimp only
  repeat' (first | with_reducible assumption | (simp (maxDischargeDepth := 50) [*]; done) | (refine orderly_foldl _ (fun s x hord' => ?_) _ ?_) | split)
@[simp] theorem State.confirmRead_ord {base : State} (s : State) (f : Nat) (hord : Orderly base s) :
    Orderly base (State.confirmRead s f) := by
  unfold State.confirmRead
  try dsimp only
  repeat' (first | with_reducible assumption | (simp (maxDischargeDepth := 50) [*]; done) | (refine orderly_foldl _ (fun s x hord' => ?_) _ ?_) | split)
@[simp] theorem State.lineLevel_ord {base : State} (s : State) (n : Nat) (high : Bool) (hord : Orderly base s) :
    Orderly base (State.lineLevel s n high) := by
  unfold State.lineLevel
  try dsimp only
  repeat' (first | with_reducible assumption | (simp (maxDischargeDepth := 50) [*]; done) | (refine orderly_foldl _ (fun s x hord' => ?_) _ ?_) | split)
@[simp] theorem State.lineApply_ord {base : State} (s : State) (n : Nat) (hord : Orderly base s) :
    Orderly base (State.lineApply s n) := by
  unfold State.lineApply
  try dsimp only
  repeat' (first | with_reducible assumption | (simp (maxDischargeDepth := 50) [*]; done) | (refine orderly_foldl _ (fun s x hord' => ?_) _ ?_) | split)
@[simp] theorem State.carEdge_ord {base : State} (s : State) (hord : Orderly base s) :
    Orderly base (State.carEdge s) := by
  unfold State.carEdge
  try dsimp only
  repeat' (first | with_reducible assumption | (simp (maxDischargeDepth := 50) [*]; done) | (refine orderly_foldl _ (fun s x hord' => ?_) _ ?_) | split)
@[simp] theorem State.queueSelect_ord {base : State} (s : State) (q : Nat) (hord : Orderly base s) :
    Orderly base (State.queueSelect s q) := by
  unfold State.queueSelect
  try dsimp only
  repeat' (first | with_reducible assumption | (simp (maxDischargeDepth := 50) [*]; done) | (refine orderly_foldl _ (fun s x hord' => ?_) _ ?_) | split)
@[simp] theorem State.qRelease_ord {base : State} (s : State) (q : Nat) (hord : Orderly base s) :
    Orderly base (State.qRelease s q) := by
  unfold State.qRelease
  try dsimp only
  repeat' (first | with_reducible assumption | (simp (maxDischargeDepth := 50) [*]; done) | (refine orderly_foldl _ (fun s x hord' => ?_) _ ?_) | split)
@[simp] theorem State.qEoi_ord {base : State} (s : State) (q : Nat) (n : Nat) (hord : Orderly base s) :
    Orderly base (State.qEoi s q n) := by
  unfold State.qEoi
  try dsimp only
  repeat' (first | with_reducible assumption | (simp (maxDischargeDepth := 50) [*]; done) | (refine orderly_foldl _ (fun s x hord' => ?_) _ ?_) | split)
@[simp] theorem State.qRecover_ord {base : State} (s : State) (q : Nat) (release : Bool) (hord : Orderly base s) :
    Orderly base (State.qRecover s q release) := by
  unfold State.qRecover
  try dsimp only
  repeat' (first | with_reducible assumption | (simp (maxDischargeDepth := 50) [*]; done) | (refine orderly_foldl _ (fun s x hord' => ?_) _ ?_) | split)
@[simp] theorem State.flushQueue_ord {base : State} (s : State) (q : Nat) (hord : Orderly base s) :
    Orderly base (State.flushQueue s q) := by
  unfold State.flushQueue
  try dsimp only
  repeat' (first | with_reducible assumption | (simp (maxDischargeDepth := 50) [*]; done) | (refine orderly_foldl _ (fun s x hord' => ?_) _ ?_) | split)
@[simp] theorem State.flushQueues_ord {base : State} (s : State) (hord : Orderly base s) :
    Orderly base (State.flushQueues s) := by
  unfold State.flushQueues
  try dsimp only
  repeat' (first | with_reducible assumption | (simp (maxDischargeDepth := 50) [*]; done) | (refine orderly_foldl _ (fun s x hord' => ?_) _ ?_) | split)
@[simp] theorem State.chainsIdle_ord {base : State} (s : State) (hord : Orderly base s) :
    Orderly base (State.chainsIdle s) := by
  unfold State.chainsIdle
  try dsimp only
  repeat' (first | with_reducible assumption | (simp (maxDischargeDepth := 50) [*]; done) | (refine orderly_foldl _ (fun s x hord' => ?_) _ ?_) | split)
@[simp] theorem State.chainsUp_ord {base : State} (s : State) (hord : Orderly base s) :
    Orderly base (State.chainsUp s) := by
  unfold State.chainsUp
  try dsimp only
  repeat' (first | with_reducible assumption | (simp (maxDischargeDepth := 50) [*]; done) | (refine orderly_foldl _ (fun s x hord' => ?_) _ ?_) | split)
@[simp] theorem State.dozeEntry_ord {base : State} (s : State) (hord : Orderly base s) :
    Orderly base (State.dozeEntry s) := by
  unfold State.dozeEntry
  try dsimp only
  repeat' (first | with_reducible assumption | (simp (maxDischargeDepth := 50) [*]; done) | (refine orderly_foldl _ (fun s x hord' => ?_) _ ?_) | split)
@[simp] theorem State.wakeDone_ord {base : State} (s : State) (hord : Orderly base s) :
    Orderly base (State.wakeDone s) := by
  unfold State.wakeDone
  try dsimp only
  repeat' (first | with_reducible assumption | (simp (maxDischargeDepth := 50) [*]; done) | (refine orderly_foldl _ (fun s x hord' => ?_) _ ?_) | split)
@[simp] theorem State.pllUnlock_ord {base : State} (s : State) (hord : Orderly base s) :
    Orderly base (State.pllUnlock s) := by
  unfold State.pllUnlock; split <;> first | exact State.hostWrite_ord _ _ _ _ hord | (simp [hord]; done)
@[simp] theorem State.dumpEvent_ord {base : State} (s : State) (n : Nat) (sdf : Nat) (status : Nat) (hord : Orderly base s) :
    Orderly base (State.dumpEvent s n sdf status) := by
  unfold State.dumpEvent
  try dsimp only
  repeat' (first | with_reducible assumption | (simp (maxDischargeDepth := 50) [*]; done) | (refine orderly_foldl _ (fun s x hord' => ?_) _ ?_) | split)
@[simp] theorem State.ringLost_ord {base : State} (s : State) (n : Nat) (hord : Orderly base s) :
    Orderly base (State.ringLost s n) := by
  unfold State.ringLost
  try dsimp only
  repeat' (first | with_reducible assumption | (simp (maxDischargeDepth := 50) [*]; done) | (refine orderly_foldl _ (fun s x hord' => ?_) _ ?_) | split)
@[simp] theorem State.suspendedLost_ord {base : State} (s : State) (n : Nat) (hord : Orderly base s) :
    Orderly base (State.suspendedLost s n) := by
  unfold State.suspendedLost
  try dsimp only
  repeat' (first | with_reducible assumption | (simp (maxDischargeDepth := 50) [*]; done) | (refine orderly_foldl _ (fun s x hord' => ?_) _ ?_) | split)
@[simp] theorem State.issueHost_ord {base : State} (s : State) (w : Work) (o : Op) (write : Bool) (a : Nat) (n : Nat) (d : List Byte) (hord : Orderly base s) :
    Orderly base (State.issueHost s w o write a n d).1 := by
  unfold State.issueHost
  try dsimp only
  repeat' (first | with_reducible assumption | (simp (maxDischargeDepth := 50) [*]; done) | (refine orderly_foldl _ (fun s x hord' => ?_) _ ?_) | split)
@[simp] theorem State.lcsEnd_ord {base : State} (s : State) (result : Nat) (from_ : Nat) (to_ : Nat) (scan : Bool) (hord : Orderly base s) :
    Orderly base (State.lcsEnd s result from_ to_ scan) := by
  unfold State.lcsEnd
  try dsimp only
  repeat' (first | with_reducible assumption | (simp (maxDischargeDepth := 50) [*]; done) | (refine orderly_foldl _ (fun s x hord' => ?_) _ ?_) | split)
@[simp] theorem State.certEnd_ord {base : State} (s : State) (result : Nat) (slot : Nat) (scan : Bool) (hord : Orderly base s) :
    Orderly base (State.certEnd s result slot scan) := by
  unfold State.certEnd
  try dsimp only
  repeat' (first | with_reducible assumption | (simp (maxDischargeDepth := 50) [*]; done) | (refine orderly_foldl _ (fun s x hord' => ?_) _ ?_) | split)
@[simp] theorem State.postCore_ord {base : State} (s : State) (owner : Option Work) (kind : Nat) (src : Nat) (data : List Nat) (hord : Orderly base s) :
    Orderly base (State.postCore s owner kind src data) := by
  unfold State.postCore
  try dsimp only
  repeat' (first | with_reducible assumption | (simp (maxDischargeDepth := 50) [*]; done) | (refine orderly_foldl _ (fun s x hord' => ?_) _ ?_) | split)
@[simp] theorem State.issueCore_ord {base : State} (s : State) (w : Work) (req : List Nat) (hord : Orderly base s) :
    Orderly base (State.issueCore s w req).1 := by
  unfold State.issueCore
  try dsimp only
  repeat' (first | with_reducible assumption | (simp (maxDischargeDepth := 50) [*]; done) | (refine orderly_foldl _ (fun s x hord' => ?_) _ ?_) | split)
@[simp] theorem State.finish_ord {base : State} (s : State) (w : Work) (st : Status) (det : Nat) (cur : Nat) (hord : Orderly base s) :
    Orderly base (State.finish s w st det cur) := by
  unfold State.finish
  try dsimp only
  repeat' (first | with_reducible assumption | (simp (maxDischargeDepth := 50) [*]; done) | (refine orderly_foldl _ (fun s x hord' => ?_) _ ?_) | split)
@[simp] theorem State.endItem_ord {base : State} (s : State) (w : Work) (i : Item) (rep : Report) (hrep : ∀ (a0 : State) (a1 : Work) (a2 : Item) (a3 : Status), Orderly base a0 → Orderly base (rep a0 a1 a2 a3).1) (hord : Orderly base s) :
    Orderly base (State.endItem s w i rep) := by
  unfold State.endItem
  try dsimp only
  repeat' (first | with_reducible assumption | (simp (maxDischargeDepth := 50) [*]; done) | (refine orderly_foldl _ (fun s x hord' => ?_) _ ?_) | split)
@[simp] theorem State.deny_ord {base : State} (s : State) (op : Nat) (scan : Bool) (ring : Nat) (short : Option (Nat × Nat × Nat)) (hord : Orderly base s) :
    Orderly base (State.deny s op scan ring short) := by
  unfold State.deny; split <;> first | exact State.hostWrite_ord _ _ _ _ hord | (simp [hord]; done)
@[simp] theorem State.kick_ord {base : State} (s : State) (n : Nat) (hord : Orderly base s) :
    Orderly base (State.kick s n) := by
  unfold State.kick
  try dsimp only
  repeat' (first | with_reducible assumption | (simp (maxDischargeDepth := 50) [*]; done) | (refine orderly_foldl _ (fun s x hord' => ?_) _ ?_) | split)
@[simp] theorem State.dbReject_ord {base : State} (s : State) (n : Nat) (cause : Nat) (hord : Orderly base s) :
    Orderly base (State.dbReject s n cause) := by
  unfold State.dbReject
  try dsimp only
  repeat' (first | with_reducible assumption | (simp (maxDischargeDepth := 50) [*]; done) | (refine orderly_foldl _ (fun s x hord' => ?_) _ ?_) | split)
@[simp] theorem State.doorbell_ord {base : State} (s : State) (n : Nat) (v : Nat) (hord : Orderly base s) :
    Orderly base (State.doorbell s n v) := by
  unfold State.doorbell
  try dsimp only
  repeat' (first | with_reducible assumption | (simp (maxDischargeDepth := 50) [*]; done) | (refine orderly_foldl _ (fun s x hord' => ?_) _ ?_) | split)
@[simp] theorem State.fetched_ord {base : State} (s : State) (n : Nat) (d : List Byte) (ok : Bool) (hord : Orderly base s) :
    Orderly base (State.fetched s n d ok) := by
  unfold State.fetched
  try dsimp only
  repeat' (first | with_reducible assumption | (simp (maxDischargeDepth := 50) [*]; done) | (refine orderly_foldl _ (fun s x hord' => ?_) _ ?_) | split)
@[simp] theorem execQueueSelect_ord {base : State} (q : Nat) (s : State) (hord : Orderly base s) :
    OrdOut base (execQueueSelect q s) := by
  unfold execQueueSelect
  try dsimp only
  repeat' (first | with_reducible assumption | (simp (maxDischargeDepth := 50) [*]; done) | (refine orderly_foldl _ (fun s x hord' => ?_) _ ?_) | split)
@[simp] theorem State.refuse_ord {base : State} (s : State) (w : Work) (d : BitVec 512) (short : Option (Nat × Nat × Nat)) (hord : Orderly base s) :
    Orderly base (State.refuse s w d short) := by
  unfold State.refuse; split <;> first | exact State.hostWrite_ord _ _ _ _ hord | (simp [hord]; done)
@[simp] theorem State.firstChecks_ord {base : State} (s : State) (w : Work) (i : Item) (hord : Orderly base s) :
    Orderly base (State.firstChecks s w i) := by
  unfold State.firstChecks
  try dsimp only
  repeat' (first | with_reducible assumption | (simp (maxDischargeDepth := 50) [*]; done) | (refine orderly_foldl _ (fun s x hord' => ?_) _ ?_) | split)
@[simp] theorem State.grant_ord {base : State} (s : State) (e : Nat) (w : Work) (hord : Orderly base s) :
    Orderly base (State.grant s e w) := by
  unfold State.grant
  try dsimp only
  repeat' (first | with_reducible assumption | (simp (maxDischargeDepth := 50) [*]; done) | (refine orderly_foldl _ (fun s x hord' => ?_) _ ?_) | split)
@[simp] theorem State.arbitrate_ord {base : State} (s : State) (e : Nat) (hord : Orderly base s) :
    Orderly base (State.arbitrate s e) := by
  unfold State.arbitrate
  try dsimp only
  repeat' (first | with_reducible assumption | (simp (maxDischargeDepth := 50) [*]; done) | (refine orderly_foldl _ (fun s x hord' => ?_) _ ?_) | split)
@[simp] theorem execArbiterDecision_ord {base : State} (e : Nat) (s : State) (hord : Orderly base s) :
    OrdOut base (execArbiterDecision e s) := by
  unfold execArbiterDecision
  try dsimp only
  repeat' (first | with_reducible assumption | (simp (maxDischargeDepth := 50) [*]; done) | (refine orderly_foldl _ (fun s x hord' => ?_) _ ?_) | split)
@[simp] theorem execConfirmationRead_ord {base : State} (f : Nat) (s : State) (hord : Orderly base s) :
    OrdOut base (execConfirmationRead f s) := by
  unfold execConfirmationRead
  try dsimp only
  repeat' (first | with_reducible assumption | (simp (maxDischargeDepth := 50) [*]; done) | (refine orderly_foldl _ (fun s x hord' => ?_) _ ?_) | split)
@[simp] theorem State.cutEnd_ord {base : State} (s : State) (w : Work) (i : Item) (ok : Bool) (hord : Orderly base s) :
    Orderly base (State.cutEnd s w i ok) := by
  unfold State.cutEnd
  try dsimp only
  repeat' (first | with_reducible assumption | (simp (maxDischargeDepth := 50) [*]; done) | (refine orderly_foldl _ (fun s x hord' => ?_) _ ?_) | split)
@[simp] theorem State.dumpFree_ord {base : State} (s : State) (n : Nat) (sdf : Nat) (st : Status) (hord : Orderly base s) :
    Orderly base (State.dumpFree s n sdf st) := by
  unfold State.dumpFree
  try dsimp only
  repeat' (first | with_reducible assumption | (simp (maxDischargeDepth := 50) [*]; done) | (refine orderly_foldl _ (fun s x hord' => ?_) _ ?_) | split)
@[simp] theorem State.dumpEnd_ord {base : State} (s : State) (w : Work) (i : Item) (n : Nat) (hord : Orderly base s) :
    Orderly base (State.dumpEnd s w i n) := by
  unfold State.dumpEnd
  try dsimp only
  repeat' (first | with_reducible assumption | (simp (maxDischargeDepth := 50) [*]; done) | (refine orderly_foldl _ (fun s x hord' => ?_) _ ?_) | split)
@[simp] theorem State.dumpHostGone_ord {base : State} (s : State) (w : Work) (i : Item) (n : Nat) (hord : Orderly base s) :
    Orderly base (State.dumpHostGone s w i n) := by
  unfold State.dumpHostGone
  try dsimp only
  repeat' (first | with_reducible assumption | (simp (maxDischargeDepth := 50) [*]; done) | (refine orderly_foldl _ (fun s x hord' => ?_) _ ?_) | split)
@[simp] theorem dumpRep_ord {base : State} (x0 : State) (x1 : Work) (x2 : Item) (x3 : Status) (hord : Orderly base x0) :
    Orderly base (dumpRep x0 x1 x2 x3).1 := by
  unfold dumpRep
  try dsimp only
  repeat' (first | with_reducible assumption | (simp (maxDischargeDepth := 50) [*]; done) | (refine orderly_foldl _ (fun s x hord' => ?_) _ ?_) | split)
@[simp] theorem State.unparkCtx_ord {base : State} (s : State) (n : Nat) (hord : Orderly base s) :
    Orderly base (State.unparkCtx s n) := by
  unfold State.unparkCtx
  try dsimp only
  repeat' (first | with_reducible assumption | (simp (maxDischargeDepth := 50) [*]; done) | (refine orderly_foldl _ (fun s x hord' => ?_) _ ?_) | split)
@[simp] theorem State.traceSetup_ord {base : State} (s : State) (d : BitVec 512) (hord : Orderly base s) :
    Orderly base (State.traceSetup s d) := by
  unfold State.traceSetup
  try dsimp only
  repeat' (first | with_reducible assumption | (simp (maxDischargeDepth := 50) [*]; done) | (refine orderly_foldl _ (fun s x hord' => ?_) _ ?_) | split)
@[simp] theorem armAdv_ord {base : State} (x0 : State) (x1 : Work) (x2 : Item) (hord : Orderly base x0) :
    Orderly base (armAdv x0 x1 x2) := by
  unfold armAdv
  try dsimp only
  repeat' (first | with_reducible assumption | (simp (maxDischargeDepth := 50) [*]; done) | (refine orderly_foldl _ (fun s x hord' => ?_) _ ?_) | split)
@[simp] theorem execTraceTimeTrigger_ord {base : State} (s : State) (hord : Orderly base s) :
    OrdOut base (execTraceTimeTrigger s) := by
  unfold execTraceTimeTrigger
  try dsimp only
  repeat' (first | with_reducible assumption | (simp (maxDischargeDepth := 50) [*]; done) | (refine orderly_foldl _ (fun s x hord' => ?_) _ ?_) | split)
@[simp] theorem State.alertReady_ord {base : State} (s : State) (k : Nat) (p : Nat) (hord : Orderly base s) :
    Orderly base (State.alertReady s k p) := by
  unfold State.alertReady; split <;> first | exact State.hostWrite_ord _ _ _ _ hord | (simp [hord]; done)
@[simp] theorem State.breakEvent_ord {base : State} (s : State) (unit : Nat) (cz : Nat) (hord : Orderly base s) :
    Orderly base (State.breakEvent s unit cz) := by
  unfold State.breakEvent; split <;> first | exact State.hostWrite_ord _ _ _ _ hord | (simp [hord]; done)
@[simp] theorem execWrite_ord {base : State} (k : Nat) (s : State) (hord : Orderly base s) :
    OrdOut base (execWrite k s) := by
  unfold execWrite
  try dsimp only
  repeat' (first | with_reducible assumption | (simp (maxDischargeDepth := 50) [*]; done) | (refine orderly_foldl _ (fun s x hord' => ?_) _ ?_) | split)
@[simp] theorem State.enableChain_ord {base : State} (s : State) (k : Nat) (hord : Orderly base s) :
    Orderly base (State.enableChain s k) := by
  unfold State.enableChain
  try dsimp only
  repeat' (first | with_reducible assumption | (simp (maxDischargeDepth := 50) [*]; done) | (refine orderly_foldl _ (fun s x hord' => ?_) _ ?_) | split)
@[simp] theorem stageRep_ord {base : State} (x0 : State) (x1 : Work) (x2 : Item) (x3 : Status) (hord : Orderly base x0) :
    Orderly base (stageRep x0 x1 x2 x3).1 := by
  unfold stageRep
  try dsimp only
  repeat' (first | with_reducible assumption | (simp (maxDischargeDepth := 50) [*]; done) | (refine orderly_foldl _ (fun s x hord' => ?_) _ ?_) | split)
@[simp] theorem sleepAdv_ord {base : State} (x0 : State) (x1 : Work) (x2 : Item) (hord : Orderly base x0) :
    Orderly base (sleepAdv x0 x1 x2) := by
  unfold sleepAdv
  try dsimp only
  repeat' (first | with_reducible assumption | (simp (maxDischargeDepth := 50) [*]; done) | (refine orderly_foldl _ (fun s x hord' => ?_) _ ?_) | split)
@[simp] theorem execDozeEntry_ord {base : State} (s : State) (hord : Orderly base s) :
    OrdOut base (execDozeEntry s) := by
  unfold execDozeEntry
  try dsimp only
  repeat' (first | with_reducible assumption | (simp (maxDischargeDepth := 50) [*]; done) | (refine orderly_foldl _ (fun s x hord' => ?_) _ ?_) | split)
@[simp] theorem execPllUnlock_ord {base : State} (s : State) (hord : Orderly base s) :
    OrdOut base (execPllUnlock s) := by
  unfold execPllUnlock
  try dsimp only
  repeat' (first | with_reducible assumption | (simp (maxDischargeDepth := 50) [*]; done) | (refine orderly_foldl _ (fun s x hord' => ?_) _ ?_) | split)
@[simp] theorem queueWrite_ord {base : State} (s : State) (q : Nat) (o : Nat) (v : Nat) (hord : Orderly base s) :
    Orderly base (queueWrite s q o v) := by
  unfold queueWrite
  try dsimp only
  repeat' (first | with_reducible assumption | (simp (maxDischargeDepth := 50) [*]; done) | (refine orderly_foldl _ (fun s x hord' => ?_) _ ?_) | split)
@[simp] theorem carWrite_ord {base : State} (s : State) (o : Nat) (v : Nat) (hord : Orderly base s) :
    Orderly base (carWrite s o v) := by
  unfold carWrite
  try dsimp only
  repeat' (first | with_reducible assumption | (simp (maxDischargeDepth := 50) [*]; done) | (refine orderly_foldl _ (fun s x hord' => ?_) _ ?_) | split)
@[simp] theorem State.trigHook_ord {base : State} (s : State) (stamp : Nat) (hord : Orderly base s) :
    Orderly base (State.trigHook s stamp) := by
  unfold State.trigHook
  try dsimp only
  repeat' (first | with_reducible assumption | (simp (maxDischargeDepth := 50) [*]; done) | (refine orderly_foldl _ (fun s x hord' => ?_) _ ?_) | split)
@[simp] theorem State.lineChange_ord {base : State} (s : State) (n : Nat) (high : Bool) (samples : Nat) (stamp : Nat) (hord : Orderly base s) :
    Orderly base (State.lineChange s n high samples stamp) := by
  unfold State.lineChange
  try dsimp only
  repeat' (first | with_reducible assumption | (simp (maxDischargeDepth := 50) [*]; done) | (refine orderly_foldl _ (fun s x hord' => ?_) _ ?_) | split)
@[simp] theorem execLineChange_ord {base : State} (n : Nat) (high : Bool) (samples : Nat) (stamp : Nat) (s : State) (hord : Orderly base s) :
    OrdOut base (execLineChange n high samples stamp s) := by
  unfold execLineChange
  try dsimp only
  repeat' (first | with_reducible assumption | (simp (maxDischargeDepth := 50) [*]; done) | (refine orderly_foldl _ (fun s x hord' => ?_) _ ?_) | split)
@[simp] theorem State.chipEvent_ord {base : State} (s : State) (f : Nat) (g : Chip → Nat → Chip) (hord : Orderly base s) :
    Orderly base (State.chipEvent s f g) := by
  unfold State.chipEvent
  try dsimp only
  repeat' (first | with_reducible assumption | (simp (maxDischargeDepth := 50) [*]; done) | (refine orderly_foldl _ (fun s x hord' => ?_) _ ?_) | split)
@[simp] theorem State.coreEvent_ord {base : State} (s : State) (f : Nat) (i : Nat) (g : Chip → Nat → Chip) (hord : Orderly base s) :
    Orderly base (State.coreEvent s f i g) := by
  unfold State.coreEvent
  try dsimp only
  repeat' (first | with_reducible assumption | (simp (maxDischargeDepth := 50) [*]; done) | (refine orderly_foldl _ (fun s x hord' => ?_) _ ?_) | split)
@[simp] theorem State.wdaReg_ord {base : State} (s : State) (f : Nat) (o : Nat) (v : Nat) (hord : Orderly base s) :
    Orderly base (State.wdaReg s f o v) := by
  unfold State.wdaReg
  try dsimp only
  repeat' (first | with_reducible assumption | (simp (maxDischargeDepth := 50) [*]; done) | (refine orderly_foldl _ (fun s x hord' => ?_) _ ?_) | split)
@[simp] theorem execChipStopInputFall_ord {base : State} (f : Nat) (s : State) (hord : Orderly base s) :
    OrdOut base (execChipStopInputFall f s) := by
  unfold execChipStopInputFall; split <;> first | exact State.hostWrite_ord _ _ _ _ hord | (simp [hord]; done)
@[simp] theorem execResetHoldEnd_ord {base : State} (f : Nat) (s : State) (hord : Orderly base s) :
    OrdOut base (execResetHoldEnd f s) := by
  unfold execResetHoldEnd; split <;> first | exact State.hostWrite_ord _ _ _ _ hord | (simp [hord]; done)
@[simp] theorem execTollFire_ord {base : State} (f : Nat) (s : State) (hord : Orderly base s) :
    OrdOut base (execTollFire f s) := by
  unfold execTollFire
  try dsimp only
  repeat' (first | with_reducible assumption | (simp (maxDischargeDepth := 50) [*]; done) | (refine orderly_foldl _ (fun s x hord' => ?_) _ ?_) | split)
@[simp] theorem execTimedAction_ord {base : State} (f : Nat) (s : State) (hord : Orderly base s) :
    OrdOut base (execTimedAction f s) := by
  unfold execTimedAction
  try dsimp only
  repeat' (first | with_reducible assumption | (simp (maxDischargeDepth := 50) [*]; done) | (refine orderly_foldl _ (fun s x hord' => ?_) _ ?_) | split)
@[simp] theorem execHit_ord {base : State} (f : Nat) (engine : Bool) (i : Nat) (src : Nat) (pc : Nat) (first : Bool) (s : State) (hord : Orderly base s) :
    OrdOut base (execHit f engine i src pc first s) := by
  unfold execHit; split <;> first | exact State.hostWrite_ord _ _ _ _ hord | (simp [hord]; done)
@[simp] theorem execCoreDebugEntry_ord {base : State} (f : Nat) (i : Nat) (pc : Nat) (s : State) (hord : Orderly base s) :
    OrdOut base (execCoreDebugEntry f i pc s) := by
  unfold execCoreDebugEntry
  try dsimp only
  repeat' (first | with_reducible assumption | (simp (maxDischargeDepth := 50) [*]; done) | (refine orderly_foldl _ (fun s x hord' => ?_) _ ?_) | split)
@[simp] theorem execEngineCommandComplete_ord {base : State} (f : Nat) (e : Nat) (s : State) (hord : Orderly base s) :
    OrdOut base (execEngineCommandComplete f e s) := by
  unfold execEngineCommandComplete
  try dsimp only
  repeat' (first | with_reducible assumption | (simp (maxDischargeDepth := 50) [*]; done) | (refine orderly_foldl _ (fun s x hord' => ?_) _ ?_) | split)
@[simp] theorem execCoreStepEnd_ord {base : State} (f : Nat) (i : Nat) (pc : Nat) (s : State) (hord : Orderly base s) :
    OrdOut base (execCoreStepEnd f i pc s) := by
  unfold execCoreStepEnd
  try dsimp only
  repeat' (first | with_reducible assumption | (simp (maxDischargeDepth := 50) [*]; done) | (refine orderly_foldl _ (fun s x hord' => ?_) _ ?_) | split)
@[simp] theorem execAlertRaise_ord {base : State} (f : Nat) (cause : Nat) (u : Nat) (info : Nat) (s : State) (hord : Orderly base s) :
    OrdOut base (execAlertRaise f cause u info s) := by
  unfold execAlertRaise
  try dsimp only
  repeat' (first | with_reducible assumption | (simp (maxDischargeDepth := 50) [*]; done) | (refine orderly_foldl _ (fun s x hord' => ?_) _ ?_) | split)
@[simp] theorem execRcGoHalt_ord {base : State} (f : Nat) (timed : Bool) (all : Bool) (s : State) (hord : Orderly base s) :
    OrdOut base (execRcGoHalt f timed all s) := by
  unfold execRcGoHalt
  try dsimp only
  repeat' (first | with_reducible assumption | (simp (maxDischargeDepth := 50) [*]; done) | (refine orderly_foldl _ (fun s x hord' => ?_) _ ?_) | split)
@[simp] theorem execRcGoResume_ord {base : State} (f : Nat) (timed : Bool) (all : Bool) (s : State) (hord : Orderly base s) :
    OrdOut base (execRcGoResume f timed all s) := by
  unfold execRcGoResume
  try dsimp only
  repeat' (first | with_reducible assumption | (simp (maxDischargeDepth := 50) [*]; done) | (refine orderly_foldl _ (fun s x hord' => ?_) _ ?_) | split)
@[simp] theorem execTollArm_ord {base : State} (f : Nat) (s : State) (hord : Orderly base s) :
    OrdOut base (execTollArm f s) := by
  unfold execTollArm
  try dsimp only
  repeat' (first | with_reducible assumption | (simp (maxDischargeDepth := 50) [*]; done) | (refine orderly_foldl _ (fun s x hord' => ?_) _ ?_) | split)
@[simp] theorem execWdaForce_ord {base : State} (f : Nat) (s : State) (hord : Orderly base s) :
    OrdOut base (execWdaForce f s) := by
  unfold execWdaForce
  try dsimp only
  repeat' (first | with_reducible assumption | (simp (maxDischargeDepth := 50) [*]; done) | (refine orderly_foldl _ (fun s x hord' => ?_) _ ?_) | split)
@[simp] theorem execWdaLinkMuffle_ord {base : State} (f : Nat) (mask : Nat) (s : State) (hord : Orderly base s) :
    OrdOut base (execWdaLinkMuffle f mask s) := by
  unfold execWdaLinkMuffle
  try dsimp only
  repeat' (first | with_reducible assumption | (simp (maxDischargeDepth := 50) [*]; done) | (refine orderly_foldl _ (fun s x hord' => ?_) _ ?_) | split)
@[simp] theorem execCoreStep_ord {base : State} (f : Nat) (i : Nat) (s : State) (hord : Orderly base s) :
    OrdOut base (execCoreStep f i s) := by
  unfold execCoreStep
  try dsimp only
  repeat' (first | with_reducible assumption | (simp (maxDischargeDepth := 50) [*]; done) | (refine orderly_foldl _ (fun s x hord' => ?_) _ ?_) | split)
@[simp] theorem execEngStep_ord {base : State} (f : Nat) (e : Nat) (s : State) (hord : Orderly base s) :
    OrdOut base (execEngStep f e s) := by
  unfold execEngStep
  try dsimp only
  repeat' (first | with_reducible assumption | (simp (maxDischargeDepth := 50) [*]; done) | (refine orderly_foldl _ (fun s x hord' => ?_) _ ?_) | split)
@[simp] theorem execMbxIn_ord {base : State} (f : Nat) (i : Nat) (v : Word) (s : State) (hord : Orderly base s) :
    OrdOut base (execMbxIn f i v s) := by
  unfold execMbxIn
  try dsimp only
  repeat' (first | with_reducible assumption | (simp (maxDischargeDepth := 50) [*]; done) | (refine orderly_foldl _ (fun s x hord' => ?_) _ ?_) | split)
@[simp] theorem execMbxOut_ord {base : State} (f : Nat) (i : Nat) (v : Word) (s : State) (hord : Orderly base s) :
    OrdOut base (execMbxOut f i v s) := by
  unfold execMbxOut; split <;> first | exact State.hostWrite_ord _ _ _ _ hord | (simp [hord]; done)
@[simp] theorem execCounterLatch_ord {base : State} (f : Nat) (clear : Bool) (s : State) (hord : Orderly base s) :
    OrdOut base (execCounterLatch f clear s) := by
  unfold execCounterLatch
  try dsimp only
  repeat' (first | with_reducible assumption | (simp (maxDischargeDepth := 50) [*]; done) | (refine orderly_foldl _ (fun s x hord' => ?_) _ ?_) | split)
@[simp] theorem execTimedLatch_ord {base : State} (f : Nat) (s : State) (hord : Orderly base s) :
    OrdOut base (execTimedLatch f s) := by
  unfold execTimedLatch
  try dsimp only
  repeat' (first | with_reducible assumption | (simp (maxDischargeDepth := 50) [*]; done) | (refine orderly_foldl _ (fun s x hord' => ?_) _ ?_) | split)
@[simp] theorem execTapEnOff_ord {base : State} (f : Nat) (v : Nat) (s : State) (hord : Orderly base s) :
    OrdOut base (execTapEnOff f v s) := by
  unfold execTapEnOff
  try dsimp only
  repeat' (first | with_reducible assumption | (simp (maxDischargeDepth := 50) [*]; done) | (refine orderly_foldl _ (fun s x hord' => ?_) _ ?_) | split)
@[simp] theorem execTapEnOn_ord {base : State} (f : Nat) (v : Nat) (s : State) (hord : Orderly base s) :
    OrdOut base (execTapEnOn f v s) := by
  unfold execTapEnOn
  try dsimp only
  repeat' (first | with_reducible assumption | (simp (maxDischargeDepth := 50) [*]; done) | (refine orderly_foldl _ (fun s x hord' => ?_) _ ?_) | split)
@[simp] theorem execTapRecord_ord {base : State} (f : Nat) (s : State) (hord : Orderly base s) :
    OrdOut base (execTapRecord f s) := by
  unfold execTapRecord
  try dsimp only
  repeat' (first | with_reducible assumption | (simp (maxDischargeDepth := 50) [*]; done) | (refine orderly_foldl _ (fun s x hord' => ?_) _ ?_) | split)
@[simp] theorem execGapRecordEntry_ord {base : State} (f : Nat) (s : State) (hord : Orderly base s) :
    OrdOut base (execGapRecordEntry f s) := by
  unfold execGapRecordEntry
  try dsimp only
  repeat' (first | with_reducible assumption | (simp (maxDischargeDepth := 50) [*]; done) | (refine orderly_foldl _ (fun s x hord' => ?_) _ ?_) | split)
@[simp] theorem execStreamLoad_ord {base : State} (f : Nat) (e : Nat) (id : Nat) (n : Nat) (s : State) (hord : Orderly base s) :
    OrdOut base (execStreamLoad f e id n s) := by
  unfold execStreamLoad; split <;> first | exact State.hostWrite_ord _ _ _ _ hord | (simp [hord]; done)
@[simp] theorem State.scanCore_ord {base : State} (s : State) (kind : Nat) (data : List Nat) (hord : Orderly base s) :
    Orderly base (State.scanCore s kind data) := by
  unfold State.scanCore; split <;> first | exact State.hostWrite_ord _ _ _ _ hord | (simp [hord]; done)
@[simp] theorem State.dbgDeny_ord {base : State} (s : State) (x : Nat × Nat × Nat) (hord : Orderly base s) :
    Orderly base (State.dbgDeny s x) := by
  unfold State.dbgDeny
  try dsimp only
  repeat' (first | with_reducible assumption | (simp (maxDischargeDepth := 50) [*]; done) | (refine orderly_foldl _ (fun s x hord' => ?_) _ ?_) | split)
@[simp] theorem State.dbgAccess_ord {base : State} (s : State) (off : Nat) (need : Nat) (wr : Bool) (act : State → Out) (hact : ∀ (a0 : State), Orderly base a0 → OrdOut base (act a0)) (hord : Orderly base s) :
    OrdOut base (State.dbgAccess s off need wr act) := by
  unfold State.dbgAccess
  try dsimp only
  repeat' (first | with_reducible assumption | (simp (maxDischargeDepth := 50) [*]; done) | (refine orderly_foldl _ (fun s x hord' => ?_) _ ?_) | split)
@[simp] theorem orderly_ite_iff {c : Prop} [Decidable c] {x y : State} : Orderly base (if c then x else y) ↔ (c → Orderly base x) ∧ (¬ c → Orderly base y) := by
  by_cases h : c <;> simp [h]
@[simp] theorem orderly_foldl_mem {α : Type} {s : State} (g : State → α → State) (h : ∀ s x, Orderly base s → Orderly base (g s x)) (l : List α) (hs : Orderly base s) : Orderly base (l.foldl g s) := orderly_foldl g h l hs
@[simp] theorem State.discardRecord_ord (s : State) (q : Nat) (hord : Orderly base s) : Orderly base (s.discardRecord q) := by
  unfold State.discardRecord; dsimp only
  split
  · exact hord
  · refine State.setSrc_ord _ _ _ (State.setQueue_ord _ _ _ ?_)
    exact orderly_foldl _ (fun s x h => State.setOp_ord _ h) _ (orderly_foldl _ (fun s x h => State.dropOp_ord _ _ h) _ hord)
@[simp] theorem State.abortOwner_ord (s : State) (ow : Owner) (hord : Orderly base s) : Orderly base (s.abortOwner ow) := by
  unfold State.abortOwner; dsimp only
  (repeat' split) <;> simp (maxDischargeDepth := 50) [*]
@[simp] theorem State.checkFlushed_ord (s : State) (hord : Orderly base s) : Orderly base s.checkFlushed := by
  unfold State.checkFlushed
  split
  · dsimp only
    refine State.mapItems_ord _ _ ?_
    simp only [orderly_mk, ordOf_fold]
    refine orderly_foldl _ (fun s x h => ?_) _ hord
    simp [h]
  · exact hord
@[simp] theorem State.stopRequest_ord (s : State) (mask tt : Nat) (hord : Orderly base s) : Orderly base (s.stopRequest mask tt) := by
  unfold State.stopRequest; dsimp only
  refine State.toutEvent_ord _ _ (State.traceTrigger_ord _ _ _ _ (orderly_foldl _ (fun s x h => ?_) _ hord))
  simp [h]
@[simp] theorem State.ungate_ord (s : State) (t : Nat) (hord : Orderly base s) : Orderly base (s.ungate t) := by
  unfold State.ungate; dsimp only
  refine State.mapChains_ord _ _ (State.mapItems_ord _ _ (orderly_foldl _ (fun s x h => ?_) _ hord))
  simp [h]
@[simp] theorem State.lgErase_ord (s : State) (hord : Orderly base s) : Orderly base s.lgErase := by
  unfold State.lgErase; dsimp only
  (repeat' split) <;> simp (maxDischargeDepth := 50) [*]
@[simp] theorem State.dropFetch_ord (s : State) (n : Nat) (hord : Orderly base s) : Orderly base (s.dropFetch n) := by
  unfold State.dropFetch
  refine OrdOf.opsMap _ (?_ : Orderly base ((s.freeEntry (.fetch n)).dropUnqueued (.fetch n))) ?_
  · simp (maxDischargeDepth := 50) [hord]
  · intro y; split <;> rfl
@[simp] theorem State.reRecord_ord (s : State) (n : Nat) (i : Item) (v : Nat × Nat × Nat) (hord : Orderly base s) : Orderly base (s.reRecord n i v) := by
  unfold State.reRecord; dsimp only
  split <;> simp (maxDischargeDepth := 50) [*]
theorem OrdOf.more {p : List Instr} {n : Nat} {f : Fuses} {h st sr nr x : Mem} {l : List HostOp} {k : Nat} (j : Nat) (o : OrdOf base p n f h st sr nr x l k) (e : k ≤ j) : OrdOf base p n f h st sr nr x l j :=
  o.ops (fun w => ⟨w.1, fun y hy => Nat.lt_of_lt_of_le (w.2 y hy) e⟩)
@[simp] theorem State.issueBurst_ord (s : State) (w : Work) (o : Op) (write : Bool) (a n : Nat) (d : List Byte) (sl : Bool) (hord : Orderly base s) :
    Orderly base (s.issueBurst w o write a n d sl).1 := by
  unfold State.issueBurst; dsimp only
  generalize (if w.urgent then 32 else 28) = lim
  split
  · exact hord
  · exact State.modItem_ord _ _ _ (OrdOf.more _ hord (Nat.le_succ _))
@[simp] theorem State.issueNor_ord (s : State) (w : Work) (o : Op) (k a n : Nat) (d : List Byte) (hord : Orderly base s) :
    Orderly base (s.issueNor w o k a n d).1 := by
  unfold State.issueNor; dsimp only
  exact State.modItem_ord _ _ _ (OrdOf.more _ hord (Nat.le_succ _))
@[simp] theorem State.drRefill_ord (s : State) (hord : Orderly base s) : Orderly base s.drRefill := by
  unfold State.drRefill
  split
  · exact hord
  · refine orderly_foldl _ (fun s x h => ?_) _ hord
    dsimp only
    split
    · exact OrdOf.more _ h (Nat.le_succ _)
    · exact h
theorem maskOf_bit (n : Nat) (p : Nat → Bool) (b : Nat) : bit (maskOf n p) b = (decide (b < n) && p b) := by
  have key : ∀ n, maskOf n p < 2 ^ n ∧ ∀ b, (maskOf n p).testBit b = (decide (b < n) && p b) := by
    intro n
    induction n with
    | zero => simp [maskOf]
    | succ n ih =>
      have e : maskOf (n + 1) p = maskOf n p + place (b2n (p n)) n 1 := by simp [maskOf, List.range_succ, List.foldl_append]
      obtain ⟨h1, h2⟩ := ih
      have ep : place (b2n (p n)) n 1 = if p n then 2 ^ n else 0 := by
        unfold place b2n; cases p n <;> simp [Nat.one_shiftLeft]
      rw [e, ep]
      constructor
      · rw [Nat.pow_succ]; split <;> omega
      · intro b
        cases hp : p n
        · simp only [Bool.false_eq_true, if_false, Nat.add_zero, h2]
          by_cases hb : b = n
          · subst hb; simp [hp]
          · have : (b < n + 1) ↔ b < n := by omega
            simp [this]
        · simp only [if_true]
          rw [Nat.add_comm]
          rcases Nat.lt_trichotomy b n with hb | hb | hb
          · rw [Nat.testBit_two_pow_add_gt hb, h2]
            have : b < n + 1 := by omega
            simp [hb, this]
          · subst hb
            rw [Nat.testBit_two_pow_add_eq, h2]; simp [hp]
          · have hlt : 2 ^ n + maskOf n p < 2 ^ b := lt_of_lt_of_le (by rw [Nat.pow_succ]; omega : 2 ^ n + maskOf n p < 2 ^ (n + 1)) (Nat.pow_le_pow_right (by decide) hb)
            rw [Nat.testBit_lt_two_pow hlt]
            have : ¬ b < n + 1 := by omega
            simp [this]
  exact (key n).2 b

end Sys2Proof.Machine
end

