-- ==== Sys2Proof/Laws/OrderlyStrokes.lean ====
section
/-! SUPPORT. Fuses only burn; resets, strokes and the rows of descriptors are orderly. -/

namespace Sys2Proof.Machine

set_option linter.unusedTactic false
set_option linter.unreachableTactic false
set_option linter.unusedSimpArgs false
set_option linter.unusedVariables false
set_option linter.style.nameCheck false
set_option linter.unnecessarySeqFocus false
set_option maxHeartbeats 400000

variable {base : State}

theorem bit_or (a b i : Nat) : bit (a ||| b) i = (bit a i || bit b i) := Nat.testBit_or a b i
theorem tget_tput_ne {α : Type} [DecidableEq α] (d : α) (t : Tab α) (n m : Nat) (v : α) (h : m ≠ n) : tget d (tput d t n v) m = tget d t m := by
  rw [tget_tput, if_neg h]
theorem tget_tput_self {α : Type} [DecidableEq α] (d : α) (t : Tab α) (n : Nat) (v : α) : tget d (tput d t n v) n = v := by
  rw [tget_tput, if_pos rfl]
theorem Fuses.stay_trans {f g h : Fuses} (a : f.stay g) (b : g.stay h) : f.stay h := by
  obtain ⟨a1, a2, a3, a4, a5, a6, a7, a8⟩ := a
  obtain ⟨b1, b2, b3, b4, b5, b6, b7, b8⟩ := b
  exact ⟨b1.trans a1, fun i j h => b2 i j (a2 i j h), fun i h => b3 i (a3 i h), fun i h => b4 i (a4 i h), fun i l h => b5 i l (a5 i l h),
      fun i l h => b6 i l (a6 i l h), fun i l h => b7 i l (a7 i l h), fun i h => b8 i (a8 i h)⟩
theorem Fuses.stay_burnGroup (f : Fuses) (k v : Nat) : f.stay (f.burnGroup k v) := by
  refine ⟨rfl, fun j b h => ?_, fun _ h => h, fun _ h => h, fun _ _ h => h, fun _ _ h => h, fun _ _ h => h, fun _ h => h⟩
  show bit (tget 0 (tput 0 f.groups k (f.group k ||| v)) j) b = true
  by_cases e : j = k
  · subst e
    rw [tget_tput_self, bit_or, h]; rfl
  · rw [tget_tput_ne _ _ _ _ _ e]; exact h
theorem Fuses.stay_burnBit (f : Fuses) (b : Nat × Nat) : f.stay (f.burnBit b) := by
  unfold Fuses.burnBit
  split
  · refine ⟨rfl, fun _ _ h => h, fun i h => ?_, fun _ h => h, fun _ _ h => h, fun _ _ h => h, fun _ _ h => h, fun _ h => h⟩
    show (f.secret ||| _).getLsbD i = true
    rw [BitVec.getLsbD_or, h]; rfl
  · split
    · refine ⟨rfl, fun _ _ h => h, fun _ h => h, fun i h => ?_, fun _ _ h => h, fun _ _ h => h, fun _ _ h => h, fun _ h => h⟩
      show (f.ikeyHash ||| _).getLsbD i = true
      rw [BitVec.getLsbD_or, h]; rfl
    · split
      · refine ⟨rfl, fun _ _ h => h, fun _ h => h, fun _ h => h, fun i _ h => ?_, fun _ _ h => h, fun _ _ h => h, fun _ h => h⟩
        show bit (f.ikeyDone ||| _) i = true
        rw [bit_or, h]; rfl
      · exact Fuses.stay_burnGroup _ _ _
theorem Fuses.stay_burnList (stuck l : List (Nat × Nat)) (f : Fuses) : f.stay (f.burnList stuck l) := by
  unfold Fuses.burnList
  induction l generalizing f with
  | nil => exact Fuses.stay_refl f
  | cons b l ih =>
    rw [List.foldl_cons]
    refine Fuses.stay_trans ?_ (ih _)
    split
    · exact Fuses.stay_refl f
    · exact Fuses.stay_burnBit f b
theorem Fuses.stay_burnFloor (stuck l : List Nat) (f : Fuses) : f.stay (f.burnFloor stuck l) := by
  unfold Fuses.burnFloor
  generalize l.takeWhile (fun b => !stuck.contains b) = m
  induction m generalizing f with
  | nil => exact Fuses.stay_refl f
  | cons b l ih =>
    rw [List.foldl_cons]
    refine Fuses.stay_trans ?_ (ih _)
    refine ⟨rfl, fun _ _ h => h, fun _ h => h, fun _ h => h, fun _ _ h => h, fun _ _ h => h, fun i _ h => ?_, fun _ h => h⟩
    show bit (f.floor ||| _) i = true
    rw [bit_or, h]; rfl
theorem burnAll_floor (f : Fuses) (i : Nat) (l : i < 255) : bit f.burnAll.floor i = true := by
  unfold Fuses.burnAll bit
  dsimp only
  generalize h : (255 : Nat) = n at *
  rw [Nat.testBit_two_pow_sub_one]; exact decide_eq_true l
theorem Fuses.stay_burnAll (f : Fuses) : f.stay f.burnAll := by
  refine ⟨by simp only [Fuses.burnAll], fun k b h => by simpa only [Fuses.burnAll, Fuses.group] using h, fun i h => ?_, fun i h => ?_, fun i l h => ?_, fun i l h => ?_, fun i l h => ?_, fun i h => ?_⟩
  · have := BitVec.lt_of_getLsbD h
    simp only [Fuses.burnAll, BitVec.getLsbD_allOnes]; exact decide_eq_true this
  · have := BitVec.lt_of_getLsbD h
    simp only [Fuses.burnAll, BitVec.getLsbD_allOnes]; exact decide_eq_true this
  · show Nat.testBit 0xF i = true
    have : ∀ i < 4, Nat.testBit 0xF i = true := by decide
    exact this i l
  · show Nat.testBit 0xF i = true
    have : ∀ i < 4, Nat.testBit 0xF i = true := by decide
    exact this i l
  · exact burnAll_floor f i l
  · have := BitVec.lt_of_getLsbD h
    simp only [Fuses.burnAll, BitVec.getLsbD_allOnes]; exact decide_eq_true this
@[simp] theorem State.bootHalt_ord (s : State) (hord : Orderly base s) : Orderly base s.bootHalt := OrdOf.fuses hord (Fuses.stay_burnAll _)
@[simp] theorem State.burnList_ord (s : State) (stuck l : List (Nat × Nat)) (hord : Orderly base s) : Orderly base { s with fuses := s.fuses.burnList stuck l } :=
  OrdOf.fuses hord (Fuses.stay_burnList _ _ _)
@[simp] theorem State.burnFloor_ord (s : State) (stuck l : List Nat) (hord : Orderly base s) : Orderly base { s with fuses := s.fuses.burnFloor stuck l } :=
  OrdOf.fuses hord (Fuses.stay_burnFloor _ _ _)
@[simp] theorem State.scrapWipes_ord (s : State) (hord : Orderly base s) : Orderly base s.scrapWipes := by
  unfold State.scrapWipes State.zeroSram
  exact OrdOf.sram (OrdOf.store (OrdOf.nor hord (fun _ => rfl)) (fun _ => rfl)) (fun _ => rfl)
@[simp] theorem State.hostReset_ord (s : State) (hord : Orderly base s) : Orderly base s.hostReset := by
  unfold State.hostReset; dsimp only
  simp only [orderly_mk]
  have h : ∀ t : State, Orderly base t → OrdOf base t.pending t.now t.fuses t.host t.store t.sram t.nor [] t.htu.ops t.htu.nextId :=
    fun t ht => OrdOf.msix ht (fun _ => rfl)
  apply h
  refine State.htuReset_ord _ (State.sleepCheck_ord _ (State.queuesReset_ord _ ?_))
  refine orderly_foldl _ (fun s x h => ?_) _ (orderly_foldl _ (fun s x h => ?_) _ (orderly_foldl _ (fun s x h => ?_) _ hord)) <;> simp [h]
@[simp] theorem State.flr_ord (s : State) (hord : Orderly base s) : Orderly base s.flr := by
  unfold State.flr; dsimp only; simp only [orderly_mk, ordOf_fold]; exact State.hostReset_ord _ hord
@[simp] theorem State.fastReset_ord (s : State) (hord : Orderly base s) : Orderly base s.fastReset := by
  unfold State.fastReset; dsimp only
  simp only [orderly_mk]
  have h : ∀ (m : Mem) (t : State), twf 0 m = true → Orderly base t → OrdOf base t.pending t.now t.fuses t.host t.store m t.nor [] [] t.htu.nextId :=
    fun m t hm ht => OrdOf.opsNil (OrdOf.msix (OrdOf.sram ht (fun _ => hm)) (fun _ => rfl))
  refine h _ _ (twf_memOf _) ?_
  exact State.carBoot_ord _ (orderly_foldl _ (fun s x h => State.setChip_ord _ _ _ h) _ (State.dropNor_ord _ hord))
@[simp] theorem State.rebootNow_ord (s : State) (c : Nat) (hord : Orderly base s) : Orderly base (s.rebootNow c) := by
  unfold State.rebootNow; dsimp only
  simp only [orderly_mk, ordOf_fold]
  refine orderly_foldl _ (fun s x h => ?_) _ ?_ <;> simp [*]
@[simp] theorem State.scrapNow_ord (s : State) (hord : Orderly base s) : Orderly base s.scrapNow := by
  unfold State.scrapNow; (repeat' split) <;> simp (maxDischargeDepth := 50) [*]
@[simp] theorem State.porStart_ord (s : State) (hord : Orderly base s) : Orderly base s.porStart := by
  unfold State.porStart; dsimp only
  refine State.riseStops_ord _ ?_
  simp only [orderly_mk]
  have hord := State.dropNor_ord s hord
  exact OrdOf.opsNil (k := 0) (OrdOf.msix (OrdOf.store (OrdOf.sram (OrdOf.ops (k' := 0) (l' := []) hord (fun _ => ⟨by simp, fun _ h => by simp at h⟩)) (fun _ => twf_memOf _)) (fun _ => twf_memOf _)) (fun _ => rfl))
@[simp] theorem State.issueOp_ord (s : State) (w : Work) (o : Op) (hord : Orderly base s) : Orderly base (s.issueOp w o).1 := by
  unfold State.issueOp; dsimp only
  have hd := State.openData_ord s w o.k hord
  have hp : ∀ (f : Nat) (s : State), Orderly base s → Orderly base (s.setChain (f / 16) { s.chain (f / 16) with down := (s.chain (f / 16)).down ++ [.probe (f % 16) s.time (.item w o.ix)] }) :=
    fun f s h => State.setChain_ord _ _ _ h
  have h1 : ∀ (f a n : Nat) (s : State), Orderly base s → Orderly base (s.sendTxn (.item w o.ix) f false a n []) := fun f a n s h => State.sendTxn_ord _ _ _ _ _ _ _ h
  have h2 : ∀ (f a : Nat) (d : List Byte) (s : State), Orderly base s → Orderly base (((s.sendTxn (.item w o.ix) f true a d.length d).markArmed w f a).noteWrite w f a) :=
    fun f a d s h => State.noteWrite_ord _ _ _ _ (State.markArmed_ord _ _ _ _ (State.sendTxn_ord _ _ _ _ _ _ _ h))
  split
  · exact State.issueFabric_ord _ _ _ _ _ (h1 _ _ _) hd
  · exact State.issueFabric_ord _ _ _ _ _ (h2 _ _ _) hd
  · split
    · exact State.issueFabric_ord _ _ _ _ _ (hp _) hd
    · exact hd
  all_goals simp [hd]
theorem State.advanceAll_ord (w : Work) (adv : Advance) (hadv : ∀ s w i, Orderly base s → Orderly base (adv s w i)) (n : Nat) :
    ∀ s : State, Orderly base s → Orderly base (s.advanceAll w adv n) := by
  induction n with
  | zero => intro s h; exact h
  | succ n ih =>
    intro s h
    unfold State.advanceAll
    split
    · split
      · exact h
      · exact ih _ (hadv _ _ _ h)
    · exact h
theorem State.goOn_ord (s : State) (w : Work) (i : Item) (adv : Advance) (hadv : ∀ s w i, Orderly base s → Orderly base (adv s w i))
    (hord : Orderly base s) : Orderly base (s.goOn w i adv) := by
  unfold State.goOn
  have h := State.advanceAll_ord w adv hadv 16 s hord
  dsimp only
  repeat' split
  all_goals simp [h, hadv, hord]
theorem State.strokeLoop_ord (e : Nat) (w : Work) (adv : Advance) (hadv : ∀ s w i, Orderly base s → Orderly base (adv s w i))
    (rep : Report) (hrep : ∀ s w i st, Orderly base s → Orderly base (rep s w i st).1) (n : Nat) :
    ∀ s : State, Orderly base s → Orderly base (s.strokeLoop e w adv rep n) := by
  induction n with
  | zero => intro s h; unfold State.strokeLoop; simp [h]
  | succ n ih =>
    intro s h
    unfold State.strokeLoop
    split
    · simp [h]
    · split
      · simp [h]
      · split
        · dsimp only
          split
          · exact ih _ (by simp (maxDischargeDepth := 50) [h])
          · simp (maxDischargeDepth := 50) [h]
        · split
          · simp [h]
          · split
            · exact State.endItem_ord _ _ _ _ hrep h
            · exact ih _ (State.goOn_ord _ _ _ _ hadv h)
theorem State.stroke_ord (s : State) (e op : Nat) (adv : Advance) (hadv : ∀ s w i, Orderly base s → Orderly base (adv s w i))
    (rep : Report) (hrep : ∀ s w i st, Orderly base s → Orderly base (rep s w i st).1) (hord : Orderly base s) : Orderly base (s.stroke e op adv rep) := by
  unfold State.stroke
  repeat' split
  all_goals first | exact hord | exact State.strokeLoop_ord _ _ _ hadv _ hrep _ _ hord | simp [hord]
theorem State.row_ord (s : State) (e op : Nat) (note : State → Work → Item → State) (hnote : ∀ s w i, Orderly base s → Orderly base (note s w i)) (adv : Advance)
    (hadv : ∀ s w i, Orderly base s → Orderly base (adv s w i)) (rep : Report) (hrep : ∀ s w i st, Orderly base s → Orderly base (rep s w i st).1)
    (hord : Orderly base s) : OrdOut base (s.row e op note adv rep) := by
  unfold State.row
  split
  · simp [hord]
  · simp [State.stroke_ord _ _ _ _ hadv _ hrep (hnote _ _ _ hord)]
theorem ord_foldl_snd {α β : Type} (g : β × State → α → β × State) (h : ∀ p x, Orderly base p.2 → Orderly base (g p x).2) (l : List α) :
    ∀ p, Orderly base p.2 → Orderly base (l.foldl g p).2 := by
  induction l with
  | nil => intro p h; exact h
  | cons x l ih => intro p hp; exact ih _ (h p x hp)
theorem State.cacheUse_ord (s : State) (i : Item) (slot : Nat) (r : State × Item) (h : s.cacheUse i slot = some r) (hord : Orderly base s) : Orderly base r.1 := by
  unfold State.cacheUse at h
  split at h
  · cases h
  · cases h; exact hord
@[simp] theorem State.noteLost_ord (s t : State) (k : Nat) (hord : Orderly base t) : Orderly base (s.noteLost t k) := by
  unfold State.noteLost; split <;> simp [hord]
@[simp] theorem State.certInstall_ord (s : State) (v : CertView) (hord : Orderly base s) : Orderly base (s.certInstall v) := by
  unfold State.certInstall
  have hd : ∀ (t : State) (r slot src : Nat), Orderly base t → Orderly base ((t.coreReply [BitVec.ofNat 8 r]).certEnd r slot (src == 1)) :=
    fun t r slot src h => by simp (maxDischargeDepth := 50) [h]
  split
  · exact hord
  · dsimp only
    split
    · exact hd _ _ _ _ hord
    · split
      · exact hord
      · split
        · exact State.burnFloor_ord s _ _ hord
        · generalize hb : (if bit (certAt _ 7 1) 0 = true then s.fuses.floorBits (certAt _ 32 4 / 2 ^ 24) else []) = bits
          split
          · exact hord
          · have h2 := State.burnFloor_ord s v.stuck bits hord
            split
            · exact hd _ _ _ _ h2
            · exact hd _ _ _ _ h2
@[simp] theorem State.returnedWipe_ord (s : State) (m : Nat) (hord : Orderly base s) : Orderly base (s.returnedWipe m) := by
  unfold State.returnedWipe
  split
  · refine OrdOf.fuses (OrdOf.store (OrdOf.nor hord (fun h => twf_filter 0 _ _ h)) (fun _ => rfl)) ?_
    refine ⟨rfl, fun _ _ h => h, fun _ h => h, fun _ h => h, fun _ _ h => h, fun i l h => ?_, fun _ _ h => h, fun _ h => h⟩
    rw [show bit (maskOf 4 (fun b => bit s.fuses.retWiped b || !bit m b)) i = (decide (i < 4) && (bit s.fuses.retWiped i || !bit m i)) from maskOf_bit _ _ _]
    simp [l, h]
  · exact hord
@[simp] theorem State.resolve_ord {base : State} (s : State) (entry : Nat) (gen : Nat) (abort : Bool) (hord : Orderly base s) :
    Orderly base (State.resolve s entry gen abort) := by
  unfold State.resolve; split <;> first | exact State.hostWrite_ord _ _ _ _ hord | (simp [hord]; done)
@[simp] theorem State.recvRec_ord {base : State} (s : State) (f : Nat) (r : TraceRec) (hord : Orderly base s) :
    Orderly base (State.recvRec s f r) := by
  unfold State.recvRec
  try dsimp only
  (repeat' split) <;> (simp (maxDischargeDepth := 50) [*]; done)
@[simp] theorem State.recvTrace_ord {base : State} (s : State) (k : Nat) (hord : Orderly base s) :
    Orderly base (State.recvTrace s k) := by
  unfold State.recvTrace
  try dsimp only
  repeat' (first | with_reducible assumption | (simp (maxDischargeDepth := 50) [*]; done) | (refine orderly_foldl _ (fun s x hord' => ?_) _ ?_) | split)
@[simp] theorem State.traceReset_ord {base : State} (s : State) (f : Nat) (hord : Orderly base s) :
    Orderly base (State.traceReset s f) := by
  unfold State.traceReset
  try dsimp only
  (repeat' split) <;> (simp (maxDischargeDepth := 50) [*]; done)
@[simp] theorem State.relayRequest_ord {base : State} (s : State) (hord : Orderly base s) :
    Orderly base (State.relayRequest s) := by
  unfold State.relayRequest
  try dsimp only
  (repeat' split) <;> (simp (maxDischargeDepth := 50) [*]; done)
@[simp] theorem State.stopInFall_ord {base : State} (s : State) (k : Nat) (hord : Orderly base s) :
    Orderly base (State.stopInFall s k) := by
  unfold State.stopInFall; split <;> first | exact State.hostWrite_ord _ _ _ _ hord | (simp [hord]; done)
@[simp] theorem State.alertRelay_ord {base : State} (s : State) (hord : Orderly base s) :
    Orderly base (State.alertRelay s) := by
  unfold State.alertRelay; split <;> first | exact State.hostWrite_ord _ _ _ _ hord | (simp [hord]; done)
@[simp] theorem State.backupStop_ord {base : State} (s : State) (hord : Orderly base s) :
    Orderly base (State.backupStop s) := by
  unfold State.backupStop
  try dsimp only
  (repeat' split) <;> (simp (maxDischargeDepth := 50) [*]; done)
@[simp] theorem State.pllLocked_ord {base : State} (s : State) (hord : Orderly base s) :
    Orderly base (State.pllLocked s) := by
  unfold State.pllLocked
  try dsimp only
  (repeat' split) <;> (simp (maxDischargeDepth := 50) [*]; done)
@[simp] theorem State.scrapCheck_ord {base : State} (s : State) (hord : Orderly base s) :
    Orderly base (State.scrapCheck s) := by
  unfold State.scrapCheck; split <;> first | exact State.hostWrite_ord _ _ _ _ hord | (simp [hord]; done)
@[simp] theorem State.reboot_ord {base : State} (s : State) (hord : Orderly base s) :
    Orderly base (State.reboot s) := by
  unfold State.reboot; split <;> first | exact State.hostWrite_ord _ _ _ _ hord | (simp [hord]; done)
@[simp] theorem State.rebootReset_ord {base : State} (s : State) (hord : Orderly base s) :
    Orderly base (State.rebootReset s) := by
  unfold State.rebootReset; split <;> first | exact State.hostWrite_ord _ _ _ _ hord | (simp [hord]; done)
@[simp] theorem State.bootStage_ord {base : State} (s : State) (cause : Nat) (v : BootView) (hord : Orderly base s) :
    Orderly base (State.bootStage s cause v) := by
  unfold State.bootStage; split <;> first | exact State.hostWrite_ord _ _ _ _ hord | (simp [hord]; done)
@[simp] theorem execPowerOnReset_ord {base : State} (done : Bool) (straps : Nat) (pulls : Nat) (s : State) (hord : Orderly base s) :
    OrdOut base (execPowerOnReset done straps pulls s) := by
  unfold execPowerOnReset; split <;> first | exact State.hostWrite_ord _ _ _ _ hord | (simp [hord]; done)
@[simp] theorem execBoot_ord {base : State} (v : BootView) (s : State) (hord : Orderly base s) :
    OrdOut base (execBoot v s) := by
  unfold execBoot; split <;> first | exact State.hostWrite_ord _ _ _ _ hord | (simp [hord]; done)
@[simp] theorem execLastGaspErase_ord {base : State} (s : State) (hord : Orderly base s) :
    OrdOut base (execLastGaspErase s) := by
  unfold execLastGaspErase
  try dsimp only
  (repeat' split) <;> (simp (maxDischargeDepth := 50) [*]; done)
@[simp] theorem execPerstN_ord {base : State} (s : State) (hord : Orderly base s) :
    OrdOut base (execPerstN s) := by
  unfold execPerstN
  try dsimp only
  (repeat' split) <;> (simp (maxDischargeDepth := 50) [*]; done)
@[simp] theorem execFunctionLevelReset_ord {base : State} (s : State) (hord : Orderly base s) :
    OrdOut base (execFunctionLevelReset s) := by
  unfold execFunctionLevelReset
  try dsimp only
  (repeat' split) <;> (simp (maxDischargeDepth := 50) [*]; done)
@[simp] theorem execDlDown_ord {base : State} (s : State) (hord : Orderly base s) :
    OrdOut base (execDlDown s) := by
  unfold execDlDown
  try dsimp only
  (repeat' split) <;> (simp (maxDischargeDepth := 50) [*]; done)
@[simp] theorem State.lcsDone_ord {base : State} (s : State) (ow : Option Work) (src : Nat) (result : Nat) (from_ : Nat) (to_ : Nat) (hord : Orderly base s) :
    Orderly base (State.lcsDone s ow src result from_ to_) := by
  unfold State.lcsDone
  try dsimp only
  (repeat' split) <;> (simp (maxDischargeDepth := 50) [*]; done)
@[simp] theorem State.lcsFinish_ord {base : State} (s : State) (ow : Option Work) (src : Nat) (t : LcsTrans) (hord : Orderly base s) :
    Orderly base (State.lcsFinish s ow src t) := by
  unfold State.lcsFinish; split <;> first | exact State.hostWrite_ord _ _ _ _ hord | (simp [hord]; done)
@[simp] theorem execReturnedWipe_ord {base : State} (stuck : Nat) (s : State) (hord : Orderly base s) :
    OrdOut base (execReturnedWipe stuck s) := by
  unfold execReturnedWipe
  try dsimp only
  (repeat' split) <;> (simp (maxDischargeDepth := 50) [*]; done)
@[simp] theorem State.drainItem_ord {base : State} (s : State) (n : Nat) (i : Item) (hord : Orderly base s) :
    Orderly base (State.drainItem s n i) := by
  unfold State.drainItem
  try dsimp only
  (repeat' split) <;> (simp (maxDischargeDepth := 50) [*]; done)
@[simp] theorem State.ringDisable_ord {base : State} (s : State) (n : Nat) (hord : Orderly base s) :
    Orderly base (State.ringDisable s n) := by
  unfold State.ringDisable
  try dsimp only
  (repeat' split) <;> (simp (maxDischargeDepth := 50) [*]; done)
@[simp] theorem State.cplSent_ord {base : State} (s : State) (n : Nat) (hord : Orderly base s) :
    Orderly base (State.cplSent s n) := by
  unfold State.cplSent
  try dsimp only
  (repeat' split) <;> (simp (maxDischargeDepth := 50) [*]; done)
@[simp] theorem State.burstDone_ord {base : State} (s : State) (b : Burst) (hord : Orderly base s) :
    Orderly base (State.burstDone s b) := by
  unfold State.burstDone
  try dsimp only
  (repeat' split) <;> (simp (maxDischargeDepth := 50) [*]; done)
@[simp] theorem State.opComplete_ord {base : State} (s : State) (id : Nat) (d : List Byte) (ok : Bool) (hord : Orderly base s) :
    Orderly base (State.opComplete s id d ok) := by
  unfold State.opComplete
  try dsimp only
  (repeat' split) <;> (simp (maxDischargeDepth := 50) [*]; done)
@[simp] theorem State.complTimeout_ord {base : State} (s : State) (id : Nat) (hord : Orderly base s) :
    Orderly base (State.complTimeout s id) := by
  unfold State.complTimeout
  try dsimp only
  (repeat' split) <;> (simp (maxDischargeDepth := 50) [*]; done)
@[simp] theorem execNop_ord {base : State} (e : Nat) (s : State) (hord : Orderly base s) :
    OrdOut base (execNop e s) := by
  exact State.row_ord _ _ _ _ (fun s w i h => by simp (maxDischargeDepth := 50) [noCheck, h]) _ (fun s w i h => by simp (maxDischargeDepth := 50) [h]) _ (fun s w i st h => by simp (maxDischargeDepth := 50) [h]) hord
@[simp] theorem execWait_ord {base : State} (e : Nat) (s : State) (hord : Orderly base s) :
    OrdOut base (execWait e s) := by
  exact State.row_ord _ _ _ _ (fun s w i h => by simp (maxDischargeDepth := 50) [noCheck, h]) _ (fun s w i h => by simp (maxDischargeDepth := 50) [h]) _ (fun s w i st h => by simp (maxDischargeDepth := 50) [h]) hord
@[simp] theorem execSignal_ord {base : State} (e : Nat) (s : State) (hord : Orderly base s) :
    OrdOut base (execSignal e s) := by
  exact State.row_ord _ _ _ _ (fun s w i h => by simp (maxDischargeDepth := 50) [noCheck, h]) _ (fun s w i h => by simp (maxDischargeDepth := 50) [h]) _ (fun s w i st h => by simp (maxDischargeDepth := 50) [h]) hord
@[simp] theorem execFence_ord {base : State} (e : Nat) (s : State) (hord : Orderly base s) :
    OrdOut base (execFence e s) := by
  exact State.row_ord _ _ _ _ (fun s w i h => by simp (maxDischargeDepth := 50) [noCheck, h]) _ (fun s w i h => by simp (maxDischargeDepth := 50) [h]) _ (fun s w i st h => by simp (maxDischargeDepth := 50) [h]) hord
@[simp] theorem pealAdv_ord {base : State} (x0 : State) (x1 : Work) (x2 : Item) (hord : Orderly base x0) :
    Orderly base (pealAdv x0 x1 x2) := by
  unfold pealAdv
  try dsimp only
  (repeat' split) <;> (simp (maxDischargeDepth := 50) [*]; done)
@[simp] theorem execPeal_ord {base : State} (e : Nat) (s : State) (hord : Orderly base s) :
    OrdOut base (execPeal e s) := by
  exact State.row_ord _ _ _ _ (fun s w i h => by simp (maxDischargeDepth := 50) [noCheck, h]) _ (fun s w i h => by simp (maxDischargeDepth := 50) [h]) _ (fun s w i st h => by simp (maxDischargeDepth := 50) [h]) hord
@[simp] theorem execToll_ord {base : State} (e : Nat) (s : State) (hord : Orderly base s) :
    OrdOut base (execToll e s) := by
  exact State.row_ord _ _ _ _ (fun s w i h => by simp (maxDischargeDepth := 50) [noCheck, h]) _ (fun s w i h => by simp (maxDischargeDepth := 50) [h]) _ (fun s w i st h => by simp (maxDischargeDepth := 50) [h]) hord
@[simp] theorem execMuffle_ord {base : State} (e : Nat) (s : State) (hord : Orderly base s) :
    OrdOut base (execMuffle e s) := by
  exact State.row_ord _ _ _ _ (fun s w i h => by simp (maxDischargeDepth := 50) [noCheck, h]) _ (fun s w i h => by simp (maxDischargeDepth := 50) [h]) _ (fun s w i st h => by simp (maxDischargeDepth := 50) [h]) hord
@[simp] theorem execResume_ord {base : State} (e : Nat) (s : State) (hord : Orderly base s) :
    OrdOut base (execResume e s) := by
  exact State.row_ord _ _ _ _ (fun s w i h => by simp (maxDischargeDepth := 50) [noCheck, h]) _ (fun s w i h => by simp (maxDischargeDepth := 50) [h]) _ (fun s w i st h => by simp (maxDischargeDepth := 50) [h]) hord
@[simp] theorem execStepCore_ord {base : State} (e : Nat) (s : State) (hord : Orderly base s) :
    OrdOut base (execStepCore e s) := by
  exact State.row_ord _ _ _ _ (fun s w i h => by simp (maxDischargeDepth := 50) [noCheck, h]) _ (fun s w i h => by simp (maxDischargeDepth := 50) [h]) _ (fun s w i st h => by simp (maxDischargeDepth := 50) [h]) hord
@[simp] theorem execStepEngine_ord {base : State} (e : Nat) (s : State) (hord : Orderly base s) :
    OrdOut base (execStepEngine e s) := by
  exact State.row_ord _ _ _ _ (fun s w i h => by simp (maxDischargeDepth := 50) [noCheck, h]) _ (fun s w i h => by simp (maxDischargeDepth := 50) [h]) _ (fun s w i st h => by simp (maxDischargeDepth := 50) [h]) hord
@[simp] theorem execBreakSet_ord {base : State} (e : Nat) (s : State) (hord : Orderly base s) :
    OrdOut base (execBreakSet e s) := by
  exact State.row_ord _ _ _ _ (fun s w i h => by simp (maxDischargeDepth := 50) [noCheck, h]) _ (fun s w i h => by simp (maxDischargeDepth := 50) [h]) _ (fun s w i st h => by simp (maxDischargeDepth := 50) [h]) hord
@[simp] theorem execBreakClear_ord {base : State} (e : Nat) (s : State) (hord : Orderly base s) :
    OrdOut base (execBreakClear e s) := by
  exact State.row_ord _ _ _ _ (fun s w i h => by simp (maxDischargeDepth := 50) [noCheck, h]) _ (fun s w i h => by simp (maxDischargeDepth := 50) [h]) _ (fun s w i st h => by simp (maxDischargeDepth := 50) [h]) hord
@[simp] theorem execStopRelay_ord {base : State} (k : Nat) (s : State) (hord : Orderly base s) :
    OrdOut base (execStopRelay k s) := by
  unfold execStopRelay
  try dsimp only
  (repeat' split) <;> (simp (maxDischargeDepth := 50) [*]; done)
@[simp] theorem execTollBackupStop_ord {base : State} (s : State) (hord : Orderly base s) :
    OrdOut base (execTollBackupStop s) := by
  unfold execTollBackupStop
  try dsimp only
  (repeat' split) <;> (simp (maxDischargeDepth := 50) [*]; done)
@[simp] theorem State.monitorStep_ord {base : State} (s : State) (w : Work) (i : Item) (hord : Orderly base s) :
    Orderly base (State.monitorStep s w i) := by
  unfold State.monitorStep
  try dsimp only
  (repeat' split) <;> (simp (maxDischargeDepth := 50) [*]; done)
@[simp] theorem State.monitorPoll_ord {base : State} (s : State) (n : Nat) (hord : Orderly base s) :
    Orderly base (State.monitorPoll s n) := by
  unfold State.monitorPoll
  try dsimp only
  (repeat' split) <;> (simp (maxDischargeDepth := 50) [*]; done)
@[simp] theorem execReadReg_ord {base : State} (e : Nat) (s : State) (hord : Orderly base s) :
    OrdOut base (execReadReg e s) := by
  exact State.row_ord _ _ _ _ (fun s w i h => by simp (maxDischargeDepth := 50) [noCheck, h]) _ (fun s w i h => by simp (maxDischargeDepth := 50) [h]) _ (fun s w i st h => by simp (maxDischargeDepth := 50) [h]) hord
@[simp] theorem execWriteReg_ord {base : State} (e : Nat) (s : State) (hord : Orderly base s) :
    OrdOut base (execWriteReg e s) := by
  exact State.row_ord _ _ _ _ (fun s w i h => by simp (maxDischargeDepth := 50) [noCheck, h]) _ (fun s w i h => by simp (maxDischargeDepth := 50) [h]) _ (fun s w i st h => by simp (maxDischargeDepth := 50) [h]) hord
@[simp] theorem execReadMem_ord {base : State} (e : Nat) (s : State) (hord : Orderly base s) :
    OrdOut base (execReadMem e s) := by
  exact State.row_ord _ _ _ _ (fun s w i h => by simp (maxDischargeDepth := 50) [noCheck, h]) _ (fun s w i h => by simp (maxDischargeDepth := 50) [h]) _ (fun s w i st h => by simp (maxDischargeDepth := 50) [h]) hord
@[simp] theorem execWriteMem_ord {base : State} (e : Nat) (s : State) (hord : Orderly base s) :
    OrdOut base (execWriteMem e s) := by
  exact State.row_ord _ _ _ _ (fun s w i h => by simp (maxDischargeDepth := 50) [noCheck, h]) _ (fun s w i h => by simp (maxDischargeDepth := 50) [h]) _ (fun s w i st h => by simp (maxDischargeDepth := 50) [h]) hord
@[simp] theorem execMonitorReplyPoll_ord {base : State} (w : Nat) (s : State) (hord : Orderly base s) :
    OrdOut base (execMonitorReplyPoll w s) := by
  unfold execMonitorReplyPoll
  try dsimp only
  (repeat' split) <;> (simp (maxDischargeDepth := 50) [*]; done)
@[simp] theorem execDumpPlan_ord {base : State} (e : Nat) (s : State) (hord : Orderly base s) :
    OrdOut base (execDumpPlan e s) := by
  exact State.row_ord _ _ _ _ (fun s w i h => by simp (maxDischargeDepth := 50) [noCheck, h]) _ (fun s w i h => by simp (maxDischargeDepth := 50) [h]) _ (fun s w i st h => by simp (maxDischargeDepth := 50) [h]) hord
@[simp] theorem execStoreDrain_ord {base : State} (e : Nat) (s : State) (hord : Orderly base s) :
    OrdOut base (execStoreDrain e s) := by
  exact State.row_ord _ _ _ _ (fun s w i h => by simp (maxDischargeDepth := 50) [noCheck, h]) _ (fun s w i h => by simp (maxDischargeDepth := 50) [h]) _ (fun s w i st h => by simp (maxDischargeDepth := 50) [h]) hord
@[simp] theorem stopAdv_ord {base : State} (x0 : State) (x1 : Work) (x2 : Item) (hord : Orderly base x0) :
    Orderly base (stopAdv x0 x1 x2) := by
  unfold stopAdv
  try dsimp only
  (repeat' split) <;> (simp (maxDischargeDepth := 50) [*]; done)
@[simp] theorem execTraceStop_ord {base : State} (e : Nat) (s : State) (hord : Orderly base s) :
    OrdOut base (execTraceStop e s) := by
  exact State.row_ord _ _ _ _ (fun s w i h => by simp (maxDischargeDepth := 50) [noCheck, h]) _ (fun s w i h => by simp (maxDischargeDepth := 50) [h]) _ (fun s w i st h => by simp (maxDischargeDepth := 50) [h]) hord
@[simp] theorem execTraceDrain_ord {base : State} (e : Nat) (s : State) (hord : Orderly base s) :
    OrdOut base (execTraceDrain e s) := by
  exact State.row_ord _ _ _ _ (fun s w i h => by simp (maxDischargeDepth := 50) [noCheck, h]) _ (fun s w i h => by simp (maxDischargeDepth := 50) [h]) _ (fun s w i st h => by simp (maxDischargeDepth := 50) [h]) hord
@[simp] theorem execCounterSnap_ord {base : State} (e : Nat) (s : State) (hord : Orderly base s) :
    OrdOut base (execCounterSnap e s) := by
  exact State.row_ord _ _ _ _ (fun s w i h => by simp (maxDischargeDepth := 50) [noCheck, h]) _ (fun s w i h => by simp (maxDischargeDepth := 50) [h]) _ (fun s w i st h => by simp (maxDischargeDepth := 50) [h]) hord
@[simp] theorem State.alertReset_ord {base : State} (s : State) (k : Nat) (p : Nat) (hord : Orderly base s) :
    Orderly base (State.alertReset s k p) := by
  unfold State.alertReset
  try dsimp only
  (repeat' split) <;> (simp (maxDischargeDepth := 50) [*]; done)
@[simp] theorem State.alertHalt_ord {base : State} (s : State) (word : Nat) (hord : Orderly base s) :
    Orderly base (State.alertHalt s word) := by
  unfold State.alertHalt
  try dsimp only
  (repeat' split) <;> (simp (maxDischargeDepth := 50) [*]; done)
@[simp] theorem State.alertAccept_ord {base : State} (s : State) (k : Nat) (p : Nat) (word : Nat) (hord : Orderly base s) :
    Orderly base (State.alertAccept s k p word) := by
  unfold State.alertAccept
  try dsimp only
  (repeat' split) <;> (simp (maxDischargeDepth := 50) [*]; done)
@[simp] theorem State.recvAlert_ord {base : State} (s : State) (k : Nat) (p : Nat) (hord : Orderly base s) :
    Orderly base (State.recvAlert s k p) := by
  unfold State.recvAlert; split <;> first | exact State.hostWrite_ord _ _ _ _ hord | (simp [hord]; done)
@[simp] theorem State.disableChains_ord {base : State} (s : State) (m : Nat) (hord : Orderly base s) :
    Orderly base (State.disableChains s m) := by
  unfold State.disableChains
  try dsimp only
  repeat' (first | with_reducible assumption | (simp (maxDischargeDepth := 50) [*]; done) | (refine orderly_foldl _ (fun s x hord' => ?_) _ ?_) | split)
@[simp] theorem lcsRep_ord {base : State} (x0 : State) (x1 : Work) (x2 : Item) (x3 : Status) (hord : Orderly base x0) :
    Orderly base (lcsRep x0 x1 x2 x3).1 := by
  unfold lcsRep; split <;> first | exact State.hostWrite_ord _ _ _ _ hord | (simp [hord]; done)
@[simp] theorem execLcsRequest_ord {base : State} (e : Nat) (s : State) (hord : Orderly base s) :
    OrdOut base (execLcsRequest e s) := by
  exact State.row_ord _ _ _ _ (fun s w i h => by simp (maxDischargeDepth := 50) [noCheck, h]) _ (fun s w i h => by simp (maxDischargeDepth := 50) [h]) _ (fun s w i st h => by simp (maxDischargeDepth := 50) [h]) hord
@[simp] theorem execCertInstall_ord {base : State} (e : Nat) (s : State) (hord : Orderly base s) :
    OrdOut base (execCertInstall e s) := by
  exact State.row_ord _ _ _ _ (fun s w i h => by simp (maxDischargeDepth := 50) [noCheck, h]) _ (fun s w i h => by simp (maxDischargeDepth := 50) [h]) _ (fun s w i st h => by simp (maxDischargeDepth := 50) [h]) hord
@[simp] theorem execCertDrop_ord {base : State} (e : Nat) (s : State) (hord : Orderly base s) :
    OrdOut base (execCertDrop e s) := by
  exact State.row_ord _ _ _ _ (fun s w i h => by simp (maxDischargeDepth := 50) [noCheck, h]) _ (fun s w i h => by simp (maxDischargeDepth := 50) [h]) _ (fun s w i st h => by simp (maxDischargeDepth := 50) [h]) hord
@[simp] theorem State.resolveCopies_ord {base : State} (s : State) (w : Work) (i : Item) (n : Nat) (hord : Orderly base s) :
    Orderly base (State.resolveCopies s w i n) := by
  unfold State.resolveCopies
  try dsimp only
  (repeat' split) <;> (simp (maxDischargeDepth := 50) [*]; done)
@[simp] theorem execShardInvalidate_ord {base : State} (e : Nat) (s : State) (hord : Orderly base s) :
    OrdOut base (execShardInvalidate e s) := by
  exact State.row_ord _ _ _ _ (fun s w i h => by simp (maxDischargeDepth := 50) [noCheck, h]) _ (fun s w i h => by simp (maxDischargeDepth := 50) [h]) _ (fun s w i st h => by simp (maxDischargeDepth := 50) [h]) hord
@[simp] theorem State.offEntry_ord {base : State} (s : State) (hord : Orderly base s) :
    Orderly base (State.offEntry s) := by
  unfold State.offEntry; split <;> first | exact State.hostWrite_ord _ _ _ _ hord | (simp [hord]; done)
@[simp] theorem execSleep_ord {base : State} (e : Nat) (s : State) (hord : Orderly base s) :
    OrdOut base (execSleep e s) := by
  exact State.row_ord _ _ _ _ (fun s w i h => by simp (maxDischargeDepth := 50) [noCheck, h]) _ (fun s w i h => by simp (maxDischargeDepth := 50) [h]) _ (fun s w i st h => by simp (maxDischargeDepth := 50) [h]) hord
@[simp] theorem execOffEntry_ord {base : State} (s : State) (hord : Orderly base s) :
    OrdOut base (execOffEntry s) := by
  unfold execOffEntry
  try dsimp only
  (repeat' split) <;> (simp (maxDischargeDepth := 50) [*]; done)
@[simp] theorem State.lgWrite_ord {base : State} (s : State) (hord : Orderly base s) :
    Orderly base (State.lgWrite s) := by
  unfold State.lgWrite; split <;> first | exact State.hostWrite_ord _ _ _ _ hord | (simp [hord]; done)
@[simp] theorem State.lastGasp_ord {base : State} (s : State) (hord : Orderly base s) :
    Orderly base (State.lastGasp s) := by
  unfold State.lastGasp
  try dsimp only
  (repeat' split) <;> (simp (maxDischargeDepth := 50) [*]; done)
@[simp] theorem execLastGaspWrite_ord {base : State} (s : State) (hord : Orderly base s) :
    OrdOut base (execLastGaspWrite s) := by
  unfold execLastGaspWrite
  try dsimp only
  (repeat' split) <;> (simp (maxDischargeDepth := 50) [*]; done)
@[simp] theorem State.cfgPut_ord {base : State} (s : State) (o : Nat) (v : Nat) (m : Nat) (hord : Orderly base s) :
    Orderly base (State.cfgPut s o v m) := by
  unfold State.cfgPut
  try dsimp only
  (repeat' split) <;> (simp (maxDischargeDepth := 50) [*]; done)
@[simp] theorem State.cfgWrite_ord {base : State} (s : State) (off : Nat) (size : Nat) (v : Nat) (hord : Orderly base s) :
    Orderly base (State.cfgWrite s off size v) := by
  unfold State.cfgWrite; split <;> first | exact State.hostWrite_ord _ _ _ _ hord | (simp [hord]; done)
@[simp] theorem lcsWrite_ord {base : State} (s : State) (o : Nat) (v : Nat) (hord : Orderly base s) :
    Orderly base (lcsWrite s o v) := by
  unfold lcsWrite; split <;> first | exact State.hostWrite_ord _ _ _ _ hord | (simp [hord]; done)
@[simp] theorem htuWrite_ord {base : State} (s : State) (o : Nat) (v : Nat) (hord : Orderly base s) :
    Orderly base (htuWrite s o v) := by
  unfold htuWrite
  try dsimp only
  (repeat' split) <;> (simp (maxDischargeDepth := 50) [*]; done)
@[simp] theorem ringWrite_ord {base : State} (s : State) (n : Nat) (o : Nat) (v : Nat) (hord : Orderly base s) :
    Orderly base (ringWrite s n o v) := by
  unfold ringWrite; split <;> first | exact State.hostWrite_ord _ _ _ _ hord | (simp [hord]; done)
@[simp] theorem State.loadIr_ord {base : State} (s : State) (code : Nat) (hord : Orderly base s) :
    Orderly base (State.loadIr s code) := by
  unfold State.loadIr
  try dsimp only
  (repeat' split) <;> (simp (maxDischargeDepth := 50) [*]; done)
@[simp] theorem State.drStart_ord {base : State} (s : State) (first : Nat) (count : Nat) (hord : Orderly base s) :
    Orderly base (State.drStart s first count) := by
  unfold State.drStart
  try dsimp only
  (repeat' split) <;> (simp (maxDischargeDepth := 50) [*]; done)
@[simp] theorem State.drAdvance_ord {base : State} (s : State) (hord : Orderly base s) :
    Orderly base (State.drAdvance s) := by
  unfold State.drAdvance; split <;> first | exact State.hostWrite_ord _ _ _ _ hord | (simp [hord]; done)
@[simp] theorem State.dumpTake_ord {base : State} (s : State) (hord : Orderly base s) :
    Orderly base (State.dumpTake s) := by
  unfold State.dumpTake; split <;> first | exact State.hostWrite_ord _ _ _ _ hord | (simp [hord]; done)
@[simp] theorem State.aonTick_ord {base : State} (s : State) (hord : Orderly base s) :
    Orderly base (State.aonTick s) := by
  unfold State.aonTick
  try dsimp only
  repeat' (first | with_reducible assumption | (simp (maxDischargeDepth := 50) [*]; done) | (refine orderly_foldl _ (fun s x hord' => ?_) _ ?_) | split)

end Sys2Proof.Machine
end

