-- ==== Sys2Proof/Laws/OrderlyCommands.lean ====
section
/-! SUPPORT. What is left of the commands is orderly, one lemma for each. -/

namespace Sys2Proof.Machine

set_option linter.unusedTactic false
set_option linter.unreachableTactic false
set_option linter.unusedSimpArgs false
set_option linter.unusedVariables false
set_option linter.style.nameCheck false
set_option linter.unnecessarySeqFocus false
set_option maxHeartbeats 400000

variable {base : State}

@[simp] theorem State.stopCapture_ord (s : State) (code : Nat) (hord : Orderly base s) : Orderly base (s.stopCapture code) := by
  unfold State.stopCapture; dsimp only
  refine State.checkFlushed_ord _ (orderly_foldl _ (fun s x h => ?_) _ ?_) <;> simp [*]
@[simp] theorem State.captureEnd_ord (s : State) (hord : Orderly base s) : Orderly base s.captureEnd := by
  unfold State.captureEnd; split <;> simp [hord]
@[simp] theorem State.traceEnable_ord (s : State) (on : Bool) (hord : Orderly base s) : Orderly base (s.traceEnable on) := by
  unfold State.traceEnable; dsimp only; (repeat' split) <;> simp (maxDischargeDepth := 50) [*]
@[simp] theorem State.lcsCarry_ord (s : State) (ow : Option Work) (src : Nat) (t : LcsTrans) (v : LcsView) (hord : Orderly base s) : Orderly base (s.lcsCarry ow src t v) := by
  unfold State.lcsCarry
  dsimp only
  split
  · simp [hord]
  · split
    · simp [hord]
    · have h : Orderly base (if t.target = 6 ∧ (!t.wiped) = true then s.scrapWipes else s) := by split <;> simp [hord]
      generalize (if t.target = 6 ∧ (!t.wiped) = true then s.scrapWipes else s) = u at h
      have h2 := fun l => State.burnList_ord u v.stuck l h
      (repeat' split) <;> first | exact State.lcsFinish_ord _ _ _ _ (h2 _) | exact h2 _
@[simp] theorem State.lcsTransition_ord (s : State) (v : LcsView) (hord : Orderly base s) : Orderly base (s.lcsTransition v) := by
  unfold State.lcsTransition; dsimp only; (repeat' split) <;> simp (maxDischargeDepth := 50) [*]
@[simp] theorem State.enableChains_ord (s : State) (w : Work) (i : Item) (hord : Orderly base s) : Orderly base (s.enableChains w i) := by
  unfold State.enableChains; dsimp only
  exact State.modItem_ord _ _ _ (orderly_foldl _ (fun s x h => State.enableChain_ord _ _ h) _ hord)
@[simp] theorem armRep_ord (s : State) (w : Work) (i : Item) (st : Status) (hord : Orderly base s) : Orderly base (armRep s w i st).1 := by
  unfold armRep; dsimp only
  split
  · exact hord
  · refine State.checkFlushed_ord _ (orderly_foldl _ (fun s x h => ?_) _ hord)
    simp [h]
@[simp] theorem invAdv_ord (s : State) (w : Work) (i : Item) (hord : Orderly base s) : Orderly base (invAdv s w i) := by
  unfold invAdv; dsimp only
  split
  · simp [hord]
  · refine State.setItem_ord _ _ _ (OrdOf.opsMap _ hord ?_)
    intro y; unfold HostOp.discardFor; (repeat' split) <;> rfl
@[simp] theorem State.romStage_ord (s : State) (hord : Orderly base s) : Orderly base s.romStage := by
  unfold State.romStage
  have h : ∀ t : State, Orderly base t → Orderly base (t.strokeLoop 4 (.ring 0) stageAdv stageRep 2000) :=
    fun t ht => State.strokeLoop_ord 4 (.ring 0) stageAdv (fun s w i h => by simp [h]) stageRep (fun s w i st h => by simp [h]) 2000 t ht
  split
  · split
    · exact hord
    · apply h; split <;> simp [hord]
  · exact hord
@[simp] theorem State.resolveSlot_ord (s : State) (w : Work) (i : Item) (hord : Orderly base s) : Orderly base (s.resolveSlot w i) := by
  unfold State.resolveSlot
  split
  · simp [hord]
  · split
    · simp [hord]
    · split
      · rename_i r h
        split at h
        · simp [State.cacheUse_ord s i _ r h hord]
        · cases h
      · dsimp only; split <;> simp [hord]
@[simp] theorem State.resolve__ord (s : State) (w : Work) (i : Item) (n : Nat) (hord : Orderly base s) : Orderly base (s.resolve_ w i n) := by
  unfold State.resolve_; dsimp only
  repeat' with_reducible refine orderly_ite ?_ ?_
  all_goals with_reducible first
    | exact State.setItem_ord _ _ _ hord
    | exact State.resolveSlot_ord _ _ _ hord
    | exact State.probeSlot_ord _ _ _ hord
    | exact State.shardsRead_ord _ _ _ hord
    | exact State.resolveSources_ord _ _ _ _ hord
    | exact State.resolveCopies_ord _ _ _ _ (orderly_foldl _ (fun s x h => State.cacheFill_ord _ _ _ h) _ hord)
@[simp] theorem State.survivalStart_ord (s : State) (hord : Orderly base s) : Orderly base s.survivalStart := by
  unfold State.survivalStart; dsimp only
  split
  · refine State.addGasp_ord _ ?_
    split
    · refine orderly_foldl _ (fun s x h => ?_) _ ?_
      · split <;> simp [h]
      · simp [hord]
    · simp [hord]
  · exact hord
@[simp] theorem State.cutOpen_ord (s : State) (i : Item) (hord : Orderly base s) : Orderly base (s.cutOpen i).2.2 := by
  unfold State.cutOpen
  dsimp only
  have h := fun (l : List Nat) => ord_foldl_snd (fun (p : List (Nat × List Byte) × State) (f : Nat) =>
    (p.1 ++ [(f, leBytes 24 (p.2.freeWide 192).1.toNat)], (p.2.freeWide 192).2)) (fun p x h => State.freeWide_ord p.2 192 h) l ([], s) hord
  split
  · exact h _
  · exact State.free_ord _ (h _)
@[simp] theorem State.cutWrite_ord (s : State) (w : Work) (i : Item) (hord : Orderly base s) : Orderly base (s.cutWrite w i) := by
  unfold State.cutWrite; dsimp only
  exact State.setItem_ord _ _ _ (State.cutOpen_ord _ _ (State.cutLost_ord _ _ hord))
@[simp] theorem State.dumpBatch_ord (s : State) (w : Work) (i : Item) (n : Nat) (hord : Orderly base s) : Orderly base (s.dumpBatch w i n) := by
  unfold State.dumpBatch; dsimp only
  generalize (if _ ≠ 0 ∨ _ ≠ 0 then _ else _ : Ctx × Item) = p
  have h := State.setCtx_ord s n p.1 hord
  (repeat' split) <;> simp (maxDischargeDepth := 50) [h]
@[simp] theorem execLcsTransition_ord {base : State} (v : LcsView) (s : State) (hord : Orderly base s) :
    OrdOut base (execLcsTransition v s) := by
  exact State.gated_ord _ _ (fun s h => by simp (maxDischargeDepth := 50) [h]) hord
@[simp] theorem execCertCheckInstall_ord {base : State} (v : CertView) (s : State) (hord : Orderly base s) :
    OrdOut base (execCertCheckInstall v s) := by
  exact State.gated_ord _ _ (fun s h => by simp (maxDischargeDepth := 50) [h]) hord
@[simp] theorem execOperationComplete_ord {base : State} (id : Nat) (data : List Byte) (ok : Bool) (s : State) (hord : Orderly base s) :
    OrdOut base (execOperationComplete id data ok s) := by
  exact State.gated_ord _ _ (fun s h => by simp (maxDischargeDepth := 50) [h]) hord
@[simp] theorem execCompletionTimeout_ord {base : State} (id : Nat) (s : State) (hord : Orderly base s) :
    OrdOut base (execCompletionTimeout id s) := by
  exact State.gated_ord _ _ (fun s h => by simp (maxDischargeDepth := 50) [h]) hord
@[simp] theorem execCompletionTransmitted_ord {base : State} (r : Nat) (s : State) (hord : Orderly base s) :
    OrdOut base (execCompletionTransmitted r s) := by
  exact State.gated_ord _ _ (fun s h => by simp (maxDischargeDepth := 50) [h]) hord
@[simp] theorem execWalkReadComplete_ord {base : State} (id : Nat) (entry : Nat) (err : Bool) (s : State) (hord : Orderly base s) :
    OrdOut base (execWalkReadComplete id entry err s) := by
  exact State.gated_ord _ _ (fun s h => by simp (maxDischargeDepth := 50) [h]) hord
@[simp] theorem cutAdv_ord {base : State} (x0 : State) (x1 : Work) (x2 : Item) (hord : Orderly base x0) :
    Orderly base (cutAdv x0 x1 x2) := by
  unfold cutAdv; split <;> first | exact State.hostWrite_ord _ _ _ _ hord | (simp [hord]; done)
@[simp] theorem execCutCollect_ord {base : State} (e : Nat) (s : State) (hord : Orderly base s) :
    OrdOut base (execCutCollect e s) := by
  exact State.row_ord _ _ _ _ (fun s w i h => by simp (maxDischargeDepth := 50) [noCheck, h]) _ (fun s w i h => by simp (maxDischargeDepth := 50) [h]) _ (fun s w i st h => by simp (maxDischargeDepth := 50) [h]) hord
@[simp] theorem State.dumpGo_ord {base : State} (s : State) (w : Work) (i : Item) (n : Nat) (hord : Orderly base s) :
    Orderly base (State.dumpGo s w i n) := by
  unfold State.dumpGo; split <;> first | exact State.hostWrite_ord _ _ _ _ hord | (simp [hord]; done)
@[simp] theorem dumpStep_ord {base : State} (x0 : State) (x1 : Work) (x2 : Item) (hord : Orderly base x0) :
    Orderly base (dumpStep x0 x1 x2) := by
  unfold dumpStep
  try dsimp only
  (repeat' split) <;> (simp (maxDischargeDepth := 50) [*]; done)
@[simp] theorem runAdv_ord {base : State} (x0 : State) (x1 : Work) (x2 : Item) (hord : Orderly base x0) :
    Orderly base (runAdv x0 x1 x2) := by
  unfold runAdv; split <;> first | exact State.hostWrite_ord _ _ _ _ hord | (simp [hord]; done)
@[simp] theorem resumeAdv_ord {base : State} (x0 : State) (x1 : Work) (x2 : Item) (hord : Orderly base x0) :
    Orderly base (resumeAdv x0 x1 x2) := by
  unfold resumeAdv
  try dsimp only
  (repeat' split) <;> (simp (maxDischargeDepth := 50) [*]; done)
@[simp] theorem abortAdv_ord {base : State} (x0 : State) (x1 : Work) (x2 : Item) (hord : Orderly base x0) :
    Orderly base (abortAdv x0 x1 x2) := by
  unfold abortAdv
  try dsimp only
  (repeat' split) <;> (simp (maxDischargeDepth := 50) [*]; done)
@[simp] theorem execDumpRun_ord {base : State} (e : Nat) (s : State) (hord : Orderly base s) :
    OrdOut base (execDumpRun e s) := by
  exact State.row_ord _ _ _ _ (fun s w i h => by simp (maxDischargeDepth := 50) [noCheck, h]) _ (fun s w i h => by simp (maxDischargeDepth := 50) [h]) _ (fun s w i st h => by simp (maxDischargeDepth := 50) [h]) hord
@[simp] theorem execDumpResume_ord {base : State} (e : Nat) (s : State) (hord : Orderly base s) :
    OrdOut base (execDumpResume e s) := by
  exact State.row_ord _ _ _ _ (fun s w i h => by simp (maxDischargeDepth := 50) [noCheck, h]) _ (fun s w i h => by simp (maxDischargeDepth := 50) [h]) _ (fun s w i st h => by simp (maxDischargeDepth := 50) [h]) hord
@[simp] theorem execDumpAbort_ord {base : State} (e : Nat) (s : State) (hord : Orderly base s) :
    OrdOut base (execDumpAbort e s) := by
  exact State.row_ord _ _ _ _ (fun s w i h => by simp (maxDischargeDepth := 50) [noCheck, h]) _ (fun s w i h => by simp (maxDischargeDepth := 50) [h]) _ (fun s w i st h => by simp (maxDischargeDepth := 50) [h]) hord
@[simp] theorem execTraceArm_ord {base : State} (e : Nat) (s : State) (hord : Orderly base s) :
    OrdOut base (execTraceArm e s) := by
  exact State.row_ord _ _ _ _ (fun s w i h => by simp (maxDischargeDepth := 50) [noCheck, h]) _ (fun s w i h => by simp (maxDischargeDepth := 50) [h]) _ (fun s w i st h => by simp (maxDischargeDepth := 50) [h]) hord
@[simp] theorem execCaptureEnd_ord {base : State} (s : State) (hord : Orderly base s) :
    OrdOut base (execCaptureEnd s) := by
  unfold execCaptureEnd
  try dsimp only
  (repeat' split) <;> (simp (maxDischargeDepth := 50) [*]; done)
@[simp] theorem execTransactionTimeout_ord {base : State} (k : Nat) (tag : Nat) (s : State) (hord : Orderly base s) :
    OrdOut base (execTransactionTimeout k tag s) := by
  exact State.ctlClocked_ord _ _ (fun s h => by simp (maxDischargeDepth := 50) [h]) hord
@[simp] theorem execSyncSymbol_ord {base : State} (s : State) (hord : Orderly base s) :
    OrdOut base (execSyncSymbol s) := by
  exact State.ctlClocked_ord _ _ (fun s h => by simp (maxDischargeDepth := 50) [h]) hord
@[simp] theorem execHopUp_ord {base : State} (k : Nat) (p : Nat) (ps : Nat) (s : State) (hord : Orderly base s) :
    OrdOut base (execHopUp k p ps s) := by
  exact State.ctlClocked_ord _ _ (fun s h => by simp (maxDischargeDepth := 50) [h]) hord
@[simp] theorem execHopFail_ord {base : State} (k : Nat) (p : Nat) (s : State) (hord : Orderly base s) :
    OrdOut base (execHopFail k p s) := by
  exact State.ctlClocked_ord _ _ (fun s h => by simp (maxDischargeDepth := 50) [h]) hord
@[simp] theorem execHopRetry_ord {base : State} (k : Nat) (s : State) (hord : Orderly base s) :
    OrdOut base (execHopRetry k s) := by
  exact State.ctlClocked_ord _ _ (fun s h => by simp (maxDischargeDepth := 50) [h]) hord
@[simp] theorem execTrainingTimeout_ord {base : State} (k : Nat) (s : State) (hord : Orderly base s) :
    OrdOut base (execTrainingTimeout k s) := by
  exact State.ctlClocked_ord _ _ (fun s h => by simp (maxDischargeDepth := 50) [h]) hord
@[simp] theorem execReadData_ord {base : State} (k : Nat) (s : State) (hord : Orderly base s) :
    OrdOut base (execReadData k s) := by
  exact State.ctlClocked_ord _ _ (fun s h => by simp (maxDischargeDepth := 50) [h]) hord
@[simp] theorem execWriteAck_ord {base : State} (k : Nat) (s : State) (hord : Orderly base s) :
    OrdOut base (execWriteAck k s) := by
  exact State.ctlClocked_ord _ _ (fun s h => by simp (maxDischargeDepth := 50) [h]) hord
@[simp] theorem execNack_ord {base : State} (k : Nat) (s : State) (hord : Orderly base s) :
    OrdOut base (execNack k s) := by
  exact State.ctlClocked_ord _ _ (fun s h => by simp (maxDischargeDepth := 50) [h]) hord
@[simp] theorem execAlert_ord {base : State} (k : Nat) (p : Nat) (s : State) (hord : Orderly base s) :
    OrdOut base (execAlert k p s) := by
  exact State.ctlClocked_ord _ _ (fun s h => by simp (maxDischargeDepth := 50) [h]) hord
@[simp] theorem execTrace_ord {base : State} (k : Nat) (s : State) (hord : Orderly base s) :
    OrdOut base (execTrace k s) := by
  exact State.ctlClocked_ord _ _ (fun s h => by simp (maxDischargeDepth := 50) [h]) hord
@[simp] theorem execProbeStamp_ord {base : State} (k : Nat) (s : State) (hord : Orderly base s) :
    OrdOut base (execProbeStamp k s) := by
  exact State.ctlClocked_ord _ _ (fun s h => by simp (maxDischargeDepth := 50) [h]) hord
@[simp] theorem execFrameCrcFail_ord {base : State} (k : Nat) (p : Nat) (upstream : Bool) (s : State) (hord : Orderly base s) :
    OrdOut base (execFrameCrcFail k p upstream s) := by
  exact State.ctlClocked_ord _ _ (fun s h => by simp (maxDischargeDepth := 50) [h]) hord
@[simp] theorem execHtuInvalidate_ord {base : State} (e : Nat) (s : State) (hord : Orderly base s) :
    OrdOut base (execHtuInvalidate e s) := by
  exact State.row_ord _ _ _ _ (fun s w i h => by simp (maxDischargeDepth := 50) [noCheck, h]) _ (fun s w i h => by simp (maxDischargeDepth := 50) [h]) _ (fun s w i st h => by simp (maxDischargeDepth := 50) [h]) hord
@[simp] theorem execHubCoreRequestDone_ord {base : State} (s : State) (hord : Orderly base s) :
    OrdOut base (execHubCoreRequestDone s) := by
  exact State.gated_ord _ _ (fun s h => by simp (maxDischargeDepth := 50) [h]) hord
@[simp] theorem tensorAdv_ord {base : State} (x0 : State) (x1 : Work) (x2 : Item) (hord : Orderly base x0) :
    Orderly base (tensorAdv x0 x1 x2) := by
  unfold tensorAdv
  try dsimp only
  (repeat' split) <;> (simp (maxDischargeDepth := 50) [*]; done)
@[simp] theorem execDumpTensor_ord {base : State} (e : Nat) (s : State) (hord : Orderly base s) :
    OrdOut base (execDumpTensor e s) := by
  exact State.row_ord _ _ _ _ (fun s w i h => by simp (maxDischargeDepth := 50) [noCheck, h]) _ (fun s w i h => by simp (maxDischargeDepth := 50) [h]) _ (fun s w i st h => by simp (maxDischargeDepth := 50) [h]) hord
@[simp] theorem execSurvivalStart_ord {base : State} (s : State) (hord : Orderly base s) :
    OrdOut base (execSurvivalStart s) := by
  unfold execSurvivalStart
  try dsimp only
  (repeat' split) <;> (simp (maxDischargeDepth := 50) [*]; done)
@[simp] theorem trcWrite_ord {base : State} (s : State) (o : Nat) (v : Nat) (hord : Orderly base s) :
    Orderly base (trcWrite s o v) := by
  unfold trcWrite; split <;> first | exact State.hostWrite_ord _ _ _ _ hord | (simp [hord]; done)
@[simp] theorem State.bar0Write_ord {base : State} (s : State) (off : Nat) (size : Nat) (v : Nat) (hord : Orderly base s) :
    Orderly base (State.bar0Write s off size v) := by
  unfold State.bar0Write
  try dsimp only
  (repeat' split) <;> (simp (maxDischargeDepth := 50) [*]; done)
@[simp] theorem State.bar0Take_ord {base : State} (s : State) (off : Nat) (size : Nat) (v : Nat) (hord : Orderly base s) :
    Orderly base (State.bar0Take s off size v) := by
  unfold State.bar0Take
  try dsimp only
  (repeat' split) <;> (simp (maxDischargeDepth := 50) [*]; done)
@[simp] theorem State.hostApply_ord {base : State} (s : State) (off : Nat) (size : Nat) (v : Nat) (hord : Orderly base s) :
    Orderly base (State.hostApply s off size v) := by
  unfold State.hostApply; split <;> first | exact State.hostWrite_ord _ _ _ _ hord | (simp [hord]; done)
@[simp] theorem State.hostWrite_ord {base : State} (s : State) (off : Nat) (size : Nat) (v : Nat) (hord : Orderly base s) :
    OrdOut base (State.hostWrite s off size v) := by
  unfold State.hostWrite
  try dsimp only
  (repeat' split) <;> (simp (maxDischargeDepth := 50) [*]; done)
@[simp] theorem State.serveHeld_ord {base : State} (s : State) (hord : Orderly base s) :
    Orderly base (State.serveHeld s) := by
  unfold State.serveHeld
  try dsimp only
  repeat' (first | with_reducible assumption | (simp (maxDischargeDepth := 50) [*]; done) | (refine orderly_foldl _ (fun s x hord' => ?_) _ ?_) | split)
@[simp] theorem execWakeComplete_ord {base : State} (s : State) (hord : Orderly base s) :
    OrdOut base (execWakeComplete s) := by
  unfold execWakeComplete
  try dsimp only
  (repeat' split) <;> (simp (maxDischargeDepth := 50) [*]; done)
@[simp] theorem execPllLock_ord {base : State} (s : State) (hord : Orderly base s) :
    OrdOut base (execPllLock s) := by
  unfold execPllLock
  try dsimp only
  (repeat' split) <;> (simp (maxDischargeDepth := 50) [*]; done)
@[simp] theorem execReboot_ord {base : State} (s : State) (hord : Orderly base s) :
    OrdOut base (execReboot s) := by
  exact State.hostWrite_ord _ _ _ _ hord
@[simp] theorem execDoorbell_ord {base : State} (r : Nat) (v : Nat) (s : State) (hord : Orderly base s) :
    OrdOut base (execDoorbell r v s) := by
  unfold execDoorbell; split <;> first | exact State.hostWrite_ord _ _ _ _ hord | (simp [hord]; done)
@[simp] theorem execRingEnable_ord {base : State} (r : Nat) (s : State) (hord : Orderly base s) :
    OrdOut base (execRingEnable r s) := by
  unfold execRingEnable; split <;> first | exact State.hostWrite_ord _ _ _ _ hord | (simp [hord]; done)
@[simp] theorem execRingDisable_ord {base : State} (r : Nat) (s : State) (hord : Orderly base s) :
    OrdOut base (execRingDisable r s) := by
  unfold execRingDisable; split <;> first | exact State.hostWrite_ord _ _ _ _ hord | (simp [hord]; done)
@[simp] theorem execSynSet_ord {base : State} (off : Nat) (size : Nat) (v : Nat) (s : State) (hord : Orderly base s) :
    OrdOut base (execSynSet off size v s) := by
  unfold execSynSet; split <;> first | exact State.hostWrite_ord _ _ _ _ hord | (simp [hord]; done)
@[simp] theorem execSynAdd_ord {base : State} (off : Nat) (size : Nat) (v : Nat) (s : State) (hord : Orderly base s) :
    OrdOut base (execSynAdd off size v s) := by
  unfold execSynAdd; split <;> first | exact State.hostWrite_ord _ _ _ _ hord | (simp [hord]; done)
@[simp] theorem execRegisterWrite_ord {base : State} (off : Nat) (size : Nat) (v : Nat) (s : State) (hord : Orderly base s) :
    OrdOut base (execRegisterWrite off size v s) := by
  exact State.hostWrite_ord _ _ _ _ hord
@[simp] theorem execHubStatClrStalls_ord {base : State} (s : State) (hord : Orderly base s) :
    OrdOut base (execHubStatClrStalls s) := by
  exact State.hostWrite_ord _ _ _ _ hord
@[simp] theorem execHubStatClrYields_ord {base : State} (s : State) (hord : Orderly base s) :
    OrdOut base (execHubStatClrYields s) := by
  exact State.hostWrite_ord _ _ _ _ hord
@[simp] theorem execHubStatClrLatency_ord {base : State} (s : State) (hord : Orderly base s) :
    OrdOut base (execHubStatClrLatency s) := by
  exact State.hostWrite_ord _ _ _ _ hord
@[simp] theorem execHubStatClrStrokes_ord {base : State} (s : State) (hord : Orderly base s) :
    OrdOut base (execHubStatClrStrokes s) := by
  exact State.hostWrite_ord _ _ _ _ hord
@[simp] theorem execNonceNew_ord {base : State} (s : State) (hord : Orderly base s) :
    OrdOut base (execNonceNew s) := by
  exact State.hostWrite_ord _ _ _ _ hord
@[simp] theorem execHtuEnable_ord {base : State} (s : State) (hord : Orderly base s) :
    OrdOut base (execHtuEnable s) := by
  exact State.hostWrite_ord _ _ _ _ hord
@[simp] theorem execHtuDisable_ord {base : State} (s : State) (hord : Orderly base s) :
    OrdOut base (execHtuDisable s) := by
  exact State.hostWrite_ord _ _ _ _ hord
@[simp] theorem execHtuResume_ord {base : State} (n : Nat) (gen : Nat) (s : State) (hord : Orderly base s) :
    OrdOut base (execHtuResume n gen s) := by
  exact State.hostWrite_ord _ _ _ _ hord
@[simp] theorem execHtuAbort_ord {base : State} (n : Nat) (gen : Nat) (s : State) (hord : Orderly base s) :
    OrdOut base (execHtuAbort n gen s) := by
  exact State.hostWrite_ord _ _ _ _ hord
@[simp] theorem execCarPendSet_ord {base : State} (m : Nat) (bits : Nat) (s : State) (hord : Orderly base s) :
    OrdOut base (execCarPendSet m bits s) := by
  unfold execCarPendSet; split <;> first | exact State.hostWrite_ord _ _ _ _ hord | (simp [hord]; done)
@[simp] theorem execCarPendClr_ord {base : State} (m : Nat) (bits : Nat) (s : State) (hord : Orderly base s) :
    OrdOut base (execCarPendClr m bits s) := by
  unfold execCarPendClr; split <;> first | exact State.hostWrite_ord _ _ _ _ hord | (simp [hord]; done)
@[simp] theorem execCarQEoi_ord {base : State} (q : Nat) (n : Nat) (s : State) (hord : Orderly base s) :
    OrdOut base (execCarQEoi q n s) := by
  unfold execCarQEoi; split <;> first | exact State.hostWrite_ord _ _ _ _ hord | (simp [hord]; done)
@[simp] theorem execCarQRecoverKeep_ord {base : State} (q : Nat) (s : State) (hord : Orderly base s) :
    OrdOut base (execCarQRecoverKeep q s) := by
  unfold execCarQRecoverKeep; split <;> first | exact State.hostWrite_ord _ _ _ _ hord | (simp [hord]; done)
@[simp] theorem execCarQRecoverRelease_ord {base : State} (q : Nat) (s : State) (hord : Orderly base s) :
    OrdOut base (execCarQRecoverRelease q s) := by
  unfold execCarQRecoverRelease; split <;> first | exact State.hostWrite_ord _ _ _ _ hord | (simp [hord]; done)
@[simp] theorem execCarQHead_ord {base : State} (q : Nat) (v : Nat) (s : State) (hord : Orderly base s) :
    OrdOut base (execCarQHead q v s) := by
  unfold execCarQHead; split <;> first | exact State.hostWrite_ord _ _ _ _ hord | (simp [hord]; done)
@[simp] theorem execCarQEnable_ord {base : State} (q : Nat) (irqEn : Bool) (s : State) (hord : Orderly base s) :
    OrdOut base (execCarQEnable q irqEn s) := by
  unfold execCarQEnable; split <;> first | exact State.hostWrite_ord _ _ _ _ hord | (simp [hord]; done)
@[simp] theorem execCarQDisable_ord {base : State} (q : Nat) (irqEn : Bool) (s : State) (hord : Orderly base s) :
    OrdOut base (execCarQDisable q irqEn s) := by
  unfold execCarQDisable; split <;> first | exact State.hostWrite_ord _ _ _ _ hord | (simp [hord]; done)
@[simp] theorem execCarLineWrite_ord {base : State} (n : Nat) (v : Nat) (s : State) (hord : Orderly base s) :
    OrdOut base (execCarLineWrite n v s) := by
  unfold execCarLineWrite; split <;> first | exact State.hostWrite_ord _ _ _ _ hord | (simp [hord]; done)
@[simp] theorem execSoftTrig_ord {base : State} (s : State) (hord : Orderly base s) :
    OrdOut base (execSoftTrig s) := by
  exact State.hostWrite_ord _ _ _ _ hord
@[simp] theorem execTraceDisable_ord {base : State} (s : State) (hord : Orderly base s) :
    OrdOut base (execTraceDisable s) := by
  exact State.hostWrite_ord _ _ _ _ hord
@[simp] theorem execToutFire_ord {base : State} (s : State) (hord : Orderly base s) :
    OrdOut base (execToutFire s) := by
  exact State.hostWrite_ord _ _ _ _ hord
@[simp] theorem execDumpDisable_ord {base : State} (s : State) (hord : Orderly base s) :
    OrdOut base (execDumpDisable s) := by
  exact State.hostWrite_ord _ _ _ _ hord
@[simp] theorem State.dbgPut_ord {base : State} (off : Nat) (v : Nat) (s : State) (hord : Orderly base s) :
    OrdOut base (State.dbgPut off v s) := by
  unfold State.dbgPut
  try dsimp only
  (repeat' split) <;> (simp (maxDischargeDepth := 50) [*]; done)
@[simp] theorem execCaptureIr_ord {base : State} (s : State) (hord : Orderly base s) :
    OrdOut base (execCaptureIr s) := by
  unfold execCaptureIr
  refine State.scanRow_ord _ _ (fun s hord => ?_) hord
  repeat' (first | (simp [*]; done) | refine State.onSel_ord _ _ _ (fun s hord => ?_) hord | refine State.fastUpdate_ord _ _ (fun s hord => ?_) hord | exact Orderly.scan hord _ | split)
@[simp] theorem execExtest_ord {base : State} (load : Bool) (pads : BitVec 76) (update : BitVec 76) (s : State) (hord : Orderly base s) :
    OrdOut base (execExtest load pads update s) := by
  unfold execExtest
  refine State.scanRow_ord _ _ (fun s hord => ?_) hord
  repeat' (first | (simp [*]; done) | refine State.onSel_ord _ _ _ (fun s hord => ?_) hord | refine State.fastUpdate_ord _ _ (fun s hord => ?_) hord | exact Orderly.scan hord _ | split)
@[simp] theorem execClamp_ord {base : State} (s : State) (hord : Orderly base s) :
    OrdOut base (execClamp s) := by
  unfold execClamp
  refine State.scanRow_ord _ _ (fun s hord => ?_) hord
  repeat' (first | (simp [*]; done) | refine State.onSel_ord _ _ _ (fun s hord => ?_) hord | refine State.fastUpdate_ord _ _ (fun s hord => ?_) hord | exact Orderly.scan hord _ | split)
@[simp] theorem execSamplePreload_ord {base : State} (pads : BitVec 76) (update : BitVec 76) (s : State) (hord : Orderly base s) :
    OrdOut base (execSamplePreload pads update s) := by
  unfold execSamplePreload
  refine State.scanRow_ord _ _ (fun s hord => ?_) hord
  repeat' (first | (simp [*]; done) | refine State.onSel_ord _ _ _ (fun s hord => ?_) hord | refine State.fastUpdate_ord _ _ (fun s hord => ?_) hord | exact Orderly.scan hord _ | split)
@[simp] theorem execIdcode_ord {base : State} (s : State) (hord : Orderly base s) :
    OrdOut base (execIdcode s) := by
  unfold execIdcode
  refine State.scanRow_ord _ _ (fun s hord => ?_) hord
  repeat' (first | (simp [*]; done) | refine State.onSel_ord _ _ _ (fun s hord => ?_) hord | refine State.fastUpdate_ord _ _ (fun s hord => ?_) hord | exact Orderly.scan hord _ | split)
@[simp] theorem execBypass_ord {base : State} (s : State) (hord : Orderly base s) :
    OrdOut base (execBypass s) := by
  unfold execBypass
  refine State.scanRow_ord _ _ (fun s hord => ?_) hord
  repeat' (first | (simp [*]; done) | refine State.onSel_ord _ _ _ (fun s hord => ?_) hord | refine State.fastUpdate_ord _ _ (fun s hord => ?_) hord | exact Orderly.scan hord _ | split)
@[simp] theorem execHubstat_ord {base : State} (s : State) (hord : Orderly base s) :
    OrdOut base (execHubstat s) := by
  unfold execHubstat
  refine State.scanRow_ord _ _ (fun s hord => ?_) hord
  repeat' (first | (simp [*]; done) | refine State.onSel_ord _ _ _ (fun s hord => ?_) hord | refine State.fastUpdate_ord _ _ (fun s hord => ?_) hord | exact Orderly.scan hord _ | split)
@[simp] theorem execHubstatCapture_ord {base : State} (s : State) (hord : Orderly base s) :
    OrdOut base (execHubstatCapture s) := by
  unfold execHubstatCapture
  refine State.scanRow_ord _ _ (fun s hord => ?_) hord
  repeat' (first | (simp [*]; done) | refine State.onSel_ord _ _ _ (fun s hord => ?_) hord | refine State.fastUpdate_ord _ _ (fun s hord => ?_) hord | exact Orderly.scan hord _ | split)
@[simp] theorem execHubcmd_ord {base : State} (s : State) (hord : Orderly base s) :
    OrdOut base (execHubcmd s) := by
  unfold execHubcmd
  refine State.scanRow_ord _ _ (fun s hord => ?_) hord
  repeat' (first | (simp [*]; done) | refine State.onSel_ord _ _ _ (fun s hord => ?_) hord | refine State.fastUpdate_ord _ _ (fun s hord => ?_) hord | exact Orderly.scan hord _ | split)
@[simp] theorem execHubcmdPop_ord {base : State} (s : State) (hord : Orderly base s) :
    OrdOut base (execHubcmdPop s) := by
  unfold execHubcmdPop
  refine State.scanRow_ord _ _ (fun s hord => ?_) hord
  repeat' (first | (simp [*]; done) | refine State.onSel_ord _ _ _ (fun s hord => ?_) hord | refine State.fastUpdate_ord _ _ (fun s hord => ?_) hord | exact Orderly.scan hord _ | split)
@[simp] theorem execHubcmdPost_ord {base : State} (desc : BitVec 512) (s : State) (hord : Orderly base s) :
    OrdOut base (execHubcmdPost desc s) := by
  unfold execHubcmdPost
  refine State.scanRow_ord _ _ (fun s hord => ?_) hord
  repeat' (first | (simp [*]; done) | refine State.onSel_ord _ _ _ (fun s hord => ?_) hord | refine State.fastUpdate_ord _ _ (fun s hord => ?_) hord | exact Orderly.scan hord _ | split)
@[simp] theorem execDbgreg_ord {base : State} (s : State) (hord : Orderly base s) :
    OrdOut base (execDbgreg s) := by
  unfold execDbgreg
  refine State.scanRow_ord _ _ (fun s hord => ?_) hord
  repeat' (first | (simp [*]; done) | refine State.onSel_ord _ _ _ (fun s hord => ?_) hord | refine State.fastUpdate_ord _ _ (fun s hord => ?_) hord | exact Orderly.scan hord _ | split)
@[simp] theorem execDbgregCapture_ord {base : State} (s : State) (hord : Orderly base s) :
    OrdOut base (execDbgregCapture s) := by
  unfold execDbgregCapture
  refine State.scanRow_ord _ _ (fun s hord => ?_) hord
  repeat' (first | (simp [*]; done) | refine State.onSel_ord _ _ _ (fun s hord => ?_) hord | refine State.fastUpdate_ord _ _ (fun s hord => ?_) hord | exact Orderly.scan hord _ | split)
@[simp] theorem execDumpRead_ord {base : State} (s : State) (hord : Orderly base s) :
    OrdOut base (execDumpRead s) := by
  unfold execDumpRead
  refine State.scanRow_ord _ _ (fun s hord => ?_) hord
  repeat' (first | (simp [*]; done) | refine State.onSel_ord _ _ _ (fun s hord => ?_) hord | refine State.fastUpdate_ord _ _ (fun s hord => ?_) hord | exact Orderly.scan hord _ | split)
@[simp] theorem execDumpReadStart_ord {base : State} (first : Nat) (count : Nat) (s : State) (hord : Orderly base s) :
    OrdOut base (execDumpReadStart first count s) := by
  unfold execDumpReadStart
  refine State.scanRow_ord _ _ (fun s hord => ?_) hord
  repeat' (first | (simp [*]; done) | refine State.onSel_ord _ _ _ (fun s hord => ?_) hord | refine State.fastUpdate_ord _ _ (fun s hord => ?_) hord | exact Orderly.scan hord _ | split)
@[simp] theorem execDumpReadRepeat_ord {base : State} (s : State) (hord : Orderly base s) :
    OrdOut base (execDumpReadRepeat s) := by
  unfold execDumpReadRepeat
  refine State.scanRow_ord _ _ (fun s hord => ?_) hord
  repeat' (first | (simp [*]; done) | refine State.onSel_ord _ _ _ (fun s hord => ?_) hord | refine State.fastUpdate_ord _ _ (fun s hord => ?_) hord | exact Orderly.scan hord _ | split)
@[simp] theorem execDumpReadAdvance_ord {base : State} (s : State) (hord : Orderly base s) :
    OrdOut base (execDumpReadAdvance s) := by
  unfold execDumpReadAdvance
  refine State.scanRow_ord _ _ (fun s hord => ?_) hord
  repeat' (first | (simp [*]; done) | refine State.onSel_ord _ _ _ (fun s hord => ?_) hord | refine State.fastUpdate_ord _ _ (fun s hord => ?_) hord | exact Orderly.scan hord _ | split)
@[simp] theorem execDumpReadCapture_ord {base : State} (s : State) (hord : Orderly base s) :
    OrdOut base (execDumpReadCapture s) := by
  unfold execDumpReadCapture
  refine State.scanRow_ord _ _ (fun s hord => ?_) hord
  repeat' (first | (simp [*]; done) | refine State.onSel_ord _ _ _ (fun s hord => ?_) hord | refine State.fastUpdate_ord _ _ (fun s hord => ?_) hord | exact Orderly.scan hord _ | split)
@[simp] theorem execLcsReq_ord {base : State} (s : State) (hord : Orderly base s) :
    OrdOut base (execLcsReq s) := by
  unfold execLcsReq
  refine State.scanRow_ord _ _ (fun s hord => ?_) hord
  repeat' (first | (simp [*]; done) | refine State.onSel_ord _ _ _ (fun s hord => ?_) hord | refine State.fastUpdate_ord _ _ (fun s hord => ?_) hord | exact Orderly.scan hord _ | split)
@[simp] theorem execLcsReqSubmit_ord {base : State} (data : BitVec 2048) (s : State) (hord : Orderly base s) :
    OrdOut base (execLcsReqSubmit data s) := by
  unfold execLcsReqSubmit
  refine State.scanRow_ord _ _ (fun s hord => ?_) hord
  repeat' (first | (simp [*]; done) | refine State.onSel_ord _ _ _ (fun s hord => ?_) hord | refine State.fastUpdate_ord _ _ (fun s hord => ?_) hord | exact Orderly.scan hord _ | split)
@[simp] theorem execLcsReqNewNonce_ord {base : State} (s : State) (hord : Orderly base s) :
    OrdOut base (execLcsReqNewNonce s) := by
  unfold execLcsReqNewNonce
  refine State.scanRow_ord _ _ (fun s hord => ?_) hord
  repeat' (first | (simp [*]; done) | refine State.onSel_ord _ _ _ (fun s hord => ?_) hord | refine State.fastUpdate_ord _ _ (fun s hord => ?_) hord | exact Orderly.scan hord _ | split)
@[simp] theorem execLcsReqCapture_ord {base : State} (s : State) (hord : Orderly base s) :
    OrdOut base (execLcsReqCapture s) := by
  unfold execLcsReqCapture
  refine State.scanRow_ord _ _ (fun s hord => ?_) hord
  repeat' (first | (simp [*]; done) | refine State.onSel_ord _ _ _ (fun s hord => ?_) hord | refine State.fastUpdate_ord _ _ (fun s hord => ?_) hord | exact Orderly.scan hord _ | split)
@[simp] theorem execCertLoad_ord {base : State} (s : State) (hord : Orderly base s) :
    OrdOut base (execCertLoad s) := by
  unfold execCertLoad
  refine State.scanRow_ord _ _ (fun s hord => ?_) hord
  repeat' (first | (simp [*]; done) | refine State.onSel_ord _ _ _ (fun s hord => ?_) hord | refine State.fastUpdate_ord _ _ (fun s hord => ?_) hord | exact Orderly.scan hord _ | split)
@[simp] theorem execCertLoadSubmit_ord {base : State} (data : BitVec 4096) (s : State) (hord : Orderly base s) :
    OrdOut base (execCertLoadSubmit data s) := by
  unfold execCertLoadSubmit
  refine State.scanRow_ord _ _ (fun s hord => ?_) hord
  repeat' (first | (simp [*]; done) | refine State.onSel_ord _ _ _ (fun s hord => ?_) hord | refine State.fastUpdate_ord _ _ (fun s hord => ?_) hord | exact Orderly.scan hord _ | split)
@[simp] theorem execCertLoadCapture_ord {base : State} (s : State) (hord : Orderly base s) :
    OrdOut base (execCertLoadCapture s) := by
  unfold execCertLoadCapture
  refine State.scanRow_ord _ _ (fun s hord => ?_) hord
  repeat' (first | (simp [*]; done) | refine State.onSel_ord _ _ _ (fun s hord => ?_) hord | refine State.fastUpdate_ord _ _ (fun s hord => ?_) hord | exact Orderly.scan hord _ | split)
@[simp] theorem execDescriptorFetch_ord (r : Nat) (data : List Byte) (ok : Bool) (s : State) (hord : Orderly base s) : OrdOut base (execDescriptorFetch r data ok s) :=
  State.gated_ord _ _ (fun s h => State.fetched_ord _ _ _ _ (by split <;> simp [h])) hord
@[simp] theorem execRecordTransmitted_ord (q : Nat) (s : State) (hord : Orderly base s) : OrdOut base (execRecordTransmitted q s) :=
  State.gated_ord _ _ (fun s h => by (repeat' split) <;> simp (maxDischargeDepth := 50) [h]) hord
@[simp] theorem installAdv_ord (s : State) (w : Work) (i : Item) (hord : Orderly base s) : Orderly base (installAdv s w i) := by
  unfold installAdv; split <;> exact State.setItem_ord _ _ _ hord
@[simp] theorem execInstallMonitor_ord (e : Nat) (s : State) (hord : Orderly base s) : OrdOut base (execInstallMonitor e s) :=
  State.row_ord _ _ _ _ (fun _ _ _ h => h) _ (fun s w i h => installAdv_ord s w i h) _ (fun _ _ _ _ h => h) hord
@[simp] theorem discoverAdv_ord (s : State) (w : Work) (i : Item) (hord : Orderly base s) : Orderly base (discoverAdv s w i) := by
  unfold discoverAdv; dsimp only
  have h : ∀ l : List Nat, Orderly base (l.foldl (fun s k => if (s.chain k).state = ChainState.up then s.setChain k { s.chain k with present := (s.chain k).present ||| (2 ^ (s.chain k).reach - 1) } else s) s) :=
    fun l => orderly_foldl _ (fun s x h => by split <;> simp [h]) _ hord
  repeat' with_reducible refine orderly_ite ?_ ?_
  all_goals first
    | (with_reducible exact State.enableChains_ord _ _ _ hord)
    | (with_reducible exact State.chainEnd_ord _ _ _ _ hord)
    | (with_reducible exact State.setItem_ord _ _ _ hord)
    | exact State.setItem_ord _ _ _ (h _)
@[simp] theorem chainEnableAdv_ord (s : State) (w : Work) (i : Item) (hord : Orderly base s) : Orderly base (chainEnableAdv s w i) := by
  unfold chainEnableAdv; dsimp only
  have h : ∀ l : List Nat, Orderly base (l.foldl (fun s k => if (s.chain k).state = ChainState.up then s.setChain k { s.chain k with present := (s.chain k).present ||| (2 ^ (s.chain k).reach - 1) } else s) s) :=
    fun l => orderly_foldl _ (fun s x h => by split <;> simp [h]) _ hord
  repeat' with_reducible refine orderly_ite ?_ ?_
  all_goals first
    | (with_reducible exact State.modItem_ord _ _ _ (State.disableChains_ord _ _ hord))
    | (with_reducible exact State.enableChains_ord _ _ _ hord)
    | (with_reducible exact State.chainEnd_ord _ _ _ _ hord)
    | exact State.setItem_ord _ _ _ (h _)
@[simp] theorem alignAdv_ord (s : State) (w : Work) (i : Item) (hord : Orderly base s) : Orderly base (alignAdv s w i) := by
  unfold alignAdv; dsimp only
  repeat' with_reducible refine orderly_ite ?_ ?_
  all_goals first
    | (with_reducible exact State.setItem_ord _ _ _ hord)
    | exact State.setItem_ord _ _ _ (orderly_foldl _ (fun s x h => State.recalibrate_ord _ _ h) _ hord)
@[simp] theorem execDiscover_ord (e : Nat) (s : State) (hord : Orderly base s) : OrdOut base (execDiscover e s) :=
  State.row_ord _ _ _ _ (fun _ _ _ h => h) _ (fun s w i h => discoverAdv_ord s w i h) _ (fun _ _ _ _ h => h) hord
@[simp] theorem execTimeAlign_ord (e : Nat) (s : State) (hord : Orderly base s) : OrdOut base (execTimeAlign e s) :=
  State.row_ord _ _ _ _ (fun _ _ _ h => h) _ (fun s w i h => alignAdv_ord s w i h) _ (fun _ _ _ _ h => h) hord
@[simp] theorem execChainEnable_ord (e : Nat) (s : State) (hord : Orderly base s) : OrdOut base (execChainEnable e s) :=
  State.row_ord _ _ _ _ (fun _ _ _ h => h) _ (fun s w i h => chainEnableAdv_ord s w i h) _ (fun _ _ _ _ h => h) hord
@[simp] theorem execFwStage_ord (e : Nat) (s : State) (hord : Orderly base s) : OrdOut base (execFwStage e s) := by
  unfold execFwStage
  split
  · simp [hord]
  · exact State.row_ord _ _ _ _ (fun _ _ _ h => h) _ (fun s w i h => stageAdv_ord s w i h) _ (fun _ _ _ _ h => by simp [h]) hord
@[simp] theorem execHubcmdCapture_ord (s : State) (hord : Orderly base s) : OrdOut base (execHubcmdCapture s) :=
  State.scanRow_ord _ _ (fun s h => State.onSel_ord _ _ _ (fun _ h => State.fastScan_ord _ _ (fun s h => State.hubcmdTake_ord s h) h) h) hord
@[simp] theorem execDbgregRead_ord (off : Nat) (s : State) (hord : Orderly base s) : OrdOut base (execDbgregRead off s) :=
  State.dbgAccess_ord _ _ _ _ _ (fun s h => State.dbgGet_ord _ s h) hord
@[simp] theorem execDbgregWrite_ord (off v : Nat) (s : State) (hord : Orderly base s) : OrdOut base (execDbgregWrite off v s) :=
  State.dbgAccess_ord _ _ _ _ _ (fun s h => State.dbgPut_ord _ _ s h) hord

end Sys2Proof.Machine
end

