-- ==== Sys2Proof/Laws/Strokes.lean ====
section
/-! SUPPORT. How the first stroke of a descriptor runs: it ends its item, leaves it waiting, or issues what the item has
left, and what work items hold after one is written. -/

namespace Sys2Proof.Machine

/-- The first stroke of a descriptor that is no misuse: its advance, then the loop of the stroke. -/
theorem State.row_first {s : State} {e op : Nat} {w : Work} {i : Item} (h : s.Starts e op w i) (note adv rep) (hc : note s w i = s) :
    s.row e op note adv rep = .next (((adv s w i).strokeLoop e w adv rep 1999).drainWait w) := by
  have hs : s.served e op = some (w, i) := by simp [State.served, h.work, h.item, h.opcode]
  have f := h.fresh
  have hst : i.stage = 0 := by rw [f]
  have a1 : i.fin = none := by rw [f]
  have a2 : i.parked = false := by rw [f]
  have a3 : i.wait = Wait.no := by rw [f]
  have a4 : i.todo = [] := by rw [f]
  have a5 : i.out = 0 := by rw [f]
  have a6 : i.dead = false := by rw [f]
  have a7 : i.draining = false := by rw [f]
  have a8 : i.sent = [] := by rw [f]
  have t := h.time
  simp only [State.row, hs, hc]
  have : s.stroke e op adv rep = (adv s w i).strokeLoop e w adv rep 1999 := by
    have ht : ¬ (s.se e).started + 1936 ≤ s.now := by omega
    have l : ∀ n, s.strokeLoop e w adv rep (n + 1) = (adv s w i).strokeLoop e w adv rep n := by
      intro n
      simp only [State.strokeLoop, h.item, a1, a2, a3, a4, a5, Item.over, a6, hst, State.goOn, a7, a8, if_true]
      simp [doneStage]
    simp only [State.stroke, h.work, h.item, h.opcode, h.clock, ht, ne_eq, not_true_eq_false, Bool.not_true, Bool.false_eq_true, or_self, if_false]
    exact l 1999
  rw [this]

/-- An item with nothing left ends in the loop. -/
theorem State.loop_ends {u : State} {e : Nat} {w : Work} {j : Item} (adv rep n) (h : u.item? w = some j) (h1 : j.fin = none) (h2 : j.parked = false) (h3 : j.wait = .no)
    (h4 : j.todo = []) (h5 : j.out = 0) (h6 : j.over = true) : u.strokeLoop e w adv rep (n + 1) = u.endItem w j rep := by
  simp [State.strokeLoop, h, h1, h2, h3, h4, h5, h6]

/-- A waiting item leaves the loop. -/
theorem State.loop_waits {u : State} {e : Nat} {w : Work} {j : Item} (adv rep n) (h : u.item? w = some j) (h3 : j.wait ≠ .no) : u.strokeLoop e w adv rep n = u.endStroke e := by
  cases n <;> simp [State.strokeLoop, h, h3]

/-- The loop issues what `issueAll` issues. -/
theorem State.loop_sends {e : Nat} {w : Work} (adv rep) (n : Nat) : ∀ {m : Nat} {u t : State}, n ≤ m → State.issueAll e w n u = some t → u.strokeLoop e w adv rep m = t.endStroke e := by
  induction n with
  | zero => intro m u t _ h; cases h
  | succ n ih =>
    intro m u t hm h
    obtain ⟨m, rfl⟩ : ∃ k, m = k + 1 := ⟨m - 1, by omega⟩
    cases hi : u.item? w with
    | none => simp [State.issueAll, hi] at h
    | some i =>
      simp only [State.issueAll, hi] at h
      simp only [State.strokeLoop, hi]
      by_cases hc : i.fin.isSome ∨ i.parked ∨ i.wait ≠ Wait.no
      · rw [if_pos hc] at h ⊢
        cases h
        rfl
      · rw [if_neg hc] at h ⊢
        cases ht : i.todo with
        | nil =>
          simp only [ht] at h ⊢
          by_cases ho : i.out ≠ 0
          · rw [if_pos ho] at h ⊢
            cases h
            rfl
          · rw [if_neg ho] at h
            cases h
        | cons o rest =>
          simp only [ht] at h ⊢
          cases hr : ((u.setItem w { i with todo := rest, issued := o.ix + 1, sent := i.sent ++ [o] }).issueOp w o).2 with
          | none =>
            simp only [hr] at h ⊢
            exact ih (by omega) h
          | some b => simp [hr] at h

/-- A work item after it is written. -/
theorem State.item?_setItem {u : State} {w : Work} {i j : Item} (hr : ∀ n, w = .ring n → n < 512) (h : u.item? w = some i) : (u.setItem w j).item? w = some j := by
  cases w with
  | ring n => have := hr n rfl; simp [State.setItem, State.setRing, this, State.item?, State.ring, tget_tput]
  | scan => rfl
  | free k =>
    simp only [State.item?, State.setItem] at h ⊢
    generalize u.hub.free = l at h ⊢
    induction l with
    | nil => simp at h
    | cons p l ih =>
      by_cases hp : p.1 = k
      · simp [hp]
      · have hb : (p.1 == k) = false := by simpa using hp
        simp only [List.map_cons, if_neg hp, List.find?_cons, hb] at h ⊢
        exact ih h
/-- An item in its first stroke. -/
def Item.fresh (d : BitVec 512) (f b el g : Nat) : Item := { desc := d, begun := true, fullMask := f, began := b, eligAt := el, engine := g }
/-- The form of an item in its first stroke. -/
theorem State.Starts.form {s : State} {e op : Nat} {w : Work} {i : Item} (h : s.Starts e op w i) : ∃ d f b el g, i = Item.fresh d f b el g :=
  ⟨i.desc, i.fullMask, i.began, i.eligAt, i.engine, h.fresh⟩
/-- The item has nothing left but its end. -/
def Item.ended (j : Item) : Prop := j.fin = none ∧ j.parked = false ∧ j.wait = .no ∧ j.todo = [] ∧ j.out = 0 ∧ j.over = true
/-- A first stroke that ends its item. -/
theorem State.row_ends {s u : State} {c : Instr} {e op : Nat} {w : Work} {i j : Item} {st : Status} (note adv rep)
    (hex : exec c s = s.row e op note adv rep)
    (h : s.Starts e op w i → note s w i = s ∧ adv s w i = u.setItem w j ∧ (u.item? w).isSome = true ∧ j.ended ∧
      rep (u.setItem w j) w j (Status.highest j.errs) = (u.setItem w j, j.detail, j.cursor) ∧ Status.highest j.errs = st) :
    s.Ends c e op w i u j st := by
  intro hs
  obtain ⟨hc, ha, hu, ⟨e1, e2, e3, e4, e5, e6⟩, hr, he⟩ := h hs
  obtain ⟨k, hk⟩ := Option.isSome_iff_exists.mp hu
  rw [hex, State.row_first hs _ _ _ hc, ha, State.loop_ends adv rep 1998 (State.item?_setItem hs.ring hk) e1 e2 e3 e4 e5 e6]
  rw [he] at hr
  simp only [State.endItem, he, hr]
/-- A first stroke that leaves its item waiting. -/
theorem State.row_waits {s u : State} {c : Instr} {e op : Nat} {w : Work} {i j : Item} (note adv rep)
    (hex : exec c s = s.row e op note adv rep)
    (h : s.Starts e op w i → note s w i = s ∧ adv s w i = u.setItem w j ∧ (u.item? w).isSome = true ∧ j.wait ≠ .no) :
    s.Waits c e op w i u j := by
  intro hs
  obtain ⟨hc, ha, hu, hj⟩ := h hs
  obtain ⟨k, hk⟩ := Option.isSome_iff_exists.mp hu
  rw [hex, State.row_first hs _ _ _ hc, ha, State.loop_waits adv rep 1999 (State.item?_setItem hs.ring hk) hj]
/-- A first stroke that issues operations. -/
theorem State.row_sends {s u : State} {c : Instr} {e op : Nat} {w : Work} {i j : Item} (note adv rep)
    (hex : exec c s = s.row e op note adv rep)
    (h : s.Starts e op w i → note s w i = s ∧ adv s w i = u.setItem w j) :
    s.Sends c e op w i u j := by
  intro hs
  obtain ⟨hc, ha⟩ := h hs
  rw [hex, State.row_first hs _ _ _ hc, ha]
  refine ⟨_, rfl, fun v hv => ?_⟩
  rw [State.loop_sends adv rep 1900 (by omega) hv]
/-- The fields of an item in its first stroke. -/
@[simp] theorem fresh_fields (d f b el g) : (Item.fresh d f b el g).stage = 0 ∧ (Item.fresh d f b el g).desc = d ∧ (Item.fresh d f b el g).fin = none ∧ (Item.fresh d f b el g).parked = false ∧
  (Item.fresh d f b el g).wait = .no ∧ (Item.fresh d f b el g).todo = [] ∧ (Item.fresh d f b el g).out = 0 ∧ (Item.fresh d f b el g).errs = [] ∧ (Item.fresh d f b el g).nextIx = 0 ∧
  (Item.fresh d f b el g).x = [] ∧ (Item.fresh d f b el g).rep = [] ∧ (Item.fresh d f b el g).bad = [] ∧ (Item.fresh d f b el g).detail = 0 ∧ (Item.fresh d f b el g).cursor = 0 ∧ (Item.fresh d f b el g).issued = 0 ∧ (Item.fresh d f b el g).sent = [] ∧ (Item.fresh d f b el g).odd = 0 :=
  ⟨rfl, rfl, rfl, rfl, rfl, rfl, rfl, rfl, rfl, rfl, rfl, rfl, rfl, rfl, rfl, rfl, rfl⟩
/-- Writing one work item leaves the others. -/
theorem item_setItem_ne (s : State) {w v : Work} (j : Item) (e : w ≠ v) : (s.setItem v j).item? w = s.item? w := by
  cases v with
  | ring n =>
    simp only [State.setItem, State.setRing]
    split
    · cases w with
      | ring m => have hm : m ≠ n := fun q => e (by rw [q])
                  simp [State.item?, State.ring, tget_tput, hm]
      | scan => rfl
      | free m => rfl
    · rfl
  | scan => cases w with
    | ring m => rfl
    | scan => exact absurd rfl e
    | free m => rfl
  | free n => cases w with
    | ring m => rfl
    | scan => rfl
    | free m =>
      have hm : m ≠ n := fun q => e (by rw [q])
      simp only [State.setItem, State.item?]
      congr 1
      generalize s.hub.free = l
      induction l with
      | nil => rfl
      | cons p l ih =>
        by_cases hp : p.1 = n
        · have hq : (n == m) = false := by simpa using (Ne.symm hm)
          simp only [List.map_cons, List.find?_cons, hp, hq, if_true]; exact ih
        · by_cases hq : p.1 = m
          · simp [hq, hm]
          · have hb : (p.1 == m) = false := by simpa using hq
            simp only [List.map_cons, if_neg hp, List.find?_cons, hb]; exact ih
/-- A work item that a change leaves as it is. -/
theorem item_modItem_same {s : State} {w v : Work} {i : Item} (g : Item → Item) (h : s.item? w = some i) (hr : ∀ n, w = .ring n → n < 512) (hg : w = v → g i = i) : (s.modItem v g).item? w = some i := by
  by_cases e : w = v
  · subst e; unfold State.modItem; rw [h]; dsimp only; rw [hg rfl]; exact State.item?_setItem hr h
  · unfold State.modItem
    split
    · rw [item_setItem_ne _ _ e, h]
    · exact h
/-- A work item that a change of all leaves as it is. -/
theorem item_mapItems_same {s : State} {w : Work} {i : Item} (g : Work → Item → Item) (h : s.item? w = some i) (hr : ∀ n, w = .ring n → n < 512) (hg : g w i = i) : (s.mapItems g).item? w = some i := by
  unfold State.mapItems
  generalize s.works = l
  induction l generalizing s with
  | nil => exact h
  | cons v l ih => exact ih (item_modItem_same _ h hr (fun e => e ▸ hg))
/-- A second write of a work item replaces the first. -/
theorem setItem_setItem (s : State) (w : Work) (i j : Item) : (s.setItem w i).setItem w j = s.setItem w j := by
  cases w with
  | ring n =>
    simp only [State.setItem, State.setRing]
    by_cases h : n < 512
    · simp only [h, if_true, State.ring, tget_tput, if_true]
      congr 1
      exact tput_tput _ _ _ _ _
    · simp [h]
  | scan => rfl
  | free k =>
    simp only [State.setItem, List.map_map]
    congr 3
    funext p
    simp only [Function.comp]
    by_cases h : p.1 = k <;> simp [h]

end Sys2Proof.Machine
end

