-- ==== Sys2Proof/Tests/Slice0.lean ====
section
/-! SUPPORT. Tests of the model: terms `Instr.wf` refuses, one step of commands with expected results taken from the rules
of the spec, and for every statement with hypotheses a witness, a state and operands that meet them together. -/

namespace Sys2Proof.Tests

open Sys2Proof Sys2Proof.Machine

set_option Elab.async false

/-! ### Small states and operands -/

/-- Booted and running, with the endpoint's memory space and bus mastering enabled. -/
def up : State := { pwr := { pllLock := true }, boot := { stage := 4, fused := true }, cfg := { command := 6, msixEn := true } }
/-- A chain that is UP with sixteen addressable chips. -/
def whole : Chain := { state := .up, reach := 16, present := 0xFFFF, addressable := 0xFFFF }
/-- A work item in ring 0. -/
def inRing (i : Item) : State := up.setRing 0 { state := .active, item := some i }
/-- The scan port with an instruction accepted, and the same while the hub is in IDLE. -/
def scanOn (ir : Nat) : State := { up with scan := { ir := ir, tlr := false } }
def napping (ir : Nat) : State := { scanOn ir with pwr := { state := .idle, pllLock := true } }
/-- Core 31 and engine 511 of chip 127. -/
def withCore (c : Machine.Core) : State := up.setChip 127 (({} : Chip).setCore 31 c)
def withEngine (e : Engine) : State := up.setChip 127 (({} : Chip).setEng 511 e)
def timedGo (t : Nat) : TimedGo := { cores := 1, engs := [], all := false, resume := false, at_ := t }
def tap : TapEvent := { type := 0, engine := 0, index := 0, stream := 0, time := 0 }
def traceRec : TraceRec := { type := 0, fabric := 127, arg16 := 0, arg32 := 0, time := 0 }
def txn : Txn := { tag := 3, pos := 15, write := false, addr := 0, len := 8, issuer := .item (.ring 0) 0, sentAt := 0, limit := 1 }
def confirm (reads : Nat) : Confirm :=
  { kind := 1, chains := 128, instant := 0, left := [(127, reads, 1000)], started := true, confirmed := 0, unconfirmed := 0 }
def hostWrite (ow : Owner) : HostOp := { id := 0, owner := ow, ix := 0, write := true, addr := 0, len := 16, data := [], phase := .queued 64 0 }
def hostRead (ow : Owner) : HostOp := { id := 0, owner := ow, ix := 0, write := false, addr := 0, len := 64, data := [], phase := .queued 64 0 }
def cplRec : CplRec := { index := 0, signal := none, notify := true }
def parkedOp (on : Bool) : State :=
  { inRing { desc := 0x20 } with
    htu := { enabled := on, log := [(63, { gen := 255, parked := true })], parked := [(.item (.ring 0), some 63, {})],
             ops := [{ hostWrite (.item (.ring 0)) with phase := .parked }], nextId := 1 } }
def walkOp (l : Nat) : HostOp := { hostWrite (.item (.ring 0)) with phase := .walk l 0 true 0 }
def walking (l : Nat) : State := { up with htu := { enabled := true, ops := [walkOp l], nextId := 1 } }
def burst (w : Bool) : Burst := { id := 9, work := .ring 0, ix := 0, write := w, addr := 0, len := 512, data := [] }
def sleepReq (target : Nat) (committed : Bool) : SleepReq :=
  { posted := 0, target := target, by_ := .ring 0, latched := some (0x2F, 0), committed := committed }
/-- A boot in progress, its stage 1 run. -/
def booting (stage : Nat) : State := { pwr := { pllLock := true }, boot := { due := some 0, stage := stage, fused := true } }
def lcsView : LcsView := ⟨[], none⟩
def certView : CertView := ⟨[], none⟩
def waitingCore : State :=
  { inRing { desc := 0x62, todo := [{ ix := 0, k := .core [2, 0] }] } with
    now := 256, hub := { engines := [(3, { work := some (.ring 0), waiting := some (5, 0), yieldWait := 256 })], coreQ := List.replicate 16 (none, [2, 0]) } }
def polled (d : Nat) (w : Wait) : Item := { desc := BitVec.ofNat 512 d, wait := w }
/-- A STEP_CORE of core 31 of chip 127 in progress. -/
def stepItem (x : Tab Nat) : Item := { polled (0x14 + 130079 * 2 ^ 128) (.ctl (some 0)) with x := x }
def onCore (i : Item) (c : Machine.Core) : State := ((inRing i).setChain 7 whole).setChip 127 (({} : Chip).setCore 31 c)
def cutting (phase : Nat) (x : CutChip) : State := { up with cut := { phase := phase, chips := [x] } }
/-- A cut whose one chip is stopped with every engine still. -/
def stillChip : State :=
  ((cutting 2 { f := 127 }).setChain 7 whole).setChip 127 { cores := (List.range 32).map (fun n => (n, { state := .monitor })), engines := (List.range 512).map (fun n => (n, { state := .muffled })), stopping := true, stopSeen := true }

/-- Engine 0 in the first stroke of descriptor `d` of ring 0. -/
def fresh (d : BitVec 512) : Item := { desc := d, begun := true }
def begun (s : State) (d : BitVec 512) : State :=
  (s.setRing 0 { state := .active, item := some (fresh d) }).setSe 0 { work := some (.ring 0), opcode := opcodeOf d, started := s.now }
def region : Region := { kind := 0, first := 0, last := 127, unitFirst := 0, unitLast := 0, offset := 0, length := 0, tag := 0, raw := [] }

theorem begun_starts (s : State) (d : BitVec 512) (op : Nat) (h : opcodeOf d = op) (hc : s.fastRun = true) :
    (begun s d).Starts 0 op (.ring 0) (fresh d) where
  work := by simp [begun, State.se, State.setSe, State.setRing, tget_tput]
  item := by simp [begun, State.item?, State.ring, State.setSe, State.setRing, tget_tput]
  opcode := h
  fresh := rfl
  clock := by simpa [begun, State.setSe, State.setRing, State.fastRun] using hc
  time := by simp [begun, State.se, State.setSe, State.setRing, tget_tput]
  ring := by rintro n ⟨⟩; decide
/-- An empty NOR store reads erased everywhere. -/
theorem isErased_nil (s : State) (i : Nat) (h : s.nor = []) : isErased (s.bcRecord i) = true := by
  simp [isErased, State.bcRecord, State.norRead, State.norByte, h, mget, tget]

/-! ### Well-formed commands -/

/-- An operand at its bound, or a shape an access or a transfer cannot have. -/
theorem test_wf_refuses_1 :
  ([.powerOnReset false 16 0, .powerOnReset false 0 512, .lineChange 32 false 1 0, .lineChange 0 false 1 (2 ^ 64), .arbiterDecision 4,
     .strokeYield 4, .returnedWipe 16, .descriptorFetch 512 [] false, .completionTransmitted 512, .doorbell 512 0, .doorbell 0 (2 ^ 32),
     .ringEnable 512, .ringDisable 512, .synSet 0x8000 4 0, .synSet 0 4 (2 ^ 32), .synAdd 0x8000 4 0, .synAdd 0 4 (2 ^ 32), .synReadLo 4096 4,
     .hiLatchRead 0x401000 4, .registerWrite 0x401000 4 0, .registerWrite 0 4 (2 ^ 32), .htuResume 64 0, .htuResume 0 256, .htuAbort 64 0,
     .htuAbort 0 256, .walkReadComplete 0 (2 ^ 64) false, .carPendSet 8 0, .carPendSet 0 (2 ^ 32), .carPendClr 8 0, .carPendClr 0 (2 ^ 32)] : List Instr).all (fun c => !c.wf) = true := by decide +kernel
/-- An operand at its bound, or a shape an access or a transfer cannot have. -/
theorem test_wf_refuses_2 :
  ([.carQEoi 64 0, .carQEoi 0 256, .carQRecoverKeep 64, .carQRecoverRelease 64, .carQHead 64 0, .carQHead 0 (2 ^ 32), .carQEnable 64 false,
     .carQDisable 64 false, .carLineWrite 32 0, .carLineWrite 0 (2 ^ 32), .queueSelect 64, .recordTransmitted 64, .coalTimeReady 256, .nop 4,
     .wait 4, .signal 4, .fence 4, .peal 4, .toll 4, .muffle 4, .resume 4, .stepCore 4, .stepEngine 4, .breakSet 4, .breakClear 4, .cutCollect 4,
     .readReg 4, .writeReg 4, .readMem 4, .writeMem 4] : List Instr).all (fun c => !c.wf) = true := by decide +kernel
/-- An operand at its bound, or a shape an access or a transfer cannot have. -/
theorem test_wf_refuses_3 :
  ([.installMonitor 4, .dumpPlan 4, .dumpRun 4, .dumpTensor 4, .dumpResume 4, .dumpAbort 4, .storeDrain 4, .traceArm 4, .traceStop 4, .traceDrain 4,
     .counterSnap 4, .discover 4, .timeAlign 4, .chainEnable 4, .lcsRequest 4, .certInstall 4, .certDrop 4, .sleep 4, .htuInvalidate 4,
     .shardInvalidate 4, .fwStage 4, .transactionTimeout 8 0, .transactionTimeout 0 64, .confirmationRead 128, .cutStoppedPoll 128, .stopPulseEnd 8,
     .syncApply 128, .hopUp 8 0 0, .hopUp 0 16 0, .hopFail 8 0] : List Instr).all (fun c => !c.wf) = true := by decide +kernel
/-- An operand at its bound, or a shape an access or a transfer cannot have. -/
theorem test_wf_refuses_4 :
  ([.hopFail 0 16, .hopRetry 8, .trainingTimeout 8, .readData 8, .writeAck 8, .nack 8, .alert 8 0, .alert 0 16, .trace 8, .probeStamp 8,
     .frameCrcFail 8 0 false, .frameCrcFail 0 16 false, .read 8, .write 8, .alertAck 8, .probe 8, .stopRelay 8, .chipStopInputFall 128,
     .resetHoldEnd 128, .tollFire 128, .timedAction 128, .hit 128 false 0 0 0 false, .hit 0 false 32 0 0 false, .hit 0 false 0 12 0 false,
     .hit 0 false 0 0 (2 ^ 32) false, .coreDebugEntry 128 0 0, .coreDebugEntry 0 32 0, .coreDebugEntry 0 0 (2 ^ 32), .engineCommandComplete 128 0,
     .engineCommandComplete 0 512] : List Instr).all (fun c => !c.wf) = true := by decide +kernel
/-- An operand at its bound, or a shape an access or a transfer cannot have. -/
theorem test_wf_refuses_5 :
  ([.coreStepEnd 128 0 0, .coreStepEnd 0 32 0, .coreStepEnd 0 0 (2 ^ 32), .chipReset 128, .chipReady 128, .alertRaise 128 0 0 0,
     .alertRaise 0 256 0 0, .alertRaise 0 0 (2 ^ 17) 0, .alertRaise 0 0 0 (2 ^ 32), .rcGoHalt 128 false false, .rcGoResume 128 false false,
     .tollArm 128, .wdaForce 128, .wdaLinkMuffle 128 0, .wdaLinkMuffle 0 (2 ^ 12), .coreStep 128 0, .coreStep 0 32, .engStep 128 0, .engStep 0 512,
     .mbxIn 128 0 0, .mbxIn 0 32 0, .mbxOut 128 0 0, .mbxOut 0 32 0, .counterLatch 128 false, .timedLatch 128, .tapEnOff 128 0, .tapEnOff 0 (2 ^ 32),
     .tapEnOn 128 0, .tapEnOn 0 (2 ^ 32), .tapRecord 128] : List Instr).all (fun c => !c.wf) = true := by decide +kernel
/-- An operand at its bound, or a shape an access or a transfer cannot have. -/
theorem test_wf_refuses_6 :
  ([.gapRecordEntry 128, .traceFrameSend 128, .dbgregRead (2 ^ 20), .dbgregWrite (2 ^ 20) 0, .dbgregWrite 0 (2 ^ 32), .dumpReadStart (2 ^ 24) 0,
     .dumpReadStart 0 (2 ^ 24), .streamLoad 128 0 0 0, .streamLoad 0 512 0 0, .streamLoad 0 0 (2 ^ 32) 0, .streamLoad 0 0 0 (2 ^ 32),
     .lineChange 0 true 0 0, .operationComplete 0 (List.replicate 513 0) true, .descriptorFetch 0 [] true,
     .descriptorFetch 0 (List.replicate 63 0) true, .descriptorFetch 0 (List.replicate 320 0) true, .synSet 0 2 0, .synAdd 0 16 0, .hiLatchRead 0 3,
     .synReadLo 0 2, .registerWrite 0 3 0, .hit 0 true 512 0 0 false, .hit 0 true 0 13 0 false] : List Instr).all (fun c => !c.wf) = true := by decide +kernel
/-- Operands one below their bounds. -/
theorem test_wf_accepts_1 :
  ([.powerOnReset false (16 - 1) 0, .powerOnReset false 0 (512 - 1), .boot ⟨true, 2⟩, .pllLock, .bootCountRecord, .lastGaspErase, .reboot, .perstN,
     .functionLevelReset, .dlDown, .testLogicReset, .lineChange (32 - 1) false 1 0, .lineChange 0 false 1 (2 ^ 64 - 1), .wake, .wakeComplete,
     .pwrTimerExpiry, .pllUnlock, .sleepCommit, .dozeEntry, .offEntry, .survivalStart, .survivalEnd, .lastGaspWrite, .arbiterDecision (4 - 1),
     .strokeYield (4 - 1), .scanGuardFire, .operationComplete 0 [] false, .hubCoreRequestDone, .lcsTransition lcsView, .certCheckInstall certView,
     .returnedWipe (16 - 1), .descriptorFetch (512 - 1) [] false, .completionTransmitted (512 - 1), .doorbell (512 - 1) 0, .doorbell 0 (2 ^ 32 - 1),
     .ringEnable (512 - 1), .ringDisable (512 - 1), .synSet (0x8000 - 1) 4 0, .synSet 0 4 (2 ^ 32 - 1), .synAdd (0x8000 - 1) 4 0] : List Instr).all Instr.wf = true := by decide +kernel
/-- Operands one below their bounds. -/
theorem test_wf_accepts_2 :
  ([.synAdd 0 4 (2 ^ 32 - 1), .synReadLo (4096 - 1) 4, .hiLatchRead 0x2FFFC 4, .registerWrite (0x401000 - 1) 4 0, .registerWrite 0 4 (2 ^ 32 - 1),
     .hubStatClrStalls, .hubStatClrYields, .hubStatClrLatency, .hubStatClrStrokes, .nonceNew, .htuEnable, .htuDisable, .htuResume (64 - 1) 0,
     .htuResume 0 (256 - 1), .htuAbort (64 - 1) 0, .htuAbort 0 (256 - 1), .walkReadComplete 0 (2 ^ 64 - 1) false, .carPendSet (8 - 1) 0,
     .carPendSet 0 (2 ^ 32 - 1), .carPendClr (8 - 1) 0, .carPendClr 0 (2 ^ 32 - 1), .carQEoi (64 - 1) 0, .carQEoi 0 (256 - 1),
     .carQRecoverKeep (64 - 1), .carQRecoverRelease (64 - 1), .carQHead (64 - 1) 0, .carQHead 0 (2 ^ 32 - 1), .carQEnable (64 - 1) false,
     .carQDisable (64 - 1) false, .carLineWrite (32 - 1) 0, .carLineWrite 0 (2 ^ 32 - 1), .queueSelect (64 - 1), .recordTransmitted (64 - 1),
     .coalTimeReady (256 - 1), .softTrig, .traceDisable, .toutFire, .toutPulseEnd, .dumpDisable, .nop (4 - 1)] : List Instr).all Instr.wf = true := by decide +kernel
/-- Operands one below their bounds. -/
theorem test_wf_accepts_3 :
  ([.wait (4 - 1), .signal (4 - 1), .fence (4 - 1), .peal (4 - 1), .toll (4 - 1), .muffle (4 - 1), .resume (4 - 1), .stepCore (4 - 1),
     .stepEngine (4 - 1), .breakSet (4 - 1), .breakClear (4 - 1), .cutCollect (4 - 1), .readReg (4 - 1), .writeReg (4 - 1), .readMem (4 - 1),
     .writeMem (4 - 1), .installMonitor (4 - 1), .dumpPlan (4 - 1), .dumpRun (4 - 1), .dumpTensor (4 - 1), .dumpResume (4 - 1), .dumpAbort (4 - 1),
     .storeDrain (4 - 1), .traceArm (4 - 1), .traceStop (4 - 1), .traceDrain (4 - 1), .counterSnap (4 - 1), .discover (4 - 1), .timeAlign (4 - 1),
     .chainEnable (4 - 1), .lcsRequest (4 - 1), .certInstall (4 - 1), .certDrop (4 - 1), .sleep (4 - 1), .htuInvalidate (4 - 1),
     .shardInvalidate (4 - 1), .fwStage (4 - 1), .waitPoll 0, .waitTimeout 0, .fenceTimeout 0] : List Instr).all Instr.wf = true := by decide +kernel
/-- Operands one below their bounds. -/
theorem test_wf_accepts_4 :
  ([.transactionTimeout (8 - 1) 0, .transactionTimeout 0 (64 - 1), .smapEpochRetry 0, .monitorReplyPoll 0, .stepPoll 0, .confirmationRead (128 - 1),
     .cutStoppedPoll (128 - 1), .drainPoll, .drainDeadline, .linkPoll, .linkLimitExpiry, .discoverSettle 0, .traceStopTimeout 0,
     .traceDrainTimeout 0, .traceTimeTrigger, .captureEnd, .tollBackupStop, .stopPulseEnd (8 - 1), .timedStopRaise, .syncSymbol,
     .syncApply (128 - 1), .hopUp (8 - 1) 0 0, .hopUp 0 (16 - 1) 0, .hopFail (8 - 1) 0, .hopFail 0 (16 - 1), .hopRetry (8 - 1),
     .trainingTimeout (8 - 1), .readData (8 - 1), .writeAck (8 - 1), .nack (8 - 1), .alert (8 - 1) 0, .alert 0 (16 - 1), .trace (8 - 1),
     .probeStamp (8 - 1), .frameCrcFail (8 - 1) 0 false, .frameCrcFail 0 (16 - 1) false, .read (8 - 1), .write (8 - 1), .alertAck (8 - 1),
     .probe (8 - 1)] : List Instr).all Instr.wf = true := by decide +kernel
/-- Operands one below their bounds. -/
theorem test_wf_accepts_5 :
  ([.stopRelay (8 - 1), .chipStopInputFall (128 - 1), .resetHoldEnd (128 - 1), .tollFire (128 - 1), .timedAction (128 - 1),
     .hit (128 - 1) false 0 0 0 false, .hit 0 false (32 - 1) 0 0 false, .hit 0 false 0 (12 - 1) 0 false, .hit 0 false 0 0 (2 ^ 32 - 1) false,
     .coreDebugEntry (128 - 1) 0 0, .coreDebugEntry 0 (32 - 1) 0, .coreDebugEntry 0 0 (2 ^ 32 - 1), .engineCommandComplete (128 - 1) 0,
     .engineCommandComplete 0 (512 - 1), .coreStepEnd (128 - 1) 0 0, .coreStepEnd 0 (32 - 1) 0, .coreStepEnd 0 0 (2 ^ 32 - 1), .chipReset (128 - 1),
     .chipReady (128 - 1), .alertRaise (128 - 1) 0 0 0, .alertRaise 0 (256 - 1) 0 0, .alertRaise 0 0 (2 ^ 17 - 1) 0, .alertRaise 0 0 0 (2 ^ 32 - 1),
     .rcGoHalt (128 - 1) false false, .rcGoResume (128 - 1) false false, .tollArm (128 - 1), .wdaForce (128 - 1), .wdaLinkMuffle (128 - 1) 0,
     .wdaLinkMuffle 0 (2 ^ 12 - 1), .coreStep (128 - 1) 0, .coreStep 0 (32 - 1), .engStep (128 - 1) 0, .engStep 0 (512 - 1), .mbxIn (128 - 1) 0 0,
     .mbxIn 0 (32 - 1) 0, .mbxOut (128 - 1) 0 0, .mbxOut 0 (32 - 1) 0, .counterLatch (128 - 1) false, .timedLatch (128 - 1), .tapEnOff (128 - 1) 0] : List Instr).all Instr.wf = true := by decide +kernel
/-- Operands one below their bounds. -/
theorem test_wf_accepts_6 :
  ([.tapEnOff 0 (2 ^ 32 - 1), .tapEnOn (128 - 1) 0, .tapEnOn 0 (2 ^ 32 - 1), .tapRecord (128 - 1), .gapRecordEntry (128 - 1),
     .traceFrameSend (128 - 1), .captureIr, .extest false 0 0, .clamp, .samplePreload 0 0, .idcode, .bypass, .hubstat, .hubstatCapture, .hubcmd,
     .hubcmdCapture, .hubcmdPop, .hubcmdPost 0, .dbgreg, .dbgregRead (2 ^ 20 - 1), .dbgregWrite (2 ^ 20 - 1) 0, .dbgregWrite 0 (2 ^ 32 - 1),
     .dbgregCapture, .dumpRead, .dumpReadStart (2 ^ 24 - 1) 0, .dumpReadStart 0 (2 ^ 24 - 1), .dumpReadRepeat, .dumpReadAdvance, .dumpReadCapture,
     .lcsReq, .lcsReqSubmit 0, .lcsReqNewNonce, .lcsReqCapture, .certLoad, .certLoadSubmit 0, .certLoadCapture, .streamLoad (128 - 1) 0 0 0,
     .streamLoad 0 (512 - 1) 0 0, .streamLoad 0 0 (2 ^ 32 - 1) 0, .streamLoad 0 0 0 (2 ^ 32 - 1)] : List Instr).all Instr.wf = true := by decide +kernel
/-- Operands one below their bounds. -/
theorem test_wf_accepts_7 :
  ([.completionTimeout 0, .holdUpEnd, .snapAtPassed 0] : List Instr).all Instr.wf = true := by decide +kernel

/-! ### One step of commands -/

def stepOk (c : Instr) (s : State) (p : State → Bool) : Bool := match exec c s with | .next t => p t | _ => false
/-- One work item of descriptor `d` in its first stroke. -/
def stroke (c : Instr) (d : BitVec 512) (s : State) (p : State → Bool) : Bool := stepOk c (begun s d) p

/-- No row of the table gives bits. -/
theorem test_no_word_spells_a_command (n w : Nat) : decodeTableWord n w = none := rfl
/-- A state is left as it is where the word spells none. -/
theorem test_withFetchWord (s : State) (n w : Nat) : s.withFetchWord n w = s := rfl

-- resets, boot, power (R84, R89, R134, R136, R137, R108, R119)
theorem test_por_keeps_fuses : stepOk (.powerOnReset false 0 0) { up with fuses := { floor := 3 } } (fun t => t.pins.inPor && t.fuses.floor == 3 && t.boot.due.isNone) = true := by decide +kernel
theorem test_por_end_latches_straps : stepOk (.powerOnReset true 9 0x1FF) { up with pins := { inPor := true } } (fun t => t.pwr.straps == 9 && t.boot.due == some 0 && !t.pins.inPor) = true := by decide +kernel
theorem test_boot_scrapped_halts : stepOk (.boot ⟨true, 2⟩) { booting 0 with boot := { due := some 0 }, fuses := { groups := (List.range 6).map (fun k => (k + 1, 0xFFF)) } } (fun t => t.boot.stage == 6 && t.lcs.state == 6 && !t.pins.readyEn) = true := by decide +kernel
theorem test_boot_counts : stepOk (.boot ⟨true, 2⟩) { booting 0 with boot := { due := some 2, count := 8 } } (fun t => t.boot.count == 9 && t.boot.fused && t.boot.stage == 0) = true := by decide +kernel
theorem test_boot_without_nor : stepOk (.boot ⟨false, 2⟩) (booting 1) (fun t => t.boot.stage == 2 && t.boot.failFirst == 1) = true := by decide +kernel
theorem test_boot_blank_nor : stepOk (.boot ⟨true, 2⟩) (booting 2) (fun t => t.boot.stage == 5 && t.boot.failSecond == 2) = true := by decide +kernel
theorem test_boot_done : stepOk (.boot ⟨true, 2⟩) (booting 3) (fun t => t.boot.stage == 4 && t.pins.ready && t.boot.dsSize == 2) = true := by decide +kernel
theorem test_pll_lock : stepOk .pllLock { booting 0 with pwr := {} } (fun t => t.pwr.pllLock) = true := by decide +kernel
theorem test_pll_no_lock_in_doze : stepOk .pllLock { up with pwr := { state := .doze } } (fun t => !t.pwr.pllLock) = true := by decide +kernel
theorem test_dl_down_disables_rings : stepOk .dlDown (up.setRing 3 { state := .idle, enable := true, tail := 2 }) (fun t => (t.ring 3).state == .disabled && (t.ring 3).tail == 0) = true := by decide +kernel
theorem test_wake_names_lowest_code : stepOk .wake { up with now := 1000, pwr := { state := .doze, seen := [(1000, 7, 0), (1000, 1, 0)] } } (fun t => t.pwr.wakeSrc == 1 && t.pwr.waking == some (1000, .doze)) = true := by decide +kernel
theorem test_sleep_commit_idle : stepOk .sleepCommit { up with now := 2000, pwr := { pllLock := true, req := some (sleepReq 1 false) } } (fun t => t.pwr.state == .idle && t.pwr.commits == 1) = true := by decide +kernel
theorem test_doze_entry : stepOk .dozeEntry { up with now := 3000, pwr := { pllLock := true, req := some (sleepReq 2 true) } } (fun t => t.pwr.state == .doze && !t.pwr.pllLock) = true := by decide +kernel

-- lines and the Carillon (R313, R318, R319, R321, R332, R337)
theorem test_line_three_samples : stepOk (.lineChange 3 true 3 9) up (fun t => !(t.src 3).pending && (t.line 3).raw) = true := by decide +kernel
theorem test_pend_set : stepOk (.carPendSet 7 0x80000000) up (fun t => (t.src 255).pending && !(t.src 254).pending) = true := by decide +kernel
theorem test_queue_disable_enable : stepOk (.carQEnable 5 true) up (fun t => (t.queue 5).enabled && (t.queue 5).irqEn && (t.queue 5).head == 0) = true := by decide +kernel
theorem test_queue_head_error : stepOk (.carQHead 5 16) (up.setQueue 5 { enabled := true, head := 2, tail := 4 }) (fun t => (t.queue 5).headErr && (t.queue 5).head == 2) = true := by decide +kernel
theorem test_queue_select_lowest : stepOk (.queueSelect 1) (((up.setQueue 1 { enabled := true }).setSrc 9 { pending := true, ready := true, mask := false, route := 1 }).setSrc 40 { pending := true, ready := true, mask := false, route := 1 })
    (fun t => (t.queue 1).insvc == some 9 && !(t.src 9).pending && (t.src 40).pending) = true := by decide +kernel
theorem test_eoi : stepOk (.carQEoi 1 9) (up.setQueue 1 { enabled := true, insvc := some 9 }) (fun t => (t.queue 1).insvc == none) = true := by decide +kernel
theorem test_eoi_of_another_source : stepOk (.carQEoi 1 8) (up.setQueue 1 { enabled := true, insvc := some 9 }) (fun t => (t.queue 1).insvc == some 9) = true := by decide +kernel

-- registers, rings, counters (R8, R9, R252, R255, R257, R267)
theorem test_register_fields : stepOk (.registerWrite 0x10 4 0x123FF) up (fun t => t.hub.yieldWait == 0x3FF && t.hub.bulkMin == 2 && t.hub.scanGuard == 1) = true := by decide +kernel
theorem test_reserved_bit_is_noted : stepOk (.registerWrite 0x10 4 0x800) up (fun t => t.misuses == [(0x10, false)] && t.hub.yieldWait == 0) = true := by decide +kernel
theorem test_misaligned_write_writes_nothing : stepOk (.registerWrite 0x12 4 5) up (fun t => t.misuses == [(0x12, true)] && t.hub == up.hub) = true := by decide +kernel
theorem test_memory_space_disabled : stepOk (.registerWrite 0x10 4 5) { up with cfg := {} } (fun t => t.hub.yieldWait == 0x100 && t.misuses == []) = true := by decide +kernel
theorem test_stat_clr : stepOk .hubStatClrYields { up with hub := { yields := 5, strokes := 7 } } (fun t => t.hub.yields == 0 && t.hub.strokes == 7) = true := by decide +kernel
theorem test_ring_enable : stepOk (.ringEnable 511) (up.setRing 511 { head := 3, tail := 5, doneCnt := 9 }) (fun t => (t.ring 511).state == .idle && (t.ring 511).tail == 0 && (t.ring 511).doneCnt == 0) = true := by decide +kernel
theorem test_ring_disable_drains : stepOk (.ringDisable 0) (inRing { desc := 0, begun := true }) (fun t => (t.ring 0).state == .draining) = true := by decide +kernel
theorem test_doorbell : stepOk (.doorbell 2 3) (up.setRing 2 { state := .idle, enable := true }) (fun t => (t.ring 2).state == .active && (t.ring 2).tail == 3) = true := by decide +kernel
theorem test_doorbell_out_of_range : stepOk (.doorbell 2 16) (up.setRing 2 { state := .idle, enable := true }) (fun t => (t.ring 2).dbErr && (t.ring 2).dbCause == 1 && (t.ring 2).tail == 0) = true := by decide +kernel
theorem test_syn_add_wraps : stepOk (.synAdd 0x18 8 1) { up with counters := [(3, { val := BitVec.allOnes 64 })] } (fun t => (t.counter 3).val == 0) = true := by decide +kernel
theorem test_syn_set : stepOk (.synSet 0x18 8 7) up (fun t => (t.counter 3).val == 7 && (t.counter 2).val == 0) = true := by decide +kernel
theorem test_nonce_is_held : stepOk .nonceNew up (fun t => t.lcs.nonceValid) = true := by decide +kernel
theorem test_reboot_in_a_transition_waits : stepOk .reboot { up with hub := { coreQ := [(none, [0, 1])] } } (fun t => t.boot.rebootPend && t.boot.resetDue.isNone) = true := by decide +kernel

-- translation (R289, R296, R298, R305)
theorem test_walk_absent_entry_parks : stepOk (.walkReadComplete 0 0 false) (walking 2) (fun t => (t.htu.entry 0).cause == 1 && (t.htu.entry 0).parked && t.htu.ops == []) = true := by decide +kernel
theorem test_walk_error_is_cause_five : stepOk (.walkReadComplete 0 1 true) (walking 3) (fun t => (t.htu.entry 0).cause == 5 && (t.htu.entry 0).level == 3) = true := by decide +kernel
theorem test_stale_resolve : stepOk (.htuResume 63 254) (parkedOp true) (fun t => t.htu.stale && t.htu.parked.length == 1) = true := by decide +kernel

-- descriptors (R262, R264, R270, R272, R378, R388, R398)
theorem test_nop_completes : stroke (.nop 0) 0 up (fun t => ((t.ring 0).item.map (fun i => i.fin.isSome)) != some false && (t.se 0).work.isNone) = true := by decide +kernel
theorem test_reserved_descriptor_bit_is_ignored : stroke (.signal 0) (2 + 2 ^ 500 + 4095 * 2 ^ 144 + 77 * 2 ^ 192) up (fun t => (t.counter 4095).val == 77) = true := by decide +kernel
theorem test_signal_sets : stroke (.signal 0) (2 + 4095 * 2 ^ 144 + 77 * 2 ^ 192) up (fun t => (t.counter 4095).val == 77) = true := by decide +kernel
theorem test_wait_waits : stroke (.wait 0) (1 + 5 * 2 ^ 192) up (fun t => ((t.item? (.ring 0)).map (·.wait)) == some .cond) = true := by decide +kernel
theorem test_peal_drives_low : stroke (.peal 0) (0x10 + 128 * 2 ^ 128) { up with pins := { stopEn := 255, stopOut := 255 } } (fun t => t.pins.stopOut == 127 && t.run.pealCnt == 1) = true := by decide +kernel
theorem test_muffle_writes_rc_go : stroke (.muffle 0) (0x12 + 127 * 2 ^ 128 + 127 * 2 ^ 136 + 2 ^ 144) (up.setChain 7 whole)
    (fun t => (t.chain 7).down == [.write 15 0 (wdaBase + 0x2E0) [9, 0, 0, 0, 0, 0, 0, 0]]) = true := by decide +kernel
theorem test_muffle_of_a_down_chain : stroke (.muffle 0) (0x12 + 127 * 2 ^ 128 + 127 * 2 ^ 136 + 2 ^ 144) up (fun t => (t.chain 7).down == []) = true := by decide +kernel
theorem test_step_core_of_an_engine_unit : stroke (.stepCore 0) (0x14 + 512 * 2 ^ 128) up (fun t => (t.se 0).work.isNone) = true := by decide +kernel
theorem test_dump_without_store : stroke (.dumpRun 0) (0x31 + 2 * 2 ^ 136) up (fun t => t.dmp.ctx == [] && (t.se 0).work.isNone) = true := by decide +kernel
theorem test_bad_opcode_completes : stepOk (.arbiterDecision 0) (inRing { desc := 0xFF }) (fun t => (t.se 0).work.isNone) = true := by decide +kernel
theorem test_arbiter_takes_urgent_first : stepOk (.arbiterDecision 0) ((inRing { desc := 0 }).setRing 20 { state := .active, item := some { desc := 0 } }) (fun t => (t.se 0).work == some (.ring 0)) = true := by decide +kernel

-- chains (R344, R351, R354, R359, R361)
theorem test_read_of_wda_id : stepOk (.read 7) (up.setChain 7 { whole with down := [.read 15 2 wdaBase 4] }) (fun t => (t.chain 7).up == [.readData 15 2 [0x10, 0x0C, 0, 1]]) = true := by decide +kernel
theorem test_write_discarded_outside : stepOk (.write 7) (up.setChain 7 { whole with down := [.write 15 2 (2 ^ 60) [1]] }) (fun t => (t.chain 7).up == [.writeAck 15 2] && (t.chip 127).mem == []) = true := by decide +kernel
theorem test_hop_up : stepOk (.hopUp 7 0 5) (up.setChain 7 { state := .training, training := true }) (fun t => (t.chain 7).reach == 1) = true := by decide +kernel
theorem test_timeout_ends_the_operation : stepOk (.transactionTimeout 7 3) ({ inRing { desc := 0x20, out := 1, begun := true } with now := 1001 }.setChain 7 { whole with txns := [txn] })
    (fun t => ((t.item? (.ring 0)).map (·.out)) == some 0 && (t.chain 7).timeouts == 1) = true := by decide +kernel
theorem test_alert_dropped_as_repeat : stepOk (.alert 7 15) ((up.setChain 7 { whole with lastAlert := [(15, 6)] }).setChip 127 { alerts := [{ num := 5, word := 0 }] }) (fun t => !(t.src 159).pending) = true := by decide +kernel
theorem test_alert_raises_its_source : stepOk (.alert 7 15) ((up.setChain 7 whole).setChip 127 { alerts := [{ num := 5, word := 0 }] }) (fun t => (t.src 159).pending) = true := by decide +kernel

-- chips (R42, R375, R376, R389, R391, R393, R397)
theorem test_debug_entry : stepOk (.coreDebugEntry 127 31 64) (withCore { pend := [3, 4] }) (fun t => let c := (t.chip 127).core 31; c.state == .monitor && c.cause == 3 && c.pc == 64) = true := by decide +kernel
theorem test_muffle_of_a_running_engine : stepOk (.rcGoHalt 127 false false) (up.setChip 127 { ({} : Chip).setEng 511 { state := .running, len := 3, current := 1 } with selEng := [(15, 0xC0000000)] })
    (fun t => ((t.chip 127).eng 511).state == .muffling && ((t.chip 127).eng 510).state == .muffled && ((t.chip 127).eng 509).state == .idle) = true := by decide +kernel
theorem test_command_complete_muffles : stepOk (.engineCommandComplete 127 511) (withEngine { state := .muffling, len := 3, current := 1 }) (fun t => ((t.chip 127).eng 511).state == .muffled && ((t.chip 127).eng 511).lastDone == 1) = true := by decide +kernel
theorem test_core_step : stepOk (.coreStep 127 31) (withCore { state := .monitor }) (fun t => ((t.chip 127).core 31).state == .stepping) = true := by decide +kernel
theorem test_mailbox_in : stepOk (.mbxIn 127 31 0x12345678) (withCore {}) (fun t => ((t.chip 127).core 31).inFull && ((t.chip 127).core 31).mbxIn == 0x12345678) = true := by decide +kernel
theorem test_stop_input_falls : ((({} : Chip).inputFall 5).stops == 1 && (({} : Chip).inputFall 5).stopIn == false) = true := by decide +kernel
theorem test_chip_reset : stepOk (.chipReset 127) (withCore { state := .monitor, pc := 4 }) (fun t => (t.chip 127).inReset && (t.chip 126).inReset == false) = true := by decide +kernel
theorem test_stream_load : stepOk (.streamLoad 127 511 6 2) (withEngine {}) (fun t => ((t.chip 127).eng 511).streamId == 6 && ((t.chip 127).eng 511).len == 2) = true := by decide +kernel

-- the scan port (R218, R222, R224, R231, R238)
theorem test_idcode : stepOk .idcode up (fun t => t.scan.ir == 2 && t.scan.capture == 0x0C4D1A3B) = true := by decide +kernel
theorem test_refused_in_scrapped : stepOk (.extest true 0 0) { up with lcs := { state := 6 } } (fun t => t.scan.denied && t.scan.ir == 0 && t.auth.denyCnt == 1) = true := by decide +kernel
theorem test_hubcmd_post : stepOk (.hubcmdPost 7) (scanOn 0x11) (fun t => (t.scan.slots.map (·.desc)) == [7] && t.scan.nextSeq == 1) = true := by decide +kernel
theorem test_hubcmd_post_full : stepOk (.hubcmdPost 7) { scanOn 0x11 with scan := { ir := 0x11, tlr := false, slots := List.replicate 8 { seq := 0, desc := 0 } } } (fun t => t.scan.sringDrop && t.scan.slots.length == 8) = true := by decide +kernel
theorem test_dbgreg_write : stepOk (.dbgregWrite 0x1004 0x3F) (scanOn 0x12) (fun t => t.pwr.wakeEn == 0x3F && t.scan.dbgDone) = true := by decide +kernel
theorem test_dbgreg_asleep : stepOk (.dbgregRead 0x10) (napping 0x12) (fun t => t.scan.dbgAsleep) = true := by decide +kernel

-- stop lines, cuts, trace (R378, R386, R498, R501)
theorem test_pulse_ends : stepOk (.stopPulseEnd 7) { up with now := 1000, pins := { stopEn := 128, pulse := [(7, 1)] } } (fun t => t.pins.stopOut == 128 && t.pins.pulse == []) = true := by decide +kernel
theorem test_pulse_not_yet : stepOk (.stopPulseEnd 7) { up with now := 999, pins := { stopEn := 128, pulse := [(7, 1)] } } (fun t => t.pins.stopOut == 0) = true := by decide +kernel
theorem test_soft_trigger : stepOk .softTrig { up with trc := { state := .pre } } (fun t => t.trc.state == .post && t.trc.triggered) = true := by decide +kernel
theorem test_trace_of_an_unarmed_hub : stepOk (.trace 7) (up.setChain 7 { whole with upTrace := [.trace 15 [traceRec]] }) (fun t => (t.chain 7).upTrace == [] && t.trc.ring == []) = true := by decide +kernel
theorem test_empty_queue_ticks : (match step up with | .next t => t.now == 1 | _ => false) = true := by decide +kernel

/-- The check value of CRC-32. -/
theorem test_crc32 : crc32 [0x31, 0x32, 0x33, 0x34, 0x35, 0x36, 0x37, 0x38, 0x39] = 0xCBF43926 := by decide +kernel

/-! ### What the vendor has signed

The signature functions are constants of Config, so these witnesses are built from the vendor's own keys and signatures. -/

theorem ofNat_toNat_map (l : List Byte) : (l.map BitVec.toNat).map (BitVec.ofNat 8) = l := by simp [Function.comp_def]
/-- A part of a list's beginning. -/
theorem take_drop_append {α : Type} (a b : List α) (o n : Nat) (h : o + n ≤ a.length) : ((a ++ b).drop o).take n = (a.drop o).take n := by
  rw [List.drop_append_of_le_length (by omega), List.take_append_of_le_length (by simp; omega)]
/-- The part that follows a list's beginning. -/
theorem take_drop_next {α : Type} (a b c : List α) (o n : Nat) (ho : a.length = o) (hn : b.length = n) : ((a ++ (b ++ c)).drop o).take n = b := by
  subst ho hn; simp
/-- The part that ends a list. -/
theorem take_drop_last {α : Type} (a b : List α) (o n : Nat) (ho : a.length = o) (hn : b.length = n) : ((a ++ b).drop o).take n = b := by
  subst ho hn; simp
theorem zeros_length (n : Nat) : (zeros n).length = n := List.length_replicate
theorem signed_verifies (m : List Byte) : Config.ecdsaP384 Config.vendorLc.toList m (Config.vendorSign Config.vendorLc.toList m).toList = true ∧
    Config.ecdsaP384 Config.vendorFw.toList m (Config.vendorSign Config.vendorFw.toList m).toList = true := by simp [Config.ecdsaP384]

/-- A request from CURRENT 0 to TARGET 1 for unit 0 with nonce 0 (Table 6.2): its fields, and what is signed. -/
def lcsHead : List Byte := leBytes 4 0x5152434C ++ leBytes 4 1 ++ zeros 17 ++ [1] ++ zeros 22
def lcsSigned : List Byte := lcsHead ++ (Config.vendorLc.toList ++ zeros 15)
def lcsBytes : List Nat := (lcsSigned ++ (Config.vendorSign Config.vendorLc.toList lcsSigned).toList).map BitVec.toNat

theorem lcsSigned_length : lcsSigned.length = 160 := by
  have h : lcsHead.length = 48 := by decide +kernel
  simp [lcsSigned, h, zeros_length]
theorem lcsBytes_bytes (o n : Nat) : LcsReq.bytes { raw := lcsBytes } o n = ((lcsSigned ++ (Config.vendorSign Config.vendorLc.toList lcsSigned).toList).drop o).take n := by
  simp only [LcsReq.bytes, lcsBytes, ← List.map_drop, ← List.map_take, ofNat_toNat_map]
theorem lcsBytes_at (o n : Nat) (h : o + n ≤ 48) : LcsReq.at_ { raw := lcsBytes } o n = leNat ((lcsHead.drop o).take n) := by
  have hl : lcsHead.length = 48 := by decide +kernel
  have := lcsBytes_bytes o n
  rw [LcsReq.bytes, take_drop_append _ _ _ _ (by rw [lcsSigned_length]; omega), lcsSigned, take_drop_append _ _ _ _ (by omega)] at this
  rw [LcsReq.at_, this]
/-- The request passes the checks in BLANK, on unit 0, with nonce 0 held. -/
theorem lcsBytes_pass (s : State) (ow : Option Work) (hu : s.fuses.unitId = 0) (hs : s.lcs.state = 0) (hn : s.lcs.nonceValid = true) (h0 : s.lcs.nonce = 0) :
    s.lcsCheck ow { raw := lcsBytes } = 1 := by
  have hl : lcsHead.length = 48 := by decide +kernel
  have a0 := lcsBytes_at 0 4 (by omega)
  have a4 := lcsBytes_at 4 2 (by omega)
  have a8 := lcsBytes_at 8 16 (by omega)
  have a18 := lcsBytes_at 0x18 1 (by omega)
  have a19 := lcsBytes_at 0x19 1 (by omega)
  have a1a := lcsBytes_at 0x1A 1 (by omega)
  have a20 := lcsBytes_at 0x20 16 (by omega)
  have key : LcsReq.bytes { raw := lcsBytes } 0x30 97 = Config.vendorLc.toList := by
    rw [lcsBytes_bytes, lcsSigned, List.append_assoc, List.append_assoc]; exact take_drop_next _ _ _ _ _ hl Vector.length_toList
  have msg : LcsReq.bytes { raw := lcsBytes } 0 0xA0 = lcsSigned := by
    rw [lcsBytes_bytes]; exact take_drop_next [] _ _ _ _ rfl lcsSigned_length
  have sig : LcsReq.bytes { raw := lcsBytes } 0xA0 96 = (Config.vendorSign Config.vendorLc.toList lcsSigned).toList := by
    rw [lcsBytes_bytes]; exact take_drop_last _ _ _ _ lcsSigned_length Vector.length_toList
  have v0 : leNat ((lcsHead.drop 0).take 4) = 0x5152434C := by decide +kernel
  have v4 : leNat ((lcsHead.drop 4).take 2) = 1 := by decide +kernel
  have v8 : leNat ((lcsHead.drop 8).take 16) = 0 := by decide +kernel
  have v18 : leNat ((lcsHead.drop 0x18).take 1) = 0 := by decide +kernel
  have v19 : leNat ((lcsHead.drop 0x19).take 1) = 1 := by decide +kernel
  have v1a : leNat ((lcsHead.drop 0x1A).take 1) = 0 := by decide +kernel
  have v20 : leNat ((lcsHead.drop 0x20).take 16) = 0 := by decide +kernel
  rw [v0] at a0
  simp [State.lcsCheck, State.lcsCurrentOk, State.lcsKeyOk, LcsReq.target, LcsReq.current, LcsReq.signer, LcsReq.keyHash, LcsReq.signed, signerOf, Config.vendorLcKey,
    a0, a4, a8, a18, a19, a1a, a20, v4, v8, v18, v19, v1a, v20, key, msg, sig, (signed_verifies lcsSigned).1, hu, hs, hn, h0]

/-- The request's hypotheses can be met: `Obligations.LifecycleRequestsBurnOrLeave`. -/
theorem witness_lifecycleRequestsPass :
    (∃ (s : State) (v : LcsView) (ow : Option Work) (src : Nat) (d : List Nat), (s.coreHead 0 = some (ow, src, d) ∧ s.fastRun = true ∧ s.lcs.trans = none ∧
      (s.line 17).level = false ∧ v.cut = none ∧ v.stuck = []) ∧ s.lcsCheck ow { raw := d } = 1) ∧
    (∃ (s : State) (v : LcsView) (ow : Option Work) (src : Nat) (d : List Nat), (s.coreHead 0 = some (ow, src, d) ∧ s.fastRun = true ∧ s.lcs.trans = none ∧
      (s.line 17).level = true ∧ v.cut = none) ∧ s.lcsCheck ow { raw := d } = 1) :=
  ⟨⟨{ up with hub := { coreQ := [(none, 0 :: 1 :: lcsBytes)] }, lcs := { nonceValid := true } }, lcsView, none, 1, lcsBytes,
      ⟨rfl, by decide +kernel, rfl, by decide +kernel, rfl, rfl⟩, lcsBytes_pass _ _ rfl rfl rfl rfl⟩,
   ⟨({ up with hub := { coreQ := [(none, 0 :: 1 :: lcsBytes)] }, lcs := { nonceValid := true } } : State).setLine 17 { level := true }, lcsView, none, 1, lcsBytes,
      ⟨rfl, by decide +kernel, rfl, by decide +kernel, rfl⟩, lcsBytes_pass _ _ rfl rfl rfl rfl⟩⟩

/-- A certificate of one entry, both paths at FULL for every chip, from issuer 0 for unit 0 (Table 7.2); `f` its floor-raise byte. -/
def certHead (f : Byte) : List Byte :=
  leBytes 4 0x43545243 ++ leBytes 2 1 ++ [1, f] ++ zeros 27 ++ [1] ++ zeros 4 ++ [0xFF, 0xFF, 0xFF, 0xFF] ++ zeros 4 ++ [3, 2, 0, 0, 0, 127, 0, 0] ++ zeros 200
def certSigned_ (f : Byte) : List Byte := certHead f ++ (Config.vendorLc.toList ++ zeros 63)
def certRaw (f : Byte) : List Nat := (certSigned_ f ++ (Config.vendorSign Config.vendorLc.toList (certSigned_ f)).toList).map BitVec.toNat

theorem certHead_length (f : Byte) : (certHead f).length = 256 := by simp [certHead, zeros_length, leBytes]
theorem certSigned_length (f : Byte) : (certSigned_ f).length = 416 := by simp [certSigned_, certHead_length, zeros_length]
theorem certRaw_bytes (f : Byte) (o n : Nat) :
    ((((certRaw f).drop o).take n).map (BitVec.ofNat 8)) = ((certSigned_ f ++ (Config.vendorSign Config.vendorLc.toList (certSigned_ f)).toList).drop o).take n := by
  simp only [certRaw, ← List.map_drop, ← List.map_take, ofNat_toNat_map]
theorem certRaw_at (f : Byte) (o n : Nat) (h : o + n ≤ 256) : certAt (certRaw f) o n = leNat (((certHead f).drop o).take n) := by
  rw [certAt, certRaw_bytes, take_drop_append _ _ _ _ (by rw [certSigned_length]; omega), certSigned_, take_drop_append _ _ _ _ (by rw [certHead_length]; omega)]
/-- The certificate passes the checks in BLANK, on unit 0. -/
theorem certRaw_pass (s : State) (f : Byte) (hf : f = 0 ∨ f = 1) (hu : s.fuses.unitId = 0) (hs : s.lcs.state ≠ 4) (hc : s.auth.certs = []) (hfl : s.fuses.floorCount = 0)
    (hb : s.boot.count = 0) : s.certCheck (certRaw f) = 1 := by
  have key : certBytes (certRaw f) 0x100 97 = Config.vendorLc.toList := by
    rw [certBytes, certRaw_bytes, certSigned_, List.append_assoc, List.append_assoc]; exact take_drop_next _ _ _ _ _ (certHead_length f) Vector.length_toList
  have msg : certBytes (certRaw f) 0 0x1A0 = certSigned_ f := by
    rw [certBytes, certRaw_bytes]; exact take_drop_next [] _ _ _ _ rfl (certSigned_length f)
  have sig : certBytes (certRaw f) 0x1A0 96 = (Config.vendorSign Config.vendorLc.toList (certSigned_ f)).toList := by
    rw [certBytes, certRaw_bytes]; exact take_drop_last _ _ _ _ (certSigned_length f) Vector.length_toList
  have hk : ∀ o n, o + n ≤ 256 → certAt (certRaw f) o n = leNat (((certHead f).drop o).take n) := certRaw_at f
  have h0 := hk 0 4 (by omega)
  have h4 := hk 4 2 (by omega)
  have h6 := hk 6 1 (by omega)
  have h8 := hk 8 16 (by omega)
  have h18 := hk 0x18 1 (by omega)
  have h20 := hk 0x20 4 (by omega)
  have h24 := hk 0x24 4 (by omega)
  have h28 := hk 0x28 4 (by omega)
  have e0 := hk 0x30 1 (by omega)
  have e1 := hk 0x31 1 (by omega)
  have e2 := hk 0x32 1 (by omega)
  have e3 := hk 0x33 1 (by omega)
  have e4 := hk 0x34 1 (by omega)
  have e5 := hk 0x35 1 (by omega)
  have slot : (s.slotOf (certOf (certRaw f))).isNone = false := by simp [State.slotOf, hc, tget, List.range_succ]
  have vals : leNat (((certHead f).drop 0).take 4) = 0x43545243 ∧ leNat (((certHead f).drop 4).take 2) = 1 ∧ leNat (((certHead f).drop 6).take 1) = 1 ∧
      leNat (((certHead f).drop 8).take 16) = 0 ∧ leNat (((certHead f).drop 0x18).take 1) = 0 ∧ leNat (((certHead f).drop 0x24).take 4) = 0 ∧
      leNat (((certHead f).drop 0x28).take 4) = 2 ^ 32 - 1 ∧ leNat (((certHead f).drop 0x30).take 1) = 3 ∧ leNat (((certHead f).drop 0x31).take 1) = 2 ∧
      leNat (((certHead f).drop 0x32).take 1) = 0 ∧ leNat (((certHead f).drop 0x33).take 1) = 0 ∧ leNat (((certHead f).drop 0x34).take 1) = 0 ∧
      leNat (((certHead f).drop 0x35).take 1) = 127 := by
    rcases hf with rfl | rfl <;> decide +kernel
  obtain ⟨v0, v4, v6, v8, v18, v24, v28, w0, w1, w2, w3, w4, w5⟩ := vals
  rw [v0] at h0; rw [v4] at h4; rw [v6] at h6; rw [v8] at h8; rw [v18] at h18; rw [v24] at h24; rw [v28] at h28
  rw [w0] at e0; rw [w1] at e1; rw [w2] at e2; rw [w3] at e3; rw [w4] at e4; rw [w5] at e5
  simp [State.certCheck, certKey, certSigned, entryOk, List.range_succ, Config.vendorLcKey, h0, h4, h6, h8, h18, h24, h28, e0, e1, e2, e3, e4, e5, key, msg, sig,
    (signed_verifies (certSigned_ f)).1, hu, hs, hfl, hb, slot]

/-- The certificates' hypotheses can be met: `Obligations.CertificatesInstallOnTheirChecks`. -/
theorem witness_certificatesPass :
    (∃ (s : State) (ow : Option Work) (src : Nat) (d : List Nat), (s.coreHead 1 = some (ow, src, d) ∧ s.fastRun = true ∧ s.secretPresent = true ∧ s.boot.countWritten = false) ∧
      s.certCheck d = 1) ∧
    (∃ (s : State) (v : CertView) (ow : Option Work) (src : Nat) (d : List Nat), (s.coreHead 1 = some (ow, src, d) ∧ s.fastRun = true ∧
      (s.secretPresent = false ∨ s.boot.countWritten = true) ∧ v.cut = none) ∧ s.certCheck d = 1 ∧ bit (certAt d 7 1) 0 = false) ∧
    (∃ (s : State) (v : CertView) (ow : Option Work) (src : Nat) (d : List Nat), (s.coreHead 1 = some (ow, src, d) ∧ s.fastRun = true ∧
      (s.secretPresent = false ∨ s.boot.countWritten = true) ∧ v.cut = none ∧ v.stuck = [] ∧ (s.line 17).level = false) ∧ s.certCheck d = 1 ∧ bit (certAt d 7 1) 0 = true) :=
  ⟨⟨{ up with hub := { coreQ := [(none, 1 :: 1 :: certRaw 0)] }, lcs := { state := 1 } }, none, 1, certRaw 0,
      ⟨rfl, by decide +kernel, by decide +kernel, rfl⟩, certRaw_pass _ _ (.inl rfl) rfl (by decide) rfl (by decide +kernel) rfl⟩,
   ⟨{ up with hub := { coreQ := [(none, 1 :: 1 :: certRaw 0)] } }, certView, none, 1, certRaw 0,
      ⟨rfl, by decide +kernel, by decide +kernel, rfl⟩, certRaw_pass _ _ (.inl rfl) rfl (by decide) rfl (by decide +kernel) rfl,
      by rw [certRaw_at _ _ _ (by omega)]; decide +kernel⟩,
   ⟨{ up with hub := { coreQ := [(none, 1 :: 1 :: certRaw 1)] } }, certView, none, 1, certRaw 1,
      ⟨rfl, by decide +kernel, by decide +kernel, rfl, rfl, by decide +kernel⟩, certRaw_pass _ _ (.inr rfl) rfl (by decide) rfl (by decide +kernel) rfl,
      by rw [certRaw_at _ _ _ (by omega)]; decide +kernel⟩⟩

/-- An image of 4,096 bytes, of TYPE 1 and for any unit, signed with the vendor's firmware key (Table 5.4). -/
def imageHead : List Byte := leBytes 4 0x49574843 ++ leBytes 2 1 ++ leBytes 2 1 ++ leBytes 4 4096 ++ zeros 52
def imageFront : List Byte := imageHead ++ (Config.vendorFw.toList ++ zeros 255)
def imageSign : List Byte := (Config.vendorSign Config.vendorFw.toList (imageFront ++ zeros 3584)).toList
def image : List Byte := imageFront ++ (imageSign ++ zeros 3584)

theorem imageHead_length : imageHead.length = 64 := by decide +kernel
theorem imageFront_length : imageFront.length = 416 := by simp [imageFront, imageHead_length, zeros_length]
theorem image_length : image.length = 4096 := by simp [image, imageSign, imageFront_length, zeros_length]
theorem image_head (o n : Nat) (h : o + n ≤ 64) : (image.drop o).take n = (imageHead.drop o).take n := by
  rw [image, take_drop_append _ _ _ _ (by rw [imageFront_length]; omega), imageFront, take_drop_append _ _ _ _ (by rw [imageHead_length]; omega)]
/-- What a range of the NOR reads after it was written. -/
theorem norRead_norWrite (s : State) (a o n : Nat) (d : List Byte) (h : o + n ≤ d.length) : (s.norWrite a d).norRead (a + o) n = (d.drop o).take n := by
  apply List.ext_getElem
  · simp [State.norRead]; omega
  intro i h1 h2
  have hi : i < n := by simpa [State.norRead] using h1
  have : o + i < d.length := by omega
  simp [State.norRead, State.norByte, State.norWrite, mget_mwrite, this, show a ≤ a + o + i from by omega, show a + o + i < a + d.length from by omega, show a + o + i - a = o + i from by omega, List.getD_eq_getElem?_getD]
/-- A slot that holds the image passes the checks of a boot of any unit. -/
theorem image_passes (s : State) (x : Nat) : (s.norWrite (slotBase x) image).slotFail true x = 0 := by
  have r : ∀ n, n ≤ 4096 → (s.norWrite (slotBase x) image).norRead (slotBase x) n = image.take n := fun n h => by
    simpa using norRead_norWrite s (slotBase x) 0 n image (by rw [image_length]; omega)
  have len : leNat ((image.drop 8).take 4) = 4096 := by rw [image_head 8 4 (by omega)]; decide +kernel
  have copy : (s.norWrite (slotBase x) image).slotCopy x = image := by
    have h8 : ((image.take 0x200).drop 8).take 4 = (image.drop 8).take 4 := by rw [List.drop_take, List.take_take]; rfl
    simp [State.slotCopy, r 0x200 (by omega), r 4096 (by omega), h8, len, fwLength, List.take_of_length_le (Nat.le_of_eq image_length)]
  have key : (image.drop 0x40).take 97 = Config.vendorFw.toList := by
    rw [image, imageFront, List.append_assoc, List.append_assoc]; exact take_drop_next _ _ _ _ _ imageHead_length Vector.length_toList
  have sig : (image.drop 0x1A0).take 96 = imageSign := take_drop_next _ _ _ _ _ imageFront_length Vector.length_toList
  have msg : image.take 0x1A0 ++ (image.take 4096).drop 0x200 = imageFront ++ zeros 3584 := by
    rw [List.take_of_length_le (Nat.le_of_eq image_length)]
    have hs : (imageFront ++ imageSign).length = 0x200 := by simp [imageFront_length, imageSign]
    have h1 : image.take 0x1A0 = imageFront := take_drop_next [] imageFront (imageSign ++ zeros 3584) 0 0x1A0 rfl imageFront_length
    have h2 : image.drop 0x200 = zeros 3584 := by
      rw [image, ← List.append_assoc]; exact List.drop_left' hs
    exact h1.symm ▸ h2.symm ▸ rfl
  have h0 : leNat ((image.drop 0).take 4) = 0x49574843 := by rw [image_head 0 4 (by omega)]; decide +kernel
  have h4 : leNat ((image.drop 4).take 2) = 1 := by rw [image_head 4 2 (by omega)]; decide +kernel
  have h6 : leNat ((image.drop 6).take 2) = 1 := by rw [image_head 6 2 (by omega)]; decide +kernel
  have h30 : leNat ((image.drop 0x30).take 1) = 0 := by rw [image_head 0x30 1 (by omega)]; decide +kernel
  have h20 : (image.drop 0x20).take 16 = zeros 16 := by rw [image_head 0x20 16 (by omega)]; decide +kernel
  have ok : imageSigned image 4096 = true := by rw [imageSigned, key, sig, msg]; exact (signed_verifies _).2
  have hz := h0
  rw [List.drop_zero] at hz
  simp [State.slotFail, copy, headerFail, fwLength, unitFits, imageKey, Config.vendorFwKey, key, hz, h4, h6, len, h30, h20, ok]

/-- The hypotheses of a slot that passes can be met: `Obligations.BootsAndNorHousekeeping`. -/
theorem witness_slotsPass :
    (∃ (s : State) (v : BootView) (cause : Nat), (s.boot.due = some cause ∧ s.bootReady = true ∧ s.boot.fused = true ∧ s.pwr.pllLock = true ∧ s.boot.stage = 1) ∧
      s.slotFail v.norOk s.boot.first = 0) ∧
    (∃ (s : State) (v : BootView) (cause : Nat), (s.boot.due = some cause ∧ s.bootReady = true ∧ s.boot.fused = true ∧ s.pwr.pllLock = true ∧ s.boot.stage = 2) ∧
      s.slotFail v.norOk (1 - s.boot.first) = 0) :=
  ⟨⟨(booting 1).norWrite (slotBase 0) image, ⟨true, 2⟩, 0, ⟨rfl, rfl, rfl, rfl, rfl⟩, image_passes _ 0⟩,
   ⟨(booting 2).norWrite (slotBase 1) image, ⟨true, 2⟩, 0, ⟨rfl, rfl, rfl, rfl, rfl⟩, image_passes _ 1⟩⟩

/-! ### Witnesses -/

/-- Its hypotheses can be met: `Obligations.EmptyQueueTicksTheClocks`. -/
theorem witness_emptyQueueTicksTheClocks :
    (∃ (s : State), s.pending = [] ∧ s.boot.resetDue = none) :=
  ⟨up, by decide +kernel⟩

/-- Its hypotheses can be met: `Obligations.StepsKeepMemoriesAndHostOperationsSound`. -/
theorem witness_stepsKeepMemoriesAndHostOperationsSound :
    (∃ (s : State) (t : State), step s = Host.Outcome.next t ∧ s.memoriesWf) ∧
    (∃ (s : State) (t : State), step s = Host.Outcome.next t ∧ s.numbered) :=
  ⟨⟨up, _, rfl, by unfold State.memoriesWf; decide +kernel⟩,
   ⟨up, _, rfl, by unfold State.numbered; decide +kernel⟩⟩

/-- Its hypotheses can be met: `Obligations.BurnedFusesStayBurned`. -/
theorem witness_burnedFusesStayBurned :
    (∃ (s : State) (t : State), step s = Host.Outcome.next t) :=
  ⟨up, _, rfl⟩

/-- Its hypotheses can be met: `Obligations.CommandsLeaveTheQueueAndTime`. -/
theorem witness_commandsLeaveTheQueueAndTime :
    (∃ (c : Instr) (s : State) (t : State), exec c s = Host.Outcome.next t) :=
  ⟨.pllLock, up, _, rfl⟩

/-- Its hypotheses can be met: `Obligations.HubStatisticsAndPlainRegisters`. -/
theorem witness_hubStatisticsAndPlainRegisters :
    (∃ (s : State), s.serves 20 = true) ∧
    (∃ (s : State) (v : Nat), v < 2 ^ 32 ∧ s.serves 16 = true ∧ v &&& 1046527 = v) ∧
    (∃ (s : State) (v : Nat), v < 2 ^ 32 ∧ s.serves 4100 = true ∧ v < 64) ∧
    (∃ (s : State) (v : Nat), v < 2 ^ 32 ∧ s.serves 4104 = true ∧ v &&& 4294835968 = v) ∧
    (∃ (s : State) (v : Nat), v < 2 ^ 32 ∧ s.serves 4112 = true) ∧
    (∃ (s : State) (v : Nat), v < 2 ^ 32 ∧ s.serves 32768 = true ∧ v &&& 113 = v) ∧
    (∃ (s : State) (v : Nat), v < 2 ^ 32 ∧ s.serves 32772 = true ∧ v < 2 ^ 16) ∧
    (∃ (s : State) (v : Nat), v < 2 ^ 32 ∧ s.serves 40960 = true ∧ v &&& 1048321 = v) ∧
    (∃ (s : State) (v : Nat), v < 2 ^ 32 ∧ s.serves 45056 = true ∧ v < 2 ^ 24) ∧
    (∃ (s : State) (v : Nat), s.serves 4108 = true ∧ v < 2 ^ 32 ∧ v &&& 2046 = v) :=
  ⟨⟨up, by decide +kernel⟩,
   ⟨up, 0xFF7FF, by decide +kernel⟩,
   ⟨up, 63, by decide +kernel⟩,
   ⟨up, 0xFFFDFF00, by decide +kernel⟩,
   ⟨up, 2 ^ 32 - 1, by decide +kernel⟩,
   ⟨up, 0x71, by decide +kernel⟩,
   ⟨up, 2 ^ 16 - 1, by decide +kernel⟩,
   ⟨up, 0xFFF01, by decide +kernel⟩,
   ⟨up, 2 ^ 24 - 1, by decide +kernel⟩,
   ⟨up, 0x7FE, by decide +kernel⟩⟩

/-- Its hypotheses can be met: `Obligations.MisusedUnservedAndHeldAccesses`. -/
theorem witness_misusedUnservedAndHeldAccesses :
    (∃ (s : State) (off : Nat) (size : Nat) (v : Nat), s.hostReaches = true ∧ off < bar2 ∧ s.linked.hostWaits off = false ∧
      s.linked.served0 off = true ∧ s.linked.rstReaches off = false ∧ v < 2 ^ (8 * size) ∧ sizeOk off size = false) ∧
    (∃ (s : State) (off : Nat) (size : Nat) (v : Nat), s.hostReaches = true ∧ off < bar2 ∧ s.linked.hostWaits off = false ∧
      s.linked.served0 off = true ∧ s.linked.rstReaches off = false ∧ v < 2 ^ (8 * size) ∧ sizeOk off size = false) ∧
    (∃ (s : State) (off : Nat) (size : Nat) (v : Nat), s.hostReaches = true ∧ off < bar2 ∧ s.linked.hostWaits off = false ∧
      s.linked.served0 off = true ∧ s.linked.rstReaches off = false ∧ v < 2 ^ (8 * size) ∧ sizeOk off size = true ∧ regMask off = none ∧ v ≠ 0) ∧
    (∃ (s : State) (off : Nat) (size : Nat) (v : Nat) (m : Nat), s.hostReaches = true ∧ off < bar2 ∧ s.linked.hostWaits off = false ∧
      s.linked.served0 off = true ∧ s.linked.rstReaches off = false ∧ v < 2 ^ (8 * size) ∧ off % 4 = 0 ∧ size = 4 ∧ regMask off = some m ∧
      v &&& m ≠ v) ∧
    (∃ (s : State) (off : Nat) (size : Nat) (v : Nat) (m : Nat), (s.hostReaches = true ∧ off < bar2 ∧ s.linked.hostWaits off = false ∧
      s.linked.served0 off = true ∧ s.linked.rstReaches off = false ∧ v < 2 ^ (8 * size) ∧ sizeOk off size = true ∧ regMask off = some m) ∧
      (size = 4 → v &&& m = v)) ∧
    (∃ (s : State) (off : Nat) (size : Nat) (v : Nat) (m : Nat × Bool), s.hostReaches = true ∧ off < bar2 ∧ s.linked.hostWaits off = false ∧
      s.linked.served0 off = true ∧ s.linked.rstReaches off = false ∧ v < 2 ^ (8 * size) ∧ m ∈ s.linked.misuses ∧ m = (off, false)) ∧
    (∃ (s : State) (off : Nat), s.hostReaches = true ∧ off < bar2 ∧ s.linked.hostWaits off = false ∧ (s.linked.served0 off = false ∨
      s.linked.rstReaches off = true)) ∧
    (∃ (s : State) (off : Nat) (v : Nat), s.hostReaches = true ∧ off < bar2 ∧ v < 2 ^ 32 ∧ s.linked.hostWaits off = true) :=
  ⟨⟨up, 2, 4, 2 ^ 32 - 1, by decide +kernel⟩,
   ⟨up, 0x20004, 8, 2 ^ 64 - 1, by decide +kernel⟩,
   ⟨up, 0xFFC, 4, 2 ^ 32 - 1, by decide +kernel⟩,
   ⟨up, 0x10, 4, 2 ^ 32 - 1, 0xFF7FF, by decide +kernel⟩,
   ⟨up, 0x10, 4, 0xFF7FF, 0xFF7FF, by decide +kernel, by decide +kernel⟩,
   ⟨{ up with misuses := [(0x10, false)] }, 0x10, 4, 0, (0x10, false), by decide +kernel⟩,
   ⟨{ up with boot := { stage := 5 } }, 0x10, by decide +kernel⟩,
   ⟨{ up with pwr := { state := .idle, pllLock := true } }, 0x10, 0xFF7FF, by decide +kernel⟩⟩

/-- Its hypotheses can be met: `Obligations.RingsStartAndDrain`. -/
theorem witness_ringsStartAndDrain :
    (∃ (s : State) (r : Nat), r < 512 ∧ s.serves (65556 + 64 * r) = true ∧ (s.ring r).state = RingState.disabled) ∧
    (∃ (s : State) (r : Nat), r < 512 ∧ s.serves (65556 + 64 * r) = true ∧ (s.ring r).state ≠ RingState.disabled) ∧
    (∃ (s : State) (r : Nat), r < 512 ∧ s.serves (65556 + 64 * r) = true ∧ ((s.ring r).state = RingState.disabled ∨
      (s.ring r).state = RingState.draining)) ∧
    (∃ (s : State) (r : Nat), r < 512 ∧ s.serves (65556 + 64 * r) = true ∧ (s.ring r).state ≠ RingState.disabled ∧
      (s.ring r).state ≠ RingState.draining ∧ (s.ring r).item = none ∧ (s.ring r).cplQ = []) ∧
    (∃ (s : State) (r : Nat), r < 512 ∧ s.serves (65556 + 64 * r) = true ∧ (s.ring r).state ≠ RingState.disabled ∧
      (s.ring r).state ≠ RingState.draining) :=
  ⟨⟨up, 511, by decide +kernel⟩,
   ⟨up.setRing 511 { state := .active }, 511, by decide +kernel⟩,
   ⟨up.setRing 511 { state := .draining }, 511, by decide +kernel⟩,
   ⟨up.setRing 511 { state := .idle }, 511, by decide +kernel⟩,
   ⟨up.setRing 511 { state := .active, item := some { desc := 0 } }, 511, by decide +kernel⟩⟩

/-- Its hypotheses can be met: `Obligations.DoorbellsAreChecked`. -/
theorem witness_doorbellsAreChecked :
    (∃ (s : State) (r : Nat) (v : Nat) (c : Nat), r < 512 ∧ v < 2 ^ 32 ∧ s.hostReaches = true ∧ s.linked.hostWaits bar2 = false ∧
      (((s.ring r).state = RingState.disabled ∨ (s.ring r).state = RingState.draining) ∧ c = 3 ∨ ¬((s.ring r).state = RingState.disabled ∨
      (s.ring r).state = RingState.draining) ∧ (s.ring r).size ≤ v ∧ c = 1 ∨ ¬((s.ring r).state = RingState.disabled ∨
      (s.ring r).state = RingState.draining) ∧ v < (s.ring r).size ∧
      (v + (s.ring r).size - (s.ring r).head) % (s.ring r).size < ((s.ring r).tail + (s.ring r).size - (s.ring r).head) % (s.ring r).size ∧ c = 2)) ∧
    (∃ (s : State) (r : Nat) (v : Nat) (c : Nat), r < 512 ∧ v < 2 ^ 32 ∧ s.hostReaches = true ∧ s.linked.hostWaits bar2 = false ∧
      (((s.ring r).state = RingState.disabled ∨ (s.ring r).state = RingState.draining) ∧ c = 3 ∨ ¬((s.ring r).state = RingState.disabled ∨
      (s.ring r).state = RingState.draining) ∧ (s.ring r).size ≤ v ∧ c = 1 ∨ ¬((s.ring r).state = RingState.disabled ∨
      (s.ring r).state = RingState.draining) ∧ v < (s.ring r).size ∧
      (v + (s.ring r).size - (s.ring r).head) % (s.ring r).size < ((s.ring r).tail + (s.ring r).size - (s.ring r).head) % (s.ring r).size ∧ c = 2)) ∧
    (∃ (s : State) (r : Nat) (v : Nat) (c : Nat), r < 512 ∧ v < 2 ^ 32 ∧ s.hostReaches = true ∧ s.linked.hostWaits bar2 = false ∧
      (((s.ring r).state = RingState.disabled ∨ (s.ring r).state = RingState.draining) ∧ c = 3 ∨ ¬((s.ring r).state = RingState.disabled ∨
      (s.ring r).state = RingState.draining) ∧ (s.ring r).size ≤ v ∧ c = 1 ∨ ¬((s.ring r).state = RingState.disabled ∨
      (s.ring r).state = RingState.draining) ∧ v < (s.ring r).size ∧
      (v + (s.ring r).size - (s.ring r).head) % (s.ring r).size < ((s.ring r).tail + (s.ring r).size - (s.ring r).head) % (s.ring r).size ∧ c = 2)) ∧
    (∃ (s : State) (r : Nat) (v : Nat), r < 512 ∧ s.hostReaches = true ∧ s.linked.hostWaits bar2 = false ∧ ((s.ring r).state = RingState.idle ∨
      (s.ring r).state = RingState.active) ∧ v < (s.ring r).size ∧ v ≠ (s.ring r).tail ∧
      ((s.ring r).tail + (s.ring r).size - (s.ring r).head) % (s.ring r).size ≤ (v + (s.ring r).size - (s.ring r).head) % (s.ring r).size) ∧
    (∃ (s : State) (r : Nat) (v : Nat), r < 512 ∧ s.hostReaches = true ∧ s.linked.hostWaits bar2 = false ∧ ((s.ring r).state = RingState.idle ∨
      (s.ring r).state = RingState.active) ∧ v < (s.ring r).size ∧ v ≠ (s.ring r).tail ∧
      ((s.ring r).tail + (s.ring r).size - (s.ring r).head) % (s.ring r).size ≤ (v + (s.ring r).size - (s.ring r).head) % (s.ring r).size) :=
  ⟨⟨up, 511, 2 ^ 32 - 1, 3, by decide +kernel⟩,
   ⟨up.setRing 511 { state := .idle }, 511, 16, 1, by decide +kernel⟩,
   ⟨up.setRing 511 { state := .active, tail := 5 }, 511, 4, 2, by decide +kernel⟩,
   ⟨up.setRing 511 { state := .idle }, 511, 15, by decide +kernel⟩,
   ⟨up.setRing 0 { state := .active, head := 15, tail := 15 }, 0, 0, by decide +kernel⟩⟩

/-- Its hypotheses can be met: `Obligations.SyncCountersWrapAndLatch`. -/
theorem witness_syncCountersWrapAndLatch :
    (∃ (s : State) (k : Nat) (v : Nat), k < 4096 ∧ ((s.counter k).cycle ≠ s.now ∨ (s.counter k).ops = []) ∧ s.serves (131072 + 8 * k) = true ∧
      v < 2 ^ 64) ∧
    (∃ (s : State) (k : Nat) (v : Nat), k < 4096 ∧ ((s.counter k).cycle ≠ s.now ∨ (s.counter k).ops = []) ∧ s.serves (131072 + 8 * k) = true ∧
      v < 2 ^ 32) ∧
    (∃ (s : State) (k : Nat) (v : Nat), k < 4096 ∧ ((s.counter k).cycle ≠ s.now ∨ (s.counter k).ops = []) ∧ s.serves (131072 + 8 * k + 4) = true ∧
      v < 2 ^ 32) ∧
    (∃ (s : State) (k : Nat) (v : Nat), k < 4096 ∧ ((s.counter k).cycle ≠ s.now ∨ (s.counter k).ops = []) ∧ s.serves (163840 + 8 * k) = true ∧
      v < 2 ^ 64) ∧
    (∃ (s : State) (k : Nat) (v : Nat), k < 4096 ∧ ((s.counter k).cycle ≠ s.now ∨ (s.counter k).ops = []) ∧ s.serves (163840 + 8 * k) = true ∧
      v < 2 ^ 32) ∧
    (∃ (s : State) (k : Nat) (v : Nat), k < 4096 ∧ ((s.counter k).cycle ≠ s.now ∨ (s.counter k).ops = []) ∧ s.serves (163840 + 8 * k + 4) = true ∧
      v < 2 ^ 32) ∧
    (∃ (s : State) (k : Nat) (v : Nat) (o : SynOp), k < 4096 ∧ (s.counter k).cycle = s.now ∧ (s.counter k).ops = [o] ∧ o.rank ≠ 0 ∧
      s.serves (131072 + 8 * k) = true ∧ v < 2 ^ 64) ∧
    (∃ (s : State) (k : Nat), k < 4096 ∧ s.serves (131072 + 8 * k) = true ∧ s.linked.trc.odd = false) ∧
    (∃ (s : State) (k : Nat), k < 4096 ∧ s.serves 96 = true) :=
  ⟨⟨up, 4095, 2 ^ 64 - 1, by decide +kernel⟩,
   ⟨up, 4095, 2 ^ 32 - 1, by decide +kernel⟩,
   ⟨up, 4095, 2 ^ 32 - 1, by decide +kernel⟩,
   ⟨up, 4095, 2 ^ 64 - 1, by decide +kernel⟩,
   ⟨up, 4095, 2 ^ 32 - 1, by decide +kernel⟩,
   ⟨up, 4095, 2 ^ 32 - 1, by decide +kernel⟩,
   ⟨{ up with counters := [(4095, { ops := [{ rank := 1, add := true, val := 1, mask := 0 }] })] }, 4095, 2 ^ 64 - 1,
     { rank := 1, add := true, val := 1, mask := 0 }, by decide +kernel⟩,
   ⟨up, 4095, by decide +kernel⟩,
   ⟨up, 4095, by decide +kernel⟩⟩

/-- Its hypotheses can be met: `Obligations.PendingSourcesAndCoalescing`. -/
theorem witness_pendingSourcesAndCoalescing :
    (∃ (s : State) (m : Nat) (bits : Nat), m < 8 ∧ bits < 2 ^ 32 ∧ s.serves (16448 + 4 * m) = true) ∧
    (∃ (s : State) (m : Nat) (bits : Nat), m < 8 ∧ bits < 2 ^ 32 ∧ s.serves (16480 + 4 * m) = true) ∧
    (∃ (s : State) (n : Nat), n < 256 ∧ (s.src n).pending = true ∧ (s.src n).ready = false ∧ (s.queue (s.src n).route).coalTime ≠ 0 ∧
      (s.src n).first + (s.queue (s.src n).route).coalTime * 1000 ≤ s.edgeTime) ∧
    (∃ (s : State) (n : Nat), n < 256 ∧ (s.src n).pending = false) :=
  ⟨⟨up, 7, 2 ^ 32 - 1, by decide +kernel⟩,
   ⟨up, 7, 2 ^ 32 - 1, by decide +kernel⟩,
   ⟨({ up with now := 1000 }.setQueue 0 { coalTime := 1 }).setSrc 255 { pending := true }, 255, by decide +kernel⟩,
   ⟨up, 255, by decide +kernel⟩⟩

/-- Its hypotheses can be met: `Obligations.EndOfInterruptFreezeAndRecover`. -/
theorem witness_endOfInterruptFreezeAndRecover :
    (∃ (s : State) (q : Nat) (n : Nat), q < 64 ∧ n < 256 ∧ s.serves (20504 + 64 * q) = true ∧ (s.queue q).frozen = true) ∧
    (∃ (s : State) (q : Nat) (n : Nat), q < 64 ∧ n < 256 ∧ s.serves (20504 + 64 * q) = true ∧ (s.queue q).frozen = false ∧
      (s.queue q).insvc = some n ∧ (s.src n).recent.lossAt ≠ s.now + 1) ∧
    (∃ (s : State) (q : Nat) (n : Nat), (q < 64 ∧ n < 256 ∧ s.serves (20504 + 64 * q) = true ∧ (s.queue q).frozen = false ∧
      (s.queue q).insvc = some n ∧ (s.src n).recent.lossAt = s.now + 1 ∧ (s.src n).recent.losses = 1 ∧ (s.src n).pending = false) ∧ (∀ (p : Nat),
      p ≠ q → (s.queue p).insvc ≠ some n)) ∧
    (∃ (s : State) (q : Nat) (n : Nat), q < 64 ∧ n < 256 ∧ s.serves (20504 + 64 * q) = true ∧ (s.queue q).frozen = false ∧
      (s.queue q).insvc ≠ some n ∧ s.inService 193 = false) ∧
    (∃ (s : State) (q : Nat) (n : Nat), q < 64 ∧ n < 256 ∧ s.serves (20504 + 64 * q) = true ∧ (s.queue q).frozen = false ∧
      (s.queue q).insvc ≠ some n ∧ s.inService 193 = false) ∧
    (∃ (s : State) (q : Nat), (q < 64 ∧ s.serves (20508 + 64 * q) = true ∧ (s.queue q).frozen = true) ∧ (∀ (n : Nat), (s.queue q).insvc = some n →
      (s.src n).recent.lossAt ≠ s.now + 1)) ∧
    (∃ (s : State) (q : Nat), q < 64 ∧ s.serves (20508 + 64 * q) = true ∧ (s.queue q).frozen = false) :=
  ⟨⟨up.setQueue 63 { frozen := true }, 63, 255, by decide +kernel⟩,
   ⟨up.setQueue 63 { insvc := some 255 }, 63, 255, by decide +kernel⟩,
   ⟨(up.setQueue 63 { insvc := some 255 }).setSrc 255 { recent := { lossAt := 1, losses := 1 } }, 63, 255, by decide +kernel,
     by intro p hp; simp [State.queue, State.setQueue, State.setSrc, tget_tput, hp, up, tget]⟩,
   ⟨up.setQueue 63 { insvc := some 0 }, 63, 255, by decide +kernel⟩,
   ⟨up, 0, 0, by decide +kernel⟩,
   ⟨up.setQueue 63 { frozen := true }, 63, by decide +kernel, fun n h => nomatch (show (none : Option Nat) = some n from h)⟩,
   ⟨up, 63, by decide +kernel⟩⟩

/-- Its hypotheses can be met: `Obligations.QueueEnableAndHead`. -/
theorem witness_queueEnableAndHead :
    (∃ (s : State) (q : Nat), q < 64 ∧ s.serves (20492 + 64 * q) = true ∧ (s.queue q).enabled = false) ∧
    (∃ (s : State) (q : Nat), q < 64 ∧ s.serves (20492 + 64 * q) = true ∧ (s.queue q).enabled = true) ∧
    (∃ (s : State) (q : Nat), q < 64 ∧ s.serves (20492 + 64 * q) = true) ∧
    (∃ (s : State) (q : Nat) (v : Nat), q < 64 ∧ v < 4096 ∧ s.serves (20496 + 64 * q) = true ∧ ((s.queue q).size ≤ v ∨
      ((s.queue q).tail + (s.queue q).size - (s.queue q).head) % (s.queue q).size < (v + (s.queue q).size - (s.queue q).head) % (s.queue q).size)) ∧
    (∃ (s : State) (q : Nat) (v : Nat), q < 64 ∧ v < 4096 ∧ s.serves (20496 + 64 * q) = true ∧ ((s.queue q).size ≤ v ∨
      ((s.queue q).tail + (s.queue q).size - (s.queue q).head) % (s.queue q).size < (v + (s.queue q).size - (s.queue q).head) % (s.queue q).size)) ∧
    (∃ (s : State) (q : Nat) (v : Nat), q < 64 ∧ v < 4096 ∧ s.serves (20496 + 64 * q) = true ∧ v < (s.queue q).size ∧
      (v + (s.queue q).size - (s.queue q).head) % (s.queue q).size ≤ ((s.queue q).tail + (s.queue q).size - (s.queue q).head) % (s.queue q).size) :=
  ⟨⟨up, 63, by decide +kernel⟩,
   ⟨up.setQueue 63 { enabled := true }, 63, by decide +kernel⟩,
   ⟨up, 63, by decide +kernel⟩,
   ⟨up, 63, 4095, by decide +kernel⟩,
   ⟨up, 63, 1, by decide +kernel⟩,
   ⟨up.setQueue 63 { tail := 15 }, 63, 15, by decide +kernel⟩⟩

/-- Its hypotheses can be met: `Obligations.LinesAreFilteredAndPolarised`. -/
theorem witness_linesAreFilteredAndPolarised :
    (∃ (s : State) (n : Nat) (v : Nat), n < 32 ∧ v < 32 ∧ s.serves (16896 + 4 * n) = true) ∧
    (∃ (s : State) (n : Nat) (v : Nat) (high : Bool), n < 32 ∧ v < 32 ∧ (s.line n).next = some (v % 16, high)) ∧
    (∃ (s : State) (n : Nat) (v : Nat) (high : Bool) (k : Nat), n < 32 ∧ v < 32 ∧ (s.line n).next = some (v % 16, high) ∧ k ≠ n) ∧
    (∃ (s : State) (n : Nat) (v : Nat) (high : Bool), n < 32 ∧ v < 32 ∧ (s.line n).next = some (v % 16, high) ∧ high ≠ (s.line n).high ∧
      (s.line n).level = false ∧ s.inService n = false) ∧
    (∃ (s : State) (n : Nat) (high : Bool) (samples : Nat), n < 32 ∧ 0 < samples ∧ s.pins.inPor = false ∧ s.pins.dead = false ∧ (n < 8 →
      high = s.stopInPad n) ∧ (8 ≤ n → n < 16 → high = s.alertPad (n - 8)) ∧ n ≠ 16 ∧ samples < (s.line n).filter.max 1) ∧
    (∃ (s : State) (n : Nat) (high : Bool) (samples : Nat), n < 32 ∧ 0 < samples ∧ s.pins.inPor = false ∧ s.pins.dead = false ∧ (n < 8 →
      high = s.stopInPad n) ∧ (8 ≤ n → n < 16 → high = s.alertPad (n - 8)) ∧ n ≠ 16 ∧ n ≠ 17 ∧ (s.line n).filter.max 1 ≤ samples) ∧
    (∃ (s : State) (n : Nat) (high : Bool) (samples : Nat), n < 32 ∧ 0 < samples ∧ s.pins.inPor = false ∧ s.pins.dead = false ∧ (n < 8 →
      high = s.stopInPad n) ∧ (8 ≤ n → n < 16 → high = s.alertPad (n - 8)) ∧ n = 16 ∧ (s.line 16).raw ≠ high) ∧
    (∃ (s : State) (n : Nat) (high : Bool) (samples : Nat), n < 32 ∧ 0 < samples ∧ s.pins.inPor = false ∧ s.pins.dead = false ∧ (n < 8 →
      high = s.stopInPad n) ∧ (8 ≤ n → n < 16 → high = s.alertPad (n - 8)) ∧ n = 17 ∧ (s.line 17).filter.max 1 ≤ samples ∧
      (s.line 17).level ≠ (high == (s.line 17).high)) :=
  ⟨⟨up, 31, 31, by decide +kernel⟩,
   ⟨up.setLine 31 { next := some (15, false) }, 31, 31, false, by decide +kernel⟩,
   ⟨up.setLine 31 { next := some (15, true) }, 31, 31, true, 30, by decide +kernel⟩,
   ⟨up.setLine 31 { next := some (15, true) }, 31, 31, true, by decide +kernel⟩,
   ⟨up, 31, true, 3, by decide +kernel⟩,
   ⟨up, 31, true, 4, by decide +kernel⟩,
   ⟨up, 16, true, 1, by decide +kernel⟩,
   ⟨up, 17, false, 4, by decide +kernel⟩⟩

/-- Its hypotheses can be met: `Obligations.QueuesSelectAndTransmit`. -/
theorem witness_queuesSelectAndTransmit :
    (∃ (s : State) (q : Nat) (n : Nat), q < 64 ∧ n < 256 ∧ s.canSelect q = false) ∧
    (∃ (s : State) (q : Nat) (n : Nat), (q < 64 ∧ n < 256 ∧ s.canSelect q = true ∧ (s.src n).ready = true ∧ s.masked (s.src n) = false ∧
      (s.src n).route = q ∧ (∀ k < n, ¬((s.src k).ready = true ∧ s.masked (s.src k) = false ∧ (s.src k).route = q)) ∧ s.openBlock 4 = false ∧
      s.openBlock 6 = false) ∧ s.numbered) ∧
    (∃ (s : State) (q : Nat) (o : HostOp) (p : Nat) (k : Nat), q < 64 ∧ s.fastRun = true ∧ s.htu.firstWrite = some o ∧ o.owner = Owner.queue q ∧
      o.phase = HostPhase.queued p k) :=
  ⟨⟨up, 63, 255, by decide +kernel⟩,
   ⟨(up.setQueue 63 { enabled := true }).setSrc 255 { ready := true, mask := false, route := 63 }, 63, 255, by decide +kernel,
     by unfold State.numbered; decide +kernel⟩,
   ⟨{ up with htu := { ops := [hostWrite (.queue 63)] } }, 63, hostWrite (.queue 63), 64, 0, by decide +kernel⟩⟩

/-- Its hypotheses can be met: `Obligations.ScanLoadsAreJudged`. -/
theorem witness_scanLoadsAreJudged :
    (∃ (s : State) (i : Instr) (code : Nat), scanLoad i = some code ∧ s.lcs.state = 6) ∧
    (∃ (s : State) (i : Instr) (code : Nat), scanLoad i = some code ∧ s.lcs.state = 15) ∧
    (∃ (s : State) (i : Instr) (code : Nat), scanLoad i = some code ∧ s.lcs.state ≠ 6 ∧ s.lcs.state ≠ 15) ∧
    (∃ (s : State) (i : Instr) (code : Nat) (x : Option (Nat × Nat × Nat)), scanLoad i = some code ∧ s.tapLive = true ∧ s.scanDenial code = some x) ∧
    (∃ (s : State) (i : Instr) (code : Nat) (x : Option (Nat × Nat × Nat)), scanLoad i = some code ∧ s.tapLive = true ∧ s.scanDenial code = some x) :=
  ⟨⟨{ up with lcs := { state := 6 } }, .extest true 0 0, 0, by decide +kernel⟩,
   ⟨{ up with lcs := { state := 15 } }, .certLoad, 0x21, by decide +kernel⟩,
   ⟨up, .dumpRead, 0x13, by decide +kernel⟩,
   ⟨{ up with lcs := { state := 6 } }, .clamp, 3, none, by decide +kernel⟩,
   ⟨{ up with lcs := { state := 4 } }, .dumpRead, 0x13, some (128, 2, 1), by decide +kernel⟩⟩

/-- Its hypotheses can be met: `Obligations.AcceptedScanLoads`. -/
theorem witness_acceptedScanLoads :
    (∃ (s : State) (pads : BitVec 76) (up : BitVec 76) (i : Instr) (code : Nat), s.tapLive = true ∧ (i,
      code) ∈ [(Instr.extest true pads up, 0), (Instr.samplePreload pads up, 1), (Instr.idcode, 2), (Instr.clamp, 3), (Instr.hubstat, 16), (Instr.hubcmd, 17), (Instr.dbgreg, 18), (Instr.dumpRead, 19), (Instr.lcsReq, 32), (Instr.certLoad, 33), (Instr.bypass, 255)] ∧
      s.scanDenial code = none) ∧
    (∃ (s : State) (pads : BitVec 76) (up : BitVec 76) (i : Instr) (code : Nat), s.tapLive = true ∧ (i,
      code) ∈ [(Instr.extest true pads up, 0), (Instr.samplePreload pads up, 1), (Instr.idcode, 2), (Instr.clamp, 3), (Instr.hubstat, 16), (Instr.hubcmd, 17), (Instr.dbgreg, 18), (Instr.dumpRead, 19), (Instr.lcsReq, 32), (Instr.certLoad, 33), (Instr.bypass, 255)] ∧
      s.scanDenial code = none) ∧
    (∃ (s : State) (pads : BitVec 76) (up : BitVec 76) (i : Instr) (code : Nat), s.tapLive = true ∧ (i,
      code) ∈ [(Instr.extest true pads up, 0), (Instr.samplePreload pads up, 1), (Instr.idcode, 2), (Instr.clamp, 3), (Instr.hubstat, 16), (Instr.hubcmd, 17), (Instr.dbgreg, 18), (Instr.dumpRead, 19), (Instr.lcsReq, 32), (Instr.certLoad, 33), (Instr.bypass, 255)] ∧
      s.scanDenial code = none) ∧
    (∃ (s : State), s.tapLive = true ∧ s.scanSel 0 = true) :=
  ⟨⟨up, 0, 1, .samplePreload 0 1, 1, by decide +kernel⟩,
   ⟨up, 0, 0, .bypass, 0xFF, by decide +kernel⟩,
   ⟨up, 0, 0, .extest true 0 0, 0, by decide +kernel⟩,
   ⟨scanOn 0, by decide +kernel⟩⟩

/-- Its hypotheses can be met: `Obligations.CaptureIrHubstatAndReset`. -/
theorem witness_captureIrHubstatAndReset :
    (∃ (s : State), s.tapLive = true ∧ s.now % 1000 ≠ 0) ∧
    (∃ (s : State), s.tapLive = true ∧ s.now % 1000 = 0 ∧ s.fastUp = true) ∧
    (∃ (s : State), s.tapLive = true ∧ s.scanSel 16 = true ∧ s.lcs.state < 16 ∧ s.lcs.leading < 8) :=
  ⟨⟨{ up with now := 1 }, by decide +kernel⟩,
   ⟨up, by decide +kernel⟩,
   ⟨scanOn 0x10, by decide +kernel⟩⟩

/-- Its hypotheses can be met: `Obligations.ScanRingPostsAndPops`. -/
theorem witness_scanRingPostsAndPops :
    (∃ (s : State), s.tapLive = true ∧ s.scanSel 17 = true ∧ s.fastUp = true ∧ s.scan.slots.length < 8) ∧
    (∃ (s : State), s.tapLive = true ∧ s.scanSel 17 = true ∧ s.fastUp = true ∧ ¬s.scan.slots.length < 8) ∧
    (∃ (s : State) (i : Instr), (s.tapLive = true ∧ s.fastUp = false) ∧ (((∃ d, i = Instr.hubcmdPost d) ∨ i = Instr.hubcmdPop) ∧ s.scanSel 17 = true ∨
      ((∃ a b, i = Instr.dumpReadStart a b) ∨ i = Instr.dumpReadRepeat ∨ i = Instr.dumpReadAdvance) ∧ s.scanSel 19 = true ∨ (∃ d,
      i = Instr.lcsReqSubmit d) ∧ s.scanSel 32 = true ∨ (∃ d, i = Instr.certLoadSubmit d) ∧ s.scanSel 33 = true)) ∧
    (∃ (s : State) (i : Instr), (s.tapLive = true ∧ s.fastUp = false) ∧ (((∃ d, i = Instr.hubcmdPost d) ∨ i = Instr.hubcmdPop) ∧ s.scanSel 17 = true ∨
      ((∃ a b, i = Instr.dumpReadStart a b) ∨ i = Instr.dumpReadRepeat ∨ i = Instr.dumpReadAdvance) ∧ s.scanSel 19 = true ∨ (∃ d,
      i = Instr.lcsReqSubmit d) ∧ s.scanSel 32 = true ∨ (∃ d, i = Instr.certLoadSubmit d) ∧ s.scanSel 33 = true)) ∧
    (∃ (s : State) (i : Instr), (s.tapLive = true ∧ s.fastUp = false) ∧ (((∃ d, i = Instr.hubcmdPost d) ∨ i = Instr.hubcmdPop) ∧ s.scanSel 17 = true ∨
      ((∃ a b, i = Instr.dumpReadStart a b) ∨ i = Instr.dumpReadRepeat ∨ i = Instr.dumpReadAdvance) ∧ s.scanSel 19 = true ∨ (∃ d,
      i = Instr.lcsReqSubmit d) ∧ s.scanSel 32 = true ∨ (∃ d, i = Instr.certLoadSubmit d) ∧ s.scanSel 33 = true)) ∧
    (∃ (s : State) (i : Instr), (s.tapLive = true ∧ s.fastUp = false) ∧ (((∃ d, i = Instr.hubcmdPost d) ∨ i = Instr.hubcmdPop) ∧ s.scanSel 17 = true ∨
      ((∃ a b, i = Instr.dumpReadStart a b) ∨ i = Instr.dumpReadRepeat ∨ i = Instr.dumpReadAdvance) ∧ s.scanSel 19 = true ∨ (∃ d,
      i = Instr.lcsReqSubmit d) ∧ s.scanSel 32 = true ∨ (∃ d, i = Instr.certLoadSubmit d) ∧ s.scanSel 33 = true)) ∧
    (∃ (s : State) (i : Instr), (s.tapLive = true ∧ s.fastUp = false) ∧ (((∃ d, i = Instr.hubcmdPost d) ∨ i = Instr.hubcmdPop) ∧ s.scanSel 17 = true ∨
      ((∃ a b, i = Instr.dumpReadStart a b) ∨ i = Instr.dumpReadRepeat ∨ i = Instr.dumpReadAdvance) ∧ s.scanSel 19 = true ∨ (∃ d,
      i = Instr.lcsReqSubmit d) ∧ s.scanSel 32 = true ∨ (∃ d, i = Instr.certLoadSubmit d) ∧ s.scanSel 33 = true)) ∧
    (∃ (s : State), s.tapLive = true ∧ s.fastUp = false ∧ s.scanSel 17 = true) ∧
    (∃ (s : State), s.tapLive = true ∧ s.fastUp = false ∧ s.scanSel 33 = true) ∧
    (∃ (s : State), s.tapLive = true ∧ s.fastUp = false ∧ s.scanSel 19 = true) :=
  ⟨⟨scanOn 0x11, by decide +kernel⟩,
   ⟨{ scanOn 0x11 with scan := { ir := 0x11, tlr := false, slots := List.replicate 8 { seq := 0, desc := 0 } } }, by decide +kernel⟩,
   ⟨napping 0x11, .hubcmdPop, by decide +kernel, Or.inl ⟨Or.inr rfl, by decide +kernel⟩⟩,
   ⟨napping 0x11, .hubcmdPost 0, by decide +kernel, Or.inl ⟨Or.inl ⟨0, rfl⟩, by decide +kernel⟩⟩,
   ⟨napping 0x13, .dumpReadRepeat, by decide +kernel, Or.inr (Or.inl ⟨Or.inr (Or.inl rfl), by decide +kernel⟩)⟩,
   ⟨napping 0x20, .lcsReqSubmit 0, by decide +kernel, Or.inr (Or.inr (Or.inl ⟨⟨0, rfl⟩, by decide +kernel⟩))⟩,
   ⟨napping 0x21, .certLoadSubmit 0, by decide +kernel, Or.inr (Or.inr (Or.inr ⟨⟨0, rfl⟩, by decide +kernel⟩))⟩,
   ⟨napping 0x11, by decide +kernel⟩,
   ⟨napping 0x21, by decide +kernel⟩,
   ⟨napping 0x13, by decide +kernel⟩⟩

/-- Its hypotheses can be met: `Obligations.DumpReadsAndDebugRegisters`. -/
theorem witness_dumpReadsAndDebugRegisters :
    (∃ (s : State) (first : Nat) (count : Nat), s.tapLive = true ∧ s.scanSel 19 = true ∧ s.fastUp = true ∧ first < 2 ^ 24 ∧ count < 2 ^ 24 ∧
      s.lcs.state ≠ 4 ∧ s.scan.drCursor < 2 ^ 24) ∧
    (∃ (s : State) (off : Nat) (v : Nat), s.tapLive = true ∧ s.scanSel 18 = true ∧ off < 2 ^ 20 ∧ v < 2 ^ 32 ∧ s.rstReaches off = false ∧
      off % 4 = 0 ∧ (pwrLcs off = true ∨ s.fastUp = true) ∧ 1 ≤ s.workLevel Work.scan 128) ∧
    (∃ (s : State) (off : Nat) (v : Nat), s.tapLive = true ∧ s.scanSel 18 = true ∧ off < 2 ^ 20 ∧ v < 2 ^ 32 ∧ s.rstReaches off = false ∧
      off % 4 = 0 ∧ (pwrLcs off = true ∨ s.fastUp = true) ∧ 2 ≤ s.workLevel Work.scan 128 ∧ s.served0 off = true ∧ s.misuses = [] ∧
      writeMisuse off 4 v = none) ∧
    (∃ (s : State) (off : Nat) (v : Nat), s.tapLive = true ∧ s.scanSel 18 = true ∧ off < 2 ^ 20 ∧ v < 2 ^ 32 ∧ s.rstReaches off = false ∧
      off % 4 = 0 ∧ pwrLcs off = false ∧ s.fastUp = false) ∧
    (∃ (s : State) (off : Nat) (v : Nat), s.tapLive = true ∧ s.scanSel 18 = true ∧ off < 2 ^ 20 ∧ v < 2 ^ 32 ∧ s.rstReaches off = false ∧
      off % 4 = 0 ∧ (pwrLcs off = true ∨ s.fastUp = true) ∧ s.workLevel Work.scan 128 < 2) ∧
    (∃ (s : State) (off : Nat) (v : Nat), s.tapLive = true ∧ s.scanSel 18 = true ∧ off < 2 ^ 20 ∧ v < 2 ^ 32 ∧ s.rstReaches off = false ∧ off % 4 ≠ 0) :=
  ⟨⟨scanOn 0x13, 2 ^ 24 - 1, 2 ^ 24 - 1, by decide +kernel⟩,
   ⟨scanOn 0x12, 0xFFFFC, 2 ^ 32 - 1, by decide +kernel⟩,
   ⟨scanOn 0x12, 0x10, 0xFF7FF, by decide +kernel⟩,
   ⟨napping 0x12, 0xFFFFC, 2 ^ 32 - 1, by decide +kernel⟩,
   ⟨{ scanOn 0x12 with lcs := { state := 4 } }, 0x10, 0, by decide +kernel⟩,
   ⟨scanOn 0x12, 0xFFFFF, 2 ^ 32 - 1, by decide +kernel⟩⟩

/-- Its hypotheses can be met: `Obligations.ScanRequestsAndNonce`. -/
theorem witness_scanRequestsAndNonce :
    (∃ (s : State), s.tapLive = true ∧ s.scanSel 32 = true ∧ s.fastUp = true ∧ s.coreFree true = true ∧ s.coreBusy 0 = false) ∧
    (∃ (s : State), s.tapLive = true ∧ s.scanSel 32 = true ∧ s.fastUp = true ∧ s.coreFree true = true ∧ s.coreBusy 0 = true) ∧
    (∃ (s : State), s.tapLive = true ∧ s.scanSel 33 = true ∧ s.fastUp = true ∧ s.coreFree true = true ∧ s.coreBusy 1 = false) ∧
    (∃ (s : State), s.tapLive = true ∧ s.scanSel 33 = true ∧ s.fastUp = true ∧ s.coreFree true = true ∧ s.coreBusy 1 = true) ∧
    (∃ (s : State), s.tapLive = true ∧ s.scanSel 32 = true ∧ s.lcsStatus < 2 ^ 32 ∧ s.lcsState < 2 ^ 32) ∧
    (∃ (s : State), s.tapLive = true ∧ s.scanSel 33 = true ∧ s.fastUp = true ∧ s.certStatus < 2 ^ 32) :=
  ⟨⟨scanOn 0x20, by decide +kernel⟩,
   ⟨{ scanOn 0x20 with hub := { coreQ := [(none, [0, 1])] } }, by decide +kernel⟩,
   ⟨scanOn 0x21, by decide +kernel⟩,
   ⟨{ scanOn 0x21 with hub := { coreQ := [(none, [1, 1])] } }, by decide +kernel⟩,
   ⟨scanOn 0x20, by decide +kernel⟩,
   ⟨scanOn 0x21, by decide +kernel⟩⟩

/-- Its hypotheses can be met: `Obligations.ChipStopsHaltEveryUnit`. -/
theorem witness_chipStopsHaltEveryUnit :
    (∃ (s : State) (f : Nat), f < 128 ∧ (s.chip f).inReset = false ∧ s.stopPad (f / 16) = false ∧ (s.chip f).seenHigh = true ∧
      (s.chip f).stopIn = true) ∧
    (∃ (s : State) (f : Nat) (T : Nat), f < 128 ∧ (s.chip f).inReset = false ∧ (s.chip f).toll = some T ∧ T ≤ s.chipTime f) ∧
    (∃ (s : State) (f : Nat) (T : Nat), f < 128 ∧ (s.chip f).inReset = false ∧ (s.chip f).toll = some T ∧ s.chipTime f < T) ∧
    (∃ (s : State) (f : Nat), (f < 128 ∧ (s.chip f).inReset = false ∧ (s.chip f).tollLo + (s.chip f).tollHi * 2 ^ 32 ≤ s.chipTime f) ∧ (∀ (T : Nat),
      (s.chip f).toll = some T → s.chipTime f ≤ T)) ∧
    (∃ (s : State) (f : Nat), (f < 128 ∧ (s.chip f).inReset = false ∧ s.chipTime f < (s.chip f).tollLo + (s.chip f).tollHi * 2 ^ 32) ∧ (∀ (T : Nat),
      (s.chip f).toll = some T → s.chipTime f ≤ T)) :=
  ⟨⟨{ up with pins := { pulls := 0 } }, 127, by decide +kernel⟩,
   ⟨up.setChip 127 { toll := some 0 }, 127, 0, by decide +kernel⟩,
   ⟨up.setChip 127 { toll := some 5 }, 127, 5, by decide +kernel⟩,
   ⟨up, 127, by decide +kernel, fun T h => nomatch (show (none : Option Nat) = some T from h)⟩,
   ⟨up.setChip 127 { tollLo := 5 }, 127, by decide +kernel, fun T h => nomatch (show (none : Option Nat) = some T from h)⟩⟩

/-- Its hypotheses can be met: `Obligations.RunControlGo`. -/
theorem witness_runControlGo :
    (∃ (s : State) (f : Nat), f < 128 ∧ (s.chip f).inReset = false) ∧
    (∃ (s : State) (f : Nat), f < 128 ∧ (s.chip f).inReset = false ∧ s.chipTime f < (s.chip f).rcAtLo + (s.chip f).rcAtHi * 2 ^ 32) ∧
    (∃ (s : State) (f : Nat) (g : TimedGo), f < 128 ∧ (s.chip f).inReset = false ∧ (s.chip f).timed = some g ∧ g.at_ ≤ s.chipTime f ∧
      g.resume = false) ∧
    (∃ (s : State) (f : Nat) (g : TimedGo), f < 128 ∧ (s.chip f).inReset = false ∧ (s.chip f).timed = some g ∧ s.chipTime f < g.at_) :=
  ⟨⟨up, 127, by decide +kernel⟩,
   ⟨up.setChip 127 { rcAtLo := 5 }, 127, by decide +kernel⟩,
   ⟨up.setChip 127 { timed := some (timedGo 0) }, 127, timedGo 0, by decide +kernel⟩,
   ⟨up.setChip 127 { timed := some (timedGo 5) }, 127, timedGo 5, by decide +kernel⟩⟩

/-- Its hypotheses can be met: `Obligations.CoresAndEnginesStep`. -/
theorem witness_coresAndEnginesStep :
    (∃ (s : State) (f : Nat) (i : Nat) (pc : Nat), f < 128 ∧ i < 32 ∧ pc < 2 ^ 32 ∧ (s.chip f).inReset = false ∧
      ((s.chip f).core i).state = CoreState.running ∧ ((s.chip f).core i).pend ≠ []) ∧
    (∃ (s : State) (f : Nat) (i : Nat) (pc : Nat), f < 128 ∧ i < 32 ∧ pc < 2 ^ 32 ∧ (s.chip f).inReset = false ∧
      ((s.chip f).core i).state = CoreState.monitor) ∧
    (∃ (s : State) (f : Nat) (i : Nat) (pc : Nat), f < 128 ∧ i < 32 ∧ pc < 2 ^ 32 ∧ (s.chip f).inReset = false ∧
      ((s.chip f).core i).state ≠ CoreState.monitor) ∧
    (∃ (s : State) (f : Nat) (i : Nat) (pc : Nat), f < 128 ∧ i < 32 ∧ pc < 2 ^ 32 ∧ (s.chip f).inReset = false ∧
      ((s.chip f).core i).state = CoreState.stepping ∧ ((s.chip f).core i).resumeStep = false) ∧
    (∃ (s : State) (f : Nat) (i : Nat) (pc : Nat), f < 128 ∧ i < 32 ∧ pc < 2 ^ 32 ∧ (s.chip f).inReset = false ∧
      ((s.chip f).core i).state = CoreState.stepping ∧ ((s.chip f).core i).resumeStep = true) ∧
    (∃ (s : State) (f : Nat) (e : Nat), f < 128 ∧ e < 512 ∧ (s.chip f).inReset = false ∧ ((s.chip f).eng e).cmpEn = false ∧
      ((s.chip f).eng e).state = EngState.muffling) ∧
    (∃ (s : State) (f : Nat) (e : Nat), f < 128 ∧ e < 512 ∧ (s.chip f).inReset = false ∧ ((s.chip f).eng e).cmpEn = false ∧
      ((s.chip f).eng e).state = EngState.running) ∧
    (∃ (s : State) (f : Nat) (e : Nat), f < 128 ∧ e < 512 ∧ (s.chip f).inReset = false ∧ ((s.chip f).eng e).cmpEn = false ∧
      ((s.chip f).eng e).state.busy = false) ∧
    (∃ (s : State) (f : Nat) (e : Nat), f < 128 ∧ e < 512 ∧ (s.chip f).inReset = false ∧ ((s.chip f).eng e).cmpEn = false ∧
      ((s.chip f).eng e).state = EngState.muffled ∧ (((s.chip f).eng e).lastDone + 1) % 2 ^ 32 < ((s.chip f).eng e).len) ∧
    (∃ (s : State) (f : Nat) (e : Nat), f < 128 ∧ e < 512 ∧ (s.chip f).inReset = false ∧ ((s.chip f).eng e).cmpEn = false ∧
      ((s.chip f).eng e).state = EngState.muffled ∧ ¬(((s.chip f).eng e).lastDone + 1) % 2 ^ 32 < ((s.chip f).eng e).len) ∧
    (∃ (s : State) (f : Nat) (e : Nat), f < 128 ∧ e < 512 ∧ (s.chip f).inReset = false ∧ ((s.chip f).eng e).cmpEn = false ∧
      ((s.chip f).eng e).state = EngState.forced ∧ ((s.chip f).eng e).current < ((s.chip f).eng e).len) ∧
    (∃ (s : State) (f : Nat) (e : Nat), f < 128 ∧ e < 512 ∧ (s.chip f).inReset = false ∧ ((s.chip f).eng e).cmpEn = false ∧
      (s.chip f).canLoad = false) ∧
    (∃ (s : State) (f : Nat) (e : Nat) (id : Nat) (n : Nat), f < 128 ∧ e < 512 ∧ (s.chip f).inReset = false ∧ ((s.chip f).eng e).cmpEn = false ∧
      id < 2 ^ 32 ∧ 0 < n ∧ n < 2 ^ 32 ∧ (s.chip f).canLoad = true ∧ (s.chip f).resetHold = false ∧ ((s.chip f).eng e).state = EngState.idle) ∧
    (∃ (s : State) (f : Nat) (e : Nat) (id : Nat) (n : Nat), f < 128 ∧ e < 512 ∧ (s.chip f).inReset = false ∧ ((s.chip f).eng e).cmpEn = false ∧
      id < 2 ^ 32 ∧ n < 2 ^ 32 ∧ (s.chip f).canLoad = true ∧ (s.chip f).resetHold = false ∧ (((s.chip f).eng e).state = EngState.muffled ∨
      ((s.chip f).eng e).state = EngState.forced)) ∧
    (∃ (s : State) (f : Nat) (e : Nat) (id : Nat) (n : Nat), f < 128 ∧ e < 512 ∧ (s.chip f).inReset = false ∧ ((s.chip f).eng e).cmpEn = false ∧
      id < 2 ^ 32 ∧ n < 2 ^ 32 ∧ (s.chip f).canLoad = true ∧ (s.chip f).resetHold = false ∧ (((s.chip f).eng e).state = EngState.muffled ∨
      ((s.chip f).eng e).state = EngState.forced)) :=
  ⟨⟨withCore { pend := [3] }, 127, 31, 2 ^ 32 - 1, by decide +kernel⟩,
   ⟨withCore { state := .monitor }, 127, 31, 4, by decide +kernel⟩,
   ⟨up, 127, 31, 4, by decide +kernel⟩,
   ⟨withCore { state := .stepping }, 127, 31, 4, by decide +kernel⟩,
   ⟨withCore { state := .stepping, resumeStep := true }, 127, 31, 4, by decide +kernel⟩,
   ⟨withEngine { state := .muffling }, 127, 511, by decide +kernel⟩,
   ⟨withEngine { state := .running }, 127, 511, by decide +kernel⟩,
   ⟨up, 127, 511, by decide +kernel⟩,
   ⟨withEngine { state := .muffled, len := 1 }, 127, 511, by decide +kernel⟩,
   ⟨withEngine { state := .muffled, len := 1, lastDone := 0 }, 127, 511, by decide +kernel⟩,
   ⟨withEngine { state := .forced, current := 0, len := 1 }, 127, 511, by decide +kernel⟩,
   ⟨up.setChip 127 { cores := (List.range 32).map (fun n => (n, { state := .monitor })) }, 127, 511, by decide +kernel⟩,
   ⟨up, 127, 511, 2 ^ 32 - 1, 2 ^ 32 - 1, by decide +kernel⟩,
   ⟨withEngine { state := .muffled }, 127, 511, 0, 0, by decide +kernel⟩,
   ⟨withEngine { state := .forced }, 127, 511, 0, 0, by decide +kernel⟩⟩

/-- Its hypotheses can be met: `Obligations.HitsHaltTheirUnit`. -/
theorem witness_hitsHaltTheirUnit :
    (∃ (s : State) (f : Nat) (i : Nat) (n : Nat) (pc : Nat) (first : Bool), f < 128 ∧ pc < 2 ^ 32 ∧ (s.chip f).inReset = false ∧ i < 32 ∧ n < 8 ∧
      ((s.chip f).core i).state = CoreState.running ∧ (tget { } ((s.chip f).core i).brk n).en = true ∧
      (tget { } ((s.chip f).core i).brk n).addr = pc ∧ (first = false ∨ ((s.chip f).core i).skipBrk ≠ some pc) ∧
      (tget { } ((s.chip f).core i).brk n).reach = 0) ∧
    (∃ (s : State) (f : Nat) (i : Nat) (n : Nat) (pc : Nat) (first : Bool), f < 128 ∧ pc < 2 ^ 32 ∧ (s.chip f).inReset = false ∧ i < 32 ∧ n < 8 ∧
      ((s.chip f).core i).state = CoreState.running ∧ (tget { } ((s.chip f).core i).brk n).en = true ∧
      (tget { } ((s.chip f).core i).brk n).addr = pc ∧ (first = false ∨ ((s.chip f).core i).skipBrk ≠ some pc) ∧
      (tget { } ((s.chip f).core i).brk n).reach = 0) ∧
    (∃ (s : State) (f : Nat) (i : Nat) (n : Nat) (pc : Nat), f < 128 ∧ pc < 2 ^ 32 ∧ (s.chip f).inReset = false ∧ i < 32 ∧ n < 8 ∧
      ((s.chip f).core i).state = CoreState.running ∧ (tget { } ((s.chip f).core i).brk n).en = true ∧
      (tget { } ((s.chip f).core i).brk n).addr = pc ∧ ((s.chip f).core i).skipBrk = some pc ∧ ((s.chip f).core i).brkOdd = 0) ∧
    (∃ (s : State) (f : Nat) (i : Nat) (n : Nat) (pc : Nat), f < 128 ∧ pc < 2 ^ 32 ∧ (s.chip f).inReset = false ∧ i < 32 ∧ n < 4 ∧
      (((s.chip f).core i).state = CoreState.running ∨ ((s.chip f).core i).state = CoreState.stepping) ∧
      (tget { } ((s.chip f).core i).wp n).en = true ∧ (tget { } ((s.chip f).core i).wp n).reach = 0) ∧
    (∃ (s : State) (f : Nat) (i : Nat) (pc : Nat), f < 128 ∧ pc < 2 ^ 32 ∧ (s.chip f).inReset = false ∧ i < 512 ∧
      ((s.chip f).eng i).state = EngState.running ∧ ((s.chip f).eng i).brkOdd = 0 ∧ ((s.chip f).eng i).cmpEn = true ∧
      ((s.chip f).eng i).cmpAfter = true ∧ ((s.chip f).eng i).cmpReach = 0 ∧ ((s.chip f).eng i).cmpIndex = ((s.chip f).eng i).current ∧
      ((s.chip f).eng i).cmpStream = 0) ∧
    (∃ (s : State) (f : Nat) (i : Nat) (pc : Nat), f < 128 ∧ pc < 2 ^ 32 ∧ (s.chip f).inReset = false ∧ i < 512 ∧
      ((s.chip f).eng i).state = EngState.running ∧ ((s.chip f).eng i).brkOdd = 0 ∧ ((s.chip f).eng i).cmpEn = true ∧
      ((s.chip f).eng i).cmpAfter = false ∧ ((s.chip f).eng i).cmpReach = 0 ∧ ((s.chip f).eng i).cmpSkip ≠ ((s.chip f).eng i).cmpIndex + 1 ∧
      (((s.chip f).eng i).current + 1) % 2 ^ 32 < ((s.chip f).eng i).len ∧ ((s.chip f).eng i).cmpIndex = (((s.chip f).eng i).current + 1) % 2 ^ 32 ∧
      ((s.chip f).eng i).cmpStream = 0) :=
  ⟨⟨withCore { brk := [(7, { en := true, addr := 8 })] }, 127, 31, 7, 8, true, by decide +kernel⟩,
   ⟨withCore { brk := [(7, { en := true, addr := 8 })], skipBrk := some 8 }, 127, 31, 7, 8, false, by decide +kernel⟩,
   ⟨withCore { brk := [(7, { en := true, addr := 8 })], skipBrk := some 8 }, 127, 31, 7, 8, by decide +kernel⟩,
   ⟨withCore { state := .stepping, wp := [(3, { en := true })] }, 127, 31, 3, 8, by decide +kernel⟩,
   ⟨withEngine { state := .running, cmpEn := true, cmpAfter := true, current := 5, cmpIndex := 5 }, 127, 511, 0, by decide +kernel⟩,
   ⟨withEngine { state := .running, cmpEn := true, current := 0, len := 2, cmpIndex := 1 }, 127, 511, 0, by decide +kernel⟩⟩

/-- Its hypotheses can be met: `Obligations.ChipResetAlertsAndReady`. -/
theorem witness_chipResetAlertsAndReady :
    (∃ (s : State) (f : Nat), f < 128 ∧ (s.chip f).inReset = true) ∧
    (∃ (s : State) (f : Nat), f < 128 ∧ (s.chip f).inReset = false ∧ (s.chip f).seenHigh = false ∧ s.stopPad (f / 16) = true) ∧
    (∃ (s : State) (f : Nat) (cause : Nat) (u : Nat) (info : Nat), f < 128 ∧ (s.chip f).inReset = false ∧ u < 2 ^ 17 ∧ info < 2 ^ 32 ∧ 1 ≤ cause ∧
      cause ≤ 8 ∧ (¬(cause = 6 ∧ (s.chip f).clkStopped = true))) ∧
    (∃ (s : State) (f : Nat) (cause : Nat) (u : Nat) (info : Nat), f < 128 ∧ (s.chip f).inReset = false ∧ u < 2 ^ 17 ∧ info < 2 ^ 32 ∧ 1 ≤ cause ∧
      cause ≤ 8 ∧ (¬(cause = 6 ∧ (s.chip f).clkStopped = true))) ∧
    (∃ (s : State) (f : Nat) (u : Nat) (info : Nat), f < 128 ∧ (s.chip f).inReset = false ∧ u < 2 ^ 17 ∧ info < 2 ^ 32 ∧ (s.chip f).clkStopped = true) :=
  ⟨⟨up.setChip 127 { inReset := true }, 127, by decide +kernel⟩,
   ⟨up.setChip 127 { seenHigh := false }, 127, by decide +kernel⟩,
   ⟨up, 127, 8, 2 ^ 17 - 1, 2 ^ 32 - 1, by decide +kernel⟩,
   ⟨up, 127, 6, 0, 0, by decide +kernel⟩,
   ⟨withCore { state := .monitor }, 127, 0, 0, by decide +kernel⟩⟩

/-- Its hypotheses can be met: `Obligations.MailboxesAndCounterLatches`. -/
theorem witness_mailboxesAndCounterLatches :
    (∃ (s : State) (f : Nat) (i : Nat), f < 128 ∧ i < 32 ∧ (s.chip f).inReset = false) ∧
    (∃ (s : State) (f : Nat) (i : Nat), f < 128 ∧ i < 32 ∧ (s.chip f).inReset = false ∧ ((s.chip f).core i).answers = true ∧
      ((s.chip f).core i).inFull = true ∧ ((s.chip f).core i).monWr = none ∧ fld (BitVec.toNat ((s.chip f).core i).mbxIn) 28 4 = 2) ∧
    (∃ (s : State) (f : Nat) (i : Nat), f < 128 ∧ i < 32 ∧ (s.chip f).inReset = false ∧
      (((s.chip f).core i).answers && ((s.chip f).core i).inFull) = false) ∧
    (∃ (s : State) (f : Nat) (i : Nat), f < 128 ∧ i < 32 ∧ (s.chip f).inReset = false ∧ ((s.chip f).core i).answers = true ∧
      ((s.chip f).core i).inFull = true ∧ ((s.chip f).core i).monWr = none ∧ fld (BitVec.toNat ((s.chip f).core i).mbxIn) 28 4 = 1 ∧
      ((s.chip f).core i).staged = false) ∧
    (∃ (s : State) (f : Nat) (clear : Bool) (T : Nat), f < 128 ∧ (s.chip f).inReset = false ∧ (s.chip f).cntPend = some (T, clear) ∧ T ≤ s.chipTime f) ∧
    (∃ (s : State) (f : Nat) (clear : Bool) (T : Nat), f < 128 ∧ (s.chip f).inReset = false ∧ (s.chip f).cntPend = some (T, clear) ∧ s.chipTime f < T) :=
  ⟨⟨up, 127, 31, by decide +kernel⟩,
   ⟨withCore { state := .monitor, monitor := true, inFull := true, mbxIn := 0x20000000 }, 127, 31, by decide +kernel⟩,
   ⟨up, 127, 31, by decide +kernel⟩,
   ⟨withCore { state := .monitor, monitor := true, inFull := true, mbxIn := 0x10000000 }, 127, 31, by decide +kernel⟩,
   ⟨up.setChip 127 { cntPend := some (0, true) }, 127, true, 0, by decide +kernel⟩,
   ⟨up.setChip 127 { cntPend := some (5, true) }, 127, true, 5, by decide +kernel⟩⟩

/-- Its hypotheses can be met: `Obligations.TapsRecordAndSend`. -/
theorem witness_tapsRecordAndSend :
    (∃ (s : State) (f : Nat) (v : Nat), f < 128 ∧ v < 2 ^ 32 ∧ (s.chip f).inReset = false ∧ (s.chip f).tapEn = true) ∧
    (∃ (s : State) (f : Nat) (v : Nat), f < 128 ∧ v < 2 ^ 32 ∧ (s.chip f).inReset = false ∧ (s.chip f).tapEn = false ∧ (s.chip f).flushing = false) ∧
    (∃ (s : State) (f : Nat) (v : Nat), f < 128 ∧ v < 2 ^ 32 ∧ (s.chip f).inReset = false ∧ (s.chip f).flushing = true) ∧
    (∃ (s : State) (f : Nat) (v : Nat) (x : TapEvent) (q : List TapEvent), f < 128 ∧ v < 2 ^ 32 ∧ (s.chip f).inReset = false ∧
      (s.chip f).tapQ = x :: q ∧ (s.chip f).gap = none) ∧
    (∃ (s : State) (f : Nat) (v : Nat) (x : TapEvent) (q : List TapEvent) (T : Nat) (n : Nat), f < 128 ∧ v < 2 ^ 32 ∧ (s.chip f).inReset = false ∧
      (s.chip f).tapQ = x :: q ∧ (s.chip f).gap = some (T, n)) ∧
    (∃ (s : State) (f : Nat) (v : Nat) (T : Nat) (n : Nat), f < 128 ∧ v < 2 ^ 32 ∧ (s.chip f).inReset = false ∧ (s.chip f).tapQ = [] ∧
      (s.chip f).gap = some (T, n) ∧ (s.chip f).fifo.length < 2048) ∧
    (∃ (s : State) (f : Nat) (v : Nat), f < 128 ∧ v < 2 ^ 32 ∧ (s.chip f).inReset = false ∧ (s.chain (f / 16)).state = ChainState.up ∧
      f % 16 < (s.chain (f / 16)).reach ∧ (s.chip f).fifo ≠ []) ∧
    (∃ (s : State) (f : Nat) (v : Nat), f < 128 ∧ v < 2 ^ 32 ∧ (s.chip f).inReset = false ∧ (s.chain (f / 16)).state = ChainState.up ∧
      f % 16 < (s.chain (f / 16)).reach ∧ (s.chip f).fifo = [] ∧ (s.chip f).flushing = true ∧ (s.chip f).gap = none ∧ (s.chip f).tapQ = []) :=
  ⟨⟨up.setChip 127 { tapEn := true }, 127, 2 ^ 32 - 1, by decide +kernel⟩,
   ⟨up, 127, 0, by decide +kernel⟩,
   ⟨up.setChip 127 { flushing := true }, 127, 0, by decide +kernel⟩,
   ⟨up.setChip 127 { tapQ := [tap] }, 127, 0, tap, [], by decide +kernel⟩,
   ⟨up.setChip 127 { tapQ := [tap], gap := some (0, 1) }, 127, 0, tap, [], 0, 1, by decide +kernel⟩,
   ⟨up.setChip 127 { gap := some (0, 1) }, 127, 0, 0, 1, by decide +kernel⟩,
   ⟨(up.setChip 127 { fifo := [traceRec] }).setChain 7 whole, 127, 0, by decide +kernel⟩,
   ⟨(up.setChip 127 { flushing := true }).setChain 7 whole, 127, 0, by decide +kernel⟩⟩

/-- Its hypotheses can be met: `Obligations.WdaAnswersItsFrames`. -/
theorem witness_wdaAnswersItsFrames :
    (∃ (s : State) (k : Nat) (p : Nat) (rest : List Frame) (tag : Nat) (a : Nat) (n : Nat), k < 8 ∧ p < 16 ∧
      (s.chain k).down = Frame.read p tag a n :: rest) ∧
    (∃ (s : State) (k : Nat) (p : Nat) (rest : List Frame) (tag : Nat) (a : Nat) (d : List Byte), k < 8 ∧ p < 16 ∧
      (s.chain k).down = Frame.write p tag a d :: rest) ∧
    (∃ (s : State) (k : Nat) (p : Nat) (rest : List Frame) (n : Nat), k < 8 ∧ p < 16 ∧ (s.chain k).down = Frame.alertAck p n :: rest) ∧
    (∃ (s : State) (k : Nat) (p : Nat) (rest : List Frame) (sent : Nat) (iss : Issuer), k < 8 ∧ p < 16 ∧
      (s.chain k).down = Frame.probe p sent iss :: rest ∧ (s.chip (16 * k + p)).inReset = false) :=
  ⟨⟨up.setChain 7 { whole with down := [.read 15 0 (2 ^ 36) 8] }, 7, 15, [], 0, 2 ^ 36, 8, by decide +kernel⟩,
   ⟨up.setChain 7 { whole with down := [.write 15 0 0 [1]] }, 7, 15, [], 0, 0, [1], by decide +kernel⟩,
   ⟨up.setChain 7 { whole with down := [.alertAck 15 63] }, 7, 15, [], 63, by decide +kernel⟩,
   ⟨up.setChain 7 { whole with down := [.probe 15 0 (.arm 0)] }, 7, 15, [], 0, .arm 0, by decide +kernel⟩⟩

/-- Its hypotheses can be met: `Obligations.ResponsesAndTimeoutsEndTransactions`. -/
theorem witness_responsesAndTimeoutsEndTransactions :
    (∃ (s : State) (k : Nat) (p : Nat) (tag : Nat) (rest : List Frame) (x : Txn) (d : List Byte) (c : Instr) (fr : Frame) (w : Work) (ix : Nat) (i : Item),
      (k < 8 ∧ s.fastClock = true ∧ s.run.armQ = [] ∧ (List.find? (fun x => x.tag == tag) (s.chain k).txns = some x) ∧ (x.limit = 0 ∨
      s.now ≤ x.sentAt + x.limit * 1000) ∧ (c = Instr.readData k ∧ fr = Frame.readData p tag d ∨ c = Instr.writeAck k ∧ fr = Frame.writeAck p tag ∧
      d = []) ∧ (s.chain k).up = fr :: rest ∧ x.quarantined = false ∧ x.issuer = Issuer.item w ix ∧ ix ≠ voidIx ∧ s.item? w = some i) ∧ (∀ (n : Nat),
      w = Work.ring n → n < 512)) ∧
    (∃ (s : State) (k : Nat) (p : Nat) (tag : Nat) (rest : List Frame) (x : Txn) (d : List Byte) (c : Instr) (fr : Frame) (w : Work) (ix : Nat) (i : Item),
      (k < 8 ∧ s.fastClock = true ∧ s.run.armQ = [] ∧ (List.find? (fun x => x.tag == tag) (s.chain k).txns = some x) ∧ (x.limit = 0 ∨
      s.now ≤ x.sentAt + x.limit * 1000) ∧ (c = Instr.readData k ∧ fr = Frame.readData p tag d ∨ c = Instr.writeAck k ∧ fr = Frame.writeAck p tag ∧
      d = []) ∧ (s.chain k).up = fr :: rest ∧ x.quarantined = false ∧ x.issuer = Issuer.item w ix ∧ ix ≠ voidIx ∧ s.item? w = some i) ∧ (∀ (n : Nat),
      w = Work.ring n → n < 512)) ∧
    (∃ (s : State) (k : Nat) (p : Nat) (tag : Nat) (rest : List Frame) (x : Txn) (d : List Byte) (c : Instr) (fr : Frame), k < 8 ∧
      s.fastClock = true ∧ s.run.armQ = [] ∧ (List.find? (fun x => x.tag == tag) (s.chain k).txns = some x) ∧ (x.limit = 0 ∨
      s.now ≤ x.sentAt + x.limit * 1000) ∧ (c = Instr.readData k ∧ fr = Frame.readData p tag d ∨ c = Instr.writeAck k ∧ fr = Frame.writeAck p tag ∧
      d = []) ∧ (s.chain k).up = fr :: rest ∧ x.quarantined = true) ∧
    (∃ (s : State) (k : Nat) (p : Nat) (tag : Nat) (rest : List Frame) (x : Txn) (w : Work) (ix : Nat) (i : Item), (k < 8 ∧ s.fastClock = true ∧
      s.run.armQ = [] ∧ (List.find? (fun x => x.tag == tag) (s.chain k).txns = some x) ∧ (x.limit = 0 ∨ s.now ≤ x.sentAt + x.limit * 1000) ∧
      (s.chain k).up = Frame.nack p tag :: rest ∧ x.quarantined = false ∧ x.issuer = Issuer.item w ix ∧ ix ≠ voidIx ∧ s.item? w = some i) ∧
      (∀ (n : Nat), w = Work.ring n → n < 512)) ∧
    (∃ (s : State) (k : Nat) (tag : Nat) (x : Txn) (w : Work) (ix : Nat) (i : Item), (k < 8 ∧ s.run.armQ = [] ∧
      (List.find? (fun x => x.tag == tag) (s.chain k).txns = some x) ∧ s.fastClock = true ∧ x.quarantined = false ∧ x.limit ≠ 0 ∧
      x.sentAt + x.limit * 1000 < s.now ∧ x.issuer = Issuer.item w ix ∧ ix ≠ voidIx ∧ s.item? w = some i) ∧ (∀ (n : Nat), w = Work.ring n → n < 512)) ∧
    (∃ (s : State) (k : Nat) (tag : Nat) (x : Txn), k < 8 ∧ s.run.armQ = [] ∧ (List.find? (fun x => x.tag == tag) (s.chain k).txns = some x) ∧
      (x.quarantined = true ∨ x.limit = 0 ∨ s.now ≤ x.sentAt + x.limit * 1000 ∨ s.fastClock = false)) :=
  ⟨⟨(inRing { desc := 0x20 }).setChain 7 { whole with txns := [txn], up := [.readData 15 3 [1]] }, 7, 15, 3, [], txn, [1], .readData 7,
     .readData 15 3 [1], .ring 0, 0, { desc := 0x20 }, by decide +kernel, by rintro n ⟨⟩; decide +kernel⟩,
   ⟨(inRing { desc := 0x20 }).setChain 7 { whole with txns := [txn], up := [.writeAck 15 3] }, 7, 15, 3, [], txn, [], .writeAck 7, .writeAck 15 3,
     .ring 0, 0, { desc := 0x20 }, by decide +kernel, by rintro n ⟨⟩; decide +kernel⟩,
   ⟨up.setChain 7 { whole with txns := [{ txn with quarantined := true }], up := [.readData 15 3 [1]] }, 7, 15, 3, [],
     { txn with quarantined := true }, [1], .readData 7, .readData 15 3 [1], by decide +kernel⟩,
   ⟨(inRing { desc := 0x20 }).setChain 7 { whole with txns := [txn], up := [.nack 15 3] }, 7, 15, 3, [], txn, .ring 0, 0, { desc := 0x20 },
     by decide +kernel, by rintro n ⟨⟩; decide +kernel⟩,
   ⟨({ inRing { desc := 0x20 } with now := 1001 }).setChain 7 { whole with txns := [txn] }, 7, 3, txn, .ring 0, 0, { desc := 0x20 },
     by decide +kernel, by rintro n ⟨⟩; decide +kernel⟩,
   ⟨({ up with now := 1000 }).setChain 7 { whole with txns := [txn] }, 7, 3, txn, by decide +kernel⟩⟩

/-- Its hypotheses can be met: `Obligations.HopsComeUpFailAndCount`. -/
theorem witness_hopsComeUpFailAndCount :
    (∃ (s : State) (k : Nat) (p : Nat), k < 8 ∧ p < 16 ∧ s.fastClock = true ∧ (s.chain k).training = true ∧ (s.chain k).reach = p ∧
      ((s.chain k).state = ChainState.training ∨ (s.chain k).state = ChainState.up) ∧ s.now ≤ (s.chain k).trainFrom + 500000) ∧
    (∃ (s : State) (k : Nat) (p : Nat), k < 8 ∧ p < 16 ∧ s.fastClock = true ∧ (s.chain k).state = ChainState.up ∧ p < (s.chain k).reach) ∧
    (∃ (s : State) (k : Nat) (p : Nat) (n : Nat), k < 8 ∧ p < 16 ∧ s.fastClock = true ∧ (s.chain k).training = false ∧
      ((s.chain k).state = ChainState.up ∨ (s.chain k).state = ChainState.down) ∧ tget 0 (s.chain k).failed p = n + 1 ∧ s.now ≤ n + 60000) ∧
    (∃ (s : State) (k : Nat) (p : Nat) (n : Nat), k < 8 ∧ p < 16 ∧ s.fastClock = true ∧ (s.chain k).training = false ∧
      tget 0 (s.chain k).failed p = n + 1 ∧ n + 60000 < s.now) ∧
    (∃ (s : State) (k : Nat) (p : Nat) (n : Nat), k < 8 ∧ p < 16 ∧ s.fastClock = true ∧ tget 0 (s.chain k).failed p = n + 1 ∧ n + 1000000 < s.now) ∧
    (∃ (s : State) (k : Nat) (p : Nat), k < 8 ∧ p < 16 ∧ s.fastClock = true ∧ (s.chain k).training = true ∧ (s.chain k).trainFrom + 500000 ≤ s.now) ∧
    (∃ (s : State) (k : Nat) (p : Nat) (up : Bool), k < 8 ∧ p < 16 ∧ s.fastClock = true ∧ s.run.armQ = [] ∧
      tget 0 (s.chain k).replays (2 * p + b2n !up) < 7) ∧
    (∃ (s : State) (k : Nat) (p : Nat) (up : Bool), k < 8 ∧ p < 16 ∧ s.fastClock = true ∧ s.run.armQ = [] ∧
      tget 0 (s.chain k).replays (2 * p + b2n !up) = 7 ∧ (s.chain k).state = ChainState.up ∧ p < (s.chain k).reach) :=
  ⟨⟨up.setChain 7 { state := .training, training := true, reach := 15 }, 7, 15, by decide +kernel⟩,
   ⟨up.setChain 7 whole, 7, 15, by decide +kernel⟩,
   ⟨{ up with now := 60000 }.setChain 7 { whole with failed := [(15, 1)] }, 7, 15, 0, by decide +kernel⟩,
   ⟨{ up with now := 60001 }.setChain 7 { whole with failed := [(15, 1)] }, 7, 15, 0, by decide +kernel⟩,
   ⟨{ up with now := 1000001 }.setChain 7 { whole with failed := [(15, 1)] }, 7, 15, 0, by decide +kernel⟩,
   ⟨{ up with now := 500000 }.setChain 7 { state := .training, training := true }, 7, 15, by decide +kernel⟩,
   ⟨up, 7, 15, true, by decide +kernel⟩,
   ⟨up.setChain 7 { whole with replays := [(30, 7)] }, 7, 15, true, by decide +kernel⟩⟩

/-- Its hypotheses can be met: `Obligations.AlertsAreAcceptedOnce`. -/
theorem witness_alertsAreAcceptedOnce :
    (∃ (s : State) (k : Nat) (p : Nat) (a : HeldAlert) (l : List HeldAlert), k < 8 ∧ p < 16 ∧ s.fastClock = true ∧ (s.chain k).state = ChainState.up ∧
      p < (s.chain k).reach ∧ (s.chip (16 * k + p)).alerts = a :: l ∧ tget 0 (s.chain k).lastAlert p = a.num + 1) ∧
    (∃ (s : State) (k : Nat) (p : Nat) (a : HeldAlert) (l : List HeldAlert), k < 8 ∧ p < 16 ∧ s.fastClock = true ∧ (s.chain k).state = ChainState.up ∧
      p < (s.chain k).reach ∧ (s.chip (16 * k + p)).alerts = a :: l ∧ tget 0 (s.chain k).lastAlert p ≠ a.num + 1 ∧ fld a.word 0 8 = 7) ∧
    (∃ (s : State) (k : Nat) (p : Nat) (a : HeldAlert) (l : List HeldAlert), k < 8 ∧ p < 16 ∧ s.fastClock = true ∧ (s.chain k).state = ChainState.up ∧
      p < (s.chain k).reach ∧ (s.chip (16 * k + p)).alerts = a :: l ∧ tget 0 (s.chain k).lastAlert p ≠ a.num + 1 ∧ fld a.word 0 8 ≠ 1 ∧
      fld a.word 0 8 ≠ 2 ∧ fld a.word 0 8 ≠ 7 ∧ fld a.word 0 8 ≠ 8 ∧ s.addressable (16 * k + p) = true ∧ s.inService (32 + 16 * k + p) = false) :=
  ⟨⟨(up.setChain 7 { whole with lastAlert := [(15, 6)] }).setChip 127 { alerts := [{ num := 5, word := 0 }] }, 7, 15, { num := 5, word := 0 }, [],
     by decide +kernel⟩,
   ⟨(up.setChain 7 whole).setChip 127 { alerts := [{ num := 5, word := 7 }] }, 7, 15, { num := 5, word := 7 }, [], by decide +kernel⟩,
   ⟨(up.setChain 7 whole).setChip 127 { alerts := [{ num := 63, word := 0 }] }, 7, 15, { num := 63, word := 0 }, [], by decide +kernel⟩⟩

/-- Its hypotheses can be met: `Obligations.TraceFramesAndFabricTime`. -/
theorem witness_traceFramesAndFabricTime :
    (∃ (s : State) (k : Nat) (p : Nat) (rs : List TraceRec) (rest : List Frame), k < 8 ∧ s.fastClock = true ∧
      (s.chain k).upTrace = Frame.trace p rs :: rest ∧ s.trc.state.armed = false) ∧
    (∃ (s : State) (k : Nat) (p : Nat) (rs : List TraceRec) (rest : List Frame), k < 8 ∧ s.fastClock = true ∧
      (s.chain k).upTrace = Frame.trace p rs :: rest ∧ s.trc.state.armed = true ∧ s.ringFull = false ∧ s.ringFree < rs.length) ∧
    (∃ (s : State) (k : Nat) (p : Nat) (rs : List TraceRec) (rest : List Frame), k < 8 ∧ s.fastClock = true ∧
      (s.chain k).upTrace = Frame.trace p rs :: rest ∧ s.trc.state.armed = true ∧ s.ringFull = true) ∧
    (∃ (s : State) (k : Nat) (p : Nat) (rs : List TraceRec) (rest : List Frame), k < 8 ∧ s.fastClock = true ∧
      (s.chain k).upTrace = Frame.trace p rs :: rest ∧ s.trc.state = TraceState.streaming ∧ s.trc.windowMode = false ∧ s.ringFull = false ∧
      rs.length ≤ s.ringFree) ∧
    (∃ (s : State) (k : Nat) (p : Nat), k < 8 ∧ p < 16 ∧ s.fastClock = true ∧ s.time % 1000000 = 0 ∧ s.bhv.lastSync ≠ s.time / 1000000 + 1) ∧
    (∃ (s : State) (k : Nat) (p : Nat), k < 8 ∧ p < 16 ∧ tget 0 (s.chain k).symbol p ≠ 0 ∧ (s.chip (16 * k + p)).inReset = false ∧
      (s.chip (16 * k + p)).synced = false) ∧
    (∃ (s : State) (k : Nat) (p : Nat), k < 8 ∧ p < 16 ∧ tget 0 (s.chain k).symbol p ≠ 0 ∧ (s.chip (16 * k + p)).inReset = false ∧
      (s.chip (16 * k + p)).synced = true) ∧
    (∃ (s : State) (k : Nat) (p : Nat) (stamp : Nat) (sent : Nat) (iss : Issuer) (rest : List Frame), k < 8 ∧ p < 16 ∧ s.fastClock = true ∧
      (s.chain k).up = Frame.probeStamp p stamp sent iss :: rest) :=
  ⟨⟨up.setChain 7 { whole with upTrace := [.trace 15 [traceRec]] }, 7, 15, [traceRec], [], by decide +kernel⟩,
   ⟨{ up with trc := { state := .pre, ringSize := 0 } }.setChain 7 { whole with upTrace := [.trace 15 [traceRec]] }, 7, 15, [traceRec], [],
     by decide +kernel⟩,
   ⟨{ up with trc := { state := .pre, ringSize := 0, need := 1 } }.setChain 7 { whole with upTrace := [.trace 15 [traceRec]] }, 7, 15, [traceRec], [],
     by decide +kernel⟩,
   ⟨{ up with trc := { state := .streaming, ringSize := 1 } }.setChain 7 { whole with upTrace := [.trace 15 [traceRec]] }, 7, 15, [traceRec], [],
     by decide +kernel⟩,
   ⟨up, 7, 15, by decide +kernel⟩,
   ⟨up.setChain 7 { whole with symbol := [(15, 1)] }, 7, 15, by decide +kernel⟩,
   ⟨(up.setChain 7 { whole with symbol := [(15, 1)] }).setChip 127 { synced := true }, 7, 15, by decide +kernel⟩,
   ⟨up.setChain 7 { whole with up := [.probeStamp 15 0 0 (.arm 0)] }, 7, 15, 0, 0, .arm 0, [], by decide +kernel⟩⟩

/-- Its hypotheses can be met: `Obligations.StopLinesRelayPulseAndConfirm`. -/
theorem witness_stopLinesRelayPulseAndConfirm :
    (∃ (s : State) (k : Nat), k < 8 ∧ s.pins.inPor = false ∧ s.pins.dead = false ∧ s.stopInPad k = false ∧ bit s.pins.stopInLow k = false ∧
      s.run.relayEn = true ∧ s.run.relayMask ≠ 0) ∧
    (∃ (s : State) (k : Nat), k < 8 ∧ s.pins.inPor = false ∧ s.pins.dead = false ∧ s.stopInPad k = false ∧ bit s.pins.stopInLow k = false ∧
      (s.run.relayEn = false ∨ s.run.relayMask = 0)) ∧
    (∃ (s : State) (k : Nat) (n : Nat), k < 8 ∧ tget 0 s.pins.pulse k = n + 1 ∧ aonEdge (n + 1000 * s.run.pulse.max 1) ≤ s.now) ∧
    (∃ (s : State) (k : Nat) (n : Nat), k < 8 ∧ tget 0 s.pins.pulse k = n + 1 ∧ s.now < aonEdge (n + 1000 * s.run.pulse.max 1)) ∧
    (∃ (s : State) (k : Nat), k < 8 ∧ s.run.backup = true ∧ s.run.tollT ≤ s.time ∧ s.fastClock = true ∧ bit s.run.tollMask k = true ∧
      s.drivable k = true) ∧
    (∃ (s : State) (k : Nat), k < 8 ∧ (s.run.backup = false ∨ s.time < s.run.tollT)) ∧
    (∃ (s : State) (k : Nat) (AT : Nat) (mask : Nat), k < 8 ∧ s.run.raises = [(AT, mask)] ∧ AT ≤ s.time ∧ bit mask k = true ∧
      bit s.pins.stopEn k = true ∧ tget 0 s.pins.pulse k = 0) ∧
    (∃ (s : State) (f : Nat) (c : Confirm) (n : Nat), f < 128 ∧ s.run.confirm = some c ∧ c.started = true ∧ c.left = [(f, n, c.instant + 1000)] ∧
      s.fastClock = true ∧ c.instant + 1000 ≤ s.time ∧ (s.chain (f / 16)).tagFree true = true ∧ (∀ k < 8, bit c.chains k = true →
      (s.chain k).state ≠ ChainState.eIdle) ∧ s.addressable f = true ∧ (s.chip f).inReset = false ∧ (s.chip f).stopSeen = true) ∧
    (∃ (s : State) (f : Nat) (c : Confirm) (n : Nat), f < 128 ∧ s.run.confirm = some c ∧ c.started = true ∧ c.left = [(f, n, c.instant + 1000)] ∧
      s.fastClock = true ∧ c.instant + 1000 ≤ s.time ∧ (s.chain (f / 16)).tagFree true = true ∧ (∀ k < 8, bit c.chains k = true →
      (s.chain k).state ≠ ChainState.eIdle) ∧ (s.addressable f = false ∨ (s.chip f).inReset = true ∨ (s.chip f).stopSeen = false ∧ 2 ≤ n)) ∧
    (∃ (s : State) (f : Nat) (c : Confirm) (n : Nat), f < 128 ∧ s.run.confirm = some c ∧ c.started = true ∧ c.left = [(f, n, c.instant + 1000)] ∧
      s.fastClock = true ∧ c.instant + 1000 ≤ s.time ∧ (s.chain (f / 16)).tagFree true = true ∧ (∀ k < 8, bit c.chains k = true →
      (s.chain k).state ≠ ChainState.eIdle) ∧ (s.addressable f = false ∨ (s.chip f).inReset = true ∨ (s.chip f).stopSeen = false ∧ 2 ≤ n)) ∧
    (∃ (s : State) (f : Nat) (c : Confirm) (n : Nat), f < 128 ∧ s.run.confirm = some c ∧ c.started = true ∧ c.left = [(f, n, c.instant + 1000)] ∧
      s.fastClock = true ∧ c.instant + 1000 ≤ s.time ∧ (s.chain (f / 16)).tagFree true = true ∧ (∀ k < 8, bit c.chains k = true →
      (s.chain k).state ≠ ChainState.eIdle) ∧ s.addressable f = true ∧ (s.chip f).inReset = false ∧ (s.chip f).stopSeen = false ∧ n < 2) :=
  ⟨⟨up.setChip 127 { stopReq := true }, 7, by decide +kernel⟩,
   ⟨{ up with run := { relayEn := false } }.setChip 127 { stopReq := true }, 7, by decide +kernel⟩,
   ⟨{ up with now := 1000, pins := { pulse := [(7, 1)] } }, 7, 0, by decide +kernel⟩,
   ⟨{ up with now := 999, pins := { pulse := [(7, 1)] } }, 7, 0, by decide +kernel⟩,
   ⟨{ up with run := { backup := true, tollMask := 128 }, pins := { stopEn := 128, stopOut := 128 } }, 7, by decide +kernel⟩,
   ⟨up, 7, by decide +kernel⟩,
   ⟨{ up with run := { raises := [(0, 128)] }, pins := { stopEn := 128 } }, 7, 0, 128, by decide +kernel⟩,
   ⟨(({ up with now := 1000, run := { confirm := some (confirm 2) } }).setChain 7 whole).setChip 127 { stopSeen := true }, 127, confirm 2, 2,
     by decide +kernel⟩,
   ⟨{ up with now := 1000, run := { confirm := some (confirm 0) } }, 127, confirm 0, 0, by decide +kernel⟩,
   ⟨({ up with now := 1000, run := { confirm := some (confirm 2) } }).setChain 7 whole, 127, confirm 2, 2, by decide +kernel⟩,
   ⟨({ up with now := 1000, run := { confirm := some (confirm 1) } }).setChain 7 whole, 127, confirm 1, 1, by decide +kernel⟩⟩

/-- Its hypotheses can be met: `Obligations.TranslationControlAndResolve`. -/
theorem witness_translationControlAndResolve :
    (∃ (s : State), s.serves 24576 = true ∧ s.htu.enabled = true) ∧
    (∃ (s : State), s.serves 24576 = true ∧ s.htu.enabled = false ∧ s.htu.ops = []) ∧
    (∃ (s : State) (o : HostOp) (l : Nat) (a : Nat) (d : Nat) (w : Work) (i : Item), (s.serves 24576 = true ∧ s.htu.ops = [o] ∧
      o.phase = HostPhase.walk l a false d ∧ o.owner = Owner.item w ∧ s.item? w = some i ∧ s.htu.freeEntry ≠ none) ∧ (∀ (n : Nat), w = Work.ring n →
      n < 512)) ∧
    (∃ (s : State) (n : Nat) (gen : Nat), n < 64 ∧ gen < 256 ∧ s.serves 24592 = true ∧ s.lcs.scrapReboot = false ∧ s.boot.recoveryReboot = false ∧
      ((∀ p ∈ s.htu.parked, p.2.1 ≠ some n) ∨ (s.htu.entry n).parked = false ∨ (s.htu.entry n).gen ≠ gen)) ∧
    (∃ (s : State) (n : Nat) (gen : Nat) (r : Fault192) (w : Work) (i : Item), (n < 64 ∧ gen < 256 ∧ s.serves 24592 = true ∧
      s.lcs.scrapReboot = false ∧ s.boot.recoveryReboot = false ∧ s.htu.parked = [(Owner.item w, some n, r)] ∧ (s.htu.entry n).parked = true ∧
      (s.htu.entry n).gen = gen ∧ s.htu.ops = [] ∧ s.item? w = some i) ∧ (∀ (k : Nat), w = Work.ring k → k < 512)) ∧
    (∃ (s : State) (n : Nat) (gen : Nat) (r : Fault192) (o : HostOp) (k : Nat) (i : Item), n < 64 ∧ gen < 256 ∧ s.serves 24592 = true ∧
      s.lcs.scrapReboot = false ∧ s.boot.recoveryReboot = false ∧ s.htu.parked = [(Owner.item (Work.ring k), some n, r)] ∧
      (s.htu.entry n).parked = true ∧ (s.htu.entry n).gen = gen ∧ s.htu.ops = [o] ∧ o.owner = Owner.item (Work.ring k) ∧ o.cpl = true ∧
      o.phase = HostPhase.parked ∧ k < 512 ∧ (s.ring k).item = some i ∧ (s.ring k).state = RingState.active) ∧
    (∃ (s : State) (n : Nat) (gen : Nat) (r : Fault192) (o : HostOp) (k : Nat) (i : Item), n < 64 ∧ gen < 256 ∧ s.serves 24592 = true ∧
      s.lcs.scrapReboot = false ∧ s.boot.recoveryReboot = false ∧ s.htu.parked = [(Owner.item (Work.ring k), some n, r)] ∧
      (s.htu.entry n).parked = true ∧ (s.htu.entry n).gen = gen ∧ s.htu.ops = [o] ∧ o.owner = Owner.item (Work.ring k) ∧ o.cpl = true ∧
      o.phase = HostPhase.parked ∧ k < 512 ∧ (s.ring k).item = some i ∧ (s.ring k).state = RingState.active ∧ s.htu.enabled = true ∧
      s.boot.stage ≠ 5 ∧ o.addr < 2 ^ 48 ∧ s.htu.tlb = []) :=
  ⟨⟨{ up with htu := { enabled := true } }, by decide +kernel⟩,
   ⟨up, by decide +kernel⟩,
   ⟨{ inRing { desc := 0x20 } with htu := { enabled := true, ops := [{ hostWrite (.item (.ring 0)) with phase := .walk 3 0 false 0 }] } },
     { hostWrite (.item (.ring 0)) with phase := .walk 3 0 false 0 }, 3, 0, 0, .ring 0, { desc := 0x20 }, by decide +kernel,
     by rintro n ⟨⟩; decide +kernel⟩,
   ⟨up, 63, 255, by decide +kernel⟩,
   ⟨{ parkedOp false with htu := { (parkedOp false).htu with ops := [] } }, 63, 255, {}, .ring 0, { desc := 0x20 }, by decide +kernel,
     by rintro n ⟨⟩; decide +kernel⟩,
   ⟨{ parkedOp false with htu := { (parkedOp false).htu with ops := [{ hostWrite (.item (.ring 0)) with phase := .parked, cpl := true }] } }, 63, 255,
     {}, { hostWrite (.item (.ring 0)) with phase := .parked, cpl := true }, 0, { desc := 0x20 }, by decide +kernel⟩,
   ⟨{ parkedOp true with htu := { (parkedOp true).htu with ops := [{ hostWrite (.item (.ring 0)) with phase := .parked, cpl := true }] } }, 63, 255,
     {}, { hostWrite (.item (.ring 0)) with phase := .parked, cpl := true }, 0, { desc := 0x20 }, by decide +kernel⟩⟩

/-- Its hypotheses can be met: `Obligations.WalksFollowTheTable`. -/
theorem witness_walksFollowTheTable :
    (∃ (s : State) (o : HostOp) (l : Nat) (a : Nat) (entry : Nat), (s.fastRun = true ∧ o ∈ s.htu.ops ∧ o.phase = HostPhase.walk l a true 0 ∧
      s.htu.enabled = true ∧ l < 4 ∧ (∀ p ∈ s.htu.ops, p.owner = o.owner → p.id < o.id → p.isQueued = true) ∧ bit entry 0 = true ∧ (2 ≤ l ∨ l = 1 ∧
      bit entry 2 = false)) ∧ s.numbered) ∧
    (∃ (s : State) (o : HostOp) (l : Nat) (a : Nat) (entry : Nat), (s.fastRun = true ∧ o ∈ s.htu.ops ∧ o.phase = HostPhase.walk l a true 0 ∧
      s.htu.enabled = true ∧ l < 4 ∧ (∀ p ∈ s.htu.ops, p.owner = o.owner → p.id < o.id → p.isQueued = true) ∧ bit entry 0 = true ∧ (2 ≤ l ∨ l = 1 ∧
      bit entry 2 = false)) ∧ s.numbered) ∧
    (∃ (s : State) (o : HostOp) (l : Nat) (a : Nat) (entry : Nat), (s.fastRun = true ∧ o ∈ s.htu.ops ∧ o.phase = HostPhase.walk l a true 0 ∧
      s.htu.enabled = true ∧ l < 4 ∧ (∀ p ∈ s.htu.ops, p.owner = o.owner → p.id < o.id → p.isQueued = true) ∧ bit entry 0 = true ∧ (o.write = true →
      bit entry 1 = true) ∧ l = 0) ∧ s.numbered) ∧
    (∃ (s : State) (o : HostOp) (l : Nat) (a : Nat) (entry : Nat), (s.fastRun = true ∧ o ∈ s.htu.ops ∧ o.phase = HostPhase.walk l a true 0 ∧
      s.htu.enabled = true ∧ l < 4 ∧ (∀ p ∈ s.htu.ops, p.owner = o.owner → p.id < o.id → p.isQueued = true) ∧ bit entry 0 = true ∧ (o.write = true →
      bit entry 1 = true) ∧ l = 1 ∧ bit entry 2 = true) ∧ s.numbered) ∧
    (∃ (s : State) (o : HostOp) (l : Nat) (a : Nat) (entry : Nat) (err : Bool) (c : Nat), (s.fastRun = true ∧ o ∈ s.htu.ops ∧
      o.phase = HostPhase.walk l a true 0 ∧ s.htu.enabled = true ∧ l < 4 ∧ (∀ p ∈ s.htu.ops, p.owner = o.owner → p.id < o.id → p.isQueued = true) ∧
      s.htu.freeEntry ≠ none ∧ (err = true ∧ c = 5 ∨ err = false ∧ bit entry 0 = false ∧ c = 1 ∨ err = false ∧ bit entry 0 = true ∧ (l = 0 ∨ l = 1 ∧
      bit entry 2 = true) ∧ o.write = true ∧ bit entry 1 = false ∧ c = 2)) ∧ s.numbered) ∧
    (∃ (s : State) (o : HostOp) (l : Nat) (a : Nat) (entry : Nat) (err : Bool) (c : Nat), (s.fastRun = true ∧ o ∈ s.htu.ops ∧
      o.phase = HostPhase.walk l a true 0 ∧ s.htu.enabled = true ∧ l < 4 ∧ (∀ p ∈ s.htu.ops, p.owner = o.owner → p.id < o.id → p.isQueued = true) ∧
      s.htu.freeEntry ≠ none ∧ (err = true ∧ c = 5 ∨ err = false ∧ bit entry 0 = false ∧ c = 1 ∨ err = false ∧ bit entry 0 = true ∧ (l = 0 ∨ l = 1 ∧
      bit entry 2 = true) ∧ o.write = true ∧ bit entry 1 = false ∧ c = 2)) ∧ s.numbered) ∧
    (∃ (s : State) (o : HostOp) (l : Nat) (a : Nat) (entry : Nat) (err : Bool) (c : Nat), (s.fastRun = true ∧ o ∈ s.htu.ops ∧
      o.phase = HostPhase.walk l a true 0 ∧ s.htu.enabled = true ∧ l < 4 ∧ (∀ p ∈ s.htu.ops, p.owner = o.owner → p.id < o.id → p.isQueued = true) ∧
      s.htu.freeEntry ≠ none ∧ (err = true ∧ c = 5 ∨ err = false ∧ bit entry 0 = false ∧ c = 1 ∨ err = false ∧ bit entry 0 = true ∧ (l = 0 ∨ l = 1 ∧
      bit entry 2 = true) ∧ o.write = true ∧ bit entry 1 = false ∧ c = 2)) ∧ s.numbered) :=
  ⟨⟨walking 3, walkOp 3, 3, 0, 1, by decide +kernel, by unfold State.numbered; decide +kernel⟩,
   ⟨walking 1, walkOp 1, 1, 0, 1, by decide +kernel, by unfold State.numbered; decide +kernel⟩,
   ⟨walking 0, walkOp 0, 0, 0, 3, by decide +kernel, by unfold State.numbered; decide +kernel⟩,
   ⟨walking 1, walkOp 1, 1, 0, 7, by decide +kernel, by unfold State.numbered; decide +kernel⟩,
   ⟨walking 3, walkOp 3, 3, 0, 1, true, 5, by decide +kernel, by unfold State.numbered; decide +kernel⟩,
   ⟨walking 3, walkOp 3, 3, 0, 0, false, 1, by decide +kernel, by unfold State.numbered; decide +kernel⟩,
   ⟨walking 0, walkOp 0, 0, 0, 1, false, 2, by decide +kernel, by unfold State.numbered; decide +kernel⟩⟩

/-- Its hypotheses can be met: `Obligations.OperationsAndFetchesComplete`. -/
theorem witness_operationsAndFetchesComplete :
    (∃ (s : State) (id : Nat) (w : Work) (ix : Nat) (i : Item) (b : Burst), (s.fastRun = true ∧ s.item? w = some i ∧ i.fin = none ∧
      opcodeOf i.desc ≠ 66 ∧ i.odd = 0 ∧ ix ≠ voidIx ∧ (List.find? (fun b => b.id == id) s.bursts = some b) ∧ b.work = w ∧ b.ix = ix ∧ b.nor = 0 ∧
      b.held = false ∧ b.refill = false ∧ b.write = true) ∧ (∀ (n : Nat), w = Work.ring n → n < 512 ∧ (s.ring n).state ≠ RingState.draining)) ∧
    (∃ (s : State) (id : Nat) (w : Work) (ix : Nat) (i : Item) (b : Burst), (s.fastRun = true ∧ s.item? w = some i ∧ i.fin = none ∧
      opcodeOf i.desc ≠ 66 ∧ i.odd = 0 ∧ ix ≠ voidIx ∧ (List.find? (fun b => b.id == id) s.bursts = some b) ∧ b.work = w ∧ b.ix = ix ∧ b.nor = 0 ∧
      b.held = false ∧ b.refill = false ∧ b.write = false) ∧ (∀ (n : Nat), w = Work.ring n → n < 512 ∧ (s.ring n).state ≠ RingState.draining)) ∧
    (∃ (s : State) (id : Nat) (w : Work) (ix : Nat) (i : Item) (b : Burst), (s.fastRun = true ∧ s.item? w = some i ∧ i.fin = none ∧
      opcodeOf i.desc ≠ 66 ∧ i.odd = 0 ∧ ix ≠ voidIx ∧ (List.find? (fun b => b.id == id) s.bursts = some b) ∧ b.held = true ∧ s.htu.ops = []) ∧
      (∀ (n : Nat), w = Work.ring n → n < 512 ∧ (s.ring n).state ≠ RingState.draining)) ∧
    (∃ (s : State) (id : Nat) (w : Work) (ix : Nat) (i : Item) (o : HostOp) (p : Nat) (k : Nat), (s.fastRun = true ∧ s.item? w = some i ∧
      i.fin = none ∧ opcodeOf i.desc ≠ 66 ∧ i.odd = 0 ∧ ix ≠ voidIx ∧ (∀ b ∈ s.bursts, b.id ≠ id) ∧
      (List.find? (fun o => o.id == id) s.htu.ops = some o) ∧ o.owner = Owner.item w ∧ o.ix = ix ∧ o.phase = HostPhase.queued p k ∧ o.cpl = false ∧
      (∀ q ∈ s.htu.ops, q.owner = Owner.item w → q.isQueued = true) ∧ o.write = true ∧ s.htu.firstWrite = some o) ∧ (∀ (n : Nat), w = Work.ring n →
      n < 512 ∧ (s.ring n).state ≠ RingState.draining)) ∧
    (∃ (s : State) (id : Nat) (w : Work) (ix : Nat) (i : Item) (o : HostOp) (p : Nat) (k : Nat) (data : List Byte), (s.fastRun = true ∧
      s.item? w = some i ∧ i.fin = none ∧ opcodeOf i.desc ≠ 66 ∧ i.odd = 0 ∧ ix ≠ voidIx ∧ (∀ b ∈ s.bursts, b.id ≠ id) ∧
      (List.find? (fun o => o.id == id) s.htu.ops = some o) ∧ o.owner = Owner.item w ∧ o.ix = ix ∧ o.phase = HostPhase.queued p k ∧ o.cpl = false ∧
      (∀ q ∈ s.htu.ops, q.owner = Owner.item w → q.isQueued = true) ∧ o.write = false ∧ data.length = o.len) ∧ (∀ (n : Nat), w = Work.ring n →
      n < 512 ∧ (s.ring n).state ≠ RingState.draining)) ∧
    (∃ (s : State) (id : Nat) (w : Work) (ix : Nat) (i : Item) (o : HostOp) (p : Nat) (k : Nat), (s.fastRun = true ∧ s.item? w = some i ∧
      i.fin = none ∧ opcodeOf i.desc ≠ 66 ∧ i.odd = 0 ∧ ix ≠ voidIx ∧ (∀ b ∈ s.bursts, b.id ≠ id) ∧
      (List.find? (fun o => o.id == id) s.htu.ops = some o) ∧ o.owner = Owner.item w ∧ o.ix = ix ∧ o.phase = HostPhase.queued p k ∧ o.cpl = false ∧
      (∀ q ∈ s.htu.ops, q.owner = Owner.item w → q.isQueued = true) ∧ o.write = false ∧ bit s.cfg.devCtl2 4 = false) ∧ (∀ (n : Nat), w = Work.ring n →
      n < 512 ∧ (s.ring n).state ≠ RingState.draining)) ∧
    (∃ (s : State) (id : Nat) (w : Work) (ix : Nat) (i : Item) (o : HostOp) (p : Nat) (k : Nat), (s.fastRun = true ∧ s.item? w = some i ∧
      i.fin = none ∧ opcodeOf i.desc ≠ 66 ∧ i.odd = 0 ∧ ix ≠ voidIx ∧ (∀ b ∈ s.bursts, b.id ≠ id) ∧
      (List.find? (fun o => o.id == id) s.htu.ops = some o) ∧ o.owner = Owner.item w ∧ o.ix = ix ∧ o.phase = HostPhase.queued p k ∧ o.cpl = false ∧
      (∀ q ∈ s.htu.ops, q.owner = Owner.item w → q.isQueued = true) ∧ o.write = false ∧ bit s.cfg.devCtl2 4 = true) ∧ (∀ (n : Nat), w = Work.ring n →
      n < 512 ∧ (s.ring n).state ≠ RingState.draining)) ∧
    (∃ (s : State) (r : Nat) (o : HostOp) (p : Nat) (k : Nat) (data : List Byte), r < 512 ∧ s.fastRun = true ∧
      (List.find? (fun o => o.owner == Owner.fetch r && o.isQueued) s.htu.ops = some o) ∧ o.phase = HostPhase.queued p k ∧ o.ix = 0 ∧
      data.length = o.len ∧ (s.ring r).state = RingState.active ∧ (s.ring r).item = none ∧ (s.ring r).fetched = [] ∧ 64 ≤ o.len) ∧
    (∃ (s : State) (r : Nat) (o : HostOp) (p : Nat) (k : Nat), r < 512 ∧ s.fastRun = true ∧
      (List.find? (fun o => o.owner == Owner.fetch r && o.isQueued) s.htu.ops = some o) ∧ o.phase = HostPhase.queued p k ∧ o.ix = 0 ∧
      ((s.ring r).state = RingState.active ∨ (s.ring r).state = RingState.idle) ∧ s.inService 194 = false) :=
  ⟨⟨{ inRing { desc := 0x20 } with bursts := [burst true] }, 9, .ring 0, 0, { desc := 0x20 }, burst true, by decide +kernel,
     by rintro n ⟨⟩; decide +kernel⟩,
   ⟨{ inRing { desc := 0x20 } with bursts := [burst false] }, 9, .ring 0, 0, { desc := 0x20 }, burst false, by decide +kernel,
     by rintro n ⟨⟩; decide +kernel⟩,
   ⟨{ inRing { desc := 0x20 } with bursts := [{ burst true with held := true }] }, 9, .ring 0, 0, { desc := 0x20 }, { burst true with held := true },
     by decide +kernel, by rintro n ⟨⟩; decide +kernel⟩,
   ⟨{ inRing { desc := 0x20 } with htu := { ops := [hostWrite (.item (.ring 0))] } }, 0, .ring 0, 0, { desc := 0x20 }, hostWrite (.item (.ring 0)),
     64, 0, by decide +kernel, by rintro n ⟨⟩; decide +kernel⟩,
   ⟨{ inRing { desc := 0x20 } with htu := { ops := [hostRead (.item (.ring 0))] } }, 0, .ring 0, 0, { desc := 0x20 }, hostRead (.item (.ring 0)), 64,
     0, List.replicate 64 7, by decide +kernel, by rintro n ⟨⟩; decide +kernel⟩,
   ⟨{ inRing { desc := 0x20 } with htu := { ops := [hostRead (.item (.ring 0))] } }, 0, .ring 0, 0, { desc := 0x20 }, hostRead (.item (.ring 0)), 64,
     0, by decide +kernel, by rintro n ⟨⟩; decide +kernel⟩,
   ⟨{ inRing { desc := 0x20 } with htu := { ops := [hostRead (.item (.ring 0))] }, cfg := { command := 6, devCtl2 := 16 } }, 0, .ring 0, 0,
     { desc := 0x20 }, hostRead (.item (.ring 0)), 64, 0, by decide +kernel, by rintro n ⟨⟩; decide +kernel⟩,
   ⟨{ up with htu := { ops := [hostRead (.fetch 511)] } }.setRing 511 { state := .active }, 511, hostRead (.fetch 511), 64, 0, List.replicate 64 7,
     by decide +kernel⟩,
   ⟨{ up with htu := { ops := [hostRead (.fetch 511)] } }.setRing 511 { state := .idle }, 511, hostRead (.fetch 511), 64, 0, by decide +kernel⟩⟩

/-- Its hypotheses can be met: `Obligations.CompletionsAdvanceTheHead`. -/
theorem witness_completionsAdvanceTheHead :
    (∃ (s : State) (r : Nat) (o : HostOp) (p : Nat) (k : Nat) (c : CplRec) (rest : List CplRec), (r < 512 ∧ s.fastRun = true ∧
      s.htu.firstWrite = some o ∧ o.cpl = true ∧ o.owner = Owner.item (Work.ring r) ∧ o.phase = HostPhase.queued p k ∧ (s.ring r).cplQ = c :: rest ∧
      (s.ring r).state = RingState.active ∧ s.boot.recoveryReboot = false ∧ s.lcs.scrapReboot = false) ∧ (∀ (n : Nat), c.signal = some n →
      (s.counter n).cycle ≠ s.now)) :=
  ⟨{ up with htu := { ops := [{ hostWrite (.item (.ring 511)) with cpl := true }] } }.setRing 511 { state := .active, cplQ := [cplRec] }, 511,
    { hostWrite (.item (.ring 511)) with cpl := true }, 64, 0, cplRec, [], by decide +kernel,
    fun n h => nomatch (show (none : Option Nat) = some n from h)⟩

/-- Its hypotheses can be met: `Obligations.TraceTriggersCapturesAndPulses`. -/
theorem witness_traceTriggersCapturesAndPulses :
    (∃ (s : State), s.serves 57344 = true ∧ s.trc.enable = true ∧ s.trc.state = TraceState.pre ∧ s.trc.trigNow ≠ s.now + 1) ∧
    (∃ (s : State), s.serves 57344 = true ∧ s.trc.enable = true ∧ (s.trc.state = TraceState.post ∨ s.trc.state = TraceState.flushing ∨
      s.trc.state = TraceState.stopped ∨ s.trc.state ≠ TraceState.idle ∧ s.trc.trigNow = s.now + 1)) ∧
    (∃ (s : State), s.serves 57344 = true ∧ (s.trc.state = TraceState.idle ∨ s.trc.enable = false)) ∧
    (∃ (s : State), s.trc.source = 3 ∧ s.trc.trigAt ≤ s.time ∧ s.trc.timeFired = false ∧ s.trc.enable = true ∧ (s.trc.state = TraceState.pre ∨
      s.trc.state = TraceState.streaming) ∧ s.trc.trigNow ≠ s.now + 1) ∧
    (∃ (s : State), (s.trc.source ≠ 3 ∨ s.time < s.trc.trigAt ∨ s.trc.timeFired = true)) ∧
    (∃ (s : State), s.trc.state = TraceState.post ∧ s.trc.trigTime + s.trc.postNs ≤ s.time) ∧
    (∃ (s : State), (s.trc.state ≠ TraceState.post ∨ s.time < s.trc.trigTime + s.trc.postNs)) ∧
    (∃ (s : State), s.serves 57344 = true ∧ s.trc.enable = true ∧ (s.trc.state = TraceState.streaming ∨ s.trc.state = TraceState.pre ∨
      s.trc.state = TraceState.post)) ∧
    (∃ (s : State), s.serves 57344 = true ∧ (s.trc.state = TraceState.idle ∨ s.trc.state = TraceState.flushing ∨ s.trc.state = TraceState.stopped)) ∧
    (∃ (s : State), s.trc.toutSources < 32 ∧ s.trc.toutWidth < 16 ∧ s.serves 57408 = true ∧ s.pins.trigEn = true ∧ bit s.trc.toutSources 0 = true ∧
      s.fastClock = true ∧ s.pins.trigPulse = none ∧ s.pins.trigEnd ≠ s.now + 1) ∧
    (∃ (s : State), s.trc.toutSources < 32 ∧ s.trc.toutWidth < 16 ∧ s.serves 57408 = true ∧ s.pins.trigEn = true ∧ bit s.trc.toutSources 0 = true ∧
      s.fastClock = true ∧ (s.pins.trigPulse ≠ none ∨ s.pins.trigEnd = s.now + 1)) ∧
    (∃ (s : State), s.trc.toutSources < 32 ∧ s.trc.toutWidth < 16 ∧ s.serves 57408 = true ∧ (s.pins.trigEn = false ∨ bit s.trc.toutSources 0 = false)) ∧
    (∃ (s : State) (x : Nat), s.trc.toutSources < 32 ∧ s.trc.toutWidth < 16 ∧ s.pins.trigPulse = some x ∧
      aonEdge (x + 1000 * s.trc.toutWidth.max 1) ≤ s.now) ∧
    (∃ (s : State) (x : Nat), s.trc.toutSources < 32 ∧ s.trc.toutWidth < 16 ∧ s.pins.trigPulse = some x ∧
      s.now < aonEdge (x + 1000 * s.trc.toutWidth.max 1)) :=
  ⟨⟨{ up with trc := { state := .pre } }, by decide +kernel⟩,
   ⟨{ up with trc := { state := .stopped } }, by decide +kernel⟩,
   ⟨up, by decide +kernel⟩,
   ⟨{ up with trc := { state := .streaming, source := 3 } }, by decide +kernel⟩,
   ⟨up, by decide +kernel⟩,
   ⟨{ up with trc := { state := .post } }, by decide +kernel⟩,
   ⟨up, by decide +kernel⟩,
   ⟨{ up with trc := { state := .post } }, by decide +kernel⟩,
   ⟨up, by decide +kernel⟩,
   ⟨{ up with trc := { toutSources := 1, toutWidth := 15 }, pins := { trigEn := true } }, by decide +kernel⟩,
   ⟨{ up with trc := { toutSources := 1, toutWidth := 15 }, pins := { trigEn := true, trigPulse := some 0 } }, by decide +kernel⟩,
   ⟨up, by decide +kernel⟩,
   ⟨{ up with now := 15000, trc := { toutWidth := 15 }, pins := { trigPulse := some 0 } }, 0, by decide +kernel⟩,
   ⟨{ up with now := 14999, trc := { toutWidth := 15 }, pins := { trigPulse := some 0 } }, 0, by decide +kernel⟩⟩

/-- Its hypotheses can be met: `Obligations.SleepCommitsAndEnters`. -/
theorem witness_sleepCommitsAndEnters :
    (∃ (s : State) (r : SleepReq), s.pwr.req = some r ∧ r.committed = false ∧ r.tick0 + 1000 ≤ s.now ∧ s.pwr.seen = [] ∧ r.target = 1) ∧
    (∃ (s : State) (r : SleepReq), s.pwr.req = some r ∧ r.committed = false ∧ r.tick0 + 1000 ≤ s.now ∧ s.pwr.seen = [] ∧ r.target ≠ 1) ∧
    (∃ (s : State) (r : SleepReq) (at_ : Nat) (code : Nat) (line : Nat), s.pwr.req = some r ∧ r.committed = false ∧ r.tick0 + 1000 ≤ s.now ∧
      s.pwr.seen = [(at_, code, line)] ∧ at_ ≤ r.tick0 + 1000) ∧
    (∃ (s : State) (r : SleepReq), s.pwr.req = some r ∧ r.committed = true ∧ r.tick2 = false ∧ r.tick0 + 2000 ≤ s.now) ∧
    (∃ (s : State) (r : SleepReq), s.pwr.req = some r ∧ r.target = 3 ∧ r.tick2 = true ∧ r.tick0 + 3000 ≤ s.now) :=
  ⟨⟨{ up with now := 2000, pwr := { pllLock := true, req := some (sleepReq 1 false) } }, sleepReq 1 false, by decide +kernel⟩,
   ⟨{ up with now := 2000, pwr := { pllLock := true, req := some (sleepReq 3 false) } }, sleepReq 3 false, by decide +kernel⟩,
   ⟨{ up with now := 2000, pwr := { pllLock := true, req := some (sleepReq 2 false), seen := [(2000, 6, 0)] } }, sleepReq 2 false, 2000, 6, 0,
     by decide +kernel⟩,
   ⟨{ up with now := 3000, pwr := { pllLock := true, req := some (sleepReq 2 true) } }, sleepReq 2 true, by decide +kernel⟩,
   ⟨{ up with now := 4000, pwr := { req := some { sleepReq 3 true with tick2 := true } } }, { sleepReq 3 true with tick2 := true }, by decide +kernel⟩⟩

/-- Its hypotheses can be met: `Obligations.WakesTimerAndPll`. -/
theorem witness_wakesTimerAndPll :
    (∃ (s : State) (at_ : Nat) (code : Nat) (line : Nat), s.pwr.state ≠ PwrState.run ∧ s.pwr.waking = none ∧ s.pwr.seen = [(at_, code, line)] ∧
      at_ ≤ s.now) ∧
    (∃ (s : State), s.pwr.state = PwrState.run) ∧
    (∃ (s : State) (e : Nat) (st : PwrState), s.pwr.waking = some (e, st) ∧ st ≠ PwrState.off ∧ s.pwr.pllLock = true ∧
      e + 1000 * wakeTicks st ≤ s.now ∧ s.held = [] ∧ s.inService 180 = false) ∧
    (∃ (s : State) (e : Nat) (st : PwrState), s.pwr.waking = some (e, st) ∧ s.held = [] ∧ s.now < e + 1000 * wakeTicks st) ∧
    (∃ (s : State), s.pwr.timerHit = true) ∧
    (∃ (s : State), s.pwr.timerHit = false) ∧
    (∃ (s : State), s.fastClock = true ∧ s.inService 181 = false) ∧
    (∃ (s : State), s.pllEnabled = true ∧ s.held = [] ∧ s.pwr.pllOff = none) ∧
    (∃ (s : State) (g : Nat), s.pllEnabled = true ∧ s.held = [] ∧ s.pwr.pllOff = some g) ∧
    (∃ (s : State), s.pllEnabled = false ∧ s.held = []) :=
  ⟨⟨{ up with pwr := { state := .doze, seen := [(0, 6, 0)] } }, 0, 6, 0, by decide +kernel⟩,
   ⟨up, by decide +kernel⟩,
   ⟨{ up with now := 25000, pwr := { state := .doze, pllLock := true, waking := some (0, .doze) } }, 0, .doze, by decide +kernel⟩,
   ⟨{ up with now := 24999, pwr := { state := .doze, waking := some (0, .doze) } }, 0, .doze, by decide +kernel⟩,
   ⟨{ up with pwr := { timerHit := true } }, by decide +kernel⟩,
   ⟨up, by decide +kernel⟩,
   ⟨up, by decide +kernel⟩,
   ⟨up, by decide +kernel⟩,
   ⟨{ up with now := 9, pwr := { pllOff := some 5 } }, 5, by decide +kernel⟩,
   ⟨{ up with pwr := { state := .doze } }, by decide +kernel⟩⟩

/-- Its hypotheses can be met: `Obligations.SurvivalAndDumpDisable`. -/
theorem witness_survivalAndDumpDisable :
    (∃ (s : State), s.dmp.survDue = true ∧ (s.line 17).level = true ∧ s.dmp.surviving = false ∧ s.fastUp = true ∧ s.boot.stage = 4 ∧
      s.dmp.survArmed = false ∧ s.survDumping = false ∧ s.inService 173 = false ∧ (∀ p ∈ s.hub.free, p.1 < s.hub.nextFree)) ∧
    (∃ (s : State) (e : Nat) (w : Work), e < 4 ∧ (s.se e).work = some w ∧ s.lgWork w = true ∧ s.dmp.surviving = true ∧ s.dmp.lgBegun = false ∧
      s.fastRun = true) ∧
    (∃ (s : State), s.dmp.surviving = true ∧ (s.line 17).level = false) ∧
    (∃ (s : State), (s.dmp.surviving = false ∨ ∀ e < 4, ∀ (w : Work), (s.se e).work = some w → s.lgWork w = false)) ∧
    (∃ (s : State), s.dmp.surviving = false) ∧
    (∃ (s : State), s.serves 49152 = true ∧ s.dmp.enable = true ∧ (∀ p ∈ s.hub.free, p.1 < s.hub.nextFree)) ∧
    (∃ (s : State), s.serves 49152 = true ∧ s.dmp.enable = false) :=
  ⟨⟨({ up with dmp := { survDue := true } }).setLine 17 { level := true }, by decide +kernel⟩,
   ⟨{ up with dmp := { surviving := true }, hub := { engines := [(3, { work := some (.free 0) })], free := [(0, { desc := BitVec.ofNat 512 lgOpcode, begun := true, stage := 1 })], nextFree := 1 } },
     3, .free 0, by decide +kernel⟩,
   ⟨{ up with dmp := { surviving := true } }, by decide +kernel⟩,
   ⟨up, Or.inl rfl⟩,
   ⟨up, by decide +kernel⟩,
   ⟨up.setCtx 4 { state := .suspended }, by decide +kernel⟩,
   ⟨{ up with dmp := { enable := false } }, by decide +kernel⟩⟩

/-- Its hypotheses can be met: `Obligations.ResetsStartOver`. -/
theorem witness_resetsStartOver :
    (∃ (s : State), s.lcs.scrapReboot = false ∧ s.boot.recoveryReboot = false) ∧
    (∃ (s : State) (straps : Nat), s.pins.inPor = true ∧ straps < 16) ∧
    (∃ (s : State), s.pins.inPor = false) :=
  ⟨⟨up, by decide +kernel⟩,
   ⟨{ up with pins := { inPor := true } }, 15, by decide +kernel⟩,
   ⟨up, by decide +kernel⟩⟩

/-- Its hypotheses can be met: `Obligations.RebootsAndNonces`. -/
theorem witness_rebootsAndNonces :
    (∃ (s : State), s.serves 8460 = true ∧ s.boot.due = none ∧ (s.boot.stage = 4 ∨ s.boot.stage = 5) ∧ s.lcsRunning = false) ∧
    (∃ (s : State), s.serves 8460 = true ∧ s.boot.due = none ∧ (s.boot.stage = 4 ∨ s.boot.stage = 5) ∧ s.lcsRunning = true) ∧
    (∃ (s : State), s.serves 8224 = true) :=
  ⟨⟨up, by decide +kernel⟩,
   ⟨{ up with hub := { coreQ := [(none, [0, 1])] } }, by decide +kernel⟩,
   ⟨up, by decide +kernel⟩⟩

set_option maxRecDepth 100000 in
/-- Its hypotheses can be met: `Obligations.BootsAndNorHousekeeping`. -/
theorem witness_bootsAndNorHousekeeping :
    (∃ (s : State) (cause : Nat), s.boot.due = some cause ∧ s.bootReady = false) ∧
    (∃ (s : State) (cause : Nat), s.boot.due = some cause ∧ s.bootReady = true ∧ s.boot.fused = false ∧ s.fuses.decode = 6) ∧
    (∃ (s : State) (cause : Nat), s.boot.due = some cause ∧ s.bootReady = true ∧ s.boot.fused = false ∧ s.fuses.decode ≠ 6) ∧
    (∃ (s : State) (cause : Nat), s.boot.due = some cause ∧ s.bootReady = true ∧ s.boot.fused = true ∧ s.pwr.pllLock = false) ∧
    (∃ (s : State) (cause : Nat), s.boot.due = some cause ∧ s.bootReady = true ∧ s.boot.fused = true ∧ s.pwr.pllLock = true ∧ s.boot.stage = 0) ∧
    (∃ (s : State) (v : BootView) (cause : Nat), s.boot.due = some cause ∧ s.bootReady = true ∧ s.boot.fused = true ∧ s.pwr.pllLock = true ∧
      s.boot.stage = 1 ∧ s.slotFail v.norOk s.boot.first ≠ 0) ∧
    (∃ (s : State) (v : BootView) (cause : Nat), s.boot.due = some cause ∧ s.bootReady = true ∧ s.boot.fused = true ∧ s.pwr.pllLock = true ∧
      s.boot.stage = 2 ∧ s.slotFail v.norOk (1 - s.boot.first) ≠ 0) ∧
    (∃ (s : State) (cause : Nat), s.boot.due = some cause ∧ s.bootReady = true ∧ s.boot.fused = true ∧ s.pwr.pllLock = true ∧ s.boot.stage = 3) ∧
    (∃ (s : State), s.boot.stage = 4 ∧ (s.boot.countWritten = true ∨ s.secretPresent = false ∨ s.fastRun = false ∨ s.dmp.surviving = true)) ∧
    (∃ (s : State) (i : Nat), (s.boot.stage = 4 ∧ s.fastRun = true ∧ s.dmp.surviving = false ∧ s.boot.countWritten = false ∧ s.secretPresent = true) ∧
      (i = (Option.map (fun j => (j + 1) % 128) s.bcNewest).getD 0) ∧ isErased (s.bcRecord i) = true) ∧
    (∃ (s : State) (i : Nat), s.boot.stage = 4 ∧ s.fastUp = true ∧ s.dmp.surviving = false ∧ s.lgNewest = some i) :=
  ⟨⟨{ booting 0 with boot := { due := some 0, tick0 := 1 } }, 0, by decide +kernel⟩,
   ⟨{ booting 0 with boot := { due := some 0 }, fuses := { groups := (List.range 6).map (fun k => (k + 1, 0xFFF)) } }, 0, by decide +kernel⟩,
   ⟨{ booting 0 with boot := { due := some 0 } }, 0, by decide +kernel⟩,
   ⟨{ booting 1 with pwr := {} }, 0, by decide +kernel⟩,
   ⟨booting 0, 0, by decide +kernel⟩,
   ⟨booting 1, ⟨true, 2⟩, 0, by decide +kernel⟩,
   ⟨booting 2, ⟨true, 2⟩, 0, by decide +kernel⟩,
   ⟨booting 3, 0, by decide +kernel⟩,
   ⟨up, by decide +kernel⟩,
   ⟨{ up with lcs := { state := 1 } }, _, by decide +kernel, rfl, isErased_nil _ _ rfl⟩,
   ⟨(up.norWrite 0x10FE00 (leBytes 4 0x5053474C)).norWrite 0x10FFFC (leBytes 4 4232359407), 127, by decide +kernel⟩⟩

/-- Its hypotheses can be met: `Obligations.LifecycleRequestsBurnOrLeave`. -/
theorem witness_lifecycleRequestsBurnOrLeave :
    (∃ (s : State) (ow : Option Work) (src : Nat) (d : List Nat), s.coreHead 0 = some (ow, src, d) ∧ s.fastRun = true ∧ s.lcs.trans = none ∧
      s.lcsCheck ow { raw := d } ≠ 1) ∧
    (∃ (s : State) (v : LcsView) (ow : Option Work) (src : Nat) (d : List Nat) (r : LcsTrans), s.coreHead 0 = some (ow, src, d) ∧ s.fastRun = true ∧
      s.lcs.trans = some r ∧ (r.target = 6 → r.wiped = true) ∧ (s.line 17).level = false ∧ v.cut = none ∧ v.stuck = [] ∧ (∀ b ∈ r.left, (b.1 = 0 →
      b.2 < 512) ∧ (b.1 = 1 → b.2 < 384))) :=
  ⟨⟨{ up with hub := { coreQ := [(none, [0, 1])] } }, none, 1, [], by decide +kernel⟩,
   ⟨{ up with hub := { coreQ := [(none, [0, 1])] }, lcs := { trans := some { from_ := 0, target := 1, left := [(0, 511), (1, 383), (3, 0)] } } },
     lcsView, none, 1, [], { from_ := 0, target := 1, left := [(0, 511), (1, 383), (3, 0)] }, by decide +kernel⟩⟩

/-- Its hypotheses can be met: `Obligations.CertificatesInstallOnTheirChecks`. -/
theorem witness_certificatesInstallOnTheirChecks :
    (∃ (s : State) (ow : Option Work) (src : Nat) (d : List Nat), s.coreHead 1 = some (ow, src, d) ∧ s.fastRun = true ∧ s.certCheck d ≠ 1) :=
  ⟨{ up with hub := { coreQ := [(none, [1, 1])] } }, none, 1, [], by decide +kernel⟩

/-- Its hypotheses can be met: `Obligations.HubCoreRequestsAndWipe`. -/
theorem witness_hubCoreRequestsAndWipe :
    (∃ (s : State) (w : Work) (i : Item) (src : Nat) (d : List Nat), (s.item? w = some i ∧ i.wait = Wait.core ∧ s.fastRun = true ∧
      s.coreHead 2 = some (some w, src, d)) ∧ (∀ (n : Nat), w = Work.ring n → n < 512)) ∧
    (∃ (s : State) (w : Work) (i : Item) (src : Nat) (d : List Nat), (s.item? w = some i ∧ i.wait = Wait.core ∧ s.fastRun = true ∧
      s.coreHead 3 = some (some w, src, d)) ∧ (∀ (n : Nat), w = Work.ring n → n < 512)) ∧
    (∃ (s : State) (w : Work) (i : Item) (src : Nat) (d : List Nat), (s.item? w = some i ∧ i.wait = Wait.core ∧ s.fastRun = true ∧
      s.coreHead 4 = some (some w, src, d)) ∧ (∀ (n : Nat), w = Work.ring n → n < 512)) ∧
    (∃ (s : State) (w : Work) (i : Item), (s.item? w = some i ∧ i.wait = Wait.core ∧ (s.hub.coreQ = [] ∨ s.fastRun = false)) ∧ (∀ (n : Nat),
      w = Work.ring n → n < 512)) ∧
    (∃ (s : State), s.lcs.wipePending = true ∧ s.lcs.state = 5 ∧ s.boot.stage = 4 ∧ s.fastRun = true ∧ (s.line 17).level = false) ∧
    (∃ (s : State), (s.lcs.wipePending = false ∨ s.fastRun = false ∨ (s.line 17).level = true)) :=
  ⟨⟨{ inRing { desc := 0x62, wait := .core } with hub := { coreQ := [(some (.ring 0), [2, 0, 1])] } }, .ring 0, { desc := 0x62, wait := .core }, 0,
     [1], by decide +kernel, by rintro n ⟨⟩; decide +kernel⟩,
   ⟨{ inRing { desc := 0x66, wait := .core } with hub := { coreQ := [(some (.ring 0), [3, 0])] } }, .ring 0, { desc := 0x66, wait := .core }, 0, [],
     by decide +kernel, by rintro n ⟨⟩; decide +kernel⟩,
   ⟨{ inRing { desc := 0x50, wait := .core } with hub := { coreQ := [(some (.ring 0), [4, 0])] } }, .ring 0, { desc := 0x50, wait := .core }, 0, [],
     by decide +kernel, by rintro n ⟨⟩; decide +kernel⟩,
   ⟨inRing { desc := 0x50, wait := .core }, .ring 0, { desc := 0x50, wait := .core }, by decide +kernel, by rintro n ⟨⟩; decide +kernel⟩,
   ⟨{ up with lcs := { state := 5, wipePending := true } }, by decide +kernel⟩,
   ⟨up, by decide +kernel⟩⟩

/-- Its hypotheses can be met: `Obligations.ArbitrationFollowsItsOrder`. -/
theorem witness_arbitrationFollowsItsOrder :
    (∃ (s : State), s.dmp.surviving = false ∧ s.eligible Work.scan = true ∧ (s.hub.guard = true ∨ s.guardDue = true)) ∧
    (∃ (s : State) (n : Nat), s.dmp.surviving = false ∧ n < 16 ∧ s.hub.guard = false ∧ s.guardDue = false ∧ s.eligible (Work.ring n) = true ∧
      (∀ m < n, s.eligible (Work.ring m) = false)) ∧
    (∃ (s : State), s.dmp.surviving = false ∧ (∀ m < 16, s.eligible (Work.ring m) = false) ∧ s.eligible Work.scan = true) ∧
    (∃ (s : State) (n : Nat), s.dmp.surviving = false ∧ (∀ m < 16, s.eligible (Work.ring m) = false) ∧ s.eligible Work.scan = false ∧
      s.bulkFloor = false ∧ 16 ≤ n ∧ n < 448 ∧ 16 ≤ s.hub.rr ∧ s.hub.rr < 448 ∧ s.eligible (Work.ring n) = true ∧ (∀ (m : Nat), 16 ≤ m → m < 448 →
      m ≠ n → s.eligible (Work.ring m) = false)) ∧
    (∃ (s : State) (n : Nat), s.dmp.surviving = false ∧ (∀ m < 448, s.eligible (Work.ring m) = false) ∧ s.eligible Work.scan = false ∧
      s.hub.free = [] ∧ 448 ≤ n ∧ n < 512 ∧ s.eligible (Work.ring n) = true ∧ (∀ (m : Nat), 448 ≤ m → m < 512 → m ≠ n →
      s.eligible (Work.ring m) = false)) :=
  ⟨⟨{ up with hub := { guard := true }, scan := { item := some { desc := 0 } } }, by decide +kernel⟩,
   ⟨up.setRing 15 { state := .active, item := some { desc := 0 } }, 15, by decide +kernel⟩,
   ⟨{ up with scan := { item := some { desc := 0 } } }, by decide +kernel⟩,
   ⟨{ up with hub := { rr := 447, window := [true, true] } }.setRing 447 { state := .active, item := some { desc := 0 } }, 447, by decide +kernel⟩,
   ⟨up.setRing 511 { state := .active, item := some { desc := 0 } }, 511, by decide +kernel⟩⟩

/-- Its hypotheses can be met: `Obligations.DecisionsYieldsAndTheGuard`. -/
theorem witness_decisionsYieldsAndTheGuard :
    (∃ (s : State) (e : Nat) (n : Nat) (i : Item), e < 4 ∧ n < 512 ∧ s.fastUp = true ∧ (s.se e).work = none ∧ (∀ j < e, (s.se j).work ≠ none) ∧
      s.pick = some (Work.ring n) ∧ (s.ring n).item = some i ∧ i.begun = true ∧ (s.ring n).state = RingState.active) ∧
    (∃ (s : State) (e : Nat) (n : Nat) (i : Item), e < 4 ∧ n < 512 ∧ s.fastUp = true ∧ (s.se e).work = none ∧ (∀ j < e, (s.se j).work ≠ none) ∧
      s.pick = some (Work.ring n) ∧ (s.ring n).item = some i ∧ i.begun = false ∧ descOdd i.desc = false ∧ s.storeOdd i.desc = false ∧
      opcodes.contains (opcodeOf i.desc) = true ∧ s.opcodeRefused i.desc = false ∧ s.judge (Work.ring n) i.desc = none ∧
      s.contentRefused i.desc = false) ∧
    (∃ (s : State) (e : Nat) (n : Nat) (i : Item) (x : Nat × Nat × Nat), e < 4 ∧ n < 512 ∧ s.fastUp = true ∧ (s.se e).work = none ∧ (∀ j < e,
      (s.se j).work ≠ none) ∧ s.pick = some (Work.ring n) ∧ (s.ring n).item = some i ∧ i.begun = false ∧ descOdd i.desc = false ∧
      s.storeOdd i.desc = false ∧ opcodes.contains (opcodeOf i.desc) = true ∧ s.opcodeRefused i.desc = false ∧ s.judge (Work.ring n) i.desc = some x) ∧
    (∃ (s : State) (e : Nat) (b : Nat) (since : Nat) (w : Work) (i : Item) (o : Op) (rest : List Op), e < 4 ∧ (s.se e).work = some w ∧
      (s.se e).waiting = some (b, since) ∧ since + (s.se e).yieldWait.min 1936 ≤ s.now ∧ s.fastRun = true ∧ s.item? w = some i ∧ i.todo = o :: rest ∧
      (s.issueOp w o).2 ≠ none) ∧
    (∃ (s : State) (e : Nat) (b : Nat) (since : Nat) (w : Work), e < 4 ∧ (s.se e).work = some w ∧ (s.se e).waiting = some (b, since) ∧
      s.now < since + (s.se e).yieldWait.min 1936 ∧ s.now < (s.se e).started + 1936) ∧
    (∃ (s : State) (e : Nat), e < 4 ∧ s.fastRun = false) ∧
    (∃ (s : State) (e : Nat), e < 4 ∧ s.guardDue = true) ∧
    (∃ (s : State) (e : Nat), e < 4 ∧ s.guardDue = false) :=
  ⟨⟨{ inRing { desc := 0, begun := true } with hub := { engines := [(0, { work := some .scan }), (1, { work := some .scan }), (2, { work := some .scan })] } },
     3, 0, { desc := 0, begun := true }, by decide +kernel⟩,
   ⟨{ inRing { desc := 0 } with hub := { engines := [(0, { work := some .scan }), (1, { work := some .scan }), (2, { work := some .scan })] } }, 3, 0,
     { desc := 0 }, by decide +kernel⟩,
   ⟨{ inRing { desc := 0x12 } with lcs := { state := 4 }, hub := { engines := [(0, { work := some .scan }), (1, { work := some .scan }), (2, { work := some .scan })] } },
     3, 0, { desc := 0x12 }, (0, 2, 1), by decide +kernel⟩,
   ⟨waitingCore, 3, 5, 0, .ring 0, { desc := 0x62, todo := [{ ix := 0, k := .core [2, 0] }] }, { ix := 0, k := .core [2, 0] }, [], by decide +kernel⟩,
   ⟨{ waitingCore with now := 255 }, 3, 5, 0, .ring 0, by decide +kernel⟩,
   ⟨{ up with pwr := {} }, 3, by decide +kernel⟩,
   ⟨{ up with now := 8000, scan := { item := some { desc := 0 } } }, 3, by decide +kernel⟩,
   ⟨up, 3, by decide +kernel⟩⟩

/-- Its hypotheses can be met: `Obligations.TimedWaitsEnd`. -/
theorem witness_timedWaitsEnd :
    (∃ (s : State) (n : Nat) (i : Item) (c : Instr), s.item? (workOf n) = some i ∧ (c = Instr.waitPoll n ∧ opcodeOf i.desc = 1 ∧ i.wait = Wait.cond ∧
      dbits i.desc 16 0 1 = 1 ∧ tget 0 i.x 3 ≤ s.now ∧ i.late s.now = false ∨ (c = Instr.smapEpochRetry n ∧ opcodeOf i.desc = 50 ∧ i.stage = 103 ∧
      s.fastClock = true ∧ ∃ t, i.wait = Wait.ctl (some t) ∧ t ≤ s.now) ∨ (c = Instr.discoverSettle n ∧ opcodeOf i.desc = 80 ∧ i.stage = 3 ∧ ∃ t,
      i.wait = Wait.ctl (some t) ∧ t ≤ s.now) ∨ c = Instr.snapAtPassed n ∧ opcodeOf i.desc = 67 ∧ i.stage = 2 ∧ i.wait = Wait.ctl none ∧
      db i.desc 40 8 < s.time ∨ c = Instr.traceDrainTimeout n ∧ opcodeOf i.desc = 66 ∧ i.wait = Wait.cond ∧ i.late s.now = true)) ∧
    (∃ (s : State) (n : Nat) (i : Item) (c : Instr), s.item? (workOf n) = some i ∧ (c = Instr.waitPoll n ∧ opcodeOf i.desc = 1 ∧ i.wait = Wait.cond ∧
      dbits i.desc 16 0 1 = 1 ∧ tget 0 i.x 3 ≤ s.now ∧ i.late s.now = false ∨ (c = Instr.smapEpochRetry n ∧ opcodeOf i.desc = 50 ∧ i.stage = 103 ∧
      s.fastClock = true ∧ ∃ t, i.wait = Wait.ctl (some t) ∧ t ≤ s.now) ∨ (c = Instr.discoverSettle n ∧ opcodeOf i.desc = 80 ∧ i.stage = 3 ∧ ∃ t,
      i.wait = Wait.ctl (some t) ∧ t ≤ s.now) ∨ c = Instr.snapAtPassed n ∧ opcodeOf i.desc = 67 ∧ i.stage = 2 ∧ i.wait = Wait.ctl none ∧
      db i.desc 40 8 < s.time ∨ c = Instr.traceDrainTimeout n ∧ opcodeOf i.desc = 66 ∧ i.wait = Wait.cond ∧ i.late s.now = true)) ∧
    (∃ (s : State) (n : Nat) (i : Item) (c : Instr), s.item? (workOf n) = some i ∧ (c = Instr.waitPoll n ∧ opcodeOf i.desc = 1 ∧ i.wait = Wait.cond ∧
      dbits i.desc 16 0 1 = 1 ∧ tget 0 i.x 3 ≤ s.now ∧ i.late s.now = false ∨ (c = Instr.smapEpochRetry n ∧ opcodeOf i.desc = 50 ∧ i.stage = 103 ∧
      s.fastClock = true ∧ ∃ t, i.wait = Wait.ctl (some t) ∧ t ≤ s.now) ∨ (c = Instr.discoverSettle n ∧ opcodeOf i.desc = 80 ∧ i.stage = 3 ∧ ∃ t,
      i.wait = Wait.ctl (some t) ∧ t ≤ s.now) ∨ c = Instr.snapAtPassed n ∧ opcodeOf i.desc = 67 ∧ i.stage = 2 ∧ i.wait = Wait.ctl none ∧
      db i.desc 40 8 < s.time ∨ c = Instr.traceDrainTimeout n ∧ opcodeOf i.desc = 66 ∧ i.wait = Wait.cond ∧ i.late s.now = true)) ∧
    (∃ (s : State) (n : Nat) (i : Item) (c : Instr), s.item? (workOf n) = some i ∧ (c = Instr.waitPoll n ∧ opcodeOf i.desc = 1 ∧ i.wait = Wait.cond ∧
      dbits i.desc 16 0 1 = 1 ∧ tget 0 i.x 3 ≤ s.now ∧ i.late s.now = false ∨ (c = Instr.smapEpochRetry n ∧ opcodeOf i.desc = 50 ∧ i.stage = 103 ∧
      s.fastClock = true ∧ ∃ t, i.wait = Wait.ctl (some t) ∧ t ≤ s.now) ∨ (c = Instr.discoverSettle n ∧ opcodeOf i.desc = 80 ∧ i.stage = 3 ∧ ∃ t,
      i.wait = Wait.ctl (some t) ∧ t ≤ s.now) ∨ c = Instr.snapAtPassed n ∧ opcodeOf i.desc = 67 ∧ i.stage = 2 ∧ i.wait = Wait.ctl none ∧
      db i.desc 40 8 < s.time ∨ c = Instr.traceDrainTimeout n ∧ opcodeOf i.desc = 66 ∧ i.wait = Wait.cond ∧ i.late s.now = true)) ∧
    (∃ (s : State) (n : Nat) (i : Item) (c : Instr), s.item? (workOf n) = some i ∧ (c = Instr.waitPoll n ∧ opcodeOf i.desc = 1 ∧ i.wait = Wait.cond ∧
      dbits i.desc 16 0 1 = 1 ∧ tget 0 i.x 3 ≤ s.now ∧ i.late s.now = false ∨ (c = Instr.smapEpochRetry n ∧ opcodeOf i.desc = 50 ∧ i.stage = 103 ∧
      s.fastClock = true ∧ ∃ t, i.wait = Wait.ctl (some t) ∧ t ≤ s.now) ∨ (c = Instr.discoverSettle n ∧ opcodeOf i.desc = 80 ∧ i.stage = 3 ∧ ∃ t,
      i.wait = Wait.ctl (some t) ∧ t ≤ s.now) ∨ c = Instr.snapAtPassed n ∧ opcodeOf i.desc = 67 ∧ i.stage = 2 ∧ i.wait = Wait.ctl none ∧
      db i.desc 40 8 < s.time ∨ c = Instr.traceDrainTimeout n ∧ opcodeOf i.desc = 66 ∧ i.wait = Wait.cond ∧ i.late s.now = true)) ∧
    (∃ (s : State) (n : Nat) (i : Item) (c : Instr), s.item? (workOf n) = some i ∧ (c = Instr.waitTimeout n ∧ opcodeOf i.desc = 1 ∨
      c = Instr.fenceTimeout n ∧ opcodeOf i.desc = 3 ∨ c = Instr.traceStopTimeout n ∧ opcodeOf i.desc = 65) ∧ i.wait = Wait.cond ∧
      i.over? s.now = true) ∧
    (∃ (s : State) (n : Nat) (i : Item) (c : Instr), s.item? (workOf n) = some i ∧ (c = Instr.waitTimeout n ∧ opcodeOf i.desc = 1 ∨
      c = Instr.fenceTimeout n ∧ opcodeOf i.desc = 3 ∨ c = Instr.traceStopTimeout n ∧ opcodeOf i.desc = 65) ∧ i.wait = Wait.cond ∧
      i.over? s.now = true) ∧
    (∃ (s : State) (n : Nat) (i : Item) (c : Instr), s.item? (workOf n) = some i ∧ (c = Instr.waitTimeout n ∧ opcodeOf i.desc = 1 ∨
      c = Instr.fenceTimeout n ∧ opcodeOf i.desc = 3 ∨ c = Instr.traceStopTimeout n ∧ opcodeOf i.desc = 65) ∧ i.wait = Wait.cond ∧
      i.over? s.now = true) ∧
    (∃ (s : State) (n : Nat) (i : Item) (c : Instr), s.item? (workOf n) = some i ∧ (c = Instr.waitTimeout n ∨ c = Instr.fenceTimeout n ∨
      c = Instr.traceStopTimeout n ∨ c = Instr.traceDrainTimeout n) ∧ (i.late s.now = false ∨ c ≠ Instr.traceDrainTimeout n ∧ i.over? s.now = false)) :=
  ⟨⟨inRing (polled (1 + 2 ^ 128) .cond), 0, polled (1 + 2 ^ 128) .cond, .waitPoll 0, by decide +kernel, Or.inl (by decide +kernel)⟩,
   ⟨inRing { polled 0x32 (.ctl (some 0)) with stage := 103 }, 0, { polled 0x32 (.ctl (some 0)) with stage := 103 }, .smapEpochRetry 0,
     by decide +kernel, Or.inr (Or.inl ⟨rfl, by decide +kernel, rfl, by decide +kernel, 0, rfl, by decide⟩)⟩,
   ⟨inRing { polled 0x50 (.ctl (some 0)) with stage := 3 }, 0, { polled 0x50 (.ctl (some 0)) with stage := 3 }, .discoverSettle 0, by decide +kernel,
     Or.inr (Or.inr (Or.inl ⟨rfl, by decide +kernel, rfl, 0, rfl, by decide⟩))⟩,
   ⟨{ inRing { polled 0x43 (.ctl none) with stage := 2 } with now := 1 }, 0, { polled 0x43 (.ctl none) with stage := 2 }, .snapAtPassed 0,
     by decide +kernel, Or.inr (Or.inr (Or.inr (Or.inl (by decide +kernel))))⟩,
   ⟨{ inRing (polled (0x42 + 2 ^ 160) .cond) with now := 1000 }, 0, polled (0x42 + 2 ^ 160) .cond, .traceDrainTimeout 0, by decide +kernel,
     Or.inr (Or.inr (Or.inr (Or.inr (by decide +kernel))))⟩,
   ⟨{ inRing (polled (1 + 2 ^ 160) .cond) with now := 1001 }, 0, polled (1 + 2 ^ 160) .cond, .waitTimeout 0, by decide +kernel⟩,
   ⟨{ inRing (polled (3 + 2 ^ 160) .cond) with now := 1001 }, 0, polled (3 + 2 ^ 160) .cond, .fenceTimeout 0, by decide +kernel⟩,
   ⟨{ inRing (polled (0x41 + 2 ^ 160) .cond) with now := 1001 }, 0, polled (0x41 + 2 ^ 160) .cond, .traceStopTimeout 0, by decide +kernel⟩,
   ⟨{ inRing (polled (1 + 2 ^ 160) .cond) with now := 999 }, 0, polled (1 + 2 ^ 160) .cond, .waitTimeout 0, by decide +kernel⟩⟩

/-- Its hypotheses can be met: `Obligations.StepsAndMonitorExchangesPoll`. -/
theorem witness_stepsAndMonitorExchangesPoll :
    (∃ (s : State) (n : Nat) (at_ : Nat) (i : Item), s.item? (workOf n) = some i ∧ i.wait = Wait.ctl (some at_) ∧ at_ ≤ s.now ∧ s.fastClock = true ∧
      (s.chain (stepUnit i.desc / 1024 / 16)).tagFree (workOf n).urgent = true ∧ s.issueStatus (stepUnit i.desc / 1024) = none ∧
      (s.chip (stepUnit i.desc / 1024)).inReset = false ∧ opcodeOf i.desc = 20 ∧ tget 0 i.x 0 = 0 ∧ stepUnit i.desc % 512 < 32 ∧
      ((s.chip (stepUnit i.desc / 1024)).core (stepUnit i.desc % 512)).state = CoreState.monitor) ∧
    (∃ (s : State) (n : Nat) (at_ : Nat) (i : Item), s.item? (workOf n) = some i ∧ i.wait = Wait.ctl (some at_) ∧ at_ ≤ s.now ∧ s.fastClock = true ∧
      (s.chain (stepUnit i.desc / 1024 / 16)).tagFree (workOf n).urgent = true ∧ s.issueStatus (stepUnit i.desc / 1024) = none ∧
      (s.chip (stepUnit i.desc / 1024)).inReset = false ∧ opcodeOf i.desc = 20 ∧ tget 0 i.x 0 = 0 ∧
      ((s.chip (stepUnit i.desc / 1024)).core (stepUnit i.desc % 512)).state ≠ CoreState.monitor) ∧
    (∃ (s : State) (n : Nat) (at_ : Nat) (i : Item), s.item? (workOf n) = some i ∧ i.wait = Wait.ctl (some at_) ∧ at_ ≤ s.now ∧ s.fastClock = true ∧
      (s.chain (stepUnit i.desc / 1024 / 16)).tagFree (workOf n).urgent = true ∧ s.issueStatus (stepUnit i.desc / 1024) = none ∧
      (s.chip (stepUnit i.desc / 1024)).inReset = false ∧ opcodeOf i.desc = 20 ∧ tget 0 i.x 0 ≠ 0 ∧
      ((s.chip (stepUnit i.desc / 1024)).core (stepUnit i.desc % 512)).state = CoreState.monitor) ∧
    (∃ (s : State) (n : Nat) (at_ : Nat) (i : Item), s.item? (workOf n) = some i ∧ i.wait = Wait.ctl (some at_) ∧ at_ ≤ s.now ∧ s.fastClock = true ∧
      (s.chain (stepUnit i.desc / 1024 / 16)).tagFree (workOf n).urgent = true ∧ s.issueStatus (stepUnit i.desc / 1024) = none ∧
      (s.chip (stepUnit i.desc / 1024)).inReset = false ∧ opcodeOf i.desc = 21 ∧ tget 0 i.x 0 ≠ 0 ∧
      ((s.chip (stepUnit i.desc / 1024)).eng (stepUnit i.desc % 512)).state = EngState.muffled) ∧
    (∃ (s : State) (n : Nat) (at_ : Nat) (f : Nat) (k : Nat) (i : Item), s.item? (workOf n) = some i ∧ i.wait = Wait.ctl (some at_) ∧ at_ ≤ s.now ∧
      s.fastClock = true ∧ tget 0 i.x 29 = 1 ∧ f = tget 0 i.x 20 / 1024 ∧ k = tget 0 i.x 20 % 512 ∧ s.issueStatus f = none ∧
      (s.chip f).inReset = false ∧ f < 128 ∧ (s.chain (f / 16)).tagFree (workOf n).urgent = true ∧ ((s.chip f).core k).wild = false ∧
      ((s.chip f).core k).odd ≠ 1 ∧ (s.chip f).mbxOpen = false ∧ tget 0 i.x 26 ≠ 0 ∧ ((s.chip f).core k).outFull = true ∧ k < 32 ∧
      tget 0 i.x 22 = tget 0 i.x 25 + 1) ∧
    (∃ (s : State) (n : Nat) (at_ : Nat) (f : Nat) (k : Nat) (i : Item), s.item? (workOf n) = some i ∧ i.wait = Wait.ctl (some at_) ∧ at_ ≤ s.now ∧
      s.fastClock = true ∧ tget 0 i.x 29 = 1 ∧ f = tget 0 i.x 20 / 1024 ∧ k = tget 0 i.x 20 % 512 ∧ s.issueStatus f = none ∧
      (s.chip f).inReset = false ∧ f < 128 ∧ (s.chain (f / 16)).tagFree (workOf n).urgent = true ∧ ((s.chip f).core k).wild = false ∧
      ((s.chip f).core k).odd ≠ 1 ∧ (s.chip f).mbxOpen = false ∧ tget 0 i.x 26 = 0 ∧ tget 0 i.x 25 = 0 ∧
      ((s.chip f).core k).state ≠ CoreState.monitor) ∧
    (∃ (s : State) (n : Nat) (at_ : Nat) (f : Nat) (k : Nat) (i : Item), s.item? (workOf n) = some i ∧ i.wait = Wait.ctl (some at_) ∧ at_ ≤ s.now ∧
      s.fastClock = true ∧ tget 0 i.x 29 = 1 ∧ f = tget 0 i.x 20 / 1024 ∧ k = tget 0 i.x 20 % 512 ∧ s.issueStatus f = none ∧
      (s.chip f).inReset = false ∧ f < 128 ∧ (s.chain (f / 16)).tagFree (workOf n).urgent = true ∧ ((s.chip f).core k).wild = false ∧
      ((s.chip f).core k).odd ≠ 1 ∧ (s.chip f).mbxOpen = false ∧ tget 0 i.x 26 ≠ 0 ∧ ((s.chip f).core k).outFull = false ∧ tget 0 i.x 27 ≤ s.now) ∧
    (∃ (s : State) (n : Nat) (at_ : Nat) (f : Nat) (k : Nat) (i : Item), s.item? (workOf n) = some i ∧ i.wait = Wait.ctl (some at_) ∧ at_ ≤ s.now ∧
      s.fastClock = true ∧ tget 0 i.x 29 = 1 ∧ f = tget 0 i.x 20 / 1024 ∧ k = tget 0 i.x 20 % 512 ∧ s.issueStatus f = none ∧
      (s.chip f).inReset = false ∧ f < 128 ∧ (s.chain (f / 16)).tagFree (workOf n).urgent = true ∧ ((s.chip f).core k).wild = false ∧
      ((s.chip f).core k).odd ≠ 1 ∧ (s.chip f).mbxOpen = false ∧ tget 0 i.x 26 ≠ 0 ∧ ((s.chip f).core k).outFull = false ∧ s.now < tget 0 i.x 27) :=
  ⟨⟨onCore (stepItem []) { state := .monitor }, 0, 0, stepItem [], by decide +kernel⟩,
   ⟨onCore (stepItem []) {}, 0, 0, stepItem [], by decide +kernel⟩,
   ⟨onCore (stepItem [(0, 1)]) { state := .monitor }, 0, 0, stepItem [(0, 1)], by decide +kernel⟩,
   ⟨((inRing { polled (0x15 + 131071 * 2 ^ 128) (.ctl (some 0)) with x := [(0, 1)] }).setChain 7 whole).setChip 127 (({} : Chip).setEng 511 { state := .muffled }),
     0, 0, { polled (0x15 + 131071 * 2 ^ 128) (.ctl (some 0)) with x := [(0, 1)] }, by decide +kernel⟩,
   ⟨onCore (stepItem [(20, 130079), (22, 1), (26, 1), (29, 1)]) { state := .monitor, outFull := true }, 0, 0, 127, 31,
     stepItem [(20, 130079), (22, 1), (26, 1), (29, 1)], by decide +kernel⟩,
   ⟨onCore (stepItem [(20, 130079), (29, 1)]) {}, 0, 0, 127, 31, stepItem [(20, 130079), (29, 1)], by decide +kernel⟩,
   ⟨onCore (stepItem [(20, 130079), (26, 1), (29, 1)]) { state := .monitor }, 0, 0, 127, 31, stepItem [(20, 130079), (26, 1), (29, 1)],
     by decide +kernel⟩,
   ⟨onCore (stepItem [(20, 130079), (26, 1), (27, 1), (29, 1)]) { state := .monitor }, 0, 0, 127, 31,
     stepItem [(20, 130079), (26, 1), (27, 1), (29, 1)], by decide +kernel⟩⟩

/-- Its hypotheses can be met: `Obligations.CutControllersPoll`. -/
theorem witness_cutControllersPoll :
    (∃ (s : State) (f : Nat) (x : CutChip), s.fastClock = true ∧ (s.chain (f / 16)).tagFree true = true ∧ s.cut.phase = 1 ∧ s.cut.chips = [x] ∧
      x.f = f ∧ x.checked = false ∧ x.due ≤ s.time ∧ s.ctlRead f (wdaBase + 512) 36 = none) ∧
    (∃ (s : State) (f : Nat) (x : CutChip) (p : List Nat), s.fastClock = true ∧ (s.chain (f / 16)).tagFree true = true ∧ s.cut.phase = 1 ∧
      s.cut.chips = [x] ∧ x.f = f ∧ x.checked = false ∧ x.due ≤ s.time ∧ s.ctlRead f (wdaBase + 512) 36 = some p) ∧
    (∃ (s : State) (f : Nat) (x : CutChip) (p : List Nat), s.fastClock = true ∧ (s.chain (f / 16)).tagFree true = true ∧ s.cut.phase = 2 ∧
      s.cut.chips = [x] ∧ x.f = f ∧ x.draining = true ∧ s.cut.pollDue ≤ s.time ∧ s.ctlRead f (wdaBase + 512) 36 = some p) ∧
    (∃ (s : State) (f : Nat) (x : CutChip), s.fastClock = true ∧ (s.chain (f / 16)).tagFree true = true ∧ s.cut.phase = 2 ∧ s.cut.forced = false ∧
      s.cut.ref + 1000 * s.cut.drainUs ≤ s.time ∧ s.time < s.cut.pollDue ∧ s.cut.chips = [x] ∧ x.f = f ∧ x.draining = true ∧ f < 128 ∧
      s.addressable f = true ∧ (s.chip f).inReset = false) ∧
    (∃ (s : State) (f : Nat), s.fastClock = true ∧ (s.chain (f / 16)).tagFree true = true ∧ s.cut.phase = 2 ∧ s.time < s.cut.pollDue ∧
      (s.cut.forced = true ∨ s.time < s.cut.ref + 1000 * s.cut.drainUs)) ∧
    (∃ (s : State) (f : Nat) (x : CutChip) (p : List Nat), s.fastClock = true ∧ (s.chain (f / 16)).tagFree true = true ∧ s.cut.phase = 2 ∧
      s.cut.chips = [x] ∧ x.f = f ∧ x.draining = true ∧ s.cut.pollDue ≤ s.time ∧ s.ctlRead f (wdaBase + 512) 36 = some p ∧ picStopped p = true ∧
      (((picPend p).all fun x => x == 0) = true)) ∧
    (∃ (s : State) (f : Nat) (x : CutChip) (p : List Nat), s.fastClock = true ∧ (s.chain (f / 16)).tagFree true = true ∧ s.cut.phase = 3 ∧
      s.cut.chips = [x] ∧ x.f = f ∧ x.covered = true ∧ s.cut.pollDue ≤ s.time ∧ s.ctlRead f (wdaBase + 256) 12 = some p) ∧
    (∃ (s : State) (f : Nat) (x : CutChip), (s.fastClock = true ∧ (s.chain (f / 16)).tagFree true = true ∧ s.cut.phase = 3 ∧
      s.cut.linkFrom + 1000 * s.cut.linkUs ≤ s.time ∧ s.time < s.cut.pollDue ∧ s.cut.chips = [x]) ∧ (x.covered = true → x.awaited.length = 12)) :=
  ⟨⟨cutting 1 { f := 127 }, 127, { f := 127 }, by decide +kernel⟩,
   ⟨(cutting 1 { f := 127 }).setChain 7 whole, 127, { f := 127 },
     (((cutting 1 { f := 127 }).setChain 7 whole).ctlRead 127 (wdaBase + 512) 36).getD [], by decide +kernel⟩,
   ⟨(cutting 2 { f := 127 }).setChain 7 whole, 127, { f := 127 },
     (((cutting 2 { f := 127 }).setChain 7 whole).ctlRead 127 (wdaBase + 512) 36).getD [], by decide +kernel⟩,
   ⟨({ up with cut := { phase := 2, chips := [{ f := 127 }], pollDue := 1, drainUs := 0 } }).setChain 7 whole, 127, { f := 127 }, by decide +kernel⟩,
   ⟨{ up with cut := { phase := 2, forced := true, pollDue := 1 } }, 127, by decide +kernel⟩,
   ⟨stillChip, 127, { f := 127 }, (stillChip.ctlRead 127 (wdaBase + 512) 36).getD [], by decide +kernel⟩,
   ⟨(cutting 3 { f := 127 }).setChain 7 whole, 127, { f := 127 },
     (((cutting 3 { f := 127 }).setChain 7 whole).ctlRead 127 (wdaBase + 256) 12).getD [], by decide +kernel⟩,
   ⟨{ up with cut := { phase := 3, chips := [{ f := 127, awaited := List.replicate 12 false }], pollDue := 1, linkUs := 0 } }, 127,
     { f := 127, awaited := List.replicate 12 false }, by decide +kernel, by decide +kernel⟩⟩

/-- Its hypotheses can be met: `Obligations.SyncPealAndTollRun`. -/
theorem witness_syncPealAndTollRun :
    (∃ (s : State) (e : Nat) (w : Work) (i : Item), s.Starts e 0x00 w i) ∧
    (∃ (s : State) (e : Nat) (w : Work) (i : Item), s.Starts e 0x01 w i ∧ dbits i.desc 0x10 0 1 = 0 ∧
      waitHolds (dbits i.desc 0x10 1 2) (s.counter (dbits i.desc 0x12 0 12)).val.toNat (db i.desc 0x18 8) = true) ∧
    (∃ (s : State) (e : Nat) (w : Work) (i : Item), s.Starts e 0x01 w i ∧ dbits i.desc 0x10 0 1 = 0 ∧
      waitHolds (dbits i.desc 0x10 1 2) (s.counter (dbits i.desc 0x12 0 12)).val.toNat (db i.desc 0x18 8) = false) ∧
    (∃ (s : State) (e : Nat) (w : Work) (i : Item), s.Starts e 0x01 w i ∧ dbits i.desc 0x10 0 1 = 1 ∧
      (State.issueAll e w 1900 (s.setItem w ({ i.push [.hrd (db i.desc 0x20 8) 8] with stage := 1 }))).isSome = true) ∧
    (∃ (s : State) (e : Nat) (w : Work) (i : Item), s.Starts e 0x02 w i ∧ dbits i.desc 0x10 0 1 = 0 ∧ dbits i.desc 0x12 0 12 < 4096) ∧
    (∃ (s : State) (e : Nat) (w : Work) (i : Item), s.Starts e 0x02 w i ∧ dbits i.desc 0x10 0 1 = 1 ∧
      (State.issueAll e w 1900 (s.setItem w ((i.push [.hwr (db i.desc 0x20 8) (leBytes 8 (db i.desc 0x18 8))]).done))).isSome = true) ∧
    (∃ (s : State) (e : Nat) (w : Work) (i : Item), s.Starts e 0x03 w i ∧ s.owed w i.desc = []) ∧
    (∃ (s : State) (e : Nat) (w : Work) (i : Item), s.Starts e 0x03 w i ∧ s.owed w i.desc = [(1511, 1)]) ∧
    (∃ (s : State) (e : Nat) (w : Work) (i : Item), s.Starts e 0x10 w i ∧ db i.desc 0x10 1 = 0) ∧
    (∃ (s : State) (e : Nat) (w : Work) (i : Item), s.Starts e 0x10 w i ∧ db i.desc 0x10 1 ≠ 0 ∧ dbits i.desc 0x11 0 1 = 0 ∧
      bit (db i.desc 0x10 1) 7 = true ∧ s.drivable 7 = true ∧ bit (db i.desc 0x10 1) 6 = false) ∧
    (∃ (s : State) (e : Nat) (w : Work) (i : Item), s.Starts e 0x10 w i ∧ db i.desc 0x10 1 ≠ 0 ∧ dbits i.desc 0x11 0 1 = 1) ∧
    (∃ (s : State) (e : Nat) (w : Work) (i : Item), s.Starts e 0x11 w i ∧ s.run.tollState = .none_ ∧ dbits i.desc 0x11 0 2 = 0 ∧
      (State.issueAll e w 1900 (({ s.tollDrop w with run := { (s.tollDrop w).run with tollState := .arming, tollMask := db i.desc 0x10 1, tollT := db i.desc 0x18 8, backup := true } }).setItem w (((chipsOf (db i.desc 0x10 1) s.addressable).foldl (fun (j : Item) f => j.pushSeq [regWr f (wdaBase + 0x300) (lo32 (db i.desc 0x18 8)), regWr f (wdaBase + 0x304) (hi32 (db i.desc 0x18 8)), regWr f (wdaBase + 0x308) 1, .rd f (wdaBase + 0x308) 8]) { i with stage := 1, errs := s.reachErrs (inMask (db i.desc 0x10 1)), x := tput 0 (tput 0 [] 0 (chipsOf (db i.desc 0x10 1) s.addressable).length) 1 1 })))).isSome = true) ∧
    (∃ (s : State) (e : Nat) (w : Work) (i : Item), s.Starts e 0x11 w i ∧ s.run.tollState = .none_ ∧ dbits i.desc 0x11 0 2 = 1) ∧
    (∃ (s : State) (e : Nat) (w : Work) (i : Item), s.Starts e 0x11 w i ∧ s.run.tollState = .none_ ∧ dbits i.desc 0x11 0 2 = 2 ∧
      (State.issueAll e w 1900 ((s.tollDrop w).setItem w ({ i.push ((chipsOf (db i.desc 0x10 1) s.addressable).map (fun f => regWr f (wdaBase + 0x308) 0)) with stage := 1, errs := s.reachErrs (inMask (db i.desc 0x10 1)) }))).isSome = true) :=
  ⟨⟨begun (up) (0x0), 0, .ring 0, fresh (0x0), begun_starts _ _ _ (by decide +kernel) (by decide +kernel)⟩,
   ⟨begun (up) (0x1 + 4095 * 2 ^ 144), 0, .ring 0, fresh (0x1 + 4095 * 2 ^ 144), begun_starts _ _ _ (by decide +kernel) (by decide +kernel),
     by decide +kernel⟩,
   ⟨begun (up) (0x1 + 4095 * 2 ^ 144 + 1 * 2 ^ 192), 0, .ring 0, fresh (0x1 + 4095 * 2 ^ 144 + 1 * 2 ^ 192),
     begun_starts _ _ _ (by decide +kernel) (by decide +kernel), by decide +kernel⟩,
   ⟨begun (up) (0x1 + 1 * 2 ^ 128 + 64 * 2 ^ 256), 0, .ring 0, fresh (0x1 + 1 * 2 ^ 128 + 64 * 2 ^ 256),
     begun_starts _ _ _ (by decide +kernel) (by decide +kernel), by decide +kernel⟩,
   ⟨begun (up) (0x2 + 4095 * 2 ^ 144 + 1 * 2 ^ 192), 0, .ring 0, fresh (0x2 + 4095 * 2 ^ 144 + 1 * 2 ^ 192),
     begun_starts _ _ _ (by decide +kernel) (by decide +kernel), by decide +kernel⟩,
   ⟨begun (up) (0x2 + 1 * 2 ^ 128 + 64 * 2 ^ 256), 0, .ring 0, fresh (0x2 + 1 * 2 ^ 128 + 64 * 2 ^ 256),
     begun_starts _ _ _ (by decide +kernel) (by decide +kernel), by decide +kernel⟩,
   ⟨begun (up) (0x3 + 511 * 2 ^ 128 + 511 * 2 ^ 144), 0, .ring 0, fresh (0x3 + 511 * 2 ^ 128 + 511 * 2 ^ 144),
     begun_starts _ _ _ (by decide +kernel) (by decide +kernel), by decide +kernel⟩,
   ⟨begun (up.setRing 511 { state := .active, tail := 1 }) (0x3 + 511 * 2 ^ 128 + 511 * 2 ^ 144), 0, .ring 0,
     fresh (0x3 + 511 * 2 ^ 128 + 511 * 2 ^ 144), begun_starts _ _ _ (by decide +kernel) (by decide +kernel), by decide +kernel⟩,
   ⟨begun (up) (0x10), 0, .ring 0, fresh (0x10), begun_starts _ _ _ (by decide +kernel) (by decide +kernel), by decide +kernel⟩,
   ⟨begun ({ up with pins := { stopEn := 128, stopOut := 128 } }) (0x10 + 128 * 2 ^ 128), 0, .ring 0, fresh (0x10 + 128 * 2 ^ 128),
     begun_starts _ _ _ (by decide +kernel) (by decide +kernel), by decide +kernel⟩,
   ⟨begun (up) (0x10 + 128 * 2 ^ 128 + 1 * 2 ^ 136), 0, .ring 0, fresh (0x10 + 128 * 2 ^ 128 + 1 * 2 ^ 136),
     begun_starts _ _ _ (by decide +kernel) (by decide +kernel), by decide +kernel⟩,
   ⟨begun (up.setChain 7 whole) (0x11 + 128 * 2 ^ 128), 0, .ring 0, fresh (0x11 + 128 * 2 ^ 128),
     begun_starts _ _ _ (by decide +kernel) (by decide +kernel), by decide +kernel⟩,
   ⟨begun (up) (0x11 + 128 * 2 ^ 128 + 1 * 2 ^ 136 + 1 * 2 ^ 138), 0, .ring 0, fresh (0x11 + 128 * 2 ^ 128 + 1 * 2 ^ 136 + 1 * 2 ^ 138),
     begun_starts _ _ _ (by decide +kernel) (by decide +kernel), by decide +kernel⟩,
   ⟨begun (up.setChain 7 whole) (0x11 + 128 * 2 ^ 128 + 2 * 2 ^ 136), 0, .ring 0, fresh (0x11 + 128 * 2 ^ 128 + 2 * 2 ^ 136),
     begun_starts _ _ _ (by decide +kernel) (by decide +kernel), by decide +kernel⟩⟩

/-- Its hypotheses can be met: `Obligations.RunControlDescriptorsRun`. -/
theorem witness_runControlDescriptorsRun :
    (∃ (s : State) (e : Nat) (w : Work) (i : Item), s.Starts e 0x12 w i ∧ selAll i.desc = true ∧
      (State.issueAll e w 1900 (s.setItem w (s.pushChips i (goOps i.desc)))).isSome = true) ∧
    (∃ (s : State) (e : Nat) (w : Work) (i : Item), s.Starts e 0x13 w i ∧ selAll i.desc = true ∧ dbits i.desc 0x12 1 1 = 0 ∧
      (State.issueAll e w 1900 ((s.resumeRaise i.desc).setItem w (s.pushChips i (goOps i.desc)))).isSome = true) ∧
    (∃ (s : State) (e : Nat) (w : Work) (i : Item), s.Starts e 0x13 w i ∧ selAll i.desc = true ∧ dbits i.desc 0x12 1 1 = 1 ∧
      (State.issueAll e w 1900 ((s.resumeRaise i.desc).setItem w (s.pushChips i (goOps i.desc)))).isSome = true) ∧
    (∃ (s : State) (e : Nat) (w : Work) (i : Item), s.Starts e 0x16 w i ∧ dbits i.desc 0x20 0 2 = 0 ∧
      (State.issueAll e w 1900 (s.setItem w (s.pushChips i (breakOps i.desc)))).isSome = true) ∧
    (∃ (s : State) (e : Nat) (w : Work) (i : Item), s.Starts e 0x17 w i ∧ dbits i.desc 0x20 0 2 = 0 ∧ dbits i.desc 0x21 3 1 = 0 ∧
      (State.issueAll e w 1900 (s.setItem w (s.pushChips i (breakOps i.desc)))).isSome = true) ∧
    (∃ (s : State) (e : Nat) (w : Work) (i : Item), s.Starts e 0x14 w i ∧ bit (stepUnit i.desc) 9 = false ∧ 32 ≤ stepUnit i.desc % 512) ∧
    (∃ (s : State) (e : Nat) (w : Work) (i : Item), s.Starts e 0x15 w i ∧ bit (stepUnit i.desc) 9 = false ∧ 32 ≤ stepUnit i.desc % 512) ∧
    (∃ (s : State) (e : Nat) (w : Work) (i : Item), s.Starts e 0x14 w i ∧ bit (stepUnit i.desc) 9 ≠ false) ∧
    (∃ (s : State) (e : Nat) (w : Work) (i : Item), s.Starts e 0x15 w i ∧ bit (stepUnit i.desc) 9 ≠ true ∧ stepUnit i.desc % 512 < 32) ∧
    (∃ (s : State) (e : Nat) (w : Work) (i : Item), s.Starts e 0x14 w i ∧ bit (stepUnit i.desc) 9 = false ∧ stepUnit i.desc % 512 < 32 ∧
      s.issueStatus (stepUnit i.desc / 1024) = some .chainDown) ∧
    (∃ (s : State) (e : Nat) (w : Work) (i : Item), s.Starts e 0x15 w i ∧ bit (stepUnit i.desc) 9 = true ∧
      s.issueStatus (stepUnit i.desc / 1024) = some .chainDown) ∧
    (∃ (s : State) (e : Nat) (w : Work) (i : Item), s.Starts e 0x14 w i ∧ bit (stepUnit i.desc) 9 = false ∧ stepUnit i.desc % 512 < 32 ∧
      s.issueStatus (stepUnit i.desc / 1024) = none) ∧
    (∃ (s : State) (e : Nat) (w : Work) (i : Item), s.Starts e 0x15 w i ∧ bit (stepUnit i.desc) 9 = true ∧
      s.issueStatus (stepUnit i.desc / 1024) = none) :=
  ⟨⟨begun (up.setChain 7 whole) (0x12 + 127 * 2 ^ 128 + 127 * 2 ^ 136 + 1 * 2 ^ 144), 0, .ring 0,
     fresh (0x12 + 127 * 2 ^ 128 + 127 * 2 ^ 136 + 1 * 2 ^ 144), begun_starts _ _ _ (by decide +kernel) (by decide +kernel), by decide +kernel⟩,
   ⟨begun (up.setChain 7 whole) (0x13 + 127 * 2 ^ 128 + 127 * 2 ^ 136 + 1 * 2 ^ 144), 0, .ring 0,
     fresh (0x13 + 127 * 2 ^ 128 + 127 * 2 ^ 136 + 1 * 2 ^ 144), begun_starts _ _ _ (by decide +kernel) (by decide +kernel), by decide +kernel⟩,
   ⟨begun (up.setChain 7 whole) (0x13 + 127 * 2 ^ 128 + 127 * 2 ^ 136 + 1 * 2 ^ 144 + 1 * 2 ^ 145 + 5 * 2 ^ 256), 0, .ring 0,
     fresh (0x13 + 127 * 2 ^ 128 + 127 * 2 ^ 136 + 1 * 2 ^ 144 + 1 * 2 ^ 145 + 5 * 2 ^ 256),
     begun_starts _ _ _ (by decide +kernel) (by decide +kernel), by decide +kernel⟩,
   ⟨begun (up.setChain 7 whole) (0x16 + 127 * 2 ^ 128 + 127 * 2 ^ 136 + 1 * 2 ^ 160 + 7 * 2 ^ 264), 0, .ring 0,
     fresh (0x16 + 127 * 2 ^ 128 + 127 * 2 ^ 136 + 1 * 2 ^ 160 + 7 * 2 ^ 264), begun_starts _ _ _ (by decide +kernel) (by decide +kernel),
     by decide +kernel⟩,
   ⟨begun (up.setChain 7 whole) (0x17 + 127 * 2 ^ 128 + 127 * 2 ^ 136 + 1 * 2 ^ 160 + 7 * 2 ^ 264), 0, .ring 0,
     fresh (0x17 + 127 * 2 ^ 128 + 127 * 2 ^ 136 + 1 * 2 ^ 160 + 7 * 2 ^ 264), begun_starts _ _ _ (by decide +kernel) (by decide +kernel),
     by decide +kernel⟩,
   ⟨begun (up) (0x14 + 32 * 2 ^ 128), 0, .ring 0, fresh (0x14 + 32 * 2 ^ 128), begun_starts _ _ _ (by decide +kernel) (by decide +kernel),
     by decide +kernel⟩,
   ⟨begun (up) (0x15 + 511 * 2 ^ 128), 0, .ring 0, fresh (0x15 + 511 * 2 ^ 128), begun_starts _ _ _ (by decide +kernel) (by decide +kernel),
     by decide +kernel⟩,
   ⟨begun (up) (0x14 + 512 * 2 ^ 128), 0, .ring 0, fresh (0x14 + 512 * 2 ^ 128), begun_starts _ _ _ (by decide +kernel) (by decide +kernel),
     by decide +kernel⟩,
   ⟨begun (up) (0x15 + 31 * 2 ^ 128), 0, .ring 0, fresh (0x15 + 31 * 2 ^ 128), begun_starts _ _ _ (by decide +kernel) (by decide +kernel),
     by decide +kernel⟩,
   ⟨begun (up) (0x14 + 31 * 2 ^ 128), 0, .ring 0, fresh (0x14 + 31 * 2 ^ 128), begun_starts _ _ _ (by decide +kernel) (by decide +kernel),
     by decide +kernel⟩,
   ⟨begun (up) (0x15 + 1023 * 2 ^ 128), 0, .ring 0, fresh (0x15 + 1023 * 2 ^ 128), begun_starts _ _ _ (by decide +kernel) (by decide +kernel),
     by decide +kernel⟩,
   ⟨begun (up.setChain 7 whole) (0x14 + 130079 * 2 ^ 128), 0, .ring 0, fresh (0x14 + 130079 * 2 ^ 128),
     begun_starts _ _ _ (by decide +kernel) (by decide +kernel), by decide +kernel⟩,
   ⟨begun (up.setChain 7 whole) (0x15 + 131071 * 2 ^ 128), 0, .ring 0, fresh (0x15 + 131071 * 2 ^ 128),
     begun_starts _ _ _ (by decide +kernel) (by decide +kernel), by decide +kernel⟩⟩

/-- Its hypotheses can be met: `Obligations.AccessDescriptorsRun`. -/
theorem witness_accessDescriptorsRun :
    (∃ (s : State) (e : Nat) (w : Work) (i : Item), s.Starts e 0x20 w i ∧ dbits i.desc 0x10 0 1 = 0 ∧ regCount i.desc ≠ 0 ∧
      (State.issueAll e w 1900 (s.setItem w ({ i.push [regRead (dbits i.desc 0x14 10 7) (db i.desc 0x18 8) (regCount i.desc)] with stage := 1 }))).isSome = true) ∧
    (∃ (s : State) (e : Nat) (w : Work) (i : Item), s.Starts e 0x20 w i ∧ dbits i.desc 0x10 0 1 = 0 ∧ regCount i.desc = 0) ∧
    (∃ (s : State) (e : Nat) (w : Work) (i : Item), s.Starts e 0x21 w i ∧ dbits i.desc 0x10 0 1 = 0 ∧
      (State.issueAll e w 1900 (s.setItem w ({ i.push [regWr (dbits i.desc 0x14 10 7) (db i.desc 0x18 8) (db i.desc 0x28 4)] with stage := 2 }))).isSome = true) ∧
    (∃ (s : State) (e : Nat) (w : Work) (i : Item), s.Starts e 0x20 w i ∧ dbits i.desc 0x10 0 1 = 1 ∧ bit (dbits i.desc 0x14 0 17) 9 = true) ∧
    (∃ (s : State) (e : Nat) (w : Work) (i : Item), s.Starts e 0x21 w i ∧ dbits i.desc 0x10 0 1 = 1 ∧ bit (dbits i.desc 0x14 0 17) 9 = true) ∧
    (∃ (s : State) (e : Nat) (w : Work) (i : Item), s.Starts e 0x20 w i ∧ dbits i.desc 0x10 0 1 = 1 ∧ bit (dbits i.desc 0x14 0 17) 9 = false ∧
      regCount i.desc = 0) ∧
    (∃ (s : State) (e : Nat) (w : Work) (i : Item), s.Starts e 0x21 w i ∧ dbits i.desc 0x10 0 1 = 1 ∧ bit (dbits i.desc 0x14 0 17) 9 = false ∧
      32 ≤ (dbits i.desc 0x14 0 17) % 512) ∧
    (∃ (s : State) (e : Nat) (w : Work) (i : Item), s.Starts e 0x20 w i ∧ dbits i.desc 0x10 0 1 = 1 ∧ bit (dbits i.desc 0x14 0 17) 9 = false ∧
      (dbits i.desc 0x14 0 17) % 512 < 32 ∧ s.issueStatus ((dbits i.desc 0x14 0 17) / 1024) = none ∧
      ((s.chip ((dbits i.desc 0x14 0 17) / 1024)).core ((dbits i.desc 0x14 0 17) % 512)).odd ≠ 3 ∧ regCount i.desc ≠ 0) ∧
    (∃ (s : State) (e : Nat) (w : Work) (i : Item), s.Starts e 0x21 w i ∧ dbits i.desc 0x10 0 1 = 1 ∧ bit (dbits i.desc 0x14 0 17) 9 = false ∧
      (dbits i.desc 0x14 0 17) % 512 < 32 ∧ s.issueStatus ((dbits i.desc 0x14 0 17) / 1024) = none ∧
      ((s.chip ((dbits i.desc 0x14 0 17) / 1024)).core ((dbits i.desc 0x14 0 17) % 512)).odd ≠ 3) ∧
    (∃ (s : State) (e : Nat) (w : Work) (i : Item), s.Starts e 0x22 w i ∧ db i.desc 0x14 4 = 0) ∧
    (∃ (s : State) (e : Nat) (w : Work) (i : Item), s.Starts e 0x23 w i ∧ db i.desc 0x14 4 = 0) ∧
    (∃ (s : State) (e : Nat) (w : Work) (i : Item), s.Starts e 0x22 w i ∧ memHub i.desc = false ∧ db i.desc 0x14 4 ≠ 0 ∧
      (State.issueAll e w 1900 (s.setItem w ({ (s.batchReads i (db i.desc 0x18 8) (batchLen (db i.desc 0x18 8) (db i.desc 0x14 4) 0)) with stage := 1, x := tput 0 [] 2 (s.batchReads i (db i.desc 0x18 8) (batchLen (db i.desc 0x18 8) (db i.desc 0x14 4) 0)).nextIx }))).isSome = true) ∧
    (∃ (s : State) (e : Nat) (w : Work) (i : Item), s.Starts e 0x23 w i ∧ memHub i.desc = false ∧ db i.desc 0x14 4 ≠ 0 ∧
      (State.issueAll e w 1900 (s.setItem w ({ (i.push (hostReads (db i.desc 0x20 8) (batchLen (db i.desc 0x18 8) (db i.desc 0x14 4) 0))) with stage := 1, x := tput 0 [] 2 (i.push (hostReads (db i.desc 0x20 8) (batchLen (db i.desc 0x18 8) (db i.desc 0x14 4) 0))).nextIx }))).isSome = true) ∧
    (∃ (s : State) (e : Nat) (w : Work) (i : Item), s.Starts e 0x22 w i ∧ memHub i.desc = true ∧ db i.desc 0x14 4 ≠ 0) ∧
    (∃ (s : State) (e : Nat) (w : Work) (i : Item), s.Starts e 0x23 w i ∧ memHub i.desc = true ∧ db i.desc 0x14 4 ≠ 0) ∧
    (∃ (s : State) (e : Nat) (w : Work) (i : Item), s.Starts e 0x24 w i ∧
      (State.issueAll e w 1900 (s.setItem w ({ i.push (((s.rangeChips i.desc).map (fun f => ((maskCores i.desc).map (fun n => [OpK.wr f (coreMemBase + 0x10000 * n + 0xE000) (s.monitorCopy.take 4096), OpK.wr f (coreMemBase + 0x10000 * n + 0xF000) (s.monitorCopy.drop 4096)])).flatten)).flatten) with stage := 1 }))).isSome = true) :=
  ⟨⟨begun (up.setChain 7 whole) (0x20 + 1 * 2 ^ 136 + 127 * 2 ^ 170 + 0x1020000000 * 2 ^ 192), 0, .ring 0,
     fresh (0x20 + 1 * 2 ^ 136 + 127 * 2 ^ 170 + 0x1020000000 * 2 ^ 192), begun_starts _ _ _ (by decide +kernel) (by decide +kernel),
     by decide +kernel⟩,
   ⟨begun (up) (0x20 + 127 * 2 ^ 170 + 0x1020000000 * 2 ^ 192), 0, .ring 0, fresh (0x20 + 127 * 2 ^ 170 + 0x1020000000 * 2 ^ 192),
     begun_starts _ _ _ (by decide +kernel) (by decide +kernel), by decide +kernel⟩,
   ⟨begun (up.setChain 7 whole) (0x21 + 127 * 2 ^ 170 + 0x10302FFFFC * 2 ^ 192), 0, .ring 0, fresh (0x21 + 127 * 2 ^ 170 + 0x10302FFFFC * 2 ^ 192),
     begun_starts _ _ _ (by decide +kernel) (by decide +kernel), by decide +kernel⟩,
   ⟨begun (up) (0x20 + 1 * 2 ^ 128 + 512 * 2 ^ 160), 0, .ring 0, fresh (0x20 + 1 * 2 ^ 128 + 512 * 2 ^ 160),
     begun_starts _ _ _ (by decide +kernel) (by decide +kernel), by decide +kernel⟩,
   ⟨begun (up) (0x21 + 1 * 2 ^ 128 + 131071 * 2 ^ 160), 0, .ring 0, fresh (0x21 + 1 * 2 ^ 128 + 131071 * 2 ^ 160),
     begun_starts _ _ _ (by decide +kernel) (by decide +kernel), by decide +kernel⟩,
   ⟨begun (up) (0x20 + 1 * 2 ^ 128 + 130079 * 2 ^ 160), 0, .ring 0, fresh (0x20 + 1 * 2 ^ 128 + 130079 * 2 ^ 160),
     begun_starts _ _ _ (by decide +kernel) (by decide +kernel), by decide +kernel⟩,
   ⟨begun (up) (0x21 + 1 * 2 ^ 128 + 32 * 2 ^ 160), 0, .ring 0, fresh (0x21 + 1 * 2 ^ 128 + 32 * 2 ^ 160),
     begun_starts _ _ _ (by decide +kernel) (by decide +kernel), by decide +kernel⟩,
   ⟨begun (up.setChain 7 whole) (0x20 + 1 * 2 ^ 128 + 1 * 2 ^ 136 + 130079 * 2 ^ 160 + 63 * 2 ^ 192), 0, .ring 0,
     fresh (0x20 + 1 * 2 ^ 128 + 1 * 2 ^ 136 + 130079 * 2 ^ 160 + 63 * 2 ^ 192), begun_starts _ _ _ (by decide +kernel) (by decide +kernel),
     by decide +kernel⟩,
   ⟨begun (up.setChain 7 whole) (0x21 + 1 * 2 ^ 128 + 130079 * 2 ^ 160 + 63 * 2 ^ 192), 0, .ring 0,
     fresh (0x21 + 1 * 2 ^ 128 + 130079 * 2 ^ 160 + 63 * 2 ^ 192), begun_starts _ _ _ (by decide +kernel) (by decide +kernel), by decide +kernel⟩,
   ⟨begun (up) (0x22), 0, .ring 0, fresh (0x22), begun_starts _ _ _ (by decide +kernel) (by decide +kernel), by decide +kernel⟩,
   ⟨begun (up) (0x23), 0, .ring 0, fresh (0x23), begun_starts _ _ _ (by decide +kernel) (by decide +kernel), by decide +kernel⟩,
   ⟨begun (up.setChain 7 whole) (0x22 + 127 * 2 ^ 136 + 64 * 2 ^ 160), 0, .ring 0, fresh (0x22 + 127 * 2 ^ 136 + 64 * 2 ^ 160),
     begun_starts _ _ _ (by decide +kernel) (by decide +kernel), by decide +kernel⟩,
   ⟨begun (up.setChain 7 whole) (0x23 + 127 * 2 ^ 136 + 64 * 2 ^ 160), 0, .ring 0, fresh (0x23 + 127 * 2 ^ 136 + 64 * 2 ^ 160),
     begun_starts _ _ _ (by decide +kernel) (by decide +kernel), by decide +kernel⟩,
   ⟨begun (up) (0x22 + 1 * 2 ^ 128 + 64 * 2 ^ 160), 0, .ring 0, fresh (0x22 + 1 * 2 ^ 128 + 64 * 2 ^ 160),
     begun_starts _ _ _ (by decide +kernel) (by decide +kernel), by decide +kernel⟩,
   ⟨begun (up) (0x23 + 1 * 2 ^ 128 + 64 * 2 ^ 160), 0, .ring 0, fresh (0x23 + 1 * 2 ^ 128 + 64 * 2 ^ 160),
     begun_starts _ _ _ (by decide +kernel) (by decide +kernel), by decide +kernel⟩,
   ⟨begun (up.setChain 7 whole) (0x24 + 127 * 2 ^ 128 + 127 * 2 ^ 136 + 0x80000000 * 2 ^ 160), 0, .ring 0,
     fresh (0x24 + 127 * 2 ^ 128 + 127 * 2 ^ 136 + 0x80000000 * 2 ^ 160), begun_starts _ _ _ (by decide +kernel) (by decide +kernel),
     by decide +kernel⟩⟩

/-- Its hypotheses can be met: `Obligations.DumpDescriptorsRun`. -/
theorem witness_dumpDescriptorsRun :
    (∃ (s : State) (e : Nat) (w : Work) (i : Item), s.Starts e 0x30 w i ∧ planCount i.desc = 0 ∧ s.planBusy (planId i.desc) = false) ∧
    (∃ (s : State) (e : Nat) (w : Work) (i : Item), s.Starts e 0x30 w i ∧ planCount i.desc = 0 ∧ s.planBusy (planId i.desc) = true) ∧
    (∃ (s : State) (e : Nat) (w : Work) (i : Item), s.Starts e 0x30 w i ∧ planCount i.desc ≠ 0 ∧
      (State.issueAll e w 1900 (s.setItem w ({ i.push (hostReads (db i.desc 0x18 8) (32 * planCount i.desc)) with stage := 1 }))).isSome = true) ∧
    (∃ (s : State) (e : Nat) (w : Work) (i : Item), s.Starts e 0x31 w i ∧ dbits i.desc 0x12 2 1 = 1) ∧
    (∃ (s : State) (e : Nat) (w : Work) (i : Item), s.Starts e 0x31 w i ∧ s.dumpBar (dbits i.desc 0x11 1 1 == 1) = some 0x80000007 ∧
      dbits i.desc 0x12 2 1 = 0) ∧
    (∃ (s : State) (e : Nat) (w : Work) (i : Item), s.Starts e 0x32 w i ∧ s.dumpBar (dbits i.desc 0x11 1 1 == 1) = some 0x80000005) ∧
    (∃ (s : State) (e : Nat) (w : Work) (i : Item), s.Starts e 0x31 w i ∧ s.dumpBar (dbits i.desc 0x11 1 1 == 1) = none ∧ s.freeCtx = none ∧
      dbits i.desc 0x12 2 1 = 0) ∧
    (∃ (s : State) (e : Nat) (w : Work) (i : Item), s.Starts e 0x32 w i ∧ s.dumpBar (dbits i.desc 0x11 1 1 == 1) = none ∧ s.freeCtx = none) ∧
    (∃ (s : State) (e : Nat) (w : Work) (i : Item), s.Starts e 0x31 w i ∧ s.dumpBar (dbits i.desc 0x11 1 1 == 1) = none ∧ s.freeCtx = some 0 ∧
      dbits i.desc 0x12 2 1 = 0 ∧ tget [] s.dmp.plans (planId i.desc) ≠ [] ∧ ((s.newCtx 0 i.desc w false false).ctx 0).noSpace = false ∧
      (State.issueAll e w 1900 ((s.newCtx 0 i.desc w false false).setItem w ({ ({ i with stage := 1, x := tput 0 [] 10 1 } : Item).emit ((s.newCtx 0 i.desc w false false).ctx 0) 0 ((s.newCtx 0 i.desc w false false).sdfHeader ((s.newCtx 0 i.desc w false false).ctx 0) 0 0 0 0 0) with stage := 2 }))).isSome = true) ∧
    (∃ (s : State) (e : Nat) (w : Work) (i : Item), s.Starts e 0x32 w i ∧ (s.dumpBar (dbits i.desc 0x11 1 1 == 1) = none ∧ s.freeCtx = some 0 ∧ ∀ k,
      k < 5 → (s.ctx k).state = .free ∨ (s.ctx k).tensor = false) ∧
      (State.issueAll e w 1900 ((s.newCtx 0 i.desc w true false).setItem w ({ ({ i with x := tput 0 (tput 0 [] 10 1) 18 1 } : Item).push [.rd (mapFabric i.desc) (wdaBase + 0x10) 8] with stage := 101 }))).isSome = true) ∧
    (∃ (s : State) (e : Nat) (w : Work) (i : Item), s.Starts e 0x33 w i ∧ s.dmp.enable = false) ∧
    (∃ (s : State) (e : Nat) (w : Work) (i : Item), s.Starts e 0x33 w i ∧ s.dmp.enable = true ∧ ∀ n, s.cursorHit i.desc = some n →
      (s.ctx n).state ≠ .suspended) ∧
    (∃ (s : State) (e : Nat) (w : Work) (i : Item) (c : Ctx), s.Starts e 0x33 w i ∧ s.dmp.enable = true ∧ s.cursorHit i.desc = some 3 ∧
      (s.ctx 3).state = .suspended ∧ c = { (s.ctx 3).rewind (db i.desc 0x10 4) with state := .running, work := some w } ∧ c.out < 512 ∧
      (State.issueAll e w 1900 ((s.setCtx 3 c).setItem w ({ ({ i with stage := 1, x := tput 0 [] 10 4 } : Item).emit c 0 ((s.setCtx 3 c).sdfHeader c 0 0 0 0 0) with stage := 2 }))).isSome = true) ∧
    (∃ (s : State) (e : Nat) (w : Work) (i : Item), s.Starts e 0x34 w i ∧ dbits i.desc 0x16 0 1 = 1) ∧
    (∃ (s : State) (e : Nat) (w : Work) (i : Item), s.Starts e 0x34 w i ∧ dbits i.desc 0x16 0 1 = 0 ∧ s.cursorHit i.desc = none) ∧
    (∃ (s : State) (e : Nat) (w : Work) (i : Item), s.Starts e 0x34 w i ∧ dbits i.desc 0x16 0 1 = 0 ∧ s.cursorHit i.desc = some 3 ∧
      (s.ctx 3).state = .running ∧ (s.ctx 3).work ≠ some w) ∧
    (∃ (s : State) (e : Nat) (w : Work) (i : Item), s.Starts e 0x35 w i ∧ drainOpen i.desc = true ∧
      (State.issueAll e w 1900 (s.setItem w ({ i.push (hostReads (db i.desc 0x20 8) 512) with stage := 10 }))).isSome = true) ∧
    (∃ (s : State) (e : Nat) (w : Work) (i : Item), s.Starts e 0x35 w i ∧ drainOpen i.desc = false ∧ s.boot.dsSize = 0) ∧
    (∃ (s : State) (e : Nat) (w : Work) (i : Item), s.Starts e 0x35 w i ∧ drainOpen i.desc = false ∧ s.boot.dsSize ≠ 0 ∧
      Nat.min 128 (Nat.min (db i.desc 0x2C 4) (db i.desc 0x28 4)) ≠ 0) ∧
    (∃ (s : State) (e : Nat) (w : Work) (i : Item), s.Starts e 0x35 w i ∧ drainOpen i.desc = false ∧ s.boot.dsSize ≠ 0 ∧ db i.desc 0x2C 4 = 0) :=
  ⟨⟨begun (up) (0x30 + 7 * 2 ^ 128), 0, .ring 0, fresh (0x30 + 7 * 2 ^ 128), begun_starts _ _ _ (by decide +kernel) (by decide +kernel),
     by decide +kernel⟩,
   ⟨begun (up.setCtx 3 { state := .running, planId := 7 }) (0x30 + 7 * 2 ^ 128), 0, .ring 0, fresh (0x30 + 7 * 2 ^ 128),
     begun_starts _ _ _ (by decide +kernel) (by decide +kernel), by decide +kernel⟩,
   ⟨begun (up) (0x30 + 7 * 2 ^ 128 + 1 * 2 ^ 144 + 64 * 2 ^ 192), 0, .ring 0, fresh (0x30 + 7 * 2 ^ 128 + 1 * 2 ^ 144 + 64 * 2 ^ 192),
     begun_starts _ _ _ (by decide +kernel) (by decide +kernel), by decide +kernel⟩,
   ⟨begun (up) (0x31 + 2 * 2 ^ 136 + 1 * 2 ^ 146), 0, .ring 0, fresh (0x31 + 2 * 2 ^ 136 + 1 * 2 ^ 146),
     begun_starts _ _ _ (by decide +kernel) (by decide +kernel), by decide +kernel⟩,
   ⟨begun ({ up with dmp := { enable := false } }) (0x31 + 1 * 2 ^ 136), 0, .ring 0, fresh (0x31 + 1 * 2 ^ 136),
     begun_starts _ _ _ (by decide +kernel) (by decide +kernel), by decide +kernel⟩,
   ⟨begun (up) (0x32 + 2 * 2 ^ 136), 0, .ring 0, fresh (0x32 + 2 * 2 ^ 136), begun_starts _ _ _ (by decide +kernel) (by decide +kernel),
     by decide +kernel⟩,
   ⟨begun ({ up with dmp := { ctx := (List.range 5).map (fun n => (n, { state := .parked })) } }) (0x31 + 1 * 2 ^ 136), 0, .ring 0,
     fresh (0x31 + 1 * 2 ^ 136), begun_starts _ _ _ (by decide +kernel) (by decide +kernel), by decide +kernel⟩,
   ⟨begun ({ up with dmp := { ctx := (List.range 5).map (fun n => (n, { state := .parked })) } }) (0x32 + 1 * 2 ^ 136), 0, .ring 0,
     fresh (0x32 + 1 * 2 ^ 136), begun_starts _ _ _ (by decide +kernel) (by decide +kernel), by decide +kernel⟩,
   ⟨begun ({ up with dmp := { plans := [(7, [region])] } }) (0x31 + 7 * 2 ^ 128 + 1 * 2 ^ 136 + 64 * 2 ^ 192 + 65536 * 2 ^ 256), 0, .ring 0,
     fresh (0x31 + 7 * 2 ^ 128 + 1 * 2 ^ 136 + 64 * 2 ^ 192 + 65536 * 2 ^ 256), begun_starts _ _ _ (by decide +kernel) (by decide +kernel),
     by decide +kernel⟩,
   ⟨begun (up.setChain 7 whole) (0x32 + 127 * 2 ^ 128 + 1 * 2 ^ 136 + 64 * 2 ^ 192 + 65536 * 2 ^ 256), 0, .ring 0,
     fresh (0x32 + 127 * 2 ^ 128 + 1 * 2 ^ 136 + 64 * 2 ^ 192 + 65536 * 2 ^ 256), begun_starts _ _ _ (by decide +kernel) (by decide +kernel),
     by decide +kernel, by decide +kernel⟩,
   ⟨begun ({ up with dmp := { enable := false } }) (0x33), 0, .ring 0, fresh (0x33), begun_starts _ _ _ (by decide +kernel) (by decide +kernel),
     by decide +kernel⟩,
   ⟨begun (up) (0x33 + 7 * 2 ^ 160), 0, .ring 0, fresh (0x33 + 7 * 2 ^ 160), begun_starts _ _ _ (by decide +kernel) (by decide +kernel),
     ⟨by decide +kernel, fun n h => nomatch (show (none : Option Nat) = some n from (Eq.symm (by decide +kernel)).trans h)⟩⟩,
   ⟨begun (up.setCtx 3 { state := .suspended, id := 9, toHost := true, hostAddr := 64, hostSize := 65536 }) (0x33 + 3 * 2 ^ 160 + 9 * 2 ^ 168), 0,
     .ring 0, fresh (0x33 + 3 * 2 ^ 160 + 9 * 2 ^ 168),
     { ((up.setCtx 3 { state := .suspended, id := 9, toHost := true, hostAddr := 64, hostSize := 65536 }).ctx 3).rewind 0 with state := .running, work := some (.ring 0) },
     begun_starts _ _ _ (by decide +kernel) (by decide +kernel), by decide +kernel⟩,
   ⟨begun (up) (0x34 + 1 * 2 ^ 176), 0, .ring 0, fresh (0x34 + 1 * 2 ^ 176), begun_starts _ _ _ (by decide +kernel) (by decide +kernel),
     by decide +kernel⟩,
   ⟨begun (up) (0x34), 0, .ring 0, fresh (0x34), begun_starts _ _ _ (by decide +kernel) (by decide +kernel), by decide +kernel⟩,
   ⟨begun (up.setCtx 3 { state := .running, id := 9, work := some (.ring 5) }) (0x34 + 3 * 2 ^ 160 + 9 * 2 ^ 168), 0, .ring 0,
     fresh (0x34 + 3 * 2 ^ 160 + 9 * 2 ^ 168), begun_starts _ _ _ (by decide +kernel) (by decide +kernel), by decide +kernel⟩,
   ⟨begun (up) (0x35 + 1 * 2 ^ 128 + 64 * 2 ^ 256), 0, .ring 0, fresh (0x35 + 1 * 2 ^ 128 + 64 * 2 ^ 256),
     begun_starts _ _ _ (by decide +kernel) (by decide +kernel), by decide +kernel⟩,
   ⟨begun (up) (0x35), 0, .ring 0, fresh (0x35), begun_starts _ _ _ (by decide +kernel) (by decide +kernel), by decide +kernel⟩,
   ⟨begun ({ up with boot := { stage := 4, dsSize := 1 } }) (0x35 + 0xFFFFFFFF * 2 ^ 160 + 1 * 2 ^ 320 + 1 * 2 ^ 352), 0, .ring 0,
     fresh (0x35 + 0xFFFFFFFF * 2 ^ 160 + 1 * 2 ^ 320 + 1 * 2 ^ 352), begun_starts _ _ _ (by decide +kernel) (by decide +kernel), by decide +kernel⟩,
   ⟨begun ({ up with boot := { stage := 4, dsSize := 1 } }) (0x35 + 1 * 2 ^ 320), 0, .ring 0, fresh (0x35 + 1 * 2 ^ 320),
     begun_starts _ _ _ (by decide +kernel) (by decide +kernel), by decide +kernel⟩⟩

/-- Its hypotheses can be met: `Obligations.TraceChainAndHubDescriptorsRun`. -/
theorem witness_traceChainAndHubDescriptorsRun :
    (∃ (s : State) (e : Nat) (w : Work) (i : Item), s.Starts e 0x40 w i ∧ s.trc.enable = false) ∧
    (∃ (s : State) (e : Nat) (w : Work) (i : Item), s.Starts e 0x40 w i ∧ s.trc.enable = true ∧ s.trc.state.armed = false ∧ s.trc.ring ≠ [] ∧
      dbits i.desc 0x12 4 1 = 0) ∧
    (∃ (s : State) (e : Nat) (w : Work) (i : Item), s.Starts e 0x40 w i ∧ s.trc.enable = true ∧ s.trc.state.armed = true) ∧
    (∃ (s : State) (e : Nat) (w : Work) (i : Item), s.Starts e 0x40 w i ∧ s.trc.enable = true ∧ s.trc.state.armed = false ∧ (s.trc.ring = [] ∨
      dbits i.desc 0x12 4 1 = 1) ∧
      (State.issueAll e w 1900 ((s.traceSetup i.desc).setItem w (s.pushChips i (fun f => [regWr f (wdaBase + 0x504) (db i.desc 0x28 4), regWr f (wdaBase + 0x500) (1 + place (dbits i.desc 0x12 1 1) 1 1 + place (dbits i.desc 0x12 2 1) 2 1 + place (db i.desc 0x14 2) 16 16)])))).isSome = true) ∧
    (∃ (s : State) (e : Nat) (w : Work) (i : Item), s.Starts e 0x41 w i ∧ ((s.trc.state = .idle ∨ s.trc.state = .stopped ∨ s.trc.state = .flushing))) ∧
    (∃ (s : State) (e : Nat) (w : Work) (i : Item), s.Starts e 0x41 w i ∧ ((s.trc.state = .streaming ∨ s.trc.state = .pre ∨ s.trc.state = .post)) ∧
      (State.issueAll e w 1900 ((s.stopMarker 0).setItem w ({ i.push (s.armedChips.map (fun f => regWr f (wdaBase + 0x500) 0)) with stage := 1 }))).isSome = true) ∧
    (∃ (s : State) (e : Nat) (w : Work) (i : Item), s.Starts e 0x42 w i ∧ s.otherDrain w = true) ∧
    (∃ (s : State) (e : Nat) (w : Work) (i : Item), s.Starts e 0x42 w i ∧ s.otherDrain w = false ∧ drainWaits i.desc = true ∧ s.drainReady i = false) ∧
    (∃ (s : State) (e : Nat) (w : Work) (i : Item), s.Starts e 0x42 w i ∧ s.otherDrain w = false ∧ drainWaits i.desc = false ∧ s.trc.ring = [] ∧
      (drainFinal i.desc = false ∨ s.trc.state = .stopped ∨ s.trc.state = .idle)) ∧
    (∃ (s : State) (e : Nat) (w : Work) (i : Item), s.Starts e 0x42 w i ∧ s.otherDrain w = false ∧ drainWaits i.desc = false ∧ s.trc.ring = [] ∧
      drainFinal i.desc = true ∧ s.trc.state ≠ .stopped ∧ s.trc.state ≠ .idle ∧ drainCap i.desc ≠ 0 ∧ i.late s.now = false) ∧
    (∃ (s : State) (e : Nat) (w : Work) (i : Item), s.Starts e 0x42 w i ∧ s.otherDrain w = false ∧ drainWaits i.desc = false ∧
      toStore i.desc = false ∧ Nat.min (Nat.min s.trc.ring.length (db i.desc 0x20 8 / 16)) 4096 = 1 ∧
      (State.issueAll e w 1900 (s.setItem w ({ i.push (hostWrites (db i.desc 0x18 8) ((s.trc.ring.take 1).map TraceRec.bytes).flatten) with stage := 3, x := tput 0 (tput 0 (tput 0 (tput 0 [] 7 1) 2 s.trc.ring.length) 1 1) 3 1 }))).isSome = true) ∧
    (∃ (s : State) (e : Nat) (w : Work) (i : Item), s.Starts e 0x43 w i ∧ dbits i.desc 0x12 1 1 = 0 ∧
      (State.issueAll e w 1900 (s.setItem w ({ s.pushChips i (snapOps i.desc) with x := tput 0 (tput 0 (s.pushChips i (snapOps i.desc)).x 12 (s.snapChips i).length) 13 s.time }))).isSome = true) ∧
    (∃ (s : State) (e : Nat) (w : Work) (i : Item), s.Starts e 0x50 w i ∧ ((chainsOf (chainMask i.desc)).foldl State.enableChain s).item? w = some i ∧
      (chainsOf (chainMask i.desc)).any (fun k => (((chainsOf (chainMask i.desc)).foldl State.enableChain s).chain k).training) = true) ∧
    (∃ (s : State) (e : Nat) (w : Work) (i : Item), s.Starts e 0x52 w i ∧ ((chainsOf (chainMask i.desc)).foldl State.enableChain s).item? w = some i ∧
      (chainsOf (chainMask i.desc)).any (fun k => (((chainsOf (chainMask i.desc)).foldl State.enableChain s).chain k).training) = true ∧
      dbits i.desc 0x11 0 1 = 0) ∧
    (∃ (s : State) (e : Nat) (w : Work) (i : Item), s.Starts e 0x50 w i ∧ ((chainsOf (chainMask i.desc)).foldl State.enableChain s).item? w = some i ∧
      (chainsOf (chainMask i.desc)).any (fun k => (((chainsOf (chainMask i.desc)).foldl State.enableChain s).chain k).training) = false) ∧
    (∃ (s : State) (e : Nat) (w : Work) (i : Item), s.Starts e 0x52 w i ∧ ((chainsOf (chainMask i.desc)).foldl State.enableChain s).item? w = some i ∧
      (chainsOf (chainMask i.desc)).any (fun k => (((chainsOf (chainMask i.desc)).foldl State.enableChain s).chain k).training) = false ∧
      dbits i.desc 0x11 0 1 = 0) ∧
    (∃ (s : State) (e : Nat) (w : Work) (i : Item), s.Starts e 0x52 w i ∧ (s.disableChains (chainMask i.desc)).item? w = some i ∧
      dbits i.desc 0x11 0 1 = 1) ∧
    (∃ (s : State) (e : Nat) (w : Work) (i : Item), s.Starts e 0x51 w i ∧ dbits i.desc 0x11 0 1 = 1 ∧
      chainsOf (s.stateMask (chainMask i.desc) .up) ≠ [] ∧ ∀ k ∈ chainsOf (s.stateMask (chainMask i.desc) .up), (s.chain k).reach ≤ 16) ∧
    (∃ (s : State) (e : Nat) (w : Work) (i : Item), s.Starts e 0x51 w i ∧ dbits i.desc 0x11 0 1 = 0 ∧
      (State.issueAll e w 1900 (s.setItem w ({ i.push ((chipsOf (chainMask i.desc) s.addressable).map OpK.probe) with stage := 2, errs := [] }))).isSome = true) ∧
    (∃ (s : State) (e : Nat) (w : Work) (i : Item), s.Starts e 0x51 w i ∧ chainsOf (s.stateMask (chainMask i.desc) .up) = []) ∧
    (∃ (s : State) (e : Nat) (w : Work) (i : Item), s.Starts e 0x60 w i ∧
      (State.issueAll e w 1900 (s.setItem w ({ i.push (hostReads (db i.desc 0x18 8) 256) with stage := 1 }))).isSome = true) ∧
    (∃ (s : State) (e : Nat) (w : Work) (i : Item), s.Starts e 0x61 w i ∧
      (State.issueAll e w 1900 (s.setItem w ({ i.push (hostReads (db i.desc 0x18 8) 512) with stage := 1 }))).isSome = true) ∧
    (∃ (s : State) (e : Nat) (w : Work) (i : Item), s.Starts e 0x62 w i ∧
      (State.issueAll e w 1900 (s.setItem w ({ i.push [.core [2, dbits i.desc 0x10 0 1, dbits i.desc 0x11 0 1, db i.desc 0x14 4]] with stage := 1 }))).isSome = true) ∧
    (∃ (s : State) (e : Nat) (w : Work) (i : Item), s.Starts e 0x63 w i ∧ s.sleepBusy w (dbits i.desc 0x10 0 2) = true) ∧
    (∃ (s : State) (e : Nat) (w : Work) (i : Item), s.Starts e 0x63 w i ∧ s.sleepBusy w (dbits i.desc 0x10 0 2) = false ∧ s.car.queues = []) ∧
    (∃ (s : State) (e : Nat) (w : Work) (i : Item), s.Starts e 0x64 w i ∧ s.throughOld i.desc (s.htu.tlb.filter (fun x => x.inRange i.desc)) = []) ∧
    (∃ (s : State) (e : Nat) (w : Work) (i : Item), s.Starts e 0x64 w i ∧ s.throughOld i.desc (s.htu.tlb.filter (fun x => x.inRange i.desc)) ≠ []) ∧
    (∃ (s : State) (e : Nat) (w : Work) (i : Item), s.Starts e 0x65 w i) ∧
    (∃ (s : State) (e : Nat) (w : Work) (i : Item), s.Starts e 0x66 w i ∧ s.boot.stage ≠ 5 ∧ s.stageRuns (some w) = true) ∧
    (∃ (s : State) (e : Nat) (w : Work) (i : Item), s.Starts e 0x66 w i ∧ s.boot.stage ≠ 5 ∧ s.stageRuns (some w) = false ∧
      (State.issueAll e w 1900 (({ s with boot := { s.boot with stageResult := 0, stageTarget := dbits i.desc 0x10 0 2, kibDone := 0 } }).setItem w ({ i.push (hostReads (db i.desc 0x18 8) (Nat.min (db i.desc 0x14 4) 520192)) with stage := 1, x := tput 0 [] 7 1 }))).isSome = true) ∧
    (∃ (s : State) (e : Nat) (w : Work) (i : Item), s.Starts e 0x18 w i ∧ s.cut.busy = true) ∧
    (∃ (s : State) (e : Nat) (w : Work) (i : Item), s.Starts e 0x18 w i ∧ s.cut.busy = false ∧
      (State.issueAll e w 1900 (s.cutBegin w i)).isSome = true) :=
  ⟨⟨begun ({ up with trc := { enable := false } }) (0x40 + 127 * 2 ^ 128 + 127 * 2 ^ 136), 0, .ring 0, fresh (0x40 + 127 * 2 ^ 128 + 127 * 2 ^ 136),
     begun_starts _ _ _ (by decide +kernel) (by decide +kernel), by decide +kernel⟩,
   ⟨begun ({ up with trc := { state := .stopped, ring := [traceRec] } }) (0x40 + 127 * 2 ^ 128 + 127 * 2 ^ 136), 0, .ring 0,
     fresh (0x40 + 127 * 2 ^ 128 + 127 * 2 ^ 136), begun_starts _ _ _ (by decide +kernel) (by decide +kernel), by decide +kernel⟩,
   ⟨begun ({ up with trc := { state := .post } }) (0x40 + 127 * 2 ^ 128 + 127 * 2 ^ 136), 0, .ring 0, fresh (0x40 + 127 * 2 ^ 128 + 127 * 2 ^ 136),
     begun_starts _ _ _ (by decide +kernel) (by decide +kernel), by decide +kernel⟩,
   ⟨begun (up.setChain 7 whole) (0x40 + 127 * 2 ^ 128 + 127 * 2 ^ 136), 0, .ring 0, fresh (0x40 + 127 * 2 ^ 128 + 127 * 2 ^ 136),
     begun_starts _ _ _ (by decide +kernel) (by decide +kernel), by decide +kernel⟩,
   ⟨begun (up) (0x41), 0, .ring 0, fresh (0x41), begun_starts _ _ _ (by decide +kernel) (by decide +kernel), by decide +kernel⟩,
   ⟨begun (({ up with trc := { state := .pre, chips := [(127, { armed := true })] } }).setChain 7 whole) (0x41), 0, .ring 0, fresh (0x41),
     begun_starts _ _ _ (by decide +kernel) (by decide +kernel), by decide +kernel⟩,
   ⟨begun (up.setRing 5 { state := .active, item := some { desc := 0x42, begun := true, x := [(7, 1)] } }) (0x42 + 64 * 2 ^ 256), 0, .ring 0,
     fresh (0x42 + 64 * 2 ^ 256), begun_starts _ _ _ (by decide +kernel) (by decide +kernel), by decide +kernel⟩,
   ⟨begun (up) (0x42 + 1 * 2 ^ 129 + 64 * 2 ^ 256), 0, .ring 0, fresh (0x42 + 1 * 2 ^ 129 + 64 * 2 ^ 256),
     begun_starts _ _ _ (by decide +kernel) (by decide +kernel), by decide +kernel⟩,
   ⟨begun (up) (0x42 + 64 * 2 ^ 256), 0, .ring 0, fresh (0x42 + 64 * 2 ^ 256), begun_starts _ _ _ (by decide +kernel) (by decide +kernel),
     by decide +kernel⟩,
   ⟨begun ({ up with trc := { state := .pre } }) (0x42 + 1 * 2 ^ 130 + 64 * 2 ^ 256), 0, .ring 0, fresh (0x42 + 1 * 2 ^ 130 + 64 * 2 ^ 256),
     begun_starts _ _ _ (by decide +kernel) (by decide +kernel), by decide +kernel⟩,
   ⟨begun ({ up with trc := { ring := [traceRec] } }) (0x42 + 64 * 2 ^ 256), 0, .ring 0, fresh (0x42 + 64 * 2 ^ 256),
     begun_starts _ _ _ (by decide +kernel) (by decide +kernel), by decide +kernel⟩,
   ⟨begun (up.setChain 7 whole) (0x43 + 127 * 2 ^ 128 + 127 * 2 ^ 136), 0, .ring 0, fresh (0x43 + 127 * 2 ^ 128 + 127 * 2 ^ 136),
     begun_starts _ _ _ (by decide +kernel) (by decide +kernel), by decide +kernel⟩,
   ⟨begun (up) (0x50 + 128 * 2 ^ 128), 0, .ring 0, fresh (0x50 + 128 * 2 ^ 128), begun_starts _ _ _ (by decide +kernel) (by decide +kernel),
     by decide +kernel⟩,
   ⟨begun (up) (0x52 + 128 * 2 ^ 128), 0, .ring 0, fresh (0x52 + 128 * 2 ^ 128), begun_starts _ _ _ (by decide +kernel) (by decide +kernel),
     by decide +kernel⟩,
   ⟨begun (up.setChain 7 whole) (0x50 + 128 * 2 ^ 128), 0, .ring 0, fresh (0x50 + 128 * 2 ^ 128),
     begun_starts _ _ _ (by decide +kernel) (by decide +kernel), by decide +kernel⟩,
   ⟨begun (up.setChain 7 whole) (0x52 + 128 * 2 ^ 128), 0, .ring 0, fresh (0x52 + 128 * 2 ^ 128),
     begun_starts _ _ _ (by decide +kernel) (by decide +kernel), by decide +kernel⟩,
   ⟨begun (up.setChain 7 whole) (0x52 + 128 * 2 ^ 128 + 1 * 2 ^ 136), 0, .ring 0, fresh (0x52 + 128 * 2 ^ 128 + 1 * 2 ^ 136),
     begun_starts _ _ _ (by decide +kernel) (by decide +kernel), by decide +kernel⟩,
   ⟨begun (up.setChain 7 whole) (0x51 + 128 * 2 ^ 128 + 1 * 2 ^ 136), 0, .ring 0, fresh (0x51 + 128 * 2 ^ 128 + 1 * 2 ^ 136),
     begun_starts _ _ _ (by decide +kernel) (by decide +kernel), by decide +kernel⟩,
   ⟨begun ({ up with now := 5000 }.setChain 7 whole) (0x51 + 128 * 2 ^ 128), 0, .ring 0, fresh (0x51 + 128 * 2 ^ 128),
     begun_starts _ _ _ (by decide +kernel) (by decide +kernel), by decide +kernel⟩,
   ⟨begun (up) (0x51 + 128 * 2 ^ 128 + 1 * 2 ^ 136), 0, .ring 0, fresh (0x51 + 128 * 2 ^ 128 + 1 * 2 ^ 136),
     begun_starts _ _ _ (by decide +kernel) (by decide +kernel), by decide +kernel⟩,
   ⟨begun (up) (0x60 + 64 * 2 ^ 192), 0, .ring 0, fresh (0x60 + 64 * 2 ^ 192), begun_starts _ _ _ (by decide +kernel) (by decide +kernel),
     by decide +kernel⟩,
   ⟨begun (up) (0x61 + 64 * 2 ^ 192), 0, .ring 0, fresh (0x61 + 64 * 2 ^ 192), begun_starts _ _ _ (by decide +kernel) (by decide +kernel),
     by decide +kernel⟩,
   ⟨begun (up) (0x62 + 1 * 2 ^ 160), 0, .ring 0, fresh (0x62 + 1 * 2 ^ 160), begun_starts _ _ _ (by decide +kernel) (by decide +kernel),
     by decide +kernel⟩,
   ⟨begun ({ up with bursts := [burst true] }) (0x63 + 1 * 2 ^ 128), 0, .ring 0, fresh (0x63 + 1 * 2 ^ 128),
     begun_starts _ _ _ (by decide +kernel) (by decide +kernel), by decide +kernel⟩,
   ⟨begun (up) (0x63 + 3 * 2 ^ 128), 0, .ring 0, fresh (0x63 + 3 * 2 ^ 128), begun_starts _ _ _ (by decide +kernel) (by decide +kernel),
     by decide +kernel⟩,
   ⟨begun ({ up with htu := { enabled := true, tlb := [{ vpage := 5, big := false, phys := 5, write := true }] } }) (0x64 + 1 * 2 ^ 128), 0, .ring 0,
     fresh (0x64 + 1 * 2 ^ 128), begun_starts _ _ _ (by decide +kernel) (by decide +kernel), by decide +kernel⟩,
   ⟨begun ({ up with htu := { enabled := true, ops := [{ hostWrite (.item (.ring 5)) with page := some 0 }], nextId := 1, tlb := [{ vpage := 0, big := false, phys := 5, write := true }] } }) (0x64 + 1 * 2 ^ 128),
     0, .ring 0, fresh (0x64 + 1 * 2 ^ 128), begun_starts _ _ _ (by decide +kernel) (by decide +kernel), by decide +kernel⟩,
   ⟨begun (up) (0x65 + 127 * 2 ^ 136 + 5 * 2 ^ 192), 0, .ring 0, fresh (0x65 + 127 * 2 ^ 136 + 5 * 2 ^ 192),
     begun_starts _ _ _ (by decide +kernel) (by decide +kernel)⟩,
   ⟨begun (up.setRing 5 { state := .active, item := some { desc := 0x66, begun := true, x := [(7, 1)] } }) (0x66 + 4096 * 2 ^ 160), 0, .ring 0,
     fresh (0x66 + 4096 * 2 ^ 160), begun_starts _ _ _ (by decide +kernel) (by decide +kernel), by decide +kernel⟩,
   ⟨begun (up) (0x66 + 4096 * 2 ^ 160 + 64 * 2 ^ 192), 0, .ring 0, fresh (0x66 + 4096 * 2 ^ 160 + 64 * 2 ^ 192),
     begun_starts _ _ _ (by decide +kernel) (by decide +kernel), by decide +kernel⟩,
   ⟨begun ({ up with cut := { busy := true } }) (0x18 + 128 * 2 ^ 128), 0, .ring 0, fresh (0x18 + 128 * 2 ^ 128),
     begun_starts _ _ _ (by decide +kernel) (by decide +kernel), by decide +kernel⟩,
   ⟨begun (up.setChain 7 whole) (0x18 + 128 * 2 ^ 128), 0, .ring 0, fresh (0x18 + 128 * 2 ^ 128),
     begun_starts _ _ _ (by decide +kernel) (by decide +kernel), by decide +kernel⟩⟩

end Sys2Proof.Tests
end

/-! PROOFS. Host accesses to BAR 0 (O8, O9): what bringing the link up and a wake event leave of the state, what a write
and a read at an offset of BAR 0 do as they arrive, and what a served write of a register does. -/
namespace Sys2Proof.Machine

/-! ### What a wake event and the link's waking leave unchanged -/

/-- An event that occurs is a matter of the power block alone. -/
theorem State.wakeEvent_frame (s : State) (code line : Nat) (p : Pwr) :
    { s.wakeEvent code line with pwr := p } = { s with pwr := p } := by
  unfold State.wakeEvent; split <;> rfl
/-- PWR_EVENTS records an event that is seen, whether or not its source is enabled (R119). -/
@[simp] theorem State.seeEvent_events (s : State) (edge code line : Nat) :
    (s.seeEvent edge code line).pwr.events = s.pwr.events ||| 2 ^ code := by
  unfold State.seeEvent; dsimp only; split <;> rfl
@[simp] theorem State.seeEvent_asleep (s : State) (edge code line : Nat) : (s.seeEvent edge code line).asleep = s.asleep := by
  unfold State.seeEvent; dsimp only; split <;> rfl
theorem State.wakeEvent_atEdge {s : State} (h : s.now % 1000 = 0) (code line : Nat) :
    s.wakeEvent code line = s.seeEvent s.now code line := if_pos h
theorem State.wakeEvent_offEdge {s : State} (h : s.now % 1000 ≠ 0) (code line : Nat) :
    s.wakeEvent code line = { s with pwr := { s.pwr with coming := s.pwr.coming ++ [(code, line)] } } := if_neg h
@[simp] theorem State.wakeEvent_asleep (s : State) (code line : Nat) : (s.wakeEvent code line).asleep = s.asleep := by
  by_cases h : s.now % 1000 = 0
  · rw [State.wakeEvent_atEdge h, State.seeEvent_asleep]
  · rw [State.wakeEvent_offEdge h]; rfl

/-- An access changes the state it finds in its pins and its power block only. -/
theorem State.linked_frame (s : State) : s.linked = { s with pins := s.linked.pins, pwr := s.linked.pwr } := by
  simp only [State.linked, State.linkUse, State.linkWake]
  split
  · unfold State.wakeEvent; split <;> rfl
  · rfl
@[simp] theorem State.linked_hub (s : State) : s.linked.hub = s.hub := by rw [State.linked_frame]
@[simp] theorem State.linked_bhv (s : State) : s.linked.bhv = s.bhv := by rw [State.linked_frame]
@[simp] theorem State.linked_run (s : State) : s.linked.run = s.run := by rw [State.linked_frame]
@[simp] theorem State.linked_cut (s : State) : s.linked.cut = s.cut := by rw [State.linked_frame]
@[simp] theorem State.linked_held (s : State) : s.linked.held = s.held := by rw [State.linked_frame]
@[simp] theorem State.linked_now (s : State) : s.linked.now = s.now := by rw [State.linked_frame]
/-- Leaving L1 is an event; it neither wakes the hub nor puts it to sleep. -/
@[simp] theorem State.linked_asleep (s : State) : s.linked.asleep = s.asleep := by
  simp only [State.linked, State.linkUse, State.linkWake]
  split
  · exact State.wakeEvent_asleep _ 8 0
  · rfl

/-! ### Accesses of BAR 0 as they arrive -/

theorem not_cfgBase_le {off : Nat} (h : off < bar2) : ¬ cfgBase ≤ off := by simp only [bar2] at h; simp only [cfgBase]; omega
theorem isDoorbell_of_lt_bar2 {off : Nat} (h : off < bar2) (size : Nat) : isDoorbell off size = false := by
  simp [isDoorbell, Nat.not_le.mpr h]
/-- A write of BAR 0 that does not wait is taken at once. -/
theorem hostWrite_of_taken {s : State} {off : Nat} (hr : s.hostReaches = true) (hb : off < bar2) (hw : s.linked.hostWaits off = false)
    (size v : Nat) : s.hostWrite off size v = .next (s.linked.bar0Take off size (v % 2 ^ (8 * size))) := by
  simp only [State.linked] at hw
  simp [State.hostWrite, not_cfgBase_le hb, hr, isDoorbell_of_lt_bar2 hb, hw, State.hostApply, hb, State.linked]
/-- A write of BAR 0 that waits is held. -/
theorem hostWrite_of_waits {s : State} {off : Nat} (hr : s.hostReaches = true) (hb : off < bar2) (hw : s.linked.hostWaits off = true)
    (size v : Nat) : s.hostWrite off size v = .next (s.linked.hold (.write off size (v % 2 ^ (8 * size))) false) := by
  simp only [State.linked] at hw
  simp [State.hostWrite, not_cfgBase_le hb, hr, isDoorbell_of_lt_bar2 hb, hw, State.linked]
/-- A read of BAR 0 that does not wait gives its value at once. -/
theorem hostRead_of_taken {s : State} {off : Nat} (hr : s.hostReaches = true) (hb : off < bar2) (hw : s.linked.hostWaits off = false)
    (size : Nat) : s.hostRead off size =
      .next { (s.linked.bar0Read off size).2 with readVal := BitVec.ofNat 64 (s.linked.bar0Read off size).1 } := by
  simp only [State.linked] at hw
  simp [State.hostRead, not_cfgBase_le hb, hr, hw, State.hostTake, hb, State.linked]

/-- A write to a block left unserved, or that a reset of this cycle reaches, is discarded (R140, R162, R532). -/
theorem bar0Take_of_discarded {s : State} {off : Nat} (h : s.served0 off = false ∨ s.rstReaches off = true) (size v : Nat) :
    s.bar0Take off size v = s := by simp [State.bar0Take, h]
/-- Where neither holds, a write of a size or alignment not allowed writes nothing and is noted (R9, R252). -/
theorem bar0Take_of_misplaced {s : State} {off size v o : Nat} (h0 : s.served0 off = true) (hx : s.rstReaches off = false)
    (h : writeMisuse off size v = some (o, true)) : s.bar0Take off size v = s.misuse (o, true) := by
  simp [State.bar0Take, h0, hx, h]
/-- Any other misuse is noted and the bits that may be written are (R9). -/
theorem bar0Take_of_noted {s : State} {off size v o : Nat} (h0 : s.served0 off = true) (hx : s.rstReaches off = false)
    (h : writeMisuse off size v = some (o, false)) :
    s.bar0Take off size v = (s.misuse (o, false)).bar0Write off size (writable off size v) := by
  simp [State.bar0Take, h0, hx, h]
/-- A write without misuse recovers its register and writes it (Table 18.3). -/
theorem bar0Take_of_clean {s : State} {off size v : Nat} (h0 : s.served0 off = true) (hx : s.rstReaches off = false)
    (h : writeMisuse off size v = none) : s.bar0Take off size v = (s.recover off true).bar0Write off size v := by
  simp [State.bar0Take, h0, hx, h]
/-- A read of a size or alignment not allowed gives a free value (R9, R252). -/
theorem bar0Read_of_misplaced {s : State} {off size : Nat} (h0 : s.served0 off = true) (hz : sizeOk off size = false) :
    s.bar0Read off size = (s.free.1.toNat % 2 ^ (8 * size), s.free.2.misuse (off, true)) := by simp [State.bar0Read, h0, hz]

/-! ### The misuse a write makes -/

theorem writeMisuse_of_misplaced {off size : Nat} (hz : sizeOk off size = false) (v : Nat) : writeMisuse off size v = some (off, true) := by
  simp [writeMisuse, hz]
theorem writeMisuse_of_noRegister {off size v : Nat} (hz : sizeOk off size = true) (hm : regMask off = none) (hv : v ≠ 0) :
    writeMisuse off size v = some (off, false) := by simp [writeMisuse, hz, hm, hv]
theorem writeMisuse_of_reserved {off v m : Nat} (hz : sizeOk off 4 = true) (hm : regMask off = some m) (hv : v &&& m ≠ v) :
    writeMisuse off 4 v = some (off, false) := by simp [writeMisuse, hz, hm, hv]
theorem writeMisuse_of_clean {off size v m : Nat} (hz : sizeOk off size = true) (hm : regMask off = some m) (hv : size = 4 → v &&& m = v) :
    writeMisuse off size v = none := by
  simp only [writeMisuse, hz, hm]; simpa using hv
/-- A write without misuse takes away what was noted of its register (Table 18.3). -/
theorem not_mem_recover_misuses (s : State) (off : Nat) : (off, false) ∉ (s.recover off true).misuses := by
  simp [State.recover]

/-! ### Accesses held -/

/-- A held access joins the end of the queue, and nothing else changes but the power block. -/
theorem State.hold_held (s : State) (h : Held) (bell : Bool) : (s.hold h bell).held = s.held ++ [h] := by
  unfold State.hold; dsimp only
  split
  · exact congrArg State.held (State.wakeEvent_frame _ 6 0 s.pwr)
  · rfl
theorem State.hold_frame (s : State) (h : Held) (bell : Bool) : { s.hold h bell with held := s.held, pwr := s.pwr } = s := by
  unfold State.hold; dsimp only
  split
  · exact congrArg (fun t : State => { t with held := s.held }) (State.wakeEvent_frame { s with held := s.held ++ [h] } 6 0 s.pwr)
  · rfl
/-- While the hub sleeps, a held access other than a doorbell is a HOST_ACCESS wake event (R118). -/
theorem State.hold_of_asleep {s : State} (ha : s.asleep = true) (h : Held) :
    s.hold h false = State.wakeEvent { s with held := s.held ++ [h] } 6 0 := by
  have e : State.asleep { s with held := s.held ++ [h] } = true := ha
  simp [State.hold, e]
theorem State.hold_of_awake {s : State} (ha : s.asleep = false) (h : Held) (bell : Bool) :
    s.hold h bell = { s with held := s.held ++ [h] } := by
  have e : State.asleep { s with held := s.held ++ [h] } = false := ha
  simp [State.hold, e]

/-! ### Served writes, block by block -/

section
variable {s : State} {off : Nat} (h0 : s.served0 off = true) (size v : Nat)
include h0
theorem bar0Write_hub (hb : off < 0x1000) : s.bar0Write off size v = hubWrite0 s off v := by simp [State.bar0Write, h0, hb]
theorem bar0Write_pwr (hl : 0x1000 ≤ off) (hb : off < 0x2000) : s.bar0Write off size v = pwrWrite s (off - 0x1000) v := by
  simp [State.bar0Write, h0, hb, Nat.not_lt.mpr hl]
theorem bar0Write_bhv (hl : 0x8000 ≤ off) (hb : off < 0xA000) : s.bar0Write off size v = bhvWrite s (off - 0x8000) v := by
  simp [State.bar0Write, h0, hb, show ¬ off < 0x1000 by omega, show ¬ off < 0x2000 by omega, show ¬ off < 0x3000 by omega,
    show ¬ off < 0x4000 by omega, show ¬ off < 0x6000 by omega, Nat.not_lt.mpr hl]
theorem bar0Write_run (hl : 0xA000 ≤ off) (hb : off < 0xC000) : s.bar0Write off size v = runWrite s (off - 0xA000) v := by
  simp [State.bar0Write, h0, hb, show ¬ off < 0x1000 by omega, show ¬ off < 0x2000 by omega, show ¬ off < 0x3000 by omega,
    show ¬ off < 0x4000 by omega, show ¬ off < 0x6000 by omega, show ¬ off < 0x8000 by omega, Nat.not_lt.mpr hl]
end

/-- The offset's block is served as the access finds it. -/
theorem served0_of_serves {s : State} {off : Nat} (h : s.serves off = true) : s.linked.served0 off = true := by
  obtain ⟨-, -, h0, -, -⟩ := (serves_iff s off).mp h
  exact h0
/-- A served word written to a register with its reserved bits 0 is the register write. -/
theorem hostWrite_of_serves {s : State} {off m v : Nat} (h : s.serves off = true) (ha : off % 4 = 0) (hb : off < bar2)
    (hm : regMask off = some m) (hv : v < 2 ^ 32) (hr : v &&& m = v) : s.hostWrite off 4 v = .next (s.linked.bar0Write off 4 v) :=
  hostWrite_open h 4 v hv hb (writeMisuse_none ha hm hr)
/-- No bit outside the low `n` is set in a number below `2 ^ n`. -/
theorem and_lowMask_of_lt {v n : Nat} (h : v < 2 ^ n) : v &&& (2 ^ n - 1) = v := by
  rw [Nat.and_two_pow_sub_one_eq_mod, Nat.mod_eq_of_lt h]

section
variable {s : State} {off m v : Nat} (h : s.serves off = true) (hm : regMask off = some m) (ha : off % 4 = 0) (hv : v < 2 ^ 32) (hr : v &&& m = v)
include h hm ha hv hr
theorem hostWrite_hub (hb : off < 0x1000) : s.hostWrite off 4 v = .next (hubWrite0 s.linked off v) := by
  rw [hostWrite_of_serves h ha (by unfold bar2; omega) hm hv hr, bar0Write_hub (served0_of_serves h) 4 v hb]
theorem hostWrite_pwr (hl : 0x1000 ≤ off) (hb : off < 0x2000) : s.hostWrite off 4 v = .next (pwrWrite s.linked (off - 0x1000) v) := by
  rw [hostWrite_of_serves h ha (by unfold bar2; omega) hm hv hr, bar0Write_pwr (served0_of_serves h) 4 v hl hb]
theorem hostWrite_bhv (hl : 0x8000 ≤ off) (hb : off < 0xA000) : s.hostWrite off 4 v = .next (bhvWrite s.linked (off - 0x8000) v) := by
  rw [hostWrite_of_serves h ha (by unfold bar2; omega) hm hv hr, bar0Write_bhv (served0_of_serves h) 4 v hl hb]
theorem hostWrite_run (hl : 0xA000 ≤ off) (hb : off < 0xC000) : s.hostWrite off 4 v = .next (runWrite s.linked (off - 0xA000) v) := by
  rw [hostWrite_of_serves h ha (by unfold bar2; omega) hm hv hr, bar0Write_run (served0_of_serves h) 4 v hl hb]
end

/-! ### The commands that are host accesses -/

theorem exec_registerWrite (off size v : Nat) (s : State) : exec (.registerWrite off size v) s = s.hostWrite off size v := rfl
theorem exec_hiLatchRead (off size : Nat) (s : State) : exec (.hiLatchRead off size) s = s.hostRead off size := rfl
theorem exec_hubStatClrStalls (s : State) : exec .hubStatClrStalls s = s.hostWrite 0x14 4 1 := rfl
theorem exec_hubStatClrYields (s : State) : exec .hubStatClrYields s = s.hostWrite 0x14 4 2 := rfl
theorem exec_hubStatClrLatency (s : State) : exec .hubStatClrLatency s = s.hostWrite 0x14 4 4 := rfl
theorem exec_hubStatClrStrokes (s : State) : exec .hubStatClrStrokes s = s.hostWrite 0x14 4 8 := rfl

/-! ### O8 -/

/-- Each bit of HUB_STAT_CLR clears its own statistics alone (R65, Table 2.9). -/
theorem hubStatClr_clears_its_statistics {s : State} (h : s.serves 0x14 = true) :
    exec .hubStatClrStalls s = .next { s.linked with hub := { s.hub with stalls := [] } } ∧
    exec .hubStatClrYields s = .next { s.linked with hub := { s.hub with yields := 0 } } ∧
    exec .hubStatClrLatency s = .next { s.linked with hub := { s.hub with latUrg := 0, latScan := 0 } } ∧
    exec .hubStatClrStrokes s = .next { s.linked with hub := { s.hub with strokes := 0, strokesHi := 0 } } := by
  have write {v : Nat} (hv : v < 2 ^ 32) (hr : v &&& 0xF = v) : s.hostWrite 0x14 4 v = .next (hubWrite0 s.linked 0x14 v) :=
    hostWrite_hub h rfl rfl hv hr (by decide)
  rw [exec_hubStatClrStalls, exec_hubStatClrYields, exec_hubStatClrLatency, exec_hubStatClrStrokes, ← s.linked_hub]
  exact ⟨write (by decide) rfl, write (by decide) rfl, write (by decide) rfl, write (by decide) rfl⟩

theorem write_hubArb {s : State} {v : Nat} (hv : v < 2 ^ 32) (h : s.serves 0x10 = true) (hr : v &&& 0xFF7FF = v) :
    exec (.registerWrite 0x10 4 v) s =
      .next { s.linked with hub := { s.hub with yieldWait := fld v 0 11, bulkMin := fld v 12 4, scanGuard := fld v 16 4 } } := by
  rw [exec_registerWrite, hostWrite_hub h rfl rfl hv hr (by decide), ← s.linked_hub]; rfl
theorem write_wakeEn {s : State} {v : Nat} (hv : v < 2 ^ 32) (h : s.serves 0x1004 = true) (hr : v < 64) :
    exec (.registerWrite 0x1004 4 v) s = .next { s.linked with pwr := { s.linked.pwr with wakeEn := v } } := by
  rw [exec_registerWrite, hostWrite_pwr h rfl rfl hv (and_lowMask_of_lt (n := 6) hr) (by decide) (by decide)]
  simp [pwrWrite, Nat.mod_eq_of_lt hr]
theorem write_wakeLines {s : State} {v : Nat} (hv : v < 2 ^ 32) (h : s.serves 0x1008 = true) (hr : v &&& 0xFFFDFF00 = v) :
    exec (.registerWrite 0x1008 4 v) s = .next { s.linked with pwr := { s.linked.pwr with wakeLines := v } } := by
  rw [exec_registerWrite, hostWrite_pwr h rfl rfl hv hr (by decide) (by decide)]
  simp [pwrWrite, hr]
theorem write_wakeTimer {s : State} {v : Nat} (hv : v < 2 ^ 32) (h : s.serves 0x1010 = true) :
    exec (.registerWrite 0x1010 4 v) s = .next { s.linked with pwr := { s.linked.pwr with timer := v } } := by
  rw [exec_registerWrite, hostWrite_pwr h rfl rfl hv (and_lowMask_of_lt hv) (by decide) (by decide)]; rfl
theorem write_bhvCtrl {s : State} {v : Nat} (hv : v < 2 ^ 32) (h : s.serves 0x8000 = true) (hr : v &&& 0x71 = v) :
    exec (.registerWrite 0x8000 4 v) s = .next { s.linked with bhv := { s.bhv with autoRedisc := bit v 0, traceShare := fld v 4 3 } } := by
  rw [exec_registerWrite, hostWrite_bhv h rfl rfl hv hr (by decide) (by decide), ← s.linked_bhv]; rfl
theorem write_bhvTxnTimeout {s : State} {v : Nat} (hv : v < 2 ^ 32) (h : s.serves 0x8004 = true) (hr : v < 2 ^ 16) :
    exec (.registerWrite 0x8004 4 v) s = .next { s.linked with bhv := { s.bhv with txnTimeout := v } } := by
  rw [exec_registerWrite, hostWrite_bhv h rfl rfl hv (and_lowMask_of_lt hr) (by decide) (by decide), ← s.linked_bhv]; rfl
theorem write_runCtrl {s : State} {v : Nat} (hv : v < 2 ^ 32) (h : s.serves 0xA000 = true) (hr : v &&& 0xFFF01 = v) :
    exec (.registerWrite 0xA000 4 v) s =
      .next { s.linked with run := { s.run with relayEn := bit v 0, relayMask := fld v 8 8, pulse := fld v 16 4 } } := by
  rw [exec_registerWrite, hostWrite_run h rfl rfl hv hr (by decide) (by decide), ← s.linked_run]; rfl
theorem write_cutLimits {s : State} {v : Nat} (hv : v < 2 ^ 32) (h : s.serves 0xB000 = true) (hr : v < 2 ^ 24) :
    exec (.registerWrite 0xB000 4 v) s = .next { s.linked with cut := { s.cut with drainLimit := fld v 0 16, linkLimit := fld v 16 8 } } := by
  rw [exec_registerWrite, hostWrite_run h rfl rfl hv (and_lowMask_of_lt hr) (by decide) (by decide), ← s.linked_cut]; rfl
/-- A 1 written to a bit of PWR_EVENTS clears it, and a 0 leaves it. -/
theorem write_pwrEvents {s : State} {v : Nat} (h : s.serves 0x100C = true) (hv : v < 2 ^ 32) (hr : v &&& 0x7FE = v) :
    ∃ e, exec (.registerWrite 0x100C 4 v) s = .next { s.linked with pwr := { s.linked.pwr with events := e } } ∧
      ∀ b, bit e b = (decide (b < 11) && bit s.linked.pwr.events b && !bit v b) := by
  refine ⟨maskOf 11 (fun b => bit s.linked.pwr.events b && !bit v b), ?_, fun b => ?_⟩
  · rw [exec_registerWrite, hostWrite_pwr h rfl rfl hv hr (by decide) (by decide)]; rfl
  · rw [maskOf_bit, Bool.and_assoc]

/-- Settles O8: each write opens to the write of its block, and each block's write sets the fields of the one register. -/
theorem hubStatisticsAndPlainRegisters : Obligations.HubStatisticsAndPlainRegisters :=
  ⟨fun _ h => hubStatClr_clears_its_statistics h,
   fun _ _ hv => ⟨write_hubArb hv, write_wakeEn hv, write_wakeLines hv, write_wakeTimer hv, write_bhvCtrl hv, write_bhvTxnTimeout hv,
     write_runCtrl hv, write_cutLimits hv⟩,
   fun _ _ => write_pwrEvents⟩

/-! ### O9 -/

/-- What a BAR 0 access asks so that it is taken as it arrives, and a write of it not discarded. -/
structure State.Takes (s : State) (off : Nat) : Prop where
  reaches : s.hostReaches = true
  inBar0 : off < bar2
  prompt : s.linked.hostWaits off = false
  served : s.linked.served0 off = true
  unreset : s.linked.rstReaches off = false

section
variable {s : State} {off size v : Nat} (h : s.Takes off) (hv : v < 2 ^ (8 * size))
include h hv

theorem State.Takes.exec_registerWrite : exec (.registerWrite off size v) s = .next (s.linked.bar0Take off size v) := by
  rw [Machine.exec_registerWrite, hostWrite_of_taken h.reaches h.inBar0 h.prompt, Nat.mod_eq_of_lt hv]
theorem write_misplaced (hz : sizeOk off size = false) : exec (.registerWrite off size v) s = .next (s.linked.misuse (off, true)) := by
  rw [h.exec_registerWrite hv, bar0Take_of_misplaced h.served h.unreset (writeMisuse_of_misplaced hz v)]
theorem write_noRegister (hz : sizeOk off size = true) (hm : regMask off = none) (hn : v ≠ 0) :
    exec (.registerWrite off size v) s = .next ((s.linked.misuse (off, false)).bar0Write off size 0) := by
  rw [h.exec_registerWrite hv, bar0Take_of_noted h.served h.unreset (writeMisuse_of_noRegister hz hm hn)]
  simp [writable, hm]
theorem write_reserved {m : Nat} (ha : off % 4 = 0) (hz : size = 4) (hm : regMask off = some m) (hr : v &&& m ≠ v) :
    exec (.registerWrite off size v) s = .next ((s.linked.misuse (off, false)).bar0Write off 4 (v &&& m)) := by
  subst hz
  rw [h.exec_registerWrite hv, bar0Take_of_noted h.served h.unreset (writeMisuse_of_reserved (by simp [sizeOk, ha]) hm hr)]
  simp [writable, hm]
theorem write_clean {m : Nat} (hz : sizeOk off size = true) (hm : regMask off = some m) (hr : size = 4 → v &&& m = v) :
    exec (.registerWrite off size v) s = .next ((s.linked.recover off true).bar0Write off size v) := by
  rw [h.exec_registerWrite hv, bar0Take_of_clean h.served h.unreset (writeMisuse_of_clean hz hm hr)]
end

theorem read_misplaced {s : State} {off size : Nat} (h : s.Takes off) (hz : sizeOk off size = false) :
    exec (.hiLatchRead off size) s =
      .next { s.linked.free.2.misuse (off, true) with readVal := BitVec.ofNat 64 (s.linked.free.1.toNat % 2 ^ (8 * size)) } := by
  rw [exec_hiLatchRead, hostRead_of_taken h.reaches h.inBar0 h.prompt, bar0Read_of_misplaced h.served hz]
/-- A write to a block left unserved, or that a reset of this very cycle reaches, changes nothing but what bringing the link up does. -/
theorem write_discarded {s : State} {off : Nat} (hr : s.hostReaches = true) (hb : off < bar2) (hw : s.linked.hostWaits off = false)
    (hd : s.linked.served0 off = false ∨ s.linked.rstReaches off = true) (size v : Nat) :
    exec (.registerWrite off size v) s = .next s.linked := by
  rw [exec_registerWrite, hostWrite_of_taken hr hb hw, bar0Take_of_discarded hd]
/-- What holding an access does to the power block: an event while the hub sleeps, seen at once at an AON edge and at the next one
otherwise (R118), and nothing while it is awake. -/
theorem State.hold_pwr (s : State) (a : Held) :
    (s.asleep = true → s.now % 1000 = 0 → (s.hold a false).pwr.events = s.pwr.events ||| 2 ^ 6) ∧
    (s.asleep = true → s.now % 1000 ≠ 0 → (s.hold a false).pwr = { s.pwr with coming := s.pwr.coming ++ [(6, 0)] }) ∧
    (s.asleep = false → (s.hold a false).pwr = s.pwr) := by
  refine ⟨fun ha hn => ?_, fun ha hn => ?_, fun ha => ?_⟩
  · rw [State.hold_of_asleep ha, State.wakeEvent_atEdge (s := { s with held := s.held ++ [a] }) hn, State.seeEvent_events]
  · rw [State.hold_of_asleep ha, State.wakeEvent_offEdge (s := { s with held := s.held ++ [a] }) hn]
  · rw [State.hold_of_awake ha]
theorem write_held {s : State} {off v : Nat} (hr : s.hostReaches = true) (hb : off < bar2) (hv : v < 2 ^ 32)
    (hw : s.linked.hostWaits off = true) :
    ∃ t, exec (.registerWrite off 4 v) s = .next t ∧ t.held = s.held ++ [.write off 4 v] ∧
      (s.asleep = true → s.now % 1000 = 0 → t.pwr.events = s.linked.pwr.events ||| 2 ^ 6) ∧
      (s.asleep = true → s.now % 1000 ≠ 0 → t.pwr = { s.linked.pwr with coming := s.linked.pwr.coming ++ [(6, 0)] }) ∧
      (s.asleep = false → t.pwr = s.linked.pwr) ∧ { t with held := s.held, pwr := s.linked.pwr } = s.linked := by
  have hp := s.linked.hold_pwr (.write off 4 v)
  rw [State.linked_asleep, State.linked_now] at hp
  obtain ⟨hEdge, hOff, hAwake⟩ := hp
  refine ⟨s.linked.hold (.write off 4 v) false, ?_, ?_, hEdge, hOff, hAwake, ?_⟩
  · rw [exec_registerWrite, hostWrite_of_waits hr hb hw, Nat.mod_eq_of_lt hv]
  · rw [State.hold_held, State.linked_held]
  · rw [← s.linked_held]; exact State.hold_frame ..

/-- Settles O9: the access is taken, discarded or held as it arrives, and a write that is taken does what its misuse leaves of it. -/
theorem misusedUnservedAndHeldAccesses : Obligations.MisusedUnservedAndHeldAccesses := by
  refine ⟨fun s off size v hr hb hw hs hx hv => ?_, fun s off size v hr hb hw hd => write_discarded hr hb hw hd size v,
    fun s off v hr hb hv hw => write_held hr hb hv hw⟩
  have h : s.Takes off := ⟨hr, hb, hw, hs, hx⟩
  exact ⟨write_misplaced h hv, read_misplaced h, write_noRegister h hv, fun _ => write_reserved h hv, fun _ => write_clean h hv,
    fun m _ e => e ▸ not_mem_recover_misuses s.linked off⟩

end Sys2Proof.Machine

/-! PROOFS. Waits that end by time (O53): what a timed command makes of the work item it names, and what it leaves alone. -/
namespace Sys2Proof.Machine

/-! ### The work item a timed command names -/

theorem workOf_ring_lt {n m : Nat} (h : workOf n = .ring m) : m < 512 := by
  unfold workOf at h
  split at h
  · cases h; assumption
  · split at h <;> cases h
/-- Between `s` and `t` work item `w` has become `j`, and no other work item and nothing else has changed. -/
structure ItemStep (s t : State) (w : Work) (j : Item) : Prop where
  item : t.item? w = some j
  others : ∀ v, v ≠ w → t.item? v = s.item? v
  frame : { t with rings := s.rings, scan := s.scan, hub := s.hub } = s
theorem State.setItem_frame (s : State) (w : Work) (j : Item) :
    { s.setItem w j with rings := s.rings, scan := s.scan, hub := s.hub } = s := by
  cases w with
  | ring n => simp only [State.setItem, State.setRing]; split <;> rfl
  | scan => rfl
  | free k => rfl
theorem State.setItem_step {s : State} {n : Nat} {i : Item} (h : s.item? (workOf n) = some i) (j : Item) :
    ItemStep s (s.setItem (workOf n) j) (workOf n) j :=
  ⟨State.item?_setItem (fun _ => workOf_ring_lt) h, fun _ e => item_setItem_ne s j e, s.setItem_frame _ j⟩
theorem State.updItem_of_item {s : State} {w : Work} {i : Item} (h : s.item? w = some i) (g : Item → Item) :
    s.updItem w g = s.setItem w (Item.mark s.now i (g i)) := by
  simp only [State.updItem, State.modItem, h]
@[simp] theorem Item.mark_self (now : Nat) (i : Item) : Item.mark now i i = i := by simp [Item.mark]
section
variable {s : State} {n : Nat} {i : Item} {p : Item → Bool} (h : s.item? (workOf n) = some i)
include h

/-- A command whose condition the item meets changes that item. -/
theorem State.onWork_met (hp : p i = true) (g : Item → Item) : ItemStep s (s.onWork n p g) (workOf n) (Item.mark s.now i (g i)) := by
  rw [State.onWork, State.updItem_of_item h, if_pos hp]; exact State.setItem_step h _
/-- A command whose condition the item does not meet changes no item. -/
theorem State.onWork_unmet (hp : p i = false) (g : Item → Item) (v : Work) : (s.onWork n p g).item? v = s.item? v := by
  rw [State.onWork, State.updItem_of_item h, if_neg (by simp [hp]), Item.mark_self]
  by_cases e : v = workOf n
  · rw [e, (State.setItem_step h i).item, h]
  · exact item_setItem_ne s i e
end

/-! ### Waits that free their item -/

/-- The item once its wait has ended. -/
def Item.wake (i : Item) (now : Nat) : Item := Item.mark now i { i with wait := Wait.no }
theorem Item.freed_wake (i : Item) (now : Nat) : i.freed (i.wake now) := by
  unfold Item.freed Item.wake Item.mark; split <;> exact ⟨rfl, rfl⟩

section
variable {s : State} {n : Nat} {i : Item} (h : s.item? (workOf n) = some i)
include h

theorem waitPoll_wakes (ho : opcodeOf i.desc = 1) (hw : i.wait = .cond) (hm : dbits i.desc 0x10 0 1 = 1) (hd : tget 0 i.x 3 ≤ s.now)
    (hl : i.late s.now = false) : ItemStep s (s.waitPoll n) (workOf n) (i.wake s.now) :=
  State.onWork_met h (by simp [ho, hw, hm, hd, hl]) _
theorem epochRetry_wakes {at_ : Nat} (ho : opcodeOf i.desc = 0x32) (hs : i.stage = 103) (hc : s.fastClock = true)
    (hw : i.wait = .ctl (some at_)) (ht : at_ ≤ s.now) : ItemStep s (s.epochRetry n) (workOf n) (i.wake s.now) := by
  have e : s.epochRetry n = s.updItem (workOf n) (fun i => { i with wait := Wait.no }) := by
    simp only [State.epochRetry, h, hw]; exact if_pos ⟨ho, hs, ht, hc⟩
  rw [e, State.updItem_of_item h]; exact State.setItem_step h _
theorem discoverSettle_wakes {at_ : Nat} (ho : opcodeOf i.desc = 0x50) (hs : i.stage = 3) (hw : i.wait = .ctl (some at_)) (ht : at_ ≤ s.now) :
    ItemStep s (s.discoverSettle n) (workOf n) (i.wake s.now) :=
  State.onWork_met h (by simp [ho, hs, hw, ht]) _
theorem snapPassed_wakes (ho : opcodeOf i.desc = 0x43) (hs : i.stage = 2) (hw : i.wait = .ctl none) (ht : db i.desc 0x28 8 < s.time) :
    ItemStep s (s.snapPassed n) (workOf n) (i.wake s.now) :=
  State.onWork_met h (by simp [ho, hs, hw, ht]) _
theorem drainTimeout_wakes (ho : opcodeOf i.desc = 0x42) (hw : i.wait = .cond) (hl : i.late s.now = true) :
    ItemStep s (s.drainTimeout n) (workOf n) (i.wake s.now) :=
  State.onWork_met h (by simp [ho, hw, hl]) _
end

/-! ### Timeouts -/

/-- The item that its TIMEOUT has ended. -/
def Item.timedOut (i : Item) (now : Nat) : Item := Item.mark now i { i.fail .timeout with wait := Wait.no }
theorem Item.timedOut_fields (i : Item) (now : Nat) : (i.timedOut now).wait = .no ∧ (i.timedOut now).stage = doneStage ∧
    (i.timedOut now).errs = i.errs ++ [.timeout] ∧ (i.timedOut now).detail = i.detail := by
  unfold Item.timedOut Item.mark; split <;> exact ⟨rfl, rfl, rfl, rfl⟩
section
variable {s : State} {n : Nat} {i : Item} (h : s.item? (workOf n) = some i)
include h

/-- The timeout of an opcode whose time has run out ends its waiting item with TIMEOUT (R274). -/
theorem condTimeout_ends {op : Nat} (ho : opcodeOf i.desc = op) (hw : i.wait = .cond) (hl : i.over? s.now = true) :
    ItemStep s (s.condTimeout n op) (workOf n) (i.timedOut s.now) :=
  State.onWork_met h (by simp [ho, hw, hl]) _
theorem condTimeout_early (hl : i.over? s.now = false) (op : Nat) (v : Work) : (s.condTimeout n op).item? v = s.item? v :=
  State.onWork_unmet h (by simp [hl]) _ v
theorem drainTimeout_early (hl : i.late s.now = false) (v : Work) : (s.drainTimeout n).item? v = s.item? v :=
  State.onWork_unmet h (by simp [hl]) _ v
end

/-- A deadline not yet reached has not been passed either. -/
theorem Item.not_over_of_not_late {i : Item} {now : Nat} (h : i.late now = false) : i.over? now = false := by
  unfold Item.late at h
  unfold Item.over?
  cases hd : i.deadline with
  | none => rfl
  | some at_ => simp only [hd, decide_eq_false_iff_not] at h ⊢; omega

/-- Settles O53: each timed command meets the item that waits for it, and a timeout before its time meets none. -/
theorem timedWaitsEnd : Obligations.TimedWaitsEnd := by
  intro s n i h
  refine ⟨fun c hc => ?_, fun c hc hw hl => ?_, fun c hc hl => ?_⟩
  · have wakes : ∃ t, exec c s = .next t ∧ ItemStep s t (workOf n) (i.wake s.now) := by
      rcases hc with ⟨rfl, ho, hw, hm, hd, hl⟩ | ⟨rfl, ho, hs, hk, at_, hw, ht⟩ | ⟨rfl, ho, hs, at_, hw, ht⟩ | ⟨rfl, ho, hs, hw, ht⟩ | ⟨rfl, ho, hw, hl⟩
      · exact ⟨_, rfl, waitPoll_wakes h ho hw hm hd hl⟩
      · exact ⟨_, rfl, epochRetry_wakes h ho hs hk hw ht⟩
      · exact ⟨_, rfl, discoverSettle_wakes h ho hs hw ht⟩
      · exact ⟨_, rfl, snapPassed_wakes h ho hs hw ht⟩
      · exact ⟨_, rfl, drainTimeout_wakes h ho hw hl⟩
    obtain ⟨t, ht, hitem, hothers, hframe⟩ := wakes
    exact ⟨t, _, ht, hitem, i.freed_wake s.now, hothers, hframe⟩
  · have ends : ∃ t, exec c s = .next t ∧ ItemStep s t (workOf n) (i.timedOut s.now) := by
      rcases hc with ⟨rfl, ho⟩ | ⟨rfl, ho⟩ | ⟨rfl, ho⟩ <;> exact ⟨_, rfl, condTimeout_ends h ho hw hl⟩
    obtain ⟨t, ht, hitem, hothers, hframe⟩ := ends
    obtain ⟨hwait, hstage, herrs, hdetail⟩ := i.timedOut_fields s.now
    exact ⟨t, _, ht, hitem, hwait, hstage, herrs, hdetail, hothers, hframe⟩
  · have hover : c ≠ .traceDrainTimeout n → i.over? s.now = false := fun _ => hl.elim Item.not_over_of_not_late And.right
    rcases hc with rfl | rfl | rfl | rfl
    · exact ⟨_, rfl, condTimeout_early h (hover (by simp)) 1⟩
    · exact ⟨_, rfl, condTimeout_early h (hover (by simp)) 3⟩
    · exact ⟨_, rfl, condTimeout_early h (hover (by simp)) 0x41⟩
    · exact ⟨_, rfl, drainTimeout_early h (hl.elim id (fun e => absurd rfl e.1))⟩

end Sys2Proof.Machine

/-! PROOFS. The events of one Wonos chip (O24, O25, O26, O28): what an event of a chip leaves of the state and of the chip's memory,
what the chip's shared operations do to its cores and engines, and the commands made of them. -/
namespace Sys2Proof.Machine

/-! ### Tables -/

/-- What a key holds after a range is changed. -/
theorem tget_tmodRange {α : Type} [DecidableEq α] (d : α) (t : Tab α) (lo cnt : Nat) (g : Nat → α → α) (n : Nat) :
    tget d (tmodRange d t lo cnt g) n = if lo ≤ n ∧ n < lo + cnt then g n (tget d t n) else tget d t n := by
  induction cnt with
  | zero => exact (if_neg (by omega)).symm
  | succ k ih =>
    have e : tmodRange d t lo (k + 1) g = tput d (tmodRange d t lo k g) (lo + k) (g (lo + k) (tget d (tmodRange d t lo k g) (lo + k))) := by
      simp only [tmodRange, List.range_succ, List.foldl_append, List.foldl_cons, List.foldl_nil]
    rw [e, tget_tput]
    by_cases h : n = lo + k
    · subst h; rw [if_pos rfl, ih]; simp
    · rw [if_neg h, ih]
      by_cases hr : lo ≤ n ∧ n < lo + k
      · rw [if_pos hr, if_pos (by omega)]
      · rw [if_neg hr, if_neg (by omega)]
theorem tget_tmodRange_in {α : Type} [DecidableEq α] (d : α) (t : Tab α) {cnt n : Nat} (g : Nat → α → α) (h : n < cnt) :
    tget d (tmodRange d t 0 cnt g) n = g n (tget d t n) := by
  rw [tget_tmodRange, if_pos (by omega)]
/-- An entry other than the default is listed. -/
theorem exists_mem_of_tget {α : Type} {d : α} {t : Tab α} {n : Nat} {P : α → Prop} (hd : ¬ P d) (h : P (tget d t n)) : ∃ p ∈ t, P p.2 := by
  induction t with
  | nil => exact absurd h hd
  | cons x t ih =>
    obtain ⟨k, v⟩ := x
    by_cases hk : n = k
    · exact ⟨(k, v), by simp, by simpa [tget, hk] using h⟩
    · obtain ⟨p, hp, hP⟩ := ih (by simpa [tget, hk] using h)
      exact ⟨p, List.mem_cons_of_mem _ hp, hP⟩
theorem mget_foldl_mput {l : List (Nat × Byte)} {a : Nat} (h : ∀ x ∈ l, x.1 ≠ a) (m : Mem) :
    mget (l.foldl (fun m x => mput m x.1 x.2) m) a = mget m a := by
  induction l generalizing m with
  | nil => rfl
  | cons x l ih =>
    rw [List.foldl_cons, ih (fun y hy => h y (List.mem_cons_of_mem _ hy)), mget_mput, if_neg (h x (by simp)).symm]
/-- Bytes that are not reopened keep their values. -/
theorem mget_reopen {m fresh : Mem} {p : Nat → Bool} {a : Nat} (h : p a = false) : mget (m.reopen fresh p) a = mget m a := by
  have hfresh : ∀ x ∈ fresh.filter (fun x => p x.1), x.1 ≠ a := by
    rintro x hx rfl
    simp [h] at hx
  have hold := tget_filter 0 m (fun k => !p k) a
  simp only [h, Bool.not_false, if_true] at hold
  exact (mget_foldl_mput hfresh _).trans hold

/-! ### What an event of a chip leaves of the state -/

/-- The state apart from its chips, its free values and what STOP_N_IN shows. -/
def State.offChips (s : State) : State := { s with chips := [], freeIx := 0, pins := { s.pins with stopInLow := 0 } }
theorem State.eq_of_offChips {s t : State} (h : t.offChips = s.offChips) :
    { t with chips := s.chips, freeIx := s.freeIx, pins := { t.pins with stopInLow := s.pins.stopInLow } } = s :=
  congrArg (fun x : State => { x with chips := s.chips, freeIx := s.freeIx, pins := { x.pins with stopInLow := s.pins.stopInLow } }) h
@[simp] theorem State.offChips_free (s : State) (k : Nat) : State.offChips { s with freeIx := k } = s.offChips := rfl
@[simp] theorem State.offChips_setChip (s : State) (f : Nat) (c : Chip) : (s.setChip f c).offChips = s.offChips := by
  unfold State.setChip; split <;> rfl
@[simp] theorem State.offChips_relayScan (s : State) (k : Nat) : (s.relayScan k).offChips = s.offChips := by
  unfold State.relayScan; split <;> rfl
@[simp] theorem State.chip_relayScan (s : State) (k f : Nat) : (s.relayScan k).chip f = s.chip f := by
  unfold State.relayScan; split <;> rfl
@[simp] theorem State.chip_free (s : State) (k f : Nat) : State.chip { s with freeIx := k } f = s.chip f := rfl
@[simp] theorem State.freeIx_relayScan (s : State) (k : Nat) : (s.relayScan k).freeIx = s.freeIx := by
  unfold State.relayScan; split <;> rfl
@[simp] theorem State.offChips_chipOp (s : State) (f : Nat) (g : Chip → Chip) : (s.chipOp f g).offChips = s.offChips := by simp [State.chipOp]
@[simp] theorem State.freeIx_chipOp (s : State) (f : Nat) (g : Chip → Chip) : (s.chipOp f g).freeIx = s.freeIx := by simp [State.chipOp]
theorem State.chip_chipOp {f : Nat} (hf : f < 128) (s : State) (g : Chip → Chip) : (s.chipOp f g).chip f = g (s.chip f) := by
  simp [State.chipOp, hf]
theorem State.chip_chipOp_ne {f m : Nat} (h : m ≠ f) (s : State) (g : Chip → Chip) : (s.chipOp f g).chip m = s.chip m := by
  simp [State.chipOp, State.chip_setChip_ne _ _ _ _ h]

/-- The chip with memory `m`. -/
def Chip.withMem (c : Chip) (m : Mem) : Chip := { c with mem := m }
@[simp] theorem Chip.core_withMem (c : Chip) (m : Mem) (i : Nat) : (c.withMem m).core i = c.core i := rfl
@[simp] theorem Chip.eng_withMem (c : Chip) (m : Mem) (e : Nat) : (c.withMem m).eng e = c.eng e := rfl
@[simp] theorem Chip.engines_withMem (c : Chip) (m : Mem) : (c.withMem m).engines = c.engines := rfl
@[simp] theorem Chip.stopIn_withMem (c : Chip) (m : Mem) : (c.withMem m).stopIn = c.stopIn := rfl
@[simp] theorem Chip.stopSeen_withMem (c : Chip) (m : Mem) : (c.withMem m).stopSeen = c.stopSeen := rfl
@[simp] theorem Chip.stopReq_withMem (c : Chip) (m : Mem) : (c.withMem m).stopReq = c.stopReq := rfl
@[simp] theorem Chip.stops_withMem (c : Chip) (m : Mem) : (c.withMem m).stops = c.stops := rfl
@[simp] theorem Chip.toll_withMem (c : Chip) (m : Mem) : (c.withMem m).toll = c.toll := rfl
@[simp] theorem Chip.tollFired_withMem (c : Chip) (m : Mem) : (c.withMem m).tollFired = c.tollFired := rfl
@[simp] theorem Chip.tollLate_withMem (c : Chip) (m : Mem) : (c.withMem m).tollLate = c.tollLate := rfl
@[simp] theorem Chip.seenHigh_withMem (c : Chip) (m : Mem) : (c.withMem m).seenHigh = c.seenHigh := rfl
@[simp] theorem Chip.resetHold_withMem (c : Chip) (m : Mem) : (c.withMem m).resetHold = c.resetHold := rfl
/-- From `s` to `t` only chip `f` has changed, and of it only the memory, at addresses that `p` picks. -/
structure MemStep (s t : State) (f : Nat) (p : Nat → Bool) : Prop where
  others : ∀ g, g ≠ f → t.chip g = s.chip g
  offChips : t.offChips = s.offChips
  chip : ∃ m, t.chip f = (s.chip f).withMem m
  kept : ∀ a, p a = false → mget (t.chip f).mem a = mget (s.chip f).mem a
theorem MemStep.refl (s : State) (f : Nat) (p : Nat → Bool) : MemStep s s f p := ⟨fun _ _ => rfl, rfl, ⟨_, rfl⟩, fun _ _ => rfl⟩
theorem MemStep.reopen {f : Nat} (hf : f < 128) (s : State) (k : Nat) (fresh : Mem) (p : Nat → Bool) :
    MemStep s ({ s with freeIx := k }.setChip f { s.chip f with mem := (s.chip f).mem.reopen fresh p }) f p where
  others g hg := by simp [State.chip_setChip_ne _ _ _ _ hg]
  offChips := by simp
  chip := ⟨_, State.chip_setChip_same _ _ _ hf⟩
  kept a ha := by rw [State.chip_setChip_same _ _ _ hf]; exact mget_reopen ha
/-- What programs and DMA transfers leave. -/
theorem memSettled_step {f : Nat} (hf : f < 128) (s t : State) : MemStep t (s.memSettled t f) f ((s.chip f).settles (t.chip f)) := by
  unfold State.memSettled
  dsimp only
  split
  · exact MemStep.reopen hf t _ _ _
  · exact MemStep.refl t f _
/-- What commands of engines leave. -/
theorem engWrote_step {f : Nat} (hf : f < 128) (s : State) (p : Nat → Bool) : MemStep s (s.engWrote f p) f (touched p) := by
  unfold State.engWrote
  split
  · exact MemStep.reopen hf s _ _ _
  · exact MemStep.refl s f _

/-- A change that neither settles memory nor ends a command writes nothing. -/
theorem engEffects_of_still {s t : State} {f : Nat} (hs : ∀ a, (s.chip f).settles (t.chip f) a = false)
    (he : ∀ e, (s.chip f).ended (t.chip f) e = false) : s.engEffects t f = t := by
  have hsettled : s.memSettled t f = t := by simp [State.memSettled, hs]
  simp [State.engEffects, State.engWrote, hsettled, he]

/-- `ChipStep`, with what lies outside the chips compared as a whole. -/
structure ChipChange (s t : State) (f : Nat) (c : Chip) : Prop where
  chip : t.chip f = c
  kept : (s.chip f).memKept c
  others : ∀ g, g ≠ f → t.chip g = s.chip g
  offChips : t.offChips = s.offChips
theorem ChipChange.step {s t : State} {f : Nat} {c : Chip} (h : ChipChange s t f c) : ChipStep s t f c :=
  ⟨h.chip, h.kept, h.others, State.eq_of_offChips h.offChips⟩

/-! ### Writes of one core or engine -/

theorem Chip.core_setCore {i : Nat} (hi : i < 32) (c : Chip) (u : Core) (j : Nat) : (c.setCore i u).core j = if j = i then u else c.core j := by
  unfold Chip.setCore; rw [if_pos hi]; exact tget_tput ..
theorem Chip.core_setCore_same {i : Nat} (hi : i < 32) (c : Chip) (u : Core) : (c.setCore i u).core i = u := by
  rw [Chip.core_setCore hi, if_pos rfl]
theorem Chip.core_setCore_ne {i j : Nat} (h : j ≠ i) (c : Chip) (u : Core) : (c.setCore i u).core j = c.core j := by
  unfold Chip.setCore; split
  · exact (tget_tput ..).trans (if_neg h)
  · rfl
theorem Chip.eng_setEng_same {e : Nat} (he : e < 512) (c : Chip) (u : Engine) : (c.setEng e u).eng e = u := by
  unfold Chip.setEng; rw [if_pos he]; exact (tget_tput ..).trans (if_pos rfl)
theorem Chip.eng_setEng_ne {e j : Nat} (h : j ≠ e) (c : Chip) (u : Engine) : (c.setEng e u).eng j = c.eng j := by
  unfold Chip.setEng; split
  · exact (tget_tput ..).trans (if_neg h)
  · rfl
@[simp] theorem Chip.setCore_engines (c : Chip) (i : Nat) (u : Core) : (c.setCore i u).engines = c.engines := by unfold Chip.setCore; split <;> rfl
@[simp] theorem Chip.setCore_mem (c : Chip) (i : Nat) (u : Core) : (c.setCore i u).mem = c.mem := by unfold Chip.setCore; split <;> rfl
/-- A halted core stops the peripheral clock (R28, R374). -/
theorem Chip.clkStopped_of_halted {c : Chip} {i : Nat} (h : (c.core i).state.halted = true) : c.clkStopped = true := by
  obtain ⟨p, hp, hh⟩ := exists_mem_of_tget (P := fun u : Core => u.state.halted = true) (by decide) h
  have : c.cores.any (fun p => p.2.state.halted) = true := List.any_eq_true.mpr ⟨p, hp, hh⟩
  simp [Chip.clkStopped, Chip.anyHalted, this]

/-! ### What an event leaves of the chip's memory -/

/-- A chip whose memory alone differs has settled and ended the same. -/
theorem Chip.settles_withMem (c d : Chip) (m : Mem) : c.settles (d.withMem m) = c.settles d := rfl
theorem Chip.ended_withMem (c d : Chip) (m : Mem) : c.ended (d.withMem m) = c.ended d := rfl
/-- With the same units and the same reset hold nothing stops that ran before. -/
theorem Chip.settles_same {c d : Chip} (hc : d.cores = c.cores) (he : d.engines = c.engines) (hh : d.resetHold = c.resetHold) (a : Nat) :
    c.settles d a = false := by
  have hcore : ∀ i, d.core i = c.core i := fun i => by rw [Chip.core, hc, Chip.core]
  have hquiet : d.quiet = c.quiet := by simp only [Chip.quiet, Chip.clkStopped, Chip.anyHalted, Chip.allStill, hcore, hc, he, hh]
  unfold Chip.settles
  rw [hquiet]
  split
  · exact Bool.not_and_self _
  · rw [hcore, Bool.and_assoc, Bool.and_not_self, Bool.and_false]
theorem Chip.ended_same {c d : Chip} (he : d.engines = c.engines) (e : Nat) : c.ended d e = false := by
  have heng : d.eng e = c.eng e := by rw [Chip.eng, he, Chip.eng]
  unfold Chip.ended
  rw [heng]
  cases (c.eng e).state <;> simp

section
variable {s : State} {f : Nat} {g : Chip → Nat → Chip} (hf : f < 128) (hr : (s.chip f).inReset = false)
include hf hr

/-- An event of a chip that keeps its memory: the chip is what the event makes of it, but for the memory that is open afterwards. -/
theorem chipEvent_step (hm : (g (s.chip f) (s.chipTime f)).mem = (s.chip f).mem) :
    ∃ m, ChipChange s (s.chipEvent f g) f ((g (s.chip f) (s.chipTime f)).withMem m) := by
  unfold State.chipEvent State.engEffects
  generalize ht : s.chipOp f (fun c => if c.inReset then c else g c (s.chipTime f)) = t
  have hchip : t.chip f = g (s.chip f) (s.chipTime f) := by rw [← ht, State.chip_chipOp hf, hr]; rfl
  have hothers : ∀ m, m ≠ f → t.chip m = s.chip m := fun m hne => by rw [← ht, State.chip_chipOp_ne hne]
  have hoff : t.offChips = s.offChips := by rw [← ht, State.offChips_chipOp]
  have h1 := memSettled_step hf s t
  have h2 := engWrote_step hf (s.memSettled t f) ((s.chip f).ended (t.chip f))
  obtain ⟨m1, hm1⟩ := h1.chip
  obtain ⟨m2, hm2⟩ := h2.chip
  refine ⟨m2, ?_, fun a ha hb => ?_, fun m hne => ?_, ?_⟩
  · rw [hm2, hm1, hchip]; rfl
  · rw [Chip.settles_withMem, ← hchip] at ha
    rw [Chip.ended_withMem, ← hchip] at hb
    calc mget m2 a = mget (((s.memSettled t f).engWrote f ((s.chip f).ended (t.chip f))).chip f).mem a := by rw [hm2]; rfl
      _ = mget ((s.memSettled t f).chip f).mem a := h2.kept a hb
      _ = mget (t.chip f).mem a := h1.kept a ha
      _ = mget (s.chip f).mem a := by rw [hchip, hm]
  · rw [h2.others m hne, h1.others m hne, hothers m hne]
  · rw [h2.offChips, h1.offChips, hoff]
/-- An event of a chip that leaves its units and the reset hold as they were changes nothing but what it says. -/
theorem chipEvent_exact (hm : (g (s.chip f) (s.chipTime f)).mem = (s.chip f).mem)
    (hc : (g (s.chip f) (s.chipTime f)).cores = (s.chip f).cores) (he : (g (s.chip f) (s.chipTime f)).engines = (s.chip f).engines)
    (hh : (g (s.chip f) (s.chipTime f)).resetHold = (s.chip f).resetHold) :
    ChipChange s (s.chipEvent f g) f (g (s.chip f) (s.chipTime f)) := by
  have hchip : (s.chipOp f (fun c => if c.inReset then c else g c (s.chipTime f))).chip f = g (s.chip f) (s.chipTime f) := by
    rw [State.chip_chipOp hf, hr]; rfl
  have hev : s.chipEvent f g = s.chipOp f (fun c => if c.inReset then c else g c (s.chipTime f)) :=
    engEffects_of_still (by rw [hchip]; exact Chip.settles_same hc he hh) (by rw [hchip]; exact Chip.ended_same he)
  rw [hev]
  exact ⟨hchip, fun a _ _ => by rw [hm], fun m hne => State.chip_chipOp_ne hne .., State.offChips_chipOp ..⟩
/-- An event that leaves the chip as it is. -/
theorem chipEvent_same (h : g (s.chip f) (s.chipTime f) = s.chip f) : ChipChange s (s.chipEvent f g) f (s.chip f) := by
  have := chipEvent_exact (g := g) hf hr (by rw [h]) (by rw [h]) (by rw [h]) (by rw [h])
  rwa [h] at this
end

/-! ### Events of a core -/

/-- The chip once the program of core `i` has left the context words `x` (Table 15.1). -/
def Chip.withCtx (c : Chip) (i : Nat) (x : Tab Word) : Chip := c.setCore i { c.core i with ctx := x }
theorem State.chip_freshCtx {f : Nat} (hf : f < 128) (s : State) (i : Nat) : ∃ x, (s.freshCtx f i).chip f = (s.chip f).withCtx i x :=
  ⟨_, State.chip_setChip_same _ _ _ hf⟩
theorem State.chip_freshCtx_ne {f n : Nat} (h : n ≠ f) (s : State) (i : Nat) : (s.freshCtx f i).chip n = s.chip n := by
  simp [State.freshCtx, State.chip_setChip_ne _ _ _ _ h]
theorem State.offChips_freshCtx (s : State) (f i : Nat) : (s.freshCtx f i).offChips = s.offChips := by simp [State.freshCtx]
/-- Where a core is in MONITOR before and after, its context words change nothing of what memory settles. -/
theorem Chip.settles_withCtx {d : Chip} {i : Nat} (hi : i < 32) (hd : (d.core i).state = .monitor) (c : Chip) (x : Tab Word) :
    c.settles (d.withCtx i x) = c.settles d := by
  have hcore : ∀ j, (d.withCtx i x).core j = if j = i then { d.core i with ctx := x } else d.core j := Chip.core_setCore hi d _
  have hruns : ∀ j, ((d.withCtx i x).core j).runs = (d.core j).runs := fun j => by
    rw [hcore]; split
    · next h => rw [h]; rfl
    · rfl
  have hmon : ∀ j, ((d.withCtx i x).core j).monitor = (d.core j).monitor := fun j => by
    rw [hcore]; split
    · next h => rw [h]
    · rfl
  have hclk : (d.withCtx i x).clkStopped = d.clkStopped := by
    rw [Chip.clkStopped_of_halted (i := i) (by rw [hcore, if_pos rfl, hd]; rfl), Chip.clkStopped_of_halted (i := i) (by rw [hd]; rfl)]
  have heng : (d.withCtx i x).allStill = d.allStill := by simp only [Chip.withCtx, Chip.allStill, Chip.setCore_engines]
  funext a
  simp only [Chip.settles, Chip.quiet, Chip.monArea, hclk, heng, hruns, hmon]

theorem Chip.ended_withCtx (c d : Chip) (i : Nat) (x : Tab Word) : c.ended (d.withCtx i x) = c.ended d := by
  funext e
  simp only [Chip.ended, Chip.eng, Chip.withCtx, Chip.setCore_engines]

section
variable {s : State} {f i : Nat} {g : Chip → Nat → Chip} (hf : f < 128) (hr : (s.chip f).inReset = false)
  (hm : (g (s.chip f) (s.chipTime f)).mem = (s.chip f).mem)
include hf hr hm

/-- An event that brings a core's program to MONITOR leaves its context words as the program left them. -/
theorem coreEvent_enters (hi : i < 32) (hb : ((s.chip f).core i).state ≠ .monitor) (ha : ((g (s.chip f) (s.chipTime f)).core i).state = .monitor) :
    ∃ m x, ChipChange s (s.coreEvent f i g) f (((g (s.chip f) (s.chipTime f)).withMem m).withCtx i x) := by
  obtain ⟨m, h⟩ := chipEvent_step hf hr hm
  have hev : s.coreEvent f i g = (s.chipEvent f g).freshCtx f i := if_pos ⟨hb, by rw [h.chip]; exact ha⟩
  obtain ⟨x, hx⟩ := State.chip_freshCtx hf (s.chipEvent f g) i
  rw [h.chip] at hx
  refine ⟨m, x, hev ▸ ⟨hx, fun a hs he => ?_, fun n hne => ?_, ?_⟩⟩
  · rw [Chip.settles_withCtx hi (by exact ha)] at hs
    rw [Chip.ended_withCtx] at he
    rw [Chip.withCtx, Chip.setCore_mem]
    exact h.kept a hs he
  · rw [State.chip_freshCtx_ne hne, h.others n hne]
  · rw [State.offChips_freshCtx, h.offChips]
/-- Any other event of a core is an event of its chip. -/
theorem coreEvent_stays (h : ((s.chip f).core i).state = .monitor ∨ ((g (s.chip f) (s.chipTime f)).core i).state ≠ .monitor) :
    ∃ m, ChipChange s (s.coreEvent f i g) f ((g (s.chip f) (s.chipTime f)).withMem m) := by
  obtain ⟨m, hstep⟩ := chipEvent_step hf hr hm
  have hev : s.coreEvent f i g = s.chipEvent f g := if_neg (by
    rw [hstep.chip]; rintro ⟨hb, ha⟩; exact h.elim hb (fun hn => hn ha))
  exact ⟨m, hev ▸ hstep⟩
end

/-! ### What halts, hits, latches and resumes leave of the chip -/

/-- The chip apart from its units, its counters and what records its stops and alerts. -/
def Chip.stable (c : Chip) : Chip :=
  { c with cores := [], engines := [], links := [], tapQ := [], stopSeen := false, stopping := false, stopReq := false, lastStop := none,
           alerts := [], alertNum := 0, alertCnt := 0, cmdsDone := 0, stops := 0, accepted := 0, dropped := 0, gaps := 0, shadow := [],
           cntPend := none }
section
variable {c d : Chip} (h : d.stable = c.stable)
include h
theorem Chip.mem_of_stable : d.mem = c.mem := (congrArg Chip.mem h :)
theorem Chip.stopIn_of_stable : d.stopIn = c.stopIn := (congrArg Chip.stopIn h :)
theorem Chip.toll_of_stable : d.toll = c.toll := (congrArg Chip.toll h :)
theorem Chip.tollFired_of_stable : d.tollFired = c.tollFired := (congrArg Chip.tollFired h :)
theorem Chip.tollLate_of_stable : d.tollLate = c.tollLate := (congrArg Chip.tollLate h :)
theorem Chip.timed_of_stable : d.timed = c.timed := (congrArg Chip.timed h :)
theorem Chip.selCores_of_stable : d.selCores = c.selCores := (congrArg Chip.selCores h :)
theorem Chip.selEng_of_stable : d.selEng = c.selEng := (congrArg Chip.selEng h :)
theorem Chip.seenHigh_of_stable : d.seenHigh = c.seenHigh := (congrArg Chip.seenHigh h :)
theorem Chip.resetHold_of_stable : d.resetHold = c.resetHold := (congrArg Chip.resetHold h :)
end
@[simp] theorem Chip.stable_setEng (c : Chip) (e : Nat) (u : Engine) : (c.setEng e u).stable = c.stable := by unfold Chip.setEng; split <;> rfl
/-- A tap's event joins the queue, or is not noted. -/
theorem Chip.note_eq (c : Chip) (t e ty ix : Nat) : ∃ q, c.note t e ty ix = { c with tapQ := q } := by
  unfold Chip.note
  generalize (c.tapOn e && _) = on
  cases on <;> exact ⟨_, rfl⟩
@[simp] theorem Chip.stable_note (c : Chip) (t e ty ix : Nat) : (c.note t e ty ix).stable = c.stable := by
  obtain ⟨q, h⟩ := c.note_eq t e ty ix; rw [h]; rfl
@[simp] theorem Chip.stable_latch (c : Chip) (t : Nat) (clear : Bool) : (c.latch t clear).stable = c.stable := by
  cases clear <;> simp only [Chip.latch, Chip.stable, if_true, Bool.false_eq_true, if_false]
@[simp] theorem Chip.stable_timedLatch (c : Chip) (t : Nat) : (c.timedLatch t).stable = c.stable := by
  unfold Chip.timedLatch; split
  · split
    · exact Chip.stable_latch ..
    · rfl
  · rfl
@[simp] theorem Chip.stable_seeStop (c : Chip) : c.seeStop.stable = c.stable := by unfold Chip.seeStop; split <;> rfl
@[simp] theorem Chip.stable_stopUnits (c : Chip) (t cz : Nat) (rq : Bool) : (c.stopUnits t cz rq).stable = c.stable := by
  rw [Chip.stopUnits, Chip.stable_seeStop]; simp only [Chip.stable]
@[simp] theorem Chip.stable_stop (c : Chip) (t cz : Nat) (rq : Bool) : (c.stop t cz rq).stable = c.stable := by
  rw [Chip.stop, Chip.stable_stopUnits, ← c.stable_timedLatch t]; simp only [Chip.stable]
theorem Chip.stable_stopCluster (c : Chip) (t k : Nat) : (c.stopCluster t k).stable = c.stable := by simp only [Chip.stopCluster, Chip.stable]
@[simp] theorem Chip.stable_reach (c : Chip) (t k r : Nat) : (c.reach t k r).stable = c.stable := by
  unfold Chip.reach; split
  · exact c.stable_stopCluster t k
  · split
    · exact c.stable_stop ..
    · split
      · exact c.stable_stop ..
      · rfl
/-- A settling touches the stop's flags and the links. -/
theorem Chip.settle_eq (c : Chip) : ∃ a b d l, c.settle = { c with stopSeen := a, stopReq := b, stopping := d, links := l } := by
  simp only [Chip.settle]; split
  · exact ⟨_, _, _, _, rfl⟩
  · split <;> exact ⟨_, _, _, _, rfl⟩
@[simp] theorem Chip.core_settle (c : Chip) (i : Nat) : c.settle.core i = c.core i := by
  obtain ⟨a, b, d, l, h⟩ := c.settle_eq; rw [h]; rfl
@[simp] theorem Chip.eng_settle (c : Chip) (e : Nat) : c.settle.eng e = c.eng e := by
  obtain ⟨a, b, d, l, h⟩ := c.settle_eq; rw [h]; rfl
@[simp] theorem Chip.settle_engines (c : Chip) : c.settle.engines = c.engines := by
  obtain ⟨a, b, d, l, h⟩ := c.settle_eq; rw [h]
@[simp] theorem Chip.stable_settle (c : Chip) : c.settle.stable = c.stable := by
  obtain ⟨a, b, d, l, h⟩ := c.settle_eq; rw [h]; rfl
@[simp] theorem Chip.stable_raise (c : Chip) (cz u info : Nat) : (c.raise cz u info).stable = c.stable := by
  simp only [Chip.raise, Chip.holdAlert, Chip.stable]
@[simp] theorem Chip.stable_engHit (c : Chip) (f t e : Nat) (cause? : Bool) : (c.engHit f t e cause?).stable = c.stable := by simp [Chip.engHit]
@[simp] theorem Chip.stable_begin (c : Chip) (t e i : Nat) (st : EngState) (step : Bool) : (c.begin_ t e i st step).stable = c.stable := by
  simp [Chip.begin_]
@[simp] theorem Chip.stable_startNext (c : Chip) (f t e : Nat) : (c.startNext f t e).1.stable = c.stable := by
  simp only [Chip.startNext]; split
  · exact c.stable_setEng ..
  · split
    · exact c.stable_engHit ..
    · exact c.stable_begin ..

/-! ### Halts -/

/-- A counter latch reaches no core and no flag of the stop. -/
theorem Chip.latch_keeps (c : Chip) (t : Nat) (clear : Bool) : (c.latch t clear).cores = c.cores ∧ (c.latch t clear).stopReq = c.stopReq := by
  cases clear <;> simp only [Chip.latch, if_true, Bool.false_eq_true, if_false, and_self]
theorem Chip.timedLatch_keeps (c : Chip) (t : Nat) : (c.timedLatch t).cores = c.cores ∧ (c.timedLatch t).stopReq = c.stopReq := by
  unfold Chip.timedLatch; split
  · split
    · exact Chip.latch_keeps ..
    · exact ⟨rfl, rfl⟩
  · exact ⟨rfl, rfl⟩
@[simp] theorem Chip.core_timedLatch (c : Chip) (t i : Nat) : (c.timedLatch t).core i = c.core i := by
  rw [Chip.core, (c.timedLatch_keeps t).1, Chip.core]
@[simp] theorem Chip.core_seeStop (c : Chip) (i : Nat) : c.seeStop.core i = c.core i := by unfold Chip.seeStop; split <;> rfl
@[simp] theorem Chip.eng_seeStop (c : Chip) (e : Nat) : c.seeStop.eng e = c.eng e := by unfold Chip.seeStop; split <;> rfl
@[simp] theorem Chip.engines_seeStop (c : Chip) : c.seeStop.engines = c.engines := by unfold Chip.seeStop; split <;> rfl
@[simp] theorem Chip.stopReq_seeStop (c : Chip) : c.seeStop.stopReq = c.stopReq := by unfold Chip.seeStop; split <;> rfl
@[simp] theorem Chip.stops_seeStop (c : Chip) : c.seeStop.stops = c.stops := by unfold Chip.seeStop; split <;> rfl
/-- An engine apart from its counters and their shadow. -/
def Engine.sansCounters (u : Engine) : Engine :=
  { u with done := 0, halts := 0, forcedCnt := 0, busyNs := 0, busyAt := 0, sDone := 0, sHalts := 0, sForced := 0, sBusy := 0 }
theorem Engine.fields_of_sansCounters {u v : Engine} (h : u.sansCounters = v.sansCounters) :
    u.state = v.state ∧ u.cause = v.cause ∧ u.current = v.current ∧ u.lastDone = v.lastDone ∧ u.streamId = v.streamId ∧ u.haltAt = v.haltAt :=
  ⟨(congrArg Engine.state h :), (congrArg Engine.cause h :), (congrArg Engine.current h :), (congrArg Engine.lastDone h :),
    (congrArg Engine.streamId h :), (congrArg Engine.haltAt h :)⟩
theorem Chip.eng_latch (c : Chip) (t e : Nat) (clear : Bool) : ((c.latch t clear).eng e).sansCounters = (c.eng e).sansCounters := by
  cases clear <;> simp only [Chip.latch, Chip.eng, if_true, Bool.false_eq_true, if_false, tget_tmodRange] <;> split <;> rfl
/-- A latch touches the counters of the engines alone. -/
theorem Chip.eng_timedLatch (c : Chip) (t e : Nat) : ((c.timedLatch t).eng e).sansCounters = (c.eng e).sansCounters := by
  unfold Chip.timedLatch; split
  · split
    · exact Chip.eng_latch ..
    · rfl
  · rfl
theorem Chip.core_stopUnits {i : Nat} (hi : i < 32) (c : Chip) (t cz : Nat) (rq : Bool) : (c.stopUnits t cz rq).core i = (c.core i).halt cz := by
  rw [Chip.stopUnits, Chip.core_seeStop, Chip.core, tget_tmodRange_in _ _ _ hi, Chip.core]
theorem Chip.eng_stopUnits {e : Nat} (he : e < 512) (c : Chip) (t cz : Nat) (rq : Bool) : (c.stopUnits t cz rq).eng e = (c.eng e).halt t cz := by
  rw [Chip.stopUnits, Chip.eng_seeStop, Chip.eng, tget_tmodRange_in _ _ _ he, Chip.eng]
theorem Chip.core_stop {i : Nat} (hi : i < 32) (c : Chip) (t cz : Nat) (rq : Bool) : (c.stop t cz rq).core i = (c.core i).halt cz := by
  rw [Chip.stop, Chip.core_stopUnits hi, ← c.core_timedLatch t i]; rfl
theorem Chip.eng_stop {e : Nat} (he : e < 512) (c : Chip) (t cz : Nat) (rq : Bool) :
    (c.stop t cz rq).eng e = ((c.timedLatch t).eng e).halt t cz := by
  rw [Chip.stop, Chip.eng_stopUnits he]; rfl
theorem Chip.stop_stopReq (c : Chip) (t cz : Nat) (rq : Bool) : (c.stop t cz rq).stopReq = (c.stopReq || rq) := by
  rw [Chip.stop, Chip.stopUnits, Chip.stopReq_seeStop, (c.timedLatch_keeps t).2]
/-- A stop is counted, after the counter latch of its cycle (R513). -/
theorem Chip.stop_stops (c : Chip) (t cz : Nat) (rq : Bool) : (c.stop t cz rq).stops = ((c.timedLatch t).stops + 1) % 2 ^ 32 := by
  rw [Chip.stop, Chip.stopUnits, Chip.stops_seeStop]
theorem Chip.timedLatch_of_none {c : Chip} (h : c.cntPend = none) (t : Nat) : c.timedLatch t = c := by simp only [Chip.timedLatch, h]

theorem Core.halt_running {u : Core} (h : u.state = .running) (cz : Nat) : u.halt cz = { u with pend := u.pend ++ [cz] } := by simp only [Core.halt, h]
theorem Core.halt_other {u : Core} (h : u.state ≠ .running) (cz : Nat) : (u.halt cz).state = u.state ∧ (u.halt cz).cause = u.cause := by
  unfold Core.halt; split
  · next e => exact absurd e h
  · exact ⟨rfl, rfl⟩
  · exact ⟨rfl, rfl⟩
theorem Engine.halt_running {u : Engine} (h : u.state = .running) (t cz : Nat) :
    u.halt t cz = { u.enter t .muffling with cause := cz, haltAt := t + 1 } := by simp only [Engine.halt, h]
theorem Engine.halt_idle {u : Engine} (h : u.state = .idle) (t cz : Nat) :
    u.halt t cz = { u.enter t .muffled with cause := cz, haltAt := t + 1 } := by simp only [Engine.halt, h]
/-- A halted engine keeps all but its cause, and its cause too unless a halt reached it in this very cycle (R377). -/
theorem Engine.halt_halted {u : Engine} (h : u.state.halted = true) (t cz : Nat) :
    (u.halt t cz).state = u.state ∧ (u.halt t cz).current = u.current ∧ (u.halt t cz).lastDone = u.lastDone ∧
      (u.haltAt ≠ t + 1 → (u.halt t cz).cause = u.cause) := by
  unfold Engine.halt; split
  · next e => rw [e] at h; cases h
  · next e => rw [e] at h; cases h
  · split
    · next hc => exact ⟨rfl, rfl, rfl, fun hn => absurd hc.1 hn⟩
    · exact ⟨rfl, rfl, rfl, fun _ => rfl⟩
  · split
    · next hc => exact ⟨rfl, rfl, rfl, fun hn => absurd hc.1 hn⟩
    · exact ⟨rfl, rfl, rfl, fun _ => rfl⟩
  · exact ⟨rfl, rfl, rfl, fun _ => rfl⟩

/-- A chip stop halts every unit (R375). -/
theorem Chip.haltedBy_stop {c b : Chip} (hc : b.cores = c.cores) (he : b.engines = c.engines) (t cz : Nat) (rq : Bool) (m : Mem) :
    c.haltedBy ((b.stop t cz rq).withMem m) t cz := by
  have hcore : ∀ i, i < 32 → ((b.stop t cz rq).withMem m).core i = (c.core i).halt cz := fun i hi => by
    rw [Chip.core_withMem, Chip.core_stop hi, Chip.core, hc, Chip.core]
  have heng : ∀ e, e < 512 → ∃ u : Engine, u.sansCounters = (c.eng e).sansCounters ∧ ((b.stop t cz rq).withMem m).eng e = u.halt t cz := fun e h =>
    ⟨(b.timedLatch t).eng e, (b.eng_timedLatch t e).trans (by rw [Chip.eng, he, Chip.eng]), by rw [Chip.eng_withMem, Chip.eng_stop h]⟩
  refine ⟨fun i hi hs => ?_, fun i hi hs => ?_, fun e h hs => ?_, fun e h hs => ?_, fun e h hs => ?_⟩
  · rw [hcore i hi, Core.halt_running hs]; exact ⟨hs, rfl⟩
  · rw [hcore i hi]; exact Core.halt_other hs cz
  · obtain ⟨u, hu, hd⟩ := heng e h
    obtain ⟨hst, -, hcur, -⟩ := Engine.fields_of_sansCounters hu
    rw [hd, Engine.halt_running (hst.trans hs)]
    exact ⟨rfl, rfl, hcur⟩
  · obtain ⟨u, hu, hd⟩ := heng e h
    obtain ⟨hst, -, -, hlast, hid, -⟩ := Engine.fields_of_sansCounters hu
    rw [hd, Engine.halt_idle (hst.trans hs)]
    exact ⟨rfl, rfl, hlast, hid⟩
  · obtain ⟨u, hu, hd⟩ := heng e h
    obtain ⟨hst, hcz, hcur, hlast, -, hat⟩ := Engine.fields_of_sansCounters hu
    obtain ⟨kst, kcur, klast, kcz⟩ := Engine.halt_halted (u := u) (by rw [hst]; exact hs) t cz
    rw [hd]
    exact ⟨kst.trans hst, kcur.trans hcur, klast.trans hlast, fun hn => (kcz (hat ▸ hn)).trans hcz⟩

/-! ### O24: chip stops -/

theorem Chip.wdaWrite_toll (c : Chip) (f t v : Nat) : c.wdaWrite f t 0x308 v = c.tollWrite t v := by simp [Chip.wdaWrite]
theorem exec_chipStopInputFall {s : State} {f : Nat} (h : s.stopPad (f / 16) = false) :
    exec (.chipStopInputFall f) s = .next (s.chipEvent f (fun c t => c.inputFall t)) := by
  show Host.Outcome.next (if s.stopPad (f / 16) = true then s else _) = _
  rw [if_neg (by simp [h])]
theorem exec_tollFire (s : State) (f : Nat) : exec (.tollFire f) s = .next (s.chipEvent f (fun c t => c.tollFire t)) := rfl
theorem exec_tollArm (s : State) (f : Nat) : exec (.tollArm f) s = .next (s.chipEvent f (fun c t => c.tollWrite t 1)) := by
  show Host.Outcome.next (s.wdaReg f 0x308 1) = _
  simp only [State.wdaReg, Chip.wdaWrite_toll]

theorem Chip.inputFall_of_high {c : Chip} (hr : c.inReset = false) (hs : c.seenHigh = true) (hi : c.stopIn = true) (t : Nat) :
    c.inputFall t = { c with stopIn := false }.stop t 1 false := by simp [Chip.inputFall, hr, hs, hi]
theorem Chip.tollFire_reached {c : Chip} {T t : Nat} (h : c.toll = some T) (ht : T ≤ t) :
    c.tollFire t = { c with toll := none, tollFired := true }.stop t 2 true := by simp [Chip.tollFire, h, ht]
theorem Chip.tollFire_waits {c : Chip} {T t : Nat} (h : c.toll = some T) (ht : t < T) : c.tollFire t = c := by
  simp [Chip.tollFire, h, Nat.not_le.mpr ht]
section
variable {c : Chip} {t : Nat} (h : ∀ T, c.toll = some T → t ≤ T)
include h

/-- An armed toll that is not past lets a new one be written at once (R386). -/
theorem Chip.tollWrite_arm :
    c.tollWrite t 1 = if c.tollLo + c.tollHi * 2 ^ 32 ≤ t
      then { c with toll := none, tollFired := true, tollLate := decide (c.tollLo + c.tollHi * 2 ^ 32 < t) }.stop t 2 true
      else { c with toll := some (c.tollLo + c.tollHi * 2 ^ 32), tollFired := false, tollLate := false } := by
  have hpast : c.toll.any (fun T => T < t) = false := by
    cases hT : c.toll with
    | none => rfl
    | some T => simpa using h T hT
  have hon : bit 1 0 = true := by decide
  simp only [Chip.tollWrite, hpast, Bool.false_eq_true, if_false, hon, if_true]
end

/-- An event that is a stop of the chip halts every unit of it. -/
theorem chipEvent_stops {s : State} {f : Nat} {g : Chip → Nat → Chip} (hf : f < 128) (hr : (s.chip f).inReset = false) {b : Chip} {cz : Nat}
    {rq : Bool} (hg : g (s.chip f) (s.chipTime f) = b.stop (s.chipTime f) cz rq) (hc : b.cores = (s.chip f).cores)
    (he : b.engines = (s.chip f).engines) (hm : b.mem = (s.chip f).mem) :
    ∃ m, ChipStep s (s.chipEvent f g) f ((b.stop (s.chipTime f) cz rq).withMem m) ∧
      (s.chip f).haltedBy ((b.stop (s.chipTime f) cz rq).withMem m) (s.chipTime f) cz := by
  obtain ⟨m, hstep⟩ := chipEvent_step (g := g) hf hr (by rw [hg, Chip.mem_of_stable (b.stable_stop ..), hm])
  rw [hg] at hstep
  exact ⟨m, hstep.step, Chip.haltedBy_stop hc he _ cz rq m⟩

/-- Settles O24: a fall, a toll reached and a toll armed late are stops of the chip, and a toll in time changes its own registers. -/
theorem chipStopsHaltEveryUnit : Obligations.ChipStopsHaltEveryUnit := by
  intro s f hf hr
  refine ⟨fun hpad hseen hin => ?_, fun T hT ht => ?_, fun T hT ht => ?_, fun hT ht => ?_, fun hT ht => ?_⟩
  · obtain ⟨m, hstep, hhalt⟩ := chipEvent_stops hf hr (g := fun c t => c.inputFall t) (Chip.inputFall_of_high hr hseen hin _) rfl rfl rfl
    refine ⟨_, _, exec_chipStopInputFall hpad, hstep, hhalt, ?_, fun hp => ?_, ?_⟩
    · rw [Chip.stopIn_withMem, Chip.stopIn_of_stable (Chip.stable_stop ..)]
    · rw [Chip.stops_withMem, Chip.stop_stops, Chip.timedLatch_of_none (by exact hp)]
    · rw [Chip.stopReq_withMem, Chip.stop_stopReq, Bool.or_false]
  · obtain ⟨m, hstep, hhalt⟩ := chipEvent_stops hf hr (g := fun c t => c.tollFire t) (Chip.tollFire_reached hT ht) rfl rfl rfl
    refine ⟨_, _, exec_tollFire s f, hstep, hhalt, ?_, ?_, ?_, ?_⟩
    · rw [Chip.toll_withMem, Chip.toll_of_stable (Chip.stable_stop ..)]
    · rw [Chip.tollFired_withMem, Chip.tollFired_of_stable (Chip.stable_stop ..)]
    · rw [Chip.tollLate_withMem, Chip.tollLate_of_stable (Chip.stable_stop ..)]
    · rw [Chip.stopReq_withMem, Chip.stop_stopReq, Bool.or_true]
  · exact ⟨_, exec_tollFire s f, (chipEvent_same hf hr (Chip.tollFire_waits hT ht)).step⟩
  · obtain ⟨m, hstep, hhalt⟩ := chipEvent_stops hf hr (g := fun c t => c.tollWrite t 1) ((Chip.tollWrite_arm hT).trans (if_pos ht)) rfl rfl rfl
    refine ⟨_, _, exec_tollArm s f, hstep, hhalt, ?_, ?_, ?_⟩
    · rw [Chip.toll_withMem, Chip.toll_of_stable (Chip.stable_stop ..)]
    · rw [Chip.tollFired_withMem, Chip.tollFired_of_stable (Chip.stable_stop ..)]
    · rw [Chip.tollLate_withMem, Chip.tollLate_of_stable (Chip.stable_stop ..)]
  · have hg := (Chip.tollWrite_arm hT).trans (if_neg (Nat.not_le.mpr ht))
    have hstep := chipEvent_exact hf hr (g := fun c t => c.tollWrite t 1) (by rw [hg]) (by rw [hg]) (by rw [hg]) (by rw [hg])
    rw [hg] at hstep
    exact ⟨_, exec_tollArm s f, hstep.step⟩

/-! ### O28: resets and alerts -/

theorem exec_chipReset (s : State) (f : Nat) : exec (.chipReset f) s =
    .next ({ s with freeIx := s.freeIx + 1 }.chipOp f (fun c => c.resetChip (memOf (Config.freeMemory s.freeIx)))) := rfl
theorem exec_chipReady (s : State) (f : Nat) : exec (.chipReady f) s = .next (s.chipOp f (fun c => c.ready (s.stopPad (f / 16)))) := rfl
theorem exec_resetHoldEnd {s : State} {f : Nat} (h : s.stopPad (f / 16) = true) :
    exec (.resetHoldEnd f) s = .next (s.chipEvent f (fun c _ => c.holdEnd)) := by
  show Host.Outcome.next (if s.stopPad (f / 16) = true then _ else s) = _
  rw [if_pos h]
theorem exec_alertRaise {u info : Nat} (hu : u < 2 ^ 17) (hi : info < 2 ^ 32) (s : State) (f cz : Nat) :
    exec (.alertRaise f cz u info) s = .next (s.chipEvent f (fun c _ => c.alertOwn (cz % 256) u info)) := by
  show Host.Outcome.next (s.chipEvent f (fun c _ => c.alertOwn (cz % 256) (u % 2 ^ 17) (info % 2 ^ 32))) = _
  rw [Nat.mod_eq_of_lt hu, Nat.mod_eq_of_lt hi]

/-- A chip operation that keeps the memory. -/
theorem chipOp_step {s : State} {f : Nat} {g : Chip → Chip} (hf : f < 128) (hm : (g (s.chip f)).mem = (s.chip f).mem) :
    ChipChange s (s.chipOp f g) f (g (s.chip f)) :=
  ⟨State.chip_chipOp hf s g, fun _ _ _ => by rw [hm], fun _ hne => State.chip_chipOp_ne hne s g, State.offChips_chipOp ..⟩

/-- The end of a reset with the stop input low holds every core (R95). -/
theorem Chip.ready_low {c : Chip} (hr : c.inReset = true) :
    c.ready false = Chip.raise { c with inReset := false, seenHigh := false, stopIn := false, resetHold := true,
                                        cores := tmodRange {} c.cores 0 32 (fun _ (u : Core) => { u with state := CoreState.held }) } 8 0 0 := by
  simp [Chip.ready, hr]
theorem Chip.ready_high {c : Chip} (hr : c.inReset = true) :
    c.ready true = Chip.raise { c with inReset := false, seenHigh := true, stopIn := true, resetHold := false } 8 0 0 := by
  simp [Chip.ready, hr]
theorem Chip.holdEnd_of_unseen {c : Chip} (hr : c.inReset = false) (hs : c.seenHigh = false) :
    c.holdEnd = Chip.settle { c with seenHigh := true, stopIn := true, resetHold := false,
                                     cores := tmodRange {} c.cores 0 32 (fun _ (u : Core) => if u.state = CoreState.held then { u with state := .running } else u) } := by
  simp [Chip.holdEnd, hr, hs]

/-- A reset keeps the alert numbering and the adjustment of fabric time, and nothing else (R47, R353, log entry 101). -/
theorem resetChip_fields (c : Chip) (m : Mem) :
    let d := c.resetChip m
    d.inReset = true ∧ d.faddr = 0x7F ∧ d.assigned = false ∧ d.smapLo = 0 ∧ d.smapHi = 0 ∧ d.cores = [] ∧ d.engines = [] ∧ d.links = [] ∧
      d.toll = none ∧ d.timed = none ∧ d.tapEn = false ∧ d.fifo = [] ∧ d.ftAdj = c.ftAdj ∧ d.alertNum = (c.alertNum + 1) % 64 ∧ d.mem = m :=
  ⟨rfl, rfl, rfl, rfl, rfl, rfl, rfl, rfl, rfl, rfl, rfl, rfl, rfl, rfl, rfl⟩

section
variable {s : State} {f : Nat} (hf : f < 128)
include hf

theorem chipReset_resets : ∃ t c, exec (.chipReset f) s = .next t ∧ t.chip f = c ∧ (∀ g, g ≠ f → t.chip g = s.chip g) ∧
    { t with chips := s.chips, freeIx := s.freeIx, pins := { t.pins with stopInLow := s.pins.stopInLow } } = s ∧ t.freeIx = s.freeIx + 1 ∧
    c = (s.chip f).resetChip (memOf (Config.freeMemory s.freeIx)) :=
  ⟨_, _, exec_chipReset s f, State.chip_chipOp hf _ _, fun _ hne => State.chip_chipOp_ne hne _ _,
    State.eq_of_offChips (State.offChips_chipOp ..), State.freeIx_chipOp .., rfl⟩

theorem chipReady_leaves (hr : (s.chip f).inReset = true) : ∃ t c, exec (.chipReady f) s = .next t ∧ ChipStep s t f c ∧ c.inReset = false ∧
    c.seenHigh = s.stopPad (f / 16) ∧ c.alertNum = ((s.chip f).alertNum + 1) % 64 ∧ c.engines = (s.chip f).engines ∧
    (s.stopPad (f / 16) = false → c.clkStopped = true ∧ ∀ i, i < 32 → (c.core i).state = .held) ∧
    (s.stopPad (f / 16) = true → c.cores = (s.chip f).cores) := by
  rw [exec_chipReady]
  cases s.stopPad (f / 16) with
  | false =>
    have hstep := chipOp_step (s := s) (g := fun c => c.ready false) hf (by rw [Chip.ready_low hr]; rfl)
    rw [Chip.ready_low hr] at hstep
    refine ⟨_, _, rfl, hstep.step, rfl, rfl, rfl, rfl, fun _ => ⟨rfl, fun i hi => ?_⟩, fun h => absurd h (by decide)⟩
    simp only [Chip.raise, Chip.holdAlert, Chip.core, tget_tmodRange_in _ _ _ hi]
  | true =>
    have hstep := chipOp_step (s := s) (g := fun c => c.ready true) hf (by rw [Chip.ready_high hr]; rfl)
    rw [Chip.ready_high hr] at hstep
    exact ⟨_, _, rfl, hstep.step, rfl, rfl, rfl, rfl, fun h => absurd h (by decide), fun _ => rfl⟩

theorem resetHoldEnd_releases (hr : (s.chip f).inReset = false) (hs : (s.chip f).seenHigh = false) (hp : s.stopPad (f / 16) = true) :
    ∃ t c, exec (.resetHoldEnd f) s = .next t ∧ ChipStep s t f c ∧ c.seenHigh = true ∧ c.resetHold = false ∧
      (∀ i, i < 32 → ((s.chip f).core i).state = .held → (c.core i).state = .running) ∧
      (∀ i, i < 32 → ((s.chip f).core i).state ≠ .held → c.core i = (s.chip f).core i) ∧ c.engines = (s.chip f).engines := by
  have hg := Chip.holdEnd_of_unseen hr hs
  obtain ⟨m, hstep⟩ := chipEvent_step (g := fun c _ => c.holdEnd) hf hr (by rw [hg, Chip.mem_of_stable (Chip.stable_settle _)])
  have hcore : ∀ i, i < 32 → ((s.chip f).holdEnd.withMem m).core i =
      if ((s.chip f).core i).state = .held then { (s.chip f).core i with state := .running } else (s.chip f).core i := fun i hi => by
    rw [Chip.core_withMem, hg, Chip.core_settle, Chip.core, tget_tmodRange_in _ _ _ hi, Chip.core]
  refine ⟨_, _, exec_resetHoldEnd hp, hstep.step, ?_, ?_, fun i hi hh => ?_, fun i hi hh => ?_, ?_⟩
  · rw [Chip.seenHigh_withMem, hg, Chip.seenHigh_of_stable (Chip.stable_settle _)]
  · rw [Chip.resetHold_withMem, hg, Chip.resetHold_of_stable (Chip.stable_settle _)]
  · rw [hcore i hi, if_pos hh]
  · rw [hcore i hi, if_neg hh]
  · rw [Chip.engines_withMem, hg, Chip.settle_engines]
end

/-- What an alert of the chip's own gives to hold (R351, Table 12.4). -/
theorem Chip.alertOwn_raises {c : Chip} {cz : Nat} (h1 : 1 ≤ cz) (h8 : cz ≤ 8) (hw : ¬ (cz = 6 ∧ c.clkStopped = true)) (u info : Nat) :
    ∃ l, c.alertOwn cz u info = Chip.raise { c with links := l } cz u info ∧ (cz ≠ 5 → l = c.links) := by
  have hsent : ¬ (cz = 0 ∨ 8 < cz ∨ (cz = 6 ∧ c.clkStopped = true)) := by
    rintro (h | h | h)
    · omega
    · omega
    · exact hw h
  simp only [Chip.alertOwn, if_neg hsent]
  split
  · next h => exact ⟨_, rfl, fun hn => absurd h.1 hn⟩
  · exact ⟨_, rfl, fun _ => rfl⟩
/-- The word of an alert: cause, unit and information in their fields (Table 12.4). -/
theorem alert_word (cz u info : Nat) : cz + u <<< 8 + info <<< 32 = cz + u * 256 + info * 2 ^ 32 := by
  rw [Nat.shiftLeft_eq, Nat.shiftLeft_eq]
/-- A fifth alert replaces the newest and marks it LOST (R351). -/
theorem Chip.raise_alerts (c : Chip) (cz u info : Nat) :
    if c.alerts.length < 4 then (c.raise cz u info).alerts = c.alerts ++ [{ num := c.alertNum, word := cz + u * 256 + info * 2 ^ 32 }]
    else (c.raise cz u info).alerts = c.alerts.dropLast ++ [{ num := c.alertNum, word := cz + u * 256 + 2 ^ 31 + info * 2 ^ 32 }] := by
  simp only [Chip.raise, Chip.holdAlert, alert_word]
  split
  · rfl
  · rw [Nat.add_right_comm]

section
variable {s : State} {f cz u info : Nat} (hf : f < 128) (hr : (s.chip f).inReset = false) (hu : u < 2 ^ 17) (hi : info < 2 ^ 32)
include hf hr hu hi

theorem alertRaise_holds (h1 : 1 ≤ cz) (h8 : cz ≤ 8) (hw : ¬ (cz = 6 ∧ (s.chip f).clkStopped = true)) :
    ∃ t c, exec (.alertRaise f cz u info) s = .next t ∧ ChipStep s t f c ∧ c.cores = (s.chip f).cores ∧ c.engines = (s.chip f).engines ∧
      c.alertNum = ((s.chip f).alertNum + 1) % 64 ∧ c.alertCnt = ((s.chip f).alertCnt + 1) % 2 ^ 32 ∧
      (cz ≠ 5 → c.links = (s.chip f).links) ∧
      (if (s.chip f).alerts.length < 4
       then c.alerts = (s.chip f).alerts ++ [{ num := (s.chip f).alertNum, word := cz + u * 256 + info * 2 ^ 32 }]
       else c.alerts = (s.chip f).alerts.dropLast ++ [{ num := (s.chip f).alertNum, word := cz + u * 256 + 2 ^ 31 + info * 2 ^ 32 }]) := by
  rw [exec_alertRaise hu hi, Nat.mod_eq_of_lt (by omega)]
  obtain ⟨l, hg, hl⟩ := Chip.alertOwn_raises h1 h8 hw u info
  have hstep := chipEvent_exact hf hr (g := fun c _ => c.alertOwn cz u info) (by rw [hg]; rfl) (by rw [hg]; rfl) (by rw [hg]; rfl) (by rw [hg]; rfl)
  rw [hg] at hstep
  exact ⟨_, _, rfl, hstep.step, rfl, rfl, rfl, rfl, hl, Chip.raise_alerts { s.chip f with links := l } cz u info⟩
/-- A watchdog raises no alert while the peripheral clock is stopped (R20). -/
theorem alertRaise_watchdog_held (hc : (s.chip f).clkStopped = true) :
    ∃ t, exec (.alertRaise f 6 u info) s = .next t ∧ ChipStep s t f (s.chip f) := by
  rw [exec_alertRaise hu hi]
  exact ⟨_, rfl, (chipEvent_same hf hr (by simp [Chip.alertOwn, hc])).step⟩
end

/-- Settles O28: the reset and its end are operations of the chip, the end of the hold and the alerts events of it. -/
theorem chipResetAlertsAndReady : Obligations.ChipResetAlertsAndReady := by
  refine ⟨fun s f hf => ⟨?_, chipReady_leaves hf, resetHoldEnd_releases hf⟩,
    fun s f cz u info hf hr hu hi => ⟨alertRaise_holds hf hr hu hi, alertRaise_watchdog_held hf hr hu hi⟩⟩
  obtain ⟨t, c, hex, hchip, hothers, hframe, hfree, rfl⟩ := chipReset_resets (s := s) hf
  have hfields := resetChip_fields (s.chip f) (memOf (Config.freeMemory s.freeIx))
  exact ⟨t, _, hex, hchip, hothers, hframe, hfree, hfields⟩

/-! ### Cores: debug entry and steps (O26) -/

@[simp] theorem Chip.setCore_stopSeen (c : Chip) (i : Nat) (u : Core) : (c.setCore i u).stopSeen = c.stopSeen := by unfold Chip.setCore; split <;> rfl
@[simp] theorem Chip.setCore_stopping (c : Chip) (i : Nat) (u : Core) : (c.setCore i u).stopping = c.stopping := by unfold Chip.setCore; split <;> rfl
/-- STOP_SEEN is set once no core runs (R375). -/
theorem Chip.seeStop_sets {c : Chip} (hs : c.stopping = true) (hn : c.noneRunning = true) : c.seeStop.stopSeen = true := by
  simp [Chip.seeStop, hs, hn]
theorem Chip.noneRunning_setCore {c : Chip} {i : Nat} {u : Core} (hi : i < 32) (hu : u.state ≠ .running)
    (h : ∀ j, j < 32 → j ≠ i → (c.core j).state ≠ .running) : (c.setCore i u).noneRunning = true := by
  simp only [Chip.noneRunning, List.all_eq_true, List.mem_range, bne_iff_ne]
  intro j hj
  rw [Chip.core_setCore hi]
  split
  · exact hu
  · next hne => exact h j hj hne

/-- A core as it has entered its monitor with the first of its pending causes (R375, R377). -/
def Core.entered (u : Core) (t pc : Nat) : Core :=
  { u.mishalt with state := .monitor, cause := firstCause u.pend, pend := [], pc := pc, haltAt := t + 1 }
theorem Chip.debugEntry_pending {c : Chip} {i pc : Nat} (hs : (c.core i).state = .running) (hp : (c.core i).pend ≠ []) (hpc : pc < 2 ^ 32) (t : Nat) :
    c.debugEntry t i pc = (c.setCore i ((c.core i).entered t pc)).seeStop := by
  simp only [Chip.debugEntry, if_pos (And.intro hs hp), Nat.mod_eq_of_lt hpc, Core.entered]
theorem Chip.coreStep_monitor {c : Chip} {i : Nat} (h : (c.core i).state = .monitor) :
    c.coreStep i = c.setCore i { c.core i with state := .stepping, resumeStep := false, brkAt := none } := by
  simp only [Chip.coreStep, if_pos h]
theorem Chip.coreStep_other {c : Chip} {i : Nat} (h : (c.core i).state ≠ .monitor) : c.coreStep i = c := by simp only [Chip.coreStep, if_neg h]
section
variable {c : Chip} {i pc : Nat} (h : (c.core i).state = .stepping) (hpc : pc < 2 ^ 32)
include h hpc
theorem Chip.coreStepEnd_returns (hr : (c.core i).resumeStep = false) :
    c.coreStepEnd i pc = c.setCore i { c.core i with state := .monitor, pc := pc, cause := 4 } := by
  simp only [Chip.coreStepEnd, if_pos h, hr, Bool.false_eq_true, if_false, Nat.mod_eq_of_lt hpc]
theorem Chip.coreStepEnd_resumed (hr : (c.core i).resumeStep = true) :
    c.coreStepEnd i pc = (c.setCore i { c.core i with state := .running, pc := pc, cause := 4, resumeStep := false }).settle := by
  simp only [Chip.coreStepEnd, if_pos h, hr, if_true, Nat.mod_eq_of_lt hpc]
end

theorem Chip.core_withCtx_same {i : Nat} (hi : i < 32) (c : Chip) (x : Tab Word) : (c.withCtx i x).core i = { c.core i with ctx := x } :=
  Chip.core_setCore_same hi c _
theorem Chip.core_withCtx_ne {i j : Nat} (h : j ≠ i) (c : Chip) (x : Tab Word) : (c.withCtx i x).core j = c.core j := Chip.core_setCore_ne h c _
@[simp] theorem Chip.engines_withCtx (c : Chip) (i : Nat) (x : Tab Word) : (c.withCtx i x).engines = c.engines := c.setCore_engines i _
@[simp] theorem Chip.stopSeen_withCtx (c : Chip) (i : Nat) (x : Tab Word) : (c.withCtx i x).stopSeen = c.stopSeen := c.setCore_stopSeen i _

theorem exec_coreDebugEntry (s : State) (f i pc : Nat) :
    exec (.coreDebugEntry f i pc) s = .next (s.coreEvent f i (fun c t => c.debugEntry t i pc)) := rfl
theorem exec_coreStep (s : State) (f i : Nat) : exec (.coreStep f i) s = .next (s.chipEvent f (fun c _ => c.coreStep i)) := rfl
theorem exec_coreStepEnd (s : State) (f i pc : Nat) :
    exec (.coreStepEnd f i pc) s = .next (s.coreEvent f i (fun c _ => c.coreStepEnd i pc)) := rfl

section
variable {s : State} {f i pc : Nat} (hf : f < 128) (hi : i < 32) (hr : (s.chip f).inReset = false)
include hf hi hr

theorem coreDebugEntry_enters (hpc : pc < 2 ^ 32) (hs : ((s.chip f).core i).state = .running) (hp : ((s.chip f).core i).pend ≠ []) :
    ∃ t c, exec (.coreDebugEntry f i pc) s = .next t ∧ ChipStep s t f c ∧ c.engines = (s.chip f).engines ∧
      c.core i = { ((s.chip f).core i).mishalt with state := .monitor, cause := firstCause ((s.chip f).core i).pend, pend := [], pc := pc,
                                                        haltAt := s.chipTime f + 1, ctx := (c.core i).ctx } ∧
      (∀ j, j ≠ i → c.core j = (s.chip f).core j) ∧
      ((s.chip f).stopping = true → (∀ j, j < 32 → j ≠ i → ((s.chip f).core j).state ≠ .running) → c.stopSeen = true) := by
  have hg := Chip.debugEntry_pending hs hp hpc (s.chipTime f)
  have hin : ((s.chip f).debugEntry (s.chipTime f) i pc).core i = ((s.chip f).core i).entered (s.chipTime f) pc := by
    rw [hg, Chip.core_seeStop, Chip.core_setCore_same hi]
  obtain ⟨m, x, hstep⟩ := coreEvent_enters (g := fun c t => c.debugEntry t i pc) hf hr
    (by rw [hg, Chip.mem_of_stable (Chip.stable_seeStop _), Chip.setCore_mem]) hi (by simp [hs]) (by rw [hin]; rfl)
  refine ⟨_, _, exec_coreDebugEntry s f i pc, hstep.step, ?_, ?_, fun j hj => ?_, fun hstop hother => ?_⟩
  · rw [Chip.engines_withCtx, Chip.engines_withMem, hg, Chip.engines_seeStop, Chip.setCore_engines]
  · rw [Chip.core_withCtx_same hi, Chip.core_withMem, hin]; rfl
  · rw [Chip.core_withCtx_ne hj, Chip.core_withMem, hg, Chip.core_seeStop, Chip.core_setCore_ne hj]
  · rw [Chip.stopSeen_withCtx, Chip.stopSeen_withMem, hg]
    exact Chip.seeStop_sets (by rw [Chip.setCore_stopping]; exact hstop) (Chip.noneRunning_setCore hi (by simp [Core.entered]) hother)
theorem coreStep_steps (hs : ((s.chip f).core i).state = .monitor) :
    ∃ t c, exec (.coreStep f i) s = .next t ∧ ChipStep s t f c ∧ (c.core i).state = .stepping ∧ c.engines = (s.chip f).engines ∧
      (c.core i).cause = ((s.chip f).core i).cause ∧ (∀ j, j ≠ i → c.core j = (s.chip f).core j) := by
  have hg := Chip.coreStep_monitor hs
  obtain ⟨m, hstep⟩ := chipEvent_step (g := fun c _ => c.coreStep i) hf hr (by rw [hg, Chip.setCore_mem])
  refine ⟨_, _, exec_coreStep s f i, hstep.step, ?_, ?_, ?_, fun j hj => ?_⟩
  · rw [Chip.core_withMem, hg, Chip.core_setCore_same hi]
  · rw [Chip.engines_withMem, hg, Chip.setCore_engines]
  · rw [Chip.core_withMem, hg, Chip.core_setCore_same hi]
  · rw [Chip.core_withMem, hg, Chip.core_setCore_ne hj]
omit hi in
theorem coreStep_ignored (hs : ((s.chip f).core i).state ≠ .monitor) : ∃ t, exec (.coreStep f i) s = .next t ∧ ChipStep s t f (s.chip f) :=
  ⟨_, exec_coreStep s f i, (chipEvent_same (g := fun c _ => c.coreStep i) hf hr (Chip.coreStep_other hs)).step⟩
theorem coreStepEnd_enters (hpc : pc < 2 ^ 32) (hs : ((s.chip f).core i).state = .stepping) (hn : ((s.chip f).core i).resumeStep = false) :
    ∃ t c, exec (.coreStepEnd f i pc) s = .next t ∧ ChipStep s t f c ∧ c.engines = (s.chip f).engines ∧
      c.core i = { (s.chip f).core i with state := .monitor, pc := pc, cause := 4, ctx := (c.core i).ctx } ∧
      (∀ j, j ≠ i → c.core j = (s.chip f).core j) := by
  have hg := Chip.coreStepEnd_returns hs hpc hn
  have hin : ((s.chip f).coreStepEnd i pc).core i = { (s.chip f).core i with state := .monitor, pc := pc, cause := 4 } := by
    rw [hg, Chip.core_setCore_same hi]
  obtain ⟨m, x, hstep⟩ := coreEvent_enters (g := fun c _ => c.coreStepEnd i pc) hf hr (by rw [hg, Chip.setCore_mem]) hi (by simp [hs]) (by rw [hin])
  refine ⟨_, _, exec_coreStepEnd s f i pc, hstep.step, ?_, ?_, fun j hj => ?_⟩
  · rw [Chip.engines_withCtx, Chip.engines_withMem, hg, Chip.setCore_engines]
  · rw [Chip.core_withCtx_same hi, Chip.core_withMem, hin]
  · rw [Chip.core_withCtx_ne hj, Chip.core_withMem, hg, Chip.core_setCore_ne hj]
theorem coreStepEnd_runs_on (hpc : pc < 2 ^ 32) (hs : ((s.chip f).core i).state = .stepping) (hy : ((s.chip f).core i).resumeStep = true) :
    ∃ t c, exec (.coreStepEnd f i pc) s = .next t ∧ ChipStep s t f c ∧ (c.core i).state = .running ∧ (c.core i).cause = 4 ∧ (c.core i).pc = pc := by
  have hg := Chip.coreStepEnd_resumed hs hpc hy
  have hin : ((s.chip f).coreStepEnd i pc).core i = { (s.chip f).core i with state := .running, pc := pc, cause := 4, resumeStep := false } := by
    rw [hg, Chip.core_settle, Chip.core_setCore_same hi]
  obtain ⟨m, hstep⟩ := coreEvent_stays (i := i) (g := fun c _ => c.coreStepEnd i pc) hf hr
    (by rw [hg, Chip.mem_of_stable (Chip.stable_settle _), Chip.setCore_mem]) (.inr (by rw [hin]; simp))
  refine ⟨_, _, exec_coreStepEnd s f i pc, hstep.step, ?_, ?_, ?_⟩ <;> rw [Chip.core_withMem, hin]
end

/-! ### Engines: commands, steps and streams (O26) -/

/-- The chip apart from its engines, the tap's queue and the count of commands. -/
def Chip.besideEngines (c : Chip) : Chip := { c with engines := [], tapQ := [], cmdsDone := 0 }
section
variable {c d : Chip} (h : d.besideEngines = c.besideEngines)
include h
theorem cores_of_beside : d.cores = c.cores := (congrArg Chip.cores h :)
theorem mem_of_beside : d.mem = c.mem := (congrArg Chip.mem h :)
theorem lastStop_of_beside : d.lastStop = c.lastStop := (congrArg Chip.lastStop h :)
end
/-- From `c` to `d` engine `e` alone has changed, with what its command boundaries note. -/
structure EngChange (c d : Chip) (e : Nat) : Prop where
  beside : d.besideEngines = c.besideEngines
  others : ∀ j, j ≠ e → d.eng j = c.eng j
theorem EngChange.refl (c : Chip) (e : Nat) : EngChange c c e := ⟨rfl, fun _ _ => rfl⟩
theorem EngChange.trans {b c d : Chip} {e : Nat} (h : EngChange c d e) (h' : EngChange d b e) : EngChange c b e :=
  ⟨h'.beside.trans h.beside, fun j hj => (h'.others j hj).trans (h.others j hj)⟩
theorem Chip.setEng_change (c : Chip) (e : Nat) (u : Engine) : EngChange c (c.setEng e u) e :=
  ⟨by unfold Chip.setEng; split <;> rfl, fun _ hj => Chip.eng_setEng_ne hj c u⟩
@[simp] theorem Chip.eng_note (c : Chip) (t e ty ix j : Nat) : (c.note t e ty ix).eng j = c.eng j := by
  obtain ⟨q, h⟩ := c.note_eq t e ty ix; rw [h]; rfl
theorem Chip.note_change (c : Chip) (t e ty ix k : Nat) : EngChange c (c.note t e ty ix) k :=
  ⟨by obtain ⟨q, h⟩ := c.note_eq t e ty ix; rw [h]; rfl, fun _ _ => Chip.eng_note ..⟩

/-- An engine that starts command `i`. -/
def Engine.started (u : Engine) (t i : Nat) (st : EngState) (step : Bool) : Engine :=
  { u.enter t st with current := i, stepping := step, cmpSkip := if u.cmpSkip = i + 1 then 0 else u.cmpSkip }
/-- An engine whose stream has no command left. -/
def Engine.atEnd (u : Engine) (t : Nat) : Engine := { u.enter t .idle with current := noIndex, stepping := false }
theorem Chip.begin_change (c : Chip) (t e i : Nat) (st : EngState) (step : Bool) : EngChange c (c.begin_ t e i st step) e :=
  (c.setEng_change e _).trans (Chip.note_change ..)
theorem Chip.eng_begin {e : Nat} (he : e < 512) (c : Chip) (t i : Nat) (st : EngState) (step : Bool) :
    (c.begin_ t e i st step).eng e = (c.eng e).started t i st step := by
  rw [Chip.begin_, Chip.eng_note, Chip.eng_setEng_same he, Engine.started]

theorem Engine.next?_some {u : Engine} (h : (u.lastDone + 1) % 2 ^ 32 < u.len) : u.next? = some ((u.lastDone + 1) % 2 ^ 32) := if_pos h
theorem Engine.next?_none {u : Engine} (h : ¬ (u.lastDone + 1) % 2 ^ 32 < u.len) : u.next? = none := if_neg h
section
variable {u : Engine} (h : u.cmpEn = false)
include h
theorem Engine.hitsBefore_disabled (i : Nat) : u.hitsBefore i = false := by simp [Engine.hitsBefore, Engine.matchIndex, h]
theorem Engine.hitsAfter_disabled (i : Nat) : u.hitsAfter i = false := by simp [Engine.hitsAfter, Engine.matchIndex, h]
end
section
variable {c : Chip} {e : Nat}
theorem Chip.startNext_end (h : (c.eng e).next? = none) (f t : Nat) : c.startNext f t e = (c.setEng e ((c.eng e).atEnd t), false) := by
  simp only [Chip.startNext, h, Engine.atEnd]
theorem Chip.startNext_begins {i : Nat} (h : (c.eng e).next? = some i) (hc : (c.eng e).cmpEn = false) (f t : Nat) :
    c.startNext f t e = (c.begin_ t e i .running false, false) := by
  simp only [Chip.startNext, h, Engine.hitsBefore_disabled hc, Bool.false_eq_true, if_false]
/-- With its comparator off an engine starts its next command, or goes IDLE with none left (R42). -/
theorem Chip.startNext_runs (he : e < 512) (hc : (c.eng e).cmpEn = false) (f t : Nat) :
    ∃ d, c.startNext f t e = (d, false) ∧ EngChange c d e ∧
      d.eng e = (if (c.eng e).next?.isSome then (c.eng e).started t (((c.eng e).lastDone + 1) % 2 ^ 32) .running false else (c.eng e).atEnd t) := by
  by_cases h : ((c.eng e).lastDone + 1) % 2 ^ 32 < (c.eng e).len
  · have hn := Engine.next?_some h
    exact ⟨_, Chip.startNext_begins hn hc f t, c.begin_change .., by rw [Chip.eng_begin he, hn]; rfl⟩
  · have hn := Engine.next?_none h
    exact ⟨_, Chip.startNext_end hn f t, c.setEng_change .., by rw [Chip.eng_setEng_same he, hn]; rfl⟩

/-- An engine that has completed its command (R42). -/
def Engine.completed (u : Engine) : Engine := { u with lastDone := u.current, done := (u.done + 1) % 2 ^ 32 }
/-- The chip as engine `e` has completed its command, before the engine goes on. -/
def Chip.completed (c : Chip) (t e : Nat) : Chip :=
  { (c.setEng e (c.eng e).completed).note t e 2 (c.eng e).current with cmdsDone := (c.cmdsDone + 1) % 2 ^ 64 }
theorem EngChange.counted {c d : Chip} {e : Nat} (h : EngChange c d e) (k : Nat) : EngChange c { d with cmdsDone := k } e := ⟨h.beside, h.others⟩
theorem Chip.completed_change (c : Chip) (t e : Nat) : EngChange c (c.completed t e) e :=
  ((c.setEng_change e (c.eng e).completed).trans (Chip.note_change _ t e 2 (c.eng e).current e)).counted _
theorem Chip.eng_completed (he : e < 512) (t : Nat) : (c.completed t e).eng e = (c.eng e).completed :=
  (Chip.eng_note ..).trans (Chip.eng_setEng_same he ..)
theorem Chip.complete_idle (h : (c.eng e).state.busy = false) (f t : Nat) : c.complete f t e = c := by
  simp only [Chip.complete, h, Bool.not_false, if_true]
/-- With its comparator off an engine that completes a command is MUFFLED if it was muffling, and goes on if not (R42, R43, R392). -/
theorem Chip.complete_uncompared (hb : (c.eng e).state.busy = true) (hc : (c.eng e).cmpEn = false) (f t : Nat) :
    c.complete f t e =
      if (c.eng e).state == .muffling then (c.completed t e).setEng e
        { (c.eng e).completed.enter t .muffled with current := noIndex, stepping := false, cause := if (c.eng e).stepping then 4 else (c.eng e).cause }
      else if ((c.completed t e).startNext f t e).2 then ((c.completed t e).startNext f t e).1.reach t (e / 32) (c.eng e).cmpReach
      else ((c.completed t e).startNext f t e).1 := by
  have hafter : (c.eng e).completed.hitsAfter (c.eng e).current = false := Engine.hitsAfter_disabled hc _
  have hbefore : ((c.eng e).haltNow t && (c.eng e).completed.next?.any (c.eng e).completed.hitsBefore) = false := by
    cases (c.eng e).completed.next? with
    | none => exact Bool.and_false _
    | some i => rw [Option.any_some, Engine.hitsBefore_disabled (u := (c.eng e).completed) hc, Bool.and_false]
  show (if (!(c.eng e).state.busy) = true then c else if (c.eng e).completed.hitsAfter (c.eng e).current = true then _
    else if ((c.eng e).haltNow t && (c.eng e).completed.next?.any (c.eng e).completed.hitsBefore) = true then _ else _) = _
  rw [if_neg (by simp [hb]), if_neg (by simp [hafter]), if_neg (by simp [hbefore])]
  rfl
end

theorem Chip.engStep_muffled {c : Chip} {e i : Nat} (hs : (c.eng e).state = .muffled) (hn : (c.eng e).next? = some i) (t : Nat) :
    c.engStep t e = c.begin_ t e i .muffling true := by
  simp only [Chip.engStep, hs, hn]
theorem Chip.engStep_at_end {c : Chip} {e : Nat} (hs : (c.eng e).state = .muffled) (hn : (c.eng e).next? = none) (t : Nat) : c.engStep t e = c := by
  simp only [Chip.engStep, hs, hn]
theorem Chip.engStep_forced {c : Chip} {e : Nat} (hs : (c.eng e).state = .forced) (hl : (c.eng e).current < (c.eng e).len) (t : Nat) :
    c.engStep t e = c.begin_ t e (c.eng e).current .muffling true := by
  simp only [Chip.engStep, hs, Engine.redo?, if_pos hl]

/-- An engine with a stream of `n` commands just loaded (R19, R44, log entry 47). -/
def Engine.loaded (u : Engine) (id n : Nat) : Engine :=
  { u with streamId := id, len := n, lastDone := noIndex, odd := decide (u.len ≠ 0) && u.streamId == id,
           current := if u.state = .forced then 0 else u.current }
theorem Chip.load_none {c : Chip} (h : c.canLoad = false) (f t e id n : Nat) : c.load f t e id n = c := by simp [Chip.load, h]
section
variable {c : Chip} {e id n : Nat} (hid : id < 2 ^ 32) (hn : n < 2 ^ 32) (hr : c.inReset = false) (hh : c.resetHold = false) (hl : c.canLoad = true)
include hid hn hr hh hl
theorem Chip.load_open (hb : (c.eng e).state.busy = false) (f t : Nat) :
    c.load f t e id n =
      if (c.eng e).state == .idle then
        if ((c.setEng e ((c.eng e).loaded id n)).startNext f t e).2
        then ((c.setEng e ((c.eng e).loaded id n)).startNext f t e).1.reach t (e / 32) (c.eng e).cmpReach
        else ((c.setEng e ((c.eng e).loaded id n)).startNext f t e).1
      else c.setEng e ((c.eng e).loaded id n) := by
  have hrefused : (c.inReset || c.resetHold || (c.eng e).state.busy || decide (n ≥ 2 ^ 32) || !c.canLoad) = false := by
    simp [hr, hh, hb, hl]; omega
  simp only [Chip.load, hrefused, Bool.false_eq_true, if_false, Nat.mod_eq_of_lt hid]
  rfl
/-- A stream loaded on an IDLE engine starts at command 0 (R44). -/
theorem Chip.load_idle (hs : (c.eng e).state = .idle) (hc : (c.eng e).cmpEn = false) (he : e < 512) (h0 : 0 < n) (f t : Nat) :
    EngChange c (c.load f t e id n) e ∧ (c.load f t e id n).eng e = ((c.eng e).loaded id n).started t 0 .running false := by
  have hu : (c.setEng e ((c.eng e).loaded id n)).eng e = (c.eng e).loaded id n := Chip.eng_setEng_same he c _
  have hnext : ((c.setEng e ((c.eng e).loaded id n)).eng e).next? = some 0 := by
    rw [hu]; simp [Engine.next?, Engine.loaded, noIndex, h0]
  rw [Chip.load_open hid hn hr hh hl (by rw [hs]; rfl), Chip.startNext_begins hnext (by rw [hu]; exact hc), hs]
  exact ⟨(c.setEng_change e _).trans (Chip.begin_change ..), (Chip.eng_begin he ..).trans (by rw [hu])⟩
theorem Chip.load_waits (hs : (c.eng e).state = .muffled ∨ (c.eng e).state = .forced) (f t : Nat) :
    c.load f t e id n = c.setEng e ((c.eng e).loaded id n) := by
  rw [Chip.load_open hid hn hr hh hl (by rcases hs with h | h <;> rw [h] <;> rfl), if_neg (by rcases hs with h | h <;> rw [h] <;> decide)]
end

/-- An event that changes engines alone. -/
theorem enginesEvent_step {s : State} {f : Nat} {g : Chip → Nat → Chip} {d : Chip} (hf : f < 128) (hr : (s.chip f).inReset = false)
    (hg : g (s.chip f) (s.chipTime f) = d) (h : d.besideEngines = (s.chip f).besideEngines) :
    ∃ c, ChipStep s (s.chipEvent f g) f c ∧ c.cores = (s.chip f).cores ∧ ∀ e, c.eng e = d.eng e := by
  obtain ⟨m, hstep⟩ := chipEvent_step (g := g) hf hr (by rw [hg]; exact mem_of_beside h)
  rw [hg] at hstep
  exact ⟨_, hstep.step, (cores_of_beside h :), fun _ => rfl⟩
/-- An event that is a change of one engine. -/
theorem engEvent_step {s : State} {f e : Nat} {g : Chip → Nat → Chip} {d : Chip} (hf : f < 128) (hr : (s.chip f).inReset = false)
    (hg : g (s.chip f) (s.chipTime f) = d) (h : EngChange (s.chip f) d e) :
    ∃ c, ChipStep s (s.chipEvent f g) f c ∧ c.cores = (s.chip f).cores ∧ (∀ j, j ≠ e → c.eng j = (s.chip f).eng j) ∧ c.eng e = d.eng e := by
  obtain ⟨c, hstep, hcores, heng⟩ := enginesEvent_step hf hr hg h.beside
  exact ⟨c, hstep, hcores, fun j hj => (heng j).trans (h.others j hj), heng e⟩

theorem exec_engineCommandComplete (s : State) (f e : Nat) :
    exec (.engineCommandComplete f e) s = .next (s.chipEvent f (fun c t => c.complete f t e)) := rfl
theorem exec_engStep (s : State) (f e : Nat) : exec (.engStep f e) s = .next (s.chipEvent f (fun c t => c.engStep t e)) := rfl
theorem exec_streamLoad {e : Nat} (he : e < 512) (s : State) (f id n : Nat) :
    exec (.streamLoad f e id n) s = .next (s.chipEvent f (fun c t => c.load f t e id n)) := by
  show Host.Outcome.next (s.chipEvent f (fun c t => if e < 512 then c.load f t e id n else c)) = _
  simp only [if_pos he]

section
variable {s : State} {f e : Nat} (hf : f < 128) (he : e < 512) (hr : (s.chip f).inReset = false)
include hf he hr

theorem complete_muffles (hc : ((s.chip f).eng e).cmpEn = false) (hs : ((s.chip f).eng e).state = .muffling) :
    ∃ t c, exec (.engineCommandComplete f e) s = .next t ∧ ChipStep s t f c ∧ c.cores = (s.chip f).cores ∧
      (c.eng e).state = .muffled ∧ (c.eng e).lastDone = ((s.chip f).eng e).current ∧ (c.eng e).done = (((s.chip f).eng e).done + 1) % 2 ^ 32 ∧
      (c.eng e).cause = (if ((s.chip f).eng e).stepping then 4 else ((s.chip f).eng e).cause) ∧ (∀ j, j ≠ e → c.eng j = (s.chip f).eng j) := by
  have hg := Chip.complete_uncompared (by rw [hs]; rfl) hc f (s.chipTime f)
  rw [if_pos (by rw [hs]; rfl)] at hg
  obtain ⟨c, hstep, hcores, hothers, heng⟩ := engEvent_step (g := fun c t => c.complete f t e) hf hr hg
    (((s.chip f).completed_change _ e).trans (Chip.setEng_change ..))
  rw [Chip.eng_setEng_same he] at heng
  refine ⟨_, c, exec_engineCommandComplete s f e, hstep, hcores, ?_, ?_, ?_, ?_, hothers⟩ <;> rw [heng] <;> rfl
theorem complete_goes_on (hc : ((s.chip f).eng e).cmpEn = false) (hs : ((s.chip f).eng e).state = .running) :
    ∃ t c, exec (.engineCommandComplete f e) s = .next t ∧ ChipStep s t f c ∧ c.cores = (s.chip f).cores ∧
      (c.eng e).lastDone = ((s.chip f).eng e).current ∧ (∀ j, j ≠ e → c.eng j = (s.chip f).eng j) ∧
      (if (((s.chip f).eng e).current + 1) % 2 ^ 32 < ((s.chip f).eng e).len
       then (c.eng e).state = .running ∧ (c.eng e).current = (((s.chip f).eng e).current + 1) % 2 ^ 32 else (c.eng e).state = .idle) := by
  have hu := Chip.eng_completed (c := s.chip f) he (s.chipTime f)
  obtain ⟨d, hd, hchange, hnext⟩ := Chip.startNext_runs (c := (s.chip f).completed (s.chipTime f) e) he (by rw [hu]; exact hc) f (s.chipTime f)
  have hg := Chip.complete_uncompared (by rw [hs]; rfl) hc f (s.chipTime f)
  rw [if_neg (by rw [hs]; decide)] at hg
  simp only [hd, Bool.false_eq_true, if_false] at hg
  obtain ⟨c, hstep, hcores, hothers, heng⟩ := engEvent_step (g := fun c t => c.complete f t e) hf hr hg
    (((s.chip f).completed_change _ e).trans hchange)
  rw [hnext, hu] at heng
  refine ⟨_, c, exec_engineCommandComplete s f e, hstep, hcores, ?_, hothers, ?_⟩
  · rw [heng]; split <;> rfl
  · by_cases hl : (((s.chip f).eng e).current + 1) % 2 ^ 32 < ((s.chip f).eng e).len
    · rw [if_pos hl, heng, Engine.next?_some (u := ((s.chip f).eng e).completed) hl]; exact ⟨rfl, rfl⟩
    · rw [if_neg hl, heng, Engine.next?_none (u := ((s.chip f).eng e).completed) hl]; rfl
omit he in
theorem complete_ignored (hb : ((s.chip f).eng e).state.busy = false) :
    ∃ t, exec (.engineCommandComplete f e) s = .next t ∧ ChipStep s t f (s.chip f) :=
  ⟨_, exec_engineCommandComplete s f e, (chipEvent_same (g := fun c t => c.complete f t e) hf hr (Chip.complete_idle hb f _)).step⟩
theorem engStep_steps (hs : ((s.chip f).eng e).state = .muffled) (hl : (((s.chip f).eng e).lastDone + 1) % 2 ^ 32 < ((s.chip f).eng e).len) :
    ∃ t c, exec (.engStep f e) s = .next t ∧ ChipStep s t f c ∧ c.cores = (s.chip f).cores ∧ (c.eng e).state = .muffling ∧ (c.eng e).stepping = true ∧
      (c.eng e).current = (((s.chip f).eng e).lastDone + 1) % 2 ^ 32 ∧ (∀ j, j ≠ e → c.eng j = (s.chip f).eng j) := by
  have hg := Chip.engStep_muffled hs (Engine.next?_some hl) (s.chipTime f)
  obtain ⟨c, hstep, hcores, hothers, heng⟩ := engEvent_step (g := fun c t => c.engStep t e) hf hr hg (Chip.begin_change ..)
  rw [Chip.eng_begin he] at heng
  refine ⟨_, c, exec_engStep s f e, hstep, hcores, ?_, ?_, ?_, hothers⟩ <;> rw [heng] <;> rfl
omit he in
theorem engStep_ignored (hs : ((s.chip f).eng e).state = .muffled) (hl : ¬ (((s.chip f).eng e).lastDone + 1) % 2 ^ 32 < ((s.chip f).eng e).len) :
    ∃ t, exec (.engStep f e) s = .next t ∧ ChipStep s t f (s.chip f) := 
  ⟨_, exec_engStep s f e, (chipEvent_same (g := fun c t => c.engStep t e) hf hr (Chip.engStep_at_end hs (Engine.next?_none hl) _)).step⟩
theorem engStep_reissues (hs : ((s.chip f).eng e).state = .forced) (hl : ((s.chip f).eng e).current < ((s.chip f).eng e).len) :
    ∃ t c, exec (.engStep f e) s = .next t ∧ ChipStep s t f c ∧ (c.eng e).state = .muffling ∧ (c.eng e).current = ((s.chip f).eng e).current := by
  obtain ⟨c, hstep, -, -, heng⟩ := engEvent_step (g := fun c t => c.engStep t e) hf hr (Chip.engStep_forced hs hl _) (Chip.begin_change ..)
  rw [Chip.eng_begin he] at heng
  refine ⟨_, c, exec_engStep s f e, hstep, ?_, ?_⟩ <;> rw [heng] <;> rfl

theorem streamLoad_refused (h : (s.chip f).canLoad = false) (id n : Nat) : ∃ t, exec (.streamLoad f e id n) s = .next t ∧ ChipStep s t f (s.chip f) :=
  ⟨_, exec_streamLoad he s f id n, (chipEvent_same (g := fun c t => c.load f t e id n) hf hr (Chip.load_none h ..)).step⟩
section
variable {id n : Nat} (hid : id < 2 ^ 32) (hn : n < 2 ^ 32) (hl : (s.chip f).canLoad = true) (hh : (s.chip f).resetHold = false)
include hid hn hl hh
theorem streamLoad_starts (hc : ((s.chip f).eng e).cmpEn = false) (h0 : 0 < n) (hs : ((s.chip f).eng e).state = .idle) :
    ∃ t c, exec (.streamLoad f e id n) s = .next t ∧ ChipStep s t f c ∧ (c.eng e).state = .running ∧ (c.eng e).streamId = id ∧ (c.eng e).len = n ∧
      (c.eng e).current = 0 ∧ (c.eng e).lastDone = 0xFFFFFFFF ∧ (∀ j, j ≠ e → c.eng j = (s.chip f).eng j) := by
  obtain ⟨hchange, hload⟩ := Chip.load_idle hid hn hr hh hl hs hc he h0 f (s.chipTime f)
  obtain ⟨c, hstep, -, hothers, heng⟩ := engEvent_step (g := fun c t => c.load f t e id n) hf hr rfl hchange
  rw [hload] at heng
  refine ⟨_, c, exec_streamLoad he s f id n, hstep, ?_, ?_, ?_, ?_, ?_, hothers⟩ <;> rw [heng] <;> rfl
theorem streamLoad_waits (hs : ((s.chip f).eng e).state = .muffled ∨ ((s.chip f).eng e).state = .forced) :
    ∃ t c, exec (.streamLoad f e id n) s = .next t ∧ ChipStep s t f c ∧ (c.eng e).state = ((s.chip f).eng e).state ∧ (c.eng e).streamId = id ∧
      (c.eng e).len = n ∧ (c.eng e).lastDone = 0xFFFFFFFF ∧ (((s.chip f).eng e).state = .forced → (c.eng e).current = 0) := by
  obtain ⟨c, hstep, -, -, heng⟩ := engEvent_step (g := fun c t => c.load f t e id n) hf hr (Chip.load_waits hid hn hr hh hl hs f _) (Chip.setEng_change ..)
  rw [Chip.eng_setEng_same he] at heng
  exact ⟨_, c, exec_streamLoad he s f id n, hstep, by rw [heng]; rfl, by rw [heng]; rfl, by rw [heng]; rfl, by rw [heng]; rfl,
    fun hforced => by rw [heng]; exact if_pos hforced⟩
end
end

/-- Settles O26: what each event makes of its core or engine, and that it leaves the others. -/
theorem coresAndEnginesStep : Obligations.CoresAndEnginesStep := by
  refine ⟨fun s f i pc hf hi hpc hr => ?_, fun s f e hf he hr hc => ?_⟩
  · exact ⟨coreDebugEntry_enters hf hi hr hpc, coreStep_steps hf hi hr, coreStep_ignored hf hr, coreStepEnd_enters hf hi hr hpc,
      coreStepEnd_runs_on hf hi hr hpc⟩
  · exact ⟨complete_muffles hf he hr hc, complete_goes_on hf he hr hc, complete_ignored hf hr, engStep_steps hf he hr, engStep_ignored hf hr,
      engStep_reissues hf he hr, fun id n h => streamLoad_refused hf he hr h id n,
      fun id n hid h0 hn hl hh hs => streamLoad_starts hf he hr hid hn hl hh hc h0 hs,
      fun id n hid hn hl hh hs => streamLoad_waits hf he hr hid hn hl hh hs⟩

/-! ### Sweeps over the engines (O25) -/

/-- A sweep over the first engines, each step of which changes its own engine as `R` says, changes every engine as `R` says. What carries
the chip along is read by `chip`, and `good` holds of it all the way. -/
theorem foldl_engines {β : Type} {chip : β → Chip} {h : β → Nat → β} {good : β → Prop} {pre : Engine → Prop} {R : Nat → Engine → Engine → Prop}
    (hstep : ∀ b e, e < 512 → good b → pre ((chip b).eng e) →
      good (h b e) ∧ EngChange (chip b) (chip (h b e)) e ∧ R e ((chip b).eng e) ((chip (h b e)).eng e))
    {b : β} (hb : good b) (hpre : ∀ e, e < 512 → pre ((chip b).eng e)) (n : Nat) (hn : n ≤ 512) :
    let d := (List.range n).foldl h b
    good d ∧ (chip d).besideEngines = (chip b).besideEngines ∧ (∀ e, e < n → R e ((chip b).eng e) ((chip d).eng e)) ∧
      ∀ e, n ≤ e → (chip d).eng e = (chip b).eng e := by
  induction n with
  | zero => exact ⟨hb, rfl, fun e he => absurd he (by omega), fun _ _ => rfl⟩
  | succ n ih =>
    obtain ⟨hgood, hbeside, hdone, hrest⟩ := ih (by omega)
    rw [List.range_succ, List.foldl_append]
    generalize (List.range n).foldl h b = d at *
    have hsame : (chip d).eng n = (chip b).eng n := hrest n le_rfl
    obtain ⟨hgood', hchange, hR⟩ := hstep d n (by omega) hgood (by rw [hsame]; exact hpre n (by omega))
    refine ⟨hgood', hchange.beside.trans hbeside, fun e he => ?_, fun e he => (hchange.others e (by omega)).trans (hrest e (by omega))⟩
    by_cases h' : e = n
    · subst h'; rw [← hsame]; exact hR
    · rw [List.foldl_cons, List.foldl_nil, hchange.others e h']; exact hdone e (by omega)

/-- An engine whose command WDA_FORCE abandons (R45). -/
def Engine.forcedOut (u : Engine) (t : Nat) : Engine :=
  { u.enter t .forced with cause := 5, stepping := false, forcedCnt := (u.forcedCnt + 1) % 2 ^ 16 }
/-- WDA_FORCE abandons the command of each engine that is MUFFLING, and leaves every other engine (R418). -/
theorem Chip.force_engines (c : Chip) (t : Nat) :
    (c.force t).besideEngines = c.besideEngines ∧
    ∀ e, e < 512 → (c.force t).eng e = if (c.eng e).state = .muffling then (c.eng e).forcedOut t else c.eng e := by
  obtain ⟨-, hbeside, hall, -⟩ := foldl_engines (chip := fun c : Chip => c) (good := fun _ => True) (pre := fun _ => True)
    (R := fun _ u v => v = if u.state = .muffling then u.forcedOut t else u)
    (h := fun c e => if (c.eng e).state = .muffling then (c.setEng e ((c.eng e).forcedOut t)).note t e 3 (c.eng e).current else c)
    (fun d e he _ _ => ⟨trivial, by
      split
      · exact ⟨(d.setEng_change e _).trans (Chip.note_change ..), by rw [Chip.eng_note, Chip.eng_setEng_same he]⟩
      · exact ⟨EngChange.refl d e, rfl⟩⟩)
    (b := c) trivial (fun _ _ => trivial) 512 le_rfl
  exact ⟨hbeside, hall⟩

/-! ### Resumes and halts of selected units (O25) -/

/-- A halted engine is resumed: it runs, or is IDLE with no command left. -/
def Engine.resumes (u v : Engine) : Prop := u.state.halted = true → v.state = .running ∨ v.state = .idle
section
variable {c : Chip} {e : Nat}
theorem Chip.startNext_resumes (he : e < 512) (hc : (c.eng e).cmpEn = false) (f t : Nat) :
    ∃ d, c.startNext f t e = (d, false) ∧ EngChange c d e ∧ ((d.eng e).state = .running ∨ (d.eng e).state = .idle) := by
  obtain ⟨d, hd, hchange, heng⟩ := Chip.startNext_runs he hc f t
  refine ⟨d, hd, hchange, ?_⟩
  rw [heng]; split
  · exact .inl rfl
  · exact .inr rfl
/-- With its comparator off a resumed engine is not stopped again (Table 13.3). -/
theorem Chip.resumeEng_resumes (he : e < 512) (hc : (c.eng e).cmpEn = false) (f t : Nat) :
    ∃ d, c.resumeEng f t e = (d, false) ∧ EngChange c d e ∧ (c.eng e).resumes (d.eng e) := by
  cases hs : (c.eng e).state with
  | idle => exact ⟨c, by simp only [Chip.resumeEng, hs], EngChange.refl c e, fun h => by rw [hs] at h; cases h⟩
  | running => exact ⟨c, by simp only [Chip.resumeEng, hs], EngChange.refl c e, fun h => by rw [hs] at h; cases h⟩
  | muffling =>
    exact ⟨c.setEng e { (c.eng e).enter t .running with stepping := false }, by simp only [Chip.resumeEng, hs], c.setEng_change e _,
      fun _ => .inl (by rw [Chip.eng_setEng_same he]; rfl)⟩
  | muffled =>
    obtain ⟨d, hd, hchange, hrun⟩ := Chip.startNext_resumes he hc f t
    exact ⟨d, by simp only [Chip.resumeEng, hs, hd], hchange, fun _ => hrun⟩
  | forced =>
    cases hn : (c.eng e).redo? with
    | none =>
      obtain ⟨d, hd, hchange, hrun⟩ := Chip.startNext_resumes he hc f t
      exact ⟨d, by simp only [Chip.resumeEng, hs, hn, hd], hchange, fun _ => hrun⟩
    | some i => exact ⟨c.begin_ t e i .running false, by simp only [Chip.resumeEng, hs, hn], c.begin_change .., fun _ => .inl (by rw [Chip.eng_begin he]; rfl)⟩
end
@[simp] theorem Chip.stable_resumeEng (c : Chip) (f t e : Nat) : (c.resumeEng f t e).1.stable = c.stable := by
  simp only [Chip.resumeEng]; split
  · exact c.stable_setEng ..
  · exact c.stable_startNext ..
  · split
    · exact c.stable_startNext ..
    · exact c.stable_begin ..
  · rfl
@[simp] theorem Chip.stable_resumed (c : Chip) (t : Nat) : (c.resumed t).stable = c.stable := by
  unfold Chip.resumed; split
  · split
    · exact (Chip.stable_stopUnits ..).trans rfl
    · exact c.stable_settle
  · exact c.stable_settle
/-- A resume settles the chip unless a stop came in its very cycle (R388, R410). -/
theorem Chip.resumed_settles {c : Chip} {t : Nat} (h : ∀ T x r, c.lastStop = some (T, x, r) → T ≠ t) : c.resumed t = c.settle := by
  unfold Chip.resumed; split
  · next hl => exact if_neg (h _ _ _ hl)
  · rfl
theorem Core.resume_monitor {u : Core} (h : u.state = .monitor) : u.resume.state = .running := by simp [Core.resume, h]

/-- One engine of a resume: its chip, and the engines that their comparators stopped again. -/
def resumeStep (f t : Nat) (g : TimedGo) (p : Chip × List Nat) (e : Nat) : Chip × List Nat :=
  if selected g true e then ((p.1.resumeEng f t e).1, if (p.1.resumeEng f t e).2 then p.2 ++ [e] else p.2) else p
/-- The cores of a resume. -/
def Chip.resumeCores (c : Chip) (g : TimedGo) : Chip :=
  { c with cores := tmodRange {} c.cores 0 32 (fun i u => if selected g false i then u.resume else u) }
@[simp] theorem Chip.eng_resumeCores (c : Chip) (g : TimedGo) (e : Nat) : (c.resumeCores g).eng e = c.eng e := by simp only [Chip.resumeCores, Chip.eng]
@[simp] theorem Chip.lastStop_resumeCores (c : Chip) (g : TimedGo) : (c.resumeCores g).lastStop = c.lastStop := by simp only [Chip.resumeCores]
theorem Chip.act_resume {g : TimedGo} (hg : g.resume = true) (c : Chip) (f t : Nat) :
    c.act f t g =
      ((List.range 512).foldl (resumeStep f t g) (c.resumeCores g, [])).2.foldl (fun c e => c.reach t (e / 32) (c.eng e).cmpReach)
        (((List.range 512).foldl (resumeStep f t g) (c.resumeCores g, [])).1.resumed t) := by
  unfold Chip.act; rw [if_pos hg]; rfl
theorem Chip.act_halt {g : TimedGo} (hg : g.resume = false) (c : Chip) (f t : Nat) :
    c.act f t g = { c with cores := tmodRange {} c.cores 0 32 (fun i u => if selected g false i then u.halt 3 else u),
                           engines := tmodRange {} c.engines 0 512 (fun i e => if selected g true i then e.halt t 3 else e) } := by
  unfold Chip.act; rw [if_neg (by simp [hg])]
theorem stable_foldl {β : Type} {chip : β → Chip} {h : β → Nat → β} (hh : ∀ b e, (chip (h b e)).stable = (chip b).stable) (l : List Nat) (b : β) :
    (chip (l.foldl h b)).stable = (chip b).stable := by
  induction l generalizing b with
  | nil => rfl
  | cons e l ih => rw [List.foldl_cons, ih, hh]
/-- A resume or a halt of units leaves the rest of the chip. -/
theorem Chip.stable_act (c : Chip) (f t : Nat) (g : TimedGo) : (c.act f t g).stable = c.stable := by
  cases hg : g.resume with
  | false => rw [Chip.act_halt hg]; simp only [Chip.stable]
  | true =>
    have hunits := stable_foldl (chip := Prod.fst) (h := resumeStep f t g)
      (fun p e => by unfold resumeStep; split <;> simp) (List.range 512) (c.resumeCores g, [])
    rw [Chip.act_resume hg, stable_foldl (chip := fun c : Chip => c) (h := fun c e => c.reach t (e / 32) (c.eng e).cmpReach) (fun b e => Chip.stable_reach ..),
      Chip.stable_resumed, hunits]
    simp only [Chip.stable, Chip.resumeCores]
/-- With every comparator off a resume lets the selected units run and leaves the others (R388, Table 13.3). -/
theorem Chip.act_resume_runs {c : Chip} {t : Nat} {g : TimedGo} (hg : g.resume = true) (hc : ∀ e, e < 512 → (c.eng e).cmpEn = false)
    (hstop : ∀ T x r, c.lastStop = some (T, x, r) → T ≠ t) (f : Nat) :
    (∀ i, i < 32 → (c.act f t g).core i = if selected g false i then (c.core i).resume else c.core i) ∧
    (∀ e, e < 512 → selected g true e = true → (c.eng e).resumes ((c.act f t g).eng e)) ∧
    (∀ e, e < 512 → selected g true e = false → (c.act f t g).eng e = c.eng e) := by
  obtain ⟨hnone, hbeside, hall, -⟩ := foldl_engines (chip := Prod.fst) (h := resumeStep f t g) (good := fun p => p.2 = [])
    (pre := fun u => u.cmpEn = false)
    (R := fun e u v => (selected g true e = true → u.resumes v) ∧ (selected g true e = false → v = u))
    (fun p e he hp hpre => by
      obtain ⟨d, hd, hchange, hres⟩ := Chip.resumeEng_resumes he hpre f t
      unfold resumeStep
      split
      · next hsel => rw [hd]; exact ⟨hp, hchange, fun _ => hres, fun hn => absurd hsel (by simp [hn])⟩
      · next hsel => exact ⟨hp, EngChange.refl _ e, fun hy => absurd hy hsel, fun _ => rfl⟩)
    (b := (c.resumeCores g, [])) rfl (fun e he => by rw [Chip.eng_resumeCores]; exact hc e he) 512 le_rfl
  simp only [Chip.eng_resumeCores] at hall
  have hact : c.act f t g = ((List.range 512).foldl (resumeStep f t g) (c.resumeCores g, [])).1.settle := by
    rw [Chip.act_resume hg, hnone, List.foldl_nil, Chip.resumed_settles]
    rw [lastStop_of_beside hbeside, Chip.lastStop_resumeCores]
    exact hstop
  rw [hact]
  refine ⟨fun i hi => ?_, fun e he hsel => ?_, fun e he hsel => ?_⟩
  · rw [Chip.core_settle, Chip.core, cores_of_beside hbeside, Chip.resumeCores, tget_tmodRange_in _ _ _ hi, Chip.core]
  · rw [Chip.eng_settle]; exact (hall e he).1 hsel
  · rw [Chip.eng_settle]; exact (hall e he).2 hsel

/-! ### O25: run control -/

/-- A word written to WDA_RC_GO (Table 13.5). -/
def goWord (resume timed all : Bool) : Nat := (if resume then 2 else 1) + place (b2n timed) 2 1 + place (b2n all) 3 1
theorem goWord_fields (resume timed all : Bool) :
    fld (goWord resume timed all) 0 2 = (if resume then 2 else 1) ∧ bit (goWord resume timed all) 2 = timed ∧ bit (goWord resume timed all) 3 = all := by
  revert resume timed all; decide
/-- What a GO latches (R388, R389). -/
def Chip.latched (c : Chip) (resume all : Bool) : TimedGo :=
  { cores := c.selCores, engs := c.selEng, all := all, resume := resume, at_ := c.rcAtLo + c.rcAtHi * 2 ^ 32 }
/-- The chip as a GO has taken its selection. -/
def Chip.unselected (c : Chip) : Chip := { c with timed := none, selCores := 0, selEng := [] }
theorem Chip.go_eq (c : Chip) (f t : Nat) (resume timed all : Bool) :
    c.go f t (goWord resume timed all) =
      if timed = true ∧ t < (c.latched resume all).at_ then { c.unselected with timed := some (c.latched resume all) }
      else c.unselected.act f t (c.latched resume all) := by
  obtain ⟨ha, ht, hall⟩ := goWord_fields resume timed all
  simp only [Chip.go, ha, ht, hall]
  cases resume <;> rfl
theorem Chip.wdaWrite_go (c : Chip) (f t v : Nat) : c.wdaWrite f t 0x2E0 v = c.go f t v := by simp [Chip.wdaWrite]
theorem exec_rcGo (s : State) (f : Nat) (resume timed all : Bool) :
    exec (if resume then .rcGoResume f timed all else .rcGoHalt f timed all) s =
      .next (s.chipEvent f (fun c t => c.go f t (goWord resume timed all))) := by
  have hwrite : s.wdaReg f 0x2E0 (goWord resume timed all) = s.chipEvent f (fun c t => c.go f t (goWord resume timed all)) := by
    simp only [State.wdaReg, Chip.wdaWrite_go]
  rw [← hwrite]
  cases resume <;> rfl
theorem exec_timedAction (s : State) (f : Nat) : exec (.timedAction f) s = .next (s.chipEvent f (fun c t => c.timedAct f t)) := rfl
theorem exec_wdaForce (s : State) (f : Nat) : exec (.wdaForce f) s = .next (s.chipEvent f (fun c t => c.force t)) := by
  show Host.Outcome.next (s.wdaReg f 0x400 1) = _
  have hwrite : ∀ (c : Chip) t, c.wdaWrite f t 0x400 1 = c.force t := fun c t => by simp [Chip.wdaWrite, bit]
  simp only [State.wdaReg, hwrite]
/-- The links a mask names are held, and a link held already stays so (R419). -/
def Chip.muffleLinks (c : Chip) (mask : Nat) : Chip :=
  { c with links := tmodRange {} c.links 0 12 (fun n l => if bit mask n then { l with muffle := true } else l) }
theorem exec_wdaLinkMuffle (s : State) (f mask : Nat) : exec (.wdaLinkMuffle f mask) s = .next (s.chipEvent f (fun c _ => c.muffleLinks mask)) := by
  show Host.Outcome.next (s.wdaReg f 0x410 mask) = _
  have hwrite : ∀ (c : Chip) t, c.wdaWrite f t 0x410 mask = c.muffleLinks mask := fun c t => by simp [Chip.wdaWrite, Chip.muffleLinks]
  simp only [State.wdaReg, hwrite]
theorem Chip.link_muffleLinks {n : Nat} (hn : n < 12) (c : Chip) (mask : Nat) :
    (c.muffleLinks mask).link n = { c.link n with muffle := bit mask n || (c.link n).muffle } := by
  rw [Chip.muffleLinks, Chip.link, tget_tmodRange_in _ _ _ hn, Chip.link]
  cases bit mask n <;> rfl

theorem Chip.timedAct_due {c : Chip} {g : TimedGo} {t : Nat} (h : c.timed = some g) (ht : g.at_ ≤ t) (f : Nat) :
    c.timedAct f t = Chip.act { c with timed := none } f t g := by simp only [Chip.timedAct, h, if_pos ht]
theorem Chip.timedAct_waits {c : Chip} {g : TimedGo} {t : Nat} (h : c.timed = some g) (ht : t < g.at_) (f : Nat) : c.timedAct f t = c := by
  simp only [Chip.timedAct, h, if_neg (Nat.not_le.mpr ht)]

section
variable {g : TimedGo} (hg : g.resume = false) (c : Chip) (f t : Nat)
include hg
theorem Chip.core_act_halt {i : Nat} (hi : i < 32) : (c.act f t g).core i = if selected g false i then (c.core i).halt 3 else c.core i := by
  rw [Chip.act_halt hg, Chip.core, tget_tmodRange_in _ _ _ hi, Chip.core]
theorem Chip.eng_act_halt {e : Nat} (he : e < 512) : (c.act f t g).eng e = if selected g true e then (c.eng e).halt t 3 else c.eng e := by
  rw [Chip.act_halt hg, Chip.eng, tget_tmodRange_in _ _ _ he, Chip.eng]
end
/-- A muffle of a running engine and of an idle one (R42, R43). -/
theorem Engine.halt_muffles (u : Engine) (t : Nat) :
    (u.state = .running → (u.halt t 3).state = .muffling ∧ (u.halt t 3).cause = 3) ∧
    (u.state = .idle → (u.halt t 3).state = .muffled ∧ (u.halt t 3).cause = 3) :=
  ⟨fun h => by rw [Engine.halt_running h]; exact ⟨rfl, rfl⟩, fun h => by rw [Engine.halt_idle h]; exact ⟨rfl, rfl⟩⟩

/-- An event that acts on selected units: the rest of the chip is as the GO left it. -/
theorem chipEvent_acts {s : State} {f : Nat} {h : Chip → Nat → Chip} {b : Chip} {g : TimedGo} (hf : f < 128) (hr : (s.chip f).inReset = false)
    (hg : h (s.chip f) (s.chipTime f) = b.act f (s.chipTime f) g) (hm : b.mem = (s.chip f).mem) :
    ∃ c, ChipStep s (s.chipEvent f h) f c ∧ c.selCores = b.selCores ∧ c.selEng = b.selEng ∧ c.timed = b.timed ∧
      (∀ i, c.core i = (b.act f (s.chipTime f) g).core i) ∧ ∀ e, c.eng e = (b.act f (s.chipTime f) g).eng e := by
  have hstable := b.stable_act f (s.chipTime f) g
  obtain ⟨m, hstep⟩ := chipEvent_step (g := h) hf hr (by rw [hg, Chip.mem_of_stable hstable, hm])
  rw [hg] at hstep
  exact ⟨_, hstep.step, (Chip.selCores_of_stable hstable :), (Chip.selEng_of_stable hstable :), (Chip.timed_of_stable hstable :), fun _ => rfl, fun _ => rfl⟩

section
variable {s : State} {f : Nat} (hf : f < 128) (hr : (s.chip f).inReset = false)
include hf hr

theorem rcGoHalt_halts (all : Bool) : ∃ t c, exec (.rcGoHalt f false all) s = .next t ∧ ChipStep s t f c ∧ c.selCores = 0 ∧ c.selEng = [] ∧ c.timed = none ∧
    (∀ i, i < 32 → (all || bit (s.chip f).selCores i) = true → ((s.chip f).core i).state = .running →
      (c.core i).pend = ((s.chip f).core i).pend ++ [3]) ∧
    (∀ e, e < 512 → (all || bit (tget 0 (s.chip f).selEng (e / 32)) (e % 32)) = true →
      (((s.chip f).eng e).state = .running → (c.eng e).state = .muffling ∧ (c.eng e).cause = 3) ∧
      (((s.chip f).eng e).state = .idle → (c.eng e).state = .muffled ∧ (c.eng e).cause = 3)) ∧
    (∀ i, i < 32 → (all || bit (s.chip f).selCores i) = false → c.core i = (s.chip f).core i) ∧
    (∀ e, e < 512 → (all || bit (tget 0 (s.chip f).selEng (e / 32)) (e % 32)) = false → c.eng e = (s.chip f).eng e) := by
  have hg := ((s.chip f).go_eq f (s.chipTime f) false false all).trans (if_neg (by simp))
  obtain ⟨c, hstep, hcores, hengs, htimed, hcore, heng⟩ := chipEvent_acts (h := fun c t => c.go f t (goWord false false all)) hf hr hg rfl
  refine ⟨_, c, exec_rcGo s f false false all, hstep, hcores, hengs, htimed, fun i hi hsel hrun => ?_, fun e he hsel => ?_, fun i hi hsel => ?_,
    fun e he hsel => ?_⟩
  · rw [hcore, Chip.core_act_halt rfl _ f _ hi, if_pos (by exact hsel), Core.halt_running (by exact hrun)]; rfl
  · rw [heng, Chip.eng_act_halt rfl _ f _ he, if_pos (by exact hsel)]; exact Engine.halt_muffles _ _
  · rw [hcore, Chip.core_act_halt rfl _ f _ hi, if_neg (by rw [Bool.not_eq_true]; exact hsel)]; rfl
  · rw [heng, Chip.eng_act_halt rfl _ f _ he, if_neg (by rw [Bool.not_eq_true]; exact hsel)]; rfl

theorem rcGoResume_resumes (all : Bool) :
    ∃ t c, exec (.rcGoResume f false all) s = .next t ∧ ChipStep s t f c ∧ c.selCores = 0 ∧ c.selEng = [] ∧ c.timed = none ∧
      ((∀ e, e < 512 → ((s.chip f).eng e).cmpEn = false) → (∀ T x r, (s.chip f).lastStop = some (T, x, r) → T ≠ s.chipTime f) →
        (∀ i, i < 32 → (all || bit (s.chip f).selCores i) = true → ((s.chip f).core i).state = .monitor → (c.core i).state = .running) ∧
        (∀ e, e < 512 → (all || bit (tget 0 (s.chip f).selEng (e / 32)) (e % 32)) = true → ((s.chip f).eng e).state.halted = true →
          (c.eng e).state = .running ∨ (c.eng e).state = .idle) ∧
        (∀ i, i < 32 → (all || bit (s.chip f).selCores i) = false → c.core i = (s.chip f).core i) ∧
        (∀ e, e < 512 → (all || bit (tget 0 (s.chip f).selEng (e / 32)) (e % 32)) = false → c.eng e = (s.chip f).eng e)) := by
  have hg := ((s.chip f).go_eq f (s.chipTime f) true false all).trans (if_neg (by simp))
  obtain ⟨c, hstep, hcores, hengs, htimed, hcore, heng⟩ := chipEvent_acts (h := fun c t => c.go f t (goWord true false all)) hf hr hg rfl
  refine ⟨_, c, exec_rcGo s f true false all, hstep, hcores, hengs, htimed, fun hcmp hstop => ?_⟩
  obtain ⟨hcoreR, hengR, hengS⟩ := Chip.act_resume_runs (c := (s.chip f).unselected) (g := (s.chip f).latched true all) rfl hcmp hstop f
  refine ⟨fun i hi hsel hmon => ?_, fun e he hsel hhalt => ?_, fun i hi hsel => ?_, fun e he hsel => ?_⟩
  · rw [hcore, hcoreR i hi, if_pos (by exact hsel)]; exact Core.resume_monitor hmon
  · rw [heng]; exact hengR e he hsel hhalt
  · rw [hcore, hcoreR i hi, if_neg (by rw [Bool.not_eq_true]; exact hsel)]; rfl
  · rw [heng, hengS e he hsel]; rfl

theorem rcGo_latches (resume all : Bool) (ht : s.chipTime f < (s.chip f).rcAtLo + (s.chip f).rcAtHi * 2 ^ 32) :
    ∃ t, exec (if resume then .rcGoResume f true all else .rcGoHalt f true all) s = .next t ∧
      ChipStep s t f { (s.chip f).unselected with timed := some ((s.chip f).latched resume all) } := by
  have hg := ((s.chip f).go_eq f (s.chipTime f) resume true all).trans (if_pos ⟨rfl, ht⟩)
  have hstep := chipEvent_exact (g := fun c t => c.go f t (goWord resume true all)) hf hr (by rw [hg]; rfl) (by rw [hg]; rfl) (by rw [hg]; rfl)
    (by rw [hg]; rfl)
  rw [hg] at hstep
  exact ⟨_, exec_rcGo s f resume true all, hstep.step⟩

theorem timedAction_halts {g : TimedGo} (hp : (s.chip f).timed = some g) (ht : g.at_ ≤ s.chipTime f) (hg : g.resume = false) :
    ∃ t c, exec (.timedAction f) s = .next t ∧ ChipStep s t f c ∧ c.timed = none ∧
      (∀ e, e < 512 → (g.all || bit (tget 0 g.engs (e / 32)) (e % 32)) = true →
        ((s.chip f).eng e).state = .running → (c.eng e).state = .muffling ∧ (c.eng e).cause = 3) ∧
      (∀ e, e < 512 → (g.all || bit (tget 0 g.engs (e / 32)) (e % 32)) = false → c.eng e = (s.chip f).eng e) := by
  obtain ⟨c, hstep, -, -, htimed, -, heng⟩ := chipEvent_acts (h := fun c t => c.timedAct f t) hf hr (Chip.timedAct_due hp ht f) rfl
  refine ⟨_, c, exec_timedAction s f, hstep, htimed, fun e he hsel hrun => ?_, fun e he hsel => ?_⟩
  · rw [heng, Chip.eng_act_halt hg _ f _ he, if_pos (by exact hsel)]; exact (Engine.halt_muffles _ _).1 hrun
  · rw [heng, Chip.eng_act_halt hg _ f _ he, if_neg (by rw [Bool.not_eq_true]; exact hsel)]; rfl
theorem timedAction_waits {g : TimedGo} (hp : (s.chip f).timed = some g) (ht : s.chipTime f < g.at_) :
    ∃ t, exec (.timedAction f) s = .next t ∧ ChipStep s t f (s.chip f) :=
  ⟨_, exec_timedAction s f, (chipEvent_same (g := fun c t => c.timedAct f t) hf hr (Chip.timedAct_waits hp ht f)).step⟩

theorem wdaForce_abandons : ∃ t c, exec (.wdaForce f) s = .next t ∧ ChipStep s t f c ∧ c.cores = (s.chip f).cores ∧
    ∀ e, e < 512 →
      (((s.chip f).eng e).state = .muffling → (c.eng e).state = .forced ∧ (c.eng e).cause = 5 ∧ (c.eng e).current = ((s.chip f).eng e).current ∧
        (c.eng e).lastDone = ((s.chip f).eng e).lastDone ∧ (c.eng e).forcedCnt = (((s.chip f).eng e).forcedCnt + 1) % 2 ^ 16) ∧
      (((s.chip f).eng e).state ≠ .muffling → c.eng e = (s.chip f).eng e) := by
  obtain ⟨hbeside, hforce⟩ := (s.chip f).force_engines (s.chipTime f)
  obtain ⟨c, hstep, hcores, heng⟩ := enginesEvent_step (g := fun c t => c.force t) hf hr rfl hbeside
  refine ⟨_, c, exec_wdaForce s f, hstep, hcores, fun e he => ⟨fun hs => ?_, fun hs => ?_⟩⟩
  · rw [heng, hforce e he, if_pos hs]; exact ⟨rfl, rfl, rfl, rfl, rfl⟩
  · rw [heng, hforce e he, if_neg hs]
theorem wdaLinkMuffle_holds (mask : Nat) : ∃ t c, exec (.wdaLinkMuffle f mask) s = .next t ∧ ChipStep s t f c ∧
    { c with links := (s.chip f).links } = s.chip f ∧
    ∀ n, n < 12 → c.link n = { (s.chip f).link n with muffle := bit mask n || ((s.chip f).link n).muffle } := by
  have hstep := chipEvent_exact (g := fun c _ => c.muffleLinks mask) hf hr (by simp only [Chip.muffleLinks]) (by simp only [Chip.muffleLinks])
    (by simp only [Chip.muffleLinks]) (by simp only [Chip.muffleLinks])
  exact ⟨_, _, exec_wdaLinkMuffle s f mask, hstep.step, by simp only [Chip.muffleLinks], fun _ hn => Chip.link_muffleLinks hn _ mask⟩
end

/-- Settles O25: a GO acts on its selection at once or is latched, a latched one acts at its time, and WDA_FORCE sweeps the engines. -/
theorem runControlGo : Obligations.RunControlGo :=
  ⟨fun _ _ all hf hr => ⟨rcGoHalt_halts hf hr all, rcGoResume_resumes hf hr all, fun resume => rcGo_latches hf hr resume all,
    fun _ => timedAction_halts hf hr, fun _ => timedAction_waits hf hr⟩,
   fun _ _ mask hf hr => ⟨wdaForce_abandons hf hr, wdaLinkMuffle_holds hf hr mask⟩⟩

end Sys2Proof.Machine

/-! PROOFS. Arbitration (O51): what `pick` answers in each part of the order of service, and where the normal and the bulk work
of a round come from. -/
namespace Sys2Proof.Machine

/-! ### The order of service -/

theorem find_urgent_eq_none {s : State} (hu : ∀ m, m < 16 → s.eligible (.ring m) = false) :
    (List.range 16).find? (fun m => s.eligible (.ring m)) = none :=
  List.find?_eq_none.mpr fun m hm => by simp [hu m (List.mem_range.mp hm)]
section
variable {s : State} (hs : s.dmp.surviving = false)
include hs

/-- The scan ring ahead of all while its guard is due (R58). -/
theorem pick_of_guard (he : s.eligible .scan = true) (hg : s.hub.guard = true ∨ s.guardDue = true) : s.pick = some .scan := by
  have hguard : (s.hub.guard || s.guardDue) = true := by simpa using hg
  simp [State.pick, hs, he, hguard]
/-- Else the lowest urgent ring that is eligible (R56). -/
theorem pick_of_urgent {n : Nat} (hn : n < 16) (hg : s.hub.guard = false) (hd : s.guardDue = false) (he : s.eligible (.ring n) = true)
    (hlow : ∀ m, m < n → s.eligible (.ring m) = false) : s.pick = some (.ring n) := by
  have hfind : (List.range 16).find? (fun m => s.eligible (.ring m)) = some n :=
    List.find?_range_eq_some.mpr ⟨he, List.mem_range.mpr hn, fun m hm => by simp [hlow m hm]⟩
  simp [State.pick, hs, hg, hd, hfind]
section
variable (hu : ∀ m, m < 16 → s.eligible (.ring m) = false)
include hu
/-- Else the scan ring (R56). -/
theorem pick_of_scan (he : s.eligible .scan = true) : s.pick = some .scan := by
  simp [State.pick, hs, he, find_urgent_eq_none hu]
/-- Else the normal and the bulk work, the bulk work first while its floor is due (R57). -/
theorem pick_of_rest (he : s.eligible .scan = false) :
    s.pick = if s.bulkFloor then (s.bulkPick.map (·.1)).or s.normalPick else s.normalPick.or (s.bulkPick.map (·.1)) := by
  simp [State.pick, hs, he, find_urgent_eq_none hu]
end
end

/-! ### Normal rings -/

/-- The normal rings in the order of a round that begins at `rr`. -/
theorem mem_round (rr n : Nat) : n ∈ (List.range 432).map (fun j => 16 + (rr - 16 + j) % 432) ↔ 16 ≤ n ∧ n < 448 := by
  simp only [List.mem_map, List.mem_range]
  constructor
  · rintro ⟨j, -, rfl⟩; omega
  · rintro ⟨h1, h2⟩
    exact ⟨(n - 16 + 432 - (rr - 16) % 432) % 432, by omega, by omega⟩
/-- The only normal ring that is eligible has its turn, wherever the round is. -/
theorem normalPick_of_only {s : State} {n : Nat} (h1 : 16 ≤ n) (h2 : n < 448) (he : s.eligible (.ring n) = true)
    (honly : ∀ m, 16 ≤ m → m < 448 → m ≠ n → s.eligible (.ring m) = false) : s.normalPick = some (.ring n) := by
  unfold State.normalPick
  dsimp only
  cases hf : ((List.range 432).map (fun j => 16 + (s.hub.rr - 16 + j) % 432)).find? (fun m => s.eligible (.ring m)) with
  | none => exact absurd he (List.find?_eq_none.mp hf n ((mem_round _ _).mpr ⟨h1, h2⟩))
  | some m =>
    obtain ⟨hl, hu⟩ := (mem_round _ _).mp (List.mem_of_find?_eq_some hf)
    have hm : m = n := by
      by_contra hne
      have := List.find?_some hf
      rw [honly m hl hu hne] at this
      cases this
    rw [hm]; rfl
theorem normalPick_of_none {s : State} (h : ∀ m, 16 ≤ m → m < 448 → s.eligible (.ring m) = false) : s.normalPick = none := by
  refine Option.map_eq_none_iff.mpr (List.find?_eq_none.mpr fun m hm => ?_)
  obtain ⟨hl, hu⟩ := (mem_round _ _).mp hm
  simp [h m hl hu]

/-! ### Bulk work -/

theorem mem_of_fromPtr {ptr : Nat} {l : List Work} {w : Work} (h : fromPtr ptr l = some w) : w ∈ l := by
  rcases Option.or_eq_some_iff.mp h with hf | ⟨-, hh⟩
  · exact List.mem_of_find?_eq_some hf
  · exact List.mem_of_head? hh
theorem fromPtr_isSome {l : List Work} (h : l ≠ []) (ptr : Nat) : (fromPtr ptr l).isSome = true := by
  unfold fromPtr
  cases l with
  | nil => exact absurd rfl h
  | cons w l => simp
/-- Whatever credit and pointer say, a grant for bulk work goes to bulk work that is eligible. -/
theorem bulkPick_mem {s : State} {p : Work × Bool} (h : s.bulkPick = some p) : p.1 ∈ s.bulkWork := by
  unfold State.bulkPick at h
  split at h
  · next w hw => cases h; exact (List.mem_filter.mp (mem_of_fromPtr hw)).1
  · obtain ⟨w, hw, rfl⟩ := Option.map_eq_some_iff.mp h
    exact mem_of_fromPtr hw
theorem bulkPick_isSome {s : State} (h : s.bulkWork ≠ []) : s.bulkPick.isSome = true := by
  unfold State.bulkPick
  split
  · rfl
  · rw [Option.isSome_map]; exact fromPtr_isSome h _
/-- The only bulk work that is eligible gets the grant. -/
theorem bulkPick_of_only {s : State} {w : Work} (hw : w ∈ s.bulkWork) (honly : ∀ v ∈ s.bulkWork, v = w) : s.bulkPick.map (·.1) = some w := by
  obtain ⟨p, hp⟩ := Option.isSome_iff_exists.mp (bulkPick_isSome (List.ne_nil_of_mem hw))
  rw [hp, Option.map_some, honly _ (bulkPick_mem hp)]
theorem mem_bulkWork_of_noFree {s : State} (hfree : s.hub.free = []) (w : Work) :
    w ∈ s.bulkWork ↔ (∃ n, 448 ≤ n ∧ n < 512 ∧ w = .ring n) ∧ s.eligible w = true := by
  simp only [State.bulkWork, hfree, List.map_nil, List.append_nil, List.mem_filter, List.mem_map, List.mem_range]
  refine and_congr_left fun _ => ⟨?_, ?_⟩
  · rintro ⟨j, hj, rfl⟩; exact ⟨448 + j, by omega, by omega, rfl⟩
  · rintro ⟨n, h1, h2, rfl⟩; exact ⟨n - 448, by omega, by rw [show 448 + (n - 448) = n by omega]⟩

/-- Settles O51: the parts of the order, one lemma each; a ring alone in its class is what the class picks. -/
theorem arbitrationFollowsItsOrder : Obligations.ArbitrationFollowsItsOrder := by
  intro s hs
  refine ⟨pick_of_guard hs, fun n hn hg hd he hlow => pick_of_urgent hs hn hg hd he hlow, pick_of_scan hs, ?_, ?_⟩
  · intro hu hscan hfloor n h1 h2 _ _ he honly
    rw [pick_of_rest hs hu hscan, normalPick_of_only h1 h2 he honly, hfloor]
    rfl
  · intro hlow hscan hfree n h1 h2 he honly
    have hbulk : s.bulkPick.map (·.1) = some (.ring n) := by
      refine bulkPick_of_only ((mem_bulkWork_of_noFree hfree _).mpr ⟨⟨n, h1, h2, rfl⟩, he⟩) fun v hv => ?_
      obtain ⟨⟨m, hm1, hm2, rfl⟩, hm⟩ := (mem_bulkWork_of_noFree hfree v).mp hv
      by_contra hne
      rw [honly m hm1 hm2 (fun h => hne (by rw [h]))] at hm
      cases hm
    rw [pick_of_rest hs (fun m hm => hlow m (by omega)) hscan, hbulk, normalPick_of_none fun m _ hm => hlow m hm]
    cases s.bulkFloor <;> rfl

end Sys2Proof.Machine

/-! PROOFS. The hub core's other requests and the wipe of RETURNED (O50): what the answer to the request at the head of the queue
makes of the item that waits for it, what each request changes, and what the wipe leaves of the memories and fuses. -/
namespace Sys2Proof.Machine

/-! ### The request at the head of the queue -/

theorem coreQ_of_coreHead {s : State} {k src : Nat} {ow : Option Work} {d : List Nat} (h : s.coreHead k = some (ow, src, d)) :
    ∃ rest, s.hub.coreQ = (ow, k :: src :: d) :: rest := by
  unfold State.coreHead at h
  split at h
  · next ow' k' src' d' rest hq =>
    split at h
    · next hk => cases h; cases hk; exact ⟨rest, hq⟩
    · cases h
  · cases h
/-- The head of the queue is of one kind. -/
theorem coreHead_eq_none_of_ne {s : State} {k m src : Nat} {ow : Option Work} {d : List Nat} (h : s.coreHead k = some (ow, src, d)) (hm : k ≠ m) :
    s.coreHead m = none := by
  obtain ⟨rest, hq⟩ := coreQ_of_coreHead h
  simp [State.coreHead, hq, hm]
@[simp] theorem State.setItem_coreQ (s : State) (w : Work) (j : Item) : (s.setItem w j).hub.coreQ = s.hub.coreQ := by
  cases w <;> simp [State.setItem]
@[simp] theorem Item.mark_wait (now : Nat) (i j : Item) : (Item.mark now i j).wait = j.wait := by unfold Item.mark; split <;> rfl
@[simp] theorem Item.mark_rep (now : Nat) (i j : Item) : (Item.mark now i j).rep = j.rep := by unfold Item.mark; split <;> rfl
/-- A request that moves neither the queue nor the work items leaves them to the answer. -/
theorem State.item?_congr {s t : State} (hr : t.rings = s.rings) (hs : t.scan = s.scan) (hh : t.hub = s.hub) (w : Work) : t.item? w = s.item? w := by
  cases w <;> simp only [State.item?, State.ring, hr, hs, hh]

/-- From `s` to `t` the hub core has answered the item `w` at the head of its queue: the item goes on with the reply, and beside
the work items and the queue nothing has changed. -/
structure CoreAnswered (s t : State) (w : Work) (reply : List Byte) : Prop where
  coreQ : t.hub.coreQ = s.hub.coreQ.drop 1
  item : ∃ j, t.item? w = some j ∧ j.wait = .no ∧ tget [] j.rep 900 = reply
  frame : { t with rings := s.rings, scan := s.scan, hub := s.hub } = s
theorem coreReply_answers {s : State} {k src : Nat} {w : Work} {i : Item} {d : List Nat} (h : s.coreHead k = some (some w, src, d))
    (hi : s.item? w = some i) (hw : i.wait = .core) (hr : ∀ n, w = .ring n → n < 512) (reply : List Byte) :
    CoreAnswered s (s.coreReply reply) w reply := by
  obtain ⟨rest, hq⟩ := coreQ_of_coreHead h
  have hi' : State.item? { s with hub := { s.hub with coreQ := rest } } w = some i := by cases w <;> exact hi
  have e : s.coreReply reply = State.setItem { s with hub := { s.hub with coreQ := rest } } w
      (Item.mark s.now i { i with wait := Wait.no, rep := tput [] i.rep 900 reply }) := by
    simp only [State.coreReply, hq, State.coreAnswer]
    rw [State.updItem_of_item hi', if_pos hw]
  rw [e]
  refine ⟨by rw [State.setItem_coreQ, hq]; rfl, ⟨_, State.item?_setItem hr hi', by simp, by simp [tget_tput]⟩, ?_⟩
  exact congrArg (fun t : State => { t with hub := s.hub }) (State.setItem_frame { s with hub := { s.hub with coreQ := rest } } w _)

/-! ### Certificate drops and stage checks -/

/-- A drop takes the certificates it names. -/
theorem certDrop_drops (s : State) {all : Bool} {issuer serial n : Nat} {c : Cert}
    (h : tget none (s.certDrop all issuer serial).auth.certs n = some c) : ¬ (all = true ∨ (c.issuer = issuer ∧ c.serial = serial)) := by
  obtain ⟨p, hp, hc⟩ := exists_mem_of_tget (P := fun x => x = some c) (by simp) h
  have hkept := (List.mem_filter.mp hp).2
  rw [hc] at hkept
  simpa [not_or, imp_iff_not_or] using hkept
theorem coreDone_certDrop {s : State} {ow : Option Work} {src : Nat} {d : List Nat} (h : s.coreHead 2 = some (ow, src, d)) :
    s.coreDone = (s.certDrop (d.getD 0 0 == 1) (d.getD 1 0) (d.getD 2 0)).coreReply [1] := by
  simp only [State.coreDone, h]
theorem coreDone_stageCheck {s : State} {w : Work} {i : Item} {src : Nat} {d : List Nat} (h : s.coreHead 3 = some (some w, src, d))
    (hi : s.item? w = some i) : s.coreDone = s.coreReply (leBytes 1 (s.stageCheck i.desc)) := by
  simp only [State.coreDone, coreHead_eq_none_of_ne h (m := 2) (by decide), h, Option.bind_some, hi]

/-! ### The topology -/

/-- From `s` to `t` only entries of the topology copy for chips of the chains of mask `m` have changed. -/
structure TopoStep (s t : State) (m : Nat) : Prop where
  frame : { t with bhv := { t.bhv with topo := s.bhv.topo } } = s
  others : ∀ f, f < 128 → bit m (f / 16) = false → t.topo f = s.topo f
theorem TopoStep.refl (s : State) (m : Nat) : TopoStep s s m := ⟨rfl, fun _ _ _ => rfl⟩
theorem TopoStep.set {s t : State} {m f : Nat} (h : TopoStep s t m) (hf : f ∈ maskFabrics m) (x : Topo) : TopoStep s (t.setTopo f x) m where
  frame := by
    have e : { t.setTopo f x with bhv := { (t.setTopo f x).bhv with topo := t.bhv.topo } } = t := by unfold State.setTopo; split <;> rfl
    exact (congrArg (fun u : State => { u with bhv := { u.bhv with topo := s.bhv.topo } }) e).trans h.frame
  others g hg hm := by
    have hne : g ≠ f := by
      rintro rfl
      exact absurd (Bool.and_eq_true_iff.mp (List.mem_filter.mp hf).2).1 (by simp [hm])
    rw [State.topo_setTopo_ne _ _ _ _ hne, h.others g hg hm]
theorem TopoStep.foldl {s : State} {m : Nat} {g : State → Nat → State} (hg : ∀ t f, f ∈ maskFabrics m → TopoStep s t m → TopoStep s (g t f) m)
    {t : State} (h : TopoStep s t m) : TopoStep s ((maskFabrics m).foldl g t) m :=
  List.foldlRecOn (motive := fun t => TopoStep s t m) _ _ h fun t ht f hf => hg t f hf ht
/-- What a DISCOVER makes of the topology copy. -/
theorem topoBuild_step (s : State) (m : Nat) (i : Item) : TopoStep s (s.topoBuild m i) m := by
  have htake : TopoStep s (s.topoTake m i) m := TopoStep.foldl (fun t f hf ht => by
    dsimp only
    split
    · exact ht.set hf _
    · split
      · exact ht
      · exact ht.set hf _) (TopoStep.refl s m)
  exact TopoStep.foldl (fun t f hf ht => ht.set hf _) htake
theorem coreDone_discover {s : State} {w : Work} {i : Item} {src : Nat} {d : List Nat} (h : s.coreHead 4 = some (some w, src, d))
    (hi : s.item? w = some i) : s.coreDone = (s.topoBuild (chainMask i.desc) i).coreReply [] := by
  simp only [State.coreDone, coreHead_eq_none_of_ne h (m := 2) (by decide), coreHead_eq_none_of_ne h (m := 3) (by decide), h,
    State.discoverCore, hi]
theorem coreDone_of_empty {s : State} (h : s.hub.coreQ = []) : s.coreDone = s := by
  simp [State.coreDone, State.coreHead, h]
theorem exec_hubCoreRequestDone {s : State} (h : s.fastRun = true) : exec .hubCoreRequestDone s = .next s.coreDone := congrArg Host.Outcome.next (if_pos h)
theorem exec_hubCoreRequestDone_gated {s : State} (h : s.fastRun = false) : exec .hubCoreRequestDone s = .next s :=
  congrArg Host.Outcome.next (if_neg (by simp [h]))

section
variable {s : State} {w : Work} {i : Item} {src : Nat} {d : List Nat} (hi : s.item? w = some i) (hw : i.wait = .core)
  (hr : ∀ n, w = .ring n → n < 512)
include hi hw hr

theorem certDrop_ends (h : s.coreHead 2 = some (some w, src, d)) :
    ∃ u, CoreAnswered u s.coreDone w [1] ∧ u.hub = s.hub ∧ u.fuses = s.fuses ∧
      ∀ n c, tget none u.auth.certs n = some c → ¬ (d.getD 0 0 = 1 ∨ (c.issuer = d.getD 1 0 ∧ c.serial = d.getD 2 0)) := by
  refine ⟨s.certDrop (d.getD 0 0 == 1) (d.getD 1 0) (d.getD 2 0), ?_, rfl, rfl, fun n c hc => ?_⟩
  · rw [coreDone_certDrop h]
    exact coreReply_answers (s := s.certDrop _ _ _) h ((State.item?_congr rfl rfl rfl w).trans hi) hw hr _
  · simpa using certDrop_drops s hc
theorem stageCheck_ends (h : s.coreHead 3 = some (some w, src, d)) : CoreAnswered s s.coreDone w [BitVec.ofNat 8 (s.stageCheck i.desc)] := by
  rw [coreDone_stageCheck h hi]
  exact coreReply_answers h hi hw hr _
theorem discover_ends (h : s.coreHead 4 = some (some w, src, d)) :
    ∃ u, CoreAnswered u s.coreDone w [] ∧ TopoStep s u (chainMask i.desc) := by
  have hstep := topoBuild_step s (chainMask i.desc) i
  have hhub : (s.topoBuild (chainMask i.desc) i).hub = s.hub := (congrArg State.hub hstep.frame :)
  have hitem : (s.topoBuild (chainMask i.desc) i).item? w = some i :=
    (State.item?_congr (congrArg State.rings hstep.frame :) (congrArg State.scan hstep.frame :) hhub w).trans hi
  refine ⟨_, ?_, hstep⟩
  rw [coreDone_discover h hi]
  exact coreReply_answers (k := 4) (src := src) (d := d) (by rw [State.coreHead, hhub]; exact h) hitem hw hr _
end

/-! ### The wipe of RETURNED (R167) -/

/-- The NOR below the user partition, and RET_WIPED with the bits that take burned. -/
def State.wiped (s : State) (stuck : Nat) : State :=
  { s with nor := s.nor.filter (fun p => p.1 < 0x120000), store := [], dmp := { s.dmp with sealMap := [] }, scan := { s.scan with drBuf := [] },
           fuses := { s.fuses with retWiped := maskOf 4 (fun b => bit s.fuses.retWiped b || !bit stuck b) } }
theorem returnedWipe_wipes {s : State} (hp : s.lcs.wipePending = true) (hl : s.lcs.state = 5) (hb : s.boot.stage = 4) (hf : s.fastRun = true)
    (hline : (s.line 17).level = false) (stuck : Nat) : s.returnedWipe stuck =
      { s.wiped stuck with lcs := { s.lcs with dsDone := true, norDone := true, percent := 100, wipePending := !(s.wiped stuck).fuses.wiped } } :=
  if_pos ⟨hp, hl, hb, hf, by simp [hline]⟩
theorem returnedWipe_waits {s : State} (h : s.lcs.wipePending = false ∨ s.fastRun = false ∨ (s.line 17).level = true) (stuck : Nat) :
    s.returnedWipe stuck = s := by
  refine if_neg ?_
  rintro ⟨hp, -, -, hf, hl⟩
  simp [hp, hf] at h
  simp [h] at hl
theorem norByte_wiped (s : State) (stuck a : Nat) : (s.wiped stuck).norByte a = if a < 0x120000 then s.norByte a else 0xFF := by
  have := tget_filter (0 : Byte) s.nor (fun k => decide (k < 0x120000)) a
  simp only [State.norByte, State.wiped, mget, this]
  by_cases h : a < 0x120000 <;> simp [h]
theorem bit_retWiped_wiped (s : State) (stuck b : Nat) :
    bit (s.wiped stuck).fuses.retWiped b = (decide (b < 4) && (bit s.fuses.retWiped b || !bit stuck b)) := maskOf_bit _ _ _
theorem stay_wiped (s : State) (stuck : Nat) : s.fuses.stay (s.wiped stuck).fuses :=
  ⟨rfl, fun _ _ h => h, fun _ h => h, fun _ h => h, fun _ _ h => h, fun b hb h => by rw [bit_retWiped_wiped]; simp [hb, h], fun _ _ h => h, fun _ h => h⟩
/-- With no bit stuck, RET_WIPED is burned whole. -/
theorem wiped_of_noneStuck (s : State) : (s.wiped 0).fuses.wiped = true := by
  have hall : (fun b => bit s.fuses.retWiped b || !bit 0 b) = fun _ => true := funext fun b => by simp [bit]
  simp only [State.wiped, hall]
  rfl

/-- Settles O50: each request's own change, then the one answer that all share; the wipe as its lemmas give it. -/
theorem hubCoreRequestsAndWipe : Obligations.HubCoreRequestsAndWipe := by
  refine ⟨fun s w i hi hw hr => ⟨fun hf src d h => ?_, fun hf src d h => ?_, fun hf src d h => ?_, fun h => ?_⟩, fun s stuck => ⟨?_, ?_⟩⟩
  · obtain ⟨u, ⟨hq, ⟨j, hj, hwait, -⟩, hframe⟩, hhub, hfuses, hcerts⟩ := certDrop_ends hi hw hr h
    have hauth : s.coreDone.auth = u.auth := (congrArg State.auth hframe :)
    exact ⟨_, j, exec_hubCoreRequestDone hf, hhub ▸ hq, hj, hwait, hauth ▸ hcerts, (congrArg State.fuses hframe :).trans hfuses⟩
  · obtain ⟨hq, ⟨j, hj, hwait, hrep⟩, hframe⟩ := stageCheck_ends hi hw hr h
    exact ⟨_, j, exec_hubCoreRequestDone hf, hq, hj, hwait, hrep, (congrArg State.auth hframe :), (congrArg State.nor hframe :)⟩
  · obtain ⟨u, ⟨hq, ⟨j, hj, hwait, -⟩, hframe⟩, hstep⟩ := discover_ends hi hw hr h
    have hhub : u.hub = s.hub := (congrArg State.hub hstep.frame :)
    refine ⟨_, j, exec_hubCoreRequestDone hf, hhub ▸ hq, hj, hwait, (congrArg State.auth hframe :).trans (congrArg State.auth hstep.frame :), fun f hfab hm => ?_⟩
    exact (congrArg (fun t : State => t.topo f) hframe :).trans (hstep.others f hfab hm)
  · cases hf : s.fastRun with
    | true => rw [exec_hubCoreRequestDone hf, coreDone_of_empty (h.resolve_right (by simp [hf]))]
    | false => exact exec_hubCoreRequestDone_gated hf
  · intro hp hl hb hf hline
    refine ⟨_, congrArg Host.Outcome.next (returnedWipe_wipes hp hl hb hf hline stuck), rfl, rfl, rfl, fun a ha => ?_, fun a ha => ?_,
      rfl, rfl, rfl, stay_wiped s stuck, fun b hb hs => ?_, ?_, hl, rfl⟩
    · exact (norByte_wiped s stuck a).trans (if_neg (by omega))
    · exact (norByte_wiped s stuck a).trans (if_pos ha)
    · exact (bit_retWiped_wiped s stuck b).trans (by simp [hb, hs])
    · rintro rfl
      simp [wiped_of_noneStuck s]
  · exact fun h => congrArg Host.Outcome.next (returnedWipe_waits h stuck)

end Sys2Proof.Machine

/-! PROOFS. What moving host operations leave unchanged: an operation that enters the endpoint, walks or faults changes its
owner, and beside it only what the frame lets change; with no operation of a work item left to move, `pump` leaves the item. -/
namespace Sys2Proof.Machine

/-! ### What may change -/

/-- The state apart from the rings, the work items, the stroke engines, the HTU, and what a parked owner takes with it. -/
def State.offHost (s : State) : State :=
  { s with rings := [], scan := { s.scan with item := none }, hub := { s.hub with free := [], engines := [] }, htu := {}, bursts := [], car := {}
           bhv := { s.bhv with chains := [] }, dmp := { s.dmp with ctx := [] }, pba := 0, msiSent := [] }
/-- A ring apart from its work item, the descriptors waiting to become it, and its records in the endpoint. -/
def Ring.offWork (r : Ring) : Ring := { r with item := none, itemIx := 0, fetched := [], cplQ := [] }
/-- The part of a work item that its operations do not touch. -/
def Item.task (i : Item) : BitVec 512 × Nat × Bool × Option (Nat × Nat × Nat) := (i.desc, i.stage, i.begun, i.fin)
/-- Ring `r` has become `q`: registers and pointers are as they were, and a work item without a record goes on as the same task. -/
structure Ring.Kept (r q : Ring) : Prop where
  offWork : q.offWork = r.offWork
  task : ∀ i, r.item = some i → i.fin = none → q.fetched = r.fetched ∧ ∃ j, q.item = some j ∧ j.task = i.task
theorem Ring.Kept.refl (r : Ring) : r.Kept r := ⟨rfl, fun i h _ => ⟨rfl, i, h, rfl⟩⟩
theorem Ring.Kept.trans {r q p : Ring} (h : r.Kept q) (k : q.Kept p) : r.Kept p where
  offWork := k.offWork.trans h.offWork
  task i hi hf := by
    obtain ⟨hq, j, hj, hji⟩ := h.task i hi hf
    have hjf : j.fin = none := (congrArg (fun x => x.2.2.2) hji : j.fin = i.fin).trans hf
    obtain ⟨hp, l, hl, hlj⟩ := k.task j hj hjf
    exact ⟨hp.trans hq, l, hl, hlj.trans hji⟩
/-- A ring whose work item has a record, or none, may give it up. -/
theorem Ring.Kept.of_done {r q : Ring} (h : q.offWork = r.offWork) (hd : ∀ i, r.item = some i → i.fin ≠ none) : r.Kept q :=
  ⟨h, fun i hi hf => absurd hf (hd i hi)⟩

/-- From `s` to `t` host operations have moved: engines at rest stay at rest, pending sources stay pending, and no operation is new. -/
structure HostFrame (s t : State) : Prop where
  off : t.offHost = s.offHost
  ring : ∀ n, (s.ring n).Kept (t.ring n)
  idle : ∀ e, (s.se e).work = none → (t.se e).work = none
  pending : ∀ n, (s.src n).pending = true → (t.src n).pending = true
  ids : ∀ q ∈ t.htu.ops, ∃ p ∈ s.htu.ops, p.id = q.id
theorem HostFrame.refl (s : State) : HostFrame s s := ⟨rfl, fun _ => Ring.Kept.refl _, fun _ h => h, fun _ h => h, fun q h => ⟨q, h, rfl⟩⟩
theorem HostFrame.trans {s t u : State} (h : HostFrame s t) (k : HostFrame t u) : HostFrame s u where
  off := k.off.trans h.off
  ring n := (h.ring n).trans (k.ring n)
  idle e he := k.idle e (h.idle e he)
  pending n hn := k.pending n (h.pending n hn)
  ids q hq := by
    obtain ⟨p, hp, hpq⟩ := k.ids q hq
    obtain ⟨o, ho, hop⟩ := h.ids p hp
    exact ⟨o, ho, hop.trans hpq⟩
theorem HostFrame.foldl {α : Type} {g : State → α → State} (hg : ∀ s x, HostFrame s (g s x)) (l : List α) (s : State) : HostFrame s (l.foldl g s) :=
  List.foldlRecOn (motive := fun t => HostFrame s t) _ _ (HostFrame.refl s) fun t ht x _ => ht.trans (hg t x)

/-- Every host operation of work item `w` is in the endpoint. -/
def State.allQueued (s : State) (w : Work) : Prop := ∀ q ∈ s.htu.ops, q.owner = .item w → q.isQueued = true
/-- A frame in which the only work item that may have changed is the one that is the owner `ow`. -/
structure OwnerStep (ow : Owner) (s t : State) : Prop extends HostFrame s t where
  item : ∀ w, ow ≠ .item w → t.item? w = s.item? w
  queued : ∀ w, ow ≠ .item w → s.allQueued w → t.allQueued w
theorem OwnerStep.refl (ow : Owner) (s : State) : OwnerStep ow s s := ⟨HostFrame.refl s, fun _ _ => rfl, fun _ _ h => h⟩
theorem OwnerStep.trans {ow : Owner} {s t u : State} (h : OwnerStep ow s t) (k : OwnerStep ow t u) : OwnerStep ow s u where
  toHostFrame := h.toHostFrame.trans k.toHostFrame
  item w hw := (k.item w hw).trans (h.item w hw)
  queued w hw hq := k.queued w hw (h.queued w hw hq)
theorem OwnerStep.foldl {α : Type} {ow : Owner} {g : State → α → State} (hg : ∀ s x, OwnerStep ow s (g s x)) (l : List α) (s : State) :
    OwnerStep ow s (l.foldl g s) :=
  List.foldlRecOn (motive := fun t => OwnerStep ow s t) _ _ (OwnerStep.refl ow s) fun t ht x _ => ht.trans (hg t x)
/-- A frame in which every work item with all its operations in the endpoint is as it was. -/
structure HostStep (s t : State) : Prop extends HostFrame s t where
  item : ∀ w, s.allQueued w → t.item? w = s.item? w
  queued : ∀ w, s.allQueued w → t.allQueued w
theorem HostStep.refl (s : State) : HostStep s s := ⟨HostFrame.refl s, fun _ _ => rfl, fun _ h => h⟩
theorem HostStep.trans {s t u : State} (h : HostStep s t) (k : HostStep t u) : HostStep s u where
  toHostFrame := h.toHostFrame.trans k.toHostFrame
  item w hw := (k.item w (h.queued w hw)).trans (h.item w hw)
  queued w hw := k.queued w (h.queued w hw)
/-- An operation that is not yet in the endpoint moves its own owner. -/
theorem OwnerStep.hostStep {s t : State} {o : HostOp} (h : OwnerStep o.owner s t) (ho : o ∈ s.htu.ops) (hq : o.isQueued = false) : HostStep s t := by
  have hne : ∀ w, s.allQueued w → o.owner ≠ .item w := fun w hw e => by
    have := hw o ho e
    rw [hq] at this
    cases this
  exact ⟨h.toHostFrame, fun w hw => h.item w (hne w hw), fun w hw => h.queued w (hne w hw) hw⟩

/-! ### Writes of the state -/

section
variable {ow : Owner}

/-- A write of none of what the frame speaks of. -/
theorem OwnerStep.of_same {s t : State} (hoff : t.offHost = s.offHost) (hrings : t.rings = s.rings) (hscan : t.scan = s.scan) (hhub : t.hub = s.hub)
    (hsrc : t.car.sources = s.car.sources) (hops : t.htu.ops = s.htu.ops) : OwnerStep ow s t where
  off := hoff
  ring n := by simp only [State.ring, hrings]; exact Ring.Kept.refl _
  idle e h := by simpa only [State.se, hhub] using h
  pending n h := by simpa only [State.src, hsrc] using h
  ids q h := ⟨q, hops ▸ h, rfl⟩
  item w _ := by cases w <;> simp only [State.item?, State.ring, hrings, hscan, hhub]
  queued w _ h := by simpa only [State.allQueued, hops] using h
theorem OwnerStep.htu {s : State} (h : Htu) (hops : h.ops = s.htu.ops) : OwnerStep ow s { s with htu := h } :=
  OwnerStep.of_same rfl rfl rfl rfl rfl hops
theorem OwnerStep.setQueue (s : State) (q : Nat) (v : Queue) : OwnerStep ow s (s.setQueue q v) :=
  OwnerStep.of_same (by unfold State.setQueue; split <;> rfl) (by simp) (by simp) (by simp) (by simp) (by simp)
theorem OwnerStep.setCtx (s : State) (n : Nat) (c : Ctx) : OwnerStep ow s (s.setCtx n c) :=
  OwnerStep.of_same (by unfold State.setCtx; split <;> rfl) (by simp) (by simp) (by simp) (by simp) (by simp)
theorem OwnerStep.setSrc {s : State} {n : Nat} {v : Source} (hv : (s.src n).pending = true → v.pending = true) : OwnerStep ow s (s.setSrc n v) where
  off := by unfold State.setSrc; split <;> rfl
  ring m := by rw [State.ring_setSrc]; exact Ring.Kept.refl _
  idle e h := by rwa [State.se_setSrc]
  pending m h := by
    by_cases hm : m = n ∧ n < 256
    · obtain ⟨rfl, hn⟩ := hm
      rw [State.src_setSrc_same _ _ _ hn]; exact hv h
    · have : (s.setSrc n v).src m = s.src m := by
        by_cases hn : n < 256
        · exact State.src_setSrc_ne _ _ _ _ (fun e => hm ⟨e, hn⟩)
        · unfold State.setSrc; rw [if_neg hn]
      rwa [this]
  ids q h := ⟨q, by simpa using h, rfl⟩
  item w _ := by simp
  queued w _ h := by simpa [State.allQueued] using h
/-- Operations that are left out. -/
theorem OwnerStep.filterOps (s : State) (p : HostOp → Bool) : OwnerStep ow s { s with htu := { s.htu with ops := s.htu.ops.filter p } } where
  toHostFrame := ⟨rfl, fun _ => Ring.Kept.refl _, fun _ h => h, fun _ h => h, fun q h => ⟨q, (List.mem_filter.mp h).1, rfl⟩⟩
  item w _ := by cases w <;> rfl
  queued w _ h := fun q hq => h q (List.mem_filter.mp hq).1
theorem OwnerStep.dropOp (s : State) (id : Nat) : OwnerStep ow s (s.dropOp id) := OwnerStep.filterOps s _
/-- An operation takes a new form. -/
theorem OwnerStep.setOp {o : HostOp} (ho : ∀ w, o.owner = .item w → ow = .item w) (s : State) : OwnerStep ow s (s.setOp o) where
  toHostFrame := ⟨rfl, fun _ => Ring.Kept.refl _, fun _ h => h, fun _ h => h, fun q h => by
    obtain ⟨p, hp, rfl⟩ := List.mem_map.mp h
    refine ⟨p, hp, ?_⟩
    split
    · assumption
    · rfl⟩
  item w _ := by cases w <;> rfl
  queued w hw h := fun q hq hqw => by
    obtain ⟨p, hp, rfl⟩ := List.mem_map.mp hq
    split at hqw
    · exact absurd (ho w hqw) hw
    · next hid => rw [if_neg hid]; exact h p hp hqw

/-! ### Work items -/

theorem OwnerStep.setRing {s : State} {n : Nat} {r : Ring} (hr : (s.ring n).Kept r) : OwnerStep (.item (.ring n)) s (s.setRing n r) where
  off := by unfold State.setRing; split <;> rfl
  ring m := by
    by_cases hm : m = n
    · subst hm
      by_cases h : m < 512
      · rwa [State.ring_setRing_same _ _ _ h]
      · unfold State.setRing; rw [if_neg h]; exact Ring.Kept.refl _
    · rw [State.ring_setRing_ne _ _ _ _ hm]; exact Ring.Kept.refl _
  idle e h := by rwa [State.se_setRing]
  pending m h := by rwa [State.src_setRing]
  ids q h := ⟨q, by simpa using h, rfl⟩
  item w hw := by
    cases w with
    | ring m => exact congrArg Ring.item (State.ring_setRing_ne _ _ _ _ (fun e => hw (by rw [e])))
    | scan => simp [State.item?]
    | free k => simp [State.item?]
  queued w _ h := by simpa [State.allQueued] using h
/-- A work item is written, as the same task. -/
theorem OwnerStep.setItem {s : State} {w : Work} {i j : Item} (hi : s.item? w = some i) (hj : j.task = i.task) : OwnerStep (.item w) s (s.setItem w j) := by
  have other : ∀ v, Owner.item w ≠ .item v → (s.setItem w j).item? v = s.item? v := fun v hv => item_setItem_ne s j (fun e => hv (by rw [e]))
  cases w with
  | ring n =>
    refine OwnerStep.setRing ⟨rfl, fun i' hi' _ => ⟨rfl, j, rfl, ?_⟩⟩
    have : i' = i := Option.some.inj (hi'.symm.trans hi)
    rw [this, hj]
  | scan => exact ⟨⟨rfl, fun _ => Ring.Kept.refl _, fun _ h => h, fun _ h => h, fun q h => ⟨q, h, rfl⟩⟩, other, fun _ _ h => h⟩
  | free k => exact ⟨⟨rfl, fun _ => Ring.Kept.refl _, fun _ h => h, fun _ h => h, fun q h => ⟨q, h, rfl⟩⟩, other, fun _ _ h => h⟩
theorem OwnerStep.modItem {f : Item → Item} (hf : ∀ i, (f i).task = i.task) (s : State) (w : Work) : OwnerStep (.item w) s (s.modItem w f) := by
  unfold State.modItem
  split
  · next i hi => exact OwnerStep.setItem hi (hf i)
  · exact OwnerStep.refl _ _
@[simp] theorem Item.task_mark (now : Nat) (i j : Item) : (Item.mark now i j).task = j.task := by unfold Item.mark; split <;> rfl
theorem OwnerStep.updItem {f : Item → Item} (hf : ∀ i, (f i).task = i.task) (s : State) (w : Work) : OwnerStep (.item w) s (s.updItem w f) :=
  OwnerStep.modItem (fun i => by rw [Item.task_mark, hf]) s w
theorem HostFrame.mapItems {f : Work → Item → Item} (hf : ∀ w i, (f w i).task = i.task) (s : State) : HostFrame s (s.mapItems f) :=
  HostFrame.foldl (fun s w => (OwnerStep.modItem (hf w) s w).toHostFrame) _ s

/-! ### Stroke engines -/

theorem OwnerStep.setSe_idle {v : StrokeEngine} (hv : v.work = none) (s : State) (e : Nat) : OwnerStep ow s (s.setSe e v) where
  off := by unfold State.setSe; split <;> rfl
  ring m := by rw [State.ring_setSe]; exact Ring.Kept.refl _
  idle x h := by
    unfold State.setSe
    split
    · simp only [State.se, tget_tput]
      split
      · exact hv
      · exact h
    · exact h
  pending m h := by rwa [State.src_setSe]
  ids q h := ⟨q, by simpa using h, rfl⟩
  item w _ := by simp
  queued w _ h := by simpa [State.allQueued] using h
theorem OwnerStep.endStroke {s : State} {e : Nat} {w : Work} (h : (s.se e).work = some w) : OwnerStep (.item w) s (s.endStroke e) := by
  simp only [State.endStroke, h]
  refine (OwnerStep.setSe_idle rfl s e).trans (OwnerStep.modItem (fun i => ?_) _ w)
  split <;> rfl
theorem OwnerStep.endStrokesOf (s : State) (w : Work) : OwnerStep (.item w) s (s.endStrokesOf w) :=
  OwnerStep.foldl (fun s e => by
    split
    · next h => exact OwnerStep.endStroke h
    · exact OwnerStep.refl _ _) _ s

/-! ### Activations and faults -/

theorem OwnerStep.judgeReady (s : State) (n : Nat) : OwnerStep ow s (s.judgeReady n) := by
  unfold State.judgeReady
  dsimp only
  split
  · exact OwnerStep.setSrc id
  · exact OwnerStep.refl _ _
theorem OwnerStep.joinRecord (s : State) (q n data t : Nat) : OwnerStep ow s (s.joinRecord q n data t) := by
  have hsrc : OwnerStep ow s (s.setSrc n { s.src n with data := data }) := OwnerStep.setSrc id
  unfold State.joinRecord
  dsimp only
  split
  · next o ho =>
    refine hsrc.trans (OwnerStep.setOp (fun w hw => ?_) _)
    have hown := (List.mem_filter.mp (List.mem_of_getLast? ho)).2
    have : o.owner = .queue q := by simpa using hown
    rw [this] at hw
    cases hw
  · exact hsrc
theorem OwnerStep.activate (s : State) (n data : Nat) : OwnerStep ow s (s.activate n data) := by
  unfold State.activate State.activateAt
  dsimp only
  split
  · split
    · exact OwnerStep.joinRecord ..
    · exact OwnerStep.setSrc id
  · refine OwnerStep.trans (OwnerStep.setSrc ?_) (OwnerStep.judgeReady _ n)
    split
    · exact id
    · exact fun _ => rfl
theorem OwnerStep.requestVector (s : State) (n : Nat) : OwnerStep ow s (s.requestVector n) := by
  unfold State.requestVector
  split <;> exact OwnerStep.of_same rfl rfl rfl rfl rfl rfl
theorem OwnerStep.logFault (s : State) (o : Owner) (r : Fault192) : OwnerStep ow s (s.logFault o r) := by
  unfold State.logFault
  dsimp only
  split
  · exact OwnerStep.htu _ rfl
  · have hact (data : Nat) (l : Tab Fault192) (p : List (Owner × Option Nat × Fault192)) :
        OwnerStep ow s (State.activate { s with htu := { s.htu with log := l, parked := p } } 192 data) :=
      OwnerStep.trans (OwnerStep.htu _ (by rfl)) (OwnerStep.activate _ 192 data)
    split
    · exact OwnerStep.trans (hact _ _ _) (OwnerStep.requestVector _ _)
    · exact hact _ _ _
theorem OwnerStep.ctxPark (s : State) (w : Work) (on : Bool) : OwnerStep ow s (s.ctxPark w on) :=
  OwnerStep.foldl (fun s n => by
    dsimp only
    split
    · split
      · exact OwnerStep.setCtx ..
      · split
        · exact OwnerStep.setCtx ..
        · exact OwnerStep.refl _ _
    · exact OwnerStep.refl _ _) _ s
theorem OwnerStep.parkOwner (s : State) (o : Owner) (on : Bool) : OwnerStep o s (s.parkOwner o on) := by
  unfold State.parkOwner
  split
  · next w =>
    have hpark : OwnerStep (.item w) s ((s.updItem w (fun i => { i with parked := on })).ctxPark w on) :=
      OwnerStep.trans (OwnerStep.updItem (by exact fun _ => rfl) s w) (OwnerStep.ctxPark _ w on)
    dsimp only
    split
    · exact hpark.trans (OwnerStep.endStrokesOf _ w)
    · exact hpark
  · exact OwnerStep.setQueue ..
  · exact OwnerStep.refl _ _
theorem OwnerStep.voidOps (s : State) (w : Work) (ix : Nat) : OwnerStep ow s (s.voidOps w ix) := by
  refine OwnerStep.of_same ?_ ?_ ?_ ?_ ?_ ?_ <;> simp only [State.offHost, State.voidOps, State.mapChains]
theorem OwnerStep.holdFault (s : State) (o : HostOp) : OwnerStep o.owner s (s.holdFault o) := by
  unfold State.holdFault
  split
  · next w hw _ =>
    rw [hw]
    dsimp only
    refine OwnerStep.trans ?_ (OwnerStep.modItem (by exact fun _ => rfl) _ w)
    exact OwnerStep.trans (OwnerStep.filterOps s _) (OwnerStep.voidOps _ w o.ix)
  · exact OwnerStep.setOp (o := { o with phase := .parked }) (fun _ h => h) s
theorem OwnerStep.faultOp (s : State) (o : HostOp) (cause level : Nat) (hit : Bool) : OwnerStep o.owner s (s.faultOp o cause level hit) := by
  unfold State.faultOp
  dsimp only
  refine OwnerStep.trans ?_ (OwnerStep.logFault _ _ _)
  refine OwnerStep.trans ?_ (OwnerStep.parkOwner _ _ _)
  exact OwnerStep.trans (OwnerStep.holdFault s o) (OwnerStep.htu _ (by rfl))

/-! ### Operations that enter the endpoint -/

theorem OwnerStep.promote (s : State) (n : Nat) : OwnerStep (.item (.ring n)) s (s.promote n) := by
  unfold State.promote
  dsimp only
  split
  · next hitem _ =>
    split
    · exact OwnerStep.setRing (Ring.Kept.of_done rfl (fun i hi => by rw [hitem] at hi; cases hi))
    · exact OwnerStep.refl _ _
  · exact OwnerStep.refl _ _
theorem OwnerStep.recordQueued (s : State) (n : Nat) : OwnerStep (.item (.ring n)) s (s.recordQueued n) := by
  unfold State.recordQueued
  dsimp only
  split
  · next i hi =>
    split
    · next v hv =>
      refine OwnerStep.trans (OwnerStep.setRing (Ring.Kept.of_done (by rfl) (fun j hj => ?_))) (OwnerStep.promote _ n)
      rw [Option.some.inj (hj.symm.trans hi), hv]
      exact Option.some_ne_none _
    · exact OwnerStep.refl _ _
  · exact OwnerStep.refl _ _
theorem OwnerStep.queueOp (s : State) (o : HostOp) (phys : Nat) (page : Option Nat) : OwnerStep o.owner s (s.queueOp o phys page) := by
  unfold State.queueOp
  dsimp only
  have hphase : OwnerStep o.owner s (s.setOp { o with phase := .queued phys s.htu.nextOrder, page := page }) :=
    OwnerStep.setOp (o := { o with phase := .queued phys s.htu.nextOrder, page := page }) (fun _ h => h) s
  split
  · next n _ hn =>
    rw [hn] at hphase ⊢
    refine OwnerStep.trans ?_ (OwnerStep.recordQueued _ n)
    exact OwnerStep.trans hphase (OwnerStep.htu _ (by rfl))
  · exact OwnerStep.trans hphase (OwnerStep.htu _ (by rfl))
end

/-- One operation goes as far as it can. -/
theorem translate_step (s : State) (id : Nat) : HostStep s (s.translate id) := by
  unfold State.translate
  split
  · exact HostStep.refl s
  next o ho =>
  have moves {t : State} (hq : o.isQueued = false) (h : OwnerStep o.owner s t) : HostStep s t := h.hostStep (List.mem_of_find?_eq_some ho) hq
  split
  · next hphase =>
    have hq : o.isQueued = false := by simp [HostOp.isQueued, hphase]
    dsimp only
    split
    · exact HostStep.refl s
    split
    · split
      · exact moves hq (OwnerStep.queueOp _ _ _ _)
      · exact HostStep.refl s
    split
    · exact moves hq (OwnerStep.faultOp _ _ _ _ _)
    split
    · exact moves hq (OwnerStep.faultOp _ _ _ _ _)
    split
    · split
      · exact moves hq (OwnerStep.trans (OwnerStep.htu _ (by rfl)) (OwnerStep.faultOp _ _ _ _ _))
      split
      · exact moves hq (OwnerStep.trans (OwnerStep.htu _ (by rfl)) (OwnerStep.queueOp _ _ _ _))
      · exact HostStep.refl s
    · split
      · exact moves hq (OwnerStep.trans (OwnerStep.htu _ (by rfl)) (OwnerStep.setOp (by exact fun _ h => h) _))
      · exact HostStep.refl s
  · next hphase =>
    split
    · exact moves (by simp [HostOp.isQueued, hphase]) (OwnerStep.setOp (by exact fun _ h => h) s)
    · exact HostStep.refl s
  · exact HostStep.refl s
/-- Every operation goes as far as it can. -/
theorem pump_step (s : State) : HostStep s s.pump :=
  List.foldlRecOn (motive := fun t => HostStep s t) _ _ (HostStep.refl s) fun t ht id _ => ht.trans (translate_step t id)

end Sys2Proof.Machine

/-! PROOFS. Decisions, yields and the scan guard (O52): what a grant writes, what the first stroke's checks make of an item whose
descriptor is no misuse, what the end of a ring's item leaves, and when a stroke yields. -/
namespace Sys2Proof.Machine

/-! ### Stroke engines and work items -/

@[simp] theorem State.se_setItem (s : State) (w : Work) (j : Item) (x : Nat) : (s.setItem w j).se x = s.se x := by
  cases w with
  | ring n => exact State.se_setRing s n _ x
  | scan => rfl
  | free k => rfl
@[simp] theorem State.se_modItem (s : State) (w : Work) (f : Item → Item) (x : Nat) : (s.modItem w f).se x = s.se x := by
  unfold State.modItem; split
  · exact State.se_setItem ..
  · rfl
theorem State.offHost_setItem (s : State) (w : Work) (j : Item) : (s.setItem w j).offHost = s.offHost := by
  cases w with
  | ring n => simp only [State.setItem, State.setRing]; split <;> rfl
  | scan => rfl
  | free k => rfl
theorem State.offHost_free (s : State) (k : Nat) : State.offHost { s with freeIx := k } = { s.offHost with freeIx := k } := rfl
/-- An engine whose stroke has ended serves nothing and waits at nothing. -/
theorem State.se_endStroke {e : Nat} (he : e < 4) (s : State) (x : Nat) :
    (s.endStroke e).se x = if x = e then { s.se e with work := none, opcode := 0, waiting := none } else s.se x := by
  rw [← State.se_setSe s e _ x he]
  unfold State.endStroke
  dsimp only
  split
  · exact State.se_modItem ..
  · rfl
/-- An activation reaches no engine. -/
theorem State.activate_hub (s : State) (n data : Nat) : (s.activate n data).hub = s.hub := by
  have hjoin (q t : Nat) : (s.joinRecord q n data t).hub = s.hub := by
    unfold State.joinRecord; dsimp only; split <;> exact State.setSrc_hub ..
  have hjudge (u : State) : (u.judgeReady n).hub = u.hub := by
    unfold State.judgeReady; dsimp only; split
    · exact State.setSrc_hub ..
    · rfl
  unfold State.activate State.activateAt
  dsimp only
  split
  · split
    · exact hjoin _ _
    · exact State.setSrc_hub ..
  · rw [hjudge, State.setSrc_hub]

/-! ### What a grant writes -/

/-- Of the hub a grant changes the arbiter's own state alone, and it counts a stroke (R57). -/
theorem noteGrant_eq (s : State) (w : Work) : ∃ h : HubRegs, s.noteGrant w = { s with hub := h } ∧ h.strokes = (s.hub.strokes + 1) % 2 ^ 64 ∧
    h.engines = s.hub.engines := by
  refine ⟨_, rfl, ?_⟩
  cases w with
  | scan => exact ⟨rfl, rfl⟩
  | free k => dsimp only; split <;> exact ⟨rfl, rfl⟩
  | ring n =>
    dsimp only
    split
    · exact ⟨rfl, rfl⟩
    · split <;> exact ⟨rfl, rfl⟩
/-- A start latency is noted in the hub's registers (R60). -/
theorem noteLatency_eq (s : State) (w : Work) (i : Item) : ∃ h : HubRegs, s.noteLatency w i = { s with hub := h } ∧ h.engines = s.hub.engines := by
  cases w with
  | scan => exact ⟨_, rfl, rfl⟩
  | free k => exact ⟨_, rfl, rfl⟩
  | ring n =>
    simp only [State.noteLatency]
    split <;> exact ⟨_, rfl, rfl⟩

/-- From `s` to `t` engine `e` has taken the item of ring `n`, as `i`; beside the hub's registers nothing else has changed. -/
structure Taken (s t : State) (e n : Nat) (i : Item) : Prop where
  se : ∀ x, t.se x = if x = e then { work := some (.ring n), opcode := opcodeOf i.desc, started := s.now, yieldWait := s.hub.yieldWait } else s.se x
  ring : ∀ m, t.ring m = if m = n then { s.ring n with item := some i } else s.ring m
  frame : { t with hub := s.hub, rings := s.rings } = s
/-- Engine `e` takes the item of ring `n`. -/
def State.take (s : State) (e n : Nat) (i : Item) : State :=
  ((s.noteGrant (.ring n)).setSe e { work := some (.ring n), opcode := opcodeOf i.desc, started := s.now, yieldWait := s.hub.yieldWait }).setItem (.ring n) i
theorem take_taken {e n : Nat} (he : e < 4) (hn : n < 512) (s : State) (i : Item) : Taken s (s.take e n i) e n i := by
  obtain ⟨h, hgrant, -, heng⟩ := noteGrant_eq s (.ring n)
  unfold State.take
  rw [hgrant]
  refine ⟨fun x => ?_, fun m => ?_, ?_⟩
  · rw [State.se_setItem, State.se_setSe _ _ _ _ he]
    simp only [State.se, heng]
  · simp only [State.setItem, State.ring_setRing _ _ _ _ hn, State.ring_setSe]
    rfl
  · simp only [State.setItem, State.setRing, if_pos hn, State.setSe, if_pos he]
theorem strokes_take (s : State) (e n : Nat) (i : Item) : (s.take e n i).hub.strokes = (s.hub.strokes + 1) % 2 ^ 64 := by
  obtain ⟨h, hgrant, hstrokes, -⟩ := noteGrant_eq s (.ring n)
  simp [State.take, hgrant, State.setItem, hstrokes]
/-- Noting the latency of a first stroke changes none of it. -/
theorem Taken.noteLatency {s t : State} {e n : Nat} {i : Item} (h : Taken s t e n i) (w : Work) (j : Item) : Taken s (t.noteLatency w j) e n i := by
  obtain ⟨r, hr, heng⟩ := noteLatency_eq t w j
  rw [hr]
  exact ⟨fun x => by simpa only [State.se, heng] using h.se x, h.ring, h.frame⟩
/-- Once more the item is written. -/
theorem Taken.setItem {s t : State} {e n : Nat} {i j : Item} (hn : n < 512) (h : Taken s t e n i) (hd : j.desc = i.desc) : Taken s (t.setItem (.ring n) j) e n j where
  se x := by rw [State.se_setItem, h.se, hd]
  ring m := by
    simp only [State.setItem, State.ring_setRing _ _ _ _ hn, h.ring]
    split <;> simp
  frame := by
    have := h.frame
    simp only [State.setItem, State.setRing, if_pos hn]
    exact this

/-! ### The checks of a first stroke -/

section
variable {s t : State} (hframe : { t with hub := s.hub, rings := s.rings } = s)
include hframe

/-- No check and no level looks at the hub's registers or the rings. -/
theorem judge_of_frame (w : Work) (d : BitVec 512) : t.judge w d = s.judge w d := by rw [← hframe]; rfl
theorem contentRefused_of_frame (d : BitVec 512) : t.contentRefused d = s.contentRefused d := by rw [← hframe]; rfl
theorem opcodeRefused_of_frame (d : BitVec 512) : t.opcodeRefused d = s.opcodeRefused d := by rw [← hframe]; rfl
theorem storeOdd_of_frame (d : BitVec 512) : t.storeOdd d = s.storeOdd d := by rw [← hframe]; rfl
theorem now_of_frame : t.now = s.now := by rw [← hframe]
theorem workLevel_of_frame (w : Work) (f : Nat) : t.workLevel w f = s.workLevel w f := by rw [← hframe]; rfl
end

section
variable {s : State} {w : Work} {i : Item} (hop : opcodes.contains (opcodeOf i.desc) = true) (hodd : descOdd i.desc = false)

theorem breakOdd_of_clean {d : BitVec 512} (hodd : descOdd d = false) (s : State) : s.breakOdd d = s := by
  simp only [descOdd, Bool.or_eq_false_iff] at hodd
  obtain ⟨⟨-, henc⟩, hrange⟩ := hodd
  simp [State.breakOdd, henc, hrange]
include hop hodd

/-- A descriptor that makes no misuse is taken up as it is. -/
theorem takeUp_of_clean (hstore : s.storeOdd i.desc = false) : s.takeUp w i = (i, s.setItem w i) := by
  simp only [State.takeUp, hop, hodd, hstore, breakOdd_of_clean hodd, Bool.not_true, Bool.false_eq_true, if_false]
variable (hstore : s.storeOdd i.desc = false) (hopc : (s.setItem w i).opcodeRefused i.desc = false)
include hstore hopc

/-- A command whose path lacks a level is refused (R262). -/
theorem firstChecks_refuses {x : Nat × Nat × Nat} (hjudge : (s.setItem w i).judge w i.desc = some x) :
    s.firstChecks w i = (s.setItem w i).refuse w i.desc (some x) := by
  simp only [State.firstChecks, takeUp_of_clean hop hodd hstore, hop, hopc, hjudge, Bool.not_true, Bool.false_eq_true, if_false]
/-- A command that passes the checks has begun, with the path's FULL chips noted (R208). -/
theorem firstChecks_passes (hjudge : (s.setItem w i).judge w i.desc = none) (hcont : (s.setItem w i).contentRefused i.desc = false) :
    s.firstChecks w i = (s.setItem w i).setItem w
      { i with begun := true, began := (s.setItem w i).now, fullMask := maskOf 128 (fun f => 2 ≤ (s.setItem w i).workLevel w f) } := by
  simp only [State.firstChecks, takeUp_of_clean hop hodd hstore, hop, hopc, hjudge, hcont, Bool.not_true, Bool.false_eq_true, if_false]
end

/-! ### Decisions -/

theorem exec_arbiterDecision (e : Nat) (s : State) : exec (.arbiterDecision e) s = .next (s.arbitrate e) := rfl
section
variable {s : State} {e n : Nat} {i : Item}

/-- A free engine with no lower one free grants what is picked (R59). -/
theorem arbitrate_grants {w : Work} (he : e < 4) (hup : s.fastUp = true) (hfree : (s.se e).work = none) (hlow : ∀ j, j < e → (s.se j).work ≠ none)
    (hpick : s.pick = some w) : s.arbitrate e = s.grant e w := by
  have hlater : s.decidesLater e = false := by
    simp only [State.decidesLater, List.any_eq_false, List.mem_range]
    exact fun j hj => by simpa [Option.isNone_iff_eq_none] using hlow j hj
  simp [State.arbitrate, hup, he, hfree, hlater, hpick]
variable (hi : (s.ring n).item = some i)
include hi

/-- The item of a ring that is not being disabled goes on with its next stroke. -/
theorem grant_begun (he : e < 4) (hn : n < 512) (hb : i.begun = true) (hs : (s.ring n).state = .active) :
    s.grant e (.ring n) = s.take e n { i with engine := e } := by
  have hitem : s.item? (.ring n) = some i := hi
  have hring : ((s.take e n { i with engine := e }).ring n).state = .active := by
    rw [(take_taken he hn s _).ring, if_pos rfl]; exact hs
  unfold State.grant
  simp only [hitem]
  rw [if_pos hb]
  refine if_neg ?_
  rintro ⟨hd, -⟩
  exact absurd (hring.symm.trans hd) (by decide)
/-- An item that has not begun is checked first. -/
theorem grant_first (he : e < 4) (hn : n < 512) (hb : i.begun = false) : ∃ u, Taken s u e n { i with engine := e } ∧
    s.grant e (.ring n) = u.firstChecks (.ring n) { i with engine := e } := by
  have hitem : s.item? (.ring n) = some i := hi
  refine ⟨_, (take_taken he hn s { i with engine := e }).noteLatency (.ring n) { i with engine := e }, ?_⟩
  simp only [State.grant, hitem, hb, State.take, Bool.false_eq_true, if_false]
end

/-! ### Denials -/

theorem opcodeOf_lt (d : BitVec 512) : opcodeOf d < 256 := Nat.mod_lt _ (by decide)
/-- The fields of AUTH_DENY_LAST for a ring: its opcode, no scan port, its number, and above them the shortfall (Table 7.9). -/
theorem denyLast_fields {op n : Nat} (hop : op < 256) (hn : n < 512) (k : Nat) :
    fld (op + n * 2 ^ 9 + k * 2 ^ 18) 0 8 = op ∧ fld (op + n * 2 ^ 9 + k * 2 ^ 18) 9 9 = n ∧ bit (op + n * 2 ^ 9 + k * 2 ^ 18) 8 = false := by
  refine ⟨?_, ?_, ?_⟩
  · simp only [fld, Nat.shiftRight_eq_div_pow]; omega
  · simp only [fld, Nat.shiftRight_eq_div_pow]; omega
  · simp only [bit, Nat.testBit_eq_decide_div_mod_eq, decide_eq_false_iff_not]; omega
theorem denyLast_eq {n : Nat} (hn : n < 512) (op f need held : Nat) :
    ∃ k, op + place (b2n false) 8 1 + place n 9 9 + (if f = 128 then 2 ^ 25 else place f 18 7) + place need 26 2 + place held 28 2 =
      op + n * 2 ^ 9 + k * 2 ^ 18 := by
  have hscan : place (b2n false) 8 1 = 0 := rfl
  have hplace (v lo w : Nat) : place v lo w = v % 2 ^ w * 2 ^ lo := Nat.shiftLeft_eq _ _
  refine ⟨(if f = 128 then 128 else f % 128) + need % 4 * 256 + held % 4 * 1024, ?_⟩
  rw [hscan]
  rw [hplace, hplace, hplace, hplace]
  split <;> omega
/-- A denial of a ring's command for a level is counted and recorded (R216, Table 7.9). -/
theorem deny_auth {op n : Nat} (hop : op < 256) (hn : n < 512) (s : State) (x : Nat × Nat × Nat) :
    ∃ v, (s.deny op false n (some x)).auth = { s.auth with denyCnt := satAdd s.auth.denyCnt 1 32, denyLast := v } ∧
      fld v 0 8 = op ∧ fld v 9 9 = n ∧ bit v 8 = false := by
  obtain ⟨f, need, held⟩ := x
  obtain ⟨k, hk⟩ := denyLast_eq hn op f need held
  refine ⟨_, (congrArg State.auth (OwnerStep.activate (ow := .fetch 0) _ 182 _).off :), ?_⟩
  dsimp only
  rw [hk]
  exact denyLast_fields hop hn k
/-- A denial changes no work item, no engine's stroke, no chip and no counter. -/
theorem deny_frame (s : State) (op n : Nat) (x : Option (Nat × Nat × Nat)) :
    (s.deny op false n x).hub = s.hub ∧ (∀ w, (s.deny op false n x).item? w = s.item? w) ∧ (s.deny op false n x).chips = s.chips ∧
      (s.deny op false n x).counters = s.counters := by
  have hstep (a : Auth) (v : Nat) := OwnerStep.activate (ow := .fetch 0) { s with auth := a } 182 v
  have hitem (a : Auth) (w : Work) : State.item? { s with auth := a } w = s.item? w := by cases w <;> rfl
  unfold State.deny
  dsimp only
  refine ⟨?_, fun w => ((hstep _ _).item w (by simp)).trans (hitem _ w), ?_, ?_⟩
  · rw [State.activate_hub]
  · exact (congrArg State.chips (hstep _ _).off :)
  · exact (congrArg State.counters (hstep _ _).off :)

/-! ### The end of a ring's item -/

/-- The strokes that serve a work item end. -/
theorem endStrokesOf_idle {e : Nat} (he : e < 4) {w : Work} {s : State} (h : (s.se e).work = some w) : ((s.endStrokesOf w).se e).work = none := by
  have ends : ∀ (l : List Nat) (s : State), (∀ x ∈ l, x < 4) → e ∈ l → (s.se e).work = some w →
      ((l.foldl (fun s x => if (s.se x).work = some w then s.endStroke x else s) s).se e).work = none := by
    intro l
    induction l with
    | nil => intro s _ hmem; cases hmem
    | cons x l ih =>
      intro s hl hmem hs
      rw [List.foldl_cons]
      by_cases hx : x = e
      · subst hx
        rw [if_pos hs]
        refine (OwnerStep.foldl (ow := .item w) (fun s y => ?_) l _).idle x ?_
        · split
          · next hy => exact OwnerStep.endStroke hy
          · exact OwnerStep.refl _ _
        · rw [State.se_endStroke he, if_pos rfl]
      · refine ih _ (fun y hy => hl y (List.mem_cons_of_mem _ hy)) ((List.mem_cons.mp hmem).resolve_left (Ne.symm hx)) ?_
        split
        · rw [State.se_endStroke (hl x (by simp)), if_neg (Ne.symm hx)]; exact hs
        · exact hs
  exact ends _ s (fun x hx => List.mem_range.mp hx) (List.mem_range.mpr he) h
/-- What an item left open completes with is drawn from the free values. -/
theorem openEnd_eq (s : State) (w : Work) (i : Item) (v : Nat × Nat × Nat) : ∃ k, (s.openEnd w i v).2 = { s with freeIx := k } := by
  unfold State.openEnd
  split <;> exact ⟨_, rfl⟩
/-- The item of a ring ends: its stroke ends, its record's write joins the host operations, and beside the free values the rest
of the state is as it was. -/
theorem finish_ring {s : State} {n : Nat} {i : Item} (hi : s.item? (.ring n) = some i) (st : Status) (det cur : Nat) :
    (∃ k, (s.finish (.ring n) st det cur).offHost = { s.offHost with freeIx := k }) ∧
      ∀ e, e < 4 → (s.se e).work = some (.ring n) → ((s.finish (.ring n) st det cur).se e).work = none := by
  obtain ⟨k, hk⟩ := openEnd_eq (s.endStrokesOf (.ring n)) (.ring n) i (st.code, lo32 det, cursorOf st cur)
  have hends := OwnerStep.endStrokesOf s (.ring n)
  have hopen : (State.openEnd (s.endStrokesOf (.ring n)) (.ring n) i (st.code, lo32 det, cursorOf st cur)).2.offHost = { s.offHost with freeIx := k } := by
    rw [hk, State.offHost_free, hends.off]
  simp only [State.finish, hi]
  refine ⟨⟨k, (pump_step _).off.trans ?_⟩, fun e he h => (pump_step _).idle e ?_⟩
  · exact (State.offHost_setItem _ _ _).trans hopen
  · refine (congrArg StrokeEngine.work (State.se_setItem _ _ _ e)).trans ?_
    rw [hk]
    exact endStrokesOf_idle he h

/-! ### O52 -/

section
variable {s : State} {e n : Nat} {i : Item} (he : e < 4) (hn : n < 512) (hup : s.fastUp = true) (hfree : (s.se e).work = none)
  (hlow : ∀ j, j < e → (s.se j).work ≠ none) (hpick : s.pick = some (.ring n)) (hi : (s.ring n).item = some i)
include he hn hup hfree hlow hpick hi

theorem decision_continues (hb : i.begun = true) (hs : (s.ring n).state = .active) :
    exec (.arbiterDecision e) s = .next (s.take e n { i with engine := e }) := by
  rw [exec_arbiterDecision, arbitrate_grants he hup hfree hlow hpick, grant_begun hi he hn hb hs]

variable (hb : i.begun = false) (hodd : descOdd i.desc = false) (hstore : s.storeOdd i.desc = false)
  (hop : opcodes.contains (opcodeOf i.desc) = true) (hopc : s.opcodeRefused i.desc = false)
include hb hodd hstore hop hopc

/-- The state in which the path's levels are judged. -/
theorem decision_checks : ∃ t, Taken s t e n { i with engine := e } ∧
    (∀ x, s.judge (.ring n) i.desc = some x → exec (.arbiterDecision e) s = .next (t.refuse (.ring n) i.desc (some x))) ∧
    (s.judge (.ring n) i.desc = none → s.contentRefused i.desc = false → exec (.arbiterDecision e) s =
      .next (t.setItem (.ring n) { i with engine := e, begun := true, began := s.now, fullMask := maskOf 128 (fun f => 2 ≤ s.workLevel (.ring n) f) })) := by
  obtain ⟨u, hfirst, hgrant⟩ := grant_first hi he hn hb
  have hchecked := hfirst.setItem hn (j := { i with engine := e }) rfl
  have hstart : exec (.arbiterDecision e) s = .next (u.firstChecks (.ring n) { i with engine := e }) := by
    rw [exec_arbiterDecision, arbitrate_grants he hup hfree hlow hpick, hgrant]
  have hstore' := (storeOdd_of_frame hfirst.frame i.desc).trans hstore
  have hopc' := (opcodeRefused_of_frame hchecked.frame i.desc).trans hopc
  refine ⟨_, hchecked, fun x hx => ?_, fun hx hc => ?_⟩
  · rw [hstart, firstChecks_refuses (i := { i with engine := e }) hop hodd hstore' hopc' ((judge_of_frame hchecked.frame _ _).trans hx)]
  · rw [hstart, firstChecks_passes (i := { i with engine := e }) hop hodd hstore' hopc' ((judge_of_frame hchecked.frame _ _).trans hx)
      ((contentRefused_of_frame hchecked.frame _).trans hc)]
    rw [now_of_frame hchecked.frame, funext (workLevel_of_frame hchecked.frame (.ring n))]
theorem decision_begins (hjudge : s.judge (.ring n) i.desc = none) (hcont : s.contentRefused i.desc = false) :
    ∃ t j, exec (.arbiterDecision e) s = .next t ∧ Taken s t e n j ∧ j.begun = true ∧ j.began = s.now ∧ j.stage = i.stage ∧ j.desc = i.desc ∧
      j.engine = e ∧ ∀ f, f < 128 → bit j.fullMask f = decide (2 ≤ s.workLevel (.ring n) f) := by
  obtain ⟨t, ht, -, hpass⟩ := decision_checks he hn hup hfree hlow hpick hi hb hodd hstore hop hopc
  exact ⟨_, _, hpass hjudge hcont, ht.setItem hn rfl, rfl, rfl, rfl, rfl, rfl, fun f hf => by rw [maskOf_bit]; simp [hf]⟩
theorem decision_denies {x : Nat × Nat × Nat} (hjudge : s.judge (.ring n) i.desc = some x) :
    ∃ t v, exec (.arbiterDecision e) s = .next t ∧ (t.se e).work = none ∧
      t.auth = { s.auth with denyCnt := satAdd s.auth.denyCnt 1 32, denyLast := v } ∧ fld v 0 8 = opcodeOf i.desc ∧ fld v 9 9 = n ∧ bit v 8 = false ∧
      t.chips = s.chips ∧ t.counters = s.counters := by
  obtain ⟨t, ht, hdeny, -⟩ := decision_checks he hn hup hfree hlow hpick hi hb hodd hstore hop hopc
  obtain ⟨hhub, hitem, hchips, hcounters⟩ := deny_frame t (opcodeOf i.desc) n (some x)
  obtain ⟨v, hauth, hv⟩ := deny_auth (opcodeOf_lt i.desc) hn t x
  have hitem' : t.item? (.ring n) = some { i with engine := e } := by simp [State.item?, ht.ring]
  obtain ⟨⟨k, hoff⟩, hidle⟩ := finish_ring ((hitem (.ring n)).trans hitem') .authDenied 0 0
  refine ⟨_, v, hdeny x hjudge, hidle e he ?_, ?_, hv.1, hv.2.1, hv.2.2, ?_, ?_⟩
  · simp only [State.se, hhub]
    exact congrArg StrokeEngine.work ((ht.se e).trans (if_pos rfl))
  · have : t.auth = s.auth := (congrArg State.auth ht.frame :)
    rw [← this]
    exact (congrArg State.auth hoff :).trans hauth
  · exact (congrArg State.chips hoff :).trans (hchips.trans (congrArg State.chips ht.frame :))
  · exact (congrArg State.counters hoff :).trans (hcounters.trans (congrArg State.counters ht.frame :))
end

/-! ### Yields -/

theorem exec_strokeYield (e : Nat) (s : State) : exec (.strokeYield e) s = .next (s.strokeYield e) := rfl
/-- A stroke that has waited its time at a bound that is still full ends (R63). -/
theorem strokeYield_yields {s : State} {e b since : Nat} {w : Work} {i : Item} {o : Op} {rest : List Op} (hw : (s.se e).work = some w)
    (hb : (s.se e).waiting = some (b, since)) (ht : since + Nat.min (s.se e).yieldWait 1936 ≤ s.now) (hf : s.fastRun = true)
    (hi : s.item? w = some i) (ho : i.todo = o :: rest) (hfull : (s.issueOp w o).2 ≠ none) :
    s.strokeYield e = State.endStroke { s with hub := { s.hub with yields := satAdd s.hub.yields 1 32 } } e := by
  have hfull' : (s.issueOp w o).2.isNone = false := by rw [Option.isNone_eq_false_iff, Option.isSome_iff_ne_none]; exact hfull
  simp [State.strokeYield, hw, hb, ht, hf, hi, ho, hfull']
theorem strokeYield_waits {s : State} {e b since : Nat} {w : Work} (hw : (s.se e).work = some w) (hb : (s.se e).waiting = some (b, since))
    (ht : s.now < since + Nat.min (s.se e).yieldWait 1936) (hs : s.now < (s.se e).started + 1936) : s.strokeYield e = s := by
  simp only [State.strokeYield, hw, hb]
  exact if_neg (by omega)
theorem strokeYield_gated {s : State} (hf : s.fastRun = false) (e : Nat) : s.strokeYield e = s := by
  unfold State.strokeYield
  split
  · exact if_neg (by simp [hf])
  · rfl
@[simp] theorem State.setItem_yields (s : State) (w : Work) (j : Item) : (s.setItem w j).hub.yields = s.hub.yields := by
  cases w <;> simp [State.setItem]
theorem State.endStroke_yields {s : State} {e : Nat} (he : e < 4) : (s.endStroke e).hub.yields = s.hub.yields := by
  unfold State.endStroke
  have hse (v : StrokeEngine) : (s.setSe e v).hub.yields = s.hub.yields := by unfold State.setSe; rw [if_pos he]
  dsimp only
  split
  · unfold State.modItem
    split
    · rw [State.setItem_yields, hse]
    · exact hse _
  · exact hse _

theorem exec_scanGuardFire (s : State) :
    exec .scanGuardFire s = .next (if s.guardDue then { s with hub := { s.hub with guard := true } } else s) := rfl

/-- Settles O52: the decision goes on, begins or denies by the item it finds; a yield is the end of the stroke. -/
theorem decisionsYieldsAndTheGuard : Obligations.DecisionsYieldsAndTheGuard := by
  refine ⟨fun s e n i he hn hup hfree hlow hpick hi => ⟨fun hb hs => ?_, fun hb hodd hstore hop hopc hjudge hcont => ?_,
    fun hb hodd hstore hop hopc x hjudge => ?_⟩, fun s e b since w i o rest he => ⟨fun hw hb ht hf hi ho hfull => ?_, fun hw hb ht hs => ?_,
    fun hf => ?_, fun hg => ?_, fun hg => ?_⟩⟩
  · have ht := take_taken he hn s { i with engine := e }
    refine ⟨_, decision_continues he hn hup hfree hlow hpick hi hb hs, (ht.se e).trans (if_pos rfl), strokes_take s e n _, ?_,
      fun m hm => (ht.ring m).trans (if_neg hm), fun x hx => (ht.se x).trans (if_neg hx)⟩
    rw [ht.ring, if_pos rfl]
  · obtain ⟨t, j, hexec, ht, hbegun, hbegan, hstage, hdesc, hengine, hmask⟩ :=
      decision_begins he hn hup hfree hlow hpick hi hb hodd hstore hop hopc hjudge hcont
    refine ⟨t, j, hexec, ?_, ?_, hbegun, hbegan, hstage, hdesc, hengine, (congrArg State.auth ht.frame :), hmask⟩
    · rw [ht.se, if_pos rfl, hdesc]
    · rw [ht.ring, if_pos rfl]
  · obtain ⟨t, v, hexec, hse, hauth, hop', hring, hscan, hchips, hcounters⟩ :=
      decision_denies he hn hup hfree hlow hpick hi hb hodd hstore hop hopc hjudge
    exact ⟨t, hexec, hse, by rw [hauth], by rw [hauth]; exact hop', by rw [hauth]; exact hring, by rw [hauth]; exact hscan, hchips, hcounters⟩
  · have hends : OwnerStep (.item w) _ (State.endStroke { s with hub := { s.hub with yields := satAdd s.hub.yields 1 32 } } e) := OwnerStep.endStroke hw
    have hse := State.se_endStroke he { s with hub := { s.hub with yields := satAdd s.hub.yields 1 32 } }
    refine ⟨_, congrArg Host.Outcome.next (strokeYield_yields hw hb ht hf hi ho hfull), ?_, ?_, State.endStroke_yields he,
      fun x hx => (hse x).trans (if_neg hx), (congrArg State.chips hends.off :), (congrArg State.host hends.off :)⟩
    · rw [hse, if_pos rfl]
    · rw [hse, if_pos rfl]
  · rw [exec_strokeYield, strokeYield_waits hw hb ht hs]
  · rw [exec_strokeYield, strokeYield_gated hf]
  · rw [exec_scanGuardFire, if_pos hg]
  · rw [exec_scanGuardFire, if_neg (by simp [hg])]

end Sys2Proof.Machine

/-! PROOFS. Bursts, host operations and descriptor fetches complete (O39): the work item an operation completes for, what the
other work items and the HTU make of its end, and what a fetch and its error leave of the ring. -/
namespace Sys2Proof.Machine

/-! ### The results of a work item -/

/-- Two forms of a work item with the same results: operations outstanding, statuses met, data read, and whether it goes on. -/
structure Item.SameResults (i j : Item) : Prop where
  out : j.out = i.out
  errs : j.errs = i.errs
  rep : j.rep = i.rep
  dead : j.dead = i.dead
  desc : j.desc = i.desc
theorem Item.SameResults.refl (i : Item) : i.SameResults i := ⟨rfl, rfl, rfl, rfl, rfl⟩
theorem Item.SameResults.trans {i j k : Item} (h : i.SameResults j) (g : j.SameResults k) : i.SameResults k :=
  ⟨g.out.trans h.out, g.errs.trans h.errs, g.rep.trans h.rep, g.dead.trans h.dead, g.desc.trans h.desc⟩
theorem Item.mark_sameResults (now : Nat) (i j : Item) : j.SameResults (Item.mark now i j) := by
  unfold Item.mark; split <;> exact ⟨rfl, rfl, rfl, rfl, rfl⟩
section
variable {ix : Nat} (h : ix ≠ voidIx) (i : Item) (d : List Byte) (e : Option Status)
include h
theorem Item.opDone_out : (i.opDone ix d e).out = i.out - 1 := by simp only [Item.opDone, if_neg h]
theorem Item.opDone_errs : (i.opDone ix d e).errs = i.errs ++ e.toList := by simp only [Item.opDone, if_neg h]
theorem Item.opDone_rep : tget [] (i.opDone ix d e).rep ix = d := by
  simp only [Item.opDone, if_neg h, tget_tput, if_true]
end
/-- What a WAIT makes of the word it has read is no matter of the operation's result. -/
theorem Item.waitRead_fields (now : Nat) (i : Item) (v : Nat) : (i.waitRead now v).out = i.out ∧ (i.waitRead now v).rep = i.rep := by
  unfold Item.waitRead
  split
  · exact ⟨rfl, rfl⟩
  split
  · exact ⟨rfl, rfl⟩
  split <;> exact ⟨rfl, rfl⟩

/-! ### Changes of all work items -/

theorem State.modItem_frame (s : State) (w : Work) (f : Item → Item) : { s.modItem w f with rings := s.rings, scan := s.scan, hub := s.hub } = s := by
  unfold State.modItem; split
  · exact s.setItem_frame w _
  · rfl
theorem State.mapItems_frame (s : State) (f : Work → Item → Item) : { s.mapItems f with rings := s.rings, scan := s.scan, hub := s.hub } = s :=
  List.foldlRecOn (motive := fun t : State => { t with rings := s.rings, scan := s.scan, hub := s.hub } = s) _ _ rfl fun t ht w _ =>
    (congrArg (fun u : State => { u with rings := s.rings, scan := s.scan, hub := s.hub }) (t.modItem_frame w (f w))).trans ht
/-- A change that keeps the results of every work item. -/
theorem State.item?_mapItems_sameResults {f : Work → Item → Item} (hf : ∀ (w : Work) (i : Item), i.SameResults (f w i)) {s : State} {w : Work} {i : Item}
    (hr : ∀ n, w = .ring n → n < 512) (hi : s.item? w = some i) : ∃ j, (s.mapItems f).item? w = some j ∧ i.SameResults j := by
  refine List.foldlRecOn (motive := fun t : State => ∃ j, t.item? w = some j ∧ i.SameResults j) _ _ ⟨i, hi, Item.SameResults.refl i⟩ ?_
  rintro t ⟨j, hj, hij⟩ v -
  by_cases hv : w = v
  · subst hv
    simp only [State.modItem, hj]
    exact ⟨_, State.item?_setItem hr hj, hij.trans (hf w j)⟩
  · refine ⟨j, ?_, hij⟩
    unfold State.modItem
    split
    · rw [item_setItem_ne _ _ hv, hj]
    · exact hj
/-- An operation that has ended may let an HTU_INVALIDATE finish, and changes no results (R304). -/
theorem State.item?_invalidateCheck {s : State} {w : Work} {i : Item} (hr : ∀ n, w = .ring n → n < 512) (hi : s.item? w = some i) :
    ∃ j, s.invalidateCheck.item? w = some j ∧ i.SameResults j := by
  refine State.item?_mapItems_sameResults (fun w i => ?_) hr hi
  split
  · refine Item.SameResults.trans ?_ (Item.mark_sameResults _ _ _)
    exact ⟨rfl, rfl, rfl, rfl, rfl⟩
  · exact Item.SameResults.refl i
theorem invalidateCheck_step (s : State) : HostFrame s s.invalidateCheck := by
  refine HostFrame.mapItems (fun w i => ?_) s
  split
  · exact Item.task_mark _ _ _
  · rfl
theorem State.invalidateCheck_frame (s : State) : { s.invalidateCheck with rings := s.rings, scan := s.scan, hub := s.hub } = s := s.mapItems_frame _
/-- A ring without a work item is left as it is. -/
theorem State.ring_mapItems_of_none {s : State} {n : Nat} (h : (s.ring n).item = none) (f : Work → Item → Item) : (s.mapItems f).ring n = s.ring n := by
  refine List.foldlRecOn (motive := fun t : State => t.ring n = s.ring n) _ _ rfl fun t ht v _ => ?_
  unfold State.modItem
  split
  · next j hj =>
    cases v with
    | ring m =>
      have hm : n ≠ m := by
        rintro rfl
        rw [State.item?, ht, h] at hj
        cases hj
      rw [State.setItem, State.ring_setRing_ne _ _ _ _ hm, ht]
    | scan => exact ht
    | free k => exact ht
  · exact ht

/-! ### The end of an operation -/

/-- The operations with number `id` are gone, and work item `w` is `j`, its other operations in the endpoint. -/
structure Ended (s : State) (id : Nat) (w : Work) (j : Item) : Prop where
  item : s.item? w = some j
  gone : ∀ q ∈ s.htu.ops, q.id ≠ id
  queued : s.allQueued w
theorem ended_dropOp {s : State} {w : Work} {i : Item} (hi : s.item? w = some i) (hq : s.allQueued w) (id : Nat) : Ended (s.dropOp id) id w i where
  item := by cases w <;> exact hi
  gone q h := by simpa using (List.mem_filter.mp h).2
  queued q h := hq q (List.mem_filter.mp h).1
section
variable {s : State} {id : Nat} {w : Work} {i : Item} (h : Ended s id w i)
include h

theorem Ended.setItem (hr : ∀ n, w = .ring n → n < 512) (j : Item) : Ended (s.setItem w j) id w j := by
  have hhtu : (s.setItem w j).htu = s.htu := (congrArg State.htu (s.setItem_frame w j) :)
  exact ⟨State.item?_setItem hr h.item, by rw [hhtu]; exact h.gone, by rw [State.allQueued, hhtu]; exact h.queued⟩
theorem Ended.invalidateCheck (hr : ∀ n, w = .ring n → n < 512) : ∃ j, i.SameResults j ∧ Ended s.invalidateCheck id w j := by
  have hhtu : s.invalidateCheck.htu = s.htu := (congrArg State.htu s.invalidateCheck_frame :)
  obtain ⟨j, hj, hij⟩ := State.item?_invalidateCheck hr h.item
  exact ⟨j, hij, hj, by rw [hhtu]; exact h.gone, by rw [State.allQueued, hhtu]; exact h.queued⟩
theorem Ended.pump : Ended s.pump id w i where
  item := ((pump_step s).item w h.queued).trans h.item
  gone q hq := by
    obtain ⟨p, hp, hpq⟩ := (pump_step s).ids q hq
    rw [← hpq]
    exact h.gone p hp
  queued := (pump_step s).queued w h.queued
theorem Ended.updItem (hr : ∀ n, w = .ring n → n < 512) (g : Item → Item) : Ended (s.updItem w g) id w (Item.mark s.now i (g i)) := by
  rw [State.updItem_of_item h.item]
  exact h.setItem hr _
end

/-! ### Bursts (R68, R442) -/

theorem State.opDone_of_item {s : State} {w : Work} {i : Item} (h : s.item? w = some i) (ix : Nat) (d : List Byte) (e : Option Status) :
    s.opDone w ix d e = s.setItem w (Item.mark s.now i (i.opDone ix d e)) := State.updItem_of_item h _
theorem traceWritten_of_other {s : State} {w : Work} {i : Item} (hi : s.item? w = some i) (ho : opcodeOf i.desc ≠ 0x42) (n : Nat) :
    s.traceWritten w n = s := by simp only [State.traceWritten, hi, if_neg ho]
/-- The endpoint's log of a read's error, and a free value drawn for it. -/
theorem readError_eq (s : State) (id : Nat) (ok : Bool) : ∃ c k, s.readError id ok = { s with cfg := c, freeIx := k } := by
  unfold State.readError
  split
  · exact ⟨_, _, rfl⟩
  · exact ⟨_, _, rfl⟩
theorem readError_of_ok (s : State) (id : Nat) : s.readError id true = s := by simp [State.readError]
theorem readError_of_noOps {s : State} (h : s.htu.ops = []) (id : Nat) (ok : Bool) : s.readError id ok = s := by simp [State.readError, h]
theorem exec_operationComplete {s : State} (hf : s.fastRun = true) (id : Nat) (data : List Byte) (ok : Bool) :
    exec (.operationComplete id data ok) s = .next ((s.readError id ok).opComplete id data ok) := congrArg Host.Outcome.next (if_pos hf)
theorem opComplete_burst {s : State} {id : Nat} {b : Burst} (h : s.bursts.find? (fun b => b.id == id) = some b) (data : List Byte) (ok : Bool) :
    s.opComplete id data ok = s.burstDone b := by simp only [State.opComplete, h]
theorem burstDone_of_held {b : Burst} (h : b.held = true) (s : State) : s.burstDone b = s := if_pos (Or.inl h)

/-- The dump store with burst `b` written, and the burst gone. -/
def State.burstWritten (s : State) (b : Burst) : State :=
  { s with bursts := s.bursts.filter (fun x => x.id != b.id), store := mwrite s.store b.addr b.data
           dmp := { s.dmp with sealMap := tmodRange false s.dmp.sealMap (b.addr / 512) (cdiv (b.addr % 512 + b.len) 512) (fun _ _ => b.sealed_) } }
section
variable {s : State} {b : Burst} {i : Item} (hi : s.item? b.work = some i) (hnor : b.nor = 0) (hheld : b.held = false) (hrefill : b.refill = false)
include hi hnor hheld hrefill

theorem burstDone_writes (hw : b.write = true) (hodd : i.odd = 0) (hop : opcodeOf i.desc ≠ 0x42) :
    s.burstDone b = (s.burstWritten b).setItem b.work (Item.mark s.now i (i.opDone b.ix [] none)) := by
  have hitem : State.item? { s with bursts := s.bursts.filter (fun x => x.id != b.id) } b.work = some i := by
    rw [← hi]; cases b.work <;> rfl
  have hitem' : (s.burstWritten b).item? b.work = some i := by rw [← hi]; cases b.work <;> rfl
  have hclean : (State.item? { s with bursts := s.bursts.filter (fun x => x.id != b.id) } b.work).any (fun i => i.odd.testBit 1) = false := by
    rw [hitem]; simp [hodd]
  have hdone : s.burstDone b = ((s.burstWritten b).traceWritten b.work b.len).opDone b.work b.ix [] none := by
    simp only [State.burstDone, hnor, hheld, hrefill, hw, hclean]
    rfl
  rw [hdone, traceWritten_of_other hitem' hop, State.opDone_of_item hitem']
  rfl
theorem burstDone_reads (hw : b.write = false) : s.burstDone b =
    State.setItem { s with bursts := s.bursts.filter (fun x => x.id != b.id) } b.work (Item.mark s.now i (i.opDone b.ix (mread s.store b.addr b.len) none)) := by
  have hitem : State.item? { s with bursts := s.bursts.filter (fun x => x.id != b.id) } b.work = some i := by
    rw [← hi]; cases b.work <;> rfl
  have hdone : s.burstDone b = State.opDone { s with bursts := s.bursts.filter (fun x => x.id != b.id) } b.work b.ix (mread s.store b.addr b.len) none := by
    simp only [State.burstDone, hnor, hheld, hrefill, hw]
    rfl
  rw [hdone, State.opDone_of_item hitem]
end

/-! ### Host operations (R54, R280) -/

theorem exec_completionTimeout {s : State} (hf : s.fastRun = true) (id : Nat) : exec (.completionTimeout id) s = .next (s.complTimeout id) :=
  congrArg Host.Outcome.next (if_pos hf)
theorem drainWait_of_active {s : State} {w : Work} (h : ∀ n, w = .ring n → (s.ring n).state ≠ .draining) : s.drainWait w = s := by
  unfold State.drainWait
  split
  · next n _ _ => exact if_neg (h n rfl)
  · rfl

/-- Operation `o` is work item `w`'s operation `ix`, in the endpoint, found by its number. -/
structure State.Flying (s : State) (o : HostOp) (id : Nat) (w : Work) (ix p k : Nat) : Prop where
  noBurst : s.bursts.find? (fun b => b.id == id) = none
  found : s.htu.ops.find? (fun o => o.id == id) = some o
  owner : o.owner = .item w
  ix : o.ix = ix
  phase : o.phase = .queued p k
  cpl : o.cpl = false
theorem State.Flying.id {s : State} {o : HostOp} {id : Nat} {w : Work} {ix p k : Nat} (h : s.Flying o id w ix p k) : o.id = id := by
  simpa using List.find?_some h.found

/-- Host memory with the data of operation `id` at `p`, and the operation gone. -/
def State.landed (s : State) (id p : Nat) (data : List Byte) : State := State.dropOp { s with host := mwrite s.host p data } id
theorem ended_landed {s : State} {w : Work} {i : Item} (hi : s.item? w = some i) (hq : s.allQueued w) (id p : Nat) (data : List Byte) :
    Ended (s.landed id p data) id w i :=
  ended_dropOp (s := { s with host := mwrite s.host p data }) (by cases w <;> exact hi) hq id
theorem State.offHost_landed (s : State) (id p : Nat) (data : List Byte) :
    (s.landed id p data).offHost = { s.offHost with host := mwrite s.host p data } := rfl

section
variable {s : State} {o : HostOp} {id : Nat} {w : Work} {ix p k : Nat} (h : s.Flying o id w ix p k)
include h

theorem transmit_lands : s.transmit o = (s.landed id p o.data).invalidateCheck := by
  simp only [State.transmit, h.phase, h.id]; rfl
theorem opComplete_write (hw : o.write = true) (hfirst : s.htu.firstWrite = some o) (data : List Byte) (ok : Bool) :
    s.opComplete id data ok = (((s.transmit o).traceWritten w o.len).opDone w ix [] none).pump := by
  simp only [State.opComplete, h.noBurst, h.found, h.owner, h.phase, h.cpl, hw, hfirst, h.ix, Bool.false_eq_true, if_false, if_true]
theorem opComplete_read (hw : o.write = false) {data : List Byte} (hd : data.length = o.len) :
    s.opComplete id data true = (((s.dropOp id).readDone w ix data).invalidateCheck).pump := by
  simp only [State.opComplete, h.noBurst, h.found, h.owner, h.phase, h.cpl, hw, hd, h.ix, h.id, Bool.false_eq_true, if_false, Bool.not_true, ne_eq,
    not_true_eq_false]
theorem opComplete_failed (hw : o.write = false) (data : List Byte) :
    s.opComplete id data false = (((s.dropOp id).readFailed w ix).invalidateCheck).pump := by
  simp only [State.opComplete, h.noBurst, h.found, h.owner, h.phase, h.cpl, hw, h.ix, h.id, Bool.false_eq_true, if_false, Bool.not_false, if_true]
/-- A read's timeout is logged, and ends as an error of the read does (R62, R280). -/
theorem complTimeout_read (hw : o.write = false) (hen : bit s.cfg.devCtl2 4 = false) :
    s.complTimeout id = State.opComplete { s with cfg := { s.cfg with aerStatus := s.cfg.aerStatus ||| 2 ^ 14 } } id [] false := by
  simp [State.complTimeout, h.found, hen, HostOp.reading, h.phase, hw, h.owner]

variable {i : Item} (hi : s.item? w = some i) (hr : ∀ n, w = .ring n → n < 512) (hq : s.allQueued w) (hix : ix ≠ voidIx)
include hi hr hq hix

/-- A host write that leaves the endpoint has its bytes in host memory. -/
theorem write_completes (hw : o.write = true) (hfirst : s.htu.firstWrite = some o) (hop : opcodeOf i.desc ≠ 0x42) (data : List Byte) (ok : Bool) :
    ∃ j, Ended (s.opComplete id data ok) id w j ∧ j.out = i.out - 1 ∧ j.errs = i.errs ∧
      (s.opComplete id data ok).offHost = { s.offHost with host := mwrite s.host p o.data } := by
  obtain ⟨l, hil, hl⟩ := (ended_landed hi hq id p o.data).invalidateCheck hr
  rw [opComplete_write h hw hfirst, transmit_lands h, traceWritten_of_other hl.item (by rw [hil.desc]; exact hop)]
  refine ⟨_, (hl.updItem hr (fun i => i.opDone ix [] none)).pump, ?_, ?_, ?_⟩
  · rw [(Item.mark_sameResults _ _ _).out, Item.opDone_out hix, hil.out]
  · rw [(Item.mark_sameResults _ _ _).errs, Item.opDone_errs hix, hil.errs]; exact List.append_nil _
  · rw [(pump_step _).off, State.opDone_of_item hl.item, State.offHost_setItem, (invalidateCheck_step _).off, State.offHost_landed]
/-- A host read that completes gives the item its bytes. -/
theorem read_completes (hw : o.write = false) (ha : ∀ n, w = .ring n → (s.ring n).state ≠ .draining) {data : List Byte} (hd : data.length = o.len) :
    ∃ j, Ended (s.opComplete id data true) id w j ∧ j.out = i.out - 1 ∧ tget [] j.rep ix = data ∧ (s.opComplete id data true).offHost = s.offHost := by
  have hread := (ended_dropOp hi hq id).updItem hr (fun i => (i.opDone ix data none).waitRead s.now (leNat data))
  have hdone : (s.dropOp id).readDone w ix data = (s.dropOp id).updItem w (fun i => (i.opDone ix data none).waitRead s.now (leNat data)) := by
    refine drainWait_of_active fun n hn => ?_
    subst hn
    rw [State.updItem_of_item (s := s.dropOp id) (w := .ring n) hi, State.setItem, State.ring_setRing_same _ _ _ (hr n rfl)]
    exact ha n rfl
  obtain ⟨l, hil, hl⟩ := hread.invalidateCheck hr
  rw [opComplete_read h hw hd, hdone]
  refine ⟨_, hl.pump, ?_, ?_, ?_⟩
  · rw [hil.out, (Item.mark_sameResults _ _ _).out, (Item.waitRead_fields _ _ _).1, Item.opDone_out hix]
  · rw [hil.rep, (Item.mark_sameResults _ _ _).rep, (Item.waitRead_fields _ _ _).2, Item.opDone_rep hix]
  · rw [(pump_step _).off, (invalidateCheck_step _).off, State.updItem_of_item (ended_dropOp hi hq id).item, State.offHost_setItem]
    rfl
/-- A descriptor's read that ends in error ends its item with ABORTED (R280). -/
theorem read_fails (hw : o.write = false) (data : List Byte) :
    ∃ j, Ended (s.opComplete id data false) id w j ∧ j.dead = true ∧ j.errs = i.errs ++ [.aborted] ∧ (s.opComplete id data false).offHost = s.offHost := by
  have hdrop := ended_dropOp hi hq id
  have hdone := hdrop.updItem hr (fun i => i.opDone ix [] (some .aborted))
  have hdead := hdone.updItem hr (fun i => { i with dead := true, todo := (s.dropOp id).seqRest w i })
  obtain ⟨l, hil, hl⟩ := hdead.invalidateCheck hr
  rw [opComplete_failed h hw]
  refine ⟨_, hl.pump, ?_, ?_, ?_⟩
  · rw [hil.dead, (Item.mark_sameResults _ _ _).dead]
  · rw [hil.errs, (Item.mark_sameResults _ _ _).errs]
    dsimp only
    rw [(Item.mark_sameResults _ _ _).errs, Item.opDone_errs hix]; rfl
  · rw [(pump_step _).off, (invalidateCheck_step _).off, State.readFailed, State.opDone, State.updItem_of_item hdone.item,
      State.offHost_setItem, State.updItem_of_item hdrop.item, State.offHost_setItem]
    rfl
end

/-- A completion timeout of a descriptor's read is logged by AER and ends its item with ABORTED (R62, R280). -/
theorem read_timesOut {s : State} {o : HostOp} {id : Nat} {w : Work} {ix p k : Nat} {i : Item} (h : s.Flying o id w ix p k) (hi : s.item? w = some i)
    (hr : ∀ n, w = .ring n → n < 512) (hq : s.allQueued w) (hix : ix ≠ voidIx) (hw : o.write = false) (hen : bit s.cfg.devCtl2 4 = false) :
    ∃ j, Ended (s.complTimeout id) id w j ∧ j.dead = true ∧ j.errs = i.errs ++ [.aborted] ∧ (s.complTimeout id).host = s.host ∧
      bit (s.complTimeout id).cfg.aerStatus 14 = true := by
  have hlogged : State.Flying { s with cfg := { s.cfg with aerStatus := s.cfg.aerStatus ||| 2 ^ 14 } } o id w ix p k :=
    ⟨h.noBurst, h.found, h.owner, h.ix, h.phase, h.cpl⟩
  obtain ⟨j, hj, hdead, herrs, hoff⟩ := read_fails hlogged (i := i) (by cases w <;> exact hi) hr hq hix hw []
  rw [complTimeout_read h hw hen]
  refine ⟨j, hj, hdead, herrs, (congrArg State.host hoff :), ?_⟩
  have haer : (State.opComplete { s with cfg := { s.cfg with aerStatus := s.cfg.aerStatus ||| 2 ^ 14 } } id [] false).cfg.aerStatus =
      s.cfg.aerStatus ||| 2 ^ 14 := (congrArg (fun t : State => t.cfg.aerStatus) hoff :)
  rw [haer, bit_or]
  exact Bool.or_eq_true_iff.mpr (Or.inr (by decide))
theorem complTimeout_of_disabled {s : State} (h : bit s.cfg.devCtl2 4 = true) (id : Nat) : s.complTimeout id = s := by
  unfold State.complTimeout
  split
  · rfl
  · exact if_pos (Or.inl h)

/-! ### Descriptor fetches (R258, R284) -/

theorem exec_descriptorFetch {s : State} {r : Nat} {o : HostOp} (hf : s.fastRun = true) (ho : s.fetchRead r = some o) (data : List Byte) (ok : Bool) :
    exec (.descriptorFetch r data ok) s = .next ((s.readError o.id ok).fetched r data ok) := by
  refine (congrArg Host.Outcome.next (if_pos hf)).trans ?_
  simp only [ho]
/-- The next fetch changes the ring in what it asks for alone. -/
theorem ring_fetchMore {n : Nat} (hn : n < 512) (s : State) : ∃ k, (s.fetchMore n).ring n = { s.ring n with fetchOut := k } := by
  unfold State.fetchMore
  dsimp only
  split
  · exact ⟨_, State.ring_setRing_same _ _ _ hn⟩
  · exact ⟨_, rfl⟩
theorem offHost_fetchMore (s : State) (n : Nat) : (s.fetchMore n).offHost = s.offHost := by
  unfold State.fetchMore
  dsimp only
  split
  · unfold State.setRing; split <;> rfl
  · rfl
/-- After `kick` the ring's pointers are as they were but for the fetch asked for, and its work item is the same task. -/
theorem kick_step {n : Nat} (hn : n < 512) (s : State) : (s.kick n).offHost = s.offHost ∧ ∃ k, Ring.Kept { s.ring n with fetchOut := k } ((s.kick n).ring n) := by
  obtain ⟨k, hk⟩ := ring_fetchMore hn s
  have hpump := pump_step (s.fetchMore n)
  exact ⟨hpump.off.trans (offHost_fetchMore s n), k, hk ▸ hpump.ring n⟩
/-- The oldest descriptor of an active ring without a work item becomes its work item. -/
theorem promote_of_ready {s : State} {n : Nat} {d : BitVec 512} {rest : List (BitVec 512)} (hi : (s.ring n).item = none)
    (hf : (s.ring n).fetched = d :: rest) (hs : (s.ring n).state = .active) : s.promote n =
      s.setRing n { s.ring n with fetched := rest, item := some { desc := d, eligAt := s.now }, itemIx := ((s.ring n).head + (s.ring n).cplQ.length) % (s.ring n).size } := by
  simp only [State.promote, hi, hf, hs, if_true]

theorem splitDescs_of_pos {k : Nat} (hk : 0 < k) (data : List Byte) :
    splitDescs data k = BitVec.ofNat 512 (leNat (data.take 64)) :: splitDescs (data.drop 64) (k - 1) := by
  obtain ⟨m, rfl⟩ : ∃ m, k = m + 1 := ⟨k - 1, by omega⟩
  rfl
/-- Ring `r` with the descriptors of a fetch that returned `data`. -/
def Ring.withFetched (r : Ring) (data : List Byte) (k : Nat) : Ring :=
  { r with fetched := r.fetched ++ splitDescs data k, fetchIx := (r.fetchIx + k) % r.size, fetchOut := 0 }
section
variable {s : State} {r : Nat} {o : HostOp} {data : List Byte} (ho : s.fetchRead r = some o) (hix : o.ix = 0)
include ho hix

theorem fetched_ok (hd : data.length = o.len) (hitem : (s.ring r).item = none) : s.fetched r data true =
    (((s.dropOp o.id).invalidateCheck.setRing r ((s.ring r).withFetched data (o.len / 64))).promote r).kick r := by
  have hring : (s.dropOp o.id).invalidateCheck.ring r = s.ring r := State.ring_mapItems_of_none (s := s.dropOp o.id) hitem _
  simp only [State.fetched, ho, hd, hix, hring, Ring.withFetched]
  simp
theorem fetched_failed : s.fetched r data false = ((s.dropOp o.id).invalidateCheck.stall r 1).pump := by
  simp only [State.fetched, ho, hix]
  simp

/-- A fetch gives a ring that holds no descriptor its descriptors in order, the first as its work item (R258). -/
theorem fetched_takes (hr : r < 512) (hd : data.length = o.len) (hs : (s.ring r).state = .active) (hitem : (s.ring r).item = none)
    (hnone : (s.ring r).fetched = []) (hlen : 64 ≤ o.len) :
    (s.fetched r data true).offHost = s.offHost ∧ ∃ (q : Ring) (i : Item), Ring.Kept q ((s.fetched r data true).ring r) ∧ q.item = some i ∧
      q.fetched = splitDescs (data.drop 64) (o.len / 64 - 1) ∧ q.fetchIx = ((s.ring r).fetchIx + o.len / 64) % (s.ring r).size ∧
      q.head = (s.ring r).head ∧ q.tail = (s.ring r).tail ∧ i.fin = none ∧
      i.task = (BitVec.ofNat 512 (leNat (data.take 64)), 0, false, none) := by
  generalize hu : (s.dropOp o.id).invalidateCheck.setRing r ((s.ring r).withFetched data (o.len / 64)) = u
  have hring : u.ring r = (s.ring r).withFetched data (o.len / 64) := hu ▸ State.ring_setRing_same _ _ _ hr
  have hoff : u.offHost = s.offHost := by
    rw [← hu]
    have hset (t : State) (q : Ring) : (t.setRing r q).offHost = t.offHost := by unfold State.setRing; split <;> rfl
    exact (hset _ _).trans (invalidateCheck_step (s.dropOp o.id)).off
  have hfetched : (u.ring r).fetched = BitVec.ofNat 512 (leNat (data.take 64)) :: splitDescs (data.drop 64) (o.len / 64 - 1) := by
    rw [hring, Ring.withFetched, hnone, List.nil_append, splitDescs_of_pos (by omega)]
  have hpromote := promote_of_ready (by rw [hring]; exact hitem) hfetched (by rw [hring]; exact hs)
  obtain ⟨hkick, k, hkept⟩ := kick_step hr (u.promote r)
  have hring' := (congrArg (fun t : State => t.ring r) hpromote).trans (State.ring_setRing_same _ _ _ hr)
  rw [hring', hring] at hkept
  rw [fetched_ok ho hix hd hitem, hu]
  refine ⟨hkick.trans ((OwnerStep.promote u r).off.trans hoff), _, _, hkept, rfl, rfl, rfl, rfl, rfl, rfl, rfl⟩
end

/-- An activation of a source that is not in service leaves it pending (R313). -/
theorem State.activate_pending {s : State} {n : Nat} (hn : n < 256) (h : s.inService n = false) (data : Nat) : ((s.activate n data).src n).pending = true := by
  have hjudge (u : State) (hu : (u.src n).pending = true) : ((u.judgeReady n).src n).pending = true := (OwnerStep.judgeReady (ow := .fetch 0) u n).pending n hu
  unfold State.activate State.activateAt
  simp only [h, Bool.false_eq_true, if_false]
  refine hjudge _ ?_
  rw [State.src_setSrc_same _ _ _ hn]
  split
  · assumption
  · rfl
/-- Ring `r` stalled by a fetch that failed. -/
def Ring.stalledByFetch (r : Ring) : Ring := { r with state := .stalled, fetchOut := 0, fetchErr := true }
theorem stall_fetch {s : State} {n : Nat} (h : (s.ring n).state = .active ∨ (s.ring n).state = .idle) :
    s.stall n 1 = (s.setRing n (s.ring n).stalledByFetch).ringErr n 1 := by
  have hstate : ¬ ((s.ring n).state = .draining ∨ (s.ring n).state = .disabled) := by rcases h with h | h <;> simp [h]
  simp [State.stall, hstate, Ring.stalledByFetch]
/-- A fetch that ends in error stalls its ring and raises source 194 (R284). -/
theorem fetch_fails {s : State} {r : Nat} {o : HostOp} (hr : r < 512) (ho : s.fetchRead r = some o) (hix : o.ix = 0)
    (hs : (s.ring r).state = .active ∨ (s.ring r).state = .idle) (hsrc : s.inService 194 = false) (data : List Byte) :
    ((s.fetched r data false).ring r).offWork = (s.ring r).stalledByFetch.offWork ∧ ((s.fetched r data false).src 194).pending = true := by
  have hcheck := invalidateCheck_step (s.dropOp o.id)
  have hcar : (s.dropOp o.id).invalidateCheck.car = s.car := (congrArg State.car (s.dropOp o.id).invalidateCheck_frame :)
  rw [fetched_failed ho hix]
  generalize (s.dropOp o.id).invalidateCheck = u at hcheck hcar
  have hring : (u.ring r).offWork = (s.ring r).offWork := (hcheck.ring r).offWork
  have hstate : (u.ring r).state = (s.ring r).state := (congrArg Ring.state hring :)
  rw [stall_fetch (by rw [hstate]; exact hs)]
  have herr := OwnerStep.activate (ow := .fetch 0) (u.setRing r (u.ring r).stalledByFetch) 194 (r + 2 ^ (16 + 1))
  have hpump := pump_step ((u.setRing r (u.ring r).stalledByFetch).ringErr r 1)
  refine ⟨(hpump.ring r).offWork.trans ((herr.ring r).offWork.trans ?_), hpump.pending 194 (State.activate_pending (by decide) ?_ _)⟩
  · rw [State.ring_setRing_same _ _ _ hr]
    exact congrArg Ring.stalledByFetch hring
  · simp only [State.inService, State.setRing_car, hcar]
    exact hsrc

/-! ### O39 -/

section
variable {s : State} {id : Nat} {w : Work} {ix : Nat} {i : Item} {b : Burst} (hf : s.fastRun = true) (hi : s.item? w = some i)
  (hr : ∀ n, w = .ring n → n < 512) (hix : ix ≠ voidIx) (hb : s.bursts.find? (fun b => b.id == id) = some b) (hw : b.work = w) (hbix : b.ix = ix)
  (hnor : b.nor = 0) (hheld : b.held = false) (hrefill : b.refill = false)
include hf hi hr hix hb hw hbix hnor hheld hrefill

theorem burst_write_completes (hodd : i.odd = 0) (hop : opcodeOf i.desc ≠ 0x42) (hwrite : b.write = true) (data : List Byte) (ok : Bool) :
    ∃ t j, exec (.operationComplete id data ok) s = .next t ∧ t.store = mwrite s.store b.addr b.data ∧
      (∀ k, b.addr / 512 ≤ k → k < b.addr / 512 + cdiv (b.addr % 512 + b.len) 512 → tget false t.dmp.sealMap k = b.sealed_) ∧
      t.bursts = s.bursts.filter (fun x => x.id != id) ∧ t.item? w = some j ∧ j.out = i.out - 1 ∧ j.errs = i.errs ∧ t.host = s.host ∧ t.chips = s.chips := by
  obtain ⟨c, m, hread⟩ := readError_eq s id ok
  subst hw hbix
  have hid : b.id = id := by simpa using List.find?_some hb
  have hi' : State.item? { s with cfg := c, freeIx := m } b.work = some i := by rw [← hi]; cases b.work <;> rfl
  have hexec := exec_operationComplete hf id data ok
  rw [hread, opComplete_burst (s := { s with cfg := c, freeIx := m }) hb, burstDone_writes hi' hnor hheld hrefill hwrite hodd hop] at hexec
  have hitem : (State.burstWritten { s with cfg := c, freeIx := m } b).item? b.work = some i := by rw [← hi]; cases b.work <;> rfl
  have hframe := State.setItem_frame (State.burstWritten { s with cfg := c, freeIx := m } b) b.work (Item.mark s.now i (i.opDone b.ix [] none))
  refine ⟨_, _, hexec, (congrArg State.store hframe :), fun k h1 h2 => ?_, ?_, State.item?_setItem hr hitem, ?_, ?_,
    (congrArg State.host hframe :), (congrArg State.chips hframe :)⟩
  · refine (congrArg (fun t : State => tget false t.dmp.sealMap k) hframe :).trans ?_
    simp only [State.burstWritten, tget_tmodRange, if_pos (And.intro h1 h2)]
  · rw [← hid]; exact (congrArg State.bursts hframe :)
  · rw [(Item.mark_sameResults _ _ _).out, Item.opDone_out hix]
  · rw [(Item.mark_sameResults _ _ _).errs, Item.opDone_errs hix]; exact List.append_nil _
theorem burst_read_completes (hwrite : b.write = false) (data : List Byte) (ok : Bool) :
    ∃ t j, exec (.operationComplete id data ok) s = .next t ∧ t.store = s.store ∧ t.dmp = s.dmp ∧ t.bursts = s.bursts.filter (fun x => x.id != id) ∧
      t.item? w = some j ∧ j.out = i.out - 1 ∧ tget [] j.rep ix = mread s.store b.addr b.len ∧ j.errs = i.errs := by
  obtain ⟨c, m, hread⟩ := readError_eq s id ok
  subst hw hbix
  have hid : b.id = id := by simpa using List.find?_some hb
  have hi' : State.item? { s with cfg := c, freeIx := m } b.work = some i := by rw [← hi]; cases b.work <;> rfl
  have hexec := exec_operationComplete hf id data ok
  rw [hread, opComplete_burst (s := { s with cfg := c, freeIx := m }) hb, burstDone_reads hi' hnor hheld hrefill hwrite] at hexec
  have hitem : State.item? { s with cfg := c, freeIx := m, bursts := s.bursts.filter (fun x => x.id != b.id) } b.work = some i := by
    rw [← hi]; cases b.work <;> rfl
  have hframe := State.setItem_frame { s with cfg := c, freeIx := m, bursts := s.bursts.filter (fun x => x.id != b.id) } b.work
    (Item.mark s.now i (i.opDone b.ix (mread s.store b.addr b.len) none))
  refine ⟨_, _, hexec, (congrArg State.store hframe :), (congrArg State.dmp hframe :), ?_, State.item?_setItem hr hitem, ?_, ?_, ?_⟩
  · rw [← hid]; exact (congrArg State.bursts hframe :)
  · rw [(Item.mark_sameResults _ _ _).out, Item.opDone_out hix]
  · rw [(Item.mark_sameResults _ _ _).rep, Item.opDone_rep hix]
  · rw [(Item.mark_sameResults _ _ _).errs, Item.opDone_errs hix]; exact List.append_nil _
end

theorem exec_operationComplete_held {s : State} {id : Nat} {b : Burst} (hf : s.fastRun = true) (hb : s.bursts.find? (fun b => b.id == id) = some b)
    (hheld : b.held = true) (hops : s.htu.ops = []) (data : List Byte) (ok : Bool) : exec (.operationComplete id data ok) s = .next s := by
  rw [exec_operationComplete hf, readError_of_noOps hops, opComplete_burst hb, burstDone_of_held hheld]

/-- Settles O39: bursts as the store has them, host operations as `Ended` says, fetches by what they make of the ring. -/
theorem operationsAndFetchesComplete : Obligations.OperationsAndFetchesComplete := by
  refine ⟨fun s id w ix i hf hi hring _ hop hodd hix => ⟨fun b ok data hb hw hbix hnor hheld hrefill => ⟨fun hwrite => ?_, fun hwrite => ?_⟩,
    fun b ok data hb hheld hops => exec_operationComplete_held hf hb hheld hops data ok,
    fun o p k data hnb ho hown hoix hphase hcpl hq => ?_⟩, fun s r o p k data hr hf ho hphase hix => ⟨fun hd hs hitem hnone hlen => ?_, fun hs hsrc => ?_⟩⟩
  · exact burst_write_completes hf hi (fun n hn => (hring n hn).1) hix hb hw hbix hnor hheld hrefill hodd hop hwrite data ok
  · exact burst_read_completes hf hi (fun n hn => (hring n hn).1) hix hb hw hbix hnor hheld hrefill hwrite data ok
  · have hr : ∀ n, w = .ring n → n < 512 := fun n hn => (hring n hn).1
    have hfly : s.Flying o id w ix p k := ⟨List.find?_eq_none.mpr fun b hb => by simpa using hnb b hb, ho, hown, hoix, hphase, hcpl⟩
    have hexec : exec (.operationComplete id data true) s = .next (s.opComplete id data true) := by
      rw [exec_operationComplete hf, readError_of_ok]
    refine ⟨fun hw hfirst => ?_, fun hw hd => ?_, fun hw hen => ?_, fun _ hdis => ?_⟩
    · obtain ⟨j, hj, hout, herrs, hoff⟩ := write_completes hfly hi hr hq hix hw hfirst hop data true
      exact ⟨_, j, hexec, (congrArg State.host hoff :), hj.item, hout, herrs, (congrArg State.chips hoff :), (congrArg State.store hoff :), hj.gone⟩
    · obtain ⟨j, hj, hout, hrep, hoff⟩ := read_completes hfly hi hr hq hix hw (fun n hn => (hring n hn).2) hd
      exact ⟨_, j, hexec, (congrArg State.host hoff :), hj.item, hout, hrep, hj.gone⟩
    · obtain ⟨j, hj, hdead, herrs, hhost, haer⟩ := read_timesOut hfly hi hr hq hix hw hen
      exact ⟨_, j, exec_completionTimeout hf id, hhost, hj.item, hdead, herrs, haer, hj.gone⟩
    · rw [exec_completionTimeout hf, complTimeout_of_disabled hdis]
  · obtain ⟨hoff, q, i, hkept, hi, hfetched, hfix, hhead, htail, hfin, htask⟩ := fetched_takes ho hix hr hd hs hitem hnone hlen
    obtain ⟨hfetched', j, hj, hji⟩ := hkept.task i hi hfin
    have htask' := hji.trans htask
    refine ⟨_, j, (exec_descriptorFetch hf ho data true).trans (by rw [readError_of_ok]), hj, (congrArg (·.1) htask' :), (congrArg (·.2.1) htask' :),
      (congrArg (·.2.2.1) htask' :), hfetched'.trans hfetched, (congrArg Ring.fetchIx hkept.offWork :).trans hfix,
      (congrArg Ring.head hkept.offWork :).trans hhead, (congrArg Ring.tail hkept.offWork :).trans htail, (congrArg State.host hoff :)⟩
  · obtain ⟨c, m, hread⟩ := readError_eq s o.id false
    have hexec := exec_descriptorFetch hf ho data false
    rw [hread] at hexec
    obtain ⟨hring, hpending⟩ := fetch_fails (s := { s with cfg := c, freeIx := m }) hr ho hix hs hsrc data
    exact ⟨_, hexec, (congrArg Ring.state hring :), (congrArg Ring.fetchErr hring :), (congrArg Ring.head hring :), (congrArg Ring.tail hring :), hpending⟩

end Sys2Proof.Machine

/-! PROOFS. Resets (O3, O45): what the state after reset holds, what a reset that the host makes keeps, and what power-on reset
keeps and begins. -/
namespace Sys2Proof.Machine

/-! ### Changes of work items and stroke engines -/

/-- From `s` to `t` nothing has changed but rings, scan port and hub registers, which hold the work items and the stroke engines. -/
structure OffWork (s t : State) : Prop where
  frame : { t with rings := s.rings, scan := s.scan, hub := s.hub } = s
theorem OffWork.refl (s : State) : OffWork s s := ⟨rfl⟩
theorem OffWork.trans {s t u : State} (h : OffWork s t) (k : OffWork t u) : OffWork s u :=
  ⟨(congrArg (fun v : State => { v with rings := s.rings, scan := s.scan, hub := s.hub }) k.frame).trans h.frame⟩
theorem OffWork.foldl {α : Type} {g : State → α → State} (hg : ∀ s x, OffWork s (g s x)) (l : List α) (s : State) : OffWork s (l.foldl g s) :=
  List.foldlRecOn (motive := fun t => OffWork s t) _ _ (OffWork.refl s) fun t ht x _ => ht.trans (hg t x)
section
variable {s t : State} (h : OffWork s t)
include h
theorem OffWork.car : t.car = s.car := (congrArg State.car h.frame :)
theorem OffWork.dmp : t.dmp = s.dmp := (congrArg State.dmp h.frame :)
theorem OffWork.bursts : t.bursts = s.bursts := (congrArg State.bursts h.frame :)
end
theorem State.updItem_offWork (s : State) (w : Work) (f : Item → Item) : OffWork s (s.updItem w f) := ⟨s.modItem_frame w _⟩
theorem State.dropItem_offWork (s : State) (w : Work) : OffWork s (s.dropItem w) := by
  cases w with
  | ring n => simp only [State.dropItem, State.setRing]; split <;> exact ⟨rfl⟩
  | scan => exact ⟨rfl⟩
  | free k => exact ⟨rfl⟩
theorem State.setSe_offWork (s : State) (e : Nat) (v : StrokeEngine) : OffWork s (s.setSe e v) := by
  unfold State.setSe; split <;> exact ⟨rfl⟩
theorem State.endStroke_offWork (s : State) (e : Nat) : OffWork s (s.endStroke e) := by
  unfold State.endStroke
  dsimp only
  split
  · exact (s.setSe_offWork e _).trans ⟨State.modItem_frame _ _ _⟩
  · exact s.setSe_offWork e _
theorem State.endStrokesOf_offWork (s : State) (w : Work) : OffWork s (s.endStrokesOf w) :=
  OffWork.foldl (fun s e => by
    split
    · exact s.endStroke_offWork e
    · exact OffWork.refl s) _ s

/-! ### Activations -/

/-- From `s` to `t` sources have been activated: beside the sources themselves, a record being formed may have been joined. -/
def Activated (s t : State) : Prop := ∃ src ops, t = { s with car := { s.car with sources := src }, htu := { s.htu with ops := ops } }
theorem Activated.refl (s : State) : Activated s s := ⟨_, _, rfl⟩
theorem Activated.trans {s t u : State} (h : Activated s t) (k : Activated t u) : Activated s u := by
  obtain ⟨_, _, rfl⟩ := h
  obtain ⟨src, ops, rfl⟩ := k
  exact ⟨src, ops, rfl⟩
theorem Activated.dmp {s t : State} (h : Activated s t) : t.dmp = s.dmp := by
  obtain ⟨_, _, rfl⟩ := h
  rfl
theorem State.setSrc_activated (s : State) (n : Nat) (v : Source) : Activated s (s.setSrc n v) := by
  unfold State.setSrc; split <;> exact ⟨_, _, rfl⟩
theorem State.judgeReady_activated (s : State) (n : Nat) : Activated s (s.judgeReady n) := by
  unfold State.judgeReady
  dsimp only
  split
  · exact s.setSrc_activated n _
  · exact Activated.refl s
theorem State.joinRecord_activated (s : State) (q n data t : Nat) : Activated s (s.joinRecord q n data t) := by
  unfold State.joinRecord
  dsimp only
  split
  · exact (s.setSrc_activated n _).trans ⟨_, _, rfl⟩
  · exact s.setSrc_activated n _
theorem State.activate_activated (s : State) (n data : Nat) : Activated s (s.activate n data) := by
  unfold State.activate State.activateAt
  dsimp only
  split
  · split
    · exact s.joinRecord_activated ..
    · exact s.setSrc_activated n _
  · exact (s.setSrc_activated n _).trans (State.judgeReady_activated _ n)

/-! ### O3 -/

/-- Settles O3: every field of the state after reset is its default but the boot that is due and the link that is down. -/
theorem resetLeavesTheHub : Obligations.ResetLeavesTheHub :=
  ⟨⟨rfl, rfl, rfl, rfl, rfl⟩, ⟨List.Pairwise.nil, fun _ h => absurd h List.not_mem_nil⟩, rfl, fun _ => ⟨rfl, rfl, rfl, rfl⟩, fun _ => rfl,
   fun _ => ⟨rfl, rfl⟩, rfl, rfl, rfl, rfl, rfl, rfl, rfl, rfl, rfl, rfl, rfl, rfl, rfl, rfl⟩

/-! ### What a host reset keeps -/

/-- The part of the state out of reach of PERST_N, a function-level reset and a link that goes down. -/
def State.beyondHost (s : State) : State :=
  { pwr := s.pwr, pins := s.pins, fuses := s.fuses, lcs := s.lcs, boot := s.boot, auth := { s.auth with caps := [] }
    car := { lines := s.car.lines }, run := s.run, chips := s.chips, host := s.host, store := s.store, sram := s.sram, nor := s.nor }
/-- From `s` to `t` nothing has changed that a host reset keeps. -/
structure Keeps (s t : State) : Prop where
  kept : t.beyondHost = s.beyondHost
theorem Keeps.refl (s : State) : Keeps s s := ⟨rfl⟩
theorem Keeps.trans {s t u : State} (h : Keeps s t) (k : Keeps t u) : Keeps s u := ⟨k.kept.trans h.kept⟩
theorem Keeps.after {s t u : State} (k : Keeps t u) (h : t.beyondHost = s.beyondHost) : Keeps s u := ⟨k.kept.trans h⟩
theorem Keeps.foldl {α : Type} {g : State → α → State} (hg : ∀ s x, Keeps s (g s x)) (l : List α) (s : State) : Keeps s (l.foldl g s) :=
  List.foldlRecOn (motive := fun t => Keeps s t) _ _ (Keeps.refl s) fun t ht x _ => ht.trans (hg t x)
theorem OffWork.keeps {s t : State} (h : OffWork s t) : Keeps s t := ⟨(congrArg State.beyondHost h.frame :)⟩
theorem Activated.keeps {s t : State} (h : Activated s t) : Keeps s t := by
  obtain ⟨_, _, rfl⟩ := h
  exact ⟨rfl⟩
theorem State.setCtx_keeps (s : State) (n : Nat) (c : Ctx) : Keeps s (s.setCtx n c) := by
  unfold State.setCtx; split <;> exact ⟨rfl⟩
theorem State.dropHostPart_keeps (s : State) (n : Nat) : Keeps s (s.dropHostPart n) := by
  unfold State.dropHostPart
  dsimp only
  split
  · split
    · exact (s.setCtx_keeps n _).trans (OffWork.keeps ⟨State.modItem_frame _ _ _⟩)
    · exact s.setCtx_keeps n _
  · exact Keeps.refl _
theorem State.orphan_keeps (s : State) (w : Work) (keep : Option Item) : Keeps s (s.orphan w keep) := by
  unfold State.orphan
  dsimp only
  exact ((State.endStrokesOf_offWork _ w).trans (State.dropItem_offWork _ w)).keeps.after rfl
theorem State.cutDropped_keeps (s : State) (i : Item) : Keeps s (s.cutDropped i) := by
  unfold State.cutDropped; split <;> exact ⟨rfl⟩
/-- A dump that ends with its host gives a free status in source 172 and frees its context. -/
theorem State.dumpEvent_keeps (s : State) (n sdf : Nat) : Keeps s ((s.free.2.dumpEvent n sdf (s.free.1.toNat % 256)).setCtx n {}) :=
  Keeps.trans ((State.activate_activated s.free.2 172 _).keeps.after rfl) (State.setCtx_keeps _ n {})
theorem State.suspendedLost_keeps (s : State) (n : Nat) : Keeps s (s.suspendedLost n) := by
  unfold State.suspendedLost
  dsimp only
  split
  · exact Keeps.refl _
  · split
    · exact s.dropHostPart_keeps n
    · exact s.dumpEvent_keeps n 0
theorem State.ringLost_keeps (s : State) (n : Nat) : Keeps s (s.ringLost n) := by
  unfold State.ringLost
  extract_lets w u
  have hcut : Keeps s u := by
    unfold u
    split
    · exact s.cutDropped_keeps _
    · exact Keeps.refl s
  refine hcut.trans ?_
  clear_value u
  split
  · exact u.orphan_keeps w none
  · split
    · next c _ =>
      extract_lets
      split
      · exact ((u.dropHostPart_keeps c).trans (State.orphan_keeps _ w _)).trans (State.setCtx_keeps _ c _)
      · exact (u.dumpEvent_keeps c 0).trans (State.orphan_keeps _ w none)
    · split
      · exact u.orphan_keeps w none
      · exact u.orphan_keeps w _
theorem State.killItem_offWork (s : State) (w : Work) (e : Status) : OffWork s (s.killItem w e) := s.updItem_offWork w _
theorem State.hostLost_keeps (s : State) (w : Work) : Keeps s (s.hostLost w) := by
  unfold State.hostLost
  extract_lets n p u
  have hupd : Keeps s u := (s.updItem_offWork w _).keeps
  split
  · next c _ =>
    refine hupd.trans ?_
    clear_value u
    split
    · exact Keeps.trans (State.dropHostPart_keeps _ c) (State.setCtx_keeps _ c _)
    · split
      · exact Keeps.refl _
      · exact (State.killItem_offWork _ w _).keeps
  · split
    · exact Keeps.refl _
    · exact ((s.updItem_offWork w _).trans (State.killItem_offWork _ w _)).keeps
/-- A judgement of readiness is a matter of the sources. -/
theorem State.rejudge_activated (s : State) (p : Source → Bool) : Activated s (s.rejudge p) :=
  List.foldlRecOn (motive := fun t => Activated s t) _ _ (Activated.refl s) fun t ht n _ => by
    refine ht.trans ?_
    unfold State.timeReady
    dsimp only
    split
    · split
      · exact t.setSrc_activated n _
      · exact Activated.refl t
    · exact Activated.refl t
theorem State.queuesReset_keeps (s : State) : Keeps s s.queuesReset := by
  unfold State.queuesReset
  dsimp only
  refine Keeps.trans ?_ (State.rejudge_activated _ _).keeps
  refine Keeps.trans (Keeps.foldl (fun s p => ?_) s.car.queues s) ⟨rfl⟩
  split
  · split
    · exact (s.setSrc_activated _ _).keeps
    · exact Keeps.refl _
  · exact Keeps.refl _
theorem State.queuesReset_queues (s : State) : s.queuesReset.car.queues = [] := by
  unfold State.queuesReset
  dsimp only
  generalize List.foldl _ s s.car.queues = u
  obtain ⟨_, _, h⟩ := State.rejudge_activated { u with car := { u.car with queues := [] } } (fun _ => true)
  rw [h]
theorem State.sleepCheck_offWork (s : State) : OffWork s s.sleepCheck := ⟨s.mapItems_frame _⟩
/-- A host reset ends what is under way for the host, and then gives the host's side its values of reset. -/
theorem hostReset_eq (s : State) : ∃ u, Keeps s u ∧ u.car.queues = [] ∧ s.hostReset =
    { u with rings := [], counters := [], msix := [], pba := 0, held := [], auth := { u.auth with caps := [] }, cfg := {}
             htu := { nextId := u.htu.nextId, nextOrder := u.htu.nextOrder }
             rstAt := u.now + 1, rstBoot := u.rstBoot && u.rstAt == u.now + 1 } := by
  unfold State.hostReset
  extract_lets dumps rings others slept htu
  have hdumps : Keeps s dumps := Keeps.foldl (fun s n => s.suspendedLost_keeps n) _ s
  clear_value dumps
  have hrings : Keeps dumps rings := Keeps.foldl (fun s n => s.ringLost_keeps n) _ dumps
  clear_value rings
  have hothers : Keeps rings others := Keeps.foldl (fun s w => s.hostLost_keeps w) _ rings
  clear_value others
  have hslept : Keeps others slept := others.queuesReset_keeps.trans others.queuesReset.sleepCheck_offWork.keeps
  have hqueues : slept.car.queues = [] := (congrArg Car.queues others.queuesReset.sleepCheck_offWork.car).trans others.queuesReset_queues
  clear_value slept
  exact ⟨slept, ((hdumps.trans hrings).trans hothers).trans hslept, hqueues, rfl⟩

/-! ### O45 -/

section
variable {s t : State} (h : Keeps s t)
include h
theorem Keeps.pwr : t.pwr = s.pwr := (congrArg State.pwr h.kept :)
theorem Keeps.pins : t.pins = s.pins := (congrArg State.pins h.kept :)
theorem Keeps.fuses : t.fuses = s.fuses := (congrArg State.fuses h.kept :)
theorem Keeps.lcs : t.lcs = s.lcs := (congrArg State.lcs h.kept :)
theorem Keeps.boot : t.boot = s.boot := (congrArg State.boot h.kept :)
theorem Keeps.auth : { t.auth with caps := [] } = { s.auth with caps := [] } := (congrArg State.auth h.kept :)
theorem Keeps.lines : t.car.lines = s.car.lines := (congrArg (fun u : State => u.car.lines) h.kept :)
theorem Keeps.run : t.run = s.run := (congrArg State.run h.kept :)
theorem Keeps.chips : t.chips = s.chips := (congrArg State.chips h.kept :)
theorem Keeps.host : t.host = s.host := (congrArg State.host h.kept :)
theorem Keeps.store : t.store = s.store := (congrArg State.store h.kept :)
theorem Keeps.sram : t.sram = s.sram := (congrArg State.sram h.kept :)
theorem Keeps.nor : t.nor = s.nor := (congrArg State.nor h.kept :)
end

theorem exec_perstN (s : State) : exec .perstN s = .next s.hostReset.scrapCheck := rfl
theorem exec_functionLevelReset (s : State) : exec .functionLevelReset s = .next (State.scrapCheck { s.hostReset with cfg := s.flr.cfg }) := rfl
theorem exec_dlDown (s : State) : exec .dlDown s =
    .next (State.scrapCheck { s.hostReset with pins := { s.hostReset.pins with linkUp := false, l1 := false } }) := rfl
theorem exec_powerOnReset (s : State) (done : Bool) (straps pulls : Nat) :
    exec (.powerOnReset done straps pulls) s = .next (if done then s.porEnd straps pulls else s.porStart) := rfl

/-- No reboot follows a reset where none is owed. -/
theorem scrapCheck_of_notOwed {s : State} (hl : s.lcs.scrapReboot = false) (hb : s.boot.recoveryReboot = false) : s.scrapCheck = s := by
  have hnow : s.scrapNow = s := by simp [State.scrapNow, hl, hb]
  unfold State.scrapCheck
  split
  · rfl
  · exact hnow
theorem hostResets_reset_the_host_side {s : State} (hl : s.lcs.scrapReboot = false) (hb : s.boot.recoveryReboot = false) :
    ∃ t c, exec .perstN s = .next t ∧ exec .functionLevelReset s = .next { t with cfg := c } ∧
      exec .dlDown s = .next { t with pins := { t.pins with linkUp := false, l1 := false } } ∧
      t.cfg = {} ∧ c.linkCtl = s.cfg.linkCtl ∧ c.aerStatus = s.cfg.aerStatus ∧ c.command = t.cfg.command ∧
      t.rings = [] ∧ t.counters = [] ∧ t.msix = [] ∧ t.pba = 0 ∧ t.held = [] ∧ t.auth = { s.auth with caps := [] } ∧
      t.htu.enabled = false ∧ t.htu.tlb = [] ∧ t.htu.ops = [] ∧ t.htu.log = [] ∧ t.car.queues = [] ∧
      t.store = s.store ∧ t.nor = s.nor ∧ t.sram = s.sram ∧ t.host = s.host ∧ t.chips = s.chips ∧ t.fuses = s.fuses ∧ t.lcs = s.lcs ∧ t.boot = s.boot ∧
      t.pwr = s.pwr ∧ t.pins = s.pins ∧ t.car.lines = s.car.lines ∧ t.run = s.run := by
  obtain ⟨u, h, hqueues, hreset⟩ := hostReset_eq s
  have hul : u.lcs.scrapReboot = false := h.lcs ▸ hl
  have hub : u.boot.recoveryReboot = false := h.boot ▸ hb
  rw [exec_perstN, exec_functionLevelReset, exec_dlDown, hreset]
  exact ⟨_, s.flr.cfg, congrArg _ (scrapCheck_of_notOwed hul hub), congrArg _ (scrapCheck_of_notOwed hul hub), congrArg _ (scrapCheck_of_notOwed hul hub),
    rfl, rfl, rfl, rfl, rfl, rfl, rfl, rfl, rfl, h.auth, rfl, rfl, rfl, rfl, hqueues, h.store, h.nor, h.sram, h.host, h.chips, h.fuses, h.lcs, h.boot,
    h.pwr, h.pins, h.lines, h.run⟩

/-- A stop line that is high is a matter of the chips that see it. -/
theorem riseStops_eq (s : State) : ∃ c, s.riseStops = { s with chips := c } :=
  List.foldlRecOn (motive := fun t : State => ∃ c, t = { s with chips := c }) _ _ ⟨s.chips, rfl⟩ fun t ht f _ => by
    obtain ⟨c, rfl⟩ := ht
    dsimp only
    split
    · unfold State.setChip
      split <;> exact ⟨_, rfl⟩
    · exact ⟨_, rfl⟩
/-- A NOR operation that is abandoned gives its bytes, and erases a trailer it breaks (R154). -/
theorem norTorn_eq (s : State) (b : Burst) : ∃ k m, s.norTorn b = { s with freeIx := k, nor := m } :=
  List.foldlRecOn (motive := fun t : State => ∃ k m, t = { s with freeIx := k, nor := m }) _ _ ⟨_, _, rfl⟩ fun t ht x _ => by
    obtain ⟨k, m, rfl⟩ := ht
    split <;> exact ⟨_, _, rfl⟩
theorem dropNor_eq (s : State) : ∃ k m, s.dropNor = { s with freeIx := k, nor := m } :=
  List.foldlRecOn (motive := fun t : State => ∃ k m, t = { s with freeIx := k, nor := m }) _ _ ⟨_, _, rfl⟩ fun t ht b _ => by
    obtain ⟨k, m, rfl⟩ := ht
    split
    · obtain ⟨_, _, h⟩ := norTorn_eq { s with freeIx := k, nor := m } b
      exact ⟨_, _, h⟩
    · exact ⟨_, _, rfl⟩
theorem dropNor_of_none {s : State} (h : ∀ b ∈ s.bursts, b.nor ≠ 1 ∧ b.nor ≠ 2) : s.dropNor = s :=
  List.foldlRecOn (motive := fun t : State => t = s) _ _ rfl fun t ht b hb => by
    obtain ⟨h1, h2⟩ := h b hb
    simp only [h1, h2, or_self, if_false, ht]

theorem powerOnReset_starts_over (s : State) (straps pulls : Nat) :
    ∃ t, exec (.powerOnReset false straps pulls) s = .next t ∧ t.pins.inPor = true ∧ t.fuses = s.fuses ∧
      ((∀ b ∈ s.bursts, b.nor ≠ 1 ∧ b.nor ≠ 2) → t.nor = s.nor) ∧ t.host = s.host ∧ t.now = s.now ∧
      t.rings = [] ∧ t.counters = [] ∧ t.car = {} ∧ t.pwr = {} ∧ t.boot = {} ∧ t.lcs = {} ∧ t.auth = {} ∧ t.htu = {} ∧ t.hub = {} ∧ t.scan = {} ∧ t.run = {} ∧ t.cut = {} ∧
      t.trc = {} ∧ t.bhv = {} ∧ t.cfg = {} := by
  obtain ⟨k, m, hdrop⟩ := dropNor_eq s
  have hnor (h : ∀ b ∈ s.bursts, b.nor ≠ 1 ∧ b.nor ≠ 2) : m = s.nor := congrArg State.nor (hdrop.symm.trans (dropNor_of_none h))
  rw [exec_powerOnReset]
  simp only [Bool.false_eq_true, if_false, State.porStart, hdrop]
  generalize hu : State.mk .. = u
  obtain ⟨c, hrise⟩ := riseStops_eq u
  subst hu
  rw [hrise]
  exact ⟨_, rfl, rfl, rfl, hnor, rfl, rfl, rfl, rfl, rfl, rfl, rfl, rfl, rfl, rfl, rfl, rfl, rfl, rfl, rfl, rfl, rfl⟩
/-- Fabric time counts from 0 at the cycle in which what is added to hub time is set to its complement (R111). -/
theorem time_of_zeroed {s : State} (h : s.ftAdj = (2 ^ 64 - s.now % 2 ^ 64) % 2 ^ 64) : s.time = 0 := by
  unfold State.time
  rw [h]
  omega
theorem powerOnReset_ends {s : State} (hp : s.pins.inPor = true) {straps : Nat} (hs : straps < 16) (pulls : Nat) :
    ∃ t, exec (.powerOnReset true straps pulls) s = .next t ∧ t.pins.inPor = false ∧ t.pwr = { s.pwr with straps := straps } ∧ t.time = 0 ∧
      t.boot = s.boot.restart 0 (s.now + 1000) ∧ t.nor = s.nor ∧ t.fuses = s.fuses := by
  rw [exec_powerOnReset]
  simp only [if_true, State.porEnd, hp, Nat.mod_eq_of_lt hs]
  generalize hu : State.mk .. = u
  obtain ⟨c, hrise⟩ := riseStops_eq u
  subst hu
  rw [hrise]
  exact ⟨_, rfl, rfl, rfl, time_of_zeroed rfl, rfl, rfl, rfl⟩
theorem powerOnReset_ends_once {s : State} (hp : s.pins.inPor = false) (straps pulls : Nat) : exec (.powerOnReset true straps pulls) s = .next s := by
  rw [exec_powerOnReset]
  simp [State.porEnd, hp]

/-- Settles O45: the three host resets by what they all reset and keep, power-on reset by its start and its end. -/
theorem resetsStartOver : Obligations.ResetsStartOver :=
  ⟨fun _ hl hb => hostResets_reset_the_host_side hl hb,
   fun s straps pulls => ⟨powerOnReset_starts_over s straps pulls, fun hp hs => powerOnReset_ends hp hs pulls, fun hp => powerOnReset_ends_once hp straps pulls⟩⟩

end Sys2Proof.Machine

/-! PROOFS. Survival and DMP_CTRL.ENABLE (O44): the start and the end of survival, its last-gasp write, the end of hold-up, and
what becomes of each dump context when dumps are disabled. -/
namespace Sys2Proof.Machine

theorem exec_survivalStart (s : State) : exec .survivalStart s = .next s.survivalStart := rfl
theorem exec_lastGaspWrite (s : State) : exec .lastGaspWrite s = .next s.lastGasp := rfl
theorem exec_survivalEnd (s : State) : exec .survivalEnd s = .next s.survivalEnd := rfl
theorem exec_holdUpEnd (s : State) : exec .holdUpEnd s = .next s.holdUpEnd := rfl
theorem exec_dumpDisable (s : State) : exec .dumpDisable s = s.hostWrite 0xC000 4 0 := rfl

/-! ### Ringless work items -/

/-- Ringless work items are numbered below the next number to be given. -/
def State.freeBelow (s : State) : Prop := ∀ p ∈ s.hub.free, p.1 < s.hub.nextFree
theorem item?_addFree_new {s : State} (h : s.freeBelow) (i : Item) : (s.addFree i).2.item? (.free s.hub.nextFree) = some i := by
  have hnone : s.hub.free.find? (fun p => p.1 == s.hub.nextFree) = none :=
    List.find?_eq_none.mpr fun p hp => by simpa using Nat.ne_of_lt (h p hp)
  simp [State.addFree, State.item?, List.find?_append, hnone]
theorem item?_addFree_of_some {s : State} {k : Nat} {j : Item} (h : s.item? (.free k) = some j) (i : Item) :
    (s.addFree i).2.item? (.free k) = some j := by
  obtain ⟨p, hp, rfl⟩ := Option.map_eq_some_iff.mp h
  simp [State.addFree, State.item?, List.find?_append, hp]
theorem freeBelow_addFree {s : State} (h : s.freeBelow) (i : Item) : (s.addFree i).2.freeBelow := fun p hp => by
  rcases List.mem_append.mp hp with hp | hp
  · exact Nat.lt_succ_of_lt (h p hp)
  · rw [List.mem_singleton.mp hp]
    exact Nat.lt_succ_self _

/-! ### The start of survival -/

/-- A unit with no plan armed starts no dump. -/
theorem survDump_of_unarmed {s : State} (h : s.dmp.survArmed = false) : s.survDump = s := by simp [State.survDump, h]
theorem opcodeOf_lgOpcode : opcodeOf (BitVec.ofNat 512 lgOpcode) = lgOpcode := by
  unfold opcodeOf db fld
  rw [BitVec.toNat_ofNat, Nat.mul_zero, Nat.shiftRight_zero, Nat.mod_mod_of_dvd _ (Nat.pow_dvd_pow (m := 8 * 1) (n := 512) 2 (by decide))]
  rfl
theorem lgWork_addGasp {s : State} (h : s.freeBelow) : s.addGasp.lgWork (.free s.hub.nextFree) = true := by
  simp [State.lgWork, State.addGasp, item?_addFree_new h, opcodeOf_lgOpcode]
theorem survivalStart_starts {s : State} (hdue : s.dmp.survDue = true) (hline : (s.line 17).level = true) (hsurv : s.dmp.surviving = false)
    (hup : s.fastUp = true) (hstage : s.boot.stage = 4) (harm : s.dmp.survArmed = false) (hdump : s.survDumping = false)
    (hsrc : s.inService 173 = false) (hbelow : s.freeBelow) :
    ∃ t, exec .survivalStart s = .next t ∧ t.dmp.surviving = true ∧ t.dmp.survDue = false ∧ t.dmp.lgBegun = false ∧ (t.src 173).pending = true ∧
      t.lgWork (.free s.hub.nextFree) = true ∧ t.store = s.store ∧ t.host = s.host ∧ t.chips = s.chips := by
  have hcond : (s.dmp.survDue && (s.line 17).level && !s.dmp.surviving && s.fastUp && s.boot.stage == 4) = true := by
    simp [hdue, hline, hsurv, hup, hstage]
  have hact := s.activate_activated 173 0
  have hpend := State.activate_pending (s := s) (n := 173) (by decide) hsrc 0
  have hhub := s.activate_hub 173 0
  rw [exec_survivalStart, State.survivalStart, if_pos hcond]
  generalize s.activate 173 0 = a at hact hpend hhub
  extract_lets _ _ begun
  have hnodump : begun.survDumping = false := (congrArg (fun d : Dmp => State.survDumping { s with dmp := d }) hact.dmp).trans hdump
  rw [hnodump, if_neg Bool.false_ne_true, survDump_of_unarmed (s := begun) ((congrArg Dmp.survArmed hact.dmp).trans harm)]
  refine ⟨_, rfl, rfl, rfl, rfl, hpend, ?_, hact.keeps.store, hact.keeps.host, hact.keeps.chips⟩
  rw [← hhub]
  exact lgWork_addGasp (s := begun) (by unfold State.freeBelow; exact hhub ▸ hbelow)

/-! ### The last-gasp write -/

/-- A write of the NOR reaches neither the dump store nor host memory. -/
theorem norWrite_memories (s : State) (a : Nat) (d : List Byte) : (s.norWrite a d).store = s.store ∧ (s.norWrite a d).host = s.host := ⟨rfl, rfl⟩
theorem lgWrite_memories (s : State) : s.lgWrite.store = s.store ∧ s.lgWrite.host = s.host := by
  unfold State.lgWrite
  extract_lets p t
  have ht : t.store = s.store ∧ t.host = s.host := norWrite_memories s _ _
  clear_value p t
  split
  · exact ht
  · exact ⟨rfl, rfl⟩
theorem lgWrite_first {s : State} (hn : s.lgNewest = none) (he : isErased (s.lgRecord 0) = true) :
    s.lgWrite.nor = mwrite s.nor 0x100000 ((s.lgBytes 1).map (fun b => ~~~ b)) ∧ s.lgWrite.dmp.lgSeq = 1 ∧ s.lgWrite.dmp.lgWritten = true := by
  simp only [State.lgWrite, hn, he, if_true, State.norWrite, lgBase, Nat.mul_zero, Nat.add_zero, and_self]
/-- The engine that serves the write is found. -/
theorem gaspOn_found {s : State} {e : Nat} {w : Work} (he : e < 4) (hw : (s.se e).work = some w) (hl : s.lgWork w = true) :
    ∃ v, (List.range 4).findSome? s.gaspOn = some v := by
  refine Option.isSome_iff_exists.mp (List.findSome?_isSome_iff.mpr ⟨e, List.mem_range.mpr he, ?_⟩)
  simp [State.gaspOn, hw, Option.filter, hl]
theorem lastGasp_writes {s : State} {e : Nat} {w : Work} (he : e < 4) (hw : (s.se e).work = some w) (hl : s.lgWork w = true)
    (hsurv : s.dmp.surviving = true) (hb : s.dmp.lgBegun = false) (hf : s.fastRun = true) :
    ∃ t, exec .lastGaspWrite s = .next t ∧ t.dmp.lgBegun = true ∧ t.dmp.selfRefresh = true ∧ t.pins.ready = false ∧ t.store = s.store ∧ t.host = s.host ∧
      (∀ b ∈ t.bursts, b.nor ≠ 0 → b.held = true) ∧
      (s.lgNewest = none → isErased (s.lgRecord 0) = true → t.nor = mwrite s.nor 0x100000 ((s.lgBytes 1).map (fun b => ~~~ b)) ∧ t.dmp.lgSeq = 1 ∧ t.dmp.lgWritten = true) := by
  obtain ⟨v, hv⟩ := gaspOn_found he hw hl
  have hoff : OffWork s.lgWrite ((s.lgWrite.endStrokesOf v).dropItem v) := (State.endStrokesOf_offWork _ v).trans (State.dropItem_offWork _ v)
  have hcond : (s.dmp.surviving && !s.dmp.lgBegun && s.fastRun) = true := by simp [hsurv, hb, hf]
  obtain ⟨hstore, hhost⟩ := lgWrite_memories s
  rw [exec_lastGaspWrite, State.lastGasp, hv]
  dsimp only
  rw [if_pos hcond]
  generalize (s.lgWrite.endStrokesOf v).dropItem v = u at hoff ⊢
  refine ⟨_, rfl, rfl, rfl, rfl, hoff.keeps.store.trans hstore, hoff.keeps.host.trans hhost, fun b hmem hnor => ?_, fun hn hera => ?_⟩
  · obtain ⟨c, -, rfl⟩ := List.mem_map.mp hmem
    split at hnor
    · next h => exact absurd h hnor
    · next h => rw [if_neg h]
  · obtain ⟨hwritten, hseq, hflag⟩ := lgWrite_first hn hera
    exact ⟨hoff.keeps.nor.trans hwritten, (congrArg Dmp.lgSeq hoff.dmp).trans hseq, (congrArg Dmp.lgWritten hoff.dmp).trans hflag⟩
theorem lastGasp_idle {s : State} (h : s.dmp.surviving = false ∨ (∀ e, e < 4 → ∀ w, (s.se e).work = some w → s.lgWork w = false)) :
    exec .lastGaspWrite s = .next s := by
  rw [exec_lastGaspWrite]
  refine congrArg _ ?_
  unfold State.lastGasp
  split
  · next v hv =>
    obtain ⟨e, hmem, hon⟩ := List.exists_of_findSome?_eq_some hv
    obtain ⟨hwork, hgasp⟩ := Option.filter_eq_some_iff.mp hon
    rcases h with h | h
    · simp [h]
    · rw [h e (List.mem_range.mp hmem) v hwork] at hgasp
      cases hgasp
  · rfl

/-! ### The end of survival and of hold-up -/

theorem gaspOver_offWork (s : State) : OffWork s s.gaspOver := by
  unfold State.gaspOver
  exact (OffWork.foldl (fun s w => (s.endStrokesOf_offWork w).trans (State.dropItem_offWork _ w)) _ s).trans ⟨State.mapItems_frame _ _⟩
theorem survivalEnd_ends {s : State} (hsurv : s.dmp.surviving = true) (hline : (s.line 17).level = false) :
    ∃ t, exec .survivalEnd s = .next t ∧
      t.dmp = { s.dmp with surviving := false, survDue := false, selfRefresh := if s.dmp.lgBegun then false else s.dmp.selfRefresh } ∧
      t.pins = { s.pins with ready := if s.dmp.lgBegun then true else s.pins.ready } ∧ (∀ b ∈ t.bursts, b.held = false) ∧
      t.store = s.store ∧ t.nor = s.nor ∧ t.host = s.host ∧ t.chips = s.chips := by
  have hoff := gaspOver_offWork s
  rw [exec_survivalEnd]
  simp only [State.survivalEnd, hsurv, hline, Bool.not_false, Bool.and_self, if_true, hoff.dmp, hoff.keeps.pins]
  refine ⟨_, rfl, rfl, rfl, fun b hmem => ?_, hoff.keeps.store, hoff.keeps.nor, hoff.keeps.host, hoff.keeps.chips⟩
  obtain ⟨c, -, rfl⟩ := List.mem_map.mp hmem
  rfl
theorem holdUpEnd_undrives {s : State} (hsurv : s.dmp.surviving = true) :
    ∃ t, exec .holdUpEnd s = .next t ∧ t.pins.dead = true ∧ t.pins.stopEn = 0 ∧ t.pins.trigEn = false ∧ t.pins.readyEn = false ∧ t.pins.ready = false ∧
      t.pins.qspiEn = false ∧ t.pins.dsEn = false ∧ t.pins.pcieTx = false ∧
      t.pwr.pllLock = false ∧ t.fuses = s.fuses ∧ t.nor = s.nor ∧ { t with pins := s.pins, pwr := s.pwr, chips := s.chips } = s := by
  rw [exec_holdUpEnd]
  simp only [State.holdUpEnd, hsurv, if_true, State.railsDown]
  generalize hu : State.mk .. = u
  obtain ⟨c, hrise⟩ := riseStops_eq u
  subst hu
  rw [hrise]
  exact ⟨_, rfl, rfl, rfl, rfl, rfl, rfl, rfl, rfl, rfl, rfl, rfl, rfl, rfl⟩
theorem survivalEnd_outside {s : State} (h : s.dmp.surviving = false) : exec .survivalEnd s = .next s := by
  rw [exec_survivalEnd]; simp [State.survivalEnd, h]
theorem holdUpEnd_outside {s : State} (h : s.dmp.surviving = false) : exec .holdUpEnd s = .next s := by
  rw [exec_holdUpEnd]; simp [State.holdUpEnd, h]

/-! ### Dumps disabled -/

theorem exec_dumpDisable_linked {s : State} (h : s.serves 0xC000 = true) : exec .dumpDisable s = .next s.linked.dumpDisable := by
  have hb : s.linked.bar0Write 0xC000 4 0 = s.linked.dumpDisable := by
    simp [State.bar0Write, served0_of_serves h, State.dumpEnable, bit]
  rw [exec_dumpDisable, hostWrite_of_serves h rfl (by decide) rfl (by decide) (by decide), hb]

/-- Between `s` and `t` work items have changed, but no descriptor of a ringless one. -/
structure SameTasks (s t : State) : Prop extends OffWork s t where
  below : s.freeBelow → t.freeBelow
  desc : ∀ k i, s.item? (.free k) = some i → ∃ j, t.item? (.free k) = some j ∧ j.desc = i.desc
theorem SameTasks.refl (s : State) : SameTasks s s := ⟨OffWork.refl s, id, fun _ i h => ⟨i, h, rfl⟩⟩
theorem SameTasks.setItem {s : State} {w : Work} {i j : Item} (hi : s.item? w = some i) (hj : j.desc = i.desc) : SameTasks s (s.setItem w j) where
  frame := s.setItem_frame w j
  below h := by
    cases w with
    | ring n => simpa [State.freeBelow, State.setItem] using h
    | scan => exact h
    | free k =>
      intro p hp
      obtain ⟨q, hq, rfl⟩ := List.mem_map.mp hp
      have := h q hq
      split
      · next e => exact e ▸ this
      · exact this
  desc k i' hi' := by
    by_cases hw : Work.free k = w
    · subst hw
      rw [hi] at hi'
      cases hi'
      exact ⟨j, State.item?_setItem (fun _ h => by cases h) hi, hj⟩
    · exact ⟨i', (item_setItem_ne s j hw).trans hi', rfl⟩
theorem Item.mark_desc (now : Nat) (i j : Item) : (Item.mark now i j).desc = j.desc := congrArg (·.1) (Item.task_mark now i j)
theorem SameTasks.updItem {f : Item → Item} (hf : ∀ i, (f i).desc = i.desc) (s : State) (w : Work) : SameTasks s (s.updItem w f) := by
  unfold State.updItem State.modItem
  split
  · next i hi => exact SameTasks.setItem hi ((Item.mark_desc _ _ _).trans (hf i))
  · exact SameTasks.refl s
/-- A dump that is stopped is the same dump (R456, R464). -/
theorem SameTasks.stopCtx (s : State) (n why code : Nat) : SameTasks s (s.stopCtx n why code) := by
  unfold State.stopCtx
  split
  · exact SameTasks.refl s
  · refine SameTasks.updItem (fun i => ?_) s _
    split <;> rfl

/-- What DMP_CTRL.ENABLE written 0 makes of dump context `n` (R464, R487). -/
def State.disableCtx (s : State) (n : Nat) : State :=
  match (s.ctx n).state with
  | .running | .parked => s.stopCtx n 1 disabledCode
  | .suspended => s.finishFree n
  | _ => s
theorem dumpDisable_eq {s : State} (h : s.dmp.enable = true) : s.dumpDisable =
    (List.range 5).foldl State.disableCtx { s with dmp := { s.dmp with enable := false, cache := [], cacheOdd := false } } := by
  simp only [State.dumpDisable, h, Bool.not_true, Bool.false_eq_true, if_false]
  rfl
theorem dumpDisable_of_disabled {s : State} (h : s.dmp.enable = false) : s.dumpDisable = s := by simp [State.dumpDisable, h]

/-- Context `n` is being finished by a ringless work item under the descriptor `d`. -/
def State.finishesFree (s : State) (n : Nat) (d : BitVec 512) : Prop :=
  (s.ctx n).state = .finishing ∧ ∃ k i, (s.ctx n).work = some (.free k) ∧ s.item? (.free k) = some i ∧ i.desc = d
/-- Between `s` and `t` the dumps of the contexts below `k` have been stopped, those SUSPENDED by work items of their own. -/
structure Disabled (s t : State) (k : Nat) : Prop where
  frame : { t with rings := s.rings, scan := s.scan, hub := s.hub, dmp := { t.dmp with ctx := s.dmp.ctx } } = s
  below : t.freeBelow
  finishes : ∀ n, n < k → (s.ctx n).state = .suspended → t.finishesFree n (s.ctx n).desc
  others : ∀ n, k ≤ n ∨ (s.ctx n).state ≠ .suspended → t.ctx n = s.ctx n

section
variable {s t : State} {k : Nat} (h : Disabled s t k)
include h
theorem Disabled.sameTasks {u : State} (hu : SameTasks t u) (hk : (s.ctx k).state ≠ .suspended) : Disabled s u (k + 1) where
  frame := by
    have := congrArg (fun v : State => { v with rings := s.rings, scan := s.scan, hub := s.hub, dmp := { v.dmp with ctx := s.dmp.ctx } }) hu.frame
    exact this.trans h.frame
  below := hu.below h.below
  finishes n hn hs := by
    have hctx : u.ctx n = t.ctx n := congrArg (fun d : Dmp => tget ({} : Ctx) d.ctx n) hu.dmp
    have hne : n ≠ k := fun e => hk (e ▸ hs)
    obtain ⟨hst, m, i, hw, hi, hd⟩ := h.finishes n (by omega) hs
    obtain ⟨j, hj, hji⟩ := hu.desc m i hi
    exact ⟨hctx ▸ hst, m, j, hctx ▸ hw, hj, hji.trans hd⟩
  others n hn := by
    have hctx : u.ctx n = t.ctx n := congrArg (fun d : Dmp => tget ({} : Ctx) d.ctx n) hu.dmp
    exact hctx.trans (h.others n (hn.imp_left Nat.le_of_succ_le))
theorem Disabled.finishFree (hk5 : k < 5) (hk : (s.ctx k).state = .suspended) : Disabled s (t.finishFree k) (k + 1) where
  frame := by
    unfold State.finishFree State.setCtx
    rw [if_pos hk5]
    exact h.frame
  below := by
    unfold State.finishFree
    have := freeBelow_addFree h.below
    simpa [State.freeBelow] using this _
  finishes n hn hs := by
    by_cases hnk : n = k
    · subst hnk
      have hdesc : (t.ctx n).desc = (s.ctx n).desc := congrArg Ctx.desc (h.others n (Or.inl le_rfl))
      unfold State.finishesFree State.finishFree
      dsimp only
      rw [State.ctx_setCtx_same _ _ _ hk5]
      exact ⟨rfl, _, _, rfl, (State.item?_setCtx _ _ _ _).trans (item?_addFree_new h.below _), hdesc⟩
    · obtain ⟨hst, m, i, hw, hi, hd⟩ := h.finishes n (by omega) hs
      unfold State.finishesFree State.finishFree
      dsimp only
      rw [State.ctx_setCtx_ne _ _ _ _ hnk]
      exact ⟨hst, m, i, hw, (State.item?_setCtx _ _ _ _).trans (item?_addFree_of_some hi _), hd⟩
  others n hn := by
    have hnk : n ≠ k := by
      rintro rfl
      exact hn.elim (by omega) (fun hs => hs hk)
    exact (State.ctx_setCtx_ne _ _ _ _ hnk).trans (h.others n (hn.imp_left Nat.le_of_succ_le))
theorem Disabled.disableCtx (hk5 : k < 5) : Disabled s (t.disableCtx k) (k + 1) := by
  have hctx : t.ctx k = s.ctx k := h.others k (Or.inl le_rfl)
  unfold State.disableCtx
  rw [hctx]
  split
  · next hs => exact h.sameTasks (SameTasks.stopCtx t k 1 disabledCode) (by simp [hs])
  · next hs => exact h.sameTasks (SameTasks.stopCtx t k 1 disabledCode) (by simp [hs])
  · next hs => exact h.finishFree hk5 hs
  · next hs => exact h.sameTasks (SameTasks.refl t) hs
end
theorem disabled_foldl {s : State} (h : s.freeBelow) {k : Nat} (hk : k ≤ 5) : Disabled s ((List.range k).foldl State.disableCtx s) k := by
  induction k with
  | zero => exact ⟨rfl, h, fun n hn => absurd hn n.not_lt_zero, fun _ _ => rfl⟩
  | succ k ih =>
    rw [List.range_succ, List.foldl_append]
    exact (ih (by omega)).disableCtx (by omega)
theorem dumpDisable_disabled {s : State} (hen : s.dmp.enable = true) (h : s.freeBelow) :
    Disabled { s with dmp := { s.dmp with enable := false, cache := [], cacheOdd := false } } s.dumpDisable 5 := by
  rw [dumpDisable_eq hen]
  refine disabled_foldl ?_ le_rfl
  exact h
theorem dumpDisable_disables {s : State} (hserve : s.serves 0xC000 = true) (hen : s.dmp.enable = true) (hbelow : s.freeBelow) :
    ∃ t, exec .dumpDisable s = .next t ∧ t.dmp.enable = false ∧ t.dmp.cache = [] ∧ t.dmp.plans = s.dmp.plans ∧ t.store = s.store ∧ t.host = s.host ∧ t.chips = s.chips ∧
      (∀ n, n < 5 → (s.ctx n).state = .suspended → (t.ctx n).state = .finishing ∧ ∃ k i, (t.ctx n).work = some (.free k) ∧ t.item? (.free k) = some i ∧ i.desc = (s.ctx n).desc) ∧
      (∀ n, n < 5 → (s.ctx n).state ≠ .suspended → t.ctx n = s.ctx n) := by
  obtain ⟨p, q, hl⟩ : ∃ p q, s.linked = { s with pins := p, pwr := q } := ⟨_, _, s.linked_frame⟩
  have hd := dumpDisable_disabled (s := { s with pins := p, pwr := q }) hen hbelow
  rw [exec_dumpDisable_linked hserve, hl]
  exact ⟨_, rfl, (congrArg (fun v : State => v.dmp.enable) hd.frame :), (congrArg (fun v : State => v.dmp.cache) hd.frame :),
    (congrArg (fun v : State => v.dmp.plans) hd.frame :), (congrArg State.store hd.frame :), (congrArg State.host hd.frame :),
    (congrArg State.chips hd.frame :), hd.finishes, fun n _ hs => hd.others n (Or.inr hs)⟩
theorem dumpDisable_again {s : State} (hserve : s.serves 0xC000 = true) (hen : s.dmp.enable = false) : exec .dumpDisable s = .next s.linked := by
  rw [exec_dumpDisable_linked hserve, dumpDisable_of_disabled ((congrArg (fun l : State => l.dmp.enable) s.linked_frame).trans hen)]

/-- Settles O44: the commands of survival, each where it acts and where it does not, and the write that disables dumps. -/
theorem survivalAndDumpDisable : Obligations.SurvivalAndDumpDisable :=
  ⟨fun _ => ⟨survivalStart_starts, fun _ _ => lastGasp_writes, survivalEnd_ends, holdUpEnd_undrives, lastGasp_idle,
     fun h => ⟨survivalEnd_outside h, holdUpEnd_outside h⟩⟩,
   fun _ hserve => ⟨dumpDisable_disables hserve, dumpDisable_again hserve⟩⟩

end Sys2Proof.Machine

/-! PROOFS. The clocks and the power controller (O2, O42, O43): what an AON edge applies, what a wake event, an activation and a chain's
change leave of the state, and the commands of sleep, wake, timer and PLL by what each makes of the power block. -/
namespace Sys2Proof.Machine

/-! ### What events, activations and chains change -/

/-- From `s` to `t` nothing has changed but the wake events of the power block, the Carillon with a record being formed, the chains
and the chips. -/
structure EdgeStep (s t : State) : Prop where
  frame : { t with pwr := { t.pwr with events := s.pwr.events, seen := s.pwr.seen, coming := s.pwr.coming }
                   car := s.car, htu := s.htu, bhv := s.bhv, chips := s.chips } = s
theorem EdgeStep.refl (s : State) : EdgeStep s s := ⟨rfl⟩
theorem EdgeStep.trans {s t u : State} (h : EdgeStep s t) (k : EdgeStep t u) : EdgeStep s u :=
  ⟨(congrArg (fun v : State => { v with pwr := { v.pwr with events := s.pwr.events, seen := s.pwr.seen, coming := s.pwr.coming }
                                        car := s.car, htu := s.htu, bhv := s.bhv, chips := s.chips }) k.frame).trans h.frame⟩
theorem EdgeStep.foldl {α : Type} {g : State → α → State} (hg : ∀ s x, EdgeStep s (g s x)) (l : List α) (s : State) : EdgeStep s (l.foldl g s) :=
  List.foldlRecOn (motive := fun t => EdgeStep s t) _ _ (EdgeStep.refl s) fun t ht x _ => ht.trans (hg t x)
section
variable {s t : State} (h : EdgeStep s t)
include h
theorem EdgeStep.now : t.now = s.now := (congrArg State.now h.frame :)
theorem EdgeStep.boot : t.boot = s.boot := (congrArg State.boot h.frame :)
theorem EdgeStep.pins : t.pins = s.pins := (congrArg State.pins h.frame :)
theorem EdgeStep.cfg : t.cfg = s.cfg := (congrArg State.cfg h.frame :)
theorem EdgeStep.fuses : t.fuses = s.fuses := (congrArg State.fuses h.frame :)
theorem EdgeStep.host : t.host = s.host := (congrArg State.host h.frame :)
theorem EdgeStep.store : t.store = s.store := (congrArg State.store h.frame :)
theorem EdgeStep.chainsDue : t.pwr.chainsDue = s.pwr.chainsDue := (congrArg (fun v : State => v.pwr.chainsDue) h.frame :)
theorem EdgeStep.pwrState : t.pwr.state = s.pwr.state := (congrArg (fun v : State => v.pwr.state) h.frame :)
end
theorem State.seeEvent_edgeStep (s : State) (edge code line : Nat) : EdgeStep s (s.seeEvent edge code line) := by
  unfold State.seeEvent
  dsimp only
  split <;> exact ⟨rfl⟩
theorem State.wakeEvent_edgeStep (s : State) (code line : Nat) : EdgeStep s (s.wakeEvent code line) := by
  unfold State.wakeEvent
  split
  · exact s.seeEvent_edgeStep _ code line
  · exact ⟨rfl⟩
theorem Activated.edgeStep {s t : State} (h : Activated s t) : EdgeStep s t := by
  obtain ⟨_, _, rfl⟩ := h
  exact ⟨rfl⟩
theorem State.setLine_edgeStep (s : State) (n : Nat) (v : Line) : EdgeStep s (s.setLine n v) := by
  unfold State.setLine; split <;> exact ⟨rfl⟩
theorem State.setQueue_edgeStep (s : State) (q : Nat) (v : Queue) : EdgeStep s (s.setQueue q v) := by
  unfold State.setQueue; split <;> exact ⟨rfl⟩
theorem State.setChain_edgeStep (s : State) (k : Nat) (c : Chain) : EdgeStep s (s.setChain k c) := by
  unfold State.setChain; split <;> exact ⟨rfl⟩
theorem State.setChip_edgeStep (s : State) (f : Nat) (c : Chip) : EdgeStep s (s.setChip f c) := by
  unfold State.setChip; split <;> exact ⟨rfl⟩

/-! ### Activations at a given time -/

/-- An activation of a source that is not in service is a matter of the sources alone. -/
theorem State.activateAt_free {s : State} {n : Nat} (h : s.inService n = false) (data t : Nat) :
    ∃ src, s.activateAt n data t = { s with car := { s.car with sources := src } } := by
  have hset (u : State) (v : Source) : ∃ src, u.setSrc n v = { u with car := { u.car with sources := src } } := by
    unfold State.setSrc; split <;> exact ⟨_, rfl⟩
  unfold State.activateAt State.judgeReady
  simp only [h, Bool.false_eq_true, if_false]
  obtain ⟨src, hsrc⟩ := hset s _
  rw [hsrc]
  split
  · exact hset { s with car := { s.car with sources := src } } _
  · exact ⟨src, rfl⟩
theorem State.activateAt_activated (s : State) (n data t : Nat) : Activated s (s.activateAt n data t) := by
  cases h : s.inService n with
  | false =>
    obtain ⟨src, hsrc⟩ := State.activateAt_free h data t
    exact ⟨src, s.htu.ops, hsrc⟩
  | true =>
    simp only [State.activateAt, h, if_true]
    split
    · exact s.joinRecord_activated ..
    · exact s.setSrc_activated n _
theorem Activated.line {s t : State} (h : Activated s t) (m : Nat) : t.line m = s.line m := by
  obtain ⟨_, _, rfl⟩ := h
  rfl
theorem State.line_wakeEvent (s : State) (code line m : Nat) : (s.wakeEvent code line).line m = s.line m := by
  have h := congrArg State.car (s.wakeEvent_frame code line s.pwr)
  unfold State.line
  rw [show (s.wakeEvent code line).car = s.car from h]

/-! ### Lines and coalescing at an AON edge (R314, R331) -/

/-- The line once an AON edge has applied what was written to it. -/
def Line.applied (l : Line) : Line :=
  match l.next with
  | none => l
  | some (f, high) => { l with filter := f, high := high, level := if high = l.high then l.level else !l.level, next := none }
theorem Line.applied_of_none {l : Line} (h : l.next = none) : l.applied = l := by simp only [Line.applied, h]
theorem Line.applied_of_some {l : Line} {f : Nat} {high : Bool} (h : l.next = some (f, high)) :
    l.applied = { l with filter := f, high := high, level := if high = l.high then l.level else !l.level, next := none } := by
  simp only [Line.applied, h]
theorem Line.applied_next (l : Line) : l.applied.next = none := by
  cases h : l.next with
  | none => rw [Line.applied_of_none h, h]
  | some w => rw [Line.applied_of_some h]

theorem State.lineApply_of_none {s : State} {n : Nat} (h : (s.line n).next = none) : s.lineApply n = s := by
  simp only [State.lineApply, h]
/-- Applying what was written writes the line, and beside that at most activates its source. -/
theorem State.lineApply_writes (s : State) (n : Nat) : (s.line n).next = none ∧ s.lineApply n = s ∨
    (s.lineApply n = s.setLine n (s.line n).applied ∨
      s.lineApply n = ((s.setLine n (s.line n).applied).activateAt n 1 (s.setLine n (s.line n).applied).edgeTime).lineEvent n) := by
  cases h : (s.line n).next with
  | none => exact Or.inl ⟨rfl, State.lineApply_of_none h⟩
  | some w =>
    right
    simp only [State.lineApply, h, Line.applied_of_some h, beq_iff_eq]
    generalize (if w.2 = (s.line n).high then (s.line n).level else !(s.line n).level) = level
    split
    · exact Or.inr rfl
    · exact Or.inl rfl
theorem State.lineApply_edgeStep (s : State) (n : Nat) : EdgeStep s (s.lineApply n) := by
  have hset := s.setLine_edgeStep n (s.line n).applied
  rcases s.lineApply_writes n with ⟨-, h⟩ | h | h
  · rw [h]; exact EdgeStep.refl s
  · rw [h]; exact hset
  · rw [h]; exact (hset.trans (State.activateAt_activated ..).edgeStep).trans (State.wakeEvent_edgeStep ..)
theorem State.line_lineApply {m : Nat} (hm : m < 32) (s : State) (n : Nat) :
    (s.lineApply n).line m = if m = n then (s.line m).applied else s.line m := by
  have hset : (s.setLine n (s.line n).applied).line m = if m = n then (s.line m).applied else s.line m := by
    by_cases hn : n < 32
    · rw [State.line_setLine s n m _ hn]
      split
      · next e => rw [e]
      · rfl
    · rw [if_neg (by omega), State.setLine, if_neg hn]
  rcases s.lineApply_writes n with ⟨hnone, h⟩ | h | h
  · rw [h]
    split
    · next e => rw [Line.applied_of_none (e ▸ hnone)]
    · rfl
  · rw [h, hset]
  · rw [h, State.lineEvent, State.line_wakeEvent, (State.activateAt_activated ..).line, hset]
theorem State.line_foldl_lineApply {m : Nat} (hm : m < 32) (l : List Nat) (s : State) :
    (l.foldl State.lineApply s).line m = if m ∈ l then (s.line m).applied else s.line m := by
  induction l generalizing s with
  | nil => rfl
  | cons n l ih =>
    rw [List.foldl_cons, ih, State.line_lineApply hm]
    by_cases hmn : m = n
    · simp only [hmn, if_true, List.mem_cons, true_or, Line.applied_of_none (Line.applied_next _), ite_self]
    · simp only [hmn, if_false, List.mem_cons, false_or]
theorem State.coalApply_of_none {s : State} {q : Nat} (h : (s.queue q).coalNew = none) : s.coalApply q = s := by
  simp only [State.coalApply, h]
theorem State.coalApply_edgeStep (s : State) (q : Nat) : EdgeStep s (s.coalApply q) := by
  unfold State.coalApply
  dsimp only
  split
  · exact EdgeStep.refl s
  · exact (s.setQueue_edgeStep q _).trans (State.rejudge_activated _ _).edgeStep
theorem State.line_coalApply (s : State) (q m : Nat) : (s.coalApply q).line m = s.line m := by
  unfold State.coalApply
  dsimp only
  split
  · rfl
  · rw [(State.rejudge_activated _ _).line, State.line_setQueue]
theorem State.line_foldl_coalApply (l : List Nat) (s : State) (m : Nat) : (l.foldl State.coalApply s).line m = s.line m :=
  List.foldlRecOn (motive := fun t : State => t.line m = s.line m) _ _ rfl fun t ht q _ => (t.line_coalApply q m).trans ht
theorem State.carEdge_edgeStep (s : State) : EdgeStep s s.carEdge :=
  (EdgeStep.foldl State.lineApply_edgeStep _ s).trans (EdgeStep.foldl State.coalApply_edgeStep _ _)
/-- A line that was written is one of the lines kept. -/
theorem mem_lines_of_next {s : State} {m : Nat} (h : (s.line m).next ≠ none) : m ∈ s.car.lines.map (·.1) := by
  unfold State.line at h
  split at h
  · next p hp =>
    have hkey := List.find?_some hp
    exact List.mem_map.mpr ⟨p, List.mem_of_find?_eq_some hp, by simpa using hkey⟩
  · exact absurd rfl h
theorem State.line_carEdge {m : Nat} (hm : m < 32) {s : State} (h : (s.line m).next ≠ none) : s.carEdge.line m = (s.line m).applied := by
  rw [State.carEdge, State.line_foldl_coalApply, State.line_foldl_lineApply hm, if_pos (mem_lines_of_next h)]
/-- Where nothing was written, the edge changes nothing of the Carillon. -/
theorem State.carEdge_of_quiet {s : State} (hl : ∀ n, (s.line n).next = none) (hq : ∀ q, (s.queue q).coalNew = none) : s.carEdge = s := by
  have hlines (l : List Nat) : l.foldl State.lineApply s = s :=
    List.foldlRecOn (motive := fun t : State => t = s) _ _ rfl fun t ht n _ => by rw [ht]; exact State.lineApply_of_none (hl n)
  unfold State.carEdge
  rw [hlines]
  exact List.foldlRecOn (motive := fun t : State => t = s) _ _ rfl fun t ht q _ => by rw [ht]; exact State.coalApply_of_none (hq q)

/-! ### Chains that idle and return -/

theorem State.unsync_edgeStep (s : State) (k lo : Nat) : EdgeStep s (s.unsync k lo) :=
  EdgeStep.foldl (fun s p => by
    split
    · exact s.setChip_edgeStep _ _
    · exact EdgeStep.refl s) _ s
theorem State.chainEvent_edgeStep (s : State) (k cause pos info : Nat) : EdgeStep s (s.chainEvent k cause pos info) :=
  (s.activate_activated _ _).edgeStep
theorem State.chainsUp_edgeStep (s : State) : EdgeStep s s.chainsUp :=
  EdgeStep.foldl (fun s k => by
    dsimp only
    split
    · exact (s.setChain_edgeStep k _).trans (State.chainEvent_edgeStep ..)
    · exact EdgeStep.refl s) _ s

/-! ### One tick (R107, R117, R118) -/

/-- Hub time after a tick. -/
def State.nextNow (s : State) : Nat := if s.fastClock then s.now + 1 else aonEdge (s.now + 1)
theorem State.nextNow_eq (s : State) : s.nextNow = if s.fastClock then s.now + 1 else (s.now / 1000 + 1) * 1000 := by
  have h : aonEdge (s.now + 1) = (s.now / 1000 + 1) * 1000 := by unfold aonEdge cdiv; omega
  rw [State.nextNow, h]
/-- The power block as an AON edge at `now` leaves it where no event comes: the wake timer counts, and tick 0 latches the enables. -/
def Pwr.counted (p : Pwr) (now : Nat) : Pwr :=
  { p with timer := p.timer - 1, timerHit := p.timerHit || p.timer == 1
           req := p.req.map (fun r => if r.latched.isNone && r.tick0 ≤ now then { r with latched := some (p.wakeEn, p.wakeLines) } else r) }
theorem Pwr.counted_req {p : Pwr} {r : SleepReq} {now : Nat} (h : p.req = some r) (hl : r.latched = none) (ht : r.tick0 ≤ now) :
    (p.counted now).req = some { r with latched := some (p.wakeEn, p.wakeLines) } := by simp [Pwr.counted, h, hl, ht]
/-- The state at an AON edge once the events of the last AON cycle are seen and the Carillon has applied what was written. -/
def State.edged (s : State) : State :=
  (s.pwr.coming.foldl (fun (s : State) (e : Nat × Nat) => s.seeEvent s.now e.1 e.2) { s with pwr := { s.pwr.counted s.now with coming := [] } }).carEdge
theorem State.aonTick_of_notDue {s : State} (h : s.edged.pwr.chainsDue = none) : s.aonTick = s.edged := by
  unfold State.aonTick
  dsimp only
  split
  · next t ht => exact absurd (ht.symm.trans h) (Option.some_ne_none t)
  · rfl
theorem State.aonTick_quiet {s : State} (hc : s.pwr.coming = []) (hd : s.pwr.chainsDue = none) :
    s.aonTick = State.carEdge { s with pwr := s.pwr.counted s.now } := by
  have hpwr : { s.pwr.counted s.now with coming := [] } = s.pwr.counted s.now := by rw [← hc]; rfl
  have hedged : s.edged = State.carEdge { s with pwr := s.pwr.counted s.now } := by
    unfold State.edged
    rw [hc, List.foldl_nil, hpwr]
  rw [State.aonTick_of_notDue, hedged]
  rw [hedged]
  exact (State.carEdge_edgeStep _).chainsDue.trans hd
/-- An edge is none of the boot's and moves no time. -/
theorem State.aonTick_keeps (s : State) : s.aonTick.now = s.now ∧ s.aonTick.boot = s.boot := by
  unfold State.aonTick
  extract_lets _ _ p t u v
  have hv : EdgeStep t v := (EdgeStep.foldl (fun (s : State) (e : Nat × Nat) => s.seeEvent_edgeStep _ e.1 e.2) _ t).trans (State.carEdge_edgeStep u)
  have hkeeps : v.now = s.now ∧ v.boot = s.boot := ⟨hv.now, hv.boot⟩
  clear_value v
  split
  · split
    · have hup := State.chainsUp_edgeStep { v with pwr := { v.pwr with chainsDue := none } }
      exact ⟨hup.now.trans hkeeps.1, hup.boot.trans hkeeps.2⟩
    · exact hkeeps
  · exact hkeeps
theorem State.rebootReset_of_none {s : State} (h : s.boot.resetDue = none) : s.rebootReset = s := by simp only [State.rebootReset, h]
theorem step_of_idle {s : State} (h : s.pending = []) : step s = .next s.tick := by simp only [step, h]
section
variable {s : State} (hb : s.boot.resetDue = none)
include hb
theorem State.tick_offEdge (h : s.nextNow % 1000 ≠ 0) : s.tick = { s with now := s.nextNow } := by
  unfold State.tick
  dsimp only
  rw [← State.nextNow, if_neg h]
  exact State.rebootReset_of_none hb
theorem State.tick_atEdge (h : s.nextNow % 1000 = 0) : s.tick = State.aonTick { s with now := s.nextNow } := by
  unfold State.tick
  dsimp only
  rw [← State.nextNow, if_pos h]
  exact State.rebootReset_of_none ((congrArg Boot.resetDue (State.aonTick_keeps _).2).trans hb)
theorem State.tick_now : s.tick.now = s.nextNow := by
  by_cases h : s.nextNow % 1000 = 0
  · rw [State.tick_atEdge hb h]; exact (State.aonTick_keeps _).1
  · rw [State.tick_offEdge hb h]
/-- At an edge that no event comes to, the wake timer counts and the Carillon applies what was written to it. -/
theorem State.tick_quiet (h : s.nextNow % 1000 = 0) (hc : s.pwr.coming = []) (hd : s.pwr.chainsDue = none) :
    s.tick = State.carEdge { s with now := s.nextNow, pwr := s.pwr.counted s.nextNow } :=
  (State.tick_atEdge hb h).trans (State.aonTick_quiet (s := { s with now := s.nextNow }) hc hd)
end

/-- Settles O2: time by the clock that runs, a line by what the Carillon's edge applies, and a quiet edge by the power block alone. -/
theorem emptyQueueTicksTheClocks : Obligations.EmptyQueueTicksTheClocks := by
  intro s hp hb
  have hnow := State.tick_now hb
  refine ⟨s.tick, step_of_idle hp, hnow.trans s.nextNow_eq, fun hoff => ?_, fun hedge hc hd => ⟨fun n f h hn hnext => ?_, fun hl hq => ?_⟩⟩
  · rw [State.tick_offEdge hb (hnow ▸ hoff)]
  · have happlied : s.tick.line n = (s.line n).applied := by
      rw [State.tick_quiet hb (hnow ▸ hedge) hc hd]
      exact State.line_carEdge hn (s := { s with now := s.nextNow, pwr := s.pwr.counted s.nextNow }) (hnext.symm ▸ Option.some_ne_none _ :)
    rw [happlied, Line.applied_of_some hnext]
    exact ⟨rfl, rfl, rfl, rfl⟩
  · have hquiet : s.tick = { s with now := s.nextNow, pwr := s.pwr.counted s.nextNow } :=
      (State.tick_quiet hb (hnow ▸ hedge) hc hd).trans (State.carEdge_of_quiet hl hq)
    rw [hquiet]
    exact ⟨rfl, rfl, rfl, rfl, fun r hr hlatch ht => Pwr.counted_req hr hlatch ht⟩

/-! ### Sleep commitment (R117, R123) -/

theorem exec_sleepCommit (s : State) : exec .sleepCommit s = .next s.sleepCommit := rfl
theorem exec_dozeEntry (s : State) : exec .dozeEntry s = .next s.dozeEntry := rfl
theorem exec_offEntry (s : State) : exec .offEntry s = .next s.offEntry := rfl
theorem bit_or_two_pow_self (n k : Nat) : bit (n ||| 2 ^ k) k = true := by
  rw [bit, Nat.testBit_or, Nat.testBit_two_pow_self, Bool.or_true]
/-- The only event seen in time is the one a decision names. -/
theorem firstEvent_filter_singleton {e : Nat × Nat × Nat} {p : Nat × Nat × Nat → Bool} (h : p e = true) : firstEvent ([e].filter p) = some e := by
  rw [List.filter_cons_of_pos h, List.filter_nil]
  rfl
section
variable {s : State} {r : SleepReq} (hr : s.pwr.req = some r) (hc : r.committed = false) (ht : r.tick0 + 1000 ≤ s.now)
include hr hc ht
theorem sleepCommit_commits (hs : s.pwr.seen = []) :
    (r.target = 1 → exec .sleepCommit s = .next { s with
      pwr := { s.pwr with state := .idle, req := none, reqBy := some r.by_, lastTarget := 1, aborted := false, entering := false, commits := satAdd s.pwr.commits 1 16 }
      dmp := { s.dmp with selfRefresh := true } }) ∧
    (r.target ≠ 1 → exec .sleepCommit s = .next { s with pwr := { s.pwr with
      req := some { r with committed := true }, lastTarget := r.target, aborted := false, entering := false, commits := satAdd s.pwr.commits 1 16 } }) := by
  have hearly : ¬ s.now < r.tick0 + 1000 := Nat.not_lt.mpr ht
  rw [exec_sleepCommit]
  simp only [State.sleepCommit, hr, hc, hearly, hs, List.filter_nil, firstEvent, Bool.false_eq_true, or_self, if_false]
  refine ⟨fun htarget => ?_, fun htarget => ?_⟩
  · simp only [htarget, if_true]
  · simp only [htarget, if_false]
theorem sleepCommit_aborts {at_ code line : Nat} (hs : s.pwr.seen = [(at_, code, line)]) (ha : at_ ≤ r.tick0 + 1000) :
    s.sleepCommit = State.wakeSleeper { s with pwr := s.pwr.abort code line } r.by_ false := by
  have hearly : ¬ s.now < r.tick0 + 1000 := Nat.not_lt.mpr ht
  have hfirst := firstEvent_filter_singleton (e := (at_, code, line)) (p := fun e => e.1 ≤ r.tick0 + 1000) (decide_eq_true ha)
  simp only [State.sleepCommit, hr, hc, hearly, hs, hfirst, Bool.false_eq_true, or_self, if_false]
theorem sleepCommit_aborted {at_ code line : Nat} (hs : s.pwr.seen = [(at_, code, line)]) (ha : at_ ≤ r.tick0 + 1000) :
    ∃ t, exec .sleepCommit s = .next t ∧ t.pwr.req = none ∧ t.pwr.aborted = true ∧ t.pwr.aborts = satAdd s.pwr.aborts 1 16 ∧ t.pwr.wakeSrc = code ∧
      t.pwr.state = s.pwr.state ∧ t.pwr.commits = s.pwr.commits ∧ bit t.pwr.events 9 = true := by
  have hpwr : s.sleepCommit.pwr = s.pwr.abort code line := by
    rw [sleepCommit_aborts hr hc ht hs ha]
    exact (State.updItem_offWork _ r.by_ _).keeps.pwr
  exact ⟨_, exec_sleepCommit s, hpwr ▸ ⟨rfl, rfl, rfl, rfl, rfl, rfl, bit_or_two_pow_self _ 9⟩⟩
end

/-! ### Chains that idle (R371) -/

/-- What DOZE makes of a chain. -/
def Chain.idled (c : Chain) : Chain := if c.state = .up then { c with state := .eIdle, symbol := [] } else c
theorem Chain.idled_state (c : Chain) : c.idled.state = if c.state = .up then .eIdle else c.state := by
  unfold Chain.idled; split <;> rfl
/-- Chain `k` enters E_IDLE if it is UP. -/
def State.chainIdle (s : State) (k : Nat) : State :=
  if (s.chain k).state = .up then ((s.setChain k (s.chain k).idled).unsync k 0).chainEvent k 1 0 0 else s
theorem State.chainsIdle_eq (s : State) : s.chainsIdle = (List.range 8).foldl State.chainIdle s := by
  have hstep : State.chainIdle = fun s k => if (s.chain k).state = .up then
      ((s.setChain k { s.chain k with state := .eIdle, symbol := [] }).unsync k 0).chainEvent k 1 0 0 else s := by
    funext s k
    unfold State.chainIdle Chain.idled
    split <;> rfl
  rw [hstep]
  rfl
theorem State.chainIdle_edgeStep (s : State) (k : Nat) : EdgeStep s (s.chainIdle k) := by
  unfold State.chainIdle
  split
  · exact ((s.setChain_edgeStep k _).trans (State.unsync_edgeStep _ k 0)).trans (State.chainEvent_edgeStep ..)
  · exact EdgeStep.refl s
theorem State.chainsIdle_edgeStep (s : State) : EdgeStep s s.chainsIdle := by
  rw [State.chainsIdle_eq]
  exact EdgeStep.foldl State.chainIdle_edgeStep _ s
theorem State.chain_unsync (s : State) (k lo m : Nat) : (s.unsync k lo).chain m = s.chain m :=
  List.foldlRecOn (motive := fun t : State => t.chain m = s.chain m) _ _ rfl fun t ht p _ => by
    split
    · rw [State.chain_setChip, ht]
    · exact ht
theorem Activated.chain {s t : State} (h : Activated s t) (m : Nat) : t.chain m = s.chain m := by
  obtain ⟨_, _, rfl⟩ := h
  rfl
theorem State.chain_chainIdle {k : Nat} (hk : k < 8) (s : State) (m : Nat) :
    (s.chainIdle k).chain m = if m = k then (s.chain k).idled else s.chain m := by
  unfold State.chainIdle
  split
  · rw [State.chainEvent, (State.activate_activated ..).chain, State.chain_unsync, State.chain_setChain _ _ _ _ hk]
  · next h =>
    split
    · next e => rw [e, Chain.idled, if_neg h]
    · rfl
theorem State.chain_foldl_chainIdle {n : Nat} (hn : n ≤ 8) (s : State) (m : Nat) :
    ((List.range n).foldl State.chainIdle s).chain m = if m < n then (s.chain m).idled else s.chain m := by
  induction n generalizing m with
  | zero => rfl
  | succ n ih =>
    rw [List.range_succ, List.foldl_append, List.foldl_cons, List.foldl_nil, State.chain_chainIdle (by omega), ih (by omega), ih (by omega)]
    rcases Nat.lt_trichotomy m n with h | rfl | h
    · rw [if_neg (by omega), if_pos h, if_pos (by omega)]
    · rw [if_pos rfl, if_neg (by omega), if_pos (by omega)]
    · rw [if_neg (by omega), if_neg (by omega), if_neg (by omega)]

/-! ### Entry to DOZE and OFF (R109, R117, R124, R129) -/

theorem dozeEntry_enters {s : State} {r : SleepReq} (hr : s.pwr.req = some r) (hc : r.committed = true) (h2 : r.tick2 = false)
    (ht : r.tick0 + 2000 ≤ s.now) :
    ∃ t, exec .dozeEntry s = .next t ∧ t.pwr.pllLock = false ∧ t.dmp.selfRefresh = true ∧ t.pins.l1 = (s.pins.linkUp && bit s.cfg.linkCtl 1) ∧
      (∀ k, k < 8 → (t.chain k).state = (if (s.chain k).state = .up then .eIdle else (s.chain k).state)) ∧ t.host = s.host ∧ t.store = s.store ∧ t.fuses = s.fuses ∧
      (r.target = 2 → t.pwr.state = .doze ∧ t.pwr.req = none ∧ t.pwr.reqBy = some r.by_) ∧
      (r.target ≠ 2 → t.pwr.state = s.pwr.state ∧ t.pwr.req = some { r with tick2 := true }) := by
  have hearly : ¬ s.now < r.tick0 + 2000 := Nat.not_lt.mpr ht
  have hu := s.chainsIdle_edgeStep
  have hchain (k : Nat) (hk : k < 8) : (s.chainsIdle.chain k).state = if (s.chain k).state = .up then .eIdle else (s.chain k).state := by
    rw [State.chainsIdle_eq, State.chain_foldl_chainIdle le_rfl, if_pos hk, Chain.idled_state]
  have hl1 : (s.chainsIdle.pins.linkUp && bit s.chainsIdle.cfg.linkCtl 1) = (s.pins.linkUp && bit s.cfg.linkCtl 1) := by rw [hu.pins, hu.cfg]
  rw [exec_dozeEntry]
  simp only [State.dozeEntry, hr, hc, h2, hearly, Bool.not_true, Bool.false_eq_true, or_self, if_false]
  generalize s.chainsIdle = u at hu hchain hl1
  by_cases htarget : r.target = 2
  · rw [if_pos htarget]
    exact ⟨_, rfl, rfl, rfl, hl1, hchain, hu.host, hu.store, hu.fuses, fun _ => ⟨rfl, rfl, rfl⟩, fun h => absurd htarget h⟩
  · rw [if_neg htarget]
    exact ⟨_, rfl, rfl, rfl, hl1, hchain, hu.host, hu.store, hu.fuses, fun h => absurd h htarget, fun _ => ⟨hu.pwrState, rfl⟩⟩

theorem unsyncChips_eq (l : List Nat) (s : State) :
    ∃ c, l.foldl (fun (s : State) f => s.setChip f { s.chip f with synced := false }) s = { s with chips := c } :=
  List.foldlRecOn (motive := fun t : State => ∃ c, t = { s with chips := c }) _ _ ⟨s.chips, rfl⟩ fun t ht f _ => by
    obtain ⟨c, rfl⟩ := ht
    unfold State.setChip
    split <;> exact ⟨_, rfl⟩
theorem State.carBoot_keeps (s : State) : Keeps s s.carBoot := by
  unfold State.carBoot
  exact Keeps.after (State.rejudge_activated _ _).keeps rfl
/-- What a reset of the fast domain leaves as it is (Table 5.1, Table 19.1). -/
theorem fastReset_keeps (s : State) :
    s.fastReset.store = s.store ∧ s.fastReset.host = s.host ∧ s.fastReset.fuses = s.fuses ∧ s.fastReset.pwr = s.pwr ∧
      s.fastReset.lcs.state = s.lcs.state ∧ s.fastReset.car.lines = s.car.lines ∧
      ((∀ b ∈ s.bursts, b.nor ≠ 1 ∧ b.nor ≠ 2) → s.fastReset.nor = s.nor) := by
  obtain ⟨k, m, hdrop⟩ := dropNor_eq s
  have hnor (h : ∀ b ∈ s.bursts, b.nor ≠ 1 ∧ b.nor ≠ 2) : m = s.nor := congrArg State.nor (hdrop.symm.trans (dropNor_of_none h))
  obtain ⟨c, hchips⟩ := unsyncChips_eq (s.chips.map (·.1)) { s with freeIx := k, nor := m }
  have hkeeps := State.carBoot_keeps { s with freeIx := k, nor := m, chips := c }
  unfold State.fastReset
  rw [hdrop]
  dsimp only
  rw [hchips]
  exact ⟨hkeeps.store, hkeeps.host, hkeeps.fuses, hkeeps.pwr, congrArg Lcs.state hkeeps.lcs, hkeeps.lines, fun h => hkeeps.nor.trans (hnor h)⟩
theorem offEntry_enters {s : State} {r : SleepReq} (hr : s.pwr.req = some r) (htarget : r.target = 3) (h2 : r.tick2 = true)
    (ht : r.tick0 + 3000 ≤ s.now) :
    ∃ t, exec .offEntry s = .next t ∧ t.pwr.state = .off ∧ t.pwr.req = none ∧ t.rings = [] ∧ t.counters = [] ∧ t.hub = {} ∧ t.auth = {} ∧ t.boot.fw = [] ∧
      (∀ k, t.chain k = {}) ∧ t.store = s.store ∧ ((∀ b ∈ s.bursts, b.nor ≠ 1 ∧ b.nor ≠ 2) → t.nor = s.nor) ∧ t.fuses = s.fuses ∧ t.host = s.host ∧
      t.lcs.state = s.lcs.state ∧ t.pwr.wakeEn = s.pwr.wakeEn ∧ t.car.lines = s.car.lines := by
  have hearly : ¬ s.now < r.tick0 + 3000 := Nat.not_lt.mpr ht
  obtain ⟨hstore, hhost, hfuses, hpwr, hlcs, hlines, hnor⟩ := fastReset_keeps s
  rw [exec_offEntry]
  simp only [State.offEntry, hr, htarget, h2, hearly, Bool.not_true, Bool.false_eq_true, ne_eq, not_true_eq_false, or_self, if_false]
  exact ⟨_, rfl, rfl, rfl, rfl, rfl, rfl, rfl, rfl, fun _ => rfl, hstore, hnor, hfuses, hhost, hlcs, (congrArg Pwr.wakeEn hpwr :), hlines⟩

/-- Settles O42: the commit edge by what was seen, then tick 2 with its chains, and tick 3 with the reset of the fast domain. -/
theorem sleepCommitsAndEnters : Obligations.SleepCommitsAndEnters :=
  ⟨fun _ _ hr hc ht => ⟨sleepCommit_commits hr hc ht, fun _ _ _ hs ha => sleepCommit_aborted hr hc ht hs ha⟩,
   fun _ _ hr => ⟨dozeEntry_enters hr, offEntry_enters hr⟩⟩

/-! ### Wakes (R116, R118, R120, R121, R124) -/

theorem exec_wake (s : State) : exec .wake s = .next s.wake := rfl
theorem exec_wakeComplete (s : State) : exec .wakeComplete s = .next s.wakeDone.serveHeld := rfl
theorem serveHeld_of_none {s : State} (h : s.held = []) : s.serveHeld = s := by
  have hs : { s with held := [] } = s := by rw [← h]
  unfold State.serveHeld
  rw [h, List.foldl_nil, hs, ite_self]
theorem wake_wakes {s : State} {at_ code line : Nat} (hst : s.pwr.state ≠ .run) (hw : s.pwr.waking = none) (hs : s.pwr.seen = [(at_, code, line)])
    (ha : at_ ≤ s.now) :
    ∃ t, exec .wake s = .next t ∧ t.pwr.waking = some (at_, s.pwr.state) ∧ t.pwr.wakeSrc = code ∧ t.pwr.state = s.pwr.state ∧
      (s.pwr.state = .off → t.boot.due = some 1 ∧ t.boot.tick0 = at_ ∧ t.boot.stage = 0) ∧ (s.pwr.state ≠ .off → t.boot = s.boot) ∧ t.rings = s.rings ∧ t.chips = s.chips := by
  have hfirst := firstEvent_filter_singleton (e := (at_, code, line)) (p := fun e => e.1 ≤ s.now) (decide_eq_true ha)
  rw [exec_wake]
  simp only [State.wake, hst, hw, hs, hfirst, Option.isSome_none, Bool.false_eq_true, or_self, if_false]
  by_cases hoff : s.pwr.state = .off
  · rw [if_pos hoff]
    exact ⟨_, rfl, rfl, rfl, rfl, fun _ => ⟨rfl, rfl, rfl⟩, fun h => absurd hoff h, rfl, rfl⟩
  · rw [if_neg hoff]
    exact ⟨_, rfl, rfl, rfl, rfl, fun h => absurd h hoff, fun _ => rfl, rfl, rfl⟩
theorem wake_awake {s : State} (h : s.pwr.state = .run) : exec .wake s = .next s := by
  rw [exec_wake, State.wake, if_pos (Or.inl h)]
theorem State.linkWake_frame (s : State) : s.linkWake = { s with pins := s.linkWake.pins, pwr := s.linkWake.pwr } := by
  unfold State.linkWake
  split
  · unfold State.wakeEvent; split <;> rfl
  · rfl
theorem OffWork.src {s t : State} (h : OffWork s t) (n : Nat) : t.src n = s.src n := by
  unfold State.src; rw [h.car]
theorem OffWork.held {s t : State} (h : OffWork s t) : t.held = s.held := (congrArg State.held h.frame :)
theorem Activated.held {s t : State} (h : Activated s t) : t.held = s.held := by
  obtain ⟨_, _, rfl⟩ := h
  rfl
section
variable {s : State} {e : Nat} {st : PwrState} (hw : s.pwr.waking = some (e, st))
include hw
/-- The hub in RUN once the wake is complete, before source 180 activates and the SLEEP goes on. -/
theorem wakeDone_reaches (hoff : st ≠ .off) (hlock : s.pwr.pllLock = true) (ht : e + 1000 * wakeTicks st ≤ s.now) :
    ∃ (u : State) (data : Nat), OffWork (u.activate 180 data) s.wakeDone ∧ u.held = s.held ∧ u.inService 180 = s.inService 180 ∧ u.host = s.host ∧ u.store = s.store ∧
      u.pwr.state = .run ∧ u.pwr.waking = none ∧ u.pwr.wakeTime = Nat.min (cdiv (s.now - e) 1000) (2 ^ 32 - 1) ∧
      (st = .doze → u.pwr.chainsDue = some (e + 85000)) ∧ u.dmp.selfRefresh = false := by
  have hearly : ¬ s.now < e + 1000 * wakeTicks st := Nat.not_lt.mpr ht
  obtain ⟨p, q, hl⟩ : ∃ p q, s.linkWake = { s with pins := p, pwr := q } := ⟨_, _, s.linkWake_frame⟩
  simp only [State.wakeDone, hw, hoff, hlock, hearly, Bool.not_true, Bool.false_eq_true, or_self, if_false, hl]
  split
  · exact ⟨_, _, State.updItem_offWork _ _ _, rfl, rfl, rfl, rfl, rfl, rfl, rfl, fun h => if_pos h, rfl⟩
  · exact ⟨_, _, OffWork.refl _, rfl, rfl, rfl, rfl, rfl, rfl, rfl, fun h => if_pos h, rfl⟩
theorem wakeComplete_completes (hoff : st ≠ .off) (hlock : s.pwr.pllLock = true) (ht : e + 1000 * wakeTicks st ≤ s.now) (hheld : s.held = [])
    (hserv : s.inService 180 = false) :
    ∃ t, exec .wakeComplete s = .next t ∧ t.pwr.state = .run ∧ t.pwr.waking = none ∧ t.pwr.wakeTime = Nat.min (cdiv (s.now - e) 1000) (2 ^ 32 - 1) ∧
      (st = .doze → t.pwr.chainsDue = some (e + 85000)) ∧
      t.dmp.selfRefresh = false ∧ (t.src 180).pending = true ∧ t.host = s.host ∧ t.store = s.store := by
  obtain ⟨u, data, hwork, huheld, huserv, huhost, hustore, hstate, hwaking, htime, hdue, hdmp⟩ := wakeDone_reaches hw hoff hlock ht
  have hact := u.activate_activated 180 data
  have hpend := State.activate_pending (s := u) (n := 180) (by decide) (huserv.trans hserv) data
  have hkeeps : Keeps u s.wakeDone := hact.keeps.trans hwork.keeps
  have hnone : s.wakeDone.held = [] := by rw [hwork.held, hact.held, huheld, hheld]
  refine ⟨s.wakeDone, by rw [exec_wakeComplete, serveHeld_of_none hnone], ?_⟩
  rw [hkeeps.pwr, hwork.dmp, hact.dmp, hwork.src, hkeeps.host, hkeeps.store]
  exact ⟨hstate, hwaking, htime, hdue, hdmp, hpend, huhost, hustore⟩
theorem wakeComplete_early (hheld : s.held = []) (ht : s.now < e + 1000 * wakeTicks st) : exec .wakeComplete s = .next s := by
  have hdone : s.wakeDone = s := by simp only [State.wakeDone, hw, ht, or_true, if_true]
  rw [exec_wakeComplete, hdone, serveHeld_of_none hheld]
end

/-! ### The wake timer and the PLL (R108, R118, R128) -/

theorem exec_pwrTimerExpiry (s : State) : exec .pwrTimerExpiry s = .next s.timerExpiry := rfl
theorem exec_pllUnlock (s : State) : exec .pllUnlock s = .next s.pllUnlock := rfl
theorem exec_pllLock (s : State) : exec .pllLock s = .next s.pllLocked.serveHeld := rfl
theorem State.seeEvent_frame (s : State) (edge code line : Nat) (p : Pwr) :
    { s.seeEvent edge code line with pwr := p } = { s with pwr := p } := rfl
theorem State.seeEvent_timerHit (s : State) (edge code line : Nat) : (s.seeEvent edge code line).pwr.timerHit = s.pwr.timerHit :=
  (congrArg (fun v : State => v.pwr.timerHit) (s.seeEvent_edgeStep edge code line).frame :)
theorem timerExpiry_expires {s : State} (h : s.pwr.timerHit = true) :
    ∃ t, exec .pwrTimerExpiry s = .next t ∧ t.pwr.timerHit = false ∧ bit t.pwr.events 4 = true ∧ { t with pwr := s.pwr } = s ∧ t.pwr.state = s.pwr.state := by
  rw [exec_pwrTimerExpiry, State.timerExpiry, if_pos h]
  refine ⟨_, rfl, State.seeEvent_timerHit .., ?_, State.seeEvent_frame .., (State.seeEvent_edgeStep ..).pwrState⟩
  rw [State.seeEvent_events]
  exact bit_or_two_pow_self _ 4
theorem timerExpiry_waits {s : State} (h : s.pwr.timerHit = false) : exec .pwrTimerExpiry s = .next s := by
  rw [exec_pwrTimerExpiry, State.timerExpiry, h, if_neg Bool.false_ne_true]
theorem pllUnlock_unlocks {s : State} (hf : s.fastClock = true) (hserv : s.inService 181 = false) :
    ∃ t, exec .pllUnlock s = .next t ∧ t.pwr.pllLock = false ∧ t.pwr.pllOff = some s.now ∧ bit t.pwr.events 10 = true ∧ (t.src 181).pending = true ∧
      t.pwr.state = s.pwr.state ∧ { t with pwr := s.pwr, car := s.car } = s := by
  rw [exec_pllUnlock, State.pllUnlock, if_pos hf]
  generalize hu : ({ s with pwr := _ } : State) = u
  have huserv : u.inService 181 = false := hu ▸ hserv
  have hpend := State.activate_pending (n := 181) (by decide) huserv 0
  obtain ⟨src, hsrc⟩ := State.activateAt_free huserv 0 u.time
  rw [State.activate, hsrc] at hpend ⊢
  subst hu
  exact ⟨_, rfl, rfl, rfl, bit_or_two_pow_self _ 10, hpend, rfl, rfl⟩

/-- An engine at work once what a gating from hub cycle `g` on froze goes on at `now`. -/
def StrokeEngine.ungated (v : StrokeEngine) (s : State) (g : Nat) : StrokeEngine :=
  if v.work.isSome then { v with started := s.pastGate g v.started, waiting := v.waiting.map (fun p => (p.1, s.pastGate g p.2)) } else v
def State.ungateEngine (g : Nat) (s : State) (e : Nat) : State := if (s.se e).work.isSome then s.setSe e ((s.se e).ungated s g) else s
theorem ungateEngine_offWork (g : Nat) (s : State) (e : Nat) : OffWork s (s.ungateEngine g e) := by
  unfold State.ungateEngine
  split
  · exact s.setSe_offWork e _
  · exact OffWork.refl s
theorem State.se_ungateEngine {e : Nat} (he : e < 4) (g : Nat) (s : State) (x : Nat) :
    (State.ungateEngine g s e).se x = if x = e then (s.se e).ungated s g else s.se x := by
  unfold State.ungateEngine
  split
  · rw [State.se_setSe _ _ _ _ he]
  · next h =>
    split
    · next hx => rw [hx, StrokeEngine.ungated, if_neg h]
    · rfl

theorem StrokeEngine.ungated_of_now {s t : State} (h : t.now = s.now) (v : StrokeEngine) (g : Nat) : v.ungated t g = v.ungated s g := by
  unfold StrokeEngine.ungated State.pastGate; rw [h]
theorem StrokeEngine.ungated_started {v : StrokeEngine} (h : v.work ≠ none) (s : State) (g : Nat) : (v.ungated s g).started = s.pastGate g v.started := by
  rw [StrokeEngine.ungated, if_pos (Option.isSome_iff_ne_none.mpr h)]
theorem OffWork.now {s t : State} (h : OffWork s t) : t.now = s.now := (congrArg State.now h.frame :)
theorem State.se_foldl_ungateEngine {n : Nat} (hn : n ≤ 4) (g : Nat) (s : State) (x : Nat) :
    ((List.range n).foldl (State.ungateEngine g) s).se x = if x < n then (s.se x).ungated s g else s.se x := by
  induction n generalizing x with
  | zero => rfl
  | succ n ih =>
    have hnow := (OffWork.foldl (ungateEngine_offWork g) (List.range n) s).now
    rw [List.range_succ, List.foldl_append, List.foldl_cons, List.foldl_nil, State.se_ungateEngine (by omega),
      StrokeEngine.ungated_of_now hnow, ih (by omega), ih (by omega)]
    rcases Nat.lt_trichotomy x n with h | rfl | h
    · rw [if_neg (by omega), if_pos h, if_pos (by omega)]
    · rw [if_pos rfl, if_neg (by omega), if_pos (by omega)]
    · rw [if_neg (by omega), if_neg (by omega), if_neg (by omega)]
theorem State.se_mapItems (s : State) (f : Work → Item → Item) (x : Nat) : (s.mapItems f).se x = s.se x :=
  List.foldlRecOn (motive := fun t : State => t.se x = s.se x) _ _ rfl fun t ht w _ => (t.se_modItem w (f w) x).trans ht
theorem State.mapChains_eq (s : State) (h : Chain → Chain) : ∃ b, s.mapChains h = { s with bhv := b } := ⟨_, rfl⟩
/-- The engines go on, then every work item and every chain. -/
theorem State.ungate_eq (s : State) (g : Nat) : ∃ f h, s.ungate g = (((List.range 4).foldl (State.ungateEngine g) s).mapItems f).mapChains h := by
  have hstep : State.ungateEngine g = fun s e => if (s.se e).work.isSome then
      s.setSe e { s.se e with started := s.pastGate g (s.se e).started, waiting := (s.se e).waiting.map (fun p => (p.1, s.pastGate g p.2)) } else s := by
    funext s e
    unfold State.ungateEngine StrokeEngine.ungated
    split <;> rfl
  rw [hstep]
  unfold State.ungate
  exact ⟨_, _, rfl⟩
/-- What a gating froze goes on, and the power block, what is held, and the memories stay as they are (R128). -/
theorem ungate_resumes (s : State) (g : Nat) :
    (s.ungate g).pwr = s.pwr ∧ (s.ungate g).held = s.held ∧ (s.ungate g).store = s.store ∧ (s.ungate g).host = s.host ∧
      ∀ e, e < 4 → (s.se e).work ≠ none → ((s.ungate g).se e).started = s.pastGate g (s.se e).started := by
  obtain ⟨f, h, heq⟩ := s.ungate_eq g
  have hengines : OffWork s ((List.range 4).foldl (State.ungateEngine g) s) := OffWork.foldl (ungateEngine_offWork g) _ s
  have hse (e : Nat) (he : e < 4) : (((List.range 4).foldl (State.ungateEngine g) s).mapItems f).se e = (s.se e).ungated s g := by
    rw [State.se_mapItems, State.se_foldl_ungateEngine le_rfl, if_pos he]
  have hwork := hengines.trans ⟨State.mapItems_frame _ f⟩
  obtain ⟨b, hchains⟩ := State.mapChains_eq (State.mapItems _ f) h
  rw [heq, hchains]
  generalize State.mapItems _ f = u at hse hwork
  refine ⟨hwork.keeps.pwr, hwork.held, hwork.keeps.store, hwork.keeps.host, fun e he hw => ?_⟩
  calc (u.se e).started
      = ((s.se e).ungated s g).started := by rw [hse e he]
    _ = s.pastGate g (s.se e).started := StrokeEngine.ungated_started hw s g
section
variable {s : State}
theorem pllLock_locks (hen : s.pllEnabled = true) (hheld : s.held = []) (hoff : s.pwr.pllOff = none) :
    exec .pllLock s = .next { s with pwr := { s.pwr with pllLock := true } } := by
  have hlocked : s.pllLocked = { s with pwr := { s.pwr with pllLock := true } } := by
    simp only [State.pllLocked, hen, hoff, if_true]
  rw [exec_pllLock, hlocked, serveHeld_of_none (s := { s with pwr := { s.pwr with pllLock := true } }) hheld]
theorem pllLock_resumes {g : Nat} (hen : s.pllEnabled = true) (hheld : s.held = []) (hoff : s.pwr.pllOff = some g) :
    ∃ t, exec .pllLock s = .next t ∧ t.pwr = { s.pwr with pllLock := true, pllOff := none } ∧ t.store = s.store ∧ t.host = s.host ∧
      (∀ e, e < 4 → (s.se e).work ≠ none → (t.se e).started = (if (s.se e).started ≤ g then (s.se e).started + (s.now - g) else s.now)) := by
  obtain ⟨hpwr, hkept, hstore, hhost, hse⟩ := ungate_resumes s g
  have hlocked : s.pllLocked = { s.ungate g with pwr := { s.pwr with pllLock := true, pllOff := none } } := by
    simp only [State.pllLocked, hen, hoff, if_true, hpwr]
  generalize s.ungate g = u at hkept hstore hhost hse hlocked
  have hnone : s.pllLocked.held = [] := by rw [hlocked]; exact hkept.trans hheld
  refine ⟨s.pllLocked, by rw [exec_pllLock, serveHeld_of_none hnone], ?_⟩
  rw [hlocked]
  exact ⟨rfl, hstore, hhost, hse⟩
theorem pllLock_disabled (hen : s.pllEnabled = false) (hheld : s.held = []) : exec .pllLock s = .next s := by
  have hlocked : s.pllLocked = s := by simp only [State.pllLocked, hen, Bool.false_eq_true, if_false]
  rw [exec_pllLock, hlocked, serveHeld_of_none hheld]
end

/-- Settles O43: each command of the wake, the timer and the PLL, where it acts and where it does not. -/
theorem wakesTimerAndPll : Obligations.WakesTimerAndPll :=
  ⟨fun _ => ⟨fun _ _ _ => wake_wakes, wake_awake, fun _ _ => wakeComplete_completes, fun _ _ => wakeComplete_early⟩,
   fun _ => ⟨timerExpiry_expires, timerExpiry_waits, pllUnlock_unlocks, pllLock_locks, fun _ => pllLock_resumes, pllLock_disabled⟩⟩

end Sys2Proof.Machine

/-! PROOFS. First strokes of the trace, chain, hub, power, cache and cut descriptors (O60): a stroke that goes through stages which
issue nothing, and then each opcode by what its advance makes of a fresh item. -/
namespace Sys2Proof.Machine

/-! ### An item in its first stroke -/

section
variable {s : State} {e op : Nat} {w : Work} {i : Item} (h : s.Starts e op w i)
include h
theorem State.Starts.isSome : (s.item? w).isSome = true := by rw [h.item]; rfl
theorem State.Starts.stage : i.stage = 0 := by rw [h.fresh]
theorem State.Starts.wait : i.wait = .no := by rw [h.fresh]
theorem State.Starts.errs : i.errs = [] := by rw [h.fresh]
theorem State.Starts.x : i.x = [] := by rw [h.fresh]
theorem State.Starts.nextIx : i.nextIx = 0 := by rw [h.fresh]
theorem State.Starts.detail : i.detail = 0 := by rw [h.fresh]
theorem State.Starts.cursor : i.cursor = 0 := by rw [h.fresh]
/-- Once it is done, nothing is left of it but its end. -/
theorem State.Starts.ended (errs : List Status) (detail : Nat) (x : Tab Nat) :
    Item.ended { i with stage := doneStage, errs := errs, detail := detail, x := x } := by
  rw [h.fresh]; exact ⟨rfl, rfl, rfl, rfl, rfl, rfl⟩
theorem State.Starts.highest_ok : Status.highest i.errs = .ok := by rw [h.errs]; rfl
theorem State.Starts.highest_aborted : Status.highest (i.errs ++ [.aborted]) = .aborted := by rw [h.errs]; rfl
end
theorem State.setItem_frames (s : State) (w : Work) (j : Item) :
    (s.setItem w j).trc = s.trc ∧ (s.setItem w j).now = s.now ∧ (s.setItem w j).bhv = s.bhv :=
  ⟨(congrArg State.trc (s.setItem_frame w j) :), (congrArg State.now (s.setItem_frame w j) :), (congrArg State.bhv (s.setItem_frame w j) :)⟩
@[simp] theorem State.setItem_trc (s : State) (w : Work) (j : Item) : (s.setItem w j).trc = s.trc := (s.setItem_frames w j).1
@[simp] theorem State.setItem_now (s : State) (w : Work) (j : Item) : (s.setItem w j).now = s.now := (s.setItem_frames w j).2.1
@[simp] theorem State.setItem_bhv (s : State) (w : Work) (j : Item) : (s.setItem w j).bhv = s.bhv := (s.setItem_frames w j).2.2

/-! ### Strokes that go through several stages -/

/-- Nothing of the item waits or is outstanding, and it is not over: its opcode goes on. -/
def Item.idle (j : Item) : Prop :=
  j.fin = none ∧ j.parked = false ∧ j.wait = .no ∧ j.todo = [] ∧ j.out = 0 ∧ j.over = false ∧ j.draining = false ∧ j.sent = []
/-- A fresh item at a stage of its own, with what it keeps under `x` and the statuses it has noted. -/
theorem State.Starts.idle {s : State} {e op : Nat} {w : Work} {i : Item} (h : s.Starts e op w i) {stage : Nat} (hst : (stage == doneStage) = false)
    (errs : List Status) (x : Tab Nat) : Item.idle { i with stage := stage, errs := errs, x := x } := by
  rw [h.fresh]; exact ⟨rfl, rfl, rfl, rfl, rfl, hst, rfl, rfl⟩
/-- From `u` a stroke goes on to `v` in `k` advances of its opcode that issue nothing. -/
inductive State.Advances (adv : Advance) (w : Work) : Nat → State → State → Prop where
  | refl (u : State) : State.Advances adv w 0 u u
  | next {u v : State} {j : Item} {k : Nat} (hitem : u.item? w = some j) (hidle : j.idle) (h : State.Advances adv w k (adv u w j) v) :
      State.Advances adv w (k + 1) u v
section
variable {adv : Advance} {w : Work}
theorem State.Advances.of_eq {u v : State} (h : u = v) : State.Advances adv w 0 u v := h ▸ State.Advances.refl u
/-- One advance from an item just written. -/
theorem State.Advances.step {u v : State} {i j : Item} {k : Nat} (hr : ∀ n, w = .ring n → n < 512) (hi : u.item? w = some i) (hidle : j.idle)
    (h : State.Advances adv w k (adv (u.setItem w j) w j) v) : State.Advances adv w (k + 1) (u.setItem w j) v :=
  .next (State.item?_setItem hr hi) hidle h
theorem State.Advances.strokeLoop {k : Nat} {u v : State} (h : State.Advances adv w k u v) (e : Nat) (rep : Report) (m : Nat) :
    u.strokeLoop e w adv rep (k + m) = v.strokeLoop e w adv rep m := by
  induction h with
  | refl u => rw [Nat.zero_add]
  | @next u v j k hitem hidle h ih =>
    obtain ⟨hfin, hparked, hwait, htodo, hout, hover, hdraining, hsent⟩ := hidle
    rw [Nat.add_right_comm, ← ih]
    simp [State.strokeLoop, State.goOn, hitem, hfin, hparked, hwait, htodo, hout, hover, hdraining, hsent]
end
section
variable {s : State} {c : Instr} {e op k : Nat} {w : Work} {i : Item} {adv : Advance} {rep : Report}
  (hex : exec c s = s.row e op noCheck adv rep) (hk : k ≤ 99)
include hex hk
/-- The first stroke goes on from what its opcode has reached without issuing. -/
theorem State.exec_advances {v : State} (hs : s.Starts e op w i) (h : State.Advances adv w k (adv s w i) v) :
    exec c s = .next ((v.strokeLoop e w adv rep (1999 - k)).drainWait w) := by
  have hloop := h.strokeLoop e rep (1999 - k)
  rw [Nat.add_sub_cancel' (by omega)] at hloop
  rw [hex, State.row_first hs _ _ _ rfl, hloop]
theorem State.ends_of_advances {u : State} {j : Item} {st : Status}
    (h : s.Starts e op w i → State.Advances adv w k (adv s w i) (u.setItem w j) ∧ (u.item? w).isSome = true ∧ j.ended ∧
      rep (u.setItem w j) w j (Status.highest j.errs) = (u.setItem w j, j.detail, j.cursor) ∧ Status.highest j.errs = st) :
    s.Ends c e op w i u j st := by
  intro hs
  obtain ⟨hadv, hu, ⟨hfin, hparked, hwait, htodo, hout, hover⟩, hrep, hst⟩ := h hs
  obtain ⟨i', hi'⟩ := Option.isSome_iff_exists.mp hu
  rw [State.exec_advances hex hk hs hadv, show 1999 - k = (1998 - k) + 1 by omega,
    State.loop_ends adv rep _ (State.item?_setItem hs.ring hi') hfin hparked hwait htodo hout hover, State.endItem, hrep, hst]
/-- The item ends with the statuses, DETAIL and kept values that its last stage gives it. -/
theorem State.ends_done {u : State} {errs : List Status} {detail : Nat} {x : Tab Nat} {st : Status}
    (h : s.Starts e op w i →
      State.Advances adv w k (adv s w i) (u.setItem w { i with stage := doneStage, errs := errs, detail := detail, x := x }) ∧ (u.item? w).isSome = true ∧
      (∀ t, rep t w { i with stage := doneStage, errs := errs, detail := detail, x := x } st = (t, detail, i.cursor)) ∧ Status.highest errs = st) :
    s.Ends c e op w i u { i with stage := doneStage, errs := errs, detail := detail, x := x } st :=
  State.ends_of_advances hex hk fun hs =>
    have ⟨hadv, hu, hrep, hst⟩ := h hs
    ⟨hadv, hu, hs.ended errs detail x, hst ▸ hrep _, hst⟩
theorem State.waits_of_advances {u : State} {j : Item}
    (h : s.Starts e op w i → State.Advances adv w k (adv s w i) (u.setItem w j) ∧ (u.item? w).isSome = true ∧ j.wait ≠ .no) :
    s.Waits c e op w i u j := by
  intro hs
  obtain ⟨hadv, hu, hwait⟩ := h hs
  obtain ⟨i', hi'⟩ := Option.isSome_iff_exists.mp hu
  rw [State.exec_advances hex hk hs hadv, State.loop_waits adv rep _ (State.item?_setItem hs.ring hi') hwait]
theorem State.issues_of_advances {v : State} (hs : s.Starts e op w i) (h : State.Advances adv w k (adv s w i) v) :
    ∃ t, exec c s = .next t ∧ ∀ u, State.issueAll e w 1900 v = some u → t = (u.endStroke e).drainWait w :=
  ⟨_, State.exec_advances hex hk hs h, fun _ hu => by rw [State.loop_sends adv rep 1900 (by omega) hu]⟩
theorem State.sends_of_advances {u : State} {j : Item} (h : s.Starts e op w i → State.Advances adv w k (adv s w i) (u.setItem w j)) :
    s.Sends c e op w i u j := fun hs => State.issues_of_advances hex hk hs (h hs)
end

/-! ### TRACE_ARM and TRACE_STOP (R507, R508) -/

theorem exec_traceArm (e : Nat) (s : State) : exec (.traceArm e) s = s.row e 0x40 noCheck armAdv armRep := rfl
theorem exec_traceStop (e : Nat) (s : State) : exec (.traceStop e) s = s.row e 0x41 noCheck stopAdv stopRep := rfl
section
variable {s : State} {e op : Nat} {w : Work} {i : Item} (hs : s.Starts e op w i) (errs : List Status) (t : State) (st : Status)
include hs
/-- Where no chip was written, the taps and DETAIL are left as they are. -/
theorem armRep_fresh (detail : Nat) (x : Tab Nat) :
    armRep t w { i with stage := doneStage, errs := errs, detail := detail, x := x } st = (t, detail, i.cursor) := by
  simp [armRep, Item.unarmed, hs.nextIx, hs.cursor]
theorem stopRep_fresh : stopRep t w { i with stage := doneStage, errs := errs, detail := i.detail, x := i.x } st = (t, i.detail, i.cursor) := by
  simp [stopRep, hs.x, hs.nextIx, hs.detail, hs.cursor, tget]
end
section
variable {s : State} {e : Nat} {w : Work} {i : Item}
theorem traceArm_aborts {code : Nat} (h : (s.trc.enable = false ∧ code = 0x80000001) ∨ (s.trc.enable = true ∧ s.trc.state.armed = true ∧ code = 0x80000002) ∨
      (s.trc.enable = true ∧ s.trc.state.armed = false ∧ s.trc.ring ≠ [] ∧ dbits i.desc 0x12 4 1 = 0 ∧ code = 0x80000003)) :
    s.Ends (.traceArm e) e 0x40 w i s { i.fail .aborted with detail := code } .aborted := by
  refine State.ends_done (exec_traceArm e s) (Nat.zero_le 99) fun hs => ⟨.of_eq ?_, hs.isSome, fun t => armRep_fresh hs _ t _ _ _, hs.highest_aborted⟩
  have hstage := hs.stage
  rcases h with ⟨hen, rfl⟩ | ⟨hen, harmed, rfl⟩ | ⟨hen, harmed, hring, hdisc, rfl⟩
  · simp [armAdv, hstage, hen, Item.abortWith, Item.fail, traceDisabled]
  · simp [armAdv, hstage, hen, harmed, Item.abortWith, Item.fail, traceArmed]
  · simp [armAdv, hstage, hen, harmed, hring, hdisc, Item.abortWith, Item.fail, traceUndrained]
theorem traceArm_arms (hen : s.trc.enable = true) (harmed : s.trc.state.armed = false) (hring : s.trc.ring = [] ∨ dbits i.desc 0x12 4 1 = 1) :
    s.Sends (.traceArm e) e 0x40 w i (s.traceSetup i.desc) (s.pushChips i (fun f => [regWr f (wdaBase + 0x504) (db i.desc 0x28 4),
      regWr f (wdaBase + 0x500) (1 + place (dbits i.desc 0x12 1 1) 1 1 + place (dbits i.desc 0x12 2 1) 2 1 + place (db i.desc 0x14 2) 16 16)])) := by
  refine State.row_sends noCheck armAdv armRep (exec_traceArm e s) fun hs => ⟨rfl, ?_⟩
  have hdrained : ¬ (s.trc.ring ≠ [] ∧ dbits i.desc 0x12 4 1 = 0) := fun ⟨hne, hzero⟩ => hring.elim hne (fun hone => by omega)
  simp only [armAdv, hs.stage, hen, harmed, hdrained, ne_eq, not_true_eq_false, Bool.not_true, Bool.false_eq_true, if_false]
  rfl
theorem traceStop_ends (h : s.trc.state = .idle ∨ s.trc.state = .stopped ∨ s.trc.state = .flushing) : s.Ends (.traceStop e) e 0x41 w i s i.done .ok := by
  refine State.ends_done (exec_traceStop e s) (Nat.zero_le 99) fun hs => ⟨.of_eq ?_, hs.isSome, fun t => stopRep_fresh hs _ t _, hs.highest_ok⟩
  rcases h with h | h | h <;> simp [stopAdv, hs.stage, h, Item.done]
theorem traceStop_stops (h : s.trc.state = .streaming ∨ s.trc.state = .pre ∨ s.trc.state = .post) :
    s.Sends (.traceStop e) e 0x41 w i (s.stopMarker 0) { i.push (s.armedChips.map (fun f => regWr f (wdaBase + 0x500) 0)) with stage := 1 } := by
  refine State.row_sends noCheck stopAdv stopRep (exec_traceStop e s) fun hs => ⟨rfl, ?_⟩
  rcases h with h | h | h <;> simp [stopAdv, hs.stage, h]
end

/-! ### TRACE_DRAIN (R509) -/

theorem exec_traceDrain (e : Nat) (s : State) : exec (.traceDrain e) s = s.row e 0x42 noCheck traceDrainAdv traceDrainRep := rfl

section
variable {t : State} {w : Work} {j : Item} (herrs : j.errs = [])
include herrs
theorem traceDrainAdv_waiting (hst : j.stage = 1) (hw : drainWaits j.desc = true) (hr : t.drainReady j = false) :
    traceDrainAdv t w j = t.setItem w { j with wait := .cond } := by
  simp [traceDrainAdv, hst, herrs, hw, hr]
theorem traceDrainAdv_unwaiting (hst : j.stage = 1) (hw : drainWaits j.desc = false) :
    traceDrainAdv t w j = t.setItem w { j with stage := 3, x := tput 0 (tput 0 j.x 2 t.trc.ring.length) 5 0 } := by
  simp [traceDrainAdv, hst, herrs, hw, b2n]
theorem traceDrainAdv_copying (hst : j.stage = 3) :
    traceDrainAdv t w j = if drainFinal j.desc then t.finalStep w j else t.presentStep w j := by
  simp [traceDrainAdv, hst, herrs]
end
section
variable {t : State} {j : Item}
theorem finalNow_of_empty (h : t.trc.ring = []) : t.finalNow j = 0 := by simp [State.finalNow, h]
theorem finalStep_ends (w : Work) (hring : t.trc.ring = []) (h : t.trc.state = .stopped ∨ t.trc.state = .idle) : t.finalStep w j = t.setItem w j.done := by
  have hout : t.drainedOut = true := by rcases h with h | h <;> simp [State.drainedOut, hring, h]
  simp [State.finalStep, finalNow_of_empty hring, hout]
theorem finalStep_waits (w : Work) (hring : t.trc.ring = []) (hstopped : t.trc.state ≠ .stopped) (hidle : t.trc.state ≠ .idle)
    (hcap : ¬ drainCap j.desc ≤ tget 0 j.x 1) (hlate : j.late t.now = false) : t.finalStep w j = t.setItem w { j with wait := .cond } := by
  have hout : t.drainedOut = false := by simp [State.drainedOut, hstopped, hidle]
  simp [State.finalStep, finalNow_of_empty hring, hout, hcap, hlate]
theorem presentStep_ends (w : Work) (hnone : tget 0 j.x 2 = 0) (hlate : tget 0 j.x 5 = 0) : t.presentStep w j = t.setItem w j.done := by
  simp [State.presentStep, hnone, hlate]
end
/-- The item of a TRACE_DRAIN that no other drain keeps from running. -/
def Item.drainEntered (i : Item) : Item := { i with stage := 1, x := tput 0 [] 7 1 }
/-- The item of a TRACE_DRAIN whose first copying stroke finds `n` records, before TIMEOUT. -/
def Item.drainPresent (i : Item) (n : Nat) : Item := { i with stage := 3, x := tput 0 (tput 0 [] 7 1) 2 n }
theorem Item.drainPresent_x (i : Item) (n : Nat) :
    tget 0 (i.drainPresent n).x 1 = 0 ∧ tget 0 (i.drainPresent n).x 2 = n ∧ tget 0 (i.drainPresent n).x 5 = 0 := by
  simp [Item.drainPresent, tget_tput, tget]
/-- A TIMEOUT that has not run out leaves no mark. -/
theorem tput_drain_five (n : Nat) : tput 0 (tput 0 (tput 0 [] 7 1) 2 n) 5 0 = tput 0 (tput 0 [] 7 1) 2 n := by
  cases n <;> simp [tput]
section
variable {s : State} {e : Nat} {w : Work} {i : Item} (hs : s.Starts e 0x42 w i)
include hs
theorem traceDrainRep_refused (errs : List Status) (detail : Nat) (t : State) (st : Status) :
    traceDrainRep t w { i with stage := doneStage, errs := errs, detail := detail, x := i.x } st = (t, detail, i.cursor) := by
  simp [traceDrainRep, hs.x, hs.cursor, tget]
theorem traceDrainRep_empty (errs : List Status) (t : State) (st : Status) :
    traceDrainRep t w { i with stage := doneStage, errs := errs, detail := i.detail, x := tput 0 [] 7 1 } st = (t, i.detail, i.cursor) := by
  simp [traceDrainRep, hs.detail, hs.cursor, tget_tput, tget]
theorem traceDrainAdv_enters (ho : s.otherDrain w = false) : traceDrainAdv s w i = s.setItem w i.drainEntered := by
  simp [traceDrainAdv, hs.stage, hs.x, ho, Item.drainEntered]
/-- A drain that does not wait comes to its first copying stroke at once. -/
theorem traceDrain_advances {v : State} (ho : s.otherDrain w = false) (hw : drainWaits i.desc = false)
    (h : traceDrainAdv (s.setItem w (i.drainPresent s.trc.ring.length)) w (i.drainPresent s.trc.ring.length) = v) :
    State.Advances traceDrainAdv w 2 (traceDrainAdv s w i) v := by
  have hpass : traceDrainAdv (s.setItem w i.drainEntered) w i.drainEntered = s.setItem w (i.drainPresent s.trc.ring.length) := by
    rw [traceDrainAdv_unwaiting (j := i.drainEntered) hs.errs rfl hw, setItem_setItem, State.setItem_trc, Item.drainEntered]
    dsimp only
    rw [tput_drain_five]
    rfl
  rw [traceDrainAdv_enters hs ho]
  refine .step hs.ring hs.item (hs.idle (stage := 1) rfl i.errs _) ?_
  rw [hpass]
  exact .step hs.ring hs.item (hs.idle (stage := 3) rfl i.errs _) (.of_eq h)
end
section
variable {s : State} {e : Nat} {w : Work} {i : Item}
theorem drainCopy_records {n m len : Nat} (hstore : toStore i.desc = false) (hn : n = Nat.min m 4096) :
    (s.setItem w (i.drainPresent len)).drainCopy w (i.drainPresent len) m =
      s.setItem w { i.push (hostWrites (db i.desc 0x18 8) ((s.trc.ring.take n).map TraceRec.bytes).flatten) with
        stage := 3, x := tput 0 (tput 0 (tput 0 (tput 0 [] 7 1) 2 len) 1 n) 3 n } := by
  have hx := (i.drainPresent_x len).1
  have hdesc : (i.drainPresent len).desc = i.desc := rfl
  simp only [State.drainCopy, hdesc, hstore, hx, ← hn, Bool.false_eq_true, if_false, setItem_setItem, State.setItem_trc, Nat.mul_zero, Nat.add_zero, Nat.zero_add]
  rfl
theorem drainReady_entered (s : State) (w : Work) (i j : Item) : (s.setItem w j).drainReady i.drainEntered = s.drainReady i := by
  unfold State.drainReady
  rw [State.setItem_trc, State.setItem_now]
  rfl
theorem traceDrain_busy (ho : s.otherDrain w = true) : s.Ends (.traceDrain e) e 0x42 w i s { i.fail .aborted with detail := 0x80000004 } .aborted := by
  refine State.ends_done (exec_traceDrain e s) (Nat.zero_le 99) fun hs =>
    ⟨.of_eq ?_, hs.isSome, fun t => traceDrainRep_refused hs _ _ t _, hs.highest_aborted⟩
  simp [traceDrainAdv, hs.stage, ho, Item.abortWith, Item.fail, drainBusy]
theorem traceDrain_waits (ho : s.otherDrain w = false) (hw : drainWaits i.desc = true) (hr : s.drainReady i = false) :
    s.Waits (.traceDrain e) e 0x42 w i s { i with stage := 1, x := tput 0 [] 7 1, wait := .cond } := by
  refine State.waits_of_advances (k := 1) (exec_traceDrain e s) (by decide) fun hs => ⟨?_, hs.isSome, Wait.noConfusion⟩
  have hidle := hs.idle (stage := 1) rfl i.errs (tput 0 [] 7 1)
  rw [traceDrainAdv_enters hs ho]
  refine .step hs.ring hs.item hidle (.of_eq ?_)
  exact (traceDrainAdv_waiting (j := i.drainEntered) hs.errs rfl hw ((drainReady_entered s w i _).trans hr)).trans (setItem_setItem s w _ _)
section
variable (ho : s.otherDrain w = false) (hw : drainWaits i.desc = false)
include ho hw
theorem traceDrain_empty (hring : s.trc.ring = []) (hend : drainFinal i.desc = false ∨ s.trc.state = .stopped ∨ s.trc.state = .idle) :
    s.Ends (.traceDrain e) e 0x42 w i s { i.done with x := tput 0 [] 7 1 } .ok := by
  refine State.ends_done (k := 2) (exec_traceDrain e s) (by decide) fun hs =>
    ⟨traceDrain_advances hs ho hw ?_, hs.isSome, fun t => traceDrainRep_empty hs _ t _, hs.highest_ok⟩
  obtain ⟨-, hx2, hx5⟩ := i.drainPresent_x 0
  have hlen : s.trc.ring.length = 0 := by rw [hring]; rfl
  have hring' : (s.setItem w (i.drainPresent 0)).trc.ring = [] := by rw [State.setItem_trc, hring]
  rw [hlen, traceDrainAdv_copying (j := i.drainPresent 0) hs.errs rfl]
  split
  · next hfinal =>
    have hstate := hend.resolve_left (by simp [show drainFinal i.desc = true from hfinal])
    rw [finalStep_ends w hring' (by rwa [State.setItem_trc]), setItem_setItem]
    rfl
  · rw [presentStep_ends w hx2 hx5, setItem_setItem]
    rfl
theorem traceDrain_finalWaits (hring : s.trc.ring = []) (hfinal : drainFinal i.desc = true) (hstopped : s.trc.state ≠ .stopped) (hidle : s.trc.state ≠ .idle)
    (hcap : drainCap i.desc ≠ 0) (hlate : i.late s.now = false) :
    s.Waits (.traceDrain e) e 0x42 w i s { i with stage := 3, x := tput 0 [] 7 1, wait := .cond } := by
  refine State.waits_of_advances (k := 2) (exec_traceDrain e s) (by decide) fun hs =>
    ⟨traceDrain_advances hs ho hw ?_, hs.isSome, Wait.noConfusion⟩
  have hx1 := (i.drainPresent_x 0).1
  have hlen : s.trc.ring.length = 0 := by rw [hring]; rfl
  have hroom : ¬ drainCap (i.drainPresent 0).desc ≤ tget 0 (i.drainPresent 0).x 1 := by rw [hx1]; exact fun h => hcap (Nat.le_zero.mp h)
  have hstep := finalStep_waits (t := s.setItem w (i.drainPresent 0)) w (by rwa [State.setItem_trc]) (by rwa [State.setItem_trc]) (by rwa [State.setItem_trc])
    hroom (by rw [State.setItem_now]; exact hlate)
  rw [hlen, traceDrainAdv_copying (j := i.drainPresent 0) hs.errs rfl, if_pos (by exact hfinal), hstep, setItem_setItem]
  rfl
theorem traceDrain_copies {n : Nat} (hstore : toStore i.desc = false) (hn : n = Nat.min (Nat.min s.trc.ring.length (db i.desc 0x20 8 / 16)) 4096) (h0 : n ≠ 0) :
    s.Sends (.traceDrain e) e 0x42 w i s { i.push (hostWrites (db i.desc 0x18 8) ((s.trc.ring.take n).map TraceRec.bytes).flatten) with
      stage := 3, x := tput 0 (tput 0 (tput 0 (tput 0 [] 7 1) 2 s.trc.ring.length) 1 n) 3 n } := by
  refine State.sends_of_advances (k := 2) (exec_traceDrain e s) (by decide) fun hs => traceDrain_advances hs ho hw ?_
  have hm : Nat.min s.trc.ring.length (db i.desc 0x20 8 / 16) ≠ 0 := fun h => h0 (by rw [hn, h]; rfl)
  have hdesc : (i.drainPresent s.trc.ring.length).desc = i.desc := rfl
  have hcopy := drainCopy_records (s := s) (w := w) (i := i) (len := s.trc.ring.length) hstore hn
  obtain ⟨hx1, hx2, -⟩ := i.drainPresent_x s.trc.ring.length
  rw [traceDrainAdv_copying (j := i.drainPresent s.trc.ring.length) hs.errs rfl, ← hcopy]
  split
  · simp only [State.finalStep, State.finalNow, State.setItem_trc, hdesc, hstore, drainCap, hx1, Nat.sub_zero, Bool.false_eq_true, false_and, if_false, if_pos hm]
  · simp only [State.presentStep, hdesc, hstore, drainCap, hx1, hx2, Nat.sub_zero, Bool.false_eq_true, if_false, if_neg hm]
end
end

/-! ### COUNTER_SNAP (R510) -/

theorem exec_counterSnap (e : Nat) (s : State) : exec (.counterSnap e) s = s.row e 0x43 noCheck snapAdv snapRep := rfl
section
variable {s : State} {e : Nat} {w : Work} {i : Item}
theorem counterSnap_latches {j : Item} (hj : j = s.pushChips i (snapOps i.desc)) :
    s.Sends (.counterSnap e) e 0x43 w i s { j with x := tput 0 (tput 0 j.x 12 (s.snapChips i).length) 13 s.time } := by
  refine State.row_sends noCheck snapAdv snapRep (exec_counterSnap e s) fun hs => ⟨rfl, ?_⟩
  simp only [snapAdv, hs.stage, if_true, hj]
theorem snapTimed_of_zero {d : BitVec 512} (h : dbits d 0x12 1 1 = 0) : snapTimed d = false := by simp [snapTimed, h]
theorem snapOps_of_untimed {d : BitVec 512} (h : snapTimed d = false) (f : Nat) : snapOps d f = [regWr f snapCtl (1 + place (dbits d 0x12 2 1) 2 1)] := by
  simp only [snapOps, h, Bool.false_eq_true, if_false]
theorem snapCtl_eq : snapCtl = wdaBase + 0x600 := by unfold snapCtl; with_reducible rfl
theorem snapOps_untimed {d : BitVec 512} (f : Nat) (h : dbits d 0x12 1 1 = 0) : snapOps d f = [regWr f (wdaBase + 0x600) (1 + place (dbits d 0x12 2 1) 2 1)] := by
  rw [snapOps_of_untimed (snapTimed_of_zero h), snapCtl_eq]
end

/-! ### DISCOVER and CHAIN_ENABLE (R355, R364) -/

theorem exec_discover (e : Nat) (s : State) : exec (.discover e) s = s.row e 0x50 noCheck discoverAdv repItem := rfl
theorem exec_timeAlign (e : Nat) (s : State) : exec (.timeAlign e) s = s.row e 0x51 noCheck alignAdv repItem := rfl
theorem exec_chainEnable (e : Nat) (s : State) : exec (.chainEnable e) s = s.row e 0x52 noCheck chainEnableAdv repItem := rfl
@[simp] theorem State.chain_setItem (s : State) (w : Work) (j : Item) (k : Nat) : (s.setItem w j).chain k = s.chain k := by
  unfold State.chain; rw [State.setItem_bhv]
theorem State.setChain_setItem (s : State) (w : Work) (j : Item) (k : Nat) (c : Chain) : (s.setItem w j).setChain k c = (s.setChain k c).setItem w j := by
  unfold State.setChain
  split
  · cases w with
    | ring n =>
      simp only [State.setItem, State.setRing]
      by_cases hn : n < 512
      · simp only [if_pos hn]; rfl
      · simp only [if_neg hn]
    | scan => rfl
    | free m => rfl
  · rfl
/-- The positions within REACH of chain `k` become PRESENT if it is UP. -/
def State.markPresent (s : State) (k : Nat) : State :=
  if (s.chain k).state = .up then s.setChain k { s.chain k with present := (s.chain k).present ||| (2 ^ (s.chain k).reach - 1) } else s
theorem State.foldl_markPresent_setItem (l : List Nat) (s : State) (w : Work) (j : Item) :
    l.foldl State.markPresent (s.setItem w j) = (l.foldl State.markPresent s).setItem w j := by
  induction l generalizing s with
  | nil => rfl
  | cons k l ih =>
    have hstep : (s.setItem w j).markPresent k = (s.markPresent k).setItem w j := by
      simp only [State.markPresent, State.chain_setItem, State.setChain_setItem]
      split <;> rfl
    rw [List.foldl_cons, hstep, ih, List.foldl_cons]
theorem State.markPresent_edgeStep (s : State) (k : Nat) : EdgeStep s (s.markPresent k) := by
  unfold State.markPresent
  split
  · exact s.setChain_edgeStep k _
  · exact EdgeStep.refl s
@[simp] theorem State.inReach_setItem (s : State) (w : Work) (j : Item) (m : Nat) : (s.setItem w j).inReach m = s.inReach m := by
  simp only [State.inReach, State.chain_setItem]
theorem discoverAdv_trained {t : State} {w : Work} {j : Item} (hst : j.stage = 1) :
    discoverAdv t w j = ((chainsOf (chainMask j.desc)).foldl State.markPresent t).setItem w
      { j.push ((((chainsOf (chainMask j.desc)).foldl State.markPresent t).inReach (chainMask j.desc)).map (fun f => regWr f (wdaBase + 4) (f + 2 ^ 31))) with
        stage := 2, x := tput 0 j.x 3 ((chainsOf (chainMask j.desc)).foldl State.markPresent t).now } := by
  simp only [discoverAdv, hst, Nat.one_ne_zero, if_true, if_false]
  rfl
theorem chainEnableAdv_trained {t : State} {w : Work} {j : Item} (hen : dbits j.desc 0x11 0 1 = 0) (hst : j.stage = 1) :
    chainEnableAdv t w j = ((chainsOf (chainMask j.desc)).foldl State.markPresent t).setItem w
      { j.push ((((chainsOf (chainMask j.desc)).foldl State.markPresent t).inReach (chainMask j.desc)).map (fun f => OpK.rd f wdaBase 64)) with stage := 2 } := by
  simp only [chainEnableAdv, hen, hst, Nat.one_ne_zero, Nat.zero_ne_one, if_true, if_false]
  rfl
section
variable {s u : State} {e op : Nat} {w : Work} {i : Item}
  (hu : u = (chainsOf (chainMask i.desc)).foldl State.enableChain s) (hi : u.item? w = some i)
include hu
theorem enableChains_now : u.now = s.now :=
  hu ▸ (orderly_foldl State.enableChain (fun t k h => State.enableChain_ord t k h) _ (Orderly.refl s)).2.1
include hi
theorem enableChains_waits (htrain : (chainsOf (chainMask i.desc)).any (fun k => (u.chain k).training) = true) :
    s.enableChains w i = u.setItem w { i with stage := 1, wait := .ctl none } := by
  simp only [State.enableChains, ← hu, State.modItem, hi, htrain, if_true]
theorem enableChains_trained (hs : s.Starts e op w i) (htrain : (chainsOf (chainMask i.desc)).any (fun k => (u.chain k).training) = false) :
    s.enableChains w i = u.setItem w { i with stage := 1 } := by
  simp only [State.enableChains, ← hu, State.modItem, hi, htrain, Bool.false_eq_true, if_false, ← hs.wait]
theorem discover_waits (htrain : (chainsOf (chainMask i.desc)).any (fun k => (u.chain k).training) = true) :
    s.Waits (.discover e) e 0x50 w i u { i with stage := 1, wait := .ctl none } :=
  State.row_waits noCheck discoverAdv repItem (exec_discover e s) fun hs =>
    ⟨rfl, by rw [discoverAdv, if_pos hs.stage, enableChains_waits hu hi htrain], by rw [hi]; rfl, Wait.noConfusion⟩
theorem chainEnable_waits (hen : dbits i.desc 0x11 0 1 = 0) (htrain : (chainsOf (chainMask i.desc)).any (fun k => (u.chain k).training) = true) :
    s.Waits (.chainEnable e) e 0x52 w i u { i with stage := 1, wait := .ctl none } :=
  State.row_waits noCheck chainEnableAdv repItem (exec_chainEnable e s) fun hs =>
    ⟨rfl, by rw [chainEnableAdv, hen, if_neg Nat.zero_ne_one, if_pos hs.stage, enableChains_waits hu hi htrain], by rw [hi]; rfl, Wait.noConfusion⟩
/-- Where no chain trains the stroke goes on with the item at stage 1. -/
theorem trained_advances {adv : Advance} {v : State} (hs : s.Starts e op w i)
    (htrain : (chainsOf (chainMask i.desc)).any (fun k => (u.chain k).training) = false) (hadv : adv s w i = s.enableChains w i)
    (h : adv (u.setItem w { i with stage := 1 }) w { i with stage := 1 } = v) : State.Advances adv w 1 (adv s w i) v := by
  have hidle := hs.idle (stage := 1) rfl i.errs i.x
  rw [hadv, enableChains_trained hu hi hs htrain]
  exact .step hs.ring hi hidle (.of_eq h)
variable {v : State} (hv : v = (chainsOf (chainMask i.desc)).foldl State.markPresent u)
  (htrain : (chainsOf (chainMask i.desc)).any (fun k => (u.chain k).training) = false)
include hv htrain
theorem discover_sends : s.Sends (.discover e) e 0x50 w i v
    { i.push ((v.inReach (chainMask i.desc)).map (fun f => regWr f (wdaBase + 4) (f + 2 ^ 31))) with stage := 2, x := tput 0 [] 3 s.now } := by
  refine State.sends_of_advances (k := 1) (exec_discover e s) (by decide) fun hs => trained_advances hu hi hs htrain (if_pos hs.stage) ?_
  have hnow : v.now = s.now := by
    rw [hv, (EdgeStep.foldl State.markPresent_edgeStep _ u).now, enableChains_now hu]
  rw [discoverAdv_trained rfl]
  dsimp only
  rw [State.foldl_markPresent_setItem, ← hv, State.inReach_setItem, State.setItem_now, setItem_setItem, hnow, hs.x]
  rfl
theorem chainEnable_sends (hen : dbits i.desc 0x11 0 1 = 0) : s.Sends (.chainEnable e) e 0x52 w i v
    { i.push ((v.inReach (chainMask i.desc)).map (fun f => OpK.rd f wdaBase 64)) with stage := 2 } := by
  refine State.sends_of_advances (k := 1) (exec_chainEnable e s) (by decide) fun hs => trained_advances hu hi hs htrain ?_ ?_
  · rw [chainEnableAdv, hen, if_neg Nat.zero_ne_one, if_pos hs.stage]
  · rw [chainEnableAdv_trained (j := { i with stage := 1 }) hen rfl]
    dsimp only
    rw [State.foldl_markPresent_setItem, ← hv, State.inReach_setItem, setItem_setItem]
    rfl
end
section
variable {s : State} {e : Nat} {w : Work} {i : Item}
theorem chainEnable_disables {u : State} (hu : u = s.disableChains (chainMask i.desc)) (hi : u.item? w = some i) (hdis : dbits i.desc 0x11 0 1 = 1) :
    s.Ends (.chainEnable e) e 0x52 w i u i.done .ok := by
  refine State.ends_done (exec_chainEnable e s) (Nat.zero_le 99) fun hs => ⟨.of_eq ?_, by rw [hi]; rfl, fun _ => rfl, hs.highest_ok⟩
  rw [chainEnableAdv, if_pos hdis, ← hu, State.modItem, hi]
  rfl

/-! ### TIME_ALIGN (R357, R365) -/

theorem State.item?_foldl_recalibrate (l : List Nat) (s : State) (w : Work) : (l.foldl State.recalibrate s).item? w = s.item? w :=
  List.foldlRecOn (motive := fun t : State => t.item? w = s.item? w) _ _ rfl fun _ ht k _ =>
    (State.item?_setChain _ k _ w).trans ((State.item?_congr rfl rfl rfl w).trans ht)
section
variable {up : List Nat} {down : List Status} (hup : up = chainsOf (s.stateMask (chainMask i.desc) .up))
  (hdown : down = if up.length = (chainsOf (chainMask i.desc)).length then [] else [Status.chainDown])
include hup hdown
theorem timeAlign_recalibrates (hcal : dbits i.desc 0x11 0 1 = 1) (hne : up ≠ []) :
    s.Waits (.timeAlign e) e 0x51 w i (up.foldl State.recalibrate s) { i with stage := 1, wait := .ctl none, errs := down, x := tput 0 [] 1 s.bhv.syncCnt } := by
  refine State.row_waits noCheck alignAdv repItem (exec_timeAlign e s) fun hs =>
    ⟨rfl, ?_, by rw [State.item?_foldl_recalibrate]; exact hs.isSome, Wait.noConfusion⟩
  simp only [alignAdv, hs.stage, hs.errs, hs.x, ← hup, ← hdown, hcal, hne, ne_eq, not_false_eq_true, and_self, if_true, List.nil_append]
theorem timeAlign_probes (h : dbits i.desc 0x11 0 1 = 0 ∨ up = []) :
    s.Sends (.timeAlign e) e 0x51 w i s { i.push ((chipsOf (chainMask i.desc) s.addressable).map OpK.probe) with stage := 2, errs := down } := by
  have hcal : ¬ (dbits i.desc 0x11 0 1 = 1 ∧ up ≠ []) := fun ⟨h1, hne⟩ => h.elim (fun h0 => by omega) hne
  have haddr (j : Item) : (s.setItem w j).addressable = s.addressable := funext fun f => by
    simp only [State.addressable, State.chain_setItem]
  refine State.sends_of_advances (k := 1) (exec_timeAlign e s) (by decide) fun hs => ?_
  have hidle := hs.idle (stage := 1) rfl down i.x
  have hfirst : alignAdv s w i = s.setItem w { i with stage := 1, errs := down } := by
    simp only [alignAdv, hs.stage, hs.errs, ← hup, ← hdown, hcal, if_true, if_false, List.nil_append]
  rw [hfirst]
  refine .step hs.ring hs.item hidle (.of_eq ?_)
  simp only [alignAdv, Nat.one_ne_zero, if_true, if_false, haddr, setItem_setItem]
  rfl
end
end

/-! ### LCS_REQUEST, CERT_INSTALL and CERT_DROP (R178, R204, R205) -/

theorem exec_lcsRequest (e : Nat) (s : State) : exec (.lcsRequest e) s = s.row e 0x60 noCheck (postAdv 0 256) lcsRep := rfl
theorem exec_certInstall (e : Nat) (s : State) : exec (.certInstall e) s = s.row e 0x61 noCheck (postAdv 1 512) repItem := rfl
theorem exec_certDrop (e : Nat) (s : State) : exec (.certDrop e) s = s.row e 0x62 noCheck dropAdv repItem := rfl
theorem exec_sleep (e : Nat) (s : State) : exec (.sleep e) s = s.row e 0x63 noCheck sleepAdv repItem := rfl
theorem exec_htuInvalidate (e : Nat) (s : State) : exec (.htuInvalidate e) s = s.row e 0x64 noCheck invAdv repItem := rfl
theorem exec_shardInvalidate (e : Nat) (s : State) : exec (.shardInvalidate e) s = s.row e 0x65 noCheck shardInvalAdv repItem := rfl
theorem exec_fwStage {s : State} (h : s.boot.stage ≠ 5) (e : Nat) : exec (.fwStage e) s = s.row e 0x66 noCheck stageAdv stageRep :=
  if_neg h
theorem exec_cutCollect (e : Nat) (s : State) : exec (.cutCollect e) s = s.row e 0x18 noCheck cutAdv cutRep := rfl
section
variable {s : State} {e op : Nat} {w : Work} {i : Item}
theorem postAdv_reads (hs : s.Starts e op w i) (kind n : Nat) :
    postAdv kind n s w i = s.setItem w { i.push (hostReads (db i.desc 0x18 8) n) with stage := 1 } := by
  simp [postAdv, hs.errs, hs.stage]
theorem lcsRequest_reads : s.Sends (.lcsRequest e) e 0x60 w i s { i.push (hostReads (db i.desc 0x18 8) 256) with stage := 1 } :=
  State.row_sends noCheck (postAdv 0 256) lcsRep (exec_lcsRequest e s) fun hs => ⟨rfl, postAdv_reads hs 0 256⟩
theorem certInstall_reads : s.Sends (.certInstall e) e 0x61 w i s { i.push (hostReads (db i.desc 0x18 8) 512) with stage := 1 } :=
  State.row_sends noCheck (postAdv 1 512) repItem (exec_certInstall e s) fun hs => ⟨rfl, postAdv_reads hs 1 512⟩
theorem certDrop_asks : s.Sends (.certDrop e) e 0x62 w i s
    { i.push [.core [2, dbits i.desc 0x10 0 1, dbits i.desc 0x11 0 1, db i.desc 0x14 4]] with stage := 1 } :=
  State.row_sends noCheck dropAdv repItem (exec_certDrop e s) fun hs => ⟨rfl, if_pos hs.stage⟩

/-! ### SLEEP (R112, R113) -/

theorem sleep_refused (hb : s.sleepBusy w (dbits i.desc 0x10 0 2) = true) :
    s.Ends (.sleep e) e 0x63 w i { s with pwr := s.pwr.refused } (i.fail .aborted) .aborted := by
  refine State.ends_done (exec_sleep e s) (Nat.zero_le 99) fun hs =>
    ⟨.of_eq ?_, (State.item?_congr rfl rfl rfl w).symm ▸ hs.isSome, fun _ => rfl, hs.highest_aborted⟩
  rw [sleepAdv, if_pos hs.stage, if_pos hb]
  rfl
theorem flushQueues_of_none (h : s.car.queues = []) : s.flushQueues = s := by simp [State.flushQueues, h]
theorem sleep_posts (hb : s.sleepBusy w (dbits i.desc 0x10 0 2) = false) (hq : s.car.queues = []) :
    s.Waits (.sleep e) e 0x63 w i { s with pwr := { s.pwr with
      entering := true, req := some { posted := s.now, target := dbits i.desc 0x10 0 2, by_ := w }, seen := [], timer := if db i.desc 0x14 4 = 0 then s.pwr.timer else db i.desc 0x14 4 } }
      { i with stage := 2, wait := .ctl none } := by
  refine State.row_waits noCheck sleepAdv repItem (exec_sleep e s) fun hs =>
    ⟨rfl, ?_, (State.item?_congr rfl rfl rfl w).symm ▸ hs.isSome, Wait.noConfusion⟩
  have hitem : (s.postSleep w (dbits i.desc 0x10 0 2) (db i.desc 0x14 4)).item? w = some i := (State.item?_congr rfl rfl rfl w).trans hs.item
  have hpost : s.sleepPost w i = (s.postSleep w (dbits i.desc 0x10 0 2) (db i.desc 0x14 4)).setItem w { i with stage := 2, wait := .ctl none } := by
    simp only [State.sleepPost, State.modItem, hitem]
  have hnone : (List.range 64).filter (fun q => (s.queue q).out.length != (s.queue q).out.length) = [] := by simp
  simp only [sleepAdv, hs.stage, hb, flushQueues_of_none hq, hnone, Bool.false_eq_true, if_true, if_false, hpost]
  rfl

/-! ### HTU_INVALIDATE and SHARD_INVALIDATE (R303, R478, R484) -/

section
variable {gone : List TlbEntry} {old : List Nat} {u : State}
  (hgone : gone = s.htu.tlb.filter (fun x => x.inRange i.desc)) (hold : old = s.throughOld i.desc gone)
  (hu : u = { s with htu := { s.htu with tlb := s.htu.tlb.filter (fun x => !x.inRange i.desc), ops := s.htu.ops.map (fun (o : HostOp) => o.discardFor i.desc) } })
include hgone hold hu
theorem htuInvalidate_ends (hnone : old = []) : s.Ends (.htuInvalidate e) e 0x64 w i u { i.done with detail := gone.length } .ok := by
  refine State.ends_done (exec_htuInvalidate e s) (Nat.zero_le 99) fun hs =>
    ⟨.of_eq ?_, hu ▸ (State.item?_congr rfl rfl rfl w).symm ▸ hs.isSome, fun _ => rfl, hs.highest_ok⟩
  simp only [invAdv, hs.stage, ne_eq, not_true_eq_false, if_false, ← hgone, ← hold, hnone, if_true, List.foldl_nil, ← hu]
  rfl
theorem htuInvalidate_waits (hsome : old ≠ []) : s.Waits (.htuInvalidate e) e 0x64 w i u { i with
    detail := gone.length, x := old.foldl (fun x k => tput 0 x (100 + k) 1) [], stage := 1, wait := .ctl none } := by
  refine State.row_waits noCheck invAdv repItem (exec_htuInvalidate e s) fun hs =>
    ⟨rfl, ?_, hu ▸ (State.item?_congr rfl rfl rfl w).symm ▸ hs.isSome, Wait.noConfusion⟩
  simp only [invAdv, hs.stage, hs.x, ne_eq, not_true_eq_false, if_false, ← hgone, ← hold, hsome, ← hu]
end
section
variable {keep : List CacheEntry} {u : State} (hkeep : keep = s.dmp.cache.filter (fun x => !shardCovered i.desc x.fabric x.tensor))
  (hu : u = State.mapItems { s with dmp := { s.dmp with cache := keep, cacheOdd := s.dmp.cacheOdd && keep != [] } } (fun _ j =>
    if opcodeOf j.desc = 0x32 ∧ tget 0 j.x 18 = 1 ∧ shardCovered i.desc (mapFabric j.desc) (tensorId j.desc) then j.note 2100 1 else j))
include hu
theorem shardInvalidate_cache : u.dmp.cache = keep := by
  rw [hu]
  exact (congrArg (fun t : State => t.dmp.cache) (State.mapItems_frame _ _) :)
include hkeep
theorem shardInvalidate_ends : s.Ends (.shardInvalidate e) e 0x65 w i u { i.done with detail := s.dmp.cache.length - keep.length } .ok := by
  refine State.ends_done (exec_shardInvalidate e s) (Nat.zero_le 99) fun hs => ?_
  have hother : ¬ opcodeOf i.desc = 0x32 := by rw [hs.opcode]; decide
  have hitem : u.item? w = some i := by
    rw [hu]
    exact item_mapItems_same _ ((State.item?_congr rfl rfl rfl w).trans hs.item) hs.ring (if_neg fun h => hother h.1)
  refine ⟨.of_eq ?_, by rw [hitem]; rfl, fun _ => rfl, hs.highest_ok⟩
  simp only [shardInvalAdv, ← hkeep, ← hu, State.modItem, hitem]
  rfl
end

/-! ### FW_STAGE (R148, R149) -/

/-- The end of an FW_STAGE that read nothing activates source 178 (Table 11.1). -/
theorem stageRep_refused {u : State} (hs : s.Starts e op w i) (hitem : u.item? w = some i) :
    stageRep (u.setItem w (i.fail .aborted)) w (i.fail .aborted) .aborted =
      ((u.setItem w (i.fail .aborted)).activate 178 (u.setItem w (i.fail .aborted)).stageStatus, 0, 0) := by
  have hx : { i.fail .aborted with x := tput 0 (i.fail .aborted).x 7 0 } = i.fail .aborted := by
    rw [show (i.fail .aborted).x = [] from hs.x]
    exact congrArg (fun x => ({ i.fail .aborted with x := x } : Item)) hs.x.symm
  have hclear : (u.setItem w (i.fail .aborted)).modItem w (fun i => { i with x := tput 0 i.x 7 0 }) = u.setItem w (i.fail .aborted) := by
    simp only [State.modItem, State.item?_setItem hs.ring hitem, hx, setItem_setItem]
  simp only [stageRep, hclear, reduceCtorEq, and_false, if_false]
  exact congrArg₂ (fun d c => (_, d, c)) hs.detail hs.cursor
/-- An FW_STAGE found busy notes BUSY and ends. -/
theorem fwStage_busy {u : State} (hstage : s.boot.stage ≠ 5) (hruns : s.stageRuns (some w) = true)
    (hu : u = State.setItem { s with boot := { s.boot with stageResult := 2 } } w (i.fail .aborted)) (hs : s.Starts e 0x66 w i) :
    exec (.fwStage e) s = .next (((u.activate 178 u.stageStatus).finish w .aborted 0 0).drainWait w) := by
  have hitem : State.item? { s with boot := { s.boot with stageResult := 2 } } w = some i := (State.item?_congr rfl rfl rfl w).trans hs.item
  have huitem : u.item? w = some (i.fail .aborted) := hu ▸ State.item?_setItem hs.ring hitem
  have hadv : stageAdv s w i = u := by
    rw [hu]
    simp only [stageAdv, hs.errs, hs.stage, hruns, ne_eq, not_true_eq_false, if_true, if_false]
    rfl
  have hrep : stageRep u w (i.fail .aborted) .aborted = (u.activate 178 u.stageStatus, 0, 0) := hu ▸ stageRep_refused hs hitem
  obtain ⟨hfin, hparked, hwait, htodo, hout, hover⟩ := hs.ended (i.errs ++ [.aborted]) i.detail i.x
  rw [State.exec_advances (exec_fwStage hstage e) (Nat.zero_le 99) hs (.of_eq hadv),
    State.loop_ends (j := i.fail .aborted) stageAdv stageRep 1998 huitem hfin hparked hwait htodo hout hover, State.endItem,
    show Status.highest (i.fail .aborted).errs = .aborted from hs.highest_aborted, hrep]
theorem fwStage_reads (hstage : s.boot.stage ≠ 5) (hruns : s.stageRuns (some w) = false) :
    s.Sends (.fwStage e) e 0x66 w i { s with boot := { s.boot with stageResult := 0, stageTarget := dbits i.desc 0x10 0 2, kibDone := 0 } }
      { i.push (hostReads (db i.desc 0x18 8) (Nat.min (db i.desc 0x14 4) 520192)) with stage := 1, x := tput 0 [] 7 1 } := by
  refine State.row_sends noCheck stageAdv stageRep (exec_fwStage hstage e) fun hs => ⟨rfl, ?_⟩
  simp only [stageAdv, hs.errs, hs.stage, hs.x, hruns, fwTarget, fwLen, stageMax, ne_eq, not_true_eq_false, Bool.false_eq_true, if_true, if_false]

/-! ### CUT_COLLECT (R416) -/

theorem cutRep_refused (hs : s.Starts e op w i) (errs : List Status) (detail : Nat) (t : State) (st : Status) :
    cutRep t w { i with stage := doneStage, errs := errs, detail := detail, x := i.x } st = (t, detail, i.cursor) := by
  simp [cutRep, hs.cursor]
theorem cutCollect_busy (hb : s.cut.busy = true) : s.Ends (.cutCollect e) e 0x18 w i s { i.fail .aborted with detail := 0xFFFFFFFF } .aborted := by
  refine State.ends_done (exec_cutCollect e s) (Nat.zero_le 99) fun hs =>
    ⟨.of_eq ?_, hs.isSome, fun t => cutRep_refused hs _ _ t _, hs.highest_aborted⟩
  rw [cutAdv, if_pos hs.stage, if_pos hb]
  rfl
theorem State.setItem_cut (s : State) (w : Work) (j : Item) : (s.setItem w j).cut = s.cut := (congrArg State.cut (s.setItem_frame w j) :)
/-- The cut is BUSY from its first stroke, with its reference instant and the chips it covers. -/
theorem cutBegin_cut (s : State) (w : Work) (i : Item) : (s.cutBegin w i).cut.busy = true ∧ (s.cutBegin w i).cut.start = s.time ∧
    (s.cutBegin w i).cut.ref = (if dbits i.desc 0x11 2 1 = 1 ∨ s.stopRef = 0 then s.time else s.stopRef) ∧
    (s.cutBegin w i).cut.chips.map (·.f) = (maskFabrics (db i.desc 0x10 1)).filter s.present := by
  unfold State.cutBegin
  dsimp only
  rw [State.setItem_cut]
  refine ⟨rfl, rfl, rfl, ?_⟩
  unfold State.setCut
  simp only [List.map_map, Function.comp_def, List.map_id']
theorem cutCollect_begins (hb : s.cut.busy = false) (hs : s.Starts e 0x18 w i) :
    ∃ t, exec (.cutCollect e) s = .next t ∧ ∀ v, State.issueAll e w 1900 (s.cutBegin w i) = some v → t = (v.endStroke e).drainWait w :=
  State.issues_of_advances (exec_cutCollect e s) (Nat.zero_le 99) hs
    (.of_eq (by rw [cutAdv, if_pos hs.stage, hb, if_neg Bool.false_ne_true]))
end

/-- Settles O60: each opcode by its own lemmas, in the order of the statement. -/
theorem traceChainAndHubDescriptorsRun : Obligations.TraceChainAndHubDescriptorsRun :=
  ⟨fun _ _ _ _ => ⟨fun _ => traceArm_aborts, traceArm_arms, traceStop_ends, traceStop_stops,
     ⟨traceDrain_busy, fun ho => ⟨traceDrain_waits ho, traceDrain_empty ho, traceDrain_finalWaits ho, fun _ hw => traceDrain_copies ho hw⟩⟩,
     fun _ => counterSnap_latches, snapOps_untimed⟩,
   fun _ _ _ _ => ⟨fun _ hu hi htrain => ⟨discover_waits hu hi htrain, fun hen => chainEnable_waits hu hi hen htrain⟩,
     fun _ _ hu hi htrain hv => ⟨discover_sends hu hi hv htrain, chainEnable_sends hu hi hv htrain⟩,
     fun _ => chainEnable_disables,
     fun _ _ hup hdown => ⟨fun hcal hne _ => timeAlign_recalibrates hup hdown hcal hne, timeAlign_probes hup hdown⟩⟩,
   fun s _ w i => ⟨lcsRequest_reads, certInstall_reads, certDrop_asks, sleep_refused, sleep_posts,
     fun _ _ _ hgone hold hu => ⟨htuInvalidate_ends hgone hold hu, htuInvalidate_waits hgone hold hu⟩,
     fun _ _ hkeep hu => ⟨shardInvalidate_ends hkeep hu, shardInvalidate_cache hu⟩,
     fun _ => fwStage_busy, fwStage_reads, cutCollect_busy,
     fun hb hs => ⟨cutCollect_begins hb hs, cutBegin_cut s w i⟩⟩⟩

end Sys2Proof.Machine

/-! PROOFS. Boots (O46, O47): a REBOOT and a nonce as register writes, the stages of a boot one by one, and what the boot-count
record and the last-gasp erase make of the NOR. -/
namespace Sys2Proof.Machine

/-! ### What a REBOOT ends -/

theorem State.modItem_rings_nil {s : State} (h : s.rings = []) (w : Work) (f : Item → Item) : (s.modItem w f).rings = [] := by
  cases w with
  | ring n =>
    have hnone : s.item? (.ring n) = none := by simp [State.item?, State.ring, h, tget]
    rw [State.modItem, hnone]
    exact h
  | scan => unfold State.modItem; split <;> exact h
  | free k => unfold State.modItem; split <;> exact h
theorem State.endStroke_rings_nil {s : State} (h : s.rings = []) (e : Nat) : (s.endStroke e).rings = [] := by
  have hset (v : StrokeEngine) : (s.setSe e v).rings = [] := (s.setSe_rings e v).trans h
  unfold State.endStroke
  dsimp only
  split
  · exact State.modItem_rings_nil (hset _) _ _
  · exact hset _
/-- The strokes of all the engines of a list end, and none begins. -/
theorem State.se_foldl_endStroke {l : List Nat} (hl : ∀ e ∈ l, e < 4) {s : State} {x : Nat} (h : x ∈ l ∨ (s.se x).work = none) :
    ((l.foldl State.endStroke s).se x).work = none := by
  induction l generalizing s with
  | nil => exact h.resolve_left List.not_mem_nil
  | cons e l ih =>
    refine ih (fun y hy => hl y (List.mem_cons_of_mem e hy)) ?_
    rw [State.se_endStroke (hl e List.mem_cons_self)]
    by_cases hx : x = e
    · exact .inr (by rw [if_pos hx])
    · rw [if_neg hx]
      exact h.imp_left fun hmem => (List.mem_cons.mp hmem).resolve_left hx
theorem State.hostReset_keeps (s : State) : Keeps s s.hostReset ∧ s.hostReset.rings = [] := by
  obtain ⟨u, hkeeps, -, hreset⟩ := hostReset_eq s
  rw [hreset]
  exact ⟨hkeeps.trans ⟨rfl⟩, rfl⟩
theorem State.hostReset_now (s : State) : s.hostReset.now = s.now :=
  have ⟨_, hnow, _⟩ := State.hostReset_ord s (Orderly.refl s)
  hnow
/-- A boot is due, its reset awaits the operations in flight, and neither ring nor stroke goes on. -/
theorem rebootNow_asks (s : State) (cause : Nat) : ∃ u, Keeps s u ∧ u.rings = [] ∧ (∀ e, e < 4 → (u.se e).work = none) ∧
    s.rebootNow cause = { u with pins := { u.pins with linkUp := false, l1 := false }
                                 boot := { u.boot with due := some cause, resetDue := some s.now, rebootPend := false } } := by
  obtain ⟨hreset, hrings⟩ := s.hostReset_keeps
  have hended : OffWork s.hostReset ((List.range 4).foldl State.endStroke s.hostReset) := OffWork.foldl State.endStroke_offWork _ _
  have hnow : ((List.range 4).foldl State.endStroke s.hostReset).now = s.now := hended.now.trans s.hostReset_now
  refine ⟨_, hreset.trans hended.keeps, ?_, fun e he => State.se_foldl_endStroke (fun _ => List.mem_range.mp) (.inl (List.mem_range.mpr he)), ?_⟩
  · exact List.foldlRecOn (motive := fun t : State => t.rings = []) _ _ hrings fun t ht e _ => State.endStroke_rings_nil ht e
  · unfold State.rebootNow
    extract_lets u t
    have ht : t = (List.range 4).foldl State.endStroke s.hostReset := rfl
    rw [← hnow, ← ht]

/-! ### O46 -/

theorem State.linked_eq (s : State) : ∃ p q, s.linked = { s with pins := p, pwr := q } := ⟨_, _, s.linked_frame⟩
theorem hostWrite_lcs {s : State} {off m v : Nat} (h : s.serves off = true) (hm : regMask off = some m) (ha : off % 4 = 0) (hv : v < 2 ^ 32)
    (hr : v &&& m = v) (hl : 0x2000 ≤ off) (hb : off < 0x3000) : s.hostWrite off 4 v = .next (lcsWrite s.linked (off - 0x2000) v) := by
  rw [hostWrite_of_serves h ha (by unfold bar2; omega) hm hv hr]
  simp [State.bar0Write, served0_of_serves h, Nat.not_lt.mpr hl, hb, show ¬ off < 0x1000 by omega]
theorem exec_reboot {s : State} (h : s.serves 0x210C = true) : exec .reboot s = .next s.linked.reboot :=
  hostWrite_lcs (v := 1) h rfl rfl (by decide) rfl (by decide) (by decide)
theorem exec_nonceNew {s : State} (h : s.serves 0x2020 = true) : exec .nonceNew s = .next s.linked.nonceNew :=
  hostWrite_lcs (v := 1) h rfl rfl (by decide) rfl (by decide) (by decide)
/-- A REBOOT outside a boot is taken at once, or after the lifecycle request in progress (R187). -/
theorem reboot_booted {s : State} (hdue : s.boot.due = none) (hstage : s.boot.stage = 4 ∨ s.boot.stage = 5) :
    s.reboot = if s.lcsRunning then { s with boot := { s.boot with rebootPend := true } } else s.rebootNow 2 := by
  refine if_neg ?_
  rintro (h | ⟨h4, h5⟩)
  · rw [hdue] at h
    cases h
  · exact hstage.elim h4 h5
/-- Settles O46: the write opens to the reboot or the nonce, and the reboot to what it ends, with the rest as a host reset keeps it. -/
theorem rebootsAndNonces : Obligations.RebootsAndNonces := by
  refine ⟨fun s hserves hdue hstage => ?_, fun s hserves => ?_⟩
  · obtain ⟨p, q, hlinked⟩ := s.linked_eq
    rw [exec_reboot hserves, hlinked, reboot_booted (s := { s with pins := p, pwr := q }) hdue hstage]
    refine ⟨fun hrun => ?_, fun hrun => congrArg _ (if_pos hrun)⟩
    obtain ⟨u, hkeeps, hrings, hstrokes, hreboot⟩ := rebootNow_asks { s with pins := p, pwr := q } 2
    refine ⟨_, congrArg _ ((if_neg (Bool.eq_false_iff.mp hrun)).trans hreboot), ?_, rfl, hrings, hstrokes, hkeeps.fuses, hkeeps.nor, hkeeps.store⟩
    rw [hkeeps.boot]
  · obtain ⟨p, q, hlinked⟩ := s.linked_eq
    rw [exec_nonceNew hserves, hlinked]
    exact ⟨_, rfl, rfl, rfl⟩

/-! ### The stages of a boot (Table 5.2) -/

section
variable {s : State} {v : BootView} {cause : Nat} (hdue : s.boot.due = some cause)
include hdue
theorem execBoot_of_due : execBoot v s = .next (if s.bootReady then s.bootStage cause v else s) := by rw [execBoot, hdue]
theorem exec_boot_unready (h : s.bootReady = false) : exec (.boot v) s = .next s :=
  (execBoot_of_due hdue).trans (by rw [h]; rfl)
theorem exec_boot (h : s.bootReady = true) : exec (.boot v) s = .next (s.bootStage cause v) :=
  (execBoot_of_due hdue).trans (by rw [if_pos h])
end
section
variable {s : State} {v : BootView} {cause : Nat}
theorem bootStage_fuses (hf : s.boot.fused = false) :
    s.bootStage cause v = if s.fuses.decode = 6 then (s.bootFuses cause v).bootHalt else s.bootFuses cause v := by
  rw [State.bootStage, hf]
  rfl
variable (hf : s.boot.fused = true)
include hf
theorem bootStage_unlocked (hp : s.pwr.pllLock = false) : s.bootStage cause v = s := by simp [State.bootStage, hf, hp]
section
variable (hp : s.pwr.pllLock = true)
include hp
theorem bootStage_nor (h : s.boot.stage = 0) : s.bootStage cause v = s.bootNor v := by simp [State.bootStage, hf, hp, h]
theorem bootStage_first (h : s.boot.stage = 1) : s.bootStage cause v = s.bootFirst v := by simp [State.bootStage, hf, hp, h]
theorem bootStage_second (h : s.boot.stage = 2) : s.bootStage cause v = s.bootSecond v := by simp [State.bootStage, hf, hp, h]
theorem bootStage_done (h : s.boot.stage = 3) : s.bootStage cause v = s.bootDone v := by simp [State.bootStage, hf, hp, h]
end
end
/-- In SCRAPPED every fuse but UNIT_ID and the lifecycle groups is burned (R168). -/
theorem burnAll_burns (f : Fuses) : f.burnAll.secret = BitVec.allOnes 512 ∧ f.burnAll.groups = f.groups := by
  unfold Fuses.burnAll
  exact ⟨rfl, rfl⟩
/-- Stage 1 latches what the fuses decode to, and a later boot counts on from the count of the one before (R133). -/
theorem bootFuses_eq (s : State) (cause : Nat) (v : BootView) : ∃ n, s.bootFuses cause v =
    { s with lcs := { s.lcs with state := s.fuses.decode, leading := s.fuses.leading, nonce := 0, nonceValid := false,
                                 wipePending := s.fuses.decode == 5 && !s.fuses.wiped }
             boot := { s.boot with fused := true, count := n } } ∧
    (cause ≠ 0 → n = (s.boot.count + 1) % 2 ^ 32) := by
  unfold State.bootFuses
  extract_lets decoded old
  refine ⟨(old + 1) % 2 ^ 32, rfl, fun h => ?_⟩
  have hold : old = s.boot.count := if_neg h
  rw [hold]
/-- Taking a slot is a matter of the boot block alone. -/
theorem bootTake_eq (s : State) (x : Nat) : ∃ b, s.bootTake x = { s with boot := b } ∧ b.stage = 3 ∧ b.slot = x ∧ b.fw = memFrom (s.slotCopy x) ∧
    b.fallback = s.boot.fallback := by
  unfold State.bootTake
  generalize s.slotCopy x = img
  exact ⟨_, rfl, rfl, rfl, rfl, rfl⟩
theorem bootFirst_passes {s : State} {v : BootView} (h : s.slotFail v.norOk s.boot.first = 0) : s.bootFirst v = s.bootTake s.boot.first := if_pos h
theorem bootFirst_fails {s : State} {v : BootView} (h : s.slotFail v.norOk s.boot.first ≠ 0) :
    s.bootFirst v = { s with boot := { s.boot with stage := 2, fallback := true, failFirst := s.slotFail v.norOk s.boot.first } } := if_neg h
theorem bootSecond_passes {s : State} {v : BootView} (h : s.slotFail v.norOk (1 - s.boot.first) = 0) : s.bootSecond v = s.bootTake (1 - s.boot.first) := if_pos h
theorem bootSecond_fails {s : State} {v : BootView} (h : s.slotFail v.norOk (1 - s.boot.first) ≠ 0) : s.bootSecond v =
    State.bootRecover { s with boot := { s.boot with failSecond := s.slotFail v.norOk (1 - s.boot.first) } } := if_neg h

/-! ### Erases and writes of the NOR -/

theorem norByte_norErase (s : State) (a n x : Nat) : (s.norErase a n).norByte x = if a ≤ x ∧ x < a + n then 0xFF else s.norByte x := by
  have hget := tget_filter (0 : Byte) s.nor (fun k => !(decide (a ≤ k) && decide (k < a + n))) x
  simp only [State.norByte, State.norErase, mget, hget]
  by_cases h : a ≤ x ∧ x < a + n
  · simp [h]
  · rw [if_neg h, if_pos (by simp; omega)]
/-- A read reaches no byte of an erased range beside it. -/
theorem norRead_norErase (s : State) {a n b m : Nat} (h : b + m ≤ a ∨ a + n ≤ b) : (s.norErase a n).norRead b m = s.norRead b m := by
  refine List.map_congr_left fun j hj => ?_
  have hlt := List.mem_range.mp hj
  rw [norByte_norErase, if_neg (by omega)]
theorem norByte_norWrite (s : State) (a x : Nat) (d : List Byte) (h : a ≤ x ∧ x < a + d.length) : (s.norWrite a d).norByte x = d.getD (x - a) 0 := by
  have hlt : x - a < d.length := by omega
  simp [State.norByte, State.norWrite, mget_mwrite, h, hlt]
theorem leBytes_length (n x : Nat) : (leBytes n x).length = n := by
  induction n generalizing x with
  | zero => rfl
  | succ n ih => rw [leBytes, List.length_cons, ih]
/-- A part of what has been written reads back. -/
theorem norRead_norWrite_part (s : State) (a : Nat) (front part rest : List Byte) :
    (s.norWrite a (front ++ (part ++ rest))).norRead (a + front.length) part.length = part := by
  refine List.ext_getElem (by simp [State.norRead]) fun j _ hj => ?_
  have hrange : a ≤ a + front.length + j ∧ a + front.length + j < a + (front ++ (part ++ rest)).length := by simp; omega
  simp only [State.norRead, List.getElem_map, List.getElem_range]
  rw [norByte_norWrite s _ _ _ hrange, show a + front.length + j - a = front.length + j by omega]
  rw [List.getD_eq_getElem?_getD, List.getElem?_append_right (Nat.le_add_right ..), Nat.add_sub_cancel_left, List.getElem?_append_left hj,
    List.getElem?_eq_getElem hj, Option.getD_some]

/-! ### The boot-count record (R133, R146) -/

theorem exec_bootCountRecord (s : State) : exec .bootCountRecord s = .next s.writeBootCount := rfl
theorem writeBootCount_waits {s : State} (h : s.boot.countWritten = true ∨ s.secretPresent = false ∨ s.fastRun = false ∨ s.dmp.surviving = true) :
    s.writeBootCount = s := by
  refine if_neg ?_
  rintro ⟨-, hrun, hsurv, hwritten, hsecret⟩
  rw [Bool.not_eq_true'] at hsurv hwritten
  simp [hrun, hsurv, hwritten, hsecret] at h
/-- The first of the slots in order from slot `k`, where it is as asked, is the slot taken. -/
theorem find_first_slot {p : Nat → Bool} (k : Nat) (h : p (k % 128) = true) :
    ((List.range 128).map (fun j => (k + j) % 128)).find? p = some (k % 128) := by
  rw [List.range_succ_eq_map, List.map_cons, List.find?_cons_of_pos (by simpa using h)]
  rfl
section
variable {s : State} {i : Nat} (hi : i = (s.bcNewest.map (fun j => (j + 1) % 128)).getD 0)
include hi
theorem bcNext_lt : i < 128 := by
  rw [hi]
  cases s.bcNewest with
  | none => decide
  | some j => exact Nat.mod_lt _ (by decide)
/-- The record goes to the slot after the newest, and the first of a sector is followed by the erasure of the other sector. -/
theorem writeBootCount_writes (hstage : s.boot.stage = 4) (hrun : s.fastRun = true) (hsurv : s.dmp.surviving = false)
    (hwritten : s.boot.countWritten = false) (hsecret : s.secretPresent = true) (he : isErased (s.bcRecord i) = true) :
    ∃ rest u, u = s.norWrite (bcBase + 64 * i) (leBytes 4 0x4E434248 ++ (leBytes 4 s.boot.count ++ rest)) ∧
      s.writeBootCount = { (if i % 64 = 0 then u.norErase (bcBase + (if i = 0 then 4096 else 0)) 4096 else u) with
        boot := { s.boot with countWritten := true } } := by
  have hopen : s.boot.stage = 4 ∧ s.fastRun = true ∧ (!s.dmp.surviving) = true ∧ (!s.boot.countWritten) = true ∧ s.secretPresent = true := by
    simp [hstage, hrun, hsurv, hwritten, hsecret]
  unfold State.writeBootCount
  rw [if_pos hopen]
  extract_lets from_ body
  have hslot : from_ % 128 = i := by
    unfold from_
    cases hn : s.bcNewest <;> simp [hi, hn]
  rw [find_first_slot from_ (by rwa [hslot]), hslot]
  refine ⟨zeros 24 ++ s.bootMac body, _, rfl, ?_⟩
  simp only [body, List.append_assoc]
  split <;> rfl
end
/-- The erasure of the other sector reaches no byte of the record in slot `i`. -/
theorem norRead_bcRecord_erased (u : State) {i o n : Nat} (hi : i < 128) (hn : o + n ≤ 64) :
    (if i % 64 = 0 then u.norErase (bcBase + (if i = 0 then 4096 else 0)) 4096 else u).norRead (bcBase + 64 * i + o) n = u.norRead (bcBase + 64 * i + o) n := by
  split
  · refine norRead_norErase u ?_
    split <;> omega
  · rfl
theorem bootCountRecord_writes {s : State} {i : Nat} (hstage : s.boot.stage = 4) (hrun : s.fastRun = true) (hsurv : s.dmp.surviving = false)
    (hwritten : s.boot.countWritten = false) (hsecret : s.secretPresent = true) (hi : i = (s.bcNewest.map (fun j => (j + 1) % 128)).getD 0)
    (he : isErased (s.bcRecord i) = true) :
    ∃ t, exec .bootCountRecord s = .next t ∧ t.boot.countWritten = true ∧ t.fuses = s.fuses ∧
      t.norRead (0x110000 + 64 * i) 4 = [0x48, 0x42, 0x43, 0x4E] ∧ t.norRead (0x110004 + 64 * i) 4 = leBytes 4 s.boot.count := by
  obtain ⟨rest, u, hu, hwrite⟩ := writeBootCount_writes hi hstage hrun hsurv hwritten hsecret he
  have hmagic := norRead_norWrite_part s (bcBase + 64 * i) [] (leBytes 4 0x4E434248) (leBytes 4 s.boot.count ++ rest)
  have hcount := norRead_norWrite_part s (bcBase + 64 * i) (leBytes 4 0x4E434248) (leBytes 4 s.boot.count) rest
  rw [List.nil_append, ← hu, leBytes_length, List.length_nil] at hmagic
  rw [← hu, leBytes_length, leBytes_length] at hcount
  have hfuses : u.fuses = s.fuses := by rw [hu]; rfl
  have hkept {o : Nat} (ho : o + 4 ≤ 64) := norRead_bcRecord_erased u (bcNext_lt hi) ho
  rw [exec_bootCountRecord, hwrite, show 0x110000 + 64 * i = bcBase + 64 * i + 0 by unfold bcBase; omega,
    show 0x110004 + 64 * i = bcBase + 64 * i + 4 by unfold bcBase; omega]
  refine ⟨_, rfl, rfl, ?_, (hkept (by decide)).trans (hmagic.trans (by decide)), (hkept (by decide)).trans hcount⟩
  dsimp only
  split <;> exact hfuses

/-! ### The erasure for the last gasp (R145) -/

theorem exec_lastGaspErase (s : State) : exec .lastGaspErase s = .next s.lgErase := rfl
theorem norByte_of_isErased {s : State} {a n x : Nat} (h : isErased (s.norRead a n) = true) (hx : a ≤ x ∧ x < a + n) : s.norByte x = 0xFF := by
  have hbyte : s.norByte x ∈ s.norRead a n :=
    List.mem_map.mpr ⟨x - a, List.mem_range.mpr (by omega), by rw [Nat.add_sub_cancel' hx.1]⟩
  simpa using List.all_eq_true.mp h _ hbyte
/-- Whether or not it is erased already, a range reads erased after, and nothing else changes. -/
theorem norByte_erased (s : State) (a n x : Nat) : (if isErased (s.norRead a n) then s else s.norErase a n).norByte x =
    if a ≤ x ∧ x < a + n then 0xFF else s.norByte x := by
  split
  · next h =>
    split
    · next hx => exact norByte_of_isErased h hx
    · rfl
  · exact norByte_norErase s a n x
theorem lgErase_erases {s : State} {i : Nat} (hstage : s.boot.stage = 4) (hup : s.fastUp = true) (hsurv : s.dmp.surviving = false) (hi : s.lgNewest = some i) :
    s.lgErase = if isErased (s.norRead (lgBase + 4096 * ((i / 8 + 1) % 16)) 4096) then s else s.norErase (lgBase + 4096 * ((i / 8 + 1) % 16)) 4096 := by
  simp [State.lgErase, hstage, hup, hsurv, hi]
theorem lastGaspErase_erases {s : State} {i : Nat} (hstage : s.boot.stage = 4) (hup : s.fastUp = true) (hsurv : s.dmp.surviving = false) (hi : s.lgNewest = some i) :
    ∃ t, exec .lastGaspErase s = .next t ∧ (∀ a, 0x100000 + 4096 * ((i / 8 + 1) % 16) ≤ a → a < 0x100000 + 4096 * ((i / 8 + 1) % 16) + 4096 → t.norByte a = 0xFF) ∧
      (∀ a, ¬ (0x100000 + 4096 * ((i / 8 + 1) % 16) ≤ a ∧ a < 0x100000 + 4096 * ((i / 8 + 1) % 16) + 4096) → t.norByte a = s.norByte a) ∧ { t with nor := s.nor } = s := by
  rw [exec_lastGaspErase, lgErase_erases hstage hup hsurv hi]
  refine ⟨_, rfl, fun a hlo hhi => ?_, fun a ha => ?_, ?_⟩
  · exact (norByte_erased s _ 4096 a).trans (if_pos ⟨hlo, hhi⟩)
  · exact (norByte_erased s _ 4096 a).trans (if_neg ha)
  · split <;> rfl

/-- Settles O47: the boot by its stages, in the order of Table 5.2; the record and the erasure by what they make of the NOR. -/
theorem bootsAndNorHousekeeping : Obligations.BootsAndNorHousekeeping := by
  refine ⟨fun s v cause hdue => ⟨exec_boot_unready hdue, fun hr hf hd => ?_, fun hr hf hd => ?_, fun hr hf hp => ?_, fun hr hf hp => ?_⟩,
    fun s hstage => ⟨fun h => congrArg Host.Outcome.next (writeBootCount_waits h), ?_, ?_⟩⟩
  · obtain ⟨n, hfuses, -⟩ := bootFuses_eq s cause v
    obtain ⟨hsecret, hgroups⟩ := burnAll_burns s.fuses
    rw [exec_boot hdue hr, bootStage_fuses hf, if_pos hd, hfuses]
    exact ⟨_, rfl, rfl, rfl, hd, hsecret, hgroups⟩
  · obtain ⟨n, hfuses, hcount⟩ := bootFuses_eq s cause v
    rw [exec_boot hdue hr, bootStage_fuses hf, if_neg hd, hfuses]
    exact ⟨_, rfl, rfl, rfl, rfl, rfl, rfl, hcount, rfl, rfl⟩
  · rw [exec_boot hdue hr, bootStage_unlocked hf hp]
  · rw [exec_boot hdue hr]
    refine ⟨fun h0 => ?_, fun h1 hpass => ?_, fun h1 hfail => ?_, fun h2 hpass => ?_, fun h2 hfail => ?_, fun h3 => ?_⟩
    · rw [bootStage_nor hf hp h0]
      exact ⟨_, rfl, rfl, rfl, rfl, rfl⟩
    · obtain ⟨b, htake, hstage, hslot, hfw, -⟩ := bootTake_eq s s.boot.first
      rw [bootStage_first hf hp h1, bootFirst_passes hpass, htake]
      exact ⟨_, rfl, hstage, hslot, hfw, rfl⟩
    · rw [bootStage_first hf hp h1, bootFirst_fails hfail]
    · obtain ⟨b, htake, hstage, hslot, -, hfallback⟩ := bootTake_eq s (1 - s.boot.first)
      rw [bootStage_second hf hp h2, bootSecond_passes hpass, htake]
      exact ⟨_, rfl, hstage, hslot, hfallback, rfl⟩
    · rw [bootStage_second hf hp h2, bootSecond_fails hfail]
      exact ⟨_, rfl, rfl, rfl, rfl, rfl, rfl⟩
    · rw [bootStage_done hf hp h3]
      exact ⟨_, rfl, rfl, rfl, rfl, rfl, rfl, rfl, rfl, rfl, rfl, rfl, rfl, rfl, rfl, rfl⟩
  · exact fun i hrun hsurv hwritten hsecret hi he => bootCountRecord_writes hstage hrun hsurv hwritten hsecret hi he
  · exact fun i hup hsurv hi => lastGaspErase_erases hstage hup hsurv hi

end Sys2Proof.Machine

/-! PROOFS. First strokes of the access descriptors (O58): the exchange that a context access asks of a core's monitor, register
accesses, the first batch of a memory move, and the monitor's installation. -/
namespace Sys2Proof.Machine

theorem exec_readReg (e : Nat) (s : State) : exec (.readReg e) s = s.row e 0x20 noCheck regAdv repItem := rfl
theorem exec_writeReg (e : Nat) (s : State) : exec (.writeReg e) s = s.row e 0x21 noCheck regAdv repItem := rfl
theorem exec_readMem (e : Nat) (s : State) : exec (.readMem e) s = s.row e 0x22 noCheck memAdv memRep := rfl
theorem exec_writeMem (e : Nat) (s : State) : exec (.writeMem e) s = s.row e 0x23 noCheck memAdv memRep := rfl
theorem exec_installMonitor (e : Nat) (s : State) : exec (.installMonitor e) s = s.row e 0x24 noCheck installAdv repItem := rfl

/-! ### READ_REG and WRITE_REG of registers (R449, R450) -/

theorem accessCount_readReg {d : BitVec 512} (h : opcodeOf d = 0x20) : accessCount d = regCount d := if_pos h
theorem accessCount_writeReg {d : BitVec 512} (h : opcodeOf d = 0x21) : accessCount d = 1 := by simp [accessCount, h]

section
variable {s : State} {e : Nat} {w : Work} {i : Item} (hreg : dbits i.desc 0x10 0 1 = 0)
include hreg
theorem readReg_reads (hn : regCount i.desc ≠ 0) :
    s.Sends (.readReg e) e 0x20 w i s { i.push [regRead (dbits i.desc 0x14 10 7) (db i.desc 0x18 8) (regCount i.desc)] with stage := 1 } :=
  State.row_sends noCheck regAdv repItem (exec_readReg e s) fun hs => ⟨rfl, by simp [regAdv, hs.stage, hs.opcode, hreg, hn]⟩
theorem readReg_ends (hn : regCount i.desc = 0) : s.Ends (.readReg e) e 0x20 w i s i.done .ok :=
  State.ends_done (exec_readReg e s) (Nat.zero_le 99) fun hs =>
    ⟨.of_eq (by simp [regAdv, hs.stage, hs.opcode, hreg, hn, Item.done]), hs.isSome, fun _ => rfl, hs.highest_ok⟩
theorem writeReg_writes : s.Sends (.writeReg e) e 0x21 w i s { i.push [regWr (dbits i.desc 0x14 10 7) (db i.desc 0x18 8) (db i.desc 0x28 4)] with stage := 2 } :=
  State.row_sends noCheck regAdv repItem (exec_writeReg e s) fun hs => ⟨rfl, by simp [regAdv, hs.stage, hs.opcode, hreg]⟩
end

/-! ### Context accesses (R436) -/

section
variable {s : State} {w : Work} {i : Item}
theorem regAdv_context (hst : i.stage = 0) (hc : dbits i.desc 0x10 0 1 = 1) : regAdv s w i = s.ctxAccess w i := by
  simp [regAdv, hst, hc]
theorem ctxAccess_engine (h9 : bit (dbits i.desc 0x14 0 17) 9 = true) : s.ctxAccess w i = s.setItem w (i.fail .aborted) := if_pos h9
variable (h9 : bit (dbits i.desc 0x14 0 17) 9 = false)
include h9
theorem ctxAccess_empty (hn : accessCount i.desc = 0) : s.ctxAccess w i = s.setItem w i.done := by
  simp [State.ctxAccess, h9, hn]
theorem ctxAccess_noCore (hn : accessCount i.desc ≠ 0) (hcore : 32 ≤ dbits i.desc 0x14 0 17 % 512) :
    s.ctxAccess w i = s.setItem w (i.fail .chipAbsent) := by
  simp [State.ctxAccess, h9, hn, hcore]
theorem ctxAccess_asks (hn : accessCount i.desc ≠ 0) (hcore : dbits i.desc 0x14 0 17 % 512 < 32)
    (hup : s.issueStatus (dbits i.desc 0x14 0 17 / 1024) = none)
    (hodd : ((s.chip (dbits i.desc 0x14 0 17 / 1024)).core (dbits i.desc 0x14 0 17 % 512)).odd ≠ 3) :
    s.ctxAccess w i = s.setItem w { i.askMonitor s.now (dbits i.desc 0x14 0 17) (db i.desc 0x18 8) (accessCount i.desc)
      (opcodeOf i.desc == 0x21) (db i.desc 0x28 4) with stage := 3 } := by
  simp [State.ctxAccess, h9, hn, Nat.not_le.mpr hcore, hup, hodd]
end

section
variable {s : State} {c : Instr} {e op : Nat} {w : Work} {i : Item} (hex : exec c s = s.row e op noCheck regAdv repItem)
  (hc : dbits i.desc 0x10 0 1 = 1)
include hex hc
theorem context_engine_aborts (h9 : bit (dbits i.desc 0x14 0 17) 9 = true) : s.Ends c e op w i s (i.fail .aborted) .aborted :=
  State.ends_done hex (Nat.zero_le 99) fun hs =>
    ⟨.of_eq ((regAdv_context hs.stage hc).trans (ctxAccess_engine h9)), hs.isSome, fun _ => rfl, hs.highest_aborted⟩
variable (h9 : bit (dbits i.desc 0x14 0 17) 9 = false)
include h9
theorem context_empty_ends (hn : opcodeOf i.desc = op → accessCount i.desc = 0) : s.Ends c e op w i s i.done .ok :=
  State.ends_done hex (Nat.zero_le 99) fun hs =>
    ⟨.of_eq ((regAdv_context hs.stage hc).trans (ctxAccess_empty h9 (hn hs.opcode))), hs.isSome, fun _ => rfl, hs.highest_ok⟩
theorem context_noCore_ends (hn : opcodeOf i.desc = op → accessCount i.desc ≠ 0) (hcore : 32 ≤ dbits i.desc 0x14 0 17 % 512) :
    s.Ends c e op w i s (i.fail .chipAbsent) .chipAbsent :=
  State.ends_done hex (Nat.zero_le 99) fun hs =>
    ⟨.of_eq ((regAdv_context hs.stage hc).trans (ctxAccess_noCore h9 (hn hs.opcode) hcore)), hs.isSome, fun _ => rfl, by rw [hs.errs]; rfl⟩
theorem context_asks (hcore : dbits i.desc 0x14 0 17 % 512 < 32) (hup : s.issueStatus (dbits i.desc 0x14 0 17 / 1024) = none)
    (hodd : ((s.chip (dbits i.desc 0x14 0 17 / 1024)).core (dbits i.desc 0x14 0 17 % 512)).odd ≠ 3) {n : Nat} {write : Bool} (hn : n ≠ 0)
    (hop : opcodeOf i.desc = op → accessCount i.desc = n ∧ (opcodeOf i.desc == 0x21) = write) :
    s.Waits c e op w i s { i.askMonitor s.now (dbits i.desc 0x14 0 17) (db i.desc 0x18 8) n write (db i.desc 0x28 4) with stage := 3 } :=
  State.row_waits noCheck regAdv repItem hex fun hs => by
    obtain ⟨rfl, rfl⟩ := hop hs.opcode
    exact ⟨rfl, (regAdv_context hs.stage hc).trans (ctxAccess_asks h9 hn hcore hup hodd), hs.isSome, Wait.noConfusion⟩
end

/-! ### READ_MEM and WRITE_MEM (R447, R448, R451) -/

/-- An empty batch has no writes, whatever it is to. -/
theorem batchWrites_nil (s : State) (d : BitVec 512) (at_ : Nat) : s.batchWrites d at_ [] = [] := by
  simp [State.batchWrites, pieces, chipWrites, storeWrites, norWrites, memPieces]
theorem batchNow_nil (s : State) (d : BitVec 512) (at_ : Nat) : s.batchNow d at_ [] = s := by simp [State.batchNow]
@[simp] theorem Item.push_nil (i : Item) : i.push [] = i := by simp [Item.push]

/-- The reads of the first batch of a move: of host memory for a WRITE_MEM, of the chip or the hub for a READ_MEM. -/
def State.firstReads (s : State) (i : Item) : Item :=
  if opcodeOf i.desc = 0x23 then i.push (hostReads (db i.desc 0x20 8) (batchLen (db i.desc 0x18 8) (db i.desc 0x14 4) 0))
  else s.batchReads i (db i.desc 0x18 8) (batchLen (db i.desc 0x18 8) (db i.desc 0x14 4) 0)
/-- The reads of a batch leave what the item keeps under its keys. -/
theorem batchReads_x (s : State) (i : Item) (a n : Nat) : (s.batchReads i a n).x = i.x :=
  List.foldlRecOn (motive := fun j : Item => j.x = i.x) _ _ rfl fun j hj p _ => by
    dsimp only
    split
    · exact hj
    · split <;> exact hj
theorem batchReads_chip (s : State) {i : Item} (a n : Nat) (hchip : memHub i.desc = false) : s.batchReads i a n =
    (memPieces a n).foldl (fun (j : Item) p => j.push [.rd (dbits i.desc 0x11 0 7) (a + p.1) p.2]) i := by
  unfold State.batchReads
  dsimp only
  generalize dbits i.desc 0x11 0 7 = f
  induction memPieces a n generalizing i with
  | nil => rfl
  | cons p l ih =>
    rw [List.foldl_cons, List.foldl_cons, hchip]
    exact ih (i := i.push [.rd f (a + p.1) p.2]) hchip
theorem firstReads_x (s : State) (i : Item) : (s.firstReads i).x = i.x := by
  unfold State.firstReads
  split
  · rfl
  · exact batchReads_x ..
/-- With nothing read yet there is nothing to write: the stroke begins with the reads of the first batch. -/
theorem moveBatch_first {s : State} {e op : Nat} {w : Work} {i : Item} (hs : s.Starts e op w i) (hlen : db i.desc 0x14 4 ≠ 0) :
    s.moveBatch w i = (if memHub i.desc then { s with freeIx := s.freeIx + 8192 } else s).setItem w
      { s.firstReads i with stage := 1, x := tput 0 [] 2 (s.firstReads i).nextIx } := by
  obtain ⟨d, f, b, el, g, rfl⟩ := hs.form
  unfold State.moveBatch
  extract_lets d' len at_ lo n good v stop ws next u x pushed j m k t
  have hws : ws = [] := batchWrites_nil s d at_
  have hu : u = s := batchNow_nil s d at_
  have hnext : next = 0 := rfl
  have hstop : ¬ stop := by simp [stop, good, n, tget]
  have hx : x = [] := by simp [x, hws, hnext, hstop, b2n, tput]
  have hj : j = Item.fresh d f b el g := by
    unfold j pushed
    rw [hws, hx]
    rfl
  have hk : k = s.firstReads (Item.fresh d f b el g) := by
    unfold k m
    rw [hj, hu, hnext]
    simp only [Nat.add_zero]
    rfl
  have hmore : ¬ (stop ∨ len ≤ next) := not_or.mpr ⟨hstop, fun hle => hlen (Nat.le_zero.mp hle)⟩
  refine (if_neg (Nat.not_lt_zero _)).trans ((if_neg hmore).trans ?_)
  unfold t
  rw [hj, hk, hu, firstReads_x]
  rfl
section
variable {s : State} {c : Instr} {e op : Nat} {w : Work} {i : Item} (hex : exec c s = s.row e op noCheck memAdv memRep)
include hex
/-- The state in which a move's first batch is issued: the reads of hub content have their free values (R50). -/
theorem memMove_sends (hlen : db i.desc 0x14 4 ≠ 0) :
    s.Sends c e op w i (if memHub i.desc then { s with freeIx := s.freeIx + 8192 } else s)
      { s.firstReads i with stage := 1, x := tput 0 [] 2 (s.firstReads i).nextIx } :=
  State.row_sends noCheck memAdv memRep hex fun hs => ⟨rfl, (if_neg hlen).trans (moveBatch_first hs hlen)⟩
theorem memMove_empty_ends (hlen : db i.desc 0x14 4 = 0) : s.Ends c e op w i s i.done .ok :=
  State.ends_done hex (Nat.zero_le 99) fun hs =>
    ⟨.of_eq (if_pos hlen), hs.isSome, fun _ => by rw [hs.fresh]; rfl, hs.highest_ok⟩
end

/-! ### INSTALL_MONITOR (R151, R152) -/

theorem installMonitor_writes (s : State) (e : Nat) (w : Work) (i : Item) :
    s.Sends (.installMonitor e) e 0x24 w i s { i.push (((s.rangeChips i.desc).map (fun f => ((maskCores i.desc).map (fun n =>
      [OpK.wr f (coreMemBase + 0x10000 * n + 0xE000) (s.monitorCopy.take 4096), OpK.wr f (coreMemBase + 0x10000 * n + 0xF000) (s.monitorCopy.drop 4096)])).flatten)).flatten)
      with stage := 1 } :=
  State.row_sends noCheck installAdv repItem (exec_installMonitor e s) fun hs => ⟨rfl, if_pos hs.stage⟩

/-- Settles O58: register and context accesses by the branches of their first advance, moves by their first batch. -/
theorem accessDescriptorsRun : Obligations.AccessDescriptorsRun := by
  intro s e w i
  refine ⟨fun hreg => ⟨readReg_reads hreg, readReg_ends hreg, writeReg_writes hreg⟩, ?_, ?_, ?_, ?_, installMonitor_writes s e w i⟩
  · rintro u hc rfl
    refine ⟨fun h9 => ⟨context_engine_aborts (exec_readReg e s) hc h9, context_engine_aborts (exec_writeReg e s) hc h9⟩, fun h9 hn => ?_, fun h9 hcore => ?_,
      fun h9 hcore hup hodd => ⟨fun hn => ?_, ?_⟩⟩
    · exact context_empty_ends (exec_readReg e s) hc h9 fun hop => (accessCount_readReg hop).trans hn
    · exact context_noCore_ends (exec_writeReg e s) hc h9 (fun hop => by rw [accessCount_writeReg hop]; exact Nat.one_ne_zero) hcore
    · exact context_asks (exec_readReg e s) hc h9 hcore hup hodd hn fun hop => ⟨accessCount_readReg hop, by rw [hop]; rfl⟩
    · exact context_asks (exec_writeReg e s) hc h9 hcore hup hodd Nat.one_ne_zero fun hop => ⟨accessCount_writeReg hop, by rw [hop]; rfl⟩
  · exact fun hlen => ⟨memMove_empty_ends (exec_readMem e s) hlen, memMove_empty_ends (exec_writeMem e s) hlen⟩
  · rintro u n hlen rfl rfl
    constructor
    · rintro j rfl hs
      have h := memMove_sends (exec_readMem e s) hlen hs
      have hop : ¬ opcodeOf i.desc = 0x23 := by rw [hs.opcode]; decide
      rwa [State.firstReads, if_neg hop] at h
    · rintro j rfl hs
      have h := memMove_sends (exec_writeMem e s) hlen hs
      rwa [State.firstReads, if_pos hs.opcode] at h
  · rintro f a n hchip rfl
    exact batchReads_chip s a n hchip

end Sys2Proof.Machine

/-! PROOFS. Fuses (O5): every command is orderly, and so is a tick of the clocks. -/
namespace Sys2Proof.Machine

/-- Every command is orderly, each by the law of its meaning. -/
theorem exec_orderly (c : Instr) (s : State) : OrdOut s (exec c s) := by
  cases c <;> simp [exec]
/-- A tick moves the time, and what follows of it is orderly. -/
theorem tick_stay (s : State) : s.fuses.stay s.tick.fuses := by
  unfold State.tick
  extract_lets u v
  have hedge : Orderly u v := orderly_ite (State.aonTick_ord u (Orderly.refl u)) (Orderly.refl u)
  obtain ⟨-, -, hfuses, -⟩ := State.rebootReset_ord v hedge
  exact hfuses
/-- Settles O5: the command in front is orderly, and an empty queue ticks. -/
theorem burnedFusesStayBurned : Obligations.BurnedFusesStayBurned := by
  intro s t h
  unfold step at h
  split at h
  · next c rest _ =>
    obtain ⟨-, -, hfuses, -⟩ := exec_orderly c { s with pending := rest } t h
    exact hfuses
  · cases h
    exact tick_stay s

end Sys2Proof.Machine

/-! PROOFS. LCS_REQ and CERT_LOAD on the scan port (O23): what a row of a selected register finds, what a request posted from the
port makes of the queue, and the words its captures hold. -/
namespace Sys2Proof.Machine

/-! ### Rows of a selected register -/

/-- TCK changes the power block alone: its events, and those coming and held. -/
theorem State.tck_eq (s : State) : ∃ e l m, s.tck = { s with pwr := { s.pwr with events := e, seen := l, coming := m } } := by
  unfold State.tck State.wakeEvent State.seeEvent
  dsimp only
  split
  · split <;> exact ⟨_, _, _, rfl⟩
  · exact ⟨_, _, _, rfl⟩
@[simp] theorem State.tck_scanSel (s : State) (code : Nat) : s.tck.scanSel code = s.scanSel code := by
  obtain ⟨_, _, _, h⟩ := s.tck_eq
  rw [h]; rfl
@[simp] theorem State.tck_fastUp (s : State) : s.tck.fastUp = s.fastUp := by
  obtain ⟨_, _, _, h⟩ := s.tck_eq
  rw [h]; rfl
@[simp] theorem State.tck_hub (s : State) : s.tck.hub = s.hub := by
  obtain ⟨_, _, _, h⟩ := s.tck_eq
  rw [h]
@[simp] theorem State.tck_lcs (s : State) : s.tck.lcs = s.lcs := by
  obtain ⟨_, _, _, h⟩ := s.tck_eq
  rw [h]
@[simp] theorem State.tck_auth (s : State) : s.tck.auth = s.auth := by
  obtain ⟨_, _, _, h⟩ := s.tck_eq
  rw [h]
@[simp] theorem State.tck_scan (s : State) : s.tck.scan = s.scan := by
  obtain ⟨_, _, _, h⟩ := s.tck_eq
  rw [h]
theorem State.tck_lcsStatus (s : State) : s.tck.lcsStatus = s.lcsStatus := by
  simp only [State.lcsStatus, State.coreBusy, State.tck_hub, State.tck_lcs]
theorem State.tck_lcsState (s : State) : s.tck.lcsState = s.lcsState := by
  simp only [State.lcsState, State.tck_lcs]
theorem State.tck_certStatus (s : State) : s.tck.certStatus = s.certStatus := by
  simp only [State.certStatus, State.coreBusy, State.tck_hub, State.tck_auth]
theorem State.tck_certSlots (s : State) : s.tck.certSlots = s.certSlots := by
  simp only [State.certSlots, State.tck_auth]
theorem scanRow_selected {s : State} {code : Nat} (hlive : s.tapLive = true) (hsel : s.scanSel code = true) (f : State → State) :
    s.scanRow (fun u => u.onSel code f) = .next (f s.tck) := by
  simp [State.scanRow, State.onSel, hlive, hsel]
theorem fastUpdate_up {s : State} (h : s.fastUp = true) (f : State → State) : s.fastUpdate f = f s := if_pos h

/-! ### Requests -/

theorem postCore_of_free {s : State} {k : Nat} (h : s.coreBusy k = false) (src : Nat) (d : List Nat) : s.postCore none k src d =
    { s with sramClean := s.sramClean && decide (2 ≤ k), hub := { s.hub with coreQ := s.hub.coreQ ++ [(none, k :: src :: d)] } } := by
  simp [State.postCore, h]
theorem postCore_lcs_of_busy {s : State} (h : s.coreBusy 0 = true) (src : Nat) (d : List Nat) :
    s.postCore none 0 src d = s.lcsEnd 0xB s.lcs.state (d.getD 0x19 0 % 16) (src == 1) := by
  simp [State.postCore, h]
theorem postCore_cert_of_busy {s : State} (h : s.coreBusy 1 = true) (src : Nat) (d : List Nat) :
    s.postCore none 1 src d = s.certEnd 0xB 0 (src == 1) := by
  simp [State.postCore, h]

section
variable {s : State} (hlive : s.tapLive = true) (hup : s.fastUp = true) (hfree : s.coreFree true = true)
include hlive hup hfree
/-- A SUBMIT posts its request while a slot of the bound is free. -/
theorem scanRow_submits {code : Nat} (hsel : s.scanSel code = true) (k : Nat) (d : List Nat) :
    s.scanRow (fun u => u.onSel code (fun u => u.fastUpdate (fun u => u.scanCore k d))) = .next (s.tck.postCore none k 1 d) := by
  have hfree' : s.tck.coreFree true = true := by rwa [State.coreFree, State.tck_hub]
  rw [scanRow_selected hlive hsel, fastUpdate_up (s.tck_fastUp.trans hup), State.scanCore, if_pos hfree']
theorem scanRow_posts {code : Nat} (hsel : s.scanSel code = true) {k : Nat} (hbusy : s.coreBusy k = false) (d : List Nat) :
    ∃ t, s.scanRow (fun u => u.onSel code (fun u => u.fastUpdate (fun u => u.scanCore k d))) = .next t ∧
      t.hub.coreQ = s.hub.coreQ ++ [(none, k :: 1 :: d)] ∧ { t with hub := s.hub, sramClean := s.sramClean } = s.tck := by
  have hbusy' : s.tck.coreBusy k = false := by rwa [State.coreBusy, State.tck_hub]
  rw [scanRow_submits hlive hup hfree hsel, postCore_of_free hbusy']
  obtain ⟨_, _, _, h⟩ := s.tck_eq
  rw [h]
  exact ⟨_, rfl, rfl, rfl⟩
theorem lcsReqSubmit_busy (hsel : s.scanSel 0x20 = true) (hbusy : s.coreBusy 0 = true) (d : BitVec 2048) :
    ∃ t, exec (.lcsReqSubmit d) s = .next t ∧ t.hub = s.hub ∧ t.lcs.result = 0xB ∧ t.lcs.nonce = s.lcs.nonce ∧ t.lcs.nonceValid = s.lcs.nonceValid ∧
      t.lcs.state = s.lcs.state := by
  have hbusy' : s.tck.coreBusy 0 = true := by rwa [State.coreBusy, State.tck_hub]
  refine ⟨_, (scanRow_submits hlive hup hfree hsel 0 _).trans (congrArg _ (postCore_lcs_of_busy hbusy' 1 _)), ?_⟩
  unfold State.lcsEnd
  obtain ⟨_, _, h⟩ := State.activate_activated _ 176 _
  rw [h]
  simp
theorem certLoadSubmit_busy (hsel : s.scanSel 0x21 = true) (hbusy : s.coreBusy 1 = true) (c : BitVec 4096) :
    ∃ t, exec (.certLoadSubmit c) s = .next t ∧ t.hub = s.hub ∧ t.auth.result = 0xB ∧ t.auth.certs = s.auth.certs := by
  have hbusy' : s.tck.coreBusy 1 = true := by rwa [State.coreBusy, State.tck_hub]
  refine ⟨_, (scanRow_submits hlive hup hfree hsel 1 _).trans (congrArg _ (postCore_cert_of_busy hbusy' 1 _)), ?_⟩
  unfold State.certEnd
  obtain ⟨_, _, h⟩ := State.activate_activated _ 177 _
  rw [h]
  simp
end

/-! ### Captures -/

/-- What stands above the low `lo` bits of a number has its fields there. -/
theorem fld_above {a lo : Nat} (ha : a < 2 ^ lo) (b k w : Nat) : fld (a + b <<< lo) (lo + k) w = fld b k w := by
  rw [fld, fld, Nat.shiftRight_add, Nat.shiftLeft_eq, Nat.shiftRight_eq_div_pow _ lo, Nat.add_mul_div_right _ _ (Nat.two_pow_pos lo),
    Nat.div_eq_of_lt ha, Nat.zero_add]
theorem fld_below {a lo : Nat} (ha : a < 2 ^ lo) (b : Nat) : fld (a + b <<< lo) 0 lo = a := by
  rw [fld, Nat.shiftRight_zero, Nat.shiftLeft_eq, Nat.add_mul_mod_self_right, Nat.mod_eq_of_lt ha]
theorem add_shl (a b n : Nat) : (a + b) <<< n = a <<< n + b <<< n := by
  simp only [Nat.shiftLeft_eq, Nat.add_mul]
theorem bit_eq_fld (x k : Nat) : bit x k = decide (fld x k 1 = 1) := by
  rw [bit, Nat.testBit_eq_decide_div_mod_eq, fld, Nat.shiftRight_eq_div_pow, Nat.pow_one]
theorem maskOf_lt (n : Nat) (p : Nat → Bool) : maskOf n p < 2 ^ n := by
  refine Nat.lt_pow_two_of_testBit _ fun b hb => ?_
  rw [show (maskOf n p).testBit b = _ from maskOf_bit n p b]
  simp [Nat.not_lt.mpr hb]

/-- The fields of the LCS_REQ capture (R234). -/
theorem lcsReqTake_fields {s : State} (hst : s.lcsStatus < 2 ^ 32) (hs : s.lcsState < 2 ^ 32) {x : Nat} (hx : s.lcsReqTake.scan.capture = x) :
    fld x 0 32 = s.lcsStatus ∧ fld x 32 32 = s.lcsState ∧ fld x 64 128 = s.lcs.nonce.toNat ∧ bit x 192 = s.lcs.nonceValid := by
  have hn : s.lcs.nonce.toNat < 2 ^ 128 := s.lcs.nonce.isLt
  have hv : b2n s.lcs.nonceValid < 2 ^ 1 := by cases s.lcs.nonceValid <;> decide
  have hnested : x = s.lcsStatus + (s.lcsState + (s.lcs.nonce.toNat + b2n s.lcs.nonceValid <<< 128) <<< 32) <<< 32 := by
    rw [← hx]
    show s.lcsStatus + place s.lcsState 32 32 + place s.lcs.nonce.toNat 64 128 + place (b2n s.lcs.nonceValid) 192 1 = _
    simp only [place, Nat.mod_eq_of_lt hs, Nat.mod_eq_of_lt hn, Nat.mod_eq_of_lt hv, add_shl, ← Nat.shiftLeft_add, Nat.reduceAdd, Nat.add_assoc]
  have hvalid : fld x 192 1 = b2n s.lcs.nonceValid := by
    rw [hnested]
    exact (fld_above hst _ 160 1).trans ((fld_above hs _ 128 1).trans ((fld_above hn _ 0 1).trans (Nat.mod_eq_of_lt hv)))
  refine ⟨?_, ?_, ?_, ?_⟩
  · rw [hnested]
    exact fld_below hst _
  · rw [hnested]
    exact (fld_above hst _ 0 32).trans (fld_below hs _)
  · rw [hnested]
    exact (fld_above hst _ 32 128).trans ((fld_above hs _ 0 128).trans (fld_below hn _))
  · rw [bit_eq_fld, hvalid]
    cases s.lcs.nonceValid <;> rfl
theorem State.certSlots_lt (s : State) : s.certSlots < 2 ^ 32 := by
  have hheld := maskOf_lt 8 fun n => (tget none s.auth.certs n).isSome
  unfold State.certSlots
  rw [place, Nat.shiftLeft_eq]
  omega
/-- The fields of the CERT_LOAD capture (R235). -/
theorem certTake_fields {s : State} (hup : s.fastUp = true) (hst : s.certStatus < 2 ^ 32) :
    fld s.certTake.scan.capture 0 32 = s.certStatus ∧ fld s.certTake.scan.capture 32 32 = s.certSlots := by
  have hs := s.certSlots_lt
  have hnested : s.certTake.scan.capture = s.certStatus + s.certSlots <<< 32 := by
    rw [State.certTake, if_pos hup]
    show s.certStatus + place s.certSlots 32 32 = _
    rw [place, Nat.mod_eq_of_lt hs]
  rw [hnested]
  exact ⟨fld_below hst _, (fld_above hst _ 0 32).trans (Nat.mod_eq_of_lt hs)⟩
/-- A capture changes nothing else. -/
theorem setCapture_frame {s u : State} (h : u.scan = s.scan) (v : Nat) :
    { u.setCapture v with scan := { (u.setCapture v).scan with capture := s.scan.capture } } = u := by
  rw [← h]
  rfl
theorem lcsReqCapture_shows {s : State} (hlive : s.tapLive = true) (hsel : s.scanSel 0x20 = true) (hst : s.lcsStatus < 2 ^ 32) (hs : s.lcsState < 2 ^ 32) :
    ∃ t, exec .lcsReqCapture s = .next t ∧ { t with scan := { t.scan with capture := s.scan.capture } } = s.tck ∧ fld t.scan.capture 0 32 = s.lcsStatus ∧
      fld t.scan.capture 32 32 = s.lcsState ∧ fld t.scan.capture 64 128 = s.lcs.nonce.toNat ∧ bit t.scan.capture 192 = s.lcs.nonceValid := by
  refine ⟨s.tck.lcsReqTake, scanRow_selected hlive hsel State.lcsReqTake, ?_, ?_⟩
  · exact setCapture_frame s.tck_scan _
  · rw [← s.tck_lcsStatus] at hst ⊢
    rw [← s.tck_lcsState] at hs ⊢
    rw [← s.tck_lcs]
    exact lcsReqTake_fields hst hs rfl
theorem certLoadCapture_shows {s : State} (hlive : s.tapLive = true) (hsel : s.scanSel 0x21 = true) (hup : s.fastUp = true) (hst : s.certStatus < 2 ^ 32) :
    ∃ t, exec .certLoadCapture s = .next t ∧ { t with scan := { t.scan with capture := s.scan.capture } } = s.tck ∧ fld t.scan.capture 0 32 = s.certStatus ∧
      fld t.scan.capture 32 32 = s.certSlots := by
  have hup' : s.tck.fastUp = true := s.tck_fastUp.trans hup
  have hexec : exec .certLoadCapture s = .next s.tck.certTake :=
    (scanRow_selected hlive hsel _).trans (congrArg _ (fastUpdate_up (s := s.tck.certTake) hup' id))
  refine ⟨_, hexec, ?_, ?_⟩
  · exact setCapture_frame s.tck_scan _
  · rw [← s.tck_certStatus] at hst ⊢
    rw [← s.tck_certSlots]
    exact certTake_fields hup' hst
theorem lcsReqNewNonce_draws {s : State} (hlive : s.tapLive = true) (hsel : s.scanSel 0x20 = true) :
    ∃ t, exec .lcsReqNewNonce s = .next t ∧ t.lcs = { s.lcs with nonce := (s.tck.freeWide 128).1, nonceValid := true } ∧
      { t with lcs := s.lcs, freeIx := s.freeIx } = s.tck := by
  refine ⟨_, scanRow_selected hlive hsel State.nonceNew, ?_⟩
  obtain ⟨_, _, _, h⟩ := s.tck_eq
  rw [h]
  exact ⟨rfl, rfl⟩

/-- Settles O23: a SUBMIT posts or is answered BUSY, NEW_NONCE draws, and each capture holds its fields. -/
theorem scanRequestsAndNonce : Obligations.ScanRequestsAndNonce := by
  intro s d c hlive
  exact ⟨fun hsel hup hfree hbusy => scanRow_posts hlive hup hfree hsel hbusy _,
    fun hsel hup hfree hbusy => lcsReqSubmit_busy hlive hup hfree hsel hbusy d,
    fun hsel hup hfree hbusy => scanRow_posts hlive hup hfree hsel hbusy _,
    fun hsel hup hfree hbusy => certLoadSubmit_busy hlive hup hfree hsel hbusy c,
    fun hsel => lcsReqNewNonce_draws hlive hsel,
    fun hsel hst hs => lcsReqCapture_shows hlive hsel hst hs,
    fun hsel hup hst => certLoadCapture_shows hlive hsel hup hst⟩

end Sys2Proof.Machine

/-! PROOFS. Lifecycle requests (O48): what burning a list of bits leaves burned, what the end of a request leaves as it was, and a
transition from its beginning to its end. -/
namespace Sys2Proof.Machine

/-! ### Fuse bits -/

/-- A bit that lies in its field, where the field is SECRET or IKEY_HASH. -/
def InField (b : Nat × Nat) : Prop := (b.1 = 0 → b.2 < 512) ∧ (b.1 = 1 → b.2 < 384)
theorem bit_or_twoPow (v b : Nat) : bit (v ||| 2 ^ b) b = true := by simp [bit]
@[simp] theorem Fuses.group_burnGroup (f : Fuses) (k v j : Nat) : (f.burnGroup k v).group j = if j = k then f.group k ||| v else f.group j :=
  tget_tput _ _ _ _ _
theorem burned_burnBit_self (f : Fuses) {b : Nat × Nat} (hb : InField b) : (f.burnBit b).burned b = true := by
  obtain ⟨k, n⟩ := b
  obtain ⟨hsecret, hkey⟩ := hb
  unfold Fuses.burned Fuses.burnBit
  dsimp only at *
  split
  · next h => simp [hsecret h]
  · split
    · next h => simp [hkey h]
    · split
      · exact bit_or_twoPow _ _
      · rw [Fuses.group_burnGroup, if_pos rfl, bit_or_twoPow]
theorem burned_burnBit_of_burned {f : Fuses} {c : Nat × Nat} (h : f.burned c = true) (b : Nat × Nat) : (f.burnBit b).burned c = true := by
  obtain ⟨-, hgroups, hsecret, hkey, -⟩ := f.stay_burnBit b
  have hdone : bit f.ikeyDone c.2 = true → bit (f.burnBit b).ikeyDone c.2 = true := fun h => by
    unfold Fuses.burnBit
    split
    · exact h
    · split
      · exact h
      · split
        · rw [bit_or, h]; rfl
        · exact h
  unfold Fuses.burned at h ⊢
  by_cases h0 : c.1 = 0
  · rw [if_pos h0] at h ⊢
    exact hsecret _ h
  by_cases h1 : c.1 = 1
  · rw [if_neg h0, if_pos h1] at h ⊢
    exact hkey _ h
  by_cases h2 : c.1 = 2
  · rw [if_neg h0, if_neg h1, if_pos h2] at h ⊢
    exact hdone h
  · rw [if_neg h0, if_neg h1, if_neg h2] at h ⊢
    exact hgroups _ _ h
theorem burned_burnList_of_burned {f : Fuses} {c : Nat × Nat} (h : f.burned c = true) (stuck l : List (Nat × Nat)) : (f.burnList stuck l).burned c = true :=
  List.foldlRecOn (motive := fun g : Fuses => g.burned c = true) _ _ h fun g hg b _ => by
    split
    · exact hg
    · exact burned_burnBit_of_burned hg b
/-- With no bit stuck, every bit of the list is burned. -/
theorem burned_burnList {l : List (Nat × Nat)} (hl : ∀ b ∈ l, InField b) (f : Fuses) : ∀ b ∈ l, (f.burnList [] l).burned b = true := by
  induction l generalizing f with
  | nil => exact fun b hb => absurd hb List.not_mem_nil
  | cons c l ih =>
    intro b hb
    show ((f.burnBit c).burnList [] l).burned b = true
    obtain rfl | hmem := List.mem_cons.mp hb
    · exact burned_burnList_of_burned (burned_burnBit_self f (hl b List.mem_cons_self)) [] l
    · exact ih (fun a ha => hl a (List.mem_cons_of_mem c ha)) (f.burnBit c) b hmem
/-- Bits of SECRET, IKEY_HASH and IKEY_DONE leave the lifecycle groups. -/
theorem groups_burnList {l : List (Nat × Nat)} (hl : ∀ b ∈ l, b.1 < 3) (stuck : List (Nat × Nat)) (f : Fuses) : (f.burnList stuck l).groups = f.groups :=
  List.foldlRecOn (motive := fun g : Fuses => g.groups = f.groups) _ _ rfl fun g hg b hb => by
    have hk := hl b hb
    split
    · exact hg
    · unfold Fuses.burnBit
      split
      · exact hg
      · split
        · exact hg
        · rw [if_pos (by omega)]
          exact hg
/-- The bits of a transition are bits of the four fields. -/
theorem lcsBurns_inField (s : State) (q : LcsReq) (draw : BitVec 512) : ∀ b ∈ s.lcsBurns q draw, InField b ∧ b.1 ≤ 3 := by
  intro b hb
  have hmem := (List.mem_filter.mp hb).1
  simp only [List.mem_append, List.mem_map] at hmem
  obtain (⟨i, hi, rfl⟩ | hkey) | ⟨i, -, rfl⟩ := hmem
  · have hlt : i < 512 := by
      split at hi
      · exact List.mem_range.mp (List.mem_filter.mp hi).1
      · split at hi
        · exact List.mem_range.mp hi
        · exact absurd hi List.not_mem_nil
    simp [InField, hlt]
  · split at hkey
    · simp only [List.mem_append, List.mem_map] at hkey
      obtain ⟨i, hi, rfl⟩ | ⟨i, -, rfl⟩ := hkey
      · have hlt : i < 384 := List.mem_range.mp (List.mem_filter.mp hi).1
        simp [InField, hlt]
      · simp [InField]
    · exact absurd hkey List.not_mem_nil
  · simp [InField]

/-! ### The end of a request -/

/-- From `s` to `t` fuses and storage are as they were, and so are the lifecycle registers but for the reboot that a SCRAPPED
transition owes. -/
structure LcsKept (s t : State) : Prop where
  fuses : t.fuses = s.fuses
  store : t.store = s.store
  sram : t.sram = s.sram
  nor : t.nor = s.nor
  lcs : ∃ owed, t.lcs = { s.lcs with scrapReboot := owed }
theorem LcsKept.refl (s : State) : LcsKept s s := ⟨rfl, rfl, rfl, rfl, _, rfl⟩
theorem LcsKept.trans {s t u : State} (h : LcsKept s t) (k : LcsKept t u) : LcsKept s u := by
  obtain ⟨hfuses, hstore, hsram, hnor, _, hlcs⟩ := h
  obtain ⟨kfuses, kstore, ksram, knor, owed, klcs⟩ := k
  exact ⟨kfuses.trans hfuses, kstore.trans hstore, ksram.trans hsram, knor.trans hnor, owed, by rw [klcs, hlcs]⟩
theorem Keeps.lcsKept {s t : State} (h : Keeps s t) : LcsKept s t := ⟨h.fuses, h.store, h.sram, h.nor, _, h.lcs⟩
theorem State.rebootNow_lcsKept (s : State) (cause : Nat) : LcsKept s (s.rebootNow cause) := by
  obtain ⟨u, hkeeps, -, -, hreboot⟩ := rebootNow_asks s cause
  rw [hreboot]
  exact hkeeps.lcsKept.trans ⟨rfl, rfl, rfl, rfl, _, rfl⟩
theorem State.scrapCheck_lcsKept (s : State) : LcsKept s s.scrapCheck := by
  unfold State.scrapCheck State.scrapNow
  split
  · exact LcsKept.refl s
  · split
    · refine LcsKept.trans ?_ (State.rebootNow_lcsKept _ 2)
      exact ⟨rfl, rfl, rfl, rfl, _, rfl⟩
    · split
      · refine LcsKept.trans ?_ (State.rebootNow_lcsKept _ 3)
        exact ⟨rfl, rfl, rfl, rfl, _, rfl⟩
      · exact LcsKept.refl s
theorem State.coreAnswer_offWork (s : State) (w : Work) (reply : List Byte) : OffWork s (s.coreAnswer w reply) := s.updItem_offWork w _
theorem State.coreReply_offWork (s : State) (reply : List Byte) : OffWork s (s.coreReply reply) := by
  unfold State.coreReply
  split
  · exact OffWork.refl s
  · next rest _ =>
    dsimp only
    split
    · refine OffWork.trans ?_ (State.coreAnswer_offWork _ _ reply)
      exact ⟨rfl⟩
    · exact ⟨rfl⟩
/-- The lifecycle registers with the status of a request that has ended (Table 6.12). -/
def Lcs.ended (l : Lcs) (result from_ to_ : Nat) (scan : Bool) : Lcs := { l with result := result, from_ := from_, to_ := to_, source := scan }
/-- The end of a request gives its status, and a reboot that follows it keeps the rest. -/
theorem State.lcsDone_lcsKept (s : State) (ow : Option Work) (src result from_ to_ : Nat) :
    LcsKept { s with lcs := s.lcs.ended result from_ to_ (src == 1) } (s.lcsDone ow src result from_ to_) := by
  unfold State.lcsDone
  extract_lets u v
  have hreply : Keeps s (s.coreReply [BitVec.ofNat 8 result]) := (s.coreReply_offWork _).keeps
  have hstatus : LcsKept { s with lcs := s.lcs.ended result from_ to_ (src == 1) } { s.coreReply [BitVec.ofNat 8 result] with
      lcs := (s.coreReply [BitVec.ofNat 8 result]).lcs.ended result from_ to_ (src == 1) } :=
    ⟨hreply.fuses, hreply.store, hreply.sram, hreply.nor, _, by rw [hreply.lcs]⟩
  have hu : LcsKept { s with lcs := s.lcs.ended result from_ to_ (src == 1) } u := hstatus.trans (State.activate_activated _ 176 _).keeps.lcsKept
  have hv : LcsKept u v := by
    unfold v
    split
    · split
      · exact LcsKept.trans (OffWork.keeps ⟨State.modItem_frame _ _ _⟩).lcsKept (State.scrapCheck_lcsKept _)
      · exact LcsKept.refl u
    · exact u.scrapCheck_lcsKept
  refine (hu.trans hv).trans ?_
  split
  · exact v.rebootNow_lcsKept 2
  · exact LcsKept.refl v

/-! ### Transitions -/

/-- Transition `r`, every bit of which had been tried in `s`, has ended in `t` with its result. -/
structure LcsEnds (s t : State) (r : LcsTrans) : Prop where
  fuses : t.fuses = s.fuses
  store : t.store = s.store
  sram : t.sram = s.sram
  nor : t.nor = s.nor
  trans : t.lcs.trans = none
  state : t.lcs.state = s.fuses.decode
  result : t.lcs.result = if r.bad then 0xC else 1
  from_ : t.lcs.from_ = r.from_
  to_ : t.lcs.to_ = r.target
  nonceValid : t.lcs.nonceValid = s.lcs.nonceValid
  wipe : r.bad = false → r.target = 5 → t.lcs.wipePending = true
theorem State.lcsFinish_ends (s : State) (ow : Option Work) (src : Nat) (r : LcsTrans) : LcsEnds s (s.lcsFinish ow src r) r := by
  unfold State.lcsFinish
  extract_lets _ u _ v
  have hu : u = { s with lcs := { s.lcs with trans := none, state := s.fuses.decode, leading := s.fuses.leading } } := rfl
  have hv : ∃ a p d n b, v = { u with lcs := { u.lcs with wipePending := a, percent := p, dsDone := d, norDone := n, scrapReboot := b } } ∧
      (r.bad = false → r.target = 5 → a = true) := by
    unfold v
    split
    · next hbad => exact ⟨_, _, _, _, _, rfl, fun h => absurd hbad (by simp [h])⟩
    · split
      · exact ⟨_, _, _, _, _, rfl, fun _ _ => rfl⟩
      · next htarget =>
        split <;> exact ⟨_, _, _, _, _, rfl, fun _ h => absurd h htarget⟩
  obtain ⟨_, _, _, _, _, hv, hwipe⟩ := hv
  obtain ⟨hfuses, hstore, hsram, hnor, _, hlcs⟩ := v.lcsDone_lcsKept ow src (if r.bad then 0xC else 1) r.from_ r.target
  generalize v.lcsDone .. = t at *
  rw [hv, hu] at hfuses hstore hsram hnor hlcs
  exact ⟨hfuses, hstore, hsram, hnor, (congrArg Lcs.trans hlcs :), (congrArg Lcs.state hlcs :), (congrArg Lcs.result hlcs :),
    (congrArg Lcs.from_ hlcs :), (congrArg Lcs.to_ hlcs :), (congrArg Lcs.nonceValid hlcs :),
    fun hbad htarget => (congrArg Lcs.wipePending hlcs :).trans (hwipe hbad htarget)⟩

/-- The storage as the wipes before the burns of a transition leave it. -/
def State.wipedFor (s : State) (r : LcsTrans) : State := if r.target = 6 ∧ !r.wiped then s.scrapWipes else s
/-- The burns of a transition that reach the bits of a list. -/
def State.burnt (s : State) (r : LcsTrans) (stuck l : List (Nat × Nat)) : State := { s.wipedFor r with fuses := s.fuses.burnList stuck l }
/-- A transition that has tried the bits of a list, which left the fuses `f`. -/
def LcsTrans.tried (r : LcsTrans) (f : Fuses) (l : List (Nat × Nat)) : LcsTrans :=
  { r with wiped := true, left := r.left.drop l.length, bad := r.bad || l.any (fun b => !f.burned b) }
theorem State.wipedFor_fuses (s : State) (r : LcsTrans) : (s.wipedFor r).fuses = s.fuses := by
  unfold State.wipedFor; split <;> rfl
theorem State.burnt_nonceValid (s : State) (r : LcsTrans) (stuck l : List (Nat × Nat)) : (s.burnt r stuck l).lcs.nonceValid = s.lcs.nonceValid := by
  unfold State.burnt State.wipedFor; split <;> rfl
theorem State.burnt_of_unscrapped (s : State) {r : LcsTrans} (h : r.target ≠ 6) (stuck l : List (Nat × Nat)) :
    s.burnt r stuck l = { s with fuses := s.fuses.burnList stuck l } := by
  rw [State.burnt, State.wipedFor, if_neg fun h6 => h h6.1]
theorem State.burnt_of_scrapped (s : State) {r : LcsTrans} (h : r.target = 6) (hw : r.wiped = false) (stuck l : List (Nat × Nat)) :
    (s.burnt r stuck l).sram = [] ∧ (s.burnt r stuck l).store = [] ∧ (s.burnt r stuck l).nor = [] := by
  rw [State.burnt, State.wipedFor, if_pos ⟨h, by rw [hw]; rfl⟩]
  exact ⟨rfl, rfl, rfl⟩

section
variable {s : State} {v : LcsView} {r : LcsTrans} (hcut : v.cut = none)
include hcut
/-- Where no power is lost and no wipe has to wait, a transition tries the bits that the warning lets it and ends or goes on. -/
theorem lcsCarry_tries (hgo : ¬ (r.target = 6 ∧ (!r.wiped) = true ∧ (s.line 17).level = true)) (ow : Option Work) (src : Nat)
    {l : List (Nat × Nat)} (hl : l = if (s.line 17).level then r.left.takeWhile (fun b => b.1 != 3) else r.left) {u : State} (hu : u = s.burnt r v.stuck l) :
    s.lcsCarry ow src r v =
      if (r.tried u.fuses l).left = [] then u.lcsFinish ow src (r.tried u.fuses l) else { u with lcs := { u.lcs with trans := some (r.tried u.fuses l) } } := by
  subst hl hu
  have hf : (s.wipedFor r).fuses = s.fuses := s.wipedFor_fuses r
  unfold State.burnt
  rw [← hf]
  unfold State.lcsCarry
  rw [if_neg (by simp [hcut]), if_neg hgo]
  simp only [hcut]
  rfl
theorem lcsCarry_waits (hline : (s.line 17).level = true) (ht : r.target = 6) (hw : r.wiped = false) (ow : Option Work) (src : Nat) :
    s.lcsCarry ow src r v = { s with lcs := { s.lcs with trans := some r } } := by
  unfold State.lcsCarry
  rw [if_neg (by simp [hcut]), if_pos ⟨ht, by simp [hw], hline⟩]
/-- With no warning and no bit stuck, a transition burns all that it has left and ends with its result. -/
theorem lcsCarry_completes (hline : (s.line 17).level = false) (hstuck : v.stuck = []) (hl : ∀ b ∈ r.left, InField b) (ow : Option Work) (src : Nat) :
    LcsEnds (s.burnt r [] r.left) (s.lcsCarry ow src r v) r ∧ ∀ b ∈ r.left, (s.burnt r [] r.left).fuses.burned b = true := by
  have hburned : ∀ b ∈ r.left, (s.burnt r [] r.left).fuses.burned b = true := burned_burnList hl s.fuses
  have htried : r.tried (s.burnt r [] r.left).fuses r.left = { r with wiped := true, left := [] } := by
    have hall : (r.left.any fun b => !(s.burnt r [] r.left).fuses.burned b) = false := by simpa using hburned
    rw [LcsTrans.tried, hall, Bool.or_false, List.drop_length]
  have hcarry := lcsCarry_tries hcut (by simp [hline]) ow src (l := r.left) (by simp [hline]) (hstuck ▸ rfl : s.burnt r [] r.left = s.burnt r v.stuck r.left)
  rw [htried, if_pos rfl] at hcarry
  have hends := State.lcsFinish_ends (s.burnt r [] r.left) ow src { r with wiped := true, left := [] }
  rw [← hcarry] at hends
  exact ⟨{ hends with }, hburned⟩
/-- A warning lets a transition burn bits of SECRET and the key alone (R183). -/
theorem lcsCarry_warned (hline : (s.line 17).level = true) (ht : r.target ≠ 6) (ow : Option Work) (src : Nat) :
    (s.lcsCarry ow src r v).fuses = s.fuses.burnList v.stuck (r.left.takeWhile fun b => b.1 != 3) ∧ (s.lcsCarry ow src r v).store = s.store ∧
      (s.lcsCarry ow src r v).nor = s.nor ∧ (s.lcsCarry ow src r v).lcs.nonceValid = s.lcs.nonceValid := by
  have hburnt := s.burnt_of_unscrapped ht v.stuck (r.left.takeWhile fun b => b.1 != 3)
  rw [lcsCarry_tries hcut (fun h => ht h.1) ow src (by rw [if_pos hline]) hburnt.symm]
  split
  · obtain ⟨hfuses, hstore, -, hnor, -, -, -, -, -, hnonce, -⟩ := State.lcsFinish_ends { s with fuses := _ } ow src _
    exact ⟨hfuses, hstore, hnor, hnonce⟩
  · exact ⟨rfl, rfl, rfl, rfl⟩
end

/-! ### Requests -/

theorem exec_lcsTransition {s : State} (h : s.fastRun = true) (v : LcsView) : exec (.lcsTransition v) s = .next (s.lcsTransition v) :=
  congrArg Host.Outcome.next (if_pos h)

section
variable {s : State} {ow : Option Work} {src : Nat} {d : List Nat} (hhead : s.coreHead 0 = some (ow, src, d))
include hhead
theorem lcsTransition_fails (htrans : s.lcs.trans = none) (hcheck : s.lcsCheck ow { raw := d } ≠ 1) (v : LcsView) :
    s.lcsTransition v = s.lcsDone ow src (s.lcsCheck ow { raw := d }) s.lcs.state (LcsReq.target { raw := d } % 16) := by
  simp only [State.lcsTransition, hhead, htrans, if_pos hcheck]
theorem lcsTransition_passes (htrans : s.lcs.trans = none) (hcheck : s.lcsCheck ow { raw := d } = 1) (v : LcsView) :
    s.lcsTransition v = (s.lcsBegin { raw := d }).2.lcsCarry ow src (s.lcsBegin { raw := d }).1 v := by
  simp only [State.lcsTransition, hhead, htrans, hcheck, ne_eq, not_true_eq_false, if_false]
theorem lcsTransition_goesOn {r : LcsTrans} (htrans : s.lcs.trans = some r) (v : LcsView) : s.lcsTransition v = s.lcsCarry ow src r v := by
  simp only [State.lcsTransition, hhead, htrans]
end

/-- What a request that passes begins with: the transition, and beside the nonce and the staging SRAM the state as it was. -/
theorem lcsBegin_eq (s : State) (q : LcsReq) :
    (s.lcsBegin q).1 = { from_ := s.lcs.state, target := q.target, left := s.lcsBurns q (s.freeWide 512).1 } ∧
      (s.lcsBegin q).2.fuses = s.fuses ∧ (s.lcsBegin q).2.line 17 = s.line 17 ∧ (s.lcsBegin q).2.store = s.store ∧ (s.lcsBegin q).2.nor = s.nor ∧
      (s.lcsBegin q).2.lcs.nonceValid = false ∧ (s.lcsBegin q).2.sram = if q.target = 5 then [] else s.sram := by
  unfold State.lcsBegin
  dsimp only
  refine ⟨rfl, ?_⟩
  split <;> exact ⟨rfl, rfl, rfl, rfl, rfl, rfl⟩

section
variable {s : State} {ow : Option Work} {src : Nat} {d : List Nat} (hhead : s.coreHead 0 = some (ow, src, d)) (hrun : s.fastRun = true)
include hhead hrun
theorem lcsRequest_fails (htrans : s.lcs.trans = none) (hcheck : s.lcsCheck ow { raw := d } ≠ 1) (v : LcsView) :
    ∃ t, exec (.lcsTransition v) s = .next t ∧ t.fuses = s.fuses ∧ t.lcs.state = s.lcs.state ∧ t.lcs.result = s.lcsCheck ow { raw := d } ∧
      t.lcs.from_ = s.lcs.state ∧ t.lcs.nonce = s.lcs.nonce ∧ t.lcs.nonceValid = s.lcs.nonceValid ∧ t.store = s.store ∧ t.nor = s.nor := by
  refine ⟨_, (exec_lcsTransition hrun v).trans (congrArg _ (lcsTransition_fails hhead htrans hcheck v)), ?_⟩
  obtain ⟨hfuses, hstore, -, hnor, _, hlcs⟩ := s.lcsDone_lcsKept ow src (s.lcsCheck ow { raw := d }) s.lcs.state (LcsReq.target { raw := d } % 16)
  exact ⟨hfuses, (congrArg Lcs.state hlcs :), (congrArg Lcs.result hlcs :), (congrArg Lcs.from_ hlcs :), (congrArg Lcs.nonce hlcs :),
    (congrArg Lcs.nonceValid hlcs :), hstore, hnor⟩
theorem lcsRequest_burns (htrans : s.lcs.trans = none) (hcheck : s.lcsCheck ow { raw := d } = 1) (hline : (s.line 17).level = false) {v : LcsView}
    (hcut : v.cut = none) (hstuck : v.stuck = []) :
    ∃ t, exec (.lcsTransition v) s = .next t ∧ s.fuses.stay t.fuses ∧ (∀ b ∈ s.lcsBurns { raw := d } (s.freeWide 512).1, t.fuses.burned b = true) ∧
      t.lcs.trans = none ∧ t.lcs.state = t.fuses.decode ∧ t.lcs.result = 1 ∧ t.lcs.from_ = s.lcs.state ∧ t.lcs.to_ = LcsReq.target { raw := d } ∧
      t.lcs.nonceValid = false ∧
      (LcsReq.target { raw := d } = 5 → t.lcs.wipePending = true ∧ t.sram = [] ∧ t.store = s.store) ∧
      (LcsReq.target { raw := d } = 6 → t.sram = [] ∧ t.store = [] ∧ t.nor = []) ∧
      (LcsReq.target { raw := d } < 5 → t.sram = s.sram ∧ t.store = s.store ∧ t.nor = s.nor) := by
  refine ⟨_, (exec_lcsTransition hrun v).trans (congrArg _ (lcsTransition_passes hhead htrans hcheck v)), ?_⟩
  obtain ⟨hr, hufuses, huline, hustore, hunor, hunonce, husram⟩ := lcsBegin_eq s { raw := d }
  generalize (s.lcsBegin { raw := d }).1 = r at *
  generalize (s.lcsBegin { raw := d }).2 = u at *
  generalize LcsReq.target { raw := d } = target at *
  have hleft : r.left = s.lcsBurns { raw := d } (s.freeWide 512).1 := congrArg LcsTrans.left hr
  have hbad : r.bad = false := congrArg LcsTrans.bad hr
  have htarget : r.target = target := congrArg LcsTrans.target hr
  have hfield : ∀ b ∈ r.left, InField b := fun b hb => (lcsBurns_inField s _ _ b (hleft ▸ hb)).1
  obtain ⟨⟨hfuses, hstore, hsram, hnor, hnone, hstate, hresult, hfrom, hto, hnonce, hwipe⟩, hburned⟩ :=
    lcsCarry_completes hcut (huline ▸ hline) hstuck hfield ow src
  have hplain (h : target ≠ 6) : u.burnt r [] r.left = { u with fuses := u.fuses.burnList [] r.left } :=
    u.burnt_of_unscrapped (htarget ▸ h) [] r.left
  refine ⟨?_, ?_, hnone, hfuses ▸ hstate, by rw [hresult, hbad]; rfl, hfrom.trans (congrArg LcsTrans.from_ hr), hto.trans htarget,
    hnonce.trans ((u.burnt_nonceValid r [] r.left).trans hunonce), fun h5 => ?_, fun h6 => ?_, fun hlow => ?_⟩
  · rw [hfuses, ← hufuses]
    exact Fuses.stay_burnList _ _ _
  · rw [hfuses, ← hleft]
    exact hburned
  · rw [hsram, hstore, hplain (by omega)]
    exact ⟨hwipe hbad (htarget.trans h5), by rw [husram, if_pos h5], hustore⟩
  · rw [hsram, hstore, hnor]
    exact u.burnt_of_scrapped (htarget.trans h6) (congrArg LcsTrans.wiped hr) [] r.left
  · rw [hsram, hstore, hnor, hplain (by omega)]
    exact ⟨by rw [husram, if_neg (by omega)], hustore, hunor⟩
theorem lcsRequest_warned (htrans : s.lcs.trans = none) (hcheck : s.lcsCheck ow { raw := d } = 1) (hline : (s.line 17).level = true) {v : LcsView}
    (hcut : v.cut = none) :
    ∃ t, exec (.lcsTransition v) s = .next t ∧ t.fuses.groups = s.fuses.groups ∧ s.fuses.stay t.fuses ∧ t.store = s.store ∧ t.nor = s.nor ∧
      t.lcs.nonceValid = false ∧ (LcsReq.target { raw := d } = 6 → t.fuses = s.fuses ∧ t.lcs.trans ≠ none) := by
  refine ⟨_, (exec_lcsTransition hrun v).trans (congrArg _ (lcsTransition_passes hhead htrans hcheck v)), ?_⟩
  obtain ⟨hr, hufuses, huline, hustore, hunor, hunonce, -⟩ := lcsBegin_eq s { raw := d }
  generalize (s.lcsBegin { raw := d }).1 = r at *
  generalize (s.lcsBegin { raw := d }).2 = u at *
  have huline' : (u.line 17).level = true := huline ▸ hline
  have htarget : r.target = LcsReq.target { raw := d } := congrArg LcsTrans.target hr
  by_cases h6 : r.target = 6
  · rw [lcsCarry_waits hcut huline' h6 (by rw [hr])]
    exact ⟨congrArg Fuses.groups hufuses, hufuses ▸ Fuses.stay_refl _, hustore, hunor, hunonce, fun _ => ⟨hufuses, Option.some_ne_none r⟩⟩
  · obtain ⟨hfuses, hstore, hnor, hnonce⟩ := lcsCarry_warned hcut huline' h6 ow src
    rw [hufuses] at hfuses
    have hbelow : ∀ b ∈ r.left.takeWhile (fun b => b.1 != 3), b.1 < 3 := fun b hb => by
      have hle := (lcsBurns_inField s { raw := d } _ b (congrArg LcsTrans.left hr ▸ (List.takeWhile_sublist _).subset hb)).2
      have hne := List.mem_takeWhile_imp hb
      simp only [bne_iff_ne] at hne
      omega
    exact ⟨by rw [hfuses, groups_burnList hbelow], hfuses ▸ Fuses.stay_burnList _ _ _, hstore.trans hustore, hnor.trans hunor, hnonce.trans hunonce,
      fun h => absurd (htarget.trans h) h6⟩
theorem lcsTransition_ends {r : LcsTrans} (htrans : s.lcs.trans = some r) (hline : (s.line 17).level = false)
    {v : LcsView} (hcut : v.cut = none) (hstuck : v.stuck = []) (hfield : ∀ b ∈ r.left, InField b) :
    ∃ t, exec (.lcsTransition v) s = .next t ∧ s.fuses.stay t.fuses ∧ (∀ b ∈ r.left, t.fuses.burned b = true) ∧ t.lcs.trans = none ∧
      t.lcs.state = t.fuses.decode ∧ t.lcs.result = (if r.bad then 0xC else 1) ∧ t.lcs.from_ = r.from_ ∧ t.lcs.to_ = r.target := by
  refine ⟨_, (exec_lcsTransition hrun v).trans (congrArg _ (lcsTransition_goesOn hhead htrans v)), ?_⟩
  obtain ⟨⟨hfuses, -, -, -, hnone, hstate, hresult, hfrom, hto, -, -⟩, hburned⟩ := lcsCarry_completes hcut hline hstuck hfield ow src
  exact ⟨hfuses ▸ Fuses.stay_burnList _ _ _, hfuses ▸ hburned, hnone, hfuses ▸ hstate, hresult, hfrom, hto⟩
end

/-- Settles O48: the request that fails by its end, the one that passes by its beginning and its burns, and a transition begun by its burns. -/
theorem lifecycleRequestsBurnOrLeave : Obligations.LifecycleRequestsBurnOrLeave := by
  intro s v ow src d hhead hrun
  exact ⟨fun htrans hcheck => lcsRequest_fails hhead hrun htrans hcheck v,
    fun htrans hcheck hline hcut hstuck => lcsRequest_burns hhead hrun htrans hcheck hline hcut hstuck,
    fun htrans hcheck hline hcut => lcsRequest_warned hhead hrun htrans hcheck hline hcut,
    fun r htrans _ hline hcut hstuck hfield => lcsTransition_ends hhead hrun htrans hline hcut hstuck hfield⟩

end Sys2Proof.Machine

/-! PROOFS. Certificates (O49): what the end of an install gives, what burning floor bits leaves burned, and an install by the
branches of its checks. -/
namespace Sys2Proof.Machine

/-! ### The end of an install -/

theorem State.coreReply_coreQ (s : State) (reply : List Byte) : (s.coreReply reply).hub.coreQ = s.hub.coreQ.drop 1 := by
  unfold State.coreReply
  split
  · next hq => rw [hq]; rfl
  · next ow _ rest hq =>
    rw [hq]
    cases ow with
    | none => rfl
    | some w =>
      simp only [State.coreAnswer, State.updItem, State.modItem]
      split
      · exact State.setItem_coreQ _ w _
      · rfl
/-- The hub core answers the certificate at the head of its queue with RESULT and SLOT (R211, Table 7.8). -/
def State.certDone (s : State) (src result slot : Nat) : State := (s.coreReply [BitVec.ofNat 8 result]).certEnd result slot (src == 1)
/-- In `t` an install begun in `s` has ended with RESULT and SLOT: it has left the queue, and fuses and certificates are as they
were. -/
structure CertEnds (s t : State) (result slot : Nat) : Prop where
  fuses : t.fuses = s.fuses
  certs : t.auth.certs = s.auth.certs
  result : t.auth.result = result
  slot : t.auth.slot = slot
  coreQ : t.hub.coreQ = s.hub.coreQ.drop 1
theorem State.certDone_ends (s : State) (src result slot : Nat) : CertEnds s (s.certDone src result slot) result slot := by
  have hkeeps : Keeps s (s.coreReply [BitVec.ofNat 8 result]) := (s.coreReply_offWork _).keeps
  have hcerts : (s.coreReply [BitVec.ofNat 8 result]).auth.certs = s.auth.certs := (congrArg Auth.certs hkeeps.auth :)
  have hqueue := s.coreReply_coreQ [BitVec.ofNat 8 result]
  unfold State.certDone State.certEnd
  obtain ⟨_, _, hactivated⟩ := State.activate_activated _ 177 _
  rw [hactivated]
  exact ⟨hkeeps.fuses, hcerts, rfl, rfl, hqueue⟩

/-! ### Floor bits (R213) -/

theorem Fuses.floorBits_lt {f : Fuses} {gen b : Nat} (h : b ∈ f.floorBits gen) : b < 255 :=
  List.mem_range.mp (List.mem_filter.mp (List.mem_of_mem_take h)).1
/-- With no bit stuck, every floor bit of the list is burned. -/
theorem bit_floor_burnFloor {l : List Nat} {b : Nat} (hmem : b ∈ l) (hb : b < 255) (f : Fuses) : bit (f.burnFloor [] l).floor b = true := by
  induction l generalizing f with
  | nil => exact absurd hmem List.not_mem_nil
  | cons c l ih =>
    show bit (Fuses.burnFloor { f with floor := f.floor ||| 2 ^ c } [] l).floor b = true
    obtain rfl | hmem := List.mem_cons.mp hmem
    · obtain ⟨-, -, -, -, -, -, hfloor, -⟩ := Fuses.stay_burnFloor [] l { f with floor := f.floor ||| 2 ^ b }
      exact hfloor b hb (bit_or_two_pow_self _ b)
    · exact ih hmem _

/-! ### The slot -/

theorem State.slotOf_lt {s : State} {c : Cert} {n : Nat} (h : s.slotOf c = some n) : n < 8 := by
  unfold State.slotOf at h
  dsimp only at h
  split at h
  · next hfind =>
    obtain rfl := Option.some.inj h
    exact List.mem_range.mp (List.mem_of_find?_eq_some hfind)
  · exact List.mem_range.mp (List.mem_of_find?_eq_some h)
/-- A certificate without a slot to take does not pass its checks (Table 7.4). -/
theorem State.certCheck_noSlot {s : State} {d : List Nat} (h : s.slotOf (certOf d) = none) : s.certCheck d ≠ 1 := by
  unfold State.certCheck
  rw [h, Option.isNone_none, if_pos rfl]
  dsimp only
  split_ifs <;> decide
theorem State.slotOf_of_certCheck {s : State} {d : List Nat} (h : s.certCheck d = 1) : ∃ n, s.slotOf (certOf d) = some n :=
  Option.ne_none_iff_exists'.mp fun hnone => State.certCheck_noSlot hnone h

/-! ### Installs -/

/-- The floor bits that a certificate asks to have burned. -/
def State.raiseBits (s : State) (d : List Nat) : List Nat :=
  if bit (certAt d 7 1) 0 then s.fuses.floorBits (certAt d 0x20 4 / 2 ^ 24) else []
/-- The certificate stands in slot `n` under the fuses `f`, which leave the others that they keep valid. -/
def State.certTaken (s : State) (f : Fuses) (d : List Nat) (n : Nat) : State :=
  let u := { s with fuses := f }
  let keep := s.auth.certs.filter (fun p => match p.2 with | some x => u.valid x | none => false)
  { u.keepRights with auth := { u.keepRights.auth with certs := tput none keep n (some (certOf d)) } }
theorem State.certTaken_holds (s : State) (f : Fuses) (d : List Nat) (n : Nat) :
    tget none (s.certTaken f d n).auth.certs n = some (certOf d) := tget_tput_self _ _ _ _
/-- Every other certificate that stays is not below the floor. -/
theorem State.certTaken_valid {s : State} {f : Fuses} {d : List Nat} {n k : Nat} {c : Cert}
    (h : tget none (s.certTaken f d n).auth.certs k = some c) (hk : k ≠ n) : f.floorCount * 2 ^ 24 ≤ c.serial := by
  rw [State.certTaken, tget_tput_ne _ _ _ _ _ hk] at h
  obtain ⟨p, hp, hc⟩ := exists_mem_of_tget (P := fun x => x = some c) (by simp) h
  have hkept := (List.mem_filter.mp hp).2
  rw [hc] at hkept
  exact of_decide_eq_true hkept

theorem exec_certCheckInstall {s : State} (h : s.fastRun = true) (v : CertView) : exec (.certCheckInstall v) s = .next (s.certInstall v) :=
  congrArg Host.Outcome.next (if_pos h)

section
variable {s : State} {ow : Option Work} {src : Nat} {d : List Nat} (hhead : s.coreHead 1 = some (ow, src, d))
include hhead
theorem certInstall_fails (hcheck : s.certCheck d ≠ 1) (v : CertView) : s.certInstall v = s.certDone src (s.certCheck d) 0 := by
  simp only [State.certInstall, hhead, if_pos hcheck, State.certDone]
variable (hcheck : s.certCheck d = 1)
include hcheck
theorem certInstall_waits (hsecret : s.secretPresent = true) (hcount : s.boot.countWritten = false) (v : CertView) : s.certInstall v = s := by
  simp [State.certInstall, hhead, hcheck, hsecret, hcount]
/-- An install that neither waits, pauses nor meets a stuck bit burns the floor bits asked for and takes its slot. -/
theorem certInstall_takes (hready : s.secretPresent = false ∨ s.boot.countWritten = true) {v : CertView} (hcut : v.cut = none)
    (hwarn : s.raiseBits d = [] ∨ (s.line 17).level = false) (hstuck : ∀ b ∈ s.raiseBits d, b ∉ v.stuck) {n : Nat}
    (hslot : s.slotOf (certOf d) = some n) :
    s.certInstall v = (s.certTaken (s.fuses.burnFloor v.stuck (s.raiseBits d)) d n).certDone src 1 n := by
  have hgo : ¬ (s.secretPresent = true ∧ (!s.boot.countWritten) = true) := by
    rintro ⟨hs, hc⟩
    obtain h | h := hready <;> simp [h] at hs hc
  have hlit : ¬ ((s.line 17).level = true ∧ s.raiseBits d ≠ []) := by
    rintro ⟨hl, hb⟩
    obtain h | h := hwarn
    · exact hb h
    · simp [h] at hl
  have hnone : ¬ ((s.raiseBits d).any fun b => v.stuck.contains b) = true := by simpa using hstuck
  have hslot' : State.slotOf { s with fuses := s.fuses.burnFloor v.stuck (s.raiseBits d) } (certOf d) = some n := hslot
  unfold State.raiseBits at hlit hnone hslot' ⊢
  simp only [State.certInstall, hhead, hcheck, ne_eq, not_true_eq_false, if_false, if_neg hgo, hcut]
  rw [if_neg hlit, if_neg hnone, hslot']
  rfl
end

section
variable {s : State} {ow : Option Work} {src : Nat} {d : List Nat} (hhead : s.coreHead 1 = some (ow, src, d)) (hrun : s.fastRun = true)
include hhead hrun
theorem certCheckInstall_fails (hcheck : s.certCheck d ≠ 1) (v : CertView) :
    ∃ t, exec (.certCheckInstall v) s = .next t ∧ t.auth.certs = s.auth.certs ∧ t.auth.result = s.certCheck d ∧ t.fuses = s.fuses ∧
      t.hub.coreQ = s.hub.coreQ.drop 1 := by
  refine ⟨_, (exec_certCheckInstall hrun v).trans (congrArg _ (certInstall_fails hhead hcheck v)), ?_⟩
  obtain ⟨hfuses, hcerts, hresult, -, hqueue⟩ := s.certDone_ends src (s.certCheck d) 0
  exact ⟨hcerts, hresult, hfuses, hqueue⟩
variable (hcheck : s.certCheck d = 1) (hready : s.secretPresent = false ∨ s.boot.countWritten = true) {v : CertView} (hcut : v.cut = none)
include hcheck hready hcut
theorem certCheckInstall_takes (hwarn : s.raiseBits d = [] ∨ (s.line 17).level = false) (hstuck : ∀ b ∈ s.raiseBits d, b ∉ v.stuck) :
    ∃ t n, exec (.certCheckInstall v) s = .next t ∧ s.slotOf (certOf d) = some n ∧
      CertEnds (s.certTaken (s.fuses.burnFloor v.stuck (s.raiseBits d)) d n) t 1 n := by
  obtain ⟨n, hslot⟩ := State.slotOf_of_certCheck hcheck
  exact ⟨_, n, (exec_certCheckInstall hrun v).trans (congrArg _ (certInstall_takes hhead hcheck hready hcut hwarn hstuck hslot)), hslot,
    State.certDone_ends _ src 1 n⟩
theorem certCheckInstall_installs (hraise : bit (certAt d 7 1) 0 = false) :
    ∃ t n, exec (.certCheckInstall v) s = .next t ∧ n < 8 ∧ s.slotOf (certOf d) = some n ∧ tget none t.auth.certs n = some (certOf d) ∧
      t.auth.result = 1 ∧ t.auth.slot = n ∧ t.fuses = s.fuses ∧ t.hub.coreQ = s.hub.coreQ.drop 1 := by
  have hbits : s.raiseBits d = [] := if_neg (by simp [hraise])
  obtain ⟨t, n, hexec, hslot, hfuses, hcerts, hresult, hn, hqueue⟩ :=
    certCheckInstall_takes hhead hrun hcheck hready hcut (.inl hbits) (by simp [hbits])
  rw [hbits] at hfuses
  exact ⟨t, n, hexec, State.slotOf_lt hslot, hslot, by rw [hcerts, State.certTaken_holds], hresult, hn, hfuses, hqueue⟩
theorem certCheckInstall_raises (hraise : bit (certAt d 7 1) 0 = true) (hstuck : v.stuck = []) (hline : (s.line 17).level = false) :
    ∃ t n, exec (.certCheckInstall v) s = .next t ∧ tget none t.auth.certs n = some (certOf d) ∧ t.auth.result = 1 ∧ s.fuses.stay t.fuses ∧
      (∀ b ∈ s.fuses.floorBits (certAt d 0x20 4 / 2 ^ 24), bit t.fuses.floor b = true) ∧
      (∀ k c, tget none t.auth.certs k = some c → k ≠ n → t.fuses.floorCount * 2 ^ 24 ≤ c.serial) := by
  have hbits : s.raiseBits d = s.fuses.floorBits (certAt d 0x20 4 / 2 ^ 24) := if_pos hraise
  obtain ⟨t, n, hexec, -, hfuses, hcerts, hresult, -, -⟩ :=
    certCheckInstall_takes hhead hrun hcheck hready hcut (.inr hline) (by simp [hstuck])
  have hburned : t.fuses = s.fuses.burnFloor [] (s.fuses.floorBits (certAt d 0x20 4 / 2 ^ 24)) := by rw [hfuses, hstuck, hbits]; rfl
  refine ⟨t, n, hexec, by rw [hcerts, State.certTaken_holds], hresult, hburned ▸ Fuses.stay_burnFloor _ _ _, fun b hb => ?_, fun k c hc hk => ?_⟩
  · rw [hburned]
    exact bit_floor_burnFloor hb (Fuses.floorBits_lt hb) _
  · rw [hfuses]
    exact State.certTaken_valid (hcerts ▸ hc) hk
end

/-- Settles O49: a certificate that fails by the end of its install, one that waits by the branch that leaves the state, and one that
installs by the slot it takes and the floor bits it burns. -/
theorem certificatesInstallOnTheirChecks : Obligations.CertificatesInstallOnTheirChecks := by
  intro s v ow src d hhead hrun
  exact ⟨fun hcheck => certCheckInstall_fails hhead hrun hcheck v,
    fun hcheck hsecret hcount => (exec_certCheckInstall hrun v).trans (congrArg _ (certInstall_waits hhead hcheck hsecret hcount v)),
    fun hcheck hready hraise hcut => certCheckInstall_installs hhead hrun hcheck hready hcut hraise,
    fun hcheck hready hraise hcut hstuck hline => certCheckInstall_raises hhead hrun hcheck hready hcut hraise hstuck hline⟩

end Sys2Proof.Machine

/-! PROOFS. Instruction loads, Capture-IR, Test-Logic-Reset and HUBSTAT on the scan port (O18, O19, O20): how a word of fields reads, what
a load judges, what a denial records, and what a scan leaves of the state. -/
namespace Sys2Proof.Machine

/-! ### Words of fields -/

/-- A word with the fields of a list, each with its value, place and width, put over `x`. -/
def packed (x : Nat) : List (Nat × Nat × Nat) → Nat
  | [] => x
  | (v, lo, w) :: l => packed (x + place v lo w) l

/-- The fields of a list rise from bit `n` on and do not overlap. -/
def Ascending (n : Nat) : List (Nat × Nat × Nat) → Prop
  | [] => True
  | (_, lo, w) :: l => n ≤ lo ∧ Ascending (lo + w) l

theorem add_place_lt {x lo w : Nat} (hx : x < 2 ^ lo) (v : Nat) : x + place v lo w < 2 ^ (lo + w) := by
  have hv : v % 2 ^ w + 1 ≤ 2 ^ w := Nat.mod_lt _ (Nat.two_pow_pos w)
  calc x + place v lo w < 2 ^ lo + v % 2 ^ w * 2 ^ lo := by rw [place, Nat.shiftLeft_eq]; omega
    _ = (v % 2 ^ w + 1) * 2 ^ lo := by ring
    _ ≤ 2 ^ w * 2 ^ lo := Nat.mul_le_mul_right _ hv
    _ = 2 ^ (lo + w) := by rw [Nat.pow_add, Nat.mul_comm]

/-- A field put above bits leaves them. -/
theorem fld_add_place_below {lo k n : Nat} (h : k + n ≤ lo) (x v w : Nat) : fld (x + place v lo w) k n = fld x k n := by
  obtain ⟨d, rfl⟩ := Nat.exists_eq_add_of_le h
  have hsplit : place v (k + n + d) w = 2 ^ k * (2 ^ n * (v % 2 ^ w * 2 ^ d)) := by rw [place, Nat.shiftLeft_eq]; ring
  rw [fld, fld, Nat.shiftRight_eq_div_pow, Nat.shiftRight_eq_div_pow, hsplit, Nat.add_mul_div_left _ _ (Nat.two_pow_pos k), Nat.add_mul_mod_self_left]

theorem fld_packed_below {l : List (Nat × Nat × Nat)} {n k w : Nat} (hl : Ascending n l) (hk : k + w ≤ n) (x : Nat) : fld (packed x l) k w = fld x k w := by
  induction l generalizing x n with
  | nil => rfl
  | cons f l ih =>
    obtain ⟨hlo, hl⟩ := hl
    exact (ih hl (by omega) _).trans (fld_add_place_below (hk.trans hlo) _ _ _)

/-- A field of the list reads as it was put. -/
theorem fld_packed {l : List (Nat × Nat × Nat)} {x n v lo w : Nat} (hx : x < 2 ^ n) (hl : Ascending n l) (h : (v, lo, w) ∈ l) :
    fld (packed x l) lo w = v % 2 ^ w := by
  induction l generalizing x n with
  | nil => cases h
  | cons f l ih =>
    obtain ⟨hlo, hl⟩ := hl
    have hx' : x < 2 ^ f.2.1 := hx.trans_le (Nat.pow_le_pow_right two_pos hlo)
    rcases List.mem_cons.mp h with rfl | h
    · exact (fld_packed_below hl le_rfl _).trans ((fld_above hx' (v % 2 ^ w) 0 w).trans (Nat.mod_mod _ _))
    · exact ih (add_place_lt hx' _) hl h

theorem bit_packed {l : List (Nat × Nat × Nat)} {x n lo : Nat} {b : Bool} (hx : x < 2 ^ n) (hl : Ascending n l) (h : (b2n b, lo, 1) ∈ l) :
    bit (packed x l) lo = b := by
  rw [bit_eq_fld, fld_packed hx hl h]
  cases b <;> rfl

/-! ### Rows of the port -/

theorem scanRow_live {s : State} (h : s.tapLive = true) (f : State → State) : s.scanRow f = .next (f s.tck) := by
  rw [State.scanRow, if_pos h]

theorem State.tck_scanDenial (s : State) (code : Nat) : s.tck.scanDenial code = s.scanDenial code := by
  obtain ⟨_, _, _, h⟩ := s.tck_eq
  rw [h]; rfl

theorem State.tck_cell (s : State) (n : Nat) : s.tck.cell n = s.cell n := by
  obtain ⟨_, _, _, h⟩ := s.tck_eq
  rw [h]; rfl

theorem State.tck_readyPad (s : State) : s.tck.readyPad = s.readyPad := by
  obtain ⟨_, _, _, h⟩ := s.tck_eq
  rw [h]; rfl

@[simp] theorem State.tck_chip (s : State) (f : Nat) : s.tck.chip f = s.chip f := by
  obtain ⟨_, _, _, h⟩ := s.tck_eq
  rw [h]; rfl

@[simp] theorem State.tck_fuses (s : State) : s.tck.fuses = s.fuses := by
  obtain ⟨_, _, _, h⟩ := s.tck_eq
  rw [h]

/-- From `s` to `t` nothing has changed but the scan registers and, at the chips, stop inputs that were armed anew. -/
structure Risen (s t : State) : Prop where
  frame : { t with scan := s.scan, chips := s.chips } = s
  chip : ∀ f, { t.chip f with stopIn := (s.chip f).stopIn } = s.chip f

theorem Risen.refl (s : State) : Risen s s := ⟨rfl, fun _ => rfl⟩

theorem Risen.trans {s t u : State} (h : Risen s t) (k : Risen t u) : Risen s u where
  frame := (congrArg (fun v : State => { v with scan := s.scan, chips := s.chips }) k.frame).trans h.frame
  chip f := (congrArg (fun c : Chip => { c with stopIn := (s.chip f).stopIn }) (k.chip f)).trans (h.chip f)

theorem Risen.of_scan (s : State) (c : Scan) : Risen s { s with scan := c } := ⟨rfl, fun _ => rfl⟩

theorem Risen.arm (s : State) (g : Nat) : Risen s (s.setChip g { s.chip g with stopIn := true }) where
  frame := by unfold State.setChip; split <;> rfl
  chip f := by
    by_cases hg : g < 128
    · rw [State.chip_setChip _ _ _ _ hg]
      split
      · next h => rw [h]
      · rfl
    · rw [State.setChip, if_neg hg]

theorem riseStops_risen (s : State) : Risen s s.riseStops :=
  List.foldlRecOn (motive := fun t => Risen s t) _ _ (Risen.refl s) fun t ht f _ => by
    dsimp only
    split
    · exact ht.trans (Risen.arm t f)
    · exact ht

@[simp] theorem riseStops_scan (s : State) : s.riseStops.scan = s.scan := by
  obtain ⟨_, h⟩ := riseStops_eq s
  rw [h]

/-! ### Instruction loads -/

/-- Row `i` loads the instruction of code `code`; SAMPLE/PRELOAD and EXTEST scan the boundary register with these pads and update. -/
inductive Loads (pads up : BitVec 76) : Instr → Nat → Prop
  | extest : Loads pads up (.extest true pads up) 0
  | samplePreload : Loads pads up (.samplePreload pads up) 1
  | idcode : Loads pads up .idcode 2
  | clamp : Loads pads up .clamp 3
  | hubstat : Loads pads up .hubstat 0x10
  | hubcmd : Loads pads up .hubcmd 0x11
  | dbgreg : Loads pads up .dbgreg 0x12
  | dumpRead : Loads pads up .dumpRead 0x13
  | lcsReq : Loads pads up .lcsReq 0x20
  | certLoad : Loads pads up .certLoad 0x21
  | bypass : Loads pads up .bypass 0xFF

theorem loads_of_scanLoad {i : Instr} {code : Nat} (h : scanLoad i = some code) : ∃ pads up, Loads pads up i code := by
  cases i
  case extest load pads up =>
    cases load <;> cases h
    exact ⟨pads, up, .extest⟩
  case samplePreload pads up =>
    cases h
    exact ⟨pads, up, .samplePreload⟩
  all_goals cases h
  all_goals exact ⟨0, 0, by constructor⟩

theorem loads_of_mem {pads up : BitVec 76} {i : Instr} {code : Nat} (h : (i, code) ∈ [(Instr.extest true pads up, 0),
      (Instr.samplePreload pads up, 1), (Instr.idcode, 2), (Instr.clamp, 3), (Instr.hubstat, 0x10), (Instr.hubcmd, 0x11), (Instr.dbgreg, 0x12),
      (Instr.dumpRead, 0x13), (Instr.lcsReq, 0x20), (Instr.certLoad, 0x21), (Instr.bypass, 0xFF)]) : Loads pads up i code := by
  simp only [List.mem_cons, List.not_mem_nil, or_false, Prod.mk.injEq] at h
  rcases h with ⟨rfl, rfl⟩ | ⟨rfl, rfl⟩ | ⟨rfl, rfl⟩ | ⟨rfl, rfl⟩ | ⟨rfl, rfl⟩ | ⟨rfl, rfl⟩ | ⟨rfl, rfl⟩ | ⟨rfl, rfl⟩ | ⟨rfl, rfl⟩ | ⟨rfl, rfl⟩
    | ⟨rfl, rfl⟩ <;> constructor

/-- What the row that loads the instruction of code `code` makes of the state: the load, and its capture. -/
def State.loadRow (s : State) (pads up : BitVec 76) (code : Nat) : State :=
  let t := s.loadIr code
  if code = 1 then (if t.scan.denied then t.setCapture 0 else t.boundaryScan pads up)
  else if code = 2 then t.setCapture 0x0C4D1A3B
  else if code = 3 ∨ code = 0xFF then t.setCapture 0
  else t

theorem Loads.exec_eq {pads up : BitVec 76} {i : Instr} {code : Nat} (h : Loads pads up i code) {s : State} (hlive : s.tapLive = true) :
    exec i s = .next (s.tck.loadRow pads up code) := by
  rw [← scanRow_live hlive fun u => u.loadRow pads up code]
  cases h <;> rfl

/-! ### The judgement of a load (R225, R243) -/

/-- Nothing falls short where every level needed is held. -/
theorem shortfall_eq_none_iff {s : State} {w : Work} {need : List (Nat × Nat)} : s.shortfall w need = none ↔ ∀ p ∈ need, p.2 ≤ s.workLevel w p.1 := by
  simp [State.shortfall]

theorem scanDenial_eq_none_iff {s : State} {code : Nat} : s.scanDenial code = none ↔
    scanServed s.lcs.state code = true ∧ ∀ p ∈ scanNeed code, p.2 ≤ s.workLevel .scan p.1 := by
  rw [State.scanDenial, ← shortfall_eq_none_iff]
  cases scanServed s.lcs.state code <;> cases s.shortfall .scan (scanNeed code) <;> simp

/-- EXTEST and CLAMP need CONTROL of every unit, DUMP_READ of the hub (Table 7.5). -/
theorem scanNeed_met_iff {code : Nat} {level : Nat → Nat} : (∀ p ∈ scanNeed code, p.2 ≤ level p.1) ↔
    ((code = 0 ∨ code = 3) → ∀ x, x ≤ 128 → 2 ≤ level x) ∧ (code = 0x13 → 2 ≤ level 128) := by
  unfold scanNeed
  split
  · next h =>
    have : code ≠ 0x13 := by omega
    simp [h, this, Nat.lt_succ_iff]
  · next h => split <;> simp [*]

theorem scanDenial_scrapped {s : State} (h : s.lcs.state = 6) (code : Nat) : s.scanDenial code = none ↔ code = 0xFF ∨ code = 2 ∨ code = 0x10 := by
  rw [scanDenial_eq_none_iff, h]
  constructor
  · rintro ⟨hserved, -⟩
    simpa [scanServed, or_assoc] using hserved
  · rintro (rfl | rfl | rfl) <;> simp [scanServed, scanNeed]

theorem scanDenial_invalid {s : State} (h : s.lcs.state = 15) (code : Nat) :
    s.scanDenial code = none ↔ code = 0xFF ∨ code = 2 ∨ code = 1 ∨ code = 0x10 ∨ code = 0x20 := by
  rw [scanDenial_eq_none_iff, h]
  constructor
  · rintro ⟨hserved, -⟩
    simpa [scanServed, or_assoc] using hserved
  · rintro (rfl | rfl | rfl | rfl | rfl) <;> simp [scanServed, scanNeed]

theorem scanDenial_elsewhere {s : State} (h6 : s.lcs.state ≠ 6) (h15 : s.lcs.state ≠ 15) (code : Nat) : s.scanDenial code = none ↔
    ((code = 0 ∨ code = 3) → ∀ x, x ≤ 128 → 2 ≤ s.workLevel .scan x) ∧ (code = 0x13 → 2 ≤ s.workLevel .scan 128) := by
  rw [scanDenial_eq_none_iff, scanNeed_met_iff]
  simp [scanServed, h6, h15]

/-! ### Denials (R216) -/

/-- The shortfall as one field of AUTH_DENY_LAST: a fabric address in 7 bits, or the bit above them for HUB (Table 7.9). -/
theorem place_unit (t : Nat) : (if t = 128 then 2 ^ 25 else place t 18 7) = place (if t = 128 then 128 else t % 128) 18 8 := by
  split
  · rfl
  · rw [place, place, show t % 128 % 2 ^ 8 = t % 2 ^ 7 by omega]

/-- What a denial on the scan port records of instruction `op` (Table 7.9). -/
theorem denyLast_scan {op v t need held : Nat} (hop : op < 256)
    (hv : v = op + place (b2n true) 8 1 + place 0 9 9 + (if t = 128 then 2 ^ 25 else place t 18 7) + place need 26 2 + place held 28 2) :
    fld v 0 8 = op ∧ bit v 8 = true ∧ fld v 9 9 = 0 ∧ bit v 30 = false := by
  have hx : op < 2 ^ 8 := hop
  have hzero : place (b2n false) 30 1 = 0 := rfl
  have hasc : Ascending 8 [(b2n true, 8, 1), (0, 9, 9), (if t = 128 then 128 else t % 128, 18, 8), (need, 26, 2), (held, 28, 2), (b2n false, 30, 1)] := by
    simp [Ascending]
  have hpacked : v = packed op [(b2n true, 8, 1), (0, 9, 9), (if t = 128 then 128 else t % 128, 18, 8), (need, 26, 2), (held, 28, 2),
        (b2n false, 30, 1)] := by
    rw [hv, place_unit]
    simp only [packed, hzero, Nat.add_zero]
  rw [hpacked]
  exact ⟨(fld_packed_below hasc le_rfl _).trans (Nat.mod_eq_of_lt hx), bit_packed hx hasc (by simp), fld_packed (v := 0) hx hasc (by simp),
    bit_packed hx hasc (by simp)⟩

theorem denyLast_scan_unserved {op v : Nat} (hop : op < 256) (hv : v = op + place (b2n true) 8 1 + place 0 9 9 + 2 ^ 30) :
    fld v 0 8 = op ∧ bit v 8 = true ∧ fld v 9 9 = 0 ∧ bit v 30 = true := by
  have hx : op < 2 ^ 8 := hop
  have hasc : Ascending 8 [(b2n true, 8, 1), (0, 9, 9), (b2n true, 30, 1)] := by simp [Ascending]
  have hpacked : v = packed op [(b2n true, 8, 1), (0, 9, 9), (b2n true, 30, 1)] := hv
  rw [hpacked]
  exact ⟨(fld_packed_below hasc le_rfl _).trans (Nat.mod_eq_of_lt hx), bit_packed hx hasc (by simp), fld_packed (v := 0) hx hasc (by simp),
    bit_packed hx hasc (by simp)⟩

/-- From `s` to `t` the scan port's instruction `op` has been denied: counted, recorded and signalled, and nothing else. -/
structure ScanDenied (s t : State) (op : Nat) (x : Option (Nat × Nat × Nat)) : Prop where
  frame : { t with auth := { t.auth with denyCnt := s.auth.denyCnt, denyLast := s.auth.denyLast }, car := { t.car with sources := s.car.sources }
                   htu := { t.htu with ops := s.htu.ops } } = s
  count : t.auth.denyCnt = satAdd s.auth.denyCnt 1 32
  code : fld t.auth.denyLast 0 8 = op
  scan : bit t.auth.denyLast 8 = true
  ring : fld t.auth.denyLast 9 9 = 0
  unserved : bit t.auth.denyLast 30 = true ↔ x = none
  source : s.inService 182 = false → (t.src 182).pending = true

theorem ScanDenied.of_record {s : State} {op v : Nat} {x : Option (Nat × Nat × Nat)} (hcode : fld v 0 8 = op) (hscan : bit v 8 = true) (hring : fld v 9 9 = 0)
    (hunserved : bit v 30 = true ↔ x = none) :
    ScanDenied s (State.activate { s with auth := { s.auth with denyCnt := satAdd s.auth.denyCnt 1 32, denyLast := v } } 182 v) op x := by
  have hpending (u : State) (hu : u.inService 182 = false) : ((u.activate 182 v).src 182).pending = true := State.activate_pending (by decide) hu v
  have hsource := hpending { s with auth := { s.auth with denyCnt := satAdd s.auth.denyCnt 1 32, denyLast := v } }
  obtain ⟨src, ops, h⟩ := State.activate_activated { s with auth := { s.auth with denyCnt := satAdd s.auth.denyCnt 1 32, denyLast := v } } 182 v
  rw [h] at hsource ⊢
  exact ⟨rfl, rfl, hcode, hscan, hring, hunserved, hsource⟩

theorem deny_scanDenied {op : Nat} (hop : op < 256) (s : State) (x : Option (Nat × Nat × Nat)) : ScanDenied s (s.deny op true 0 x) op x := by
  cases x with
  | none =>
    obtain ⟨hcode, hscan, hring, hunserved⟩ := denyLast_scan_unserved hop rfl
    exact ScanDenied.of_record hcode hscan hring (iff_of_true hunserved rfl)
  | some y =>
    obtain ⟨t, need, held⟩ := y
    obtain ⟨hcode, hscan, hring, hunserved⟩ := denyLast_scan (t := t) (need := need) (held := held) hop rfl
    exact ScanDenied.of_record hcode hscan hring (iff_of_false (Bool.eq_false_iff.mp hunserved) (Option.some_ne_none _))

/-! ### Denied loads (O18) -/

/-- The scan registers with an instruction just loaded, or refused. -/
def Scan.load (c : Scan) (code : Nat) (denied : Bool) : Scan :=
  { c with tlr := false, ir := code, denied := denied, lapsed := false, capValid := false, blkValid := false }

theorem loadIr_denied {s : State} {code : Nat} {x : Option (Nat × Nat × Nat)} (h : s.scanDenial code = some x) :
    s.loadIr code = State.riseStops { s.deny code true 0 x with scan := (s.deny code true 0 x).scan.load code true } := by
  simp only [State.loadIr, h, Scan.load, Option.isSome_some]

theorem loadIr_accepted {s : State} {code : Nat} (h : s.scanDenial code = none) :
    s.loadIr code = State.riseStops { s with scan := s.scan.load code false } := by
  simp only [State.loadIr, h, Scan.load, Option.isSome_none]

theorem Loads.lt {pads up : BitVec 76} {i : Instr} {code : Nat} (h : Loads pads up i code) : code < 256 := by
  cases h <;> decide

theorem loadRow_denied {s : State} {code : Nat} (hd : (s.loadIr code).scan.denied = true) (pads up : BitVec 76) :
    ∃ c, s.loadRow pads up code = (s.loadIr code).setCapture c := by
  simp only [State.loadRow, hd, if_true]
  split
  · exact ⟨0, rfl⟩
  split
  · exact ⟨_, rfl⟩
  split
  · exact ⟨_, rfl⟩
  · exact ⟨(s.loadIr code).scan.capture, rfl⟩

/-- No data register is served after a denied load (R226). -/
theorem scanSel_of_denied {s : State} (h : s.scan.denied = true) (code : Nat) : s.scanSel code = false := by
  simp [State.scanSel, State.inForce, h]

theorem Loads.denied {pads up : BitVec 76} {s : State} {i : Instr} {code : Nat} {x : Option (Nat × Nat × Nat)} (h : Loads pads up i code) (hlive : s.tapLive = true)
    (hx : s.scanDenial code = some x) :
    ∃ t u c, exec i s = .next t ∧ ScanDenied s.tck u code x ∧ t = { u with chips := t.chips, scan := { s.scan.load code true with capture := c } } := by
  have hx' : s.tck.scanDenial code = some x := (s.tck_scanDenial code).trans hx
  have hdeny := deny_scanDenied h.lt s.tck x
  have hscan : (s.tck.deny code true 0 x).scan = s.scan := (congrArg State.scan hdeny.frame).trans s.tck_scan
  have hload := loadIr_denied hx'
  rw [hscan] at hload
  obtain ⟨c, hrow⟩ := loadRow_denied (code := code) (s := s.tck) (by rw [hload, riseStops_scan]; rfl) pads up
  refine ⟨_, s.tck.deny code true 0 x, c, (h.exec_eq hlive).trans (congrArg _ hrow), hdeny, ?_⟩
  obtain ⟨chips, hrise⟩ := riseStops_eq { s.tck.deny code true 0 x with scan := s.scan.load code true }
  rw [hload, hrise]
  rfl

theorem deniedLoad_selects_bypass {s : State} {i : Instr} {code : Nat} {x : Option (Nat × Nat × Nat)} (hi : scanLoad i = some code) (hlive : s.tapLive = true)
    (hx : s.scanDenial code = some x) :
    ∃ t, exec i s = .next t ∧ t.scan.ir = code ∧ t.scan.denied = true ∧ t.scan.boundary = s.scan.boundary ∧ t.scan.slots = s.scan.slots ∧
      t.auth.denyCnt = satAdd s.auth.denyCnt 1 32 ∧ fld t.auth.denyLast 0 8 = code ∧ bit t.auth.denyLast 8 = true ∧ fld t.auth.denyLast 9 9 = 0 ∧
      (bit t.auth.denyLast 30 = true ↔ x = none) ∧ t.auth.certs = s.auth.certs ∧ t.pins = s.pins ∧
      (s.inService 182 = false → (t.src 182).pending = true) ∧
      (∀ c, scanLoad c ≠ none → scanLoad c ≠ some 1 → t.scanSel ((scanLoad c).getD 0) = false) := by
  obtain ⟨pads, up, hload⟩ := loads_of_scanLoad hi
  obtain ⟨t, u, c, hexec, hdeny, ht⟩ := hload.denied hlive hx
  obtain ⟨_, _, _, htck⟩ := s.tck_eq
  rw [htck] at hdeny
  refine ⟨t, hexec, ?_⟩
  have hscan : t.scan = { s.scan.load code true with capture := c } := (congrArg State.scan ht :)
  have hauth : t.auth = u.auth := (congrArg State.auth ht :)
  have hsrc : t.src 182 = u.src 182 := (congrArg (fun v : State => v.src 182) ht :)
  have hpins : t.pins = u.pins := (congrArg State.pins ht :)
  rw [hauth, hsrc, hpins, hscan]
  exact ⟨rfl, rfl, rfl, rfl, hdeny.count, hdeny.code, hdeny.scan, hdeny.ring, hdeny.unserved, (congrArg (fun v : State => v.auth.certs) hdeny.frame :),
    (congrArg State.pins hdeny.frame :), hdeny.source, fun _ _ _ => scanSel_of_denied (by rw [hscan]; rfl) _⟩

/-- Settles O18: the judgement by lifecycle state and levels, and a denied load by its denial and the registers it leaves. -/
theorem scanLoadsAreJudged : Obligations.ScanLoadsAreJudged :=
  ⟨fun _ _ code _ => ⟨fun h => scanDenial_scrapped h code, fun h => scanDenial_invalid h code, fun h6 h15 => scanDenial_elsewhere h6 h15 code⟩,
   fun _ _ _ _ hi hlive hx => deniedLoad_selects_bypass hi hlive hx⟩

/-! ### Accepted loads and boundary scans (O19) -/

theorem Risen.cell {s t : State} (h : Risen s t) (n : Nat) : t.cell n = s.cell n :=
  (congrArg (fun v : State => v.cell n) h.frame :)

/-- What a scan changes beside the SCAN wake event of its TCK edges. -/
theorem Risen.of_tck {s t : State} (h : Risen s.tck t) :
    (∀ f, { t.chip f with stopIn := (s.chip f).stopIn } = s.chip f) ∧ { t with scan := s.scan, chips := s.chips } = s.tck := by
  have hchips : s.tck.chips = s.chips := by
    obtain ⟨_, _, _, htck⟩ := s.tck_eq
    rw [htck]
  refine ⟨fun f => by simpa using h.chip f, ?_⟩
  rw [← s.tck_scan, ← hchips]
  exact h.frame

theorem loadIr_accepted_risen {s : State} {code : Nat} (h : s.scanDenial code = none) :
    Risen s.tck (s.tck.loadIr code) ∧ (s.tck.loadIr code).scan = s.scan.load code false := by
  rw [loadIr_accepted ((s.tck_scanDenial code).trans h)]
  exact ⟨(Risen.of_scan _ _).trans (riseStops_risen _), by rw [riseStops_scan, s.tck_scan]⟩

theorem boundaryScan_risen (s : State) (pads up : BitVec 76) : Risen s (s.boundaryScan pads up) :=
  (Risen.of_scan _ _).trans (riseStops_risen _)

theorem boundaryScan_scan (s : State) (pads up : BitVec 76) :
    (s.boundaryScan pads up).scan = { s.scan with capture := s.boundaryCapture pads, boundary := up } := riseStops_scan _

/-- A boundary cell captures what the functional logic presents, or else its pad. -/
theorem boundaryCapture_testBit {s t : State} (h : Risen s.tck t) (pads : BitVec 76) {n : Nat} (hn : n < 76) :
    (t.boundaryCapture pads).testBit n = (s.cell n).getD (pads.getLsbD n) := by
  have hbit := maskOf_bit 76 (fun n => (t.cell n).getD (pads.getLsbD n)) n
  rw [h.cell, s.tck_cell, decide_eq_true hn, Bool.true_and] at hbit
  exact hbit

theorem loadRow_accepted {s : State} {code : Nat} (hd : s.scanDenial code = none) (pads up : BitVec 76) {t : State} (ht : s.tck.loadRow pads up code = t) :
    Risen s.tck t ∧ t.scan = { s.scan.load code false with capture := t.scan.capture, boundary := t.scan.boundary } ∧
      (code = 2 → t.scan.capture = 0x0C4D1A3B) ∧ (code = 3 ∨ code = 0xFF → t.scan.capture = 0) ∧ (code ≠ 1 → t.scan.boundary = s.scan.boundary) ∧
      (code = 1 → t.scan.boundary = up ∧ ∀ n, n < 76 → t.scan.capture.testBit n = (s.cell n).getD (pads.getLsbD n)) := by
  obtain ⟨hrisen, hscan⟩ := loadIr_accepted_risen hd
  have captures (v : Nat) : Risen s.tck ((s.tck.loadIr code).setCapture v) ∧
      ((s.tck.loadIr code).setCapture v).scan = { s.scan.load code false with capture := v } :=
    ⟨hrisen.trans (Risen.of_scan _ _), congrArg (fun c : Scan => { c with capture := v }) hscan⟩
  subst ht
  unfold State.loadRow
  dsimp only
  split
  · next h1 =>
    subst h1
    rw [if_neg (by rw [hscan]; exact Bool.false_ne_true)]
    refine ⟨hrisen.trans (boundaryScan_risen _ _ _), ?_⟩
    rw [boundaryScan_scan, hscan]
    exact ⟨rfl, by simp, by simp, fun h => absurd rfl h, fun _ => ⟨rfl, fun n hn => boundaryCapture_testBit hrisen pads hn⟩⟩
  split
  · next h1 h2 =>
    obtain ⟨hcaptured, hword⟩ := captures 0x0C4D1A3B
    rw [hword]
    exact ⟨hcaptured, rfl, fun _ => rfl, by simp [h2], fun _ => rfl, fun h => absurd h h1⟩
  split
  · next h1 h2 _ =>
    obtain ⟨hcaptured, hword⟩ := captures 0
    rw [hword]
    exact ⟨hcaptured, rfl, fun h => absurd h h2, fun _ => rfl, fun _ => rfl, fun h => absurd h h1⟩
  · next h1 h2 h3 =>
    rw [hscan]
    exact ⟨hrisen, rfl, fun h => absurd h h2, fun h => absurd h h3, fun _ => rfl, fun h => absurd h h1⟩

/-- Settles O19: a load by its judgement and what its row then does, a scan under EXTEST by its capture and update. -/
theorem acceptedScanLoads : Obligations.AcceptedScanLoads := by
  intro s pads up hlive
  refine ⟨fun i code hmem hd => ?_, fun hsel => ?_⟩
  · have hexec := (loads_of_mem hmem).exec_eq hlive
    obtain ⟨hrisen, hscan, hid, hbypass, hbound, hsample⟩ := loadRow_accepted hd pads up rfl
    obtain ⟨hchip, hframe⟩ := hrisen.of_tck
    refine ⟨_, hexec, ?_, ?_, ?_, ?_, ?_, ?_, ?_, hid, hbypass, hbound, hsample, hchip, hframe⟩ <;> rw [hscan] <;> rfl
  · have hexec : exec (.extest false pads up) s = .next (s.tck.boundaryScan pads up) := scanRow_selected hlive hsel (fun u => u.boundaryScan pads up)
    have hrisen := boundaryScan_risen s.tck pads up
    obtain ⟨hchip, hframe⟩ := hrisen.of_tck
    refine ⟨_, hexec, ?_, fun n hn => ?_, hchip, hframe⟩
    · rw [boundaryScan_scan, s.tck_scan]
    · rw [boundaryScan_scan]
      exact boundaryCapture_testBit (Risen.refl _) pads hn

/-! ### Capture-IR, Test-Logic-Reset and HUBSTAT (O20) -/

theorem exec_captureIr {s : State} (hlive : s.tapLive = true) : exec .captureIr s = .next s.tck.captureIr := scanRow_live hlive _

theorem exec_testLogicReset {s : State} (hlive : s.tapLive = true) : exec .testLogicReset s = .next s.scanReset := congrArg _ (if_pos hlive)

theorem exec_hubstatCapture {s : State} (hlive : s.tapLive = true) (hsel : s.scanSel 0x10 = true) : exec .hubstatCapture s = .next s.tck.hubstatTake :=
  scanRow_selected hlive hsel State.hubstatTake

/-- The word of Capture-IR (Table 8.2). -/
theorem captureIr_fields {s : State} {x : Nat} (hx : s.captureIr.scan.captureIr = x) :
    fld x 0 2 = 1 ∧ bit x 2 = s.scan.denied ∧ bit x 3 = s.fastUp ∧ bit x 4 = s.readyPad ∧ fld x 5 3 = 0 := by
  have hpacked : x = packed 1 [(b2n s.scan.denied, 2, 1), (b2n s.fastUp, 3, 1), (b2n s.readyPad, 4, 1), (0, 5, 3)] := hx.symm
  have hasc : Ascending 2 [(b2n s.scan.denied, 2, 1), (b2n s.fastUp, 3, 1), (b2n s.readyPad, 4, 1), (0, 5, 3)] := by simp [Ascending]
  have hone : 1 < 2 ^ 2 := by decide
  rw [hpacked]
  exact ⟨(fld_packed_below hasc le_rfl 1).trans rfl, bit_packed hone hasc (by simp), bit_packed hone hasc (by simp), bit_packed hone hasc (by simp),
    fld_packed (v := 0) hone hasc (by simp)⟩

/-- With strokes free to start, a wake event seen at an AON edge holds nothing (R119, R123). -/
theorem seeEvent_of_fastUp {s : State} (h : s.fastUp = true) (edge code line : Nat) :
    s.seeEvent edge code line = { s with pwr := { s.pwr with events := s.pwr.events ||| 2 ^ code } } := by
  simp only [State.fastUp, Bool.and_eq_true, beq_iff_eq, Option.isNone_iff_eq_none] at h
  obtain ⟨⟨⟨⟨⟨⟨hrun, -⟩, -⟩, hreq⟩, -⟩, -⟩, -⟩ := h
  simp [State.seeEvent, hrun, hreq]

/-- The HUBSTAT word outside SCRAPPED as fields in the order of Table 8.6. -/
def State.hubstatFields (s : State) : List (Nat × Nat × Nat) :=
  let fast := fun (v : Nat) => if s.fastUp then v else 0
  [(s.lcs.leading, 4, 3), (s.pwr.state.code, 8, 2), (b2n s.fastUp, 10, 1), (b2n s.readyPad, 11, 1), (s.boot.stage, 12, 3), (s.level true 128, 16, 2),
   (fast s.sringFree, 18, 4), (fast s.sringDone, 22, 4), (b2n s.lcsRunning, 26, 1), (fast (fld s.certStatus 0 1), 27, 1), (b2n s.scan.scanLost, 28, 1),
   (b2n s.scan.sringDrop, 29, 1), (fast (b2n s.drBuffered), 30, 1), (s.boot.count, 32, 32), (s.fuses.unitId.toNat, 64, 128)]

theorem hubstat_packed {s : State} (h : s.lcs.state ≠ 6) : s.hubstat = packed s.lcs.state s.hubstatFields := by
  unfold State.hubstat
  dsimp only
  rw [if_neg h]
  unfold State.hubstatFields
  dsimp only [packed]
  omega

/-- In SCRAPPED every field but LC_STATE, LEADING and UNIT_ID reads 0 (Table 8.5). -/
theorem hubstat_packed_scrapped {s : State} (h : s.lcs.state = 6) :
    s.hubstat = packed s.lcs.state [(s.lcs.leading, 4, 3), (b2n false, 10, 1), (b2n false, 28, 1), (b2n false, 29, 1), (s.fuses.unitId.toNat, 64, 128)] := by
  unfold State.hubstat
  dsimp only
  rw [if_pos h]
  rfl

theorem hubstatFields_ascending (s : State) : Ascending 4 s.hubstatFields := by simp [State.hubstatFields, Ascending]

theorem hubstat_fields {s : State} (hst : s.lcs.state < 16) (hlead : s.lcs.leading < 8) (h : s.lcs.state ≠ 6) :
    fld s.hubstat 0 4 = s.lcs.state ∧ fld s.hubstat 4 3 = s.lcs.leading ∧ fld s.hubstat 64 128 = s.fuses.unitId.toNat ∧
      bit s.hubstat 28 = s.scan.scanLost ∧ bit s.hubstat 29 = s.scan.sringDrop ∧ bit s.hubstat 10 = s.fastUp ∧ bit s.hubstat 11 = s.readyPad := by
  have hx : s.lcs.state < 2 ^ 4 := hst
  have hasc := hubstatFields_ascending s
  rw [hubstat_packed h]
  exact ⟨(fld_packed_below hasc le_rfl _).trans (Nat.mod_eq_of_lt hx), (fld_packed hx hasc (by simp [State.hubstatFields])).trans (Nat.mod_eq_of_lt hlead),
    (fld_packed hx hasc (by simp [State.hubstatFields])).trans (Nat.mod_eq_of_lt s.fuses.unitId.isLt), bit_packed hx hasc (by simp [State.hubstatFields]),
    bit_packed hx hasc (by simp [State.hubstatFields]), bit_packed hx hasc (by simp [State.hubstatFields]),
      bit_packed hx hasc (by simp [State.hubstatFields])⟩

theorem hubstat_fields_scrapped {s : State} (hlead : s.lcs.leading < 8) (h : s.lcs.state = 6) :
    fld s.hubstat 0 4 = s.lcs.state ∧ fld s.hubstat 4 3 = s.lcs.leading ∧ fld s.hubstat 64 128 = s.fuses.unitId.toNat ∧
      bit s.hubstat 28 = false ∧ bit s.hubstat 29 = false ∧ bit s.hubstat 10 = false := by
  have hx : s.lcs.state < 2 ^ 4 := by rw [h]; decide
  have hasc : Ascending 4 [(s.lcs.leading, 4, 3), (b2n false, 10, 1), (b2n false, 28, 1), (b2n false, 29, 1), (s.fuses.unitId.toNat, 64, 128)] := by
    simp [Ascending]
  rw [hubstat_packed_scrapped h]
  exact ⟨(fld_packed_below hasc le_rfl _).trans (Nat.mod_eq_of_lt hx), (fld_packed hx hasc (by simp)).trans (Nat.mod_eq_of_lt hlead),
    (fld_packed hx hasc (by simp)).trans (Nat.mod_eq_of_lt s.fuses.unitId.isLt), bit_packed hx hasc (by simp), bit_packed hx hasc (by simp),
    bit_packed hx hasc (by simp)⟩

/-- A change of the scan registers alone, made after the TCK edges. -/
theorem frame_of_tck (s : State) (c : Scan) : { { s.tck with scan := c } with scan := s.scan } = s.tck := by
  rw [← s.tck_scan]

theorem captureIr_captures {s : State} (hlive : s.tapLive = true) :
    ∃ t, exec .captureIr s = .next t ∧ { t with scan := s.scan } = s.tck ∧ { t.scan with captureIr := s.scan.captureIr } = s.scan ∧
      fld t.scan.captureIr 0 2 = 1 ∧ bit t.scan.captureIr 2 = s.scan.denied ∧ bit t.scan.captureIr 3 = s.fastUp ∧
      bit t.scan.captureIr 4 = s.readyPad ∧ fld t.scan.captureIr 5 3 = 0 := by
  refine ⟨_, exec_captureIr hlive, frame_of_tck s _, ?_, ?_⟩
  · rw [← s.tck_scan]
    rfl
  · rw [← s.tck_scan, ← s.tck_fastUp, ← s.tck_readyPad]
    exact captureIr_fields rfl

theorem testLogicReset_resets {s : State} (hlive : s.tapLive = true) :
    ∃ t, exec .testLogicReset s = .next t ∧ { t with scan := s.scan, chips := s.chips } = s ∧
      (∀ f, { t.chip f with stopIn := (s.chip f).stopIn } = s.chip f) ∧
      t.scan = { s.scan with tlr := true, ir := 2, denied := false, lapsed := false, boundary := 0, capValid := false, blkValid := false } := by
  have hrisen : Risen s s.scanReset := (Risen.of_scan _ _).trans (riseStops_risen _)
  exact ⟨_, exec_testLogicReset hlive, hrisen.frame, hrisen.chip, riseStops_scan _⟩

theorem hubstatCapture_shows {s : State} (hlive : s.tapLive = true) (hsel : s.scanSel 0x10 = true) (hst : s.lcs.state < 16) (hlead : s.lcs.leading < 8) :
    ∃ t, exec .hubstatCapture s = .next t ∧ { t with scan := s.scan } = s.tck ∧
      t.scan = { s.scan with capture := t.scan.capture, scanLost := false, sringDrop := false } ∧
      fld t.scan.capture 0 4 = s.lcs.state ∧ fld t.scan.capture 4 3 = s.lcs.leading ∧ fld t.scan.capture 64 128 = s.fuses.unitId.toNat ∧
      (s.lcs.state ≠ 6 → bit t.scan.capture 28 = s.scan.scanLost ∧ bit t.scan.capture 29 = s.scan.sringDrop ∧ bit t.scan.capture 10 = s.fastUp ∧
        bit t.scan.capture 11 = s.readyPad) ∧
      (s.lcs.state = 6 → bit t.scan.capture 28 = false ∧ bit t.scan.capture 29 = false ∧ bit t.scan.capture 10 = false) := by
  refine ⟨_, exec_hubstatCapture hlive hsel, frame_of_tck s _, ?_, ?_⟩
  · rw [← s.tck_scan]
    rfl
  · show fld s.tck.hubstat 0 4 = _ ∧ fld s.tck.hubstat 4 3 = _ ∧ fld s.tck.hubstat 64 128 = _ ∧
      (_ → bit s.tck.hubstat 28 = _ ∧ bit s.tck.hubstat 29 = _ ∧ bit s.tck.hubstat 10 = _ ∧ bit s.tck.hubstat 11 = _) ∧
      (_ → bit s.tck.hubstat 28 = _ ∧ bit s.tck.hubstat 29 = _ ∧ bit s.tck.hubstat 10 = _)
    rw [← s.tck_lcs] at hst hlead ⊢
    rw [← s.tck_scan, ← s.tck_fuses, ← s.tck_fastUp, ← s.tck_readyPad]
    by_cases h6 : s.tck.lcs.state = 6
    · obtain ⟨hstate, hleading, hunit, hflags⟩ := hubstat_fields_scrapped hlead h6
      exact ⟨hstate, hleading, hunit, fun h => absurd h6 h, fun _ => hflags⟩
    · obtain ⟨hstate, hleading, hunit, hflags⟩ := hubstat_fields hst hlead h6
      exact ⟨hstate, hleading, hunit, fun _ => hflags, fun h => absurd h h6⟩

/-- Settles O20: each row by the registers it loads, and the words by their fields. -/
theorem captureIrHubstatAndReset : Obligations.CaptureIrHubstatAndReset :=
  ⟨fun _ hlive => ⟨captureIr_captures hlive, testLogicReset_resets hlive, fun hnow => State.wakeEvent_offEdge hnow 5 0,
     fun hnow hup => (State.wakeEvent_atEdge hnow 5 0).trans (seeEvent_of_fastUp hup _ 5 0)⟩,
   fun _ hlive hsel hst hlead => hubstatCapture_shows hlive hsel hst hlead⟩

end Sys2Proof.Machine

/-! PROOFS. The scan ring on the port (O21): a POST, a POP and the HUBCMD capture, and what becomes of each row while strokes may not
start. -/
namespace Sys2Proof.Machine

/-! ### HUBCMD with strokes free to start (R230–R232) -/

/-- The scan ring's next descriptor is a matter of the port's work item: the one in progress stays, and with none the oldest slot without a
completion gives it. -/
theorem scanNext_eq (s : State) : ∃ i, s.scanNext = { s with scan := { s.scan with item := i } } ∧ (∀ j, s.scan.item = some j → i = some j) ∧
    (s.scan.item = none → ∀ l, s.scan.slots.find? (fun l => l.cpl.isNone) = some l → ∃ j, i = some j ∧ j.desc = l.desc) := by
  unfold State.scanNext
  split
  · next l hitem hfind =>
    refine ⟨_, rfl, fun j hj => ?_, fun _ l' hl' => ⟨_, rfl, ?_⟩⟩
    · rw [hitem] at hj
      cases hj
    · rw [hfind] at hl'
      cases hl'
      rfl
  · next hno => exact ⟨s.scan.item, rfl, fun j hj => hj, fun hitem l hl => absurd hl (hno l hitem)⟩

theorem find?_posted {l : List ScanSlot} (h : ∀ x ∈ l, x.cpl.isSome = true) (x : ScanSlot) (hx : x.cpl = none) :
    (l ++ [x]).find? (fun y => y.cpl.isNone) = some x := by
  have hnone : l.find? (fun y => y.cpl.isNone) = none := List.find?_eq_none.mpr fun y hy => by simpa [Option.ne_none_iff_isSome] using h y hy
  simp [List.find?_append, hnone, hx]

theorem hubcmdPost_free {s : State} (h : s.scan.slots.length < 8) (d : BitVec 512) : s.hubcmdPost d =
    State.scanNext { s with scan := { s.scan with
      slots := s.scan.slots ++ [({ seq := s.scan.nextSeq, desc := d } : ScanSlot)], nextSeq := (s.scan.nextSeq + 1) % 65536 } } :=
  if_pos h

theorem hubcmdPost_full {s : State} (h : ¬ s.scan.slots.length < 8) (d : BitVec 512) : s.hubcmdPost d =
    { s with scan := { s.scan with sringDrop := true } } := if_neg h

/-- An update of a selected register that the fast domain serves. -/
theorem scanRow_updates {s : State} {code : Nat} (hlive : s.tapLive = true) (hsel : s.scanSel code = true) (hup : s.fastUp = true) (f : State → State) :
    s.scanRow (fun u => u.onSel code (fun u => u.fastUpdate f)) = .next (f s.tck) :=
  (scanRow_selected hlive hsel _).trans (congrArg _ (fastUpdate_up (s.tck_fastUp.trans hup) f))

/-- One that it does not serve is lost (R227). -/
theorem scanRow_loses {s : State} {code : Nat} (hlive : s.tapLive = true) (hsel : s.scanSel code = true) (hdown : s.fastUp = false) (f : State → State) :
    ∃ t, s.scanRow (fun u => u.onSel code (fun u => u.fastUpdate f)) = .next t ∧ t.scan = { s.scan with scanLost := true } ∧
      { t with scan := s.scan } = s.tck := by
  have hnot : ¬ s.tck.fastUp = true := by simp [hdown]
  refine ⟨_, (scanRow_selected hlive hsel _).trans (congrArg _ (if_neg hnot)), ?_, frame_of_tck s _⟩
  rw [← s.tck_scan]

section
variable {s : State} (hlive : s.tapLive = true) (hsel : s.scanSel 0x11 = true) (hup : s.fastUp = true)
include hlive hsel hup
theorem hubcmdPost_posts (hfree : s.scan.slots.length < 8) (d : BitVec 512) :
    ∃ t, exec (.hubcmdPost d) s = .next t ∧ t.scan.nextSeq = (s.scan.nextSeq + 1) % 65536 ∧ t.scan.sringDrop = s.scan.sringDrop ∧
      t.scan.slots = s.scan.slots ++ [({ seq := s.scan.nextSeq, desc := d } : ScanSlot)] ∧
      (s.scan.item = none → (∀ x ∈ s.scan.slots, x.cpl.isSome = true) → ∃ i, t.scan.item = some i ∧ i.desc = d) ∧
      (∀ i, s.scan.item = some i → t.scan.item = some i) ∧ t.rings = s.rings ∧ t.host = s.host ∧ t.store = s.store ∧ t.chips = s.chips ∧
        t.counters = s.counters := by
  have hexec : exec (.hubcmdPost d) s = .next (s.tck.hubcmdPost d) := scanRow_updates hlive hsel hup (fun u => u.hubcmdPost d)
  rw [hubcmdPost_free (by rwa [s.tck_scan])] at hexec
  obtain ⟨_, _, _, htck⟩ := s.tck_eq
  rw [htck] at hexec
  obtain ⟨i, hnext, hkeep, htake⟩ := scanNext_eq _
  rw [hnext] at hexec
  exact ⟨_, hexec, rfl, rfl, rfl, fun hitem hdone => htake hitem _ (find?_posted hdone _ rfl), hkeep, rfl, rfl, rfl, rfl, rfl⟩

theorem hubcmdPost_drops (hfull : ¬ s.scan.slots.length < 8) (d : BitVec 512) :
    ∃ t, exec (.hubcmdPost d) s = .next t ∧ t.scan = { s.scan with sringDrop := true } ∧ { t with scan := s.scan } = s.tck := by
  have hexec : exec (.hubcmdPost d) s = .next (s.tck.hubcmdPost d) := scanRow_updates hlive hsel hup (fun u => u.hubcmdPost d)
  rw [hubcmdPost_full (by rwa [s.tck_scan])] at hexec
  refine ⟨_, hexec, ?_, frame_of_tck s _⟩
  rw [← s.tck_scan]

theorem hubcmdPop_pops : ∃ t, exec .hubcmdPop s = .next t ∧ { t with scan := s.scan } = s.tck ∧
    (s.scan.capValid = true → t.scan = { s.scan with slots := s.scan.slots.drop 1, capValid := false }) ∧ (s.scan.capValid = false → t.scan = s.scan) := by
  have hexec : exec .hubcmdPop s = .next s.tck.hubcmdPop := scanRow_updates hlive hsel hup State.hubcmdPop
  unfold State.hubcmdPop at hexec
  split at hexec
  · next hcap =>
    rw [s.tck_scan] at hcap
    refine ⟨_, hexec, frame_of_tck s _, fun _ => ?_, fun h => absurd hcap (by simp [h])⟩
    rw [← s.tck_scan]
  · next hcap =>
    rw [s.tck_scan] at hcap
    exact ⟨_, hexec, by rw [← s.tck_scan], fun h => absurd h hcap, fun _ => s.tck_scan⟩
end

/-! ### The HUBCMD capture (Table 8.7) -/

/-- The fields of the HUBCMD capture above the completion word. -/
def State.hubcmdFields (s : State) : List (Nat × Nat × Nat) :=
  [(s.sringFree, 512, 4), (s.sringDone, 516, 4), (b2n s.oldestCpl.isSome, 520, 1), (1, 521, 1), (b2n s.scan.sringDrop, 522, 1), (s.scan.nextSeq, 523, 16)]

theorem hubcmdTake_up {s : State} (hup : s.fastUp = true) :
    ∃ x, s.hubcmdTake = { s with scan := { s.scan with capture := x, capValid := s.oldestCpl.isSome } } ∧
      bit x 520 = s.oldestCpl.isSome ∧ bit x 521 = true ∧ ∀ w, s.oldestCpl = some w → w < 2 ^ 64 → fld x 0 64 = w := by
  have hasc : Ascending 64 s.hubcmdFields := by simp [State.hubcmdFields, Ascending]
  have hx : s.oldestCpl.getD 0 % 2 ^ 64 < 2 ^ 64 := Nat.mod_lt _ (by decide)
  refine ⟨packed (s.oldestCpl.getD 0 % 2 ^ 64) s.hubcmdFields, ?_, bit_packed hx hasc (by simp [State.hubcmdFields]),
    bit_packed hx hasc (by simp [State.hubcmdFields, b2n]), fun w hw hlt => ?_⟩
  · rw [State.hubcmdTake, if_pos hup]
    simp only [State.hubcmdFields, packed, State.setCapture]
  · rw [fld_packed_below hasc le_rfl, hw]
    exact (Nat.mod_mod _ _).trans (Nat.mod_eq_of_lt hlt)

theorem State.tck_oldestCpl (s : State) : s.tck.oldestCpl = s.oldestCpl := by simp only [State.oldestCpl, State.tck_scan]

theorem hubcmdCapture_shows {s : State} (hlive : s.tapLive = true) (hsel : s.scanSel 0x11 = true) (hup : s.fastUp = true) :
    ∃ t, exec .hubcmdCapture s = .next t ∧ { t with scan := s.scan } = s.tck ∧ t.scan.slots = s.scan.slots ∧
      t.scan.capValid = s.oldestCpl.isSome ∧ bit t.scan.capture 520 = s.oldestCpl.isSome ∧ bit t.scan.capture 521 = true ∧
      (∀ w, s.oldestCpl = some w → w < 2 ^ 64 → fld t.scan.capture 0 64 = w) := by
  have hup' : s.tck.fastUp = true := s.tck_fastUp.trans hup
  have hexec : exec .hubcmdCapture s = .next (s.tck.hubcmdTake.fastUpdate id) := scanRow_selected hlive hsel (fun u => u.fastScan State.hubcmdTake)
  obtain ⟨x, htake, hfields⟩ := hubcmdTake_up hup'
  have hserved : s.tck.hubcmdTake.fastUp = true := by
    rw [htake]
    exact hup'
  rw [fastUpdate_up hserved, htake] at hexec
  refine ⟨_, hexec, frame_of_tck s _, ?_⟩
  rw [← s.tck_scan, ← s.tck_oldestCpl]
  exact ⟨rfl, rfl, hfields⟩

/-! ### While strokes may not start (R227) -/

theorem place_bit (b : Bool) (lo : Nat) : place (b2n b) lo 1 = if b then 2 ^ lo else 0 := by
  cases b <;> simp [place, b2n, Nat.shiftLeft_eq]

section
variable {s : State} (hlive : s.tapLive = true) (hdown : s.fastUp = false)
include hlive hdown
theorem scanUpdate_lost {i : Instr} (hi : ((∃ d, i = .hubcmdPost d) ∨ i = .hubcmdPop) ∧ s.scanSel 0x11 = true ∨
      ((∃ a b, i = .dumpReadStart a b) ∨ i = .dumpReadRepeat ∨ i = .dumpReadAdvance) ∧ s.scanSel 0x13 = true ∨
      (∃ d, i = .lcsReqSubmit d) ∧ s.scanSel 0x20 = true ∨ (∃ d, i = .certLoadSubmit d) ∧ s.scanSel 0x21 = true) :
    ∃ t, exec i s = .next t ∧ t.scan = { s.scan with scanLost := true } ∧ { t with scan := s.scan } = s.tck := by
  rcases hi with ⟨⟨d, rfl⟩ | rfl, hsel⟩ | ⟨⟨a, b, rfl⟩ | rfl | rfl, hsel⟩ | ⟨⟨d, rfl⟩, hsel⟩ | ⟨⟨d, rfl⟩, hsel⟩ <;>
    exact scanRow_loses hlive hsel hdown _

/-- A whole scan that the fast domain does not serve shows what its capture gives and is lost. -/
theorem scanRow_fastScan_lost {code : Nat} (hsel : s.scanSel code = true) {f : State → State} {c : Scan} (hf : f s.tck = { s.tck with scan := c }) :
    s.scanRow (fun u => u.onSel code (fun u => u.fastScan f)) = .next { s.tck with scan := { c with scanLost := true } } := by
  have hnot : ¬ State.fastUp { s.tck with scan := c } = true := by
    rw [show State.fastUp { s.tck with scan := c } = s.tck.fastUp from rfl]
    simp [hdown]
  rw [scanRow_selected hlive hsel, State.fastScan, hf, State.fastUpdate, if_neg hnot]

theorem hubcmdCapture_lost (hsel : s.scanSel 0x11 = true) : ∃ t, exec .hubcmdCapture s = .next t ∧ { t with scan := s.scan } = s.tck ∧
    t.scan = { s.scan with capture := if s.scan.sringDrop then 2 ^ 522 else 0, capValid := false, scanLost := true } := by
  have hnot : ¬ s.tck.fastUp = true := by simp [hdown]
  refine ⟨_, scanRow_fastScan_lost hlive hdown hsel (f := State.hubcmdTake) (if_neg hnot), frame_of_tck s _, ?_⟩
  rw [← s.tck_scan, ← place_bit]

theorem certLoadCapture_lost (hsel : s.scanSel 0x21 = true) :
    ∃ t, exec .certLoadCapture s = .next t ∧ { t with scan := s.scan } = s.tck ∧ t.scan = { s.scan with capture := 0, scanLost := true } := by
  have hnot : ¬ s.tck.fastUp = true := by simp [hdown]
  refine ⟨_, scanRow_fastScan_lost hlive hdown hsel (f := State.certTake) (congrArg s.tck.setCapture (if_neg hnot)), frame_of_tck s _, ?_⟩
  rw [← s.tck_scan]

theorem dumpReadCapture_lost (hsel : s.scanSel 0x13 = true) :
    ∃ t, exec .dumpReadCapture s = .next t ∧ { t with scan := s.scan } = s.tck ∧ t.scan = { s.scan with capture := 0, blkValid := false } := by
  have hnot : (!s.tck.fastUp) = true := by simp [hdown]
  refine ⟨_, (scanRow_selected hlive hsel State.dumpTake).trans (congrArg _ (if_pos hnot)), frame_of_tck s _, ?_⟩
  rw [← s.tck_scan]
end

/-- Settles O21: the ring's rows with strokes free to start, each by its branch, and the rows that are lost without. -/
theorem scanRingPostsAndPops : Obligations.ScanRingPostsAndPops :=
  ⟨fun _ d hlive hsel hup => ⟨fun hfree => hubcmdPost_posts hlive hsel hup hfree d, fun hfull => hubcmdPost_drops hlive hsel hup hfull d,
     hubcmdPop_pops hlive hsel hup, hubcmdCapture_shows hlive hsel hup⟩,
   fun _ hlive hdown => ⟨fun _ hi => scanUpdate_lost hlive hdown hi, fun hsel => hubcmdCapture_lost hlive hdown hsel,
     fun hsel => certLoadCapture_lost hlive hdown hsel, fun hsel => dumpReadCapture_lost hlive hdown hsel⟩⟩

end Sys2Proof.Machine

/-! PROOFS. What register writes leave of the scan port (O22): beside the work item of the scan ring, a write of BAR 0 changes nothing of
the port. -/
namespace Sys2Proof.Machine

/-- The scan registers apart from the work item of the scan ring. -/
def Scan.port (c : Scan) : Scan := { c with item := none }

/-! ### Frames that speak of the port -/

theorem port_foldl {α : Type} {g : State → α → State} (hg : ∀ s x, (g s x).scan.port = s.scan.port) (l : List α) (s : State) :
    (l.foldl g s).scan.port = s.scan.port :=
  List.foldlRecOn (motive := fun t : State => t.scan.port = s.scan.port) _ _ rfl fun t ht x _ => (hg t x).trans ht

theorem port_ite {s a b : State} {c : Prop} [Decidable c] (ha : a.scan.port = s.scan.port) (hb : b.scan.port = s.scan.port) :
    (if c then a else b).scan.port = s.scan.port := by
  split <;> assumption

theorem HostFrame.port {s t : State} (h : HostFrame s t) : t.scan.port = s.scan.port := (congrArg State.scan h.off :)

theorem Activated.scan {s t : State} (h : Activated s t) : t.scan = s.scan := by
  obtain ⟨_, _, rfl⟩ := h
  rfl

@[simp] theorem State.activate_scan (s : State) (n data : Nat) : (s.activate n data).scan = s.scan := (s.activate_activated n data).scan
@[simp] theorem State.activateAt_scan (s : State) (n data t : Nat) : (s.activateAt n data t).scan = s.scan := (s.activateAt_activated n data t).scan
@[simp] theorem State.judgeReady_scan (s : State) (n : Nat) : (s.judgeReady n).scan = s.scan := (s.judgeReady_activated n).scan
@[simp] theorem State.rejudge_scan (s : State) (p : Source → Bool) : (s.rejudge p).scan = s.scan := (s.rejudge_activated p).scan
@[simp] theorem State.ringErr_scan (s : State) (n flag : Nat) : (s.ringErr n flag).scan = s.scan := State.activate_scan ..
@[simp] theorem State.requestVector_scan (s : State) (n : Nat) : (s.requestVector n).scan = s.scan := by unfold State.requestVector; split <;> rfl
@[simp] theorem State.pump_port (s : State) : s.pump.scan.port = s.scan.port := (pump_step s).toHostFrame.port
@[simp] theorem State.faultOp_port (s : State) (o : HostOp) (cause level : Nat) (hit : Bool) : (s.faultOp o cause level hit).scan.port = s.scan.port :=
  (OwnerStep.faultOp s o cause level hit).port

@[simp] theorem State.parkOwner_port (s : State) (o : Owner) (on : Bool) : (s.parkOwner o on).scan.port = s.scan.port := (OwnerStep.parkOwner s o on).port
@[simp] theorem State.logFault_port (s : State) (o : Owner) (r : Fault192) : (s.logFault o r).scan.port = s.scan.port :=
  (OwnerStep.logFault (ow := o) s o r).port

/-! ### Work items and stroke engines -/

@[simp] theorem State.setItem_port (s : State) (w : Work) (i : Item) : (s.setItem w i).scan.port = s.scan.port := by
  cases w with
  | ring n => simp [State.setItem]
  | scan => rfl
  | free k => rfl

@[simp] theorem State.dropItem_port (s : State) (w : Work) : (s.dropItem w).scan.port = s.scan.port := by
  cases w with
  | ring n => simp [State.dropItem]
  | scan => rfl
  | free k => rfl

@[simp] theorem State.modItem_port (s : State) (w : Work) (f : Item → Item) : (s.modItem w f).scan.port = s.scan.port := by
  unfold State.modItem; split <;> simp

@[simp] theorem State.updItem_port (s : State) (w : Work) (f : Item → Item) : (s.updItem w f).scan.port = s.scan.port := State.modItem_port ..
@[simp] theorem State.killItem_port (s : State) (w : Work) (e : Status) : (s.killItem w e).scan.port = s.scan.port := State.updItem_port ..
@[simp] theorem State.mapItems_port (s : State) (f : Work → Item → Item) : (s.mapItems f).scan.port = s.scan.port :=
  port_foldl (fun s w => s.modItem_port w (f w)) _ s

@[simp] theorem State.sleepCheck_port (s : State) : s.sleepCheck.scan.port = s.scan.port := State.mapItems_port ..
@[simp] theorem State.fenceNote_port (s : State) (n : Nat) (off : Bool) : (s.fenceNote n off).scan.port = s.scan.port := State.mapItems_port ..
@[simp] theorem State.endStroke_port (s : State) (e : Nat) : (s.endStroke e).scan.port = s.scan.port := by
  unfold State.endStroke; dsimp only; split <;> simp

@[simp] theorem State.endStrokesOf_port (s : State) (w : Work) : (s.endStrokesOf w).scan.port = s.scan.port := (OwnerStep.endStrokesOf s w).port

/-! ### The Carillon's registers -/

@[simp] theorem State.timeReady_scan (s : State) (n : Nat) : (s.timeReady n).scan = s.scan := by
  unfold State.timeReady; dsimp only; split <;> simp

@[simp] theorem State.setMask_scan (s : State) (n : Nat) (m : Bool) : (s.setMask n m).scan = s.scan := State.setSrc_scan ..
@[simp] theorem State.pendSet_scan (s : State) (n : Nat) : (s.pendSet n).scan = s.scan := State.setSrc_scan ..
@[simp] theorem State.pendClr_scan (s : State) (n : Nat) : (s.pendClr n).scan = s.scan := by
  unfold State.pendClr; dsimp only; split <;> simp

theorem State.eachSource_port {f : State → Nat → State} (hf : ∀ s n, (f s n).scan = s.scan) (s : State) (m bits : Nat) :
    (s.eachSource m bits f).scan.port = s.scan.port :=
  port_foldl (fun s k => by split <;> simp [hf]) _ s

@[simp] theorem State.routeWrite_port (s : State) (m v : Nat) : (s.routeWrite m v).scan.port = s.scan.port :=
  port_foldl (fun s j => by simp) _ s

@[simp] theorem State.queueVector_scan (s : State) (q : Nat) : (s.queueVector q).scan = s.scan := by
  unfold State.queueVector; split <;> simp

@[simp] theorem State.qHead_scan (s : State) (q v : Nat) : (s.qHead q v).scan = s.scan := by
  unfold State.qHead; dsimp only; split_ifs <;> simp

@[simp] theorem State.qEnable_scan (s : State) (q : Nat) : (s.qEnable q).scan = s.scan := by
  unfold State.qEnable; dsimp only; split <;> simp

@[simp] theorem State.qDisable_scan (s : State) (q : Nat) : (s.qDisable q).scan = s.scan := State.setQueue_scan ..
@[simp] theorem State.qRelease_port (s : State) (q : Nat) : (s.qRelease q).scan.port = s.scan.port := by
  unfold State.qRelease
  dsimp only
  split
  · simp
  split
  · exact (port_foldl (fun s _ => by simp) _ _).trans (by simp)
  · simp

@[simp] theorem State.qEoi_port (s : State) (q n : Nat) : (s.qEoi q n).scan.port = s.scan.port := by
  unfold State.qEoi; dsimp only; split_ifs <;> simp

@[simp] theorem State.qRecover_port (s : State) (q : Nat) (release : Bool) : (s.qRecover q release).scan.port = s.scan.port := by
  unfold State.qRecover; dsimp only; split_ifs <;> simp

@[simp] theorem queueWrite_port (s : State) (q o v : Nat) : (queueWrite s q o v).scan.port = s.scan.port := by
  unfold queueWrite
  dsimp only
  repeat' with_reducible refine port_ite ?_ ?_
  all_goals simp

@[simp] theorem carWrite_port (s : State) (o v : Nat) : (carWrite s o v).scan.port = s.scan.port := by
  have mask (m : Bool) : ∀ s n, (State.setMask s n m).scan = s.scan := fun s n => s.setMask_scan n m
  have overrun : ∀ s n, (State.setSrc s n { s.src n with ovr := false }).scan = s.scan := fun s n => State.setSrc_scan ..
  exact port_ite (State.eachSource_port State.pendSet_scan ..) (port_ite (State.eachSource_port State.pendClr_scan ..)
    (port_ite (State.eachSource_port (mask true) ..) (port_ite (State.eachSource_port (mask false) ..) (port_ite (State.eachSource_port overrun ..)
      (port_ite (State.routeWrite_port ..) (port_ite (congrArg Scan.port (State.setLine_scan ..)) (port_ite (queueWrite_port ..) rfl)))))))

/-! ### Host operations that are dropped, resumed or resolved -/

@[simp] theorem State.logWaiting_port (s : State) : s.logWaiting.scan.port = s.scan.port := by
  unfold State.logWaiting; split <;> simp

@[simp] theorem State.freeEntry_port (s : State) (ow : Owner) : (s.freeEntry ow).scan.port = s.scan.port := by
  unfold State.freeEntry; split <;> simp

@[simp] theorem State.dropUnqueued_port (s : State) (ow : Owner) : (s.dropUnqueued ow).scan.port = s.scan.port := by
  unfold State.dropUnqueued; dsimp only; split <;> simp

@[simp] theorem State.stall_scan (s : State) (n flag : Nat) : (s.stall n flag).scan = s.scan := by
  unfold State.stall; simp

@[simp] theorem State.discardRecord_port (s : State) (q : Nat) : (s.discardRecord q).scan.port = s.scan.port := by
  unfold State.discardRecord
  dsimp only
  split
  · rfl
  · simp only [State.setSrc_scan, State.setQueue_scan]
    exact (port_foldl (fun s x => by rfl) _ _).trans (port_foldl (fun s o => by rfl) _ s)

@[simp] theorem State.abortOwner_port (s : State) (ow : Owner) : (s.abortOwner ow).scan.port = s.scan.port := by
  unfold State.abortOwner
  dsimp only
  cases ow with
  | item w =>
    cases w with
    | ring n =>
      refine port_ite (port_ite ?_ ?_) ?_ <;> simp
    | scan | free => simp
  | fetch n => simp
  | queue q => simp

@[simp] theorem State.resumeOwner_port (s : State) (ow : Owner) : (s.resumeOwner ow).scan.port = s.scan.port := by
  unfold State.resumeOwner; dsimp only; split <;> simp [State.setOp]

@[simp] theorem State.resolve_port (s : State) (entry gen : Nat) (abort : Bool) : (s.resolve entry gen abort).scan.port = s.scan.port := by
  unfold State.resolve; dsimp only; split <;> [split_ifs; skip] <;> simp

@[simp] theorem State.htuEnable_port (s : State) : s.htuEnable.scan.port = s.scan.port := by
  unfold State.htuEnable; split <;> simp

@[simp] theorem State.htuDisable_port (s : State) : s.htuDisable.scan.port = s.scan.port := by
  unfold State.htuDisable
  dsimp only
  rw [State.pump_port]
  refine (port_foldl (fun s id => ?_) _ _).trans rfl
  split
  · split <;> simp [State.setOp]
  · rfl

/-! ### Resets that the host makes -/

@[simp] theorem State.cutDropped_scan (s : State) (i : Item) : (s.cutDropped i).scan = s.scan := by unfold State.cutDropped; split <;> rfl
@[simp] theorem State.dumpEvent_scan (s : State) (n sdf status : Nat) : (s.dumpEvent n sdf status).scan = s.scan := State.activate_scan ..
@[simp] theorem State.dropHostPart_port (s : State) (n : Nat) : (s.dropHostPart n).scan.port = s.scan.port := by
  unfold State.dropHostPart; dsimp only; split <;> [split; skip] <;> simp

@[simp] theorem State.orphan_port (s : State) (w : Work) (keep : Option Item) : (s.orphan w keep).scan.port = s.scan.port := by
  unfold State.orphan; simp [State.mapChains]

@[simp] theorem State.suspendedLost_port (s : State) (n : Nat) : (s.suspendedLost n).scan.port = s.scan.port := by
  unfold State.suspendedLost; dsimp only; split_ifs <;> simp [State.free]

@[simp] theorem State.ringLost_port (s : State) (n : Nat) : (s.ringLost n).scan.port = s.scan.port := by
  unfold State.ringLost
  extract_lets w u
  have hcut : u.scan = s.scan := by
    unfold u
    split
    · exact s.cutDropped_scan _
    · rfl
  rw [← hcut]
  clear_value u
  split
  · simp
  · split
    · dsimp only
      split <;> simp +zetaDelta [State.free]
    · split <;> simp

@[simp] theorem State.hostLost_port (s : State) (w : Work) : (s.hostLost w).scan.port = s.scan.port := by
  unfold State.hostLost; dsimp only; split <;> split_ifs <;> simp

@[simp] theorem State.queuesReset_port (s : State) : s.queuesReset.scan.port = s.scan.port := by
  unfold State.queuesReset
  dsimp only
  rw [State.rejudge_scan]
  refine port_foldl (fun s p => ?_) _ s
  split
  · split <;> simp
  · rfl

@[simp] theorem State.hostReset_port (s : State) : s.hostReset.scan.port = s.scan.port := by
  unfold State.hostReset
  extract_lets dumps rings others slept htu
  have hdumps : dumps.scan.port = s.scan.port := port_foldl State.suspendedLost_port _ s
  clear_value dumps
  have hrings : rings.scan.port = dumps.scan.port := port_foldl State.ringLost_port _ dumps
  clear_value rings
  have hothers : others.scan.port = rings.scan.port := port_foldl State.hostLost_port _ rings
  clear_value others
  have hslept : slept.scan.port = others.scan.port := (State.sleepCheck_port _).trans others.queuesReset_port
  clear_value slept
  exact ((hslept.trans hothers).trans hrings).trans hdumps

@[simp] theorem State.rebootNow_port (s : State) (cause : Nat) : (s.rebootNow cause).scan.port = s.scan.port := by
  unfold State.rebootNow
  extract_lets u t
  have hstrokes : t.scan.port = u.scan.port := port_foldl State.endStroke_port _ u
  clear_value t
  exact hstrokes.trans s.hostReset_port

@[simp] theorem State.reboot_port (s : State) : s.reboot.scan.port = s.scan.port := by
  unfold State.reboot; split_ifs <;> simp

@[simp] theorem State.scrapCheck_port (s : State) : s.scrapCheck.scan.port = s.scan.port := by
  unfold State.scrapCheck State.scrapNow; split_ifs <;> simp

@[simp] theorem lcsWrite_port (s : State) (o v : Nat) : (lcsWrite s o v).scan.port = s.scan.port := by
  unfold lcsWrite; split_ifs <;> simp [State.nonceNew, State.freeWide]

@[simp] theorem htuWrite_port (s : State) (o v : Nat) : (htuWrite s o v).scan.port = s.scan.port := by
  unfold htuWrite
  dsimp only
  repeat' with_reducible refine port_ite ?_ ?_
  all_goals simp

/-! ### Rings, dumps, trace and the sync counters -/

@[simp] theorem State.reRecord_port (s : State) (n : Nat) (i : Item) (v : Nat × Nat × Nat) : (s.reRecord n i v).scan.port = s.scan.port := by
  unfold State.reRecord; dsimp only; split <;> simp [State.setOp]

@[simp] theorem State.drainItem_port (s : State) (n : Nat) (i : Item) : (s.drainItem n i).scan.port = s.scan.port := by
  unfold State.drainItem
  dsimp only
  split
  · split <;> simp
  · split_ifs
    · simp
    · simp
    · split <;> simp

@[simp] theorem State.settleDrain_port (s : State) (n : Nat) : (s.settleDrain n).scan.port = s.scan.port := by
  unfold State.settleDrain State.ringOff; dsimp only; split <;> simp

@[simp] theorem State.dropFetch_port (s : State) (n : Nat) : (s.dropFetch n).scan.port = s.scan.port := by
  unfold State.dropFetch; simp

@[simp] theorem State.ringEnable_scan (s : State) (n : Nat) : (s.ringEnable n).scan = s.scan := by
  unfold State.ringEnable; dsimp only; split <;> simp

@[simp] theorem State.ringDisable_port (s : State) (n : Nat) : (s.ringDisable n).scan.port = s.scan.port := by
  unfold State.ringDisable; dsimp only; split <;> [skip; split] <;> simp

@[simp] theorem ringWrite_port (s : State) (n o v : Nat) : (ringWrite s n o v).scan.port = s.scan.port := by
  unfold ringWrite
  dsimp only
  repeat' with_reducible refine port_ite ?_ ?_
  all_goals simp

@[simp] theorem State.stopCtx_port (s : State) (n why code : Nat) : (s.stopCtx n why code).scan.port = s.scan.port := by
  unfold State.stopCtx; split <;> simp

@[simp] theorem State.disableCtx_port (s : State) (n : Nat) : (s.disableCtx n).scan.port = s.scan.port := by
  unfold State.disableCtx; split <;> simp [State.finishFree, State.addFree]

@[simp] theorem State.dumpEnable_port (s : State) (on : Bool) : (s.dumpEnable on).scan.port = s.scan.port := by
  cases on with
  | true => rfl
  | false =>
    show s.dumpDisable.scan.port = _
    by_cases hen : s.dmp.enable = true
    · rw [dumpDisable_eq hen]
      exact port_foldl State.disableCtx_port _ _
    · rw [dumpDisable_of_disabled (Bool.eq_false_iff.mpr hen)]

@[simp] theorem State.toutEvent_scan (s : State) (b : Nat) : (s.toutEvent b).scan = s.scan := by
  unfold State.toutEvent; dsimp only; split_ifs <;> rfl

@[simp] theorem State.ringPush_scan (s : State) (rs : List TraceRec) : (s.ringPush rs).scan = s.scan := by
  unfold State.ringPush; dsimp only; split <;> simp

@[simp] theorem State.placeRec_scan (s : State) (f : Nat) (r : TraceRec) : (s.placeRec f r).scan = s.scan := by
  unfold State.placeRec
  simp only [apply_ite State.scan, State.ringPush_scan, State.setTchip_scan, ite_self]

@[simp] theorem State.payGaps_port (s : State) (f : Nat) : (s.payGaps f).scan.port = s.scan.port :=
  (port_foldl (fun s r => by simp) _ _).trans (by simp)

@[simp] theorem State.checkFlushed_port (s : State) : s.checkFlushed.scan.port = s.scan.port := by
  unfold State.checkFlushed
  split
  · extract_lets paid
    have hpaid : paid.scan.port = s.scan.port := port_foldl (fun s f => by split <;> simp) _ s
    clear_value paid
    exact (State.mapItems_port _ _).trans hpaid
  · rfl

@[simp] theorem State.ctlWrite_scan (s : State) (f a v : Nat) : (s.ctlWrite f a v).scan = s.scan := by
  unfold State.ctlWrite State.relayScan; split_ifs <;> simp

@[simp] theorem State.stopCapture_port (s : State) (code : Nat) : (s.stopCapture code).scan.port = s.scan.port := by
  unfold State.stopCapture State.stopMarker
  dsimp only
  rw [State.checkFlushed_port]
  refine (port_foldl (fun s f => ?_) _ _).trans (by simp)
  split <;> simp

@[simp] theorem State.traceEnable_port (s : State) (on : Bool) : (s.traceEnable on).scan.port = s.scan.port := by
  unfold State.traceEnable; dsimp only; split <;> [split; skip] <;> simp

@[simp] theorem State.traceTrigger_scan (s : State) (code tt arg : Nat) : (s.traceTrigger code tt arg).scan = s.scan := by
  unfold State.traceTrigger
  dsimp only
  split
  · split <;> [split; split; rfl; rfl] <;> simp
  · rfl

@[simp] theorem trcWrite_port (s : State) (o v : Nat) : (trcWrite s o v).scan.port = s.scan.port := by
  unfold trcWrite
  dsimp only
  repeat' with_reducible refine port_ite ?_ ?_
  all_goals simp

@[simp] theorem synWrite_port (s : State) (o size v : Nat) : (synWrite s o size v).scan.port = s.scan.port :=
  (State.mapItems_port _ _).trans (by simp)

/-! ### Writes of BAR 0 -/

theorem hubWrite0_scan (s : State) (o v : Nat) : (hubWrite0 s o v).scan = s.scan := by
  unfold hubWrite0
  simp only [apply_ite State.scan, ite_self]

theorem pwrWrite_scan (s : State) (o v : Nat) : (pwrWrite s o v).scan = s.scan := by
  unfold pwrWrite
  simp only [apply_ite State.scan, ite_self]

theorem authWrite_scan (s : State) (o v : Nat) : (authWrite s o v).scan = s.scan := by
  unfold authWrite; split <;> rfl

theorem bhvWrite_scan (s : State) (o v : Nat) : (bhvWrite s o v).scan = s.scan := by
  unfold bhvWrite; split_ifs <;> rfl

theorem runWrite_scan (s : State) (o v : Nat) : (runWrite s o v).scan = s.scan := by
  unfold runWrite; dsimp only; split_ifs <;> rfl

/-- A write of a register of BAR 0 leaves the scan port, but for the work item of the scan ring. -/
theorem State.bar0Write_port (s : State) (off size v : Nat) : (s.bar0Write off size v).scan.port = s.scan.port := by
  refine port_ite rfl (port_ite ?hub (port_ite ?pwr (port_ite (lcsWrite_port ..) (port_ite ?auth (port_ite (carWrite_port ..) (port_ite (htuWrite_port ..)
    (port_ite ?bhv (port_ite ?run (port_ite (port_ite (State.dumpEnable_port ..) rfl) (port_ite (trcWrite_port ..) (port_ite (ringWrite_port ..)
      (port_ite (synWrite_port ..) rfl))))))))))))
  case hub => rw [hubWrite0_scan]
  case pwr => rw [pwrWrite_scan]
  case auth => rw [authWrite_scan]
  case bhv => rw [bhvWrite_scan]
  case run => rw [runWrite_scan]

theorem State.misuse_scan (s : State) (m : Nat × Bool) : (s.misuse m).scan = s.scan := by unfold State.misuse; split <;> rfl

/-- So does one as it arrives, whatever misuse it makes. -/
theorem State.bar0Take_port (s : State) (off size v : Nat) : (s.bar0Take off size v).scan.port = s.scan.port := by
  unfold State.bar0Take
  split
  · rfl
  split
  · rw [State.misuse_scan]
  · rw [State.bar0Write_port, State.misuse_scan]
  · rw [State.bar0Write_port]
    rfl

end Sys2Proof.Machine

/-! PROOFS. DUMP_READ on the scan port (O22): the refills of its buffer, START, REPEAT and an advance by what they make of the cursor, and
the word of its capture. -/
namespace Sys2Proof.Machine

/-! ### Refills of the DUMP_READ buffer (R237) -/

/-- One block of a refill: the `j`-th from the cursor is read where the range holds it, it is neither buffered nor being read, and a burst
slot is free. -/
def State.refillAt (s : State) (j : Nat) : State :=
  let b := s.scan.drCursor + j
  if b < s.scan.drFirst + s.scan.drCount ∧ tget [] s.scan.drBuf b = [] ∧ !s.bursts.any (fun p => p.refill && p.addr == 512 * b) ∧
      (s.bursts.filter (fun p => p.nor == 0)).length < 32 then
    { s with bursts := s.bursts ++ [{ id := s.htu.nextId, work := .scan, ix := 0, write := false, addr := 512 * b, len := 512, data := [], refill := true }]
             htu := { s.htu with nextId := s.htu.nextId + 1 } }
  else s

/-- Burst `b` reads one of the three blocks from the cursor on, within the range. -/
def Scan.wants (c : Scan) (b : Burst) : Prop :=
  b.refill = true ∧ b.write = false ∧ b.len = 512 ∧ ∃ j, j < 3 ∧ c.drCursor + j < c.drFirst + c.drCount ∧ b.addr = 512 * (c.drCursor + j)

theorem Scan.wants_at_first {c : Scan} {first : Nat} (hF : c.drFirst = first) (hC : c.drCursor = first) {b : Burst} (h : c.wants b) :
    b.refill = true ∧ b.write = false ∧ b.len = 512 ∧ ∃ j, j < 3 ∧ j < c.drCount ∧ b.addr = 512 * (first + j) := by
  obtain ⟨hr, hw, hlen, j, hj, hin, ha⟩ := h
  rw [hC] at hin ha
  exact ⟨hr, hw, hlen, j, hj, by omega, ha⟩

/-- From `s` to `t` nothing has changed but that refills of DUMP_READ's buffer have been issued. -/
def Refilled (s t : State) : Prop := ∃ l k, t = { s with bursts := s.bursts ++ l, htu := { s.htu with nextId := k } } ∧ ∀ b ∈ l, s.scan.wants b

theorem Refilled.refl (s : State) : Refilled s s := ⟨[], s.htu.nextId, by rw [List.append_nil], by simp⟩

theorem Refilled.trans {s t u : State} (h : Refilled s t) (g : Refilled t u) : Refilled s u := by
  obtain ⟨l, _, rfl, hl⟩ := h
  obtain ⟨m, k, rfl, hm⟩ := g
  refine ⟨l ++ m, k, by rw [← List.append_assoc], fun b hb => ?_⟩
  rcases List.mem_append.mp hb with hb | hb
  · exact hl b hb
  · exact hm b hb

theorem refillAt_refilled (s : State) {j : Nat} (hj : j < 3) : Refilled s (s.refillAt j) := by
  unfold State.refillAt
  dsimp only
  split
  · next h =>
    refine ⟨_, _, rfl, fun b hb => ?_⟩
    obtain rfl := List.mem_singleton.mp hb
    exact ⟨rfl, rfl, rfl, j, hj, h.1, rfl⟩
  · exact Refilled.refl s

theorem refillAt_foldl {l : List Nat} (hl : ∀ j ∈ l, j < 3) (s : State) : Refilled s (l.foldl State.refillAt s) :=
  List.foldlRecOn (motive := fun t => Refilled s t) _ _ (Refilled.refl s) fun t ht j hj => ht.trans (refillAt_refilled t (hl j hj))

theorem drRefill_refilled (s : State) : Refilled s s.drRefill := by
  unfold State.drRefill
  split
  · exact Refilled.refl s
  · exact refillAt_foldl (fun _ => List.mem_range.mp) s

theorem drRefill_eq_foldl {s : State} (hon : s.scan.drOn = true) (hrun : s.fastRun = true) (hsurv : s.dmp.surviving = false) :
    s.drRefill = (List.range 3).foldl State.refillAt s := by
  rw [State.drRefill, if_neg (by simp [hon, hrun, hsurv])]
  rfl

/-- With no burst queued, the block at the cursor is read if it is not buffered. -/
theorem drRefill_reads {s : State} (hon : s.scan.drOn = true) (hrun : s.fastRun = true) (hsurv : s.dmp.surviving = false) (hnone : s.bursts = [])
    (hrange : s.scan.drCursor < s.scan.drFirst + s.scan.drCount) (hbuf : tget [] s.scan.drBuf s.scan.drCursor = []) :
    ∃ b ∈ s.drRefill.bursts, b.refill = true ∧ b.addr = 512 * s.scan.drCursor := by
  obtain ⟨b, hfirst, hrefill, haddr⟩ : ∃ b, (s.refillAt 0).bursts = [b] ∧ b.refill = true ∧ b.addr = 512 * s.scan.drCursor := by
    simp [State.refillAt, hrange, hbuf, hnone]
  have hlater : ∃ l, s.drRefill.bursts = (s.refillAt 0).bursts ++ l := by
    have hfold : s.drRefill = (0 :: [1, 2]).foldl State.refillAt s := drRefill_eq_foldl hon hrun hsurv
    obtain ⟨l, _, hl, -⟩ := refillAt_foldl (l := [1, 2]) (by simp) (s.refillAt 0)
    exact ⟨l, by rw [hfold, List.foldl_cons, hl]⟩
  obtain ⟨l, hl⟩ := hlater
  exact ⟨b, by simp [hl, hfirst], hrefill, haddr⟩

/-! ### START, REPEAT and an advance (R237) -/

theorem drStart_eq (s : State) (first count : Nat) : ∃ c k, s.drStart first count = State.drRefill { s with freeIx := k, scan := c } ∧
    c.drFirst = first ∧ c.drCursor = first ∧ c.drOn = true ∧ c.drBuf = [] ∧ c.drTab = [] ∧ c.blkValid = false ∧ c.slots = s.scan.slots ∧
    c.drCount = (if count = 0 then s.dsBlocks - first else Nat.min count (s.dsBlocks - first)) ∧
    (s.lcs.state ≠ 4 → c.drTags = 0 ∧ c.drSalt = s.scan.drSalt ∧ c.drSealed = false) ∧
    (s.lcs.state = 4 → c.drSalt = (s.freeWide 128).1 ∧ c.drSealed = true) := by
  unfold State.drStart
  by_cases h : s.lcs.state = 4
  · simp only [h, beq_self_eq_true, if_true]
    exact ⟨_, _, rfl, rfl, rfl, rfl, rfl, rfl, rfl, rfl, rfl, fun hne => absurd rfl hne, fun _ => ⟨rfl, rfl⟩⟩
  · simp only [beq_eq_false_iff_ne.mpr h, Bool.false_eq_true, if_false]
    exact ⟨_, s.freeIx, rfl, rfl, rfl, rfl, rfl, rfl, rfl, rfl, rfl, fun _ => ⟨rfl, rfl, rfl⟩, fun h4 => absurd h4 h⟩

/-- Strokes may start only while the fast domain runs. -/
theorem fastRun_of_fastUp {s : State} (h : s.fastUp = true) : s.fastRun = true := by
  simp only [State.fastUp, Bool.and_eq_true] at h
  obtain ⟨⟨⟨⟨⟨⟨hrun, hlock⟩, -⟩, -⟩, -⟩, -⟩, -⟩ := h
  simp [State.fastRun, hrun, hlock]

/-- START sets the cursor and the range and reads the first blocks. -/
theorem drStart_starts {s : State} (hrun : s.fastRun = true) {first count : Nat} {t : State} (ht : s.drStart first count = t) :
    t.scan.drFirst = first ∧ t.scan.drCursor = first ∧ t.scan.drOn = true ∧
      t.scan.drBuf = [] ∧ t.scan.drTab = [] ∧ t.scan.blkValid = false ∧ t.scan.slots = s.scan.slots ∧
      t.scan.drCount = (if count = 0 then s.dsBlocks - first else Nat.min count (s.dsBlocks - first)) ∧
      (s.lcs.state ≠ 4 → t.scan.drTags = 0 ∧ t.scan.drSalt = s.scan.drSalt ∧ t.scan.drSealed = false) ∧
      (s.lcs.state = 4 → t.scan.drSalt = (s.freeWide 128).1 ∧ t.scan.drSealed = true) ∧
      (∀ b ∈ t.bursts, b ∈ s.bursts ∨ b.refill = true ∧ b.write = false ∧ b.len = 512 ∧ ∃ j, j < 3 ∧ j < t.scan.drCount ∧ b.addr = 512 * (first + j)) ∧
      (s.bursts = [] → s.dmp.surviving = false → t.scan.drCount ≠ 0 → ∃ b ∈ t.bursts, b.refill = true ∧ b.addr = 512 * first) ∧
      { t with scan := s.scan, freeIx := s.freeIx, bursts := s.bursts, htu := s.htu } = s := by
  obtain ⟨c, k, hstart, hfirst, hcursor, hon, hbuf, htab, hvalid, hslots, hcount, hopen, hsealed⟩ := drStart_eq s first count
  have hreads := drRefill_reads (s := { s with freeIx := k, scan := c }) hon hrun
  obtain ⟨l, n, hrefill, hl⟩ := drRefill_refilled { s with freeIx := k, scan := c }
  rw [hrefill] at hstart hreads
  subst ht
  rw [hstart]
  refine ⟨hfirst, hcursor, hon, hbuf, htab, hvalid, hslots, hcount, hopen, hsealed, fun b hb => ?_, fun hnone hsurv hne => ?_, rfl⟩
  · rcases List.mem_append.mp hb with hb | hb
    · exact .inl hb
    · exact .inr (Scan.wants_at_first (c := c) hfirst hcursor (hl b hb))
  · have hin : c.drCursor < c.drFirst + c.drCount := by
      rw [hcursor, hfirst]
      exact Nat.lt_add_of_pos_right (Nat.pos_of_ne_zero hne)
    have hempty : tget [] c.drBuf c.drCursor = [] := by rw [hbuf]; rfl
    obtain ⟨b, hb, hr, ha⟩ := hreads hsurv hnone hin hempty
    exact ⟨b, hb, hr, hcursor ▸ ha⟩

theorem State.tck_dsBlocks (s : State) : s.tck.dsBlocks = s.dsBlocks := by
  obtain ⟨_, _, _, h⟩ := s.tck_eq
  rw [h]; rfl

theorem State.tck_bursts (s : State) : s.tck.bursts = s.bursts := by
  obtain ⟨_, _, _, h⟩ := s.tck_eq
  rw [h]

theorem State.tck_dmp (s : State) : s.tck.dmp = s.dmp := by
  obtain ⟨_, _, _, h⟩ := s.tck_eq
  rw [h]

theorem State.tck_freeIx (s : State) : s.tck.freeIx = s.freeIx := by
  obtain ⟨_, _, _, h⟩ := s.tck_eq
  rw [h]

theorem State.tck_htu (s : State) : s.tck.htu = s.htu := by
  obtain ⟨_, _, _, h⟩ := s.tck_eq
  rw [h]

section
variable {s : State} (hlive : s.tapLive = true) (hsel : s.scanSel 0x13 = true) (hup : s.fastUp = true)
include hlive hsel hup
theorem dumpReadStart_starts {first count : Nat} (hfirst : first < 2 ^ 24) (hcount : count < 2 ^ 24) :
    ∃ t, exec (.dumpReadStart first count) s = .next t ∧ t.scan.drFirst = first ∧ t.scan.drCursor = first ∧ t.scan.drOn = true ∧
      t.scan.drBuf = [] ∧ t.scan.drTab = [] ∧ t.scan.blkValid = false ∧ t.scan.slots = s.scan.slots ∧
      t.scan.drCount = (if count = 0 then s.dsBlocks - first else Nat.min count (s.dsBlocks - first)) ∧
      (s.lcs.state ≠ 4 → t.scan.drTags = 0 ∧ t.scan.drSalt = s.scan.drSalt ∧ t.scan.drSealed = false) ∧
      (s.lcs.state = 4 → t.scan.drSalt = (s.tck.freeWide 128).1 ∧ t.scan.drSealed = true) ∧
      (∀ b ∈ t.bursts, b ∈ s.bursts ∨ b.refill = true ∧ b.write = false ∧ b.len = 512 ∧ ∃ j, j < 3 ∧ j < t.scan.drCount ∧ b.addr = 512 * (first + j)) ∧
      (s.bursts = [] → s.dmp.surviving = false → t.scan.drCount ≠ 0 → ∃ b ∈ t.bursts, b.refill = true ∧ b.addr = 512 * first) ∧
      { t with scan := s.scan, freeIx := s.freeIx, bursts := s.bursts, htu := s.htu } = s.tck := by
  have hexec : exec (.dumpReadStart first count) s = .next (s.tck.drStart (first % 2 ^ 24) (count % 2 ^ 24)) :=
    scanRow_updates hlive hsel hup (fun u => u.drStart (first % 2 ^ 24) (count % 2 ^ 24))
  rw [Nat.mod_eq_of_lt hfirst, Nat.mod_eq_of_lt hcount] at hexec
  have hstarts := drStart_starts (fastRun_of_fastUp (s.tck_fastUp.trans hup)) (first := first) (count := count) rfl
  rw [s.tck_scan, s.tck_lcs, s.tck_dsBlocks, s.tck_bursts, s.tck_dmp, s.tck_freeIx, s.tck_htu] at hstarts
  exact ⟨_, hexec, hstarts⟩

theorem dumpReadRepeat_keeps :
    ∃ t, exec .dumpReadRepeat s = .next t ∧ t.scan = { s.scan with blkValid := false } ∧ { t with scan := s.scan } = s.tck := by
  refine ⟨_, scanRow_updates hlive hsel hup State.drRepeat, ?_, frame_of_tck s _⟩
  rw [← s.tck_scan]
  rfl

theorem dumpReadAdvance_moves : ∃ t, exec .dumpReadAdvance s = .next t ∧ { t with scan := s.scan, bursts := s.bursts, htu := s.htu } = s.tck ∧
    t.scan.drFirst = s.scan.drFirst ∧ t.scan.drCount = s.scan.drCount ∧
    t.scan.drCursor = (if s.scan.blkValid then s.scan.drCursor + 1 else s.scan.drCursor) := by
  have hexec : exec .dumpReadAdvance s = .next s.tck.drAdvance := scanRow_updates hlive hsel hup State.drAdvance
  obtain ⟨_, _, _, htck⟩ := s.tck_eq
  rw [htck] at hexec ⊢
  by_cases hvalid : s.scan.blkValid = true
  · rw [State.drAdvance, if_pos hvalid] at hexec
    obtain ⟨l, n, hrefill, -⟩ := drRefill_refilled _
    rw [hrefill] at hexec
    exact ⟨_, hexec, rfl, rfl, rfl, (if_pos hvalid).symm⟩
  · rw [State.drAdvance, if_neg hvalid] at hexec
    exact ⟨_, hexec, rfl, rfl, rfl, (if_neg hvalid).symm⟩
end

/-! ### The DUMP_READ capture (Table 8.9) -/

theorem leNat_lt (l : List Byte) : leNat l < 2 ^ (8 * l.length) := by
  induction l with
  | nil => exact Nat.one_pos
  | cons b l ih =>
    have hb : b.toNat < 2 ^ 8 := b.isLt
    rw [leNat, List.length_cons, Nat.mul_succ, Nat.pow_add]
    omega

theorem leNat_zeros (n : Nat) : leNat (zeros n) = 0 := by
  induction n with
  | zero => rfl
  | succ n ih => simpa [zeros, List.replicate_succ, leNat] using ih

theorem crcShift_lt {c : Nat} (h : c < 2 ^ 32) : crcShift c < 2 ^ 32 := by
  have hhalf : c >>> 1 < 2 ^ 32 := (Nat.shiftRight_le c 1).trans_lt h
  unfold crcShift
  split
  · exact Nat.xor_lt_two_pow hhalf (by decide)
  · exact hhalf

theorem crcByte_lt {c : Nat} (h : c < 2 ^ 32) (b : Byte) : crcByte c b < 2 ^ 32 := by
  have hb : b.toNat < 2 ^ 32 := b.isLt.trans (by decide)
  exact crcShift_lt (crcShift_lt (crcShift_lt (crcShift_lt (crcShift_lt (crcShift_lt (crcShift_lt (crcShift_lt (Nat.xor_lt_two_pow h hb))))))))

theorem crc32_lt (l : List Byte) : crc32 l < 2 ^ 32 :=
  Nat.xor_lt_two_pow (List.foldlRecOn (motive := fun c => c < 2 ^ 32) l crcByte (by decide) fun _ hc b _ => crcByte_lt hc b) (by decide)

/-- The DUMP_READ cursor has no block to show: there is no store, or it is past the range (Table 8.9, END). -/
def State.drEnds (s : State) : Bool := s.boot.dsSize == 0 || (s.scan.drOn && s.scan.drEnd ≤ s.scan.drCursor)

/-- A capture would show the block at the cursor. -/
def State.drShows (s : State) : Bool := s.drBuffered && !s.drEnds && !s.lcs.wipePending

/-- The fields of the DUMP_READ capture above the cursor, with the bytes `d`. -/
def State.dumpFields (s : State) (d : List Byte) : List (Nat × Nat × Nat) :=
  [(b2n s.drShows, 24, 1), (b2n (s.drShows && s.lcs.state == 4), 25, 1), (b2n s.drEnds, 26, 1), (b2n s.lcs.wipePending, 27, 1),
   (b2n (s.drShows && s.scan.drFirst + s.scan.drCount ≤ s.scan.drCursor), 28, 1), (crc32 d, 32, 32), (leNat d, 64, 4096)]

theorem dumpFields_read (s : State) (d : List Byte) : let x := packed (s.scan.drCursor % 2 ^ 24) (s.dumpFields d)
    fld x 0 24 = s.scan.drCursor % 2 ^ 24 ∧ bit x 24 = s.drShows ∧ bit x 26 = s.drEnds ∧ bit x 27 = s.lcs.wipePending ∧ fld x 32 32 = crc32 d ∧
      fld x 64 4096 = leNat d % 2 ^ 4096 := by
  have hasc : Ascending 24 (s.dumpFields d) := by simp [State.dumpFields, Ascending]
  have hx : s.scan.drCursor % 2 ^ 24 < 2 ^ 24 := Nat.mod_lt _ (by decide)
  have hcrc : (crc32 d, 32, 32) ∈ s.dumpFields d := by simp [State.dumpFields]
  have hdata : (leNat d, 64, 4096) ∈ s.dumpFields d := by simp [State.dumpFields]
  exact ⟨(fld_packed_below hasc le_rfl _).trans (Nat.mod_mod _ _), bit_packed hx hasc (by simp [State.dumpFields]),
    bit_packed hx hasc (by simp [State.dumpFields]),
    bit_packed hx hasc (by simp [State.dumpFields]), (fld_packed hx hasc hcrc).trans (Nat.mod_eq_of_lt (crc32_lt d)), fld_packed hx hasc hdata⟩

/-- The bytes that the capture shows. -/
def State.drBytes (s : State) : List Byte := if s.drShows then s.drData.1 else zeros 512
section
variable {s : State} (hup : s.fastUp = true)
include hup
theorem dumpTake_word : s.dumpTake.scan.capture = packed (s.drRefill.scan.drCursor % 2 ^ 24) (s.drRefill.dumpFields s.drRefill.drBytes) := by
  unfold State.dumpTake
  rw [if_neg (by simp [hup])]
  generalize s.drRefill = u
  have hdata : u.drBytes = (if u.drShows then u.drData else (zeros 512, [])).1 := (apply_ite Prod.fst (u.drShows = true) u.drData (zeros 512, [])).symm
  rw [hdata]
  simp only [State.dumpFields, packed, State.setCapture]
  rfl

theorem dumpTake_blkValid : s.dumpTake.scan.blkValid = s.drRefill.drShows := by
  unfold State.dumpTake
  rw [if_neg (by simp [hup])]
  generalize s.drRefill = u
  dsimp only [State.drShows, State.drEnds]

theorem dumpTake_drCursor : s.dumpTake.scan.drCursor = s.drRefill.scan.drCursor := by
  unfold State.dumpTake
  rw [if_neg (by simp [hup])]
  generalize s.drRefill = u
  simp only [State.setCapture]

theorem dumpTake_frame (c : Scan) : { s.dumpTake with scan := c } = { s.drRefill with scan := c } := by
  unfold State.dumpTake
  rw [if_neg (by simp [hup])]
  generalize s.drRefill = u
  simp only [State.setCapture]
end

/-- A block buffered at the cursor, within the range, is shown as it was read, outside FIELDED (R236, R237). -/
theorem drShows_of_buffered {s : State} (hst : s.lcs.state ≠ 4) (hbuf : tget [] s.scan.drBuf s.scan.drCursor ≠ []) (hon : s.scan.drOn = true)
    (hfirst : s.scan.drFirst ≤ s.scan.drCursor) (hlast : s.scan.drCursor < s.scan.drFirst + s.scan.drCount) (hstore : s.boot.dsSize ≠ 0)
    (hwipe : s.lcs.wipePending = false) : s.drShows = true ∧ s.drEnds = false ∧ s.drBytes = tget [] s.scan.drBuf s.scan.drCursor := by
  have hend : s.scan.drCursor < s.scan.drEnd := by unfold Scan.drEnd; omega
  have hends : s.drEnds = false := by simp [State.drEnds, hstore, hend]
  have hshows : s.drShows = true := by simp [State.drShows, State.drBuffered, hon, hend, hbuf, hst, hends, hwipe]
  have hk : s.scan.drCursor - s.scan.drFirst < s.scan.drCount := by omega
  exact ⟨hshows, hends, by simp [State.drBytes, hshows, State.drData, hk, hst]⟩

theorem drShows_of_ends {s : State} (h : s.drEnds = true) : s.drShows = false ∧ s.drBytes = zeros 512 := by
  have hshows : s.drShows = false := by simp [State.drShows, h]
  exact ⟨hshows, by simp [State.drBytes, hshows]⟩

theorem drEnds_of {s : State} (h : s.boot.dsSize = 0 ∨ s.scan.drOn = true ∧ s.scan.drEnd ≤ s.scan.drCursor) : s.drEnds = true := by
  rcases h with h | ⟨hon, hend⟩ <;> simp [State.drEnds, *]

/-- What the word of a DUMP_READ capture shows, outside FIELDED (Table 8.9). -/
theorem dumpWord_shows {s : State} (hst : s.lcs.state ≠ 4) (hcursor : s.scan.drCursor < 2 ^ 24) {x : Nat}
    (hx : x = packed (s.scan.drCursor % 2 ^ 24) (s.dumpFields s.drBytes)) :
    fld x 0 24 = s.scan.drCursor ∧ bit x 24 = s.drShows ∧ bit x 27 = s.lcs.wipePending ∧
      (∀ d, tget [] s.scan.drBuf s.scan.drCursor = d → d.length = 512 → s.scan.drOn = true → s.scan.drFirst ≤ s.scan.drCursor →
        s.scan.drCursor < s.scan.drFirst + s.scan.drCount → s.boot.dsSize ≠ 0 → s.lcs.wipePending = false →
        s.drShows = true ∧ bit x 26 = false ∧ fld x 32 32 = crc32 d ∧ fld x 64 4096 = leNat d) ∧
      (s.boot.dsSize = 0 ∨ (s.scan.drOn = true ∧ s.scan.drEnd ≤ s.scan.drCursor) → s.drShows = false ∧ bit x 26 = true ∧ fld x 64 4096 = 0) := by
  obtain ⟨hfcur, hfshows, hfends, hfwipe, hfcrc, hfdata⟩ := dumpFields_read s s.drBytes
  rw [← hx] at hfcur hfshows hfends hfwipe hfcrc hfdata
  refine ⟨hfcur.trans (Nat.mod_eq_of_lt hcursor), hfshows, hfwipe, fun d hd hlen hon hfirst hlast hstore hwipe => ?_, fun hend => ?_⟩
  · have hne : tget [] s.scan.drBuf s.scan.drCursor ≠ [] := by
      rw [hd]
      rintro rfl
      cases hlen
    obtain ⟨hshows, hends, hbytes⟩ := drShows_of_buffered hst hne hon hfirst hlast hstore hwipe
    have hlt : leNat d < 2 ^ 4096 := (leNat_lt d).trans_eq (by rw [hlen])
    rw [hbytes, hd] at hfcrc hfdata
    exact ⟨hshows, hfends.trans hends, hfcrc, hfdata.trans (Nat.mod_eq_of_lt hlt)⟩
  · have hends := drEnds_of hend
    obtain ⟨hshows, hbytes⟩ := drShows_of_ends hends
    rw [hbytes, leNat_zeros, Nat.zero_mod] at hfdata
    exact ⟨hshows, hfends.trans hends, hfdata⟩

theorem dumpReadCapture_shows {s : State} (hlive : s.tapLive = true) (hsel : s.scanSel 0x13 = true) (hup : s.fastUp = true) (hst : s.lcs.state ≠ 4)
    (hcursor : s.scan.drCursor < 2 ^ 24) :
    ∃ t, exec .dumpReadCapture s = .next t ∧ { t with scan := s.scan, bursts := s.bursts, htu := s.htu } = s.tck ∧
      t.scan.drCursor = s.scan.drCursor ∧ fld t.scan.capture 0 24 = s.scan.drCursor ∧
      bit t.scan.capture 24 = t.scan.blkValid ∧ bit t.scan.capture 27 = s.lcs.wipePending ∧
      (∀ d, tget [] s.scan.drBuf s.scan.drCursor = d → d.length = 512 → s.scan.drOn = true → s.scan.drFirst ≤ s.scan.drCursor →
        s.scan.drCursor < s.scan.drFirst + s.scan.drCount → s.boot.dsSize ≠ 0 → s.lcs.wipePending = false →
        t.scan.blkValid = true ∧ bit t.scan.capture 26 = false ∧ fld t.scan.capture 32 32 = crc32 d ∧ fld t.scan.capture 64 4096 = leNat d) ∧
      (s.boot.dsSize = 0 ∨ (s.scan.drOn = true ∧ s.scan.drEnd ≤ s.scan.drCursor) → t.scan.blkValid = false ∧ bit t.scan.capture 26 = true ∧
        fld t.scan.capture 64 4096 = 0) := by
  have hexec : exec .dumpReadCapture s = .next s.tck.dumpTake := scanRow_selected hlive hsel State.dumpTake
  have hup' : s.tck.fastUp = true := s.tck_fastUp.trans hup
  obtain ⟨l, k, hrefill, -⟩ := drRefill_refilled s.tck
  obtain ⟨_, _, _, htck⟩ := s.tck_eq
  have hscan : s.tck.drRefill.scan = s.scan := by rw [hrefill, htck]
  have hlcs : s.tck.drRefill.lcs = s.lcs := by rw [hrefill, htck]
  have hboot : s.tck.drRefill.boot = s.boot := by rw [hrefill, htck]
  refine ⟨_, hexec, ?_, ?_⟩
  · refine (congrArg (fun t : State => { t with bursts := s.bursts, htu := s.htu }) (dumpTake_frame hup' s.scan)).trans ?_
    rw [hrefill, htck]
  · rw [dumpTake_drCursor hup', dumpTake_blkValid hup']
    rw [← hlcs] at hst ⊢
    rw [← hscan] at hcursor ⊢
    rw [← hboot]
    exact ⟨rfl, dumpWord_shows hst hcursor (dumpTake_word hup')⟩

end Sys2Proof.Machine

/-! PROOFS. DBGREG on the scan port (O22): what a new GO finds, an access by whether it is misplaced, asleep, denied or served, and the
word of its capture. -/
namespace Sys2Proof.Machine

/-! ### DBGREG accesses (R238, R239) -/

theorem State.latchHi_scan (s : State) (o : Nat) : (s.latchHi o).scan = s.scan := by
  unfold State.latchHi
  simp only [apply_ite State.scan, State.setCounter_scan, ite_self]

theorem State.bar0Read_scan (s : State) (off size : Nat) : (s.bar0Read off size).2.scan = s.scan := by
  unfold State.bar0Read
  dsimp only
  split_ifs
  · rfl
  · exact State.misuse_scan _ _
  · rfl
  · rfl
  · rfl
  · exact State.latchHi_scan _ _

theorem mem_misuse (s : State) (m : Nat × Bool) : m ∈ (s.misuse m).misuses := by
  unfold State.misuse
  split
  · next h => simpa using h
  · simp

theorem misuse_frame (s : State) (m : Nat × Bool) (l : List (Nat × Bool)) : { s.misuse m with misuses := l } = { s with misuses := l } := by
  unfold State.misuse; split <;> rfl

theorem exec_dbgregRead {off : Nat} (h : off < 2 ^ 20) (s : State) : exec (.dbgregRead off) s = s.dbgAccess off 1 false (State.dbgGet off) := by
  rw [← Nat.mod_eq_of_lt h]
  exact congrArg (fun o => s.dbgAccess o 1 false (State.dbgGet o)) (Nat.mod_mod off (2 ^ 20))

theorem exec_dbgregWrite {off v : Nat} (h : off < 2 ^ 20) (hv : v < 2 ^ 32) (s : State) :
    exec (.dbgregWrite off v) s = s.dbgAccess off 2 true (State.dbgPut off v) := by
  have hexec : exec (.dbgregWrite off v) s = s.dbgAccess (off % 2 ^ 20) 2 true (State.dbgPut (off % 2 ^ 20) (v % 2 ^ 32)) := rfl
  rwa [Nat.mod_eq_of_lt h, Nat.mod_eq_of_lt hv] at hexec

/-- The state in which a new GO is judged. -/
theorem dbgGo_tck (s : State) (off : Nat) (wr : Bool) : (∀ w t, (s.tck.dbgGo off wr).workLevel w t = s.workLevel w t) ∧
    (s.tck.dbgGo off wr).rstReaches off = s.rstReaches off ∧ (s.tck.dbgGo off wr).fastUp = s.fastUp ∧ (s.tck.dbgGo off wr).served0 off = s.served0 off ∧
    (s.tck.dbgGo off wr).misuses = s.misuses := by
  obtain ⟨_, _, _, htck⟩ := s.tck_eq
  rw [htck]
  exact ⟨fun _ _ => rfl, rfl, rfl, rfl, rfl⟩

section
variable {s : State} {off : Nat} (hlive : s.tapLive = true) (hsel : s.scanSel 0x12 = true)
include hlive hsel
theorem dbgAccess_misplaced (ha : off % 4 ≠ 0) (need : Nat) (wr : Bool) (act : State → Out) : s.dbgAccess off need wr act =
    .next (if wr then (s.tck.free.2.misuse (off / 4 * 4, false)).dbgGo off wr else (s.tck.free.2.dbgGo off wr).dbgEnd s.tck.free.1.toNat) := by
  simp [State.dbgAccess, hlive, hsel, ha]
variable (ha : off % 4 = 0) (hr : s.rstReaches off = false)
include ha hr
theorem dbgAccess_asleep (haway : pwrLcs off = false) (hdown : s.fastUp = false) (need : Nat) (wr : Bool) (act : State → Out) :
    s.dbgAccess off need wr act = .next (s.tck.dbgGo off wr).dbgSleep := by
  obtain ⟨-, hreset, hfast, -, -⟩ := dbgGo_tck s off wr
  simp [State.dbgAccess, hlive, hsel, ha, hreset, hr, haway, hfast, hdown]
variable (hdom : pwrLcs off = true ∨ s.fastUp = true)
include hdom
/-- An access that is not asleep is judged. -/
theorem dbgAccess_judged (need : Nat) (wr : Bool) (act : State → Out) : s.dbgAccess off need wr act =
    ((s.tck.dbgGo off wr).shortfall .scan [(128, need)]).elim (act (s.tck.dbgGo off wr)) (fun x => .next ((s.tck.dbgGo off wr).dbgDeny x)) := by
  obtain ⟨-, hreset, hfast, -, -⟩ := dbgGo_tck s off wr
  have hawake : (!pwrLcs off && !(s.tck.dbgGo off wr).fastUp) = false := by rw [hfast]; rcases hdom with h | h <;> simp [h]
  simp only [State.dbgAccess, hlive, State.tck_scanSel, hsel, ha, hreset, hr, hawake, Bool.not_true, Bool.false_eq_true, ne_eq, not_true_eq_false, if_false]
  cases (s.tck.dbgGo off wr).shortfall .scan [(128, need)] <;> rfl

theorem dbgAccess_served {need : Nat} (hlevel : need ≤ s.workLevel .scan 128) (wr : Bool) (act : State → Out) :
    s.dbgAccess off need wr act = act (s.tck.dbgGo off wr) := by
  obtain ⟨hwork, -⟩ := dbgGo_tck s off wr
  have hnone : (s.tck.dbgGo off wr).shortfall .scan [(128, need)] = none := shortfall_eq_none_iff.mpr (by simpa [hwork] using hlevel)
  rw [dbgAccess_judged hlive hsel ha hr hdom, hnone]
  rfl

theorem dbgAccess_denied {need : Nat} (hlevel : s.workLevel .scan 128 < need) (wr : Bool) (act : State → Out) :
    ∃ x, s.dbgAccess off need wr act = .next ((s.tck.dbgGo off wr).dbgDeny x) := by
  obtain ⟨hwork, -⟩ := dbgGo_tck s off wr
  have hsome : (s.tck.dbgGo off wr).shortfall .scan [(128, need)] ≠ none := fun h => by
    have := shortfall_eq_none_iff.mp h (128, need) (by simp)
    rw [hwork] at this
    exact Nat.not_lt.mpr this hlevel
  obtain ⟨x, hx⟩ := Option.ne_none_iff_exists'.mp hsome
  exact ⟨x, by rw [dbgAccess_judged hlive hsel ha hr hdom, hx]; rfl⟩
end

/-! ### DBGREG's rows -/

section
variable {s : State} {off v : Nat} (hlive : s.tapLive = true) (hsel : s.scanSel 0x12 = true) (hoff : off < 2 ^ 20)
include hlive hsel hoff
theorem dbgregRead_misplaced (ha : off % 4 ≠ 0) :
    ∃ t, exec (.dbgregRead off) s = .next t ∧ t.scan.dbgDone = true ∧ t.scan.dbgAddr = off ∧ { t with scan := s.scan, freeIx := s.freeIx } = s.tck := by
  refine ⟨_, (exec_dbgregRead hoff s).trans (dbgAccess_misplaced hlive hsel ha 1 false _), rfl, rfl, ?_⟩
  obtain ⟨_, _, _, htck⟩ := s.tck_eq
  rw [htck]
  rfl

theorem dbgregWrite_misplaced (hv : v < 2 ^ 32) (ha : off % 4 ≠ 0) :
    ∃ t, exec (.dbgregWrite off v) s = .next t ∧ t.scan.dbgAddr = off ∧ (off / 4 * 4, false) ∈ t.misuses ∧
      { t with scan := s.scan, freeIx := s.freeIx, misuses := s.misuses } = s.tck := by
  refine ⟨_, (exec_dbgregWrite hoff hv s).trans (dbgAccess_misplaced hlive hsel ha 2 true _), rfl, mem_misuse s.tck.free.2 _, ?_⟩
  refine (congrArg (fun t : State => { t with scan := s.scan, freeIx := s.freeIx }) (misuse_frame s.tck.free.2 (off / 4 * 4, false) s.misuses)).trans ?_
  obtain ⟨_, _, _, htck⟩ := s.tck_eq
  rw [htck]
  rfl
variable (hr : s.rstReaches off = false) (ha : off % 4 = 0)
include hr ha
theorem dbgregRead_asleep (haway : pwrLcs off = false) (hdown : s.fastUp = false) :
    ∃ t, exec (.dbgregRead off) s = .next t ∧ t.scan.dbgAsleep = true ∧ t.scan.dbgDone = false ∧ t.scan.scanLost = true ∧ { t with scan := s.scan } = s.tck :=
  ⟨_, (exec_dbgregRead hoff s).trans (dbgAccess_asleep hlive hsel ha hr haway hdown 1 false _), rfl, rfl, rfl, frame_of_tck s _⟩
variable (hdom : pwrLcs off = true ∨ s.fastUp = true)
include hdom
theorem dbgregRead_served (hlevel : 1 ≤ s.workLevel .scan 128) :
    ∃ t, exec (.dbgregRead off) s = .next t ∧ t.scan.dbgDone = true ∧ t.scan.dbgDenied = false ∧ t.scan.dbgAddr = off ∧
      t.scan.dbgRdata = BitVec.ofNat 32 ((s.tck.dbgGo off false).bar0Read off 4).1 ∧
      { t with scan := s.scan } = { ((s.tck.dbgGo off false).bar0Read off 4).2 with scan := s.scan } := by
  have hscan := (s.tck.dbgGo off false).bar0Read_scan off 4
  exact ⟨_, (exec_dbgregRead hoff s).trans (dbgAccess_served hlive hsel ha hr hdom hlevel false _), rfl, congrArg Scan.dbgDenied hscan,
    congrArg Scan.dbgAddr hscan, rfl, rfl⟩
variable (hv : v < 2 ^ 32)
include hv
theorem dbgregWrite_served (hlevel : 2 ≤ s.workLevel .scan 128) :
    ∃ t, exec (.dbgregWrite off v) s = .next t ∧ t.scan.dbgDone = true ∧ t.scan.dbgDenied = false ∧ t.scan.dbgAddr = off ∧ t.scan.dbgWrite = true ∧
      { t with scan := s.scan } = { (s.tck.dbgGo off true).bar0Take off 4 v with scan := s.scan } := by
  have hport := (s.tck.dbgGo off true).bar0Take_port off 4 v
  exact ⟨_, (exec_dbgregWrite hoff hv s).trans (dbgAccess_served hlive hsel ha hr hdom hlevel true _), rfl, (congrArg Scan.dbgDenied hport :),
    (congrArg Scan.dbgAddr hport :), (congrArg Scan.dbgWrite hport :), rfl⟩

theorem dbgregWrite_denied (hlevel : s.workLevel .scan 128 < 2) :
    ∃ t, exec (.dbgregWrite off v) s = .next t ∧ t.scan.dbgDone = true ∧ t.scan.dbgDenied = true ∧ t.auth.denyCnt = satAdd s.auth.denyCnt 1 32 ∧
      fld t.auth.denyLast 0 8 = 0x12 ∧ t.rings = s.rings ∧ t.counters = s.counters ∧ t.chips = s.chips ∧ t.run = s.run := by
  obtain ⟨x, hx⟩ := dbgAccess_denied hlive hsel ha hr hdom hlevel true (State.dbgPut off v)
  have hdeny := deny_scanDenied (op := 0x12) (by decide) (s.tck.dbgGo off true) (some x)
  refine ⟨_, (exec_dbgregWrite hoff hv s).trans hx, rfl, rfl, ?_⟩
  obtain ⟨_, _, _, htck⟩ := s.tck_eq
  rw [htck] at hdeny ⊢
  exact ⟨hdeny.count, hdeny.code, (congrArg State.rings hdeny.frame :), (congrArg State.counters hdeny.frame :), (congrArg State.chips hdeny.frame :),
    (congrArg State.run hdeny.frame :)⟩
omit hlive hsel hdom ha hoff hv in
/-- A clean write through DBGREG is the register write at its offset. -/
theorem dbgregWrite_writes (hserved : s.served0 off = true) (hnone : s.misuses = []) (hclean : writeMisuse off 4 v = none) :
    (s.tck.dbgGo off true).bar0Take off 4 v = (s.tck.dbgGo off true).bar0Write off 4 v := by
  obtain ⟨-, hreset, -, hserved', hmisuses⟩ := dbgGo_tck s off true
  rw [bar0Take_of_clean (hserved'.trans hserved) (hreset.trans hr) hclean, recover_nil (hmisuses.trans hnone)]
end

/-- The word of a DBGREG capture (Table 8.10). -/
theorem dbgTake_fields {s : State} {x : Nat} (hx : s.dbgTake.scan.capture = x) : bit x 53 = s.scan.dbgDone ∧ bit x 54 = s.scan.dbgDenied ∧
    bit x 55 = s.scan.dbgAsleep ∧ ((pwrLcs s.scan.dbgAddr = true ∨ s.fastUp = true) → s.scan.dbgAddr < 2 ^ 20 → fld x 0 32 = s.scan.dbgRdata.toNat ∧
      fld x 32 20 = s.scan.dbgAddr) := by
  obtain ⟨r, hr, hword⟩ : ∃ r, r = (if pwrLcs s.scan.dbgAddr || s.fastUp then s.scan.dbgRdata.toNat else 0) ∧ x = packed r [(s.scan.dbgAddr, 32, 20),
      (b2n s.scan.dbgWrite, 52, 1), (b2n s.scan.dbgDone, 53, 1), (b2n s.scan.dbgDenied, 54, 1), (b2n s.scan.dbgAsleep, 55, 1)] := ⟨_, rfl, hx.symm⟩
  have hasc : Ascending 32 [(s.scan.dbgAddr, 32, 20), (b2n s.scan.dbgWrite, 52, 1), (b2n s.scan.dbgDone, 53, 1), (b2n s.scan.dbgDenied, 54, 1),
      (b2n s.scan.dbgAsleep, 55, 1)] := by simp [Ascending]
  have hlt : r < 2 ^ 32 := by
    rw [hr]
    split
    · exact s.scan.dbgRdata.isLt
    · decide
  rw [hword]
  refine ⟨bit_packed hlt hasc (by simp), bit_packed hlt hasc (by simp), bit_packed hlt hasc (by simp), fun hdom haddr => ⟨?_, ?_⟩⟩
  · rw [fld_packed_below hasc le_rfl]
    exact (Nat.mod_eq_of_lt hlt).trans (hr.trans (if_pos (by simpa using hdom)))
  · exact (fld_packed hlt hasc (by simp)).trans (Nat.mod_eq_of_lt haddr)

theorem dbgregCapture_shows {s : State} (hlive : s.tapLive = true) (hsel : s.scanSel 0x12 = true) :
    ∃ t, exec .dbgregCapture s = .next t ∧ { t with scan := s.scan } = s.tck ∧ bit t.scan.capture 53 = s.scan.dbgDone ∧
      bit t.scan.capture 54 = s.scan.dbgDenied ∧
      bit t.scan.capture 55 = s.scan.dbgAsleep ∧ ((pwrLcs s.scan.dbgAddr = true ∨ s.fastUp = true) → s.scan.dbgAddr < 2 ^ 20 →
        fld t.scan.capture 0 32 = s.scan.dbgRdata.toNat ∧
        fld t.scan.capture 32 20 = s.scan.dbgAddr) := by
  refine ⟨s.tck.dbgTake, scanRow_selected hlive hsel State.dbgTake, frame_of_tck s _, ?_⟩
  rw [← s.tck_scan, ← s.tck_fastUp]
  exact dbgTake_fields rfl

/-- Settles O22: each row of DUMP_READ by what it makes of cursor, buffer and word, and each row of DBGREG by the outcome of its access. -/
theorem dumpReadsAndDebugRegisters : Obligations.DumpReadsAndDebugRegisters :=
  ⟨fun _ _ _ hlive hsel hup hfirst hcount => ⟨dumpReadStart_starts hlive hsel hup hfirst hcount, dumpReadRepeat_keeps hlive hsel hup,
     dumpReadAdvance_moves hlive hsel hup, fun hst hcursor => dumpReadCapture_shows hlive hsel hup hst hcursor⟩,
   fun _ _ _ hlive hsel hoff hv hr => ⟨fun ha hdom hlevel => dbgregRead_served hlive hsel hoff hr ha hdom hlevel,
     fun ha hdom hlevel => ⟨dbgregWrite_served hlive hsel hoff hr ha hdom hv hlevel, dbgregWrite_writes hr⟩,
     fun ha haway hdown => dbgregRead_asleep hlive hsel hoff hr ha haway hdown,
     fun ha hdom hlevel => dbgregWrite_denied hlive hsel hoff hr ha hdom hv hlevel,
     fun ha => ⟨dbgregRead_misplaced hlive hsel hoff ha, dbgregWrite_misplaced hlive hsel hoff hv ha⟩,
     dbgregCapture_shows hlive hsel⟩⟩

end Sys2Proof.Machine

/-! PROOFS. The windows of the sync counters and the HI latches (O12): a change of a counter by the changes of its cycle, the host's
writes by the change they make, and reads by what they answer and latch. -/
namespace Sys2Proof.Machine

/-! ### A change of a sync counter (R268) -/

theorem State.mapItems_counters (s : State) (f : Work → Item → Item) : (s.mapItems f).counters = s.counters :=
  (congrArg State.counters (s.mapItems_frame f) :)
theorem State.counter_synOp {k : Nat} (hk : k < 4096) (s : State) (o : SynOp) (j : Nat) :
    (s.synOp k o).counter j = if j = k then (s.counter k).change s.now o else s.counter j := by
  rw [← State.counter_setCounter _ _ _ _ hk]
  exact congrArg (fun m => tget {} m j) (State.mapItems_counters _ _)
/-- The first change of a cycle applies to the value as it stands. -/
theorem Counter.change_val {c : Counter} {now : Nat} (h : c.cycle ≠ now ∨ c.ops = []) (o : SynOp) : (c.change now o).val = o.apply c.val := by
  by_cases hc : c.cycle = now
  · simp [Counter.change, h.resolve_left (not_not_intro hc), SynOp.into]
  · simp [Counter.change, hc]
/-- A host access takes its place ahead of a stroke's change of the same cycle. -/
theorem Counter.change_val_ahead {c : Counter} {now : Nat} {p o : SynOp} (hc : c.cycle = now) (hops : c.ops = [p]) (ho : o.rank = 0) (hp : p.rank ≠ 0) :
    (c.change now o).val = p.apply (o.apply c.base) := by
  have hpos : 0 < p.rank := Nat.pos_of_ne_zero hp
  simp [Counter.change, SynOp.into, hc, hops, ho, hp, hpos]

/-! ### What the host's change makes of a value (R267) -/

/-- The masks of the low half, of the high half and of the whole counter. -/
def loMask : Nat := 2 ^ 32 - 1
def hiMask : Nat := 2 ^ 32 * (2 ^ 32 - 1)
def allMask : Nat := 2 ^ 64 - 1
/-- The host's change by `v`: added, or put in place of the bits of mask `m`. -/
def SynOp.host (add : Bool) (v m : Nat) : SynOp := { rank := 0, add := add, val := BitVec.ofNat 64 v, mask := BitVec.ofNat 64 m }

theorem SynOp.host_adds (v m : Nat) (x : DWord) : (SynOp.host true v m).apply x = x + BitVec.ofNat 64 v := rfl
/-- A set bit by bit: those of the mask as written, the others as they were. -/
theorem SynOp.getLsbD_host_set (v m : Nat) (x : DWord) {b : Nat} (hb : b < 64) :
    ((SynOp.host false v m).apply x).getLsbD b = if m.testBit b then v.testBit b else x.toNat.testBit b := by
  simp only [SynOp.apply, SynOp.host, Bool.false_eq_true, if_false, BitVec.getLsbD_or, BitVec.getLsbD_and, BitVec.getLsbD_not,
    BitVec.getLsbD_ofNat, hb, decide_true, Bool.true_and, BitVec.testBit_toNat]
  cases m.testBit b <;> simp
theorem SynOp.host_sets_all (v : Nat) (x : DWord) : (SynOp.host false v allMask).apply x = BitVec.ofNat 64 v := by
  refine BitVec.eq_of_getLsbD_eq fun b hb => ?_
  rw [SynOp.getLsbD_host_set _ _ _ hb, allMask, Nat.testBit_two_pow_sub_one, BitVec.getLsbD_ofNat]
  simp only [hb, decide_true, Bool.true_and, if_true]
theorem SynOp.host_sets_lo {v : Nat} (hv : v < 2 ^ 32) (x : DWord) :
    (SynOp.host false v loMask).apply x = BitVec.ofNat 64 (x.toNat / 2 ^ 32 * 2 ^ 32 + v) := by
  refine BitVec.eq_of_getLsbD_eq fun b hb => ?_
  rw [SynOp.getLsbD_host_set _ _ _ hb, BitVec.getLsbD_ofNat, Nat.mul_comm, Nat.testBit_two_pow_mul_add _ hv, loMask, Nat.testBit_two_pow_sub_one,
    Nat.testBit_div_two_pow]
  by_cases h : b < 32
  · simp [h, hb]
  · simp [h, hb, Nat.sub_add_cancel (Nat.le_of_not_lt h)]
theorem SynOp.host_sets_hi (v : Nat) (x : DWord) :
    (SynOp.host false (2 ^ 32 * v) hiMask).apply x = BitVec.ofNat 64 (x.toNat % 2 ^ 32 + 2 ^ 32 * v) := by
  refine BitVec.eq_of_getLsbD_eq fun b hb => ?_
  rw [SynOp.getLsbD_host_set _ _ _ hb, BitVec.getLsbD_ofNat, Nat.add_comm, Nat.testBit_two_pow_mul_add _ (Nat.mod_lt _ (by decide)), hiMask,
    Nat.testBit_two_pow_mul, Nat.testBit_two_pow_sub_one, Nat.testBit_two_pow_mul, Nat.testBit_mod_two_pow]
  by_cases h : b < 32
  · simp [h, hb]
  · have hlo : 32 ≤ b := Nat.le_of_not_lt h
    have hhi : b - 32 < 32 := by omega
    simp [h, hb, hlo, hhi]

/-! ### Writes of the windows (Table 9.15) -/

/-- Where the read-and-set window and the add window begin. -/
def synBase (add : Bool) : Nat := 0x20000 + 0x8000 * add.toNat
theorem exec_synSet {off : Nat} (h : off < 0x8000) (size v : Nat) (s : State) :
    exec (.synSet off size v) s = s.hostWrite (synBase false + off) size v := if_pos h
theorem exec_synAdd {off : Nat} (h : off < 0x8000) (size v : Nat) (s : State) :
    exec (.synAdd off size v) s = s.hostWrite (synBase true + off) size v := if_pos h
@[simp] theorem State.linked_counter (s : State) (k : Nat) : s.linked.counter k = s.counter k := by rw [State.linked_frame]; rfl
theorem regMask_syn {off : Nat} (hl : 0x20000 ≤ off) (hb : off < 0x30000) : regMask off = some full32 := by
  unfold regMask
  repeat rw [if_neg (by omega)]
  rw [if_pos ⟨hl, hb⟩]
theorem bar0Write_syn {s : State} {off : Nat} (h0 : s.served0 off = true) (hl : 0x20000 ≤ off) (hb : off < 0x30000) (size v : Nat) :
    s.bar0Write off size v = synWrite s (off - 0x20000) size v := by
  have hsyn : inSyn off = true := by simp [inSyn, hl, hb]
  unfold State.bar0Write
  simp only [h0, hsyn, Bool.not_true, Bool.false_eq_true, if_false, if_true]
  repeat rw [if_neg (by omega)]
/-- A served write of a word or of a whole counter in the windows. -/
theorem hostWrite_syn {s : State} {off size v : Nat} (h : s.serves off = true) (hl : 0x20000 ≤ off) (hb : off < 0x30000)
    (hz : sizeOk off size = true) (hv : v < 2 ^ (8 * size)) : s.hostWrite off size v = .next (synWrite s.linked (off - 0x20000) size v) := by
  have hclean : size = 4 → v &&& full32 = v := by rintro rfl; exact and_lowMask_of_lt hv
  rw [hostWrite_open h size v hv (by unfold bar2; omega) (writeMisuse_of_clean hz (regMask_syn hl hb) hclean),
    bar0Write_syn (served0_of_serves h) hl hb]

/-- An offset of a window lies in the windows, and at its own window's end of their common numbering. -/
theorem synBase_range {off : Nat} (add : Bool) (h : off < 0x8000) :
    0x20000 ≤ synBase add + off ∧ synBase add + off < 0x30000 ∧ (synBase add + off - 0x20000) % 0x8000 = off ∧
      decide (0x8000 ≤ synBase add + off - 0x20000) = add := by
  cases add <;> simp [synBase] <;> omega
/-- The change a write makes at the low half of a counter, or of all of it, and at the high half. -/
theorem synWrite_lo {k : Nat} (hk : k < 4096) (add : Bool) (u : State) (size v : Nat) :
    synWrite u (synBase add + 8 * k - 0x20000) size v = u.synOp k (.host add v (if size = 8 then allMask else loMask)) := by
  obtain ⟨hl, -, hoff, hadd⟩ := synBase_range (off := 8 * k) add (by omega)
  have hhalf : ¬ (synBase add + 8 * k - 0x20000) % 8 = 4 := by omega
  have hix : 8 * k / 8 = k := by omega
  simp only [synWrite, hhalf, if_false, hoff, hix, hadd]; rfl
theorem synWrite_hi {k : Nat} (hk : k < 4096) (add : Bool) (u : State) (v : Nat) :
    synWrite u (synBase add + (8 * k + 4) - 0x20000) 4 v = u.synOp k (.host add (2 ^ 32 * v) hiMask) := by
  obtain ⟨hl, -, hoff, hadd⟩ := synBase_range (off := 8 * k + 4) add (by omega)
  have hhalf : (synBase add + (8 * k + 4) - 0x20000) % 8 = 4 := by omega
  have hix : (8 * k + 4) / 8 = k := by omega
  simp only [synWrite, hhalf, if_true, hoff, hix, hadd]; rfl

/-- The command answers a next state in which counter `k` has changed by `c`, and no other counter has. -/
def SynChanges (s : State) (o : Out) (k : Nat) (c : SynOp) : Prop :=
  ∃ t, o = .next t ∧ t.counter k = (s.counter k).change s.now c ∧ ∀ j, j ≠ k → t.counter j = s.counter j
section
variable {s : State} {k v : Nat} {add : Bool} (hk : k < 4096)
include hk

/-- A write by the change it makes of its counter. -/
theorem hostWrite_changes {off size : Nat} {c : SynOp} (hoff : off < 0x8000) (hserve : s.serves (synBase add + off) = true)
    (hz : sizeOk (synBase add + off) size = true) (hv : v < 2 ^ (8 * size)) (hop : ∀ u, synWrite u (synBase add + off - 0x20000) size v = u.synOp k c) :
    SynChanges s (s.hostWrite (synBase add + off) size v) k c := by
  obtain ⟨hl, hb, -, -⟩ := synBase_range add hoff
  refine ⟨_, hostWrite_syn hserve hl hb hz hv, ?_, fun j hj => ?_⟩
  · rw [hop, State.counter_synOp hk, if_pos rfl, State.linked_counter, State.linked_now]
  · rw [hop, State.counter_synOp hk, if_neg hj, State.linked_counter]
theorem hostWrite_all (hserve : s.serves (synBase add + 8 * k) = true) (hv : v < 2 ^ 64) :
    SynChanges s (s.hostWrite (synBase add + 8 * k) 8 v) k (.host add v allMask) := by
  obtain ⟨hl, hb, hoff, -⟩ := synBase_range (off := 8 * k) add (by omega)
  have h8 : (synBase add + 8 * k) % 8 = 0 := by omega
  exact hostWrite_changes hk (by omega) hserve (by simp [sizeOk, inSyn, h8, hl, hb]) hv fun u => synWrite_lo hk add u 8 v
theorem hostWrite_lo (hserve : s.serves (synBase add + 8 * k) = true) (hv : v < 2 ^ 32) :
    SynChanges s (s.hostWrite (synBase add + 8 * k) 4 v) k (.host add v loMask) := by
  obtain ⟨hl, -, hoff, -⟩ := synBase_range (off := 8 * k) add (by omega)
  have h4 : (synBase add + 8 * k) % 4 = 0 := by omega
  exact hostWrite_changes hk (by omega) hserve (by simp [sizeOk, h4]) hv fun u => synWrite_lo hk add u 4 v
theorem hostWrite_hi (hserve : s.serves (synBase add + (8 * k + 4)) = true) (hv : v < 2 ^ 32) :
    SynChanges s (s.hostWrite (synBase add + (8 * k + 4)) 4 v) k (.host add (2 ^ 32 * v) hiMask) := by
  obtain ⟨hl, -, hoff, -⟩ := synBase_range (off := 8 * k + 4) add (by omega)
  have h4 : (synBase add + (8 * k + 4)) % 4 = 0 := by omega
  exact hostWrite_changes hk (by omega) hserve (by simp [sizeOk, h4]) hv fun u => synWrite_hi hk add u v
end
/-- As the first change of its cycle it gives the counter the value that it makes of the one it finds. -/
theorem SynChanges.value {s : State} {o : Out} {k : Nat} {c : SynOp} {x : DWord} (h : SynChanges s o k c)
    (hfresh : (s.counter k).cycle ≠ s.now ∨ (s.counter k).ops = []) (hx : c.apply (s.counter k).val = x) :
    ∃ t, o = .next t ∧ (t.counter k).val = x ∧ ∀ j, j ≠ k → t.counter j = s.counter j := by
  obtain ⟨t, ht, hval, hother⟩ := h
  exact ⟨t, ht, by rw [hval, Counter.change_val hfresh, hx], hother⟩
/-- Ahead of a stroke's change of the same cycle it is the stroke's change that applies last (R268). -/
theorem SynChanges.value_ahead {s : State} {o : Out} {k : Nat} {c p : SynOp} (h : SynChanges s o k c) (hc : (s.counter k).cycle = s.now)
    (hops : (s.counter k).ops = [p]) (hhost : c.rank = 0) (hp : p.rank ≠ 0) :
    ∃ t, o = .next t ∧ (t.counter k).val = p.apply (c.apply (s.counter k).base) := by
  obtain ⟨t, ht, hval, -⟩ := h
  exact ⟨t, ht, by rw [hval, Counter.change_val_ahead hc hops hhost hp]⟩

/-! ### Reads and the HI latches (R27, R267) -/

theorem exec_synReadLo {k : Nat} (h : k < 4096) (size : Nat) (s : State) : exec (.synReadLo k size) s = s.hostRead (0x20000 + 8 * k) size := if_pos h
/-- What an access asks to be served is not a matter of the link's waking. -/
def State.servesNow (s : State) (off : Nat) : Bool := s.hostReaches && !s.hostWaits off && s.served0 off && !s.rstReaches off && s.misuses.isEmpty
theorem State.linked_pwr_same (s : State) : s.linked.pwr.state = s.pwr.state ∧ s.linked.pwr.pllLock = s.pwr.pllLock ∧ s.linked.pwr.straps = s.pwr.straps ∧
    s.linked.pins.inPor = s.pins.inPor ∧ s.linked.pins.dead = s.pins.dead := by
  simp only [State.linked, State.linkUse, State.linkWake]
  split
  · unfold State.wakeEvent State.seeEvent
    dsimp only
    split <;> [split; skip] <;> exact ⟨rfl, rfl, rfl, rfl, rfl⟩
  · exact ⟨rfl, rfl, rfl, rfl, rfl⟩
theorem State.linked_hostReaches (s : State) : s.linked.hostReaches = s.hostReaches := by
  obtain ⟨hstate, -, hstraps, hpor, hdead⟩ := s.linked_pwr_same
  have hboot : s.linked.boot = s.boot := by rw [State.linked_frame]
  have hcfg : s.linked.cfg = s.cfg := by rw [State.linked_frame]
  simp only [State.hostReaches, State.endpointUp, hstate, hstraps, hpor, hdead, hboot, hcfg]
theorem State.linked_hostWaits (s : State) (off : Nat) : s.linked.hostWaits off = s.hostWaits off := by
  simp only [State.hostWaits, State.linked_asleep, s.linked_pwr_same.2.1]
theorem State.linked_servesNow (s : State) (off : Nat) : s.linked.servesNow off = s.servesNow off := by
  have hframe : s.linked.served0 off = s.served0 off ∧ s.linked.rstReaches off = s.rstReaches off ∧ s.linked.misuses = s.misuses := by
    rw [State.linked_frame]; exact ⟨rfl, rfl, rfl⟩
  obtain ⟨h0, hrst, hmis⟩ := hframe
  simp only [State.servesNow, State.linked_hostReaches, State.linked_hostWaits, h0, hrst, hmis]
theorem State.serves_eq (s : State) (off : Nat) : s.serves off = s.servesNow off := by
  rw [← State.linked_servesNow, State.servesNow, State.linked_hostReaches]; rfl
/-- After an access that changed the hub's registers, the counters and the value read alone, what was served is served. -/
theorem State.serves_of_linked {s t : State} 
    (h : { t with hub := s.linked.hub, counters := s.linked.counters, readVal := s.linked.readVal } = s.linked) (off : Nat) :
    t.serves off = s.serves off := by
  have hnow : t.servesNow off = s.linked.servesNow off := (congrArg (fun u : State => u.servesNow off) h :)
  rw [State.serves_eq, hnow, State.linked_servesNow, State.serves_eq]

section
variable {s : State} {off : Nat} (h : s.serves off = true)
include h

/-- A served read in which no misuse stands. -/
theorem hostRead_of_serves {size : Nat} (hb : off < 0xE004 ∨ 0xE038 ≤ off ∧ off < bar2) (hz : sizeOk off size = true) : s.hostRead off size = .next
    (if size = 8 then { s.linked with readVal := BitVec.ofNat 64 (if off < 0x28000 then (s.counter ((off - 0x20000) / 8)).val.toNat else 0) }
     else { s.linked.latchHi off with readVal := BitVec.ofNat 64 (regVal s.linked off) }) := by
  obtain ⟨hreach, hwait, h0, hrst, hmis⟩ := (serves_iff s off).mp h
  have hbar : off < bar2 := by unfold bar2 at *; omega
  have hopen : s.linked.openBlock (blockOf off) = false := by simp [State.openBlock, hmis]
  have htrc : ¬ (s.linked.trc.odd = true ∧ 0xE004 ≤ off ∧ off < 0xE038) := by omega
  rw [hostRead_of_taken hreach hbar hwait]
  simp only [State.bar0Read, h0, hz, recover_nil hmis, hopen, htrc, Bool.not_true, Bool.false_eq_true, if_false, or_self]
  split <;> simp
end
theorem regVal_syn {off : Nat} (hl : 0x20000 ≤ off) (hb : off < 0x30000) (s : State) : regVal s off = synReg s (off - 0x20000) := by
  unfold regVal
  repeat rw [if_neg (by omega)]
  rw [if_pos ⟨hl, hb⟩]
theorem regVal_synLo {k : Nat} (hk : k < 4096) (s : State) : regVal s (0x20000 + 8 * k) = (s.counter k).val.toNat % 2 ^ 32 := by
  have hix : (0x20000 + 8 * k - 0x20000) / 8 = k := by omega
  rw [regVal_syn (by omega) (by omega), synReg, if_neg (by omega), if_pos (by omega), hix, lo32]
theorem regVal_synHi {k : Nat} (hk : k < 4096) (s : State) : regVal s (0x20000 + 8 * k + 4) = (s.counter k).latch.toNat := by
  have hix : (0x20000 + 8 * k + 4 - 0x20000) / 8 = k := by omega
  rw [regVal_syn (by omega) (by omega), synReg, if_neg (by omega), if_neg (by omega), hix]
theorem latchHi_syn {k : Nat} (hk : k < 4096) (s : State) : s.latchHi (0x20000 + 8 * k) =
    s.setCounter k { s.counter k with latch := hiWord (s.counter k).val.toNat } := by
  have hix : (0x20000 + 8 * k - 0x20000) / 8 = k := by omega
  unfold State.latchHi
  repeat rw [if_neg (by omega)]
  rw [if_pos (by omega), hix]
theorem latchHi_strokes (s : State) : s.latchHi 0x60 = { s with hub := { s.hub with strokesHi := hi32 s.hub.strokes } } := rfl

section
variable {s : State} {k : Nat} (hk : k < 4096) (h : s.serves (0x20000 + 8 * k) = true)
include hk h
/-- A read of 8 bytes answers the whole counter and latches nothing. -/
theorem synReadLo_all : exec (.synReadLo k 8) s = .next { s.linked with readVal := (s.counter k).val } := by
  have hz : sizeOk (0x20000 + 8 * k) 8 = true := by simp [sizeOk, inSyn]; omega
  have hix : (0x20000 + 8 * k - 0x20000) / 8 = k := by omega
  rw [exec_synReadLo hk, hostRead_of_serves h (.inr (by unfold bar2; omega)) hz, if_pos rfl, if_pos (by omega), hix, BitVec.ofNat_toNat, BitVec.setWidth_eq]
/-- A read of the LO half answers it; the HI half is what the next read of HI answers, whatever becomes of the counter. -/
theorem synReadLo_latches : ∃ t, exec (.synReadLo k 4) s = .next t ∧ t.readVal = BitVec.ofNat 64 ((s.counter k).val.toNat % 2 ^ 32) ∧
    (t.counter k).val = (s.counter k).val ∧ (s.serves (0x20000 + 8 * k + 4) = true →
      ∃ u, exec (.hiLatchRead (0x20000 + 8 * k + 4) 4) t = .next u ∧ u.readVal = BitVec.ofNat 64 ((s.counter k).val.toNat / 2 ^ 32)) := by
  have hz : sizeOk (0x20000 + 8 * k) 4 = true := by simp [sizeOk]; omega
  have hz4 : sizeOk (0x20000 + 8 * k + 4) 4 = true := by simp [sizeOk]; omega
  have hread := hostRead_of_serves h (.inr (by unfold bar2; omega)) hz
  rw [if_neg (by decide), regVal_synLo hk, latchHi_syn hk, ← exec_synReadLo hk, State.linked_counter] at hread
  generalize hv : ({ s.counter k with latch := hiWord (s.counter k).val.toNat } : Counter) = v at hread
  have hcounter : State.counter { s.linked.setCounter k v with readVal := BitVec.ofNat 64 ((s.counter k).val.toNat % 2 ^ 32) } k = v :=
    State.counter_setCounter_same s.linked k v hk
  refine ⟨_, hread, rfl, by rw [hcounter, ← hv], fun h4 => ?_⟩
  rw [← State.serves_of_linked (t := { s.linked.setCounter k v with readVal := BitVec.ofNat 64 ((s.counter k).val.toNat % 2 ^ 32) })
    (by rw [State.setCounter, if_pos hk])] at h4
  have hread4 := hostRead_of_serves h4 (.inr (by unfold bar2; omega)) hz4
  rw [if_neg (by decide), regVal_synHi hk, State.linked_counter, hcounter] at hread4
  refine ⟨_, hread4, congrArg (BitVec.ofNat 64) ?_⟩
  subst hv
  have hlt : (s.counter k).val.toNat / 2 ^ 32 < 2 ^ 32 := by have := (s.counter k).val.isLt; omega
  simp only [hiWord, BitVec.toNat_ofNat, Nat.mod_eq_of_lt hlt]
end
/-- HUB_STROKES is read as a counter is (Table 2.7). -/
theorem strokesRead_latches {s : State} (h : s.serves 0x60 = true) :
    ∃ t, exec (.hiLatchRead 0x60 4) s = .next t ∧ t.readVal = BitVec.ofNat 64 (s.hub.strokes % 2 ^ 32) ∧
      ∃ u, exec (.hiLatchRead 0x64 4) t = .next u ∧ u.readVal = BitVec.ofNat 64 (s.hub.strokes / 2 ^ 32 % 2 ^ 32) := by
  have hread := hostRead_of_serves h (.inl (by decide)) (size := 4) rfl
  rw [if_neg (by decide), latchHi_strokes, State.linked_hub] at hread
  have h64 : s.serves 0x64 = true := h
  rw [← State.serves_of_linked (s := s) (t := { s.linked with hub := { s.hub with strokesHi := hi32 s.hub.strokes }
                                                              readVal := BitVec.ofNat 64 (regVal s.linked 0x60) }) rfl] at h64
  have hread64 := hostRead_of_serves h64 (.inl (by decide)) (size := 4) rfl
  rw [if_neg (by decide)] at hread64
  refine ⟨_, hread, ?_, _, hread64, ?_⟩
  · show BitVec.ofNat 64 (lo32 s.linked.hub.strokes) = _
    rw [State.linked_hub, lo32]
  · refine (congrArg (fun h : HubRegs => BitVec.ofNat 64 h.strokesHi) (State.linked_hub _)).trans ?_
    exact congrArg (BitVec.ofNat 64) (by rw [hi32, Nat.shiftRight_eq_div_pow])

/-! ### O12 -/

/-- Settles O12: each write by the change it makes of its counter and what that makes of the value, each read by what it answers and latches. -/
theorem syncCountersWrapAndLatch : Obligations.SyncCountersWrapAndLatch := by
  refine ⟨fun s k v hk => ⟨fun hfresh => ⟨fun h hv => ?_, fun h hv => ?_, fun h hv => ?_, fun h hv => ?_, fun h hv => ?_, fun h hv => ?_⟩,
    fun o hc hops ho h hv => ?_⟩, fun s k hk => ⟨fun h _ => ⟨synReadLo_latches hk h, synReadLo_all hk h⟩, strokesRead_latches⟩⟩
  · rw [exec_synSet (off := 8 * k) (by omega)]
    exact (hostWrite_all (add := false) hk h hv).value hfresh (SynOp.host_sets_all _ _)
  · rw [exec_synSet (off := 8 * k) (by omega)]
    exact (hostWrite_lo (add := false) hk h hv).value hfresh (SynOp.host_sets_lo hv _)
  · rw [exec_synSet (off := 8 * k + 4) (by omega)]
    exact (hostWrite_hi (add := false) hk h hv).value hfresh (SynOp.host_sets_hi _ _)
  · rw [exec_synAdd (off := 8 * k) (by omega)]
    exact (hostWrite_all (add := true) hk h hv).value hfresh (SynOp.host_adds _ _ _)
  · rw [exec_synAdd (off := 8 * k) (by omega)]
    exact (hostWrite_lo (add := true) hk h hv).value hfresh (SynOp.host_adds _ _ _)
  · rw [exec_synAdd (off := 8 * k + 4) (by omega)]
    exact (hostWrite_hi (add := true) hk h hv).value hfresh (SynOp.host_adds _ _ _)
  · rw [exec_synSet (off := 8 * k) (by omega)]
    obtain ⟨t, ht, hval⟩ := (hostWrite_all (add := false) hk h hv).value_ahead hc hops rfl ho
    exact ⟨t, ht, by rw [hval, SynOp.host_sets_all]⟩

end Sys2Proof.Machine

/-! PROOFS. First strokes of the sync descriptors, PEAL and TOLL (O56). -/
namespace Sys2Proof.Machine

/-! ### Bits -/

theorem fld_lt (x lo w : Nat) : fld x lo w < 2 ^ w := Nat.mod_lt _ (Nat.two_pow_pos w)
theorem db_lt (d : BitVec 512) (o n : Nat) : db d o n < 2 ^ (8 * n) := fld_lt _ _ _
theorem dbits_lt (d : BitVec 512) (o b w : Nat) : dbits d o b w < 2 ^ w := fld_lt _ _ _
/-- Clearing a bit clears it alone. -/
theorem bit_setFld_zero (x k j : Nat) : bit (setFld x k 1 0) j = (bit x j && !decide (j = k)) := by
  have hcut : setFld x k 1 0 = 2 ^ k * (2 * (x / 2 ^ k / 2)) + x % 2 ^ k := by
    have hx := Nat.div_add_mod x (2 ^ k)
    have hy := Nat.div_add_mod (x / 2 ^ k) 2
    simp only [setFld, place, fld, Nat.shiftRight_eq_div_pow, Nat.shiftLeft_eq, Nat.pow_one, Nat.mod_mod, Nat.zero_mod, Nat.zero_mul, Nat.add_zero]
    generalize x / 2 ^ k = y at *
    have hsplit : 2 ^ k * y = 2 ^ k * (2 * (y / 2)) + y % 2 * 2 ^ k := by
      conv_lhs => rw [← hy]
      ring
    omega
  have hx : x = 2 ^ k * (x / 2 ^ k) + x % 2 ^ k := (Nat.div_add_mod x (2 ^ k)).symm
  have hb : x % 2 ^ k < 2 ^ k := Nat.mod_lt _ (Nat.two_pow_pos k)
  unfold bit
  rw [hcut, Nat.testBit_two_pow_mul_add _ hb]
  conv_rhs => rw [hx, Nat.testBit_two_pow_mul_add _ hb]
  rcases Nat.lt_trichotomy j k with hj | rfl | hj
  · simp [hj, hj.ne]
  · simp
  · obtain ⟨d, rfl⟩ : ∃ d, j = k + (d + 1) := ⟨j - k - 1, by omega⟩
    simp [Nat.testBit_succ]

/-! ### NOP, WAIT, SIGNAL and FENCE -/

section
variable {s : State} {e : Nat} {w : Work} {i : Item}

theorem exec_nop (e : Nat) (s : State) : exec (.nop e) s = s.row e 0x00 noCheck (fun s w i => s.setItem w i.done) repItem := rfl
theorem exec_wait (e : Nat) (s : State) : exec (.wait e) s = s.row e 0x01 noCheck waitAdv repItem := rfl
theorem exec_signal (e : Nat) (s : State) : exec (.signal e) s = s.row e 0x02 noCheck signalAdv repItem := rfl
theorem exec_fence (e : Nat) (s : State) : exec (.fence e) s = s.row e 0x03 noCheck fenceAdv repItem := rfl

theorem nop_ends : s.Ends (.nop e) e 0x00 w i s i.done .ok :=
  State.ends_done (exec_nop e s) (Nat.zero_le 99) fun hs => ⟨.of_eq rfl, hs.isSome, fun _ => rfl, hs.highest_ok⟩

section
variable {v : Nat} (hcounter : dbits i.desc 0x10 0 1 = 0) (hv : v = (s.counter (dbits i.desc 0x12 0 12)).val.toNat)
include hcounter hv
theorem waitAdv_compares {op : Nat} (hs : s.Starts e op w i) : waitAdv s w i = s.setItem w (i.compare v) := by
  simp [waitAdv, hs.errs, hs.stage, hcounter, hv]
theorem wait_ends (h : waitHolds (dbits i.desc 0x10 1 2) v (db i.desc 0x18 8) = true) :
    s.Ends (.wait e) e 0x01 w i s { i.done with detail := lo32 v } .ok := by
  refine State.ends_done (exec_wait e s) (Nat.zero_le 99) fun hs => ⟨.of_eq ?_, hs.isSome, fun _ => rfl, hs.highest_ok⟩
  rw [waitAdv_compares hcounter hv hs, Item.compare, if_pos h]; rfl
theorem wait_waits (h : waitHolds (dbits i.desc 0x10 1 2) v (db i.desc 0x18 8) = false) :
    s.Waits (.wait e) e 0x01 w i s { i with detail := lo32 v, wait := .cond, stage := 3 } := by
  refine State.row_waits noCheck waitAdv repItem (exec_wait e s) fun hs => ⟨rfl, ?_, hs.isSome, nofun⟩
  rw [waitAdv_compares hcounter hv hs, Item.compare, if_neg (Bool.eq_false_iff.mp h)]
end
theorem wait_reads (hhost : dbits i.desc 0x10 0 1 = 1) : s.Sends (.wait e) e 0x01 w i s { i.push [.hrd (db i.desc 0x20 8) 8] with stage := 1 } :=
  State.row_sends noCheck waitAdv repItem (exec_wait e s) fun hs => ⟨rfl, by simp [waitAdv, hs.errs, hhost]⟩

/-- The change that a SIGNAL makes of its counter (R268, R272). -/
def State.signalOp (s : State) (w : Work) (d : BitVec 512) : SynOp :=
  { rank := synRank w (s.engineOf w), add := dbits d 0x10 1 1 == 1, val := BitVec.ofNat 64 (db d 0x18 8), mask := ~~~ 0 }
theorem signalOp_apply (d : BitVec 512) (x : DWord) :
    (s.signalOp w d).apply x = if dbits d 0x10 1 1 = 0 then BitVec.ofNat 64 (db d 0x18 8) else x + BitVec.ofNat 64 (db d 0x18 8) := by
  have hlt := dbits_lt d 0x10 1 1
  by_cases h : dbits d 0x10 1 1 = 0
  · have hmask : (~~~ 0 : DWord) = BitVec.allOnes 64 := rfl
    simp only [State.signalOp, SynOp.apply, h, hmask, BitVec.not_allOnes, BitVec.and_zero, BitVec.zero_or, BitVec.and_allOnes, if_true]
    rfl
  · have hone : dbits d 0x10 1 1 = 1 := by omega
    simp [State.signalOp, SynOp.apply, hone]
/-- A change of a counter reaches the items of the WAITs on it alone. -/
theorem item_synOp {op : Nat} (hs : s.Starts e op w i) (hop : op ≠ 1) (k : Nat) (o : SynOp) : (s.synOp k o).item? w = some i := by
  have hother : opcodeOf i.desc ≠ 1 := hs.opcode ▸ hop
  refine item_mapItems_same _ (by simpa using hs.item) hs.ring ?_
  simp [Item.waitsOn, hother]
section
variable {k : Nat} (hcounter : dbits i.desc 0x10 0 1 = 0) (hk : k = dbits i.desc 0x12 0 12)
include hcounter hk
theorem signal_ends : s.Ends (.signal e) e 0x02 w i (s.synOp k (s.signalOp w i.desc))
    { i.done with detail := lo32 ((s.synOp k (s.signalOp w i.desc)).counter k).val.toNat } .ok := by
  refine State.ends_done (exec_signal e s) (Nat.zero_le 99) fun hs => ?_
  have hitem := item_synOp hs (by decide) k (s.signalOp w i.desc)
  refine ⟨.of_eq ?_, by rw [hitem]; rfl, fun _ => rfl, hs.highest_ok⟩
  simp only [signalAdv, hcounter, if_true, ← hk, ← State.signalOp.eq_def, State.modItem, hitem]
  rfl
omit hcounter in
theorem signal_value (h : (s.counter k).cycle ≠ s.now) : ((s.synOp k (s.signalOp w i.desc)).counter k).val =
    if dbits i.desc 0x10 1 1 = 0 then BitVec.ofNat 64 (db i.desc 0x18 8) else (s.counter k).val + BitVec.ofNat 64 (db i.desc 0x18 8) := by
  rw [State.counter_synOp (hk ▸ dbits_lt i.desc 0x12 0 12), if_pos rfl, Counter.change_val (.inl h), signalOp_apply]
end
theorem signal_writes (hhost : dbits i.desc 0x10 0 1 = 1) :
    s.Sends (.signal e) e 0x02 w i s (i.push [.hwr (db i.desc 0x20 8) (leBytes 8 (db i.desc 0x18 8))]).done :=
  State.row_sends noCheck signalAdv repItem (exec_signal e s) fun _ => ⟨rfl, by
    have hval : (BitVec.ofNat 64 (db i.desc 0x18 8)).toNat = db i.desc 0x18 8 := Nat.mod_eq_of_lt (db_lt i.desc 0x18 8)
    simp only [signalAdv, hhost, hval, one_ne_zero, if_false]⟩

theorem fence_ends (h : s.owed w i.desc = []) : s.Ends (.fence e) e 0x03 w i s i.done .ok :=
  State.ends_done (exec_fence e s) (Nat.zero_le 99) fun hs => ⟨.of_eq (by simp only [fenceAdv, h, if_true]; rfl), hs.isSome, fun _ => rfl, hs.highest_ok⟩
theorem fence_waits (h : s.owed w i.desc ≠ []) :
    s.Waits (.fence e) e 0x03 w i s { i with x := s.owed w i.desc, detail := (s.owed w i.desc).length, wait := .cond, stage := 1 } :=
  State.row_waits noCheck fenceAdv repItem (exec_fence e s) fun hs => ⟨rfl, by simp only [fenceAdv, h, if_false], hs.isSome, nofun⟩
end

/-! ### What a stop request changes (R378, R497, R501) -/

/-- From `s` to `t` a trigger or a TRIG_OUT event has been noted: trace, TRIG_OUT's pulse and activations. -/
def Noted (s t : State) : Prop :=
  ∃ trc clean src ops trig, t = { s with trc := trc, sramClean := clean, car := { s.car with sources := src }, htu := { s.htu with ops := ops }
                                         pins := { s.pins with trigPulse := trig } }
theorem Noted.refl (s : State) : Noted s s := ⟨_, _, _, _, _, rfl⟩
theorem Noted.trans {s t u : State} (h : Noted s t) (k : Noted t u) : Noted s u := by
  obtain ⟨_, _, _, _, _, rfl⟩ := h
  obtain ⟨trc, clean, src, ops, trig, rfl⟩ := k
  exact ⟨trc, clean, src, ops, trig, rfl⟩
theorem Noted.of_activated {s t : State} (h : Activated s t) : Noted s t := by
  obtain ⟨src, ops, rfl⟩ := h
  exact ⟨_, _, src, ops, _, rfl⟩
theorem Noted.item {s t : State} (h : Noted s t) (w : Work) : t.item? w = s.item? w := by
  obtain ⟨_, _, _, _, _, rfl⟩ := h
  cases w <;> rfl
theorem Noted.lines {s t : State} (h : Noted s t) : t.pins.stopOut = s.pins.stopOut ∧ t.pins.pulse = s.pins.pulse := by
  obtain ⟨_, _, _, _, _, rfl⟩ := h
  exact ⟨rfl, rfl⟩
theorem State.toutEvent_noted (s : State) (b : Nat) : Noted s (s.toutEvent b) := by
  unfold State.toutEvent
  dsimp only
  split
  · split <;> exact ⟨_, _, _, _, _, rfl⟩
  · exact Noted.refl s
theorem State.ringPush_noted (s : State) (rs : List TraceRec) : Noted s (s.ringPush rs) := by
  have hpushed (clean : Bool) (trc : Trc) : Noted s { s with sramClean := clean, trc := trc } := ⟨_, _, _, _, _, rfl⟩
  unfold State.ringPush
  dsimp only
  split
  · exact (hpushed _ _).trans (.of_activated (State.activate_activated ..))
  · exact hpushed _ _
theorem State.traceTrigger_noted (s : State) (code tt arg : Nat) : Noted s (s.traceTrigger code tt arg) := by
  have htrc (u : State) (trc) : Noted u { u with trc := trc } := ⟨_, _, _, _, _, rfl⟩
  have hmarked (u : State) (trc) (rs) (data : Nat) : Noted u (((({ u with trc := trc } : State).ringPush rs).activate 171 data).toutEvent 4) :=
    (((htrc u trc).trans (State.ringPush_noted ..)).trans (.of_activated (State.activate_activated ..))).trans (State.toutEvent_noted ..)
  unfold State.traceTrigger
  dsimp only
  split
  · split
    · split
      · exact (htrc s _).trans (hmarked _ _ _ _)
      · exact hmarked _ _ _ _
    · split
      · exact (htrc s _).trans (hmarked _ _ _ _)
      · exact hmarked _ _ _ _
    · exact Noted.refl s
    · exact htrc s _
  · exact Noted.refl s

/-- The pulses that a mask starts. -/
def State.pulseMask (s : State) (mask : Nat) (l : List Nat) : State := l.foldl (fun s k => if bit mask k then s.pulseStart k else s) s
section
variable (s : State) (k : Nat)
theorem State.pulseStart_frame : ∃ pins, s.pulseStart k = { s with pins := pins } := by
  unfold State.pulseStart; split <;> exact ⟨_, rfl⟩
theorem State.pulseStart_stopOut (j : Nat) : bit (s.pulseStart k).pins.stopOut j = (bit s.pins.stopOut j && !(decide (j = k) && s.drivable j)) := by
  unfold State.pulseStart
  split
  · next h =>
    rw [bit_setFld_zero]
    by_cases hj : j = k
    · simp [hj, h]
    · simp [hj]
  · next h =>
    by_cases hj : j = k
    · simp [hj, h]
    · simp [hj]
theorem State.pulseStart_pulse (j : Nat) :
    tget 0 (s.pulseStart k).pins.pulse j = if j = k ∧ s.drivable j then s.now + 1 else tget 0 s.pins.pulse j := by
  unfold State.pulseStart
  by_cases hj : j = k
  · subst hj
    split <;> simp [*, tget_tput]
  · split <;> simp [hj, tget_tput]
/-- A line that a request starts a pulse on can be pulsed again. -/
theorem State.pulseStart_drivable (j : Nat) : (s.pulseStart k).drivable j = s.drivable j := by
  have hen : (s.pulseStart k).pins.stopEn = s.pins.stopEn := by unfold State.pulseStart; split <;> rfl
  unfold State.drivable
  rw [hen, State.pulseStart_stopOut, State.pulseStart_pulse]
  by_cases h : j = k ∧ s.drivable j = true
  · obtain ⟨rfl, hj⟩ := h
    obtain ⟨hon, hready⟩ := Bool.and_eq_true_iff.mp hj
    simp [hj, hon, hready]
  · have hoff : (decide (j = k) && s.drivable j) = false := by simpa using h
    simp [h, hoff]
end
/-- Of the lines of a list a mask pulses those that can be driven, and no other line changes. -/
theorem State.pulseMask_lines (mask : Nat) (l : List Nat) (s : State) (j : Nat) :
    bit (s.pulseMask mask l).pins.stopOut j = (bit s.pins.stopOut j && !(decide (j ∈ l) && bit mask j && s.drivable j)) ∧
      tget 0 (s.pulseMask mask l).pins.pulse j = if j ∈ l ∧ bit mask j ∧ s.drivable j then s.now + 1 else tget 0 s.pins.pulse j := by
  induction l generalizing s with
  | nil => simp [State.pulseMask]
  | cons k l ih =>
    by_cases hk : bit mask k = true
    · obtain ⟨pins, hpins⟩ := s.pulseStart_frame k
      have hnow : (s.pulseStart k).now = s.now := by rw [hpins]
      have hstep : s.pulseMask mask (k :: l) = (s.pulseStart k).pulseMask mask l := by simp only [State.pulseMask, List.foldl_cons, hk, if_true]
      rw [hstep, (ih _).1, (ih _).2, State.pulseStart_drivable, State.pulseStart_stopOut, State.pulseStart_pulse, hnow]
      by_cases hj : j = k
      · subst hj; cases s.drivable j <;> simp [hk]
      · simp [hj]
    · have hstep : s.pulseMask mask (k :: l) = s.pulseMask mask l := by simp only [State.pulseMask, List.foldl_cons, hk]; rfl
      rw [hstep, (ih _).1, (ih _).2]
      by_cases hj : j = k
      · subst hj; simp [hk]
      · simp [hj]
theorem State.pulseMask_item (mask : Nat) (l : List Nat) (s : State) (w : Work) : (s.pulseMask mask l).item? w = s.item? w :=
  List.foldlRecOn (motive := fun t : State => t.item? w = s.item? w) l _ rfl fun t ht k _ => by
    split
    · obtain ⟨pins, hpins⟩ := t.pulseStart_frame k
      rw [hpins, ← ht]; cases w <;> rfl
    · exact ht
section
variable (s : State) (mask t : Nat)
theorem State.stopRequest_noted : Noted (s.pulseMask mask (List.range 8)) (s.stopRequest mask t) :=
  (State.traceTrigger_noted _ 2 t 0).trans (State.toutEvent_noted _ 1)
theorem State.stopRequest_item (w : Work) : (s.stopRequest mask t).item? w = s.item? w :=
  ((s.stopRequest_noted mask t).item w).trans (s.pulseMask_item mask _ w)
/-- The lines of a stop request: those of the mask that can be driven go low, for a pulse that counts from this cycle. -/
theorem State.stopRequest_lines {k : Nat} (hk : k < 8) :
    bit (s.stopRequest mask t).pins.stopOut k = (bit s.pins.stopOut k && !(bit mask k && s.drivable k)) ∧
      tget 0 (s.stopRequest mask t).pins.pulse k = if bit mask k ∧ s.drivable k then s.now + 1 else tget 0 s.pins.pulse k := by
  obtain ⟨hout, hpulse⟩ := (s.stopRequest_noted mask t).lines
  obtain ⟨hline, hfrom⟩ := State.pulseMask_lines mask (List.range 8) s k
  rw [hout, hpulse, hline, hfrom]
  simp [hk]
end

/-! ### PEAL (R387, R400) -/

theorem exec_peal (e : Nat) (s : State) : exec (.peal e) s = s.row e 0x10 noCheck pealAdv repItem := rfl
/-- The state in which a PEAL of mask `m` leaves the hub: its request counted, its pulses begun and its stop instant taken. -/
def State.pealed (s : State) (m : Nat) : State :=
  ({ s with run := { s.run with pealCnt := satAdd s.run.pealCnt 1 32 } }.stopRequest m s.time).stopInstant 1 m s.time
theorem State.stopInstant_item (s : State) (kind chains t : Nat) (w : Work) : (s.stopInstant kind chains t).item? w = s.item? w := by
  unfold State.stopInstant; cases w <;> rfl
theorem State.pealed_item (s : State) (m : Nat) (w : Work) : (s.pealed m).item? w = s.item? w := by
  unfold State.pealed
  rw [State.stopInstant_item, State.stopRequest_item]
  cases w <;> rfl
/-- A PEAL's item in its first stroke, with the lines it drove and the statuses of its chains where it is to confirm. -/
def Item.pealed (i : Item) (detail : Nat) (errs : List Status) (confirm : Bool) : Item :=
  let i := { i with detail := detail, errs := i.errs ++ if confirm then errs else [] }
  if confirm then { i with stage := 1, wait := .ctl none } else i.done
section
variable {s : State} {e : Nat} {w : Work} {i : Item}

theorem peal_empty (h : db i.desc 0x10 1 = 0) : s.Ends (.peal e) e 0x10 w i s i.done .ok :=
  State.ends_done (exec_peal e s) (Nat.zero_le 99) fun hs => ⟨.of_eq (by simp only [pealAdv, hs.stage, h, if_true]; rfl), hs.isSome, fun _ => rfl, hs.highest_ok⟩
section
variable {m : Nat} (hm : m = db i.desc 0x10 1) (hne : m ≠ 0)
include hm hne
theorem pealAdv_first (hs : s.Starts e 0x10 w i) : pealAdv s w i = (s.pealed m).setItem w
    (i.pealed (s.drivenMask m + place (m ^^^ s.drivenMask m) 8 8) (s.reachErrs (fun f => bit m (f / 16))) (dbits i.desc 0x11 0 1 == 1)) := by
  subst hm
  have hitem := (s.pealed_item (db i.desc 0x10 1) w).trans hs.item
  have hmod (f : Item → Item) : (s.pealed (db i.desc 0x10 1)).modItem w f = (s.pealed (db i.desc 0x10 1)).setItem w (f i) := by
    rw [State.modItem, hitem]
  exact ((if_pos hs.stage).trans (if_neg hne)).trans (hmod _)
theorem peal_ends (h : dbits i.desc 0x11 0 1 = 0) :
    s.Ends (.peal e) e 0x10 w i (s.pealed m) { i.done with detail := s.drivenMask m + place (m ^^^ s.drivenMask m) 8 8 } .ok := by
  refine State.ends_done (exec_peal e s) (Nat.zero_le 99) fun hs => ⟨.of_eq ?_, by rw [State.pealed_item]; exact hs.isSome, fun _ => rfl, hs.highest_ok⟩
  rw [pealAdv_first hm hne hs, h]
  simp [Item.pealed, Item.done]
theorem peal_waits (h : dbits i.desc 0x11 0 1 = 1) : s.Waits (.peal e) e 0x10 w i (s.pealed m) { i with
    detail := s.drivenMask m + place (m ^^^ s.drivenMask m) 8 8, errs := s.reachErrs (fun f => bit m (f / 16)), stage := 1, wait := .ctl none } := by
  refine State.row_waits noCheck pealAdv repItem (exec_peal e s) fun hs => ⟨rfl, ?_, by rw [State.pealed_item]; exact hs.isSome, nofun⟩
  rw [pealAdv_first hm hne hs, h]
  simp [Item.pealed, hs.errs]
end
theorem State.pealed_lines (s : State) (m : Nat) {k : Nat} (hk : k < 8) :
    bit (s.pealed m).pins.stopOut k = (bit s.pins.stopOut k && !(bit m k && s.drivable k)) ∧
      tget 0 (s.pealed m).pins.pulse k = if bit m k ∧ s.drivable k then s.now + 1 else tget 0 s.pins.pulse k :=
  State.stopRequest_lines _ m s.time hk
end

/-! ### TOLL (R386, R401) -/

theorem exec_toll (e : Nat) (s : State) : exec (.toll e) s = s.row e 0x11 noCheck tollAdv tollRep := rfl
section
variable {s : State} {e : Nat} {w : Work} {i : Item}
/-- With no toll of the hub's there is none to replace: the first stroke has no chip to disarm. -/
theorem tollFirst_none (hs : s.Starts e 0x11 w i) (h : s.run.tollState = .none_) : tollAdv s w i =
    if dbits i.desc 0x11 0 2 = 0 then
      State.setItem { s.tollDrop w with run := { (s.tollDrop w).run with
          tollState := .arming, tollMask := db i.desc 0x10 1, tollT := db i.desc 0x18 8, backup := true } } w
        ((chipsOf (db i.desc 0x10 1) s.addressable).foldl (fun (j : Item) f => j.pushSeq (tollOps (db i.desc 0x18 8) f))
          { i with stage := 1, errs := s.reachErrs (inMask (db i.desc 0x10 1))
                   x := tput 0 (tput 0 [] 0 (chipsOf (db i.desc 0x10 1) s.addressable).length) 1 1 })
    else if dbits i.desc 0x11 0 2 = 1 then
      State.setItem { s.tollDrop w with run := { (s.tollDrop w).run with
          tollState := .waitTrig, tollMask := db i.desc 0x10 1, tollEdge := dbits i.desc 0x11 2 2, tollOffset := db i.desc 0x18 8 } } w { i with stage := 1 }
    else (s.tollDrop w).setItem w
      { i.push ((chipsOf (db i.desc 0x10 1) s.addressable).map disarmOp) with stage := 1, errs := s.reachErrs (inMask (db i.desc 0x10 1)) } := by
  have hheld : (TollState.none_ == TollState.armed || TollState.none_ == TollState.arming) = false := rfl
  simp [tollAdv, hs.stage, State.tollFirst, h, hheld, hs.errs, hs.x]
theorem tollDrop_item (hs : s.Starts e 0x11 w i) : (s.tollDrop w).item? w = some i := by
  have hkept := item_mapItems_same (fun v j => if v ≠ w ∧ opcodeOf j.desc = 0x11 ∧ j.stage = 1 then { j with todo := s.seqRest v j, x := tput 0 j.x 1 0 } else j)
    hs.item hs.ring (by simp)
  rw [← hkept]
  cases w <;> rfl
variable (h : s.run.tollState = .none_) {m : Nat} (hm : m = db i.desc 0x10 1)
include h hm
theorem toll_arms (hmode : dbits i.desc 0x11 0 2 = 0) :
    s.Sends (.toll e) e 0x11 w i { s.tollDrop w with run := { (s.tollDrop w).run with tollState := .arming, tollMask := m, tollT := db i.desc 0x18 8, backup := true } }
      ((chipsOf m s.addressable).foldl (fun (j : Item) f => j.pushSeq (tollOps (db i.desc 0x18 8) f))
        { i with stage := 1, errs := s.reachErrs (inMask m), x := tput 0 (tput 0 [] 0 (chipsOf m s.addressable).length) 1 1 }) :=
  State.row_sends noCheck tollAdv tollRep (exec_toll e s) fun hs => ⟨rfl, by rw [tollFirst_none hs h, if_pos hmode, hm]⟩
theorem toll_awaits (hmode : dbits i.desc 0x11 0 2 = 1) :
    s.Ends (.toll e) e 0x11 w i { s.tollDrop w with
      run := { (s.tollDrop w).run with tollState := .waitTrig, tollMask := m, tollEdge := dbits i.desc 0x11 2 2, tollOffset := db i.desc 0x18 8 } } i.done .ok := by
  refine State.ends_done (exec_toll e s) (k := 1) (by decide) fun hs => ?_
  generalize hu : ({ s.tollDrop w with run := { (s.tollDrop w).run with
    tollState := .waitTrig, tollMask := m, tollEdge := dbits i.desc 0x11 2 2, tollOffset := db i.desc 0x18 8 } } : State) = u
  have hitem : u.item? w = some i := by rw [← hu, ← tollDrop_item hs]; cases w <;> rfl
  have hadv : tollAdv s w i = u.setItem w { i with stage := 1 } := by
    rw [tollFirst_none hs h, if_neg (by omega), if_pos hmode, ← hm, hu]
  have hdone : tollAdv (u.setItem w { i with stage := 1 }) w { i with stage := 1 } = u.setItem w i.done := by
    simp only [tollAdv, one_ne_zero, if_false, setItem_setItem, Item.done]
  have hrep (t : State) (st : Status) : tollRep t w i.done st = (t, i.detail, i.cursor) := by
    have hmode0 : ¬ dbits i.done.desc 0x11 0 2 = 0 := by rw [Item.done, hmode]; decide
    have hnone : i.done.countOk i.done.nextIx id = 0 := by rw [show i.done.nextIx = 0 from hs.nextIx]; rfl
    exact (if_neg hmode0).trans (by rw [hnone, hs.detail, hs.cursor])
  refine ⟨hadv ▸ State.Advances.step hs.ring hitem (hs.idle rfl _ _) (.of_eq hdone), by rw [hitem]; rfl, fun t => hrep t _, hs.highest_ok⟩
theorem toll_disarms (hmode : dbits i.desc 0x11 0 2 = 2) :
    s.Sends (.toll e) e 0x11 w i (s.tollDrop w)
      { i.push ((chipsOf m s.addressable).map disarmOp) with stage := 1, errs := s.reachErrs (inMask m) } :=
  State.row_sends noCheck tollAdv tollRep (exec_toll e s) fun hs => ⟨rfl, by rw [tollFirst_none hs h, if_neg (by omega), if_neg (by omega), hm]⟩
end

/-! ### O56 -/

/-- Settles O56: NOP, WAIT, SIGNAL and FENCE, then PEAL and TOLL, each by what its first stroke makes of a fresh item. -/
theorem syncPealAndTollRun : Obligations.SyncPealAndTollRun := by
  refine ⟨fun s e w i => ⟨nop_ends, fun v => wait_ends, fun v => wait_waits, wait_reads, ?_, signal_writes, fence_ends, ?_⟩,
    fun s e m w i hm => ⟨?_, ?_, fun h => ⟨toll_arms h hm, toll_awaits h hm, toll_disarms h hm⟩⟩⟩
  · rintro k _ hcounter hk rfl
    exact ⟨signal_ends hcounter hk, signal_value hk⟩
  · rintro _ rfl h
    exact fence_waits h
  · rintro rfl
    exact peal_empty hm.symm
  · rintro _ rfl hne
    refine ⟨peal_ends hm hne, peal_waits hm hne, fun k hk hbit hdrive => ?_, fun k hk hbit => ?_⟩
    · obtain ⟨hout, hpulse⟩ := s.pealed_lines m hk
      exact ⟨hout.trans (by simp [hbit, hdrive]), hpulse.trans (by simp [hbit, hdrive])⟩
    · exact (s.pealed_lines m hk).1.trans (by simp [hbit])

end Sys2Proof.Machine

/-! PROOFS. RING_ENABLE and RING_DISABLE (O10): what serving operations leaves of a ring, and what is left of the ring they drain. -/
namespace Sys2Proof.Machine

/-! ### What operations leave of the rings -/

/-- From `s` to `t` work items have moved: of a ring all but its item and what waits around it is as it was, and a ring without one is
as it was. -/
structure RingsKept (s t : State) : Prop where
  offWork : ∀ n, (t.ring n).offWork = (s.ring n).offWork
  bare : ∀ n, (s.ring n).item = none → t.ring n = s.ring n
theorem RingsKept.of_rings {s t : State} (h : t.rings = s.rings) : RingsKept s t := by
  have hring (n : Nat) : t.ring n = s.ring n := by rw [State.ring, h]; rfl
  exact ⟨fun n => by rw [hring], fun n _ => hring n⟩
theorem RingsKept.refl (s : State) : RingsKept s s := .of_rings rfl
theorem RingsKept.trans {s t u : State} (h : RingsKept s t) (k : RingsKept t u) : RingsKept s u where
  offWork n := (k.offWork n).trans (h.offWork n)
  bare n hn := by
    have ht := h.bare n hn
    rw [k.bare n (by rw [ht, hn]), ht]
theorem RingsKept.foldl {α : Type} {g : State → α → State} (hg : ∀ s x, RingsKept s (g s x)) (l : List α) (s : State) : RingsKept s (l.foldl g s) :=
  List.foldlRecOn (motive := RingsKept s) l g (.refl s) fun t ht x _ => ht.trans (hg t x)
/-- A ring that is written as it was beside its item. -/
theorem RingsKept.setRing {s : State} {n : Nat} {r : Ring} (hoff : r.offWork = (s.ring n).offWork) (hbare : (s.ring n).item = none → r = s.ring n) :
    RingsKept s (s.setRing n r) := by
  by_cases hn : n < 512
  · refine ⟨fun m => ?_, fun m => ?_⟩ <;> rw [State.ring_setRing _ _ _ _ hn] <;> split
    · next h => rw [h, hoff]
    · rfl
    · next h => rw [h]; exact hbare
    · exact fun _ => rfl
  · exact .of_rings (by unfold State.setRing; rw [if_neg hn])
theorem RingsKept.setItem {s : State} {w : Work} {i : Item} (hi : s.item? w = some i) (j : Item) : RingsKept s (s.setItem w j) := by
  cases w with
  | ring n => exact .setRing rfl fun h => by rw [State.item?, h] at hi; cases hi
  | scan => exact .of_rings rfl
  | free k => exact .of_rings rfl
theorem RingsKept.modItem (s : State) (w : Work) (f : Item → Item) : RingsKept s (s.modItem w f) := by
  unfold State.modItem
  split
  · next i hi => exact .setItem hi _
  · exact .refl s
theorem RingsKept.updItem (s : State) (w : Work) (f : Item → Item) : RingsKept s (s.updItem w f) := .modItem s w _
theorem RingsKept.setOp (s : State) (o : HostOp) : RingsKept s (s.setOp o) := .of_rings rfl
theorem RingsKept.mapItems (s : State) (f : Work → Item → Item) : RingsKept s (s.mapItems f) := .foldl (fun s w => .modItem s w _) _ s
theorem RingsKept.endStrokesOf (s : State) (w : Work) : RingsKept s (s.endStrokesOf w) := by
  refine .foldl (fun s e => ?_) _ s
  unfold State.endStroke
  dsimp only
  split
  · split
    · exact (RingsKept.of_rings (by simp)).trans (.modItem _ _ _)
    · exact .of_rings (by simp)
  · exact .refl s
theorem State.activate_rings (s : State) (n data : Nat) : (s.activate n data).rings = s.rings := by
  obtain ⟨src, ops, h⟩ := s.activate_activated n data
  rw [h]
theorem RingsKept.logFault (s : State) (o : Owner) (r : Fault192) : RingsKept s (s.logFault o r) := by
  refine .of_rings ?_
  unfold State.logFault
  dsimp only
  split
  · rfl
  · split
    · unfold State.requestVector
      split <;> exact State.activate_rings ..
    · exact State.activate_rings ..
theorem RingsKept.parkOwner (s : State) (o : Owner) (on : Bool) : RingsKept s (s.parkOwner o on) := by
  unfold State.parkOwner
  split
  · next w =>
    have hctx (s : State) : RingsKept s (s.ctxPark w on) := .foldl (fun s n => .of_rings (by dsimp only; split_ifs <;> simp)) _ s
    have hpark := (RingsKept.updItem s w (fun i => { i with parked := on })).trans (hctx _)
    dsimp only
    split
    · exact hpark.trans (.endStrokesOf _ w)
    · exact hpark
  · exact .of_rings (by simp)
  · exact .refl s
theorem RingsKept.faultOp (s : State) (o : HostOp) (cause level : Nat) (hit : Bool) : RingsKept s (s.faultOp o cause level hit) := by
  have hhold : RingsKept s (s.holdFault o) := by
    unfold State.holdFault
    dsimp only
    split
    · exact RingsKept.trans (.of_rings (by rfl)) (.modItem _ _ _)
    · exact .of_rings rfl
  unfold State.faultOp
  dsimp only
  refine RingsKept.trans ?_ (.logFault _ _ _)
  refine RingsKept.trans ?_ (.parkOwner _ _ _)
  exact hhold.trans (.of_rings (by rfl))
/-- A ring that has no item has no record to queue. -/
theorem RingsKept.recordQueued (s : State) (n : Nat) : RingsKept s (s.recordQueued n) where
  offWork m := ((OwnerStep.recordQueued s n).ring m).offWork
  bare m hm := by
    have hpromote (s : State) (hne : m ≠ n) : (s.promote n).ring m = s.ring m := by
      unfold State.promote
      dsimp only
      split
      · split
        · exact State.ring_setRing_ne _ _ _ _ hne
        · rfl
      · rfl
    unfold State.recordQueued
    dsimp only
    split
    · next i hi =>
      have hne : m ≠ n := by rintro rfl; rw [hm] at hi; cases hi
      split
      · rw [hpromote _ hne, State.ring_setRing_ne _ _ _ _ hne]
      · rfl
    · rfl
theorem RingsKept.queueOp (s : State) (o : HostOp) (phys : Nat) (page : Option Nat) : RingsKept s (s.queueOp o phys page) := by
  unfold State.queueOp
  dsimp only
  split
  · exact RingsKept.trans (.of_rings (by rfl)) (.recordQueued _ _)
  · exact .of_rings rfl
theorem RingsKept.translate (s : State) (id : Nat) : RingsKept s (s.translate id) := by
  unfold State.translate
  split
  · exact .refl s
  split
  · dsimp only
    split
    · exact .refl s
    split
    · split
      · exact .queueOp _ _ _ _
      · exact .refl s
    split
    · exact .faultOp _ _ _ _ _
    split
    · exact .faultOp _ _ _ _ _
    split
    · split
      · exact RingsKept.trans (.of_rings (by rfl)) (.faultOp _ _ _ _ _)
      split
      · exact RingsKept.trans (.of_rings (by rfl)) (.queueOp _ _ _ _)
      · exact .refl s
    · split
      · exact .of_rings rfl
      · exact .refl s
  · split
    · exact .of_rings rfl
    · exact .refl s
  · exact .refl s
theorem RingsKept.pump (s : State) : RingsKept s s.pump := .foldl RingsKept.translate _ s

/-! ### What draining leaves of a ring (R282) -/

theorem RingsKept.freeEntry (s : State) (o : Owner) : RingsKept s (s.freeEntry o) := by
  unfold State.freeEntry
  split
  · unfold State.logWaiting
    dsimp only
    split
    · exact RingsKept.trans (.of_rings (by rfl)) (.logFault _ _ _)
    · exact .of_rings rfl
  · exact .of_rings rfl
  · exact .refl s
theorem RingsKept.dropUnqueued (s : State) (o : Owner) : RingsKept s (s.dropUnqueued o) := by
  unfold State.dropUnqueued
  dsimp only
  split
  · exact RingsKept.trans (.of_rings (by rfl)) (.updItem _ _ _)
  · exact .of_rings rfl
theorem RingsKept.dropFetch (s : State) (n : Nat) : RingsKept s (s.dropFetch n) :=
  ((RingsKept.freeEntry s _).trans (.dropUnqueued _ _)).trans (.of_rings rfl)
theorem RingsKept.killItem (s : State) (w : Work) (e : Status) : RingsKept s (s.killItem w e) := .updItem s w _
theorem RingsKept.reRecord (s : State) (n : Nat) (i : Item) (v : Nat × Nat × Nat) : RingsKept s (s.reRecord n i v) := by
  have hmarked (f : Item → Item) :
      RingsKept s (((s.freeEntry (.item (.ring n))).parkOwner (.item (.ring n)) false).modItem (.ring n) f) := by
    refine RingsKept.trans ?_ (.modItem _ _ _)
    exact RingsKept.trans (.freeEntry _ _) (.parkOwner _ _ _)
  unfold State.reRecord
  dsimp only
  split
  · exact RingsKept.trans (hmarked _) (.setOp _ _)
  · exact hmarked _
theorem RingsKept.drainItem (s : State) (n : Nat) (i : Item) : RingsKept s (s.drainItem n i) := by
  unfold State.drainItem
  dsimp only
  split
  · split
    · exact .reRecord _ _ _ _
    · exact .refl s
  · split
    · exact .setRing rfl fun h => by rw [← h]
    split
    · exact (((RingsKept.freeEntry s _).trans (.parkOwner _ _ _)).trans (.dropUnqueued _ _)).trans (.killItem _ _ _)
    split
    · exact .killItem _ _ _
    · exact .killItem _ _ _
    · exact .refl s

/-- A ring that is DISABLED has given up its item and what it had fetched. -/
theorem State.ringOff_ring {n : Nat} (hn : n < 512) (s : State) :
    (s.ringOff n).ring n = { s.ring n with state := .disabled, enable := false, fetched := [], fetchOut := 0, item := none } := by
  have hset := State.ring_setRing_same s n { s.ring n with state := .disabled, enable := false, fetched := [], fetchOut := 0, item := none } hn
  exact ((RingsKept.mapItems _ _).bare n (by rw [hset])).trans hset
/-- A ring that no longer fetches, with the pointers of `r`. -/
structure Ring.Stopped (r q : Ring) : Prop where
  state : q.state = .disabled ∨ q.state = .draining
  enable : q.enable = false
  tail : q.tail = r.tail
  head : q.head = r.head
theorem Ring.Stopped.of_offWork {r q p : Ring} (h : r.Stopped q) (hp : p.offWork = q.offWork) : r.Stopped p where
  state := by
    have hstate : p.state = q.state := (congrArg Ring.state hp :)
    rw [hstate]; exact h.state
  enable := (congrArg Ring.enable hp :).trans h.enable
  tail := (congrArg Ring.tail hp :).trans h.tail
  head := (congrArg Ring.head hp :).trans h.head
theorem Ring.Stopped.settleDrain {r : Ring} {n : Nat} (hn : n < 512) {s : State} (h : r.Stopped (s.ring n)) : r.Stopped ((s.settleDrain n).ring n) := by
  unfold State.settleDrain
  dsimp only
  split
  · rw [State.ringOff_ring hn]
    exact ⟨.inl rfl, rfl, h.tail, h.head⟩
  · exact h
/-- The ring begins to drain: it fetches no more, and its fetch reads are withdrawn. -/
def State.drainStart (s : State) (n : Nat) : State :=
  (s.setRing n { s.ring n with enable := false, state := .draining, fetched := [], fetchOut := 0 }).dropFetch n
section
variable {s : State} {n : Nat} (hn : n < 512)
section
include hn
theorem drainStart_stops : (s.ring n).Stopped ((s.drainStart n).ring n) := by
  have hset := State.ring_setRing_same s n { s.ring n with enable := false, state := .draining, fetched := [], fetchOut := 0 } hn
  exact .of_offWork ⟨.inr (by rw [hset]), by rw [hset], by rw [hset], by rw [hset]⟩ ((RingsKept.dropFetch _ n).offWork n)
theorem drainStart_bare (hitem : (s.ring n).item = none) :
    (s.drainStart n).ring n = { s.ring n with enable := false, state := .draining, fetched := [], fetchOut := 0 } := by
  have hset := State.ring_setRing_same s n { s.ring n with enable := false, state := .draining, fetched := [], fetchOut := 0 } hn
  exact ((RingsKept.dropFetch _ n).bare n (by rw [hset]; exact hitem)).trans hset
end
variable (hen : (s.ring n).state ≠ .disabled) (hdr : (s.ring n).state ≠ .draining)
include hen hdr
theorem ringDisable_drains :
    s.ringDisable n = (((s.ring n).item.elim (s.drainStart n) ((s.drainStart n).drainItem n)).settleDrain n).pump := by
  unfold State.ringDisable State.drainStart
  dsimp only
  rw [if_neg (not_or.mpr ⟨hen, hdr⟩)]
  cases (s.ring n).item <;> rfl
include hn
theorem ringDisable_stops : (s.ring n).Stopped ((s.ringDisable n).ring n) := by
  cases hitem : (s.ring n).item with
  | none =>
    rw [ringDisable_drains hen hdr, hitem]
    exact .of_offWork (.settleDrain hn (drainStart_stops hn)) ((RingsKept.pump _).offWork n)
  | some i =>
    rw [ringDisable_drains hen hdr, hitem]
    exact .of_offWork (.settleDrain hn ((drainStart_stops hn).of_offWork ((RingsKept.drainItem _ _ _).offWork n))) ((RingsKept.pump _).offWork n)
/-- With neither an item nor a record left the ring is DISABLED at once. -/
theorem ringDisable_empty (hitem : (s.ring n).item = none) (hcpl : (s.ring n).cplQ = []) :
    ((s.ringDisable n).ring n).state = .disabled ∧ ((s.ringDisable n).ring n).enable = false ∧ ((s.ringDisable n).ring n).fetched = [] := by
  have hsettle : (s.drainStart n).settleDrain n = (s.drainStart n).ringOff n :=
    if_pos (by rw [drainStart_bare hn hitem]; exact ⟨rfl, hcpl, by rw [hitem]; rfl⟩)
  have hoff := State.ringOff_ring hn (s.drainStart n)
  rw [ringDisable_drains hen hdr, hitem, Option.elim_none, hsettle, (RingsKept.pump _).bare n (by rw [hoff]), hoff]
  exact ⟨rfl, rfl, rfl⟩
end

/-! ### The write of RING_CTRL (R255, Table 9.8) -/

@[simp] theorem State.linked_ring (s : State) (n : Nat) : s.linked.ring n = s.ring n := by rw [State.linked_frame]; rfl
theorem regMask_ring {off : Nat} (hl : 0x10000 ≤ off) (hb : off < 0x18000) : regMask off = ringMasks.mask (off % 0x40) := by
  unfold regMask
  repeat rw [if_neg (by omega)]
  rw [if_pos hb]
theorem bar0Write_ring {s : State} {off : Nat} (h0 : s.served0 off = true) (hl : 0x10000 ≤ off) (hb : off < 0x18000) (size v : Nat) :
    s.bar0Write off size v = ringWrite s ((off - 0x10000) / 0x40) (off % 0x40) v := by
  unfold State.bar0Write
  rw [if_neg (by simp [h0])]
  repeat rw [if_neg (by omega)]
  rw [if_pos hb]
section
variable {s : State} {r : Nat} (hr : r < 512) (h : s.serves (0x10014 + 0x40 * r) = true)
include hr h
theorem ringCtrl_write {v : Nat} (hv : v < 2) : s.hostWrite (0x10014 + 0x40 * r) 4 v =
    .next (if bit v 0 then s.linked.ringEnable r else s.linked.ringDisable r) := by
  have hreg : (0x10014 + 0x40 * r) % 0x40 = 0x14 := by omega
  have hix : (0x10014 + 0x40 * r - 0x10000) / 0x40 = r := by omega
  have hmask : regMask (0x10014 + 0x40 * r) = some (2 ^ 1 - 1) := by
    rw [regMask_ring (by omega) (by omega), hreg]; rfl
  rw [hostWrite_of_serves h (by omega) (by unfold bar2; omega) hmask (by omega) (and_lowMask_of_lt hv),
    bar0Write_ring (served0_of_serves h) (by omega) (by omega), hreg, hix]
  rfl
theorem exec_ringEnable : exec (.ringEnable r) s = .next (s.linked.ringEnable r) :=
  (if_pos hr : execRingEnable r s = _).trans (ringCtrl_write hr h (v := 1) (by decide))
theorem exec_ringDisable : exec (.ringDisable r) s = .next (s.linked.ringDisable r) :=
  (if_pos hr : execRingDisable r s = _).trans (ringCtrl_write hr h (v := 0) (by decide))
end
/-- A ring as RING_ENABLE starts it: its set-up as it is, and nothing done. -/
def Ring.started (r : Ring) : Ring :=
  { r with enable := true, state := .idle, head := 0, tail := 0, phase := true, doneCnt := 0, fetchIx := 0, fetchOut := 0, fetched := [], item := none, cplQ := [] }
theorem ringEnable_of_disabled {s : State} {n : Nat} (h : (s.ring n).state = .disabled) : s.ringEnable n = s.setRing n (s.ring n).started := if_pos h
theorem ringEnable_of_enabled {s : State} {n : Nat} (h : (s.ring n).state ≠ .disabled) : s.ringEnable n = s := if_neg h
theorem ringDisable_of_stopped {s : State} {n : Nat} (h : (s.ring n).state = .disabled ∨ (s.ring n).state = .draining) : s.ringDisable n = s := if_pos h

/-! ### O10 -/

/-- Settles O10: the write of RING_CTRL by the state in which it finds the ring. -/
theorem ringsStartAndDrain : Obligations.RingsStartAndDrain := by
  refine ⟨fun s r hr h => ⟨fun hoff => ⟨_, exec_ringEnable hr h, ?_⟩, fun hon => ?_⟩, fun s r hr h => ⟨fun hoff => ?_, fun hen hdr hitem hcpl => ?_, fun hen hdr => ?_⟩⟩
  · rw [ringEnable_of_disabled (by rwa [State.linked_ring]), State.ring_setRing_same _ _ _ hr, State.linked_ring]
    refine ⟨rfl, rfl, rfl, rfl, rfl, rfl, rfl, rfl, rfl, rfl, fun n hn => ?_, ?_⟩
    · rw [State.ring_setRing_ne _ _ _ _ hn, State.linked_ring]
    · rw [State.setRing, if_pos hr, State.linked_frame]
  · rw [exec_ringEnable hr h, ringEnable_of_enabled (by rwa [State.linked_ring])]
  · rw [exec_ringDisable hr h, ringDisable_of_stopped (by rwa [State.linked_ring])]
  · exact ⟨_, exec_ringDisable hr h, ringDisable_empty hr (by rwa [State.linked_ring]) (by rwa [State.linked_ring]) (by rwa [State.linked_ring]) (by rwa [State.linked_ring])⟩
  · obtain ⟨hstate, henable, htail, hhead⟩ := ringDisable_stops (s := s.linked) hr (by rwa [State.linked_ring]) (by rwa [State.linked_ring])
    rw [State.linked_ring] at htail hhead
    exact ⟨_, exec_ringDisable hr h, hstate, henable, htail, hhead⟩

end Sys2Proof.Machine

/-! PROOFS. Doorbells (O11): the write as it reaches its ring, a tail that is refused and one that is taken. -/
namespace Sys2Proof.Machine

/-! ### The write of a doorbell (R118, R256) -/

/-- The state in which a doorbell reaches its ring: the link is up and the wake event has occurred. -/
def State.rung (s : State) : State := s.linked.wakeEvent 7 0
theorem State.rung_frame (s : State) : { s.rung with pins := s.pins, pwr := s.pwr } = s := by
  have hlinked : { s.linked with pins := s.pins, pwr := s.pwr } = s := by rw [State.linked_frame]
  exact (congrArg (fun t : State => { t with pins := s.pins }) (s.linked.wakeEvent_frame 7 0 s.pwr)).trans hlinked
theorem State.rung_ring (s : State) (n : Nat) : s.rung.ring n = s.ring n := (congrArg (fun t : State => t.ring n) s.rung_frame :)
theorem State.wakeEvent_pllLock (s : State) (code line : Nat) : (s.wakeEvent code line).pwr.pllLock = s.pwr.pllLock := by
  unfold State.wakeEvent State.seeEvent
  dsimp only
  split
  · split <;> rfl
  · rfl
/-- The event is seen at this AON edge, or at the next one (R118). -/
theorem State.rung_event (s : State) : if s.now % 1000 = 0 then bit s.rung.pwr.events 7 = true else (7, 0) ∈ s.rung.pwr.coming := by
  split
  · next hnow =>
    rw [State.rung, State.wakeEvent_atEdge (by rwa [State.linked_now]), State.seeEvent_events]
    exact bit_or_two_pow_self _ 7
  · next hnow =>
    rw [State.rung, State.wakeEvent_offEdge (by rwa [State.linked_now])]
    exact List.mem_append_right _ (List.mem_singleton_self _)
/-- A doorbell page is not served at once. -/
theorem atOnce_of_bell {off : Nat} (hl : bar2 ≤ off) (hh : off < bar4) : atOnce off = false := by
  have hpwr : ¬ off < 0x2000 := by unfold bar2 at hl; omega
  simp [atOnce, hpwr, Nat.not_le.mpr hh]
theorem exec_doorbell {s : State} {r v : Nat} (hr : r < 512) (hv : v < 2 ^ 32) (hreach : s.hostReaches = true) (hwait : s.linked.hostWaits bar2 = false) :
    exec (.doorbell r v) s = .next (s.rung.doorbell r v) := by
  have hcfg : ¬ cfgBase ≤ bar2 + 0x1000 * r := by unfold cfgBase bar2; omega
  have hlow : ¬ bar2 + 0x1000 * r < bar2 := by omega
  have hhigh : bar2 + 0x1000 * r < bar4 := by unfold bar2 bar4; omega
  have halign : (bar2 + 0x1000 * r) % 0x1000 = 0 := by unfold bar2; omega
  have hix : (bar2 + 0x1000 * r - bar2) / 0x1000 = r := by omega
  have hbell : isDoorbell (bar2 + 0x1000 * r) 4 = true := by simp [isDoorbell, hhigh, halign]
  have honce : atOnce (bar2 + 0x1000 * r) = atOnce bar2 := (atOnce_of_bell (by omega) hhigh).trans (atOnce_of_bell (Nat.le_refl _) (by decide)).symm
  have hwaits : s.rung.hostWaits (bar2 + 0x1000 * r) = false := by
    rw [← hwait]
    simp only [State.hostWaits, State.rung, State.wakeEvent_asleep, State.wakeEvent_pllLock, honce]
  have happly : s.rung.hostApply (bar2 + 0x1000 * r) 4 v = s.rung.doorbell r v := by
    simp only [State.hostApply, hlow, hhigh, halign, hix, Nat.mod_eq_of_lt hv]
    simp
  have hnarrow : v % 2 ^ (8 * 4) = v := Nat.mod_eq_of_lt hv
  refine (if_pos hr : execDoorbell r v s = _).trans ?_
  simp only [State.rung, State.linked] at hwaits happly ⊢
  simp only [State.hostWrite, hnarrow, hcfg, hreach, hbell, hwaits, happly, Bool.not_true, Bool.false_eq_true, if_false, if_true]

/-! ### A doorbell that is rejected (R257) -/

theorem State.activate_data {s : State} {n : Nat} (hn : n < 256) (h : s.inService n = false) (data : Nat) : ((s.activate n data).src n).data = data := by
  have hjudge (u : State) : ((u.judgeReady n).src n).data = (u.src n).data := by
    unfold State.judgeReady
    dsimp only
    split
    · rw [State.src_setSrc_same _ _ _ hn]
    · rfl
  unfold State.activate State.activateAt
  simp only [h, Bool.false_eq_true, if_false]
  rw [hjudge, State.src_setSrc_same _ _ _ hn]
  split <;> rfl
theorem State.setRing_frame (s : State) (n : Nat) (r : Ring) : { s.setRing n r with rings := s.rings } = s := by
  unfold State.setRing; split <;> rfl
/-- What a rejected doorbell leaves: DB_ERR and its cause, and source 194 with the ring's number. -/
theorem dbReject_marks {r : Nat} (hr : r < 512) (s : State) (c : Nat) :
    (s.dbReject r c).ring r = { s.ring r with dbErr := true, dbCause := c } ∧ (∀ n, n ≠ r → (s.dbReject r c).ring n = s.ring n) ∧
      (s.inService 194 = false → (s.dbReject r c).htu = s.htu ∧ ((s.dbReject r c).src 194).pending = true ∧
        ((s.dbReject r c).src 194).data = r + 2 ^ 16) := by
  generalize hu : s.setRing r { s.ring r with dbErr := true, dbCause := c } = u
  have hreject : s.dbReject r c = u.activate 194 (r + 2 ^ 16) := by rw [← hu]; rfl
  have hframe := State.setRing_frame s r { s.ring r with dbErr := true, dbCause := c }
  rw [hu] at hframe
  have hring (n : Nat) : (s.dbReject r c).ring n = u.ring n := by rw [hreject, State.ring, State.activate_rings]; rfl
  refine ⟨?_, fun n hn => ?_, fun hfree => ?_⟩
  · rw [hring, ← hu, State.ring_setRing_same _ _ _ hr]
  · rw [hring, ← hu, State.ring_setRing_ne _ _ _ _ hn]
  · have hservice : u.inService 194 = false := (congrArg (fun t : State => t.inService 194) hframe :).trans hfree
    obtain ⟨src, hsrc⟩ := State.activateAt_free hservice (r + 2 ^ 16) u.time
    have hhtu : (u.activate 194 (r + 2 ^ 16)).htu = u.htu := by rw [State.activate, hsrc]
    rw [hreject]
    exact ⟨hhtu.trans (congrArg State.htu hframe :), State.activate_pending (by decide) hservice _, State.activate_data (by decide) hservice _⟩
section
variable {s : State} {r v : Nat}
theorem doorbell_off (h : (s.ring r).state = .disabled ∨ (s.ring r).state = .draining) : s.doorbell r v = s.dbReject r 3 := if_pos h
variable (hon : ¬ ((s.ring r).state = .disabled ∨ (s.ring r).state = .draining))
include hon
theorem doorbell_outside (h : (s.ring r).size ≤ v) : s.doorbell r v = s.dbReject r 1 := (if_neg hon).trans (if_pos h)
variable (hv : v < (s.ring r).size)
include hv
theorem doorbell_back (h : (v + (s.ring r).size - (s.ring r).head) % (s.ring r).size <
    ((s.ring r).tail + (s.ring r).size - (s.ring r).head) % (s.ring r).size) : s.doorbell r v = s.dbReject r 2 :=
  (if_neg hon).trans ((if_neg (Nat.not_le.mpr hv)).trans (if_pos h))
/-- An accepted new tail. -/
theorem doorbell_moves (h : ((s.ring r).tail + (s.ring r).size - (s.ring r).head) % (s.ring r).size ≤
    (v + (s.ring r).size - (s.ring r).head) % (s.ring r).size) (hne : v ≠ (s.ring r).tail) :
    s.doorbell r v = (s.setRing r ({ s.ring r with tail := v } : Ring).settle).kick r :=
  (if_neg hon).trans ((if_neg (Nat.not_le.mpr hv)).trans ((if_neg (Nat.not_lt.mpr h)).trans (if_neg hne)))
end

/-! ### A doorbell that is accepted (R255, R257) -/

theorem Ring.settle_of_running {r : Ring} (h : r.state = .idle ∨ r.state = .active) :
    r.settle = { r with state := if r.head = r.tail then .idle else .active } := if_pos h
/-- Fetching for one ring leaves the other rings' registers. -/
theorem kick_others {r n : Nat} (hn : n ≠ r) (s : State) : ((s.kick r).ring n).offWork = (s.ring n).offWork := by
  have hfetch : (s.fetchMore r).ring n = s.ring n := by
    unfold State.fetchMore
    dsimp only
    split
    · exact State.ring_setRing_ne _ _ _ _ hn
    · rfl
  rw [← hfetch]
  exact (RingsKept.pump _).offWork n
/-- The ring takes a tail and fetches on: its state and pointers, those of the others, and what is neither ring nor work. -/
theorem kick_moved {r v : Nat} (hr : r < 512) {s u : State} (hrun : (s.ring r).state = .idle ∨ (s.ring r).state = .active)
    (hu : u = (s.setRing r ({ s.ring r with tail := v } : Ring).settle).kick r) :
    ((u.ring r).tail = v ∧ (u.ring r).head = (s.ring r).head ∧ (u.ring r).state = if (s.ring r).head = v then .idle else .active) ∧
      (∀ n, n ≠ r → (u.ring n).offWork = (s.ring n).offWork) ∧ u.offHost = s.offHost := by
  have hsettle := Ring.settle_of_running (r := { s.ring r with tail := v }) hrun
  generalize ({ s.ring r with tail := v } : Ring).settle = q at hu hsettle
  obtain ⟨hoff, k, hkept⟩ := kick_step hr (s.setRing r q)
  rw [State.ring_setRing_same _ _ _ hr, ← hu] at hkept
  rw [hsettle] at hkept
  refine ⟨⟨(congrArg Ring.tail hkept.offWork :), (congrArg Ring.head hkept.offWork :), (congrArg Ring.state hkept.offWork :)⟩, fun n hn => ?_, ?_⟩
  · rw [hu, kick_others hn, State.ring_setRing_ne _ _ _ _ hn]
  · rw [hu]
    exact hoff.trans (congrArg State.offHost (State.setRing_frame s r q) :)

/-! ### O11 -/

/-- Settles O11: the doorbell as it reaches the ring, by the check that refuses it or by the tail it moves. -/
theorem doorbellsAreChecked : Obligations.DoorbellsAreChecked := by
  refine ⟨fun s r v c hr hv hreach hwait hcause => ⟨_, exec_doorbell hr hv hreach hwait, ?_⟩, fun s r v hr hreach hwait hrun hsize hne hle => ?_⟩
  · have hreject : s.rung.doorbell r v = s.rung.dbReject r c := by
      rcases hcause with ⟨hoff, rfl⟩ | ⟨hon, hout, rfl⟩ | ⟨hon, hin, hback, rfl⟩ <;> rw [← State.rung_ring] at *
      · exact doorbell_off hoff
      · exact doorbell_outside hon hout
      · exact doorbell_back hon hin hback
    obtain ⟨hring, hothers, hsource⟩ := dbReject_marks hr s.rung c
    rw [hreject, ← State.rung_ring s r]
    refine ⟨hring, fun n hn => (hothers n hn).trans (s.rung_ring n), fun hfree => ?_⟩
    obtain ⟨hhtu, hpending, hdata⟩ := hsource ((congrArg (fun t : State => t.inService 194) s.rung_frame :).trans hfree)
    exact ⟨hhtu.trans (congrArg State.htu s.rung_frame :), hpending, hdata⟩
  · have hbound : (s.ring r).size ≤ 2 ^ 12 := Nat.pow_le_pow_right (by decide) (Nat.min_le_right _ _)
    have hmoves : s.rung.doorbell r v = (s.rung.setRing r ({ s.rung.ring r with tail := v } : Ring).settle).kick r := by
      rw [← State.rung_ring s r] at hrun hsize hne hle
      exact doorbell_moves (by rcases hrun with h | h <;> rw [h] <;> decide) hsize hle hne
    obtain ⟨⟨htail, hhead, hstate⟩, hothers, hoff⟩ := kick_moved hr (by rwa [State.rung_ring]) hmoves
    rw [State.rung_ring] at hhead hstate
    have hpwr : (s.rung.doorbell r v).pwr = s.rung.pwr := (congrArg State.pwr hoff :)
    have hframe {α : Type} (p : State → α) (h : ∀ t : State, p t.offHost = p t) (hs : p s.rung = p s) : p (s.rung.doorbell r v) = p s := by
      rw [← h, hoff, h, hs]
    refine ⟨_, exec_doorbell hr (by omega) hreach hwait, htail, hhead, hstate, fun n hn => ?_, hpwr ▸ s.rung_event,
      hframe State.fuses (fun _ => rfl) (congrArg State.fuses s.rung_frame :), hframe State.counters (fun _ => rfl) (congrArg State.counters s.rung_frame :),
      hframe State.host (fun _ => rfl) (congrArg State.host s.rung_frame :), hframe State.chips (fun _ => rfl) (congrArg State.chips s.rung_frame :)⟩
    rw [← State.rung_ring s n]
    exact ⟨(congrArg Ring.tail (hothers n hn) :), (congrArg Ring.head (hothers n hn) :), (congrArg Ring.state (hothers n hn) :)⟩

end Sys2Proof.Machine

/-! PROOFS. Completion records that are transmitted (O40): the ring they advance, the counter and the source they signal, and what
the steps after them leave. -/
namespace Sys2Proof.Machine

/-! ### The ring whose record has left -/

/-- A change of the work items leaves of a ring all but its item. -/
theorem State.mapItems_ring (s : State) (f : Work → Item → Item) (n : Nat) : ∃ x, (s.mapItems f).ring n = { s.ring n with item := x } := by
  refine List.foldlRecOn (motive := fun t : State => ∃ x, t.ring n = { s.ring n with item := x }) _ _ ⟨_, rfl⟩ ?_
  rintro t ⟨x, hx⟩ w -
  unfold State.modItem
  split
  · cases w with
    | ring m =>
      simp only [State.setItem, State.setRing]
      split
      · by_cases hm : n = m
        · subst hm
          rw [State.ring, tget_tput, if_pos rfl, hx]
          exact ⟨_, rfl⟩
        · rw [State.ring, tget_tput, if_neg hm]
          exact ⟨x, hx⟩
      · exact ⟨x, hx⟩
    | scan => exact ⟨x, hx⟩
    | free k => exact ⟨x, hx⟩
  · exact ⟨x, hx⟩
/-- The ring after its oldest record has left, with `rest` still to leave (R263, R266). -/
def Ring.sent (r : Ring) (rest : List CplRec) : Ring :=
  { r with cplQ := rest, head := (r.head + 1) % r.size, phase := if r.head + 1 = r.size then !r.phase else r.phase, doneCnt := (r.doneCnt + 1) % 2 ^ 32 }
/-- The pointers of `q` are those of `r` advanced by one. -/
structure Ring.Advanced (r q : Ring) : Prop where
  head : q.head = (r.head + 1) % r.size
  doneCnt : q.doneCnt = (r.doneCnt + 1) % 2 ^ 32
  tail : q.tail = r.tail
  phase : q.phase = if r.head + 1 = r.size then !r.phase else r.phase
  undrained : q.state ≠ .draining
theorem Ring.sent_advanced {r : Ring} (h : r.state = .active) (rest : List CplRec) : r.Advanced (r.sent rest).settle := by
  rw [Ring.settle_of_running (r := r.sent rest) (.inr h)]
  exact ⟨rfl, rfl, rfl, rfl, by dsimp only; split <;> decide⟩
theorem Ring.Advanced.of_offWork {r q p : Ring} (h : r.Advanced q) (hp : p.offWork = q.offWork) : r.Advanced p where
  head := (congrArg Ring.head hp :).trans h.head
  doneCnt := (congrArg Ring.doneCnt hp :).trans h.doneCnt
  tail := (congrArg Ring.tail hp :).trans h.tail
  phase := (congrArg Ring.phase hp :).trans h.phase
  undrained := by
    have hstate : p.state = q.state := (congrArg Ring.state hp :)
    rw [hstate]
    exact h.undrained
theorem Ring.Advanced.of_item {r q : Ring} {x : Option Item} (h : Ring.Advanced { r with item := x } q) : r.Advanced q :=
  ⟨h.head, h.doneCnt, h.tail, h.phase, h.undrained⟩
theorem Ring.Advanced.kick {r : Ring} {n : Nat} (hn : n < 512) {s : State} (h : r.Advanced (s.ring n)) : r.Advanced ((s.kick n).ring n) := by
  obtain ⟨-, k, hkept⟩ := kick_step hn s
  exact .of_offWork (q := { s.ring n with fetchOut := k }) ⟨h.head, h.doneCnt, h.tail, h.phase, h.undrained⟩ hkept.offWork

/-! ### The counter and the source that a completion signals (R268, R276) -/

/-- SIGNAL in a descriptor's header: its counter grows by 1. -/
def State.signalled (s : State) (c : CplRec) : State :=
  match c.signal with
  | some k => s.synOp k { rank := c.engine + 1, add := true, val := 1, mask := 0 }
  | none => s
theorem State.synOp_frame (s : State) (k : Nat) (o : SynOp) :
    { s.synOp k o with counters := s.counters, rings := s.rings, scan := s.scan, hub := s.hub } = s := by
  have hset : { s.setCounter k ((s.counter k).change s.now o) with counters := s.counters } = s := by
    unfold State.setCounter; split <;> rfl
  have hmap := State.mapItems_frame (s.setCounter k ((s.counter k).change s.now o))
  refine (congrArg (fun t : State => { t with counters := s.counters, rings := s.rings, scan := s.scan, hub := s.hub }) (hmap _)).trans ?_
  exact (congrArg (fun t : State => { t with rings := s.rings, scan := s.scan, hub := s.hub }) hset :)
theorem State.signalled_frame (s : State) (c : CplRec) :
    { s.signalled c with counters := s.counters, rings := s.rings, scan := s.scan, hub := s.hub } = s := by
  unfold State.signalled
  split
  · exact s.synOp_frame _ _
  · rfl
theorem RingsKept.signalled (s : State) (c : CplRec) : RingsKept s (s.signalled c) := by
  unfold State.signalled
  split
  · exact RingsKept.trans (.of_rings (by simp)) (.mapItems _ _)
  · exact .refl s
/-- The counter named grows by 1, and no other changes; a number that no counter has changes none. -/
theorem State.signalled_counter {s : State} {c : CplRec} (h : ∀ n, c.signal = some n → (s.counter n).cycle ≠ s.now) (n : Nat) :
    ((s.signalled c).counter n).val = if c.signal = some n ∧ n < 4096 then (s.counter n).val + 1 else (s.counter n).val := by
  unfold State.signalled
  cases hc : c.signal with
  | none => simp
  | some k =>
    by_cases hk : k < 4096
    · simp only [State.counter_synOp hk]
      by_cases hn : n = k
      · subst hn
        simp [Counter.change_val (.inl (h n hc)), SynOp.apply, hk]
      · simp [hn, Ne.symm hn]
    · have hsame : (s.synOp k { rank := c.engine + 1, add := true, val := 1, mask := 0 }).counters = s.counters :=
        (State.mapItems_counters _ _).trans (by rw [State.setCounter, if_neg hk])
      have hnone : ¬ (some k = some n ∧ n < 4096) := by rintro ⟨h, hn⟩; exact hk (Option.some.inj h ▸ hn)
      simp only [if_neg hnone, State.counter, hsame]

/-! ### The steps after the record -/

/-- From `s` to `t` host memory, the counters and what a reboot hangs on are as they were, and pending sources stay pending. -/
structure Carried (s t : State) : Prop where
  host : t.host = s.host
  counters : t.counters = s.counters
  boot : t.boot = s.boot
  lcs : t.lcs = s.lcs
  pending : ∀ n, (s.src n).pending = true → (t.src n).pending = true
theorem Carried.refl (s : State) : Carried s s := ⟨rfl, rfl, rfl, rfl, fun _ h => h⟩
theorem Carried.trans {s t u : State} (h : Carried s t) (k : Carried t u) : Carried s u where
  host := k.host.trans h.host
  counters := k.counters.trans h.counters
  boot := k.boot.trans h.boot
  lcs := k.lcs.trans h.lcs
  pending n hn := k.pending n (h.pending n hn)
theorem HostFrame.carried {s t : State} (h : HostFrame s t) : Carried s t :=
  ⟨(congrArg State.host h.off :), (congrArg State.counters h.off :), (congrArg State.boot h.off :), (congrArg State.lcs h.off :), h.pending⟩
theorem State.mapItems_carried (s : State) (f : Work → Item → Item) : Carried s (s.mapItems f) := by
  have h := s.mapItems_frame f
  have hcar : (s.mapItems f).car = s.car := (congrArg State.car h :)
  exact ⟨(congrArg State.host h :), (congrArg State.counters h :), (congrArg State.boot h :), (congrArg State.lcs h :), fun n hn => by rwa [State.src, hcar]⟩
theorem State.kick_carried (s : State) (n : Nat) : Carried s (s.kick n) := by
  have hfetch : Carried s (s.fetchMore n) := by
    have h := offHost_fetchMore s n
    have hcar : (s.fetchMore n).car = s.car := by
      unfold State.fetchMore State.setRing
      dsimp only
      split
      · split <;> rfl
      · rfl
    exact ⟨(congrArg State.host h :), (congrArg State.counters h :), (congrArg State.boot h :), (congrArg State.lcs h :), fun n hn => by rwa [State.src, hcar]⟩
  exact hfetch.trans (pump_step _).toHostFrame.carried

/-- The counter and the notification source of a record of ring `n`, whose source is `224 + notify`. -/
def State.cplNoted (s : State) (c : CplRec) (notify n : Nat) : State :=
  if c.notify then (s.signalled c).activate (224 + notify) n else s.signalled c
theorem State.cplNoted_carried (s : State) (c : CplRec) (notify n : Nat) : Carried (s.signalled c) (s.cplNoted c notify n) := by
  unfold State.cplNoted
  split
  · exact (OwnerStep.activate (ow := .fetch 0) _ _ _).toHostFrame.carried
  · exact Carried.refl _
theorem RingsKept.cplNoted (s : State) (c : CplRec) (notify n : Nat) : RingsKept s (s.cplNoted c notify n) := by
  unfold State.cplNoted
  split
  · exact (RingsKept.signalled s c).trans (.of_rings (State.activate_rings _ _ _))
  · exact .signalled s c
/-- FENCEs see the completion of ring `n`, and its next descriptor starts. -/
def State.cplFollowed (s : State) (n : Nat) : State := (s.fenceNote n false).promote n
theorem State.cplFollowed_carried (s : State) (n : Nat) : Carried s (s.cplFollowed n) :=
  (s.mapItems_carried _).trans (OwnerStep.promote _ n).toHostFrame.carried
theorem State.cplFollowed_offWork (s : State) (n : Nat) : ((s.cplFollowed n).ring n).offWork = (s.ring n).offWork :=
  ((OwnerStep.promote (s.fenceNote n false) n).ring n).offWork.trans ((RingsKept.mapItems s _).offWork n)

/-! ### COMPLETION_TRANSMITTED -/

section
variable {s : State} {r p k : Nat} {o : HostOp} {c : CplRec} {rest : List CplRec}

theorem exec_completionTransmitted (hf : s.fastRun = true) (r : Nat) : exec (.completionTransmitted r) s = .next (s.cplSent r) :=
  congrArg Host.Outcome.next (if_pos hf)
theorem transmit_queued (hphase : o.phase = .queued p k) : s.transmit o = (s.landed o.id p o.data).invalidateCheck := by
  simp only [State.transmit, hphase]
  rfl
/-- A record's bytes reach host memory: the ring is as it was beside its item, and so is what its completion signals. -/
theorem transmit_leaves (hphase : o.phase = .queued p k) (n : Nat) : (∃ x, (s.transmit o).ring n = { s.ring n with item := x }) ∧
    { s.transmit o with host := s.host, htu := s.htu, rings := s.rings, scan := s.scan, hub := s.hub } = s ∧
    (s.transmit o).host = mwrite s.host p o.data := by
  rw [transmit_queued hphase]
  have hframe := (s.landed o.id p o.data).invalidateCheck_frame
  exact ⟨(s.landed o.id p o.data).mapItems_ring _ n, (congrArg (fun t : State => { t with host := s.host, htu := s.htu }) hframe :),
    (congrArg State.host hframe :)⟩
/-- The state after a record of ring `n` has left and what it signals has been signalled. -/
def State.cplPassed (s : State) (n : Nat) (o : HostOp) (c : CplRec) (rest : List CplRec) : State :=
  ((s.transmit o).setRing n (((s.transmit o).ring n).sent rest).settle).cplNoted c ((s.transmit o).ring n).notify n
theorem cplSent_passes (hfirst : s.htu.firstWrite = some o) (hcpl : o.cpl = true) (howner : o.owner = .item (.ring r))
    (hq : ((s.transmit o).ring r).cplQ = c :: rest) :
    s.cplSent r = ((((s.cplPassed r o c rest).cplFollowed r).settleDrain r).kick r).scrapCheck := by
  simp only [State.cplSent, hfirst, hcpl, howner, hq, and_self, if_true]
  rfl
variable (hr : r < 512) (hphase : o.phase = .queued p k)
include hr hphase

theorem cplPassed_ring (hactive : (s.ring r).state = .active) : (s.ring r).Advanced ((s.cplPassed r o c rest).ring r) := by
  obtain ⟨⟨x, hx⟩, -, -⟩ := transmit_leaves (s := s) hphase r
  refine .of_offWork ?_ ((RingsKept.cplNoted _ _ _ _).offWork r)
  rw [State.ring_setRing_same _ _ _ hr]
  refine .of_item (x := x) ?_
  rw [← hx]
  exact Ring.sent_advanced (by rw [hx]; exact hactive) rest
omit hr in
/-- What the record signals, and nothing else beside host memory. -/
theorem cplPassed_signals (hsig : ∀ n, c.signal = some n → (s.counter n).cycle ≠ s.now) :
    (s.cplPassed r o c rest).host = mwrite s.host p o.data ∧ (s.cplPassed r o c rest).boot = s.boot ∧ (s.cplPassed r o c rest).lcs = s.lcs ∧
      (∀ n, ((s.cplPassed r o c rest).counter n).val = if c.signal = some n ∧ n < 4096 then (s.counter n).val + 1 else (s.counter n).val) ∧
      (c.notify = true → (s.ring r).notify < 32 → s.inService (224 + (s.ring r).notify) = false →
        ((s.cplPassed r o c rest).src (224 + (s.ring r).notify)).pending = true) := by
  obtain ⟨⟨x, hx⟩, hframe, hhost⟩ := transmit_leaves (s := s) hphase r
  have hnotify : ((s.transmit o).ring r).notify = (s.ring r).notify := by rw [hx]
  generalize hu : (s.transmit o).setRing r (((s.transmit o).ring r).sent rest).settle = u
  have hset := (s.transmit o).setRing_frame r (((s.transmit o).ring r).sent rest).settle
  rw [hu] at hset
  have hleft : { u with host := s.host, htu := s.htu, rings := s.rings, scan := s.scan, hub := s.hub } = s :=
    (congrArg (fun t : State => { t with host := s.host, htu := s.htu, rings := s.rings, scan := s.scan, hub := s.hub }) hset).trans hframe
  have hpassed : s.cplPassed r o c rest = u.cplNoted c (s.ring r).notify r := by rw [State.cplPassed, hu, hnotify]
  have hsignalled := u.signalled_frame c
  obtain ⟨chost, ccounters, cboot, clcs, -⟩ := u.cplNoted_carried c (s.ring r).notify r
  have hcounter (n : Nat) : u.counter n = s.counter n := (congrArg (fun t : State => t.counter n) hleft :)
  rw [hpassed]
  refine ⟨?_, ?_, ?_, fun n => ?_, fun hn _ hfree => ?_⟩
  · exact chost.trans ((congrArg State.host hsignalled :).trans ((congrArg State.host hset :).trans hhost))
  · exact cboot.trans ((congrArg State.boot hsignalled :).trans (congrArg State.boot hleft :))
  · exact clcs.trans ((congrArg State.lcs hsignalled :).trans (congrArg State.lcs hleft :))
  · have hnow : u.now = s.now := (congrArg State.now hleft :)
    rw [State.counter, ccounters]
    refine (State.signalled_counter (s := u) (fun m hm => ?_) n).trans (by rw [hcounter])
    rw [hcounter, hnow]
    exact hsig m hm
  · have hservice : (u.signalled c).inService (224 + (s.ring r).notify) = false :=
      (congrArg (fun t : State => t.inService (224 + (s.ring r).notify)) hsignalled :).trans
        ((congrArg (fun t : State => t.inService (224 + (s.ring r).notify)) hleft :).trans hfree)
    rw [State.cplNoted, if_pos hn]
    exact State.activate_pending (by omega) hservice r
end

/-! ### O40 -/

/-- Settles O40: the ring that the record leaves, what it signals, and that the steps after it carry both. -/
theorem completionsAdvanceTheHead : Obligations.CompletionsAdvanceTheHead := by
  intro s r o p k c rest hr hf hfirst hcpl howner hphase hq hactive hboot hlcs hsig
  obtain ⟨⟨x, hx⟩, -, -⟩ := transmit_leaves (s := s) hphase r
  have hsent := cplSent_passes hfirst hcpl howner (by rw [hx]; exact hq)
  have hpassed := cplPassed_ring (c := c) (rest := rest) hr hphase hactive
  obtain ⟨ghost, gboot, glcs, gcounter, gpending⟩ := cplPassed_signals (r := r) (rest := rest) hphase hsig
  generalize s.cplPassed r o c rest = u at *
  have hfollowed : (s.ring r).Advanced ((u.cplFollowed r).ring r) := hpassed.of_offWork (u.cplFollowed_offWork r)
  have hcarried := (u.cplFollowed_carried r).trans (State.kick_carried _ r)
  have hsettled : (u.cplFollowed r).settleDrain r = u.cplFollowed r := if_neg fun h => hfollowed.undrained h.1
  obtain ⟨chost, ccounters, cboot, clcs, cpending⟩ := hcarried
  rw [hsettled, scrapCheck_of_notOwed (by rw [clcs, glcs, hlcs]) (by rw [cboot, gboot, hboot])] at hsent
  obtain ⟨hhead, hdone, htail, hflip, -⟩ := hfollowed.kick hr
  refine ⟨_, (exec_completionTransmitted hf r).trans (congrArg _ hsent), chost.trans ghost, hhead, hdone, htail, hflip, fun n => ?_,
    fun hn hlt hfree => cpending _ (gpending hn hlt hfree)⟩
  rw [State.counter, ccounters]
  exact gcounter n

end Sys2Proof.Machine

/-! PROOFS. The HTU enabled, disabled and resolved (O37): the writes of its registers, what moving operations leaves of its set-up,
what a fault leaves in the log and of its owner, and how an owner that is resumed or aborted goes on. -/
namespace Sys2Proof.Machine

/-! ### The writes of HTU_CTRL and HTU_RESOLVE (Tables 10.6, 10.7) -/

@[simp] theorem State.linked_htu (s : State) : s.linked.htu = s.htu := by rw [State.linked_frame]
theorem State.linked_host (s : State) : s.linked.host = s.host := by rw [State.linked_frame]
theorem State.linked_chips (s : State) : s.linked.chips = s.chips := by rw [State.linked_frame]
theorem State.linked_item? (s : State) (w : Work) : s.linked.item? w = s.item? w := by rw [State.linked_frame]; cases w <;> rfl
section
variable {s : State} {off m v : Nat} (h : s.serves off = true) (hm : regMask off = some m) (ha : off % 4 = 0) (hv : v < 2 ^ 32) (hr : v &&& m = v)
include h hm ha hv hr
theorem hostWrite_htu (hl : 0x6000 ≤ off) (hb : off < 0x8000) : s.hostWrite off 4 v = .next (htuWrite s.linked (off - 0x6000) v) := by
  rw [hostWrite_of_serves h ha (by unfold bar2; omega) hm hv hr]
  unfold State.bar0Write
  rw [if_neg (by simp [served0_of_serves h])]
  repeat rw [if_neg (by omega)]
  rw [if_pos hb]
end
theorem exec_htuEnable {s : State} (h : s.serves 0x6000 = true) : exec .htuEnable s = .next s.linked.htuEnable :=
  hostWrite_htu (v := 1) h rfl rfl (by decide) rfl (by decide) (by decide)
theorem exec_htuDisable {s : State} (h : s.serves 0x6000 = true) : exec .htuDisable s = .next s.linked.htuDisable :=
  hostWrite_htu (v := 0) h rfl rfl (by decide) rfl (by decide) (by decide)

/-- The word of HTU_RESOLVE that names entry `n` in generation `gen`. -/
def resolveWord (n gen : Nat) (abort : Bool) : Nat := packed 0 [(n, 0, 6), (gen, 8, 8), (b2n abort, 16, 1)]
theorem resolveWord_ascending (n gen : Nat) (abort : Bool) : Ascending 0 [(n, 0, 6), (gen, 8, 8), (b2n abort, 16, 1)] := by simp [Ascending]
/-- Its reserved bits are 0. -/
theorem resolveWord_writable (n gen : Nat) (abort : Bool) : resolveWord n gen abort < 2 ^ 32 ∧ resolveWord n gen abort &&& 0x1FF3F = resolveWord n gen abort := by
  have hword : resolveWord n gen abort = n % 2 ^ 6 + gen % 2 ^ 8 * 2 ^ 8 + b2n abort % 2 * 2 ^ 16 := by
    simp [resolveWord, packed, place, Nat.shiftLeft_eq]
  generalize resolveWord n gen abort = v at hword
  have hhigh : (v &&& 0x1FF3F) / 2 ^ 8 = v / 2 ^ 8 := by rw [Nat.and_div_two_pow]; exact and_lowMask_of_lt (n := 9) (by omega)
  have hlow : (v &&& 0x1FF3F) % 2 ^ 8 = v % 2 ^ 8 := by rw [Nat.and_mod_two_pow]; exact and_lowMask_of_lt (n := 6) (by omega)
  omega
/-- A served write of HTU_RESOLVE, and what may wait for the owner that goes on. -/
theorem hostWrite_resolve {s : State} {n gen : Nat} (hn : n < 64) (hg : gen < 256) (h : s.serves 0x6010 = true) (abort : Bool) :
    s.hostWrite 0x6010 4 (resolveWord n gen abort) = .next (s.linked.resolve n gen abort).sleepCheck.scrapCheck := by
  have hfields : fld (resolveWord n gen abort) 0 6 = n ∧ fld (resolveWord n gen abort) 8 8 = gen ∧ bit (resolveWord n gen abort) 16 = abort := by
    have hasc := resolveWord_ascending n gen abort
    refine ⟨(fld_packed one_pos hasc (by simp)).trans (Nat.mod_eq_of_lt hn), (fld_packed one_pos hasc (by simp)).trans (Nat.mod_eq_of_lt hg),
      bit_packed one_pos hasc (by simp)⟩
  obtain ⟨hentry, hgen, habort⟩ := hfields
  obtain ⟨hlt, hmask⟩ := resolveWord_writable n gen abort
  rw [hostWrite_htu h rfl rfl hlt hmask (by decide) (by decide)]
  simp only [htuWrite, hentry, hgen, habort]
  rfl
/-! ### What moving operations leaves of the HTU's set-up -/

/-- The HTU apart from its operations, its fault log and its statistics. -/
def Htu.setup (h : Htu) : Htu := { h with ops := [], nextOrder := 0, log := [], parked := [], hits := 0, misses := 0, faults := 0, seq := 0 }
theorem Activated.htu {s t : State} (h : Activated s t) : ∃ ops, t.htu = { s.htu with ops := ops } := by
  obtain ⟨_, ops, rfl⟩ := h
  exact ⟨ops, rfl⟩
theorem OffWork.htu {s t : State} (h : OffWork s t) : t.htu = s.htu := (congrArg State.htu h.frame :)
theorem State.ctxPark_htu (s : State) (w : Work) (on : Bool) : (s.ctxPark w on).htu = s.htu :=
  List.foldlRecOn (motive := fun t : State => t.htu = s.htu) _ _ rfl fun t ht n _ => by
    dsimp only
    split_ifs <;> simpa using ht
@[simp] theorem State.parkOwner_htu (s : State) (o : Owner) (on : Bool) : (s.parkOwner o on).htu = s.htu := by
  unfold State.parkOwner
  split
  · next w =>
    have hpark := (State.ctxPark_htu (s.updItem w (fun i => { i with parked := on })) w on).trans (s.updItem_offWork w _).htu
    dsimp only
    split
    · exact (State.endStrokesOf_offWork _ w).htu.trans hpark
    · exact hpark
  · exact State.setQueue_htu ..
  · rfl
theorem State.requestVector_htu (s : State) (n : Nat) : (s.requestVector n).htu = s.htu := by
  unfold State.requestVector; split <;> rfl
/-- A fault record as entry `n` of the log holds it (R296, Table 10.8). -/
def Htu.logged (h : Htu) (n : Nat) (r : Fault192) : Fault192 := { r with gen := ((h.entry n).gen + 1) % 256, parked := true }
/-- The state with owner `ow` parked and its fault in entry `n`. -/
def State.withFault (s : State) (n : Nat) (ow : Owner) (r : Fault192) : State :=
  { s with htu := { s.htu with log := tput {} s.htu.log n (s.htu.logged n r), parked := s.htu.parked ++ [(ow, some n, s.htu.logged n r)] } }
/-- A fault that is logged raises source 192 (R297). -/
theorem State.logFault_of_free {s : State} {n : Nat} (h : s.htu.freeEntry = some n) (ow : Owner) (r : Fault192) :
    ∃ data, (s.logFault ow r).htu = ((s.withFault n ow r).activate 192 data).htu := by
  unfold State.logFault
  simp only [h]
  split
  · rw [State.requestVector_htu]
    exact ⟨_, rfl⟩
  · exact ⟨_, rfl⟩
theorem State.logFault_of_full {s : State} (h : s.htu.freeEntry = none) (ow : Owner) (r : Fault192) :
    s.logFault ow r = { s with htu := { s.htu with parked := s.htu.parked ++ [(ow, none, r)] } } := by simp only [State.logFault, h]
theorem State.logFault_setup (s : State) (ow : Owner) (r : Fault192) : (s.logFault ow r).htu.setup = s.htu.setup := by
  cases h : s.htu.freeEntry with
  | none => rw [State.logFault_of_full h]; rfl
  | some n =>
    obtain ⟨data, hdata⟩ := State.logFault_of_free h ow r
    obtain ⟨ops, hops⟩ := ((s.withFault n ow r).activate_activated 192 data).htu
    rw [hdata, hops]; rfl
/-- The operations that a fault leaves the HTU. -/
theorem State.holdFault_htu (s : State) (o : HostOp) : ∃ ops, (s.holdFault o).htu = { s.htu with ops := ops } := by
  unfold State.holdFault
  split
  · exact ⟨_, (congrArg State.htu (State.modItem_frame _ _ _) :)⟩
  · exact ⟨_, rfl⟩
/-- A fault is its owner's parking and its record's place in the log (R295, R296). -/
theorem State.faultOp_eq (s : State) (o : HostOp) (cause level : Nat) (hit : Bool) : ∃ (u : State) (r : Fault192),
    s.faultOp o cause level hit = (u.parkOwner o.owner true).logFault o.owner r ∧
      u.htu = { (s.holdFault o).htu with faults := u.htu.faults, seq := u.htu.seq } ∧ u.item? = (s.holdFault o).item? ∧
      r.cause = cause ∧ r.addr = o.addr := by
  refine ⟨_, _, rfl, rfl, ?_, rfl, rfl⟩
  funext w
  cases w <;> rfl
theorem State.faultOp_setup (s : State) (o : HostOp) (cause level : Nat) (hit : Bool) : (s.faultOp o cause level hit).htu.setup = s.htu.setup := by
  obtain ⟨u, r, hfault, hhtu, -⟩ := s.faultOp_eq o cause level hit
  obtain ⟨ops, hops⟩ := s.holdFault_htu o
  rw [hfault, State.logFault_setup, State.parkOwner_htu, hhtu, hops]
  rfl
theorem State.recordQueued_htu (s : State) (n : Nat) : (s.recordQueued n).htu = s.htu := by
  have hpromote (u : State) : (u.promote n).htu = u.htu := by
    unfold State.promote
    dsimp only
    split
    · split
      · exact State.setRing_htu ..
      · rfl
    · rfl
  unfold State.recordQueued
  dsimp only
  split
  · split
    · rw [hpromote, State.setRing_htu]
    · rfl
  · rfl
theorem State.queueOp_setup (s : State) (o : HostOp) (phys : Nat) (page : Option Nat) : (s.queueOp o phys page).htu.setup = s.htu.setup := by
  unfold State.queueOp
  dsimp only
  split
  · rw [State.recordQueued_htu]; rfl
  · rfl
/-- An operation that finds the TLB empty goes as far as it can without a hit. -/
theorem State.translate_setup {s : State} (h : s.htu.tlb = []) (id : Nat) : (s.translate id).htu.setup = s.htu.setup := by
  unfold State.translate
  split
  · rfl
  split
  · dsimp only
    split
    · rfl
    split
    · split
      · exact State.queueOp_setup ..
      · rfl
    split
    · exact State.faultOp_setup ..
    split
    · exact State.faultOp_setup ..
    split
    · next hhit => rw [h] at hhit; cases hhit
    · split <;> rfl
  · split <;> rfl
  · rfl
theorem State.pump_setup {s : State} (h : s.htu.tlb = []) : s.pump.htu.setup = s.htu.setup :=
  List.foldlRecOn (motive := fun t : State => t.htu.setup = s.htu.setup) _ _ rfl fun _ ht id _ =>
    (State.translate_setup ((congrArg Htu.tlb ht :).trans h) id).trans ht

/-! ### Operations that stay where they are -/

/-- With no operation but parked ones there is none that moves. -/
theorem State.pump_of_parked {s : State} (h : ∀ o ∈ s.htu.ops, o.phase = .parked) : s.pump = s :=
  List.foldlRecOn (motive := fun t : State => t = s) _ _ rfl fun _ ht id _ => by
    subst ht
    unfold State.translate
    split
    · rfl
    · next o ho => rw [h o (List.mem_of_find?_eq_some ho)]
theorem State.pump_of_noOps {s : State} (h : s.htu.ops = []) : s.pump = s := by simp [State.pump, h]
theorem State.pump_of_one {s : State} {o : HostOp} (h : s.htu.ops = [o]) : s.pump = s.translate o.id := by simp [State.pump, h]

/-! ### A fault's operation and its record (R295, R296) -/

theorem State.activate_noOps {s : State} (h : s.htu.ops = []) (n data : Nat) : (s.activate n data).htu.ops = [] :=
  List.eq_nil_iff_forall_not_mem.mpr fun q hq => by
    obtain ⟨p, hp, -⟩ := (OwnerStep.activate (ow := .fetch 0) s n data).ids q hq
    simp [h] at hp
/-- An activation joined by a parked record leaves it parked. -/
theorem State.activate_parked {s : State} (h : ∀ o ∈ s.htu.ops, o.phase = .parked) (n data : Nat) : ∀ o ∈ (s.activate n data).htu.ops, o.phase = .parked := by
  have hjudge (u : State) : (u.judgeReady n).htu = u.htu := by
    unfold State.judgeReady
    dsimp only
    split
    · exact State.setSrc_htu ..
    · rfl
  unfold State.activate State.activateAt
  dsimp only
  split
  · split
    · unfold State.joinRecord
      simp only [State.setSrc_htu]
      split
      · next q _ o ho =>
        intro p hp
        obtain ⟨x, hx, rfl⟩ := List.mem_map.mp hp
        split
        · exact h o (List.mem_filter.mp (List.mem_of_getLast? ho)).1
        · exact h x (by simpa using hx)
      · simpa using h
    · simpa using h
  · simpa [hjudge] using h
theorem State.logFault_parked {s : State} (h : ∀ o ∈ s.htu.ops, o.phase = .parked) (ow : Owner) (r : Fault192) :
    ∀ o ∈ (s.logFault ow r).htu.ops, o.phase = .parked := by
  cases hfree : s.htu.freeEntry with
  | none => rw [State.logFault_of_full hfree]; exact h
  | some n =>
    obtain ⟨data, hdata⟩ := State.logFault_of_free hfree ow r
    rw [hdata]
    exact State.activate_parked (s := s.withFault n ow r) h 192 data
/-- The only operation there is faults before it has entered the endpoint: it is parked, or back with its owner. -/
theorem State.holdFault_parked {s : State} {o : HostOp} (h : s.htu.ops = [o]) (ho : o.isQueued = false) : ∀ q ∈ (s.holdFault o).htu.ops, q.phase = .parked := by
  unfold State.holdFault
  split
  · next w _ hw _ =>
    intro q hq
    have hops : q ∈ s.htu.ops.filter (fun p => !(p.owner == o.owner && decide (o.id ≤ p.id) && !p.isQueued)) :=
      (congrArg (fun t : State => q ∈ t.htu.ops) (State.modItem_frame _ _ _)).mp hq
    simp [h, ho] at hops
  · simp [State.setOp, h]
theorem State.faultOp_parked {s : State} {o : HostOp} (h : s.htu.ops = [o]) (ho : o.isQueued = false) (cause level : Nat) (hit : Bool) :
    ∀ q ∈ (s.faultOp o cause level hit).htu.ops, q.phase = .parked := by
  obtain ⟨u, r, hfault, hhtu, -⟩ := s.faultOp_eq o cause level hit
  rw [hfault]
  refine State.logFault_parked ?_ _ _
  rw [State.parkOwner_htu, hhtu]
  exact State.holdFault_parked h ho
/-- A fault that finds an entry free is in it (R296). -/
theorem State.faultOp_logged {s : State} {n : Nat} (h : s.htu.freeEntry = some n) (o : HostOp) (cause level : Nat) (hit : Bool) :
    ((s.faultOp o cause level hit).htu.entry n).cause = cause ∧ ((s.faultOp o cause level hit).htu.entry n).addr = o.addr ∧
      ((s.faultOp o cause level hit).htu.entry n).parked = true := by
  obtain ⟨u, r, hfault, hhtu, -, hcause, haddr⟩ := s.faultOp_eq o cause level hit
  obtain ⟨ops, hops⟩ := s.holdFault_htu o
  have hfree : (u.parkOwner o.owner true).htu.freeEntry = some n := by rw [State.parkOwner_htu, hhtu, hops]; exact h
  obtain ⟨data, hdata⟩ := State.logFault_of_free hfree o.owner r
  obtain ⟨ops', hops'⟩ := ((State.withFault _ n o.owner r).activate_activated 192 data).htu
  rw [hfault, hdata, hops', Htu.entry]
  simp only [State.withFault, tget_tput_self]
  exact ⟨hcause, haddr, rfl⟩

/-! ### The owner's work item -/

/-- Work item `i` but for what it waits for and when it became eligible. -/
def Item.SameButWait (i j : Item) : Prop := ∃ v e, j = { i with wait := v, eligAt := e }
theorem Item.SameButWait.refl (i : Item) : i.SameButWait i := ⟨_, _, rfl⟩
theorem Item.SameButWait.trans {i j k : Item} (h : i.SameButWait j) (g : j.SameButWait k) : i.SameButWait k := by
  obtain ⟨_, _, rfl⟩ := h
  obtain ⟨v, e, rfl⟩ := g
  exact ⟨v, e, rfl⟩
theorem Item.SameButWait.mark (now : Nat) (i j : Item) : j.SameButWait (Item.mark now i j) := by
  unfold Item.mark; split <;> exact ⟨_, _, rfl⟩
theorem State.item?_updItem {s : State} {w : Work} {i : Item} (hr : ∀ n, w = .ring n → n < 512) (hi : s.item? w = some i) (f : Item → Item) :
    ∃ j, (s.updItem w f).item? w = some j ∧ (f i).SameButWait j :=
  ⟨_, by rw [State.updItem_of_item hi]; exact State.item?_setItem hr hi, .mark _ _ _⟩
theorem State.item?_modItem {s : State} {w : Work} {i : Item} (hr : ∀ n, w = .ring n → n < 512) (hi : s.item? w = some i) (f : Item → Item) :
    (s.modItem w f).item? w = some (f i) := by
  simp only [State.modItem, hi]
  exact State.item?_setItem hr hi
/-- A change of a work item that leaves it the same but for its wait. -/
theorem State.item?_modItem_sameButWait {s : State} {w v : Work} {i j : Item} (hr : ∀ n, w = .ring n → n < 512) (hj : s.item? w = some j)
    (hij : i.SameButWait j) {f : Item → Item} (hf : ∀ i : Item, i.SameButWait (f i)) : ∃ k, (s.modItem v f).item? w = some k ∧ i.SameButWait k := by
  by_cases hv : w = v
  · subst hv
    exact ⟨_, State.item?_modItem hr hj f, hij.trans (hf j)⟩
  · refine ⟨j, ?_, hij⟩
    unfold State.modItem
    split
    · rw [item_setItem_ne _ _ hv, hj]
    · exact hj
/-- A SLEEP that goes on keeps its item, and so do the others (R114). -/
theorem State.item?_sleepCheck {s : State} {w : Work} {i : Item} (hr : ∀ n, w = .ring n → n < 512) (hi : s.item? w = some i) :
    ∃ j, s.sleepCheck.item? w = some j ∧ i.SameButWait j := by
  refine List.foldlRecOn (motive := fun t : State => ∃ j, t.item? w = some j ∧ i.SameButWait j) _ _ ⟨i, hi, .refl i⟩ ?_
  rintro t ⟨j, hj, hij⟩ v -
  refine State.item?_modItem_sameButWait hr hj hij fun i => ?_
  dsimp only
  split
  · exact .trans ⟨_, _, rfl⟩ (.mark _ _ _)
  · exact .refl i
theorem State.item?_endStrokesOf {s : State} {w : Work} {i : Item} (hr : ∀ n, w = .ring n → n < 512) (hi : s.item? w = some i) :
    ∃ j, (s.endStrokesOf w).item? w = some j ∧ i.SameButWait j := by
  refine List.foldlRecOn (motive := fun t : State => ∃ j, t.item? w = some j ∧ i.SameButWait j) _ _ ⟨i, hi, .refl i⟩ ?_
  rintro t ⟨j, hj, hij⟩ e -
  split
  · next he =>
    simp only [State.endStroke, he]
    refine State.item?_modItem_sameButWait hr (by simpa using hj) hij fun i => ?_
    split
    · exact ⟨_, _, rfl⟩
    · exact .refl i
  · exact ⟨j, hj, hij⟩
/-- An owner that parks or goes on keeps its item's work (R295). -/
theorem State.item?_parkOwner {s : State} {w : Work} {i : Item} (hr : ∀ n, w = .ring n → n < 512) (hi : s.item? w = some i) (on : Bool) :
    ∃ j, (s.parkOwner (.item w) on).item? w = some j ∧ ({ i with parked := on } : Item).SameButWait j := by
  obtain ⟨j, hj, hij⟩ := State.item?_updItem hr hi (fun i => { i with parked := on })
  have hctx : ((s.updItem w (fun i => { i with parked := on })).ctxPark w on).item? w = some j :=
    ((OwnerStep.ctxPark (ow := .fetch 0) _ w on).item w (by simp)).trans hj
  simp only [State.parkOwner]
  split
  · obtain ⟨k, hk, hjk⟩ := State.item?_endStrokesOf hr hctx
    exact ⟨k, hk, hij.trans hjk⟩
  · exact ⟨j, hctx, hij⟩
/-- A work item whose operation faults parks (R295). -/
theorem State.faultOp_parksItem {s : State} {o : HostOp} {w : Work} {i : Item} (ho : o.owner = .item w) (hr : ∀ n, w = .ring n → n < 512)
    (hi : s.item? w = some i) (cause level : Nat) (hit : Bool) : ∃ j, (s.faultOp o cause level hit).item? w = some j ∧ j.parked = true := by
  have hhold : ∃ j, (s.holdFault o).item? w = some j := by
    simp only [State.holdFault, ho]
    split
    · next hw _ =>
      cases hw
      exact ⟨_, State.item?_modItem hr (by cases w <;> exact hi) _⟩
    · exact ⟨i, by cases w <;> exact hi⟩
  obtain ⟨u, r, hfault, -, hitem, -⟩ := s.faultOp_eq o cause level hit
  obtain ⟨j, hj⟩ := hhold
  obtain ⟨k, hk, hjk⟩ := State.item?_parkOwner hr ((congrFun hitem w).trans hj) true
  rw [hfault, ho, (OwnerStep.logFault (ow := .fetch 0) _ _ _).item w (by simp)]
  obtain ⟨_, _, rfl⟩ := hjk
  exact ⟨_, hk, rfl⟩
/-- An item that is aborted issues nothing further, and ends with TRANSLATION_FAULT unless it serves a dump (Table 10.4). -/
theorem State.item?_killItem {s : State} {w : Work} {i : Item} (hr : ∀ n, w = .ring n → n < 512) (hi : s.item? w = some i) :
    ∃ j, (s.killItem w .translationFault).item? w = some j ∧ j.parked = i.parked ∧ j.out = i.out ∧
      (i.isDump = false → j.dead = true ∧ j.errs = i.errs ++ [.translationFault]) := by
  obtain ⟨j, hj, v, e, rfl⟩ : ∃ j, (s.killItem w .translationFault).item? w = some j ∧ _ := State.item?_updItem hr hi _
  refine ⟨_, hj, ?_⟩
  dsimp only
  split
  · next hdump => exact ⟨rfl, rfl, fun h => by simp [h] at hdump⟩
  · exact ⟨rfl, rfl, fun _ => ⟨rfl, rfl⟩⟩

/-! ### What owners and sleepers that go on leave as it was -/

@[simp] theorem State.sleepCheck_htu (s : State) : s.sleepCheck.htu = s.htu := s.sleepCheck_offWork.htu
@[simp] theorem State.sleepCheck_host (s : State) : s.sleepCheck.host = s.host := (congrArg State.host s.sleepCheck_offWork.frame :)
@[simp] theorem State.sleepCheck_chips (s : State) : s.sleepCheck.chips = s.chips := (congrArg State.chips s.sleepCheck_offWork.frame :)
theorem State.offHost_updItem (s : State) (w : Work) (f : Item → Item) : (s.updItem w f).offHost = s.offHost := by
  unfold State.updItem State.modItem
  split
  · exact State.offHost_setItem ..
  · rfl
theorem State.offHost_setOp (s : State) (o : HostOp) : (s.setOp o).offHost = s.offHost := rfl
theorem State.offHost_dropUnqueued (s : State) (w : Work) : (s.dropUnqueued (.item w)).offHost = s.offHost := by
  unfold State.dropUnqueued
  dsimp only
  rw [State.offHost_updItem]
  rfl

/-! ### Enable and disable (R305) -/

/-- The HTU that HTU_CTRL.ENABLE starts: its TLB empty and its statistics 0. -/
def Htu.started (h : Htu) : Htu := { h with enabled := true, tlb := [], hits := 0, misses := 0, faults := 0, seq := 0 }
/-- The HTU that HTU_CTRL.ENABLE stops. -/
def Htu.stopped (h : Htu) : Htu := { h with enabled := false, tlb := [] }
theorem htuEnable_of_enabled {s : State} (h : s.htu.enabled = true) : s.htuEnable = s := if_pos h
theorem htuEnable_of_disabled {s : State} (h : s.htu.enabled = false) : s.htuEnable = State.pump { s with htu := s.htu.started } := by
  simp only [State.htuEnable, h]
  rfl
/-- What becomes of one operation when the HTU is disabled. -/
def State.cutWalk (s : State) (id : Nat) : State :=
  match s.htu.ops.find? (fun p => p.id == id) with
  | some o => (match o.phase with
      | .walk _ _ false _ => s.faultOp o 4 0xF false
      | .walk l a true _ => s.setOp { o with phase := .walk l a true 3 }
      | _ => s)
  | none => s
/-- What becomes of every operation. -/
def State.cutWalks (s : State) : State := (s.htu.ops.map (·.id)).foldl State.cutWalk s
theorem htuDisable_eq (s : State) : s.htuDisable = (State.cutWalks { s with htu := s.htu.stopped }).pump := rfl
theorem State.cutWalk_step (s : State) (id : Nat) : (s.cutWalk id).htu.setup = s.htu.setup ∧ (s.cutWalk id).offHost = s.offHost := by
  unfold State.cutWalk
  split
  · split
    · exact ⟨s.faultOp_setup .., (OwnerStep.faultOp s _ _ _ _).off⟩
    · exact ⟨rfl, rfl⟩
    · exact ⟨rfl, rfl⟩
  · exact ⟨rfl, rfl⟩
theorem State.cutWalks_step (s : State) : s.cutWalks.htu.setup = s.htu.setup ∧ s.cutWalks.offHost = s.offHost :=
  List.foldlRecOn (motive := fun t : State => t.htu.setup = s.htu.setup ∧ t.offHost = s.offHost) _ _ ⟨rfl, rfl⟩ fun t ht id _ =>
    ⟨(t.cutWalk_step id).1.trans ht.1, (t.cutWalk_step id).2.trans ht.2⟩
theorem htuEnable_sets {s : State} (h : s.htu.enabled = false) : s.htuEnable.htu.setup = s.htu.started.setup ∧ s.htuEnable.offHost = s.offHost := by
  rw [htuEnable_of_disabled h]
  exact ⟨State.pump_setup (by rfl), (pump_step _).off⟩
theorem htuDisable_sets (s : State) : s.htuDisable.htu.setup = s.htu.stopped.setup ∧ s.htuDisable.offHost = s.offHost := by
  obtain ⟨hsetup, hoff⟩ := State.cutWalks_step { s with htu := s.htu.stopped }
  rw [htuDisable_eq]
  exact ⟨(State.pump_setup (congrArg Htu.tlb hsetup :)).trans hsetup, (pump_step _).off.trans hoff⟩
/-- With no operation that is all. -/
theorem htuEnable_noOps {s : State} (h : s.htu.enabled = false) (hops : s.htu.ops = []) : s.htuEnable = { s with htu := s.htu.started } := by
  rw [htuEnable_of_disabled h, State.pump_of_noOps (by exact hops)]
theorem htuDisable_noOps {s : State} (hops : s.htu.ops = []) : s.htuDisable = { s with htu := s.htu.stopped } := by
  have hnone : State.cutWalks { s with htu := s.htu.stopped } = { s with htu := s.htu.stopped } := by
    simp [State.cutWalks, Htu.stopped, hops]
  rw [htuDisable_eq, hnone, State.pump_of_noOps (by exact hops)]
/-- A walk that waits for a read to be issued faults with cause DISABLED. -/
theorem htuDisable_waiting {s : State} {o : HostOp} {l a d : Nat} (hops : s.htu.ops = [o]) (hphase : o.phase = .walk l a false d) :
    s.htuDisable = State.faultOp { s with htu := s.htu.stopped } o 4 0xF false := by
  have hcut : State.cutWalks { s with htu := s.htu.stopped } = State.faultOp { s with htu := s.htu.stopped } o 4 0xF false := by
    simp [State.cutWalks, State.cutWalk, Htu.stopped, hops, hphase]
  have hparked := State.faultOp_parked (s := { s with htu := s.htu.stopped }) hops (by simp [HostOp.isQueued, hphase]) 4 0xF false
  rw [htuDisable_eq, hcut, State.pump_of_parked hparked]
theorem htuDisable_parks {s : State} {o : HostOp} {l a d : Nat} {w : Work} {i : Item} (hops : s.htu.ops = [o]) (hphase : o.phase = .walk l a false d)
    (ho : o.owner = .item w) (hr : ∀ n, w = .ring n → n < 512) (hi : s.item? w = some i) (hfree : s.htu.freeEntry ≠ none) :
    ∃ j n, s.htuDisable.item? w = some j ∧ j.parked = true ∧ n < 64 ∧ (s.htuDisable.htu.entry n).cause = 4 ∧
      (s.htuDisable.htu.entry n).addr = o.addr ∧ (s.htuDisable.htu.entry n).parked = true := by
  obtain ⟨n, hn⟩ := Option.ne_none_iff_exists'.mp hfree
  have hlt : n < 64 := List.mem_range.mp (List.mem_of_find?_eq_some hn)
  obtain ⟨j, hj, hparked⟩ := State.faultOp_parksItem (s := { s with htu := s.htu.stopped }) ho hr (by cases w <;> exact hi) 4 0xF false
  obtain ⟨hcause, haddr, hentry⟩ := State.faultOp_logged (s := { s with htu := s.htu.stopped }) hn o 4 0xF false
  rw [htuDisable_waiting hops hphase]
  exact ⟨j, n, hj, hparked, hlt, hcause, haddr, hentry⟩

/-! ### Resolves (R298, Table 10.4) -/

/-- A resolve of an entry that is not parked, or of another generation, is STALE (R298). -/
theorem resolve_stale {s : State} {n gen : Nat}
    (h : (∀ p ∈ s.htu.parked, p.2.1 ≠ some n) ∨ (s.htu.entry n).parked = false ∨ (s.htu.entry n).gen ≠ gen) (abort : Bool) :
    s.resolve n gen abort = { s with htu := { s.htu with stale := true } } := by
  unfold State.resolve
  dsimp only
  split
  · next p hp =>
    refine if_neg ?_
    rcases h with hnone | hparked | hgen
    · exact absurd (by simpa using List.find?_some hp) (hnone _ (List.mem_of_find?_eq_some hp))
    · simp [hparked]
    · simp [hgen]
  · rfl
/-- The state with entry `n` free and its owner's fault forgotten. -/
def State.unlogged (s : State) (n : Nat) : State :=
  { s with htu := { s.htu with log := tput {} s.htu.log n { s.htu.entry n with parked := false }, parked := [] } }
/-- The state in which the owner `ow` of entry `n` goes on. -/
def State.unparked (s : State) (n : Nat) (ow : Owner) : State := (s.unlogged n).parkOwner ow false
theorem State.unparked_htu (s : State) (n : Nat) (ow : Owner) : (s.unparked n ow).htu = (s.unlogged n).htu := State.parkOwner_htu ..
theorem State.unparked_offHost (s : State) (n : Nat) (ow : Owner) : (s.unparked n ow).offHost = s.offHost :=
  (OwnerStep.parkOwner (s.unlogged n) ow false).off
theorem State.unlogged_entry (s : State) (n : Nat) : ((s.unlogged n).htu.entry n).parked = false := by
  simp only [State.unlogged, Htu.entry, tget_tput_self]
theorem parkedOp_unparked (s : State) (n : Nat) (ow : Owner) : (s.unparked n ow).parkedOp ow = s.parkedOp ow := by
  simp only [State.parkedOp, State.unparked_htu]; rfl
theorem State.item?_unparked {s : State} {w : Work} {i : Item} (hr : ∀ n, w = .ring n → n < 512) (hi : s.item? w = some i) (n : Nat) :
    ∃ j, (s.unparked n (.item w)).item? w = some j ∧ ({ i with parked := false } : Item).SameButWait j :=
  State.item?_parkOwner hr (by cases w <;> exact hi) false

section
variable {s : State} {n gen : Nat} {ow : Owner} {r : Fault192} (hparked : s.htu.parked = [(ow, some n, r)])
include hparked

/-- No other owner waits for the entry that is freed. -/
theorem freeEntry_of_one : s.freeEntry ow = s.unlogged n := by
  simp [State.freeEntry, hparked, State.logWaiting, State.unlogged]
theorem unpark_of_one : (s.freeEntry ow).parkOwner ow false = s.unparked n ow := by rw [freeEntry_of_one hparked]; rfl
theorem resumeOwner_bare (hop : s.parkedOp ow = none) : s.resumeOwner ow = s.unparked n ow := by
  rw [← parkedOp_unparked s n ow] at hop
  simp only [State.resumeOwner, unpark_of_one hparked, hop]
theorem resumeOwner_op {o : HostOp} (hop : s.parkedOp ow = some o) : s.resumeOwner ow = ((s.unparked n ow).setOp { o with phase := .wait }).pump := by
  rw [← parkedOp_unparked s n ow] at hop
  simp only [State.resumeOwner, unpark_of_one hparked, hop]
variable (he : (s.htu.entry n).parked = true) (hg : (s.htu.entry n).gen = gen)
include he hg
theorem resolve_accepted (abort : Bool) : s.resolve n gen abort = if abort then (s.abortOwner ow).pump else s.resumeOwner ow := by
  simp [State.resolve, hparked, he, hg]
end

/-- Ring `r` stalled by a completion record that is not written. -/
def Ring.stalledByRecord (r : Ring) : Ring := { r with item := none, state := .stalled, cplLost := true }
theorem stall_record {s : State} {n : Nat} (hn : n < 512) (h : (s.ring n).state = .active) :
    ((s.setRing n { s.ring n with item := none }).stall n 2).ring n = (s.ring n).stalledByRecord := by
  have hactive : ¬ ((s.ring n).state = .draining ∨ (s.ring n).state = .disabled) := by simp [h]
  simp only [State.stall, State.ringErr, State.ring_setRing_same _ _ _ hn]
  rw [State.ring, State.activate_rings]
  refine (State.ring_setRing_same _ _ _ hn).trans ?_
  simp [hactive, Ring.stalledByRecord]
theorem stall_noOps {s : State} (h : s.htu.ops = []) (n flag : Nat) : (s.stall n flag).htu = s.htu ∧ (s.stall n flag).offHost = s.offHost := by
  have hring (r : Ring) : (s.setRing n r).htu = s.htu := State.setRing_htu ..
  have hoff (r : Ring) : (s.setRing n r).offHost = s.offHost := by unfold State.setRing; split <;> rfl
  unfold State.stall State.ringErr
  extract_lets r st r'
  have hops : ((s.setRing n r').activate 194 (n + 2 ^ (16 + flag))).htu.ops = [] := State.activate_noOps (by rw [hring]; exact h) _ _
  obtain ⟨ops, hact⟩ := (State.activate_activated (s.setRing n r') 194 (n + 2 ^ (16 + flag))).htu
  refine ⟨?_, (OwnerStep.activate (ow := .fetch 0) _ _ _).off.trans (hoff r')⟩
  rw [hact] at hops
  have hnil : ops = [] := hops
  rw [hact, hnil, hring, ← h]
/-- An owner with no operation has none to drop. -/
theorem dropUnqueued_noOps {s : State} (hops : s.htu.ops = []) (w : Work) : s.dropUnqueued (.item w) = s.updItem w id := by
  have hsame : ({ s with htu := { s.htu with ops := [] } } : State) = s := by rw [← hops]
  simp only [State.dropUnqueued, hops, List.filter_nil, hsame]
  rfl

/-- An owner whose one operation has not entered the endpoint drops it. -/
theorem dropUnqueued_of_one {s : State} {o : HostOp} {w : Work} (hops : s.htu.ops = [o]) (ho : o.owner = .item w) (hq : o.isQueued = false) :
    (s.dropUnqueued (.item w)).htu = { s.htu with ops := [] } := by
  refine ((State.updItem_offWork _ w _).htu).trans ?_
  simp [hops, ho, hq]
theorem parkedOp_of_one {s : State} {o : HostOp} {w : Work} (hops : s.htu.ops = [o]) (ho : o.owner = .item w) (hphase : o.phase = .parked) :
    s.parkedOp (.item w) = some o := by simp [State.parkedOp, hops, ho, hphase]
/-- An operation that is alone and finds the TLB empty starts its walk at the root (R291). -/
theorem translate_walks {s : State} {o : HostOp} (hops : s.htu.ops = [o]) (hphase : o.phase = .wait) (hstage : s.boot.stage ≠ 5)
    (hen : s.htu.enabled = true) (haddr : o.addr < 2 ^ 48) (htlb : s.htu.tlb = []) :
    ∃ out, (s.translate o.id).htu = { s.htu with misses := satAdd s.htu.misses 1 32
                                                 ops := [{ o with phase := .walk 3 (s.htu.root + 8 * levelIndex o.addr 3) out 0 }] } := by
  have hbehind : s.heldBehind o = false := by simp [State.heldBehind, hops]
  have hwalk : s.htu.walkFree o.reserved = true := by
    have hwalks : s.htu.walks = 0 := by simp [Htu.walks, hops, HostOp.isWalking, hphase]
    rw [Htu.walkFree, hwalks]
    cases o.reserved <;> rfl
  have hreach : ¬ 281474976710656 ≤ o.addr := by omega
  refine ⟨s.htu.readFree o.reserved, ?_⟩
  simp [State.translate, hops, hphase, hbehind, hstage, hen, hreach, htlb, hwalk, State.setOp]

section
variable {s : State} {n gen : Nat} {w : Work} {r : Fault192} (hparked : s.htu.parked = [(.item w, some n, r)])
  (he : (s.htu.entry n).parked = true) (hg : (s.htu.entry n).gen = gen)
include hparked he hg

section
variable (hops : s.htu.ops = [])
include hops
/-- A work item that took its operation back only goes on. -/
theorem resume_item : s.resolve n gen false = s.unparked n (.item w) := by
  have hop : s.parkedOp (.item w) = none := by simp [State.parkedOp, hops]
  rw [resolve_accepted hparked he hg, if_neg (by decide), resumeOwner_bare hparked hop]
/-- An item that is aborted is killed. -/
theorem abort_item : s.resolve n gen true = ((s.unparked n (.item w)).updItem w id).killItem w .translationFault := by
  have hop : s.parkedOp (.item w) = none := by simp [State.parkedOp, hops]
  have hnone : (s.unparked n (.item w)).htu.ops = [] := (congrArg Htu.ops (s.unparked_htu n _)).trans hops
  have habort : s.abortOwner (.item w) = ((s.unparked n (.item w)).dropUnqueued (.item w)).killItem w .translationFault := by
    simp only [State.abortOwner, hop, unpark_of_one hparked, Bool.false_eq_true, if_false]
    cases w <;> rfl
  have hkill := (State.updItem_offWork (s.unparked n (.item w)) w id).trans (State.killItem_offWork _ w .translationFault)
  rw [resolve_accepted hparked he hg, if_pos rfl, habort, dropUnqueued_noOps hnone, State.pump_of_noOps (by rw [hkill.htu]; exact hnone)]
end

section
variable {o : HostOp} {k : Nat} (hops : s.htu.ops = [o]) (ho : o.owner = .item w) (hphase : o.phase = .parked)
include hops ho hphase

/-- The record's translation starts anew (R298). -/
theorem resume_record (hen : s.htu.enabled = true) (hstage : s.boot.stage ≠ 5) (haddr : o.addr < 2 ^ 48) (htlb : s.htu.tlb = []) :
    ∃ out, (s.resolve n gen false).htu = { (s.unlogged n).htu with
      misses := satAdd s.htu.misses 1 32, ops := [{ o with phase := .walk 3 (s.htu.root + 8 * levelIndex o.addr 3) out 0 }] } ∧
      (s.resolve n gen false).offHost = s.offHost := by
  generalize hu : (s.unparked n (.item w)).setOp { o with phase := .wait } = u
  have hhtu : u.htu = { (s.unlogged n).htu with ops := [{ o with phase := .wait }] } := by
    simp [← hu, State.setOp, State.unparked_htu, State.unlogged, hops]
  have hoff : u.offHost = s.offHost := by rw [← hu, State.offHost_setOp, State.unparked_offHost]
  have hboot : u.boot = s.boot := (congrArg State.boot hoff :)
  obtain ⟨out, hwalk⟩ := translate_walks (s := u) (o := { o with phase := .wait }) (congrArg Htu.ops hhtu) rfl (by rwa [hboot])
    ((congrArg Htu.enabled hhtu).trans hen) haddr ((congrArg Htu.tlb hhtu).trans htlb)
  have hresume : s.resolve n gen false = u.translate o.id := by
    rw [resolve_accepted hparked he hg, if_neg (by decide), resumeOwner_op hparked (parkedOp_of_one hops ho hphase), hu,
      State.pump_of_one (congrArg Htu.ops hhtu)]
  rw [hresume]
  exact ⟨out, hwalk.trans (by rw [hhtu]; rfl), (translate_step u o.id).off.trans hoff⟩
/-- The record is not written, and its ring stalls (Table 10.4). -/
theorem abort_record (hcpl : o.cpl = true) (hk : k < 512) (hactive : (s.ring k).state = .active) (hw : w = .ring k) :
    (s.resolve n gen true).htu = { (s.unlogged n).htu with ops := [] } ∧ (s.resolve n gen true).offHost = s.offHost ∧
      ∃ q : Ring, q.offWork = (s.ring k).offWork ∧ (s.resolve n gen true).ring k = q.stalledByRecord := by
  subst hw
  have hqueued : o.isQueued = false := by simp [HostOp.isQueued, hphase]
  generalize hv : (s.unparked n (.item (.ring k))).dropUnqueued (.item (.ring k)) = v
  have hown : (s.unparked n (.item (.ring k))).htu.ops = [o] := (congrArg Htu.ops (s.unparked_htu n _)).trans hops
  have hhtu : v.htu = { (s.unlogged n).htu with ops := [] } := by
    rw [← hv, dropUnqueued_of_one hown ho hqueued, State.unparked_htu]
  have hoff : v.offHost = s.offHost := by rw [← hv, State.offHost_dropUnqueued, State.unparked_offHost]
  have hring : (v.ring k).offWork = (s.ring k).offWork := by
    have hkept : RingsKept s (s.unparked n (.item (.ring k))) := RingsKept.trans (.of_rings (t := s.unlogged n) rfl) (.parkOwner _ _ _)
    rw [← hv]
    exact (hkept.trans (.dropUnqueued _ _)).offWork k
  have hrun : (v.ring k).state = .active := (congrArg Ring.state hring :).trans hactive
  have habort : s.abortOwner (.item (.ring k)) = (v.setRing k { v.ring k with item := none }).stall k 2 := by
    simp only [State.abortOwner, parkedOp_of_one hops ho hphase, hcpl, unpark_of_one hparked, hv, hrun]
    rfl
  obtain ⟨hstallHtu, hstallOff⟩ := stall_noOps (s := v.setRing k { v.ring k with item := none }) (by rw [State.setRing_htu, hhtu]) k 2
  rw [State.setRing_htu, hhtu] at hstallHtu
  rw [resolve_accepted hparked he hg, if_pos rfl, habort, State.pump_of_noOps (congrArg Htu.ops hstallHtu)]
  exact ⟨hstallHtu, hstallOff.trans ((congrArg State.offHost (State.setRing_frame v k _) :).trans hoff), _, hring, stall_record hk hrun⟩
end
end

theorem htuCtrl_write {s : State} (h : s.serves 0x6000 = true) :
    (s.htu.enabled = true → exec .htuEnable s = .next s.linked) ∧
    (s.htu.enabled = false → s.htu.ops = [] → exec .htuEnable s = .next { s.linked with htu := s.htu.started }) ∧
    (s.htu.enabled = false →
      ∃ t, exec .htuEnable s = .next t ∧ t.htu.enabled = true ∧ t.htu.root = s.htu.root ∧ t.htu.tlb = [] ∧ t.host = s.host ∧ t.chips = s.chips) ∧
    (s.htu.ops = [] → exec .htuDisable s = .next { s.linked with htu := s.htu.stopped }) ∧
    (∃ t, exec .htuDisable s = .next t ∧ t.htu.enabled = false ∧ t.htu.tlb = [] ∧ t.htu.root = s.htu.root ∧ t.host = s.host ∧ t.chips = s.chips) := by
  rw [exec_htuEnable h, exec_htuDisable h, ← s.linked_htu, ← s.linked_host, ← s.linked_chips]
  generalize s.linked = u
  refine ⟨fun hon => by rw [htuEnable_of_enabled hon], fun hoff hops => by rw [htuEnable_noOps hoff hops], fun hoff => ?_,
    fun hops => by rw [htuDisable_noOps hops], ?_⟩
  · obtain ⟨hsetup, hrest⟩ := htuEnable_sets hoff
    exact ⟨_, rfl, (congrArg Htu.enabled hsetup :), (congrArg Htu.root hsetup :), (congrArg Htu.tlb hsetup :), (congrArg State.host hrest :),
      (congrArg State.chips hrest :)⟩
  · obtain ⟨hsetup, hrest⟩ := htuDisable_sets u
    exact ⟨_, rfl, (congrArg Htu.enabled hsetup :), (congrArg Htu.tlb hsetup :), (congrArg Htu.root hsetup :), (congrArg State.host hrest :),
      (congrArg State.chips hrest :)⟩

section
variable {s : State} {n gen : Nat} (hn : n < 64) (hg : gen < 256) (h : s.serves 0x6010 = true) (hl : s.lcs.scrapReboot = false)
  (hb : s.boot.recoveryReboot = false)
include hn hg h hl hb

/-- A write of HTU_RESOLVE that no reboot waits for. -/
theorem hostWrite_resolve_bare {abort : Bool} (hoff : (s.linked.resolve n gen abort).offHost = s.linked.offHost) :
    s.hostWrite 0x6010 4 (resolveWord n gen abort) = .next (s.linked.resolve n gen abort).sleepCheck := by
  have hsleep := (s.linked.resolve n gen abort).sleepCheck_offWork.frame
  have hlcs : (s.linked.resolve n gen abort).sleepCheck.lcs = s.linked.lcs := (congrArg State.lcs hsleep :).trans (congrArg State.lcs hoff :)
  have hboot : (s.linked.resolve n gen abort).sleepCheck.boot = s.linked.boot := (congrArg State.boot hsleep :).trans (congrArg State.boot hoff :)
  have hlinked : s.linked.lcs = s.lcs ∧ s.linked.boot = s.boot := by rw [State.linked_frame]; exact ⟨rfl, rfl⟩
  obtain ⟨hl', hb'⟩ := hlinked
  rw [hostWrite_resolve hn hg h, scrapCheck_of_notOwed (by rw [hlcs, hl', hl]) (by rw [hboot, hb', hb])]
theorem exec_htuResume (hoff : (s.linked.resolve n gen false).offHost = s.linked.offHost) :
    exec (.htuResume n gen) s = .next (s.linked.resolve n gen false).sleepCheck := by
  rw [← hostWrite_resolve_bare hn hg h hl hb hoff]
  simp [exec, execHtuResume, resolveWord, packed, place, b2n]
theorem exec_htuAbort (hoff : (s.linked.resolve n gen true).offHost = s.linked.offHost) :
    exec (.htuAbort n gen) s = .next (s.linked.resolve n gen true).sleepCheck := by
  rw [← hostWrite_resolve_bare hn hg h hl hb hoff]
  simp [exec, execHtuAbort, resolveWord, packed, place, b2n]
end

section
variable {s : State} {n gen : Nat} {w : Work} {r : Fault192} (hparked : s.htu.parked = [(.item w, some n, r)])
  (he : (s.htu.entry n).parked = true) (hg : (s.htu.entry n).gen = gen)
include hparked he hg

section
variable {i : Item} (hops : s.htu.ops = []) (hr : ∀ k, w = .ring k → k < 512) (hi : s.item? w = some i)
include hops hr hi
/-- A resumed work item has before it all that it had (R295, R298). -/
theorem resume_item_settles : (s.resolve n gen false).offHost = s.offHost ∧ (s.resolve n gen false).htu = (s.unlogged n).htu ∧
    ∃ j, (s.resolve n gen false).sleepCheck.item? w = some j ∧ j.parked = false ∧ j.todo = i.todo ∧ j.out = i.out ∧ j.errs = i.errs := by
  obtain ⟨j, hj, hij⟩ := State.item?_unparked hr hi n
  obtain ⟨k, hk, hjk⟩ := State.item?_sleepCheck hr hj
  rw [resume_item hparked he hg hops]
  refine ⟨s.unparked_offHost n _, s.unparked_htu n _, k, hk, ?_⟩
  obtain ⟨_, _, rfl⟩ := hij.trans hjk
  exact ⟨rfl, rfl, rfl, rfl⟩
/-- An aborted work item ends with TRANSLATION_FAULT (Table 10.4). -/
theorem abort_item_settles : (s.resolve n gen true).offHost = s.offHost ∧ (s.resolve n gen true).htu = (s.unlogged n).htu ∧
    ∃ j, (s.resolve n gen true).sleepCheck.item? w = some j ∧ j.parked = false ∧ j.out = i.out ∧
      (i.isDump = false → j.dead = true ∧ j.errs = i.errs ++ [.translationFault]) := by
  obtain ⟨j, hj, hij⟩ := State.item?_unparked hr hi n
  obtain ⟨k, hk, hjk⟩ := State.item?_updItem hr hj id
  obtain ⟨l, hl, hkl⟩ := State.item?_killItem hr hk
  obtain ⟨m, hm, _, _, rfl⟩ := State.item?_sleepCheck hr hl
  obtain ⟨_, _, rfl⟩ := hij.trans hjk
  rw [abort_item hparked he hg hops]
  refine ⟨?_, ?_, _, hm, hkl⟩
  · rw [State.killItem, State.offHost_updItem, State.offHost_updItem, State.unparked_offHost]
  · rw [(State.killItem_offWork _ w _).htu, (State.updItem_offWork _ w id).htu, State.unparked_htu]
end

section
variable {o : HostOp} {k : Nat} (hops : s.htu.ops = [o]) (ho : o.owner = .item w) (hphase : o.phase = .parked) (hcpl : o.cpl = true) (hk : k < 512)
  (hactive : (s.ring k).state = .active) (hw : w = .ring k)
include hops ho hphase hcpl hk hactive hw
/-- The ring of a record that is not written is stalled, and no SLEEP that waits is its. -/
theorem abort_record_settles : ((s.resolve n gen true).sleepCheck.ring k).state = .stalled ∧ ((s.resolve n gen true).sleepCheck.ring k).cplLost = true ∧
    ((s.resolve n gen true).sleepCheck.ring k).item = none ∧ ((s.resolve n gen true).sleepCheck.ring k).head = (s.ring k).head := by
  obtain ⟨-, -, q, hq, hring⟩ := abort_record hparked he hg hops ho hphase hcpl hk hactive hw
  have hbare : (s.resolve n gen true).sleepCheck.ring k = q.stalledByRecord := ((RingsKept.mapItems _ _).bare k (by rw [hring]; rfl)).trans hring
  rw [hbare]
  exact ⟨rfl, rfl, rfl, (congrArg Ring.head hq :)⟩
end
end

/-! ### O37 -/

/-- Settles O37: HTU_CTRL by whether the HTU was enabled, HTU_RESOLVE by whether the entry is the one named and by what its owner was
about. -/
theorem translationControlAndResolve : Obligations.TranslationControlAndResolve := by
  refine ⟨fun s h => ?_, fun s n gen hn hgen h hl hb => ?_⟩
  · obtain ⟨hon, honIdle, hstart, hoffIdle, hstop⟩ := htuCtrl_write h
    refine ⟨hon, honIdle, hstart, hoffIdle, hstop, fun o l a d w i hops hphase ho hr hi hfree => ?_⟩
    rw [← s.linked_htu] at hops hfree
    rw [← s.linked_item?] at hi
    obtain ⟨j, m, hpark⟩ := htuDisable_parks hops hphase ho hr hi hfree
    exact ⟨_, j, m, exec_htuDisable h, hpark⟩
  rw [← s.linked_htu, ← s.linked_host, ← s.linked_chips]
  simp only [← s.linked_item?, ← s.linked_ring]
  have hresume := exec_htuResume hn hgen h hl hb
  have habort := exec_htuAbort hn hgen h hl hb
  have hboot : s.boot = s.linked.boot := by rw [State.linked_frame]
  rw [hboot]
  generalize s.linked = u at *
  refine ⟨fun hstale => ?_, fun r w i hparked he hg hops hr hi => ?_, fun r o k i hparked he hg hops ho hcpl hphase hk hi hactive => ?_⟩
  · have hmark := resolve_stale hstale
    refine ⟨_, hresume (by rw [hmark]; rfl), ?_, ?_⟩
    · rw [habort (by rw [hmark]; rfl), hmark, hmark]
    · rw [State.sleepCheck_htu, State.sleepCheck_host, State.sleepCheck_chips, hmark]
      exact ⟨rfl, rfl, rfl⟩
  · obtain ⟨hkoff, hkhtu, j, hj, hdead⟩ := abort_item_settles hparked he hg hops hr hi
    obtain ⟨hroff, hrhtu, l, hl, hsame, htodo, hout, herrs⟩ := resume_item_settles hparked he hg hops hr hi
    refine ⟨⟨_, j, habort hkoff, ?_⟩, ⟨_, l, hresume hroff, ?_⟩⟩
    · rw [State.sleepCheck_htu, hkhtu]
      exact ⟨hops, rfl, u.unlogged_entry n, hj, hdead⟩
    · rw [State.sleepCheck_htu, State.sleepCheck_host, hrhtu]
      exact ⟨hops, rfl, u.unlogged_entry n, hl, hsame, htodo, hout, herrs, (congrArg State.host hroff :)⟩
  · refine ⟨?_, fun hen hstage haddr htlb => ?_⟩
    · obtain ⟨hhtu, hoff, -⟩ := abort_record hparked he hg hops ho hphase hcpl hk hactive rfl
      refine ⟨_, habort hoff, ?_⟩
      rw [State.sleepCheck_htu, hhtu]
      exact ⟨rfl, rfl, u.unlogged_entry n, abort_record_settles hparked he hg hops ho hphase hcpl hk hactive rfl⟩
    · obtain ⟨out, hhtu, hoff⟩ := resume_record hparked he hg hops ho hphase hen hstage haddr htlb
      refine ⟨_, out, hresume hoff, ?_⟩
      rw [State.sleepCheck_htu, hhtu]
      exact ⟨rfl, u.unlogged_entry n, rfl⟩

end Sys2Proof.Machine

/-! PROOFS. Walk reads (O38): a state in which the fault of an event queue's own record changes the record that parks. -/
namespace Sys2Proof.Machine

/-! ### A record of source 192 that faults in the cycle of its selection -/

theorem exec_walkReadComplete {s : State} (hf : s.fastRun = true) (id entry : Nat) (err : Bool) :
    exec (.walkReadComplete id entry err) s = .next ((s.readError id !err).walkRead id entry err) := congrArg Host.Outcome.next (if_pos hf)
/-- Queue 0's record of source 192, its walk's read of the top level outstanding. -/
def selectedRecord : HostOp :=
  { id := 0, owner := .queue 0, ix := 0, write := true, addr := 0, len := 32, data := leBytes 2 192 ++ zeros 30, reserved := true, phase := .walk 3 0 true 0 }
/-- Queue 0 has taken source 192 into service in this hub cycle, and has issued the record. -/
def selecting192 : State :=
  { pwr := { pllLock := true }, boot := { stage := 4, fused := true }, car := { queues := [(0, { insvc := some 192, selAt := 1 })] }
    htu := { enabled := true, ops := [selectedRecord], nextId := 1 } }
/-- The walk reads an entry that is not present: the fault activates source 192 (R297), and the activation joins the record that
is being formed (Table 11.7), the one that has faulted. -/
theorem selecting192_joins : ∀ q ∈ (selecting192.walkRead selectedRecord.id 0 false).htu.ops, q.data ≠ selectedRecord.data := by decide +kernel

/-- Refutes O38: a queue's record of source 192 that faults in the cycle of its selection parks with the fault's own activation in
its data, so that the operation parked is not the one whose walk read completed. -/
theorem not_walksFollowTheTable : ¬ Obligations.WalksFollowTheTable := by
  intro h
  obtain ⟨-, -, -, hfault⟩ := h selecting192 selectedRecord 3 0 0 (by unfold State.numbered; decide +kernel) rfl (List.mem_singleton_self _) rfl rfl
    (by decide) (by decide +kernel)
  obtain ⟨t, n, hexec, hparked, -⟩ := hfault false 1 (by decide +kernel) (.inr (.inl ⟨rfl, rfl, rfl⟩))
  rw [exec_walkReadComplete rfl, Bool.not_false, readError_of_ok] at hexec
  cases hexec
  exact selecting192_joins _ (hparked (.inr fun w hw => by cases hw)) rfl

end Sys2Proof.Machine


/-! PROOFS. Steps (O1, O4, O6, O7): a step takes the command in front, every command answers a next state, and what is orderly of
it leaves the queue and the time and keeps the memories and the host operations sound. -/
namespace Sys2Proof.Machine

/-- Settles O1: the command in front of the queue is the one that the step finds. -/
theorem stepTakesTheFrontCommand : Obligations.StepTakesTheFrontCommand := fun _ _ _ => rfl

/-! ### Every command answers a next state (O7) -/

/-- The answer is a next state. -/
def Goes (o : Out) : Prop := ∃ t, o = .next t
theorem goes_next (t : State) : Goes (.next t) := ⟨t, rfl⟩
theorem Goes.ite {c : Prop} [Decidable c] {x y : Out} (hx : Goes x) (hy : Goes y) : Goes (if c then x else y) := by
  split
  · exact hx
  · exact hy

/-- A host write is discarded, held or applied. -/
theorem hostWrite_goes (s : State) (off size v : Nat) : Goes (s.hostWrite off size v) :=
  Goes.ite (goes_next _) (Goes.ite (goes_next _) (goes_next _))
/-- A host read is discarded, held or taken. -/
theorem hostRead_goes (s : State) (off size : Nat) : Goes (s.hostRead off size) :=
  Goes.ite (goes_next _) (Goes.ite (goes_next _) (goes_next _))
/-- A stroke is one of the descriptor served, or nothing happens. -/
theorem row_goes (s : State) (e op : Nat) (note : State → Work → Item → State) (adv : Advance) (rep : Report) :
    Goes (s.row e op note adv rep) := by
  unfold State.row
  split
  · exact goes_next _
  · exact goes_next _
/-- An access by DBGREG goes on where the access itself does. -/
theorem dbgAccess_goes {act : State → Out} (ha : ∀ s, Goes (act s)) (s : State) (off need : Nat) (wr : Bool) :
    Goes (s.dbgAccess off need wr act) := by
  refine Goes.ite (goes_next _) (Goes.ite (goes_next _) (Goes.ite (goes_next _) (Goes.ite (goes_next _) (Goes.ite (goes_next _) ?_))))
  split
  · exact goes_next _
  · exact ha _

/-- The access itself goes on. -/
theorem dbgGet_goes (off : Nat) (s : State) : Goes (s.dbgGet off) := ⟨_, by rw [State.dbgGet]⟩
theorem dbgPut_goes (off v : Nat) (s : State) : Goes (s.dbgPut off v) := ⟨_, by rw [State.dbgPut]⟩

/-- Host accesses, descriptors' strokes and DBGREG's accesses answer by what they are made of, and every other command's meaning
is a next state itself. -/
theorem exec_goes (c : Instr) (s : State) : Goes (exec c s) := by
  cases c
  case hiLatchRead => exact hostRead_goes ..
  case synReadLo => exact Goes.ite (hostRead_goes ..) (goes_next _)
  case reboot | registerWrite | hubStatClrStalls | hubStatClrYields | hubStatClrLatency | hubStatClrStrokes | nonceNew | htuEnable
      | htuDisable | htuResume | htuAbort | softTrig | traceDisable | toutFire | dumpDisable =>
    dsimp only [exec]
    exact hostWrite_goes ..
  case doorbell | ringEnable | ringDisable | synSet | synAdd | carPendSet | carPendClr | carQEoi | carQRecoverKeep | carQRecoverRelease
      | carQHead | carQEnable | carQDisable | carLineWrite => exact Goes.ite (hostWrite_goes ..) (goes_next _)
  case fwStage => exact Goes.ite (goes_next _) (row_goes ..)
  case nop | wait | signal | fence | peal | toll | muffle | resume | stepCore | stepEngine | breakSet | breakClear | cutCollect | readReg
      | writeReg | readMem | writeMem | installMonitor | discover | timeAlign | chainEnable | dumpPlan | dumpRun | dumpResume | dumpAbort
      | storeDrain | traceArm | traceStop | traceDrain | counterSnap | htuInvalidate | lcsRequest | certInstall | certDrop | sleep
      | dumpTensor | shardInvalidate => exact row_goes ..
  case dbgregRead => exact dbgAccess_goes (dbgGet_goes _) ..
  case dbgregWrite => exact dbgAccess_goes (dbgPut_goes _ _) ..
  all_goals exact goes_next _

/-- A command leaves the queue and the time as they are. -/
theorem exec_keeps_queue_and_time {c : Instr} {s t : State} (h : exec c s = .next t) : t.pending = s.pending ∧ t.now = s.now := by
  obtain ⟨hpending, hnow, -⟩ := exec_orderly c s t h
  exact ⟨hpending, hnow⟩

/-- Settles O7: every meaning is a next state, and being orderly it leaves the queue. -/
theorem everyCommandAnswersANextState : Obligations.EveryCommandAnswersANextState := by
  intro c s
  obtain ⟨t, h⟩ := exec_goes c s
  obtain ⟨hpending, -⟩ := exec_keeps_queue_and_time h
  exact ⟨t, h, hpending⟩

/-- Settles O6: every command is orderly. -/
theorem commandsLeaveTheQueueAndTime : Obligations.CommandsLeaveTheQueueAndTime := fun _ _ _ h => exec_keeps_queue_and_time h

/-! ### What a step keeps (O4) -/

/-- The memories and the host operations are sound in `t` where they are in `s`. -/
def KeepsSound (s t : State) : Prop := (s.memoriesWf → t.memoriesWf) ∧ (s.numbered → t.numbered)
theorem Orderly.keepsSound {s t : State} (h : Orderly s t) : KeepsSound s t := by
  obtain ⟨-, -, -, hmems, hops⟩ := h
  exact ⟨hmems, hops⟩
/-- A tick moves the time, which no memory and no operation is about, and what follows of it is orderly. -/
theorem tick_keepsSound (s : State) : KeepsSound s s.tick := by
  unfold State.tick
  extract_lets u v
  have hedge : Orderly u v := orderly_ite (State.aonTick_ord u (Orderly.refl u)) (Orderly.refl u)
  exact (State.rebootReset_ord v hedge).keepsSound

/-- Settles O4: the command in front is orderly, and so is what follows of a tick. -/
theorem stepsKeepMemoriesAndHostOperationsSound : Obligations.StepsKeepMemoriesAndHostOperationsSound := by
  intro s t h
  unfold step at h
  split at h
  · next c rest _ => exact (exec_orderly c { s with pending := rest } t h).keepsSound
  · cases h
    exact tick_keepsSound s

end Sys2Proof.Machine


/-! PROOFS. Activation rules (O13, O14, O16): what an activation writes to its source, and that sources are all that it changes. -/
namespace Sys2Proof.Machine

/-! ### What is written to a source -/

/-- The source with one activation more noted in its latch, before its readiness is judged (R315). -/
def Source.activated (v : Source) (cycle data t : Nat) : Source :=
  let w := { v with recent := { v.recent with actAt := cycle, acts := if v.recent.actAt = cycle then v.recent.acts + 1 else 1 } }
  if w.pending then { w with count := satAdd w.count 1 8, last := t, data := data }
  else { w with pending := true, count := 1, first := t, last := t, data := data }
/-- The source once its COUNT is judged by the queue that it is routed to (R316). -/
def State.countJudged (s : State) (v : Source) : Source :=
  if v.pending && (Nat.max (s.queue v.route).coalCount 1 ≤ v.count) then { v with ready := true, cause := v.cause ||| 1 } else v

section
variable (v : Source) (cycle data t : Nat)
@[simp] theorem Source.activated_pending : (v.activated cycle data t).pending = true := by
  unfold Source.activated; dsimp only; split
  · assumption
  · rfl
@[simp] theorem Source.activated_last : (v.activated cycle data t).last = t := by unfold Source.activated; dsimp only; split <;> rfl
@[simp] theorem Source.activated_data : (v.activated cycle data t).data = data := by unfold Source.activated; dsimp only; split <;> rfl
@[simp] theorem Source.activated_ovr : (v.activated cycle data t).ovr = v.ovr := by unfold Source.activated; dsimp only; split <;> rfl
@[simp] theorem Source.activated_lost : (v.activated cycle data t).lost = v.lost := by unfold Source.activated; dsimp only; split <;> rfl
end
section
variable (s : State) (v : Source)
@[simp] theorem State.countJudged_pending : (s.countJudged v).pending = v.pending := by unfold State.countJudged; split <;> rfl
@[simp] theorem State.countJudged_last : (s.countJudged v).last = v.last := by unfold State.countJudged; split <;> rfl
@[simp] theorem State.countJudged_data : (s.countJudged v).data = v.data := by unfold State.countJudged; split <;> rfl
@[simp] theorem State.countJudged_count : (s.countJudged v).count = v.count := by unfold State.countJudged; split <;> rfl
@[simp] theorem State.countJudged_ovr : (s.countJudged v).ovr = v.ovr := by unfold State.countJudged; split <;> rfl
@[simp] theorem State.countJudged_lost : (s.countJudged v).lost = v.lost := by unfold State.countJudged; split <;> rfl
end

/-! ### The writes of one source -/

theorem State.setSrc_setSrc (s : State) (n : Nat) (v w : Source) : (s.setSrc n v).setSrc n w = s.setSrc n w := by
  unfold State.setSrc
  split
  · simp only [tput_tput]
  · rfl
/-- A source judged as it is written. -/
theorem State.setSrc_judgeReady {n : Nat} (hn : n < 256) (s : State) (v : Source) : (s.setSrc n v).judgeReady n = s.setSrc n (s.countJudged v) := by
  unfold State.judgeReady State.countJudged
  simp only [State.src_setSrc_same s n v hn, State.queue_setSrc]
  split
  · exact State.setSrc_setSrc ..
  · rfl
/-- The activation of a source that is not in service. -/
theorem State.activateAt_idle {s : State} {n : Nat} (hn : n < 256) (h : s.inService n = false) (data t : Nat) :
    s.activateAt n data t = s.setSrc n (s.countJudged ((s.src n).activated (s.now + 1) data t)) := by
  rw [← State.setSrc_judgeReady hn]
  simp only [State.activateAt, h, Bool.false_eq_true, if_false]
  rfl

/-! ### Sources alone -/

/-- From `s` to `t` at most the Carillon's sources have changed. -/
def SourcesOnly (s t : State) : Prop := ∃ src, t = { s with car := { s.car with sources := src } }
theorem SourcesOnly.refl (s : State) : SourcesOnly s s := ⟨_, rfl⟩
theorem SourcesOnly.trans {s t u : State} (h : SourcesOnly s t) (k : SourcesOnly t u) : SourcesOnly s u := by
  obtain ⟨_, rfl⟩ := h
  obtain ⟨src, rfl⟩ := k
  exact ⟨src, rfl⟩
theorem State.setSrc_sourcesOnly (s : State) (n : Nat) (v : Source) : SourcesOnly s (s.setSrc n v) := by
  unfold State.setSrc
  split
  · exact ⟨_, rfl⟩
  · exact SourcesOnly.refl s
theorem State.activateAt_sourcesOnly {s : State} {n : Nat} (h : s.inService n = false) (data t : Nat) : SourcesOnly s (s.activateAt n data t) :=
  State.activateAt_free h data t
section
variable {s t : State} (h : SourcesOnly s t)
include h
theorem SourcesOnly.car_only : { t with car := s.car } = s := by obtain ⟨_, rfl⟩ := h; rfl
theorem SourcesOnly.queues : t.car.queues = s.car.queues := by obtain ⟨_, rfl⟩ := h; rfl
theorem SourcesOnly.lines : t.car.lines = s.car.lines := by obtain ⟨_, rfl⟩ := h; rfl
theorem SourcesOnly.queue (q : Nat) : t.queue q = s.queue q := by obtain ⟨_, rfl⟩ := h; rfl
theorem SourcesOnly.line (n : Nat) : t.line n = s.line n := by obtain ⟨_, rfl⟩ := h; rfl
theorem SourcesOnly.now : t.now = s.now := by obtain ⟨_, rfl⟩ := h; rfl
theorem SourcesOnly.time : t.time = s.time := by obtain ⟨_, rfl⟩ := h; rfl
end

end Sys2Proof.Machine

/-! PROOFS. Registers of the Carillon (O13, O15, O16): where the host's writes of its registers go, and what those of its sources
leave. -/
namespace Sys2Proof.Machine

/-! ### The registers (Tables 11.4 to 11.6) -/

theorem bar0Write_car {s : State} {off : Nat} (h0 : s.served0 off = true) (hl : 0x4000 ≤ off) (hb : off < 0x6000) (size v : Nat) :
    s.bar0Write off size v = carWrite s (off - 0x4000) v := by
  unfold State.bar0Write
  rw [if_neg (by simp [h0])]
  repeat rw [if_neg (by omega)]
  rw [if_pos hb]
theorem regMask_car {off : Nat} (hl : 0x4000 ≤ off) (hb : off < 0x5000) : regMask off = carMasks.mask (off % 0x1000) := by
  unfold regMask
  dsimp only
  repeat rw [if_neg (by omega)]
  rw [if_pos hb]
theorem regMask_queue {off : Nat} (hl : 0x5000 ≤ off) (hb : off < 0x6000) : regMask off = queueMasks.mask (off % 0x1000 % 0x40) := by
  unfold regMask
  dsimp only
  repeat rw [if_neg (by omega)]
  rw [if_pos hb]
/-- The registers of the sources' bits have no reserved bit. -/
theorem carMasks_bits {o : Nat} (hl : 0x40 ≤ o) (hb : o ≤ 0xFC) : carMasks.mask o = some full32 := by
  have h0 : ¬ (o ≤ 4) := by omega
  simp [carMasks, RegTable.mask, hl, hb, h0]
theorem carMasks_line {o : Nat} (hl : 0x200 ≤ o) (hb : o ≤ 0x27C) : carMasks.mask o = some 0x31F := by
  have h0 : ¬ (o ≤ 4) := by omega
  have h1 : ¬ (o ≤ 0xFC) := by omega
  have h2 : ¬ (o ≤ 0x1FC) := by omega
  simp [carMasks, RegTable.mask, hl, hb, h0, h1, h2]
theorem hostWrite_car {s : State} {off m v : Nat} (h : s.serves off = true) (hl : 0x4000 ≤ off) (hb : off < 0x6000) (ha : off % 4 = 0)
    (hm : regMask off = some m) (hv : v < 2 ^ 32) (hr : v &&& m = v) : s.hostWrite off 4 v = .next (carWrite s.linked (off - 0x4000) v) := by
  rw [hostWrite_of_serves h ha (by unfold bar2; omega) hm hv hr, bar0Write_car (served0_of_serves h) hl hb]
/-- The write of a register of queue `q`, at offset `o` of its block. -/
theorem hostWrite_queue {s : State} {q o m v : Nat} (hq : q < 64) (h : s.serves (0x5000 + o + 0x40 * q) = true) (ho : o < 0x40) (ha : o % 4 = 0)
    (hm : queueMasks.mask o = some m) (hv : v < 2 ^ 32) (hr : v &&& m = v) :
    s.hostWrite (0x5000 + o + 0x40 * q) 4 v = .next (queueWrite s.linked q o v) := by
  have hreg : (0x5000 + o + 0x40 * q) % 0x1000 % 0x40 = o := by omega
  have hoff : 0x5000 + o + 0x40 * q - 0x4000 = 0x1000 + o + 0x40 * q := by omega
  rw [hostWrite_car h (by omega) (by omega) (by omega) (by rw [regMask_queue (by omega) (by omega), hreg, hm]) hv hr, hoff]
  unfold carWrite
  dsimp only
  repeat rw [if_neg (by omega)]
  rw [if_pos (by omega), show (0x1000 + o + 0x40 * q - 0x1000) / 0x40 = q by omega, show (0x1000 + o + 0x40 * q) % 0x40 = o by omega]
section
variable {s : State} {m bits : Nat} (hm : m < 8) (hbits : bits < 2 ^ 32)
include hm hbits
theorem exec_carPendSet (h : s.serves (0x4040 + 4 * m) = true) : exec (.carPendSet m bits) s = .next (s.linked.eachSource m bits State.pendSet) := by
  have hmask : regMask (0x4040 + 4 * m) = some full32 := by rw [regMask_car (by omega) (by omega), carMasks_bits (by omega) (by omega)]
  refine (if_pos hm : execCarPendSet m bits s = _).trans ?_
  rw [hostWrite_car h (by omega) (by omega) (by omega) hmask hbits (and_lowMask_of_lt (n := 32) hbits)]
  unfold carWrite
  dsimp only
  rw [if_pos (by omega), show (0x4040 + 4 * m - 0x4000) % 0x20 / 4 = m by omega]
theorem exec_carPendClr (h : s.serves (0x4060 + 4 * m) = true) : exec (.carPendClr m bits) s = .next (s.linked.eachSource m bits State.pendClr) := by
  have hmask : regMask (0x4060 + 4 * m) = some full32 := by rw [regMask_car (by omega) (by omega), carMasks_bits (by omega) (by omega)]
  refine (if_pos hm : execCarPendClr m bits s = _).trans ?_
  rw [hostWrite_car h (by omega) (by omega) (by omega) hmask hbits (and_lowMask_of_lt (n := 32) hbits)]
  unfold carWrite
  dsimp only
  rw [if_neg (by omega), if_pos (by omega), show (0x4060 + 4 * m - 0x4000) % 0x20 / 4 = m by omega]
end
@[simp] theorem State.linked_queue (s : State) (q : Nat) : s.linked.queue q = s.queue q := by rw [State.linked_frame]; rfl
@[simp] theorem State.linked_src (s : State) (n : Nat) : s.linked.src n = s.src n := by rw [State.linked_frame]; rfl
@[simp] theorem State.linked_line (s : State) (n : Nat) : s.linked.line n = s.line n := by rw [State.linked_frame]; rfl
@[simp] theorem State.linked_car (s : State) : s.linked.car = s.car := by rw [State.linked_frame]
@[simp] theorem State.linked_time (s : State) : s.linked.time = s.time := by rw [State.linked_frame]; rfl

/-! ### The sources whose bits are 1 -/

/-- A write of each source whose bit is 1 that is given by the source alone, as long as only sources have changed. -/
theorem State.eachSource_writes {f : State → Nat → State} {g : Source → Source} {s : State} {m : Nat} (hm : m < 8) (bits : Nat)
    (hf : ∀ t, SourcesOnly s t → ∀ n, n < 256 → f t n = t.setSrc n (g (t.src n))) :
    SourcesOnly s (s.eachSource m bits f) ∧
    ∀ n, (s.eachSource m bits f).src n = if n / 32 = m ∧ bit bits (n % 32) = true then g (s.src n) else s.src n := by
  have upto : ∀ k, k ≤ 32 →
      let t := (List.range k).foldl (fun s k => if bit bits k then f s (32 * m + k) else s) s
      SourcesOnly s t ∧ ∀ n, t.src n = if n / 32 = m ∧ n % 32 < k ∧ bit bits (n % 32) = true then g (s.src n) else s.src n := by
    intro k
    induction k with
    | zero => exact fun _ => ⟨SourcesOnly.refl s, fun n => by simp⟩
    | succ k ih =>
      intro hk
      obtain ⟨hframe, hsrc⟩ := ih (by omega)
      rw [List.range_succ, List.foldl_append, List.foldl_cons, List.foldl_nil]
      generalize (List.range k).foldl (fun s k => if bit bits k then f s (32 * m + k) else s) s = t at hframe hsrc
      have hsplit : ∀ n, n ≠ 32 * m + k → (n / 32 = m ∧ n % 32 < k + 1 ∧ bit bits (n % 32) = true ↔ n / 32 = m ∧ n % 32 < k ∧ bit bits (n % 32) = true) :=
        fun n hn => and_congr_right fun hd => and_congr_left' (by omega)
      have hdiv : (32 * m + k) / 32 = m := by omega
      have hmod : (32 * m + k) % 32 = k := by omega
      by_cases hb : bit bits k = true
      · simp only [hb, if_true, hf t hframe (32 * m + k) (by omega)]
        refine ⟨hframe.trans (t.setSrc_sourcesOnly ..), fun n => ?_⟩
        rw [State.src_setSrc _ _ _ _ (by omega)]
        by_cases hn : n = 32 * m + k
        · rw [if_pos hn, hn, if_pos ⟨hdiv, by omega, by rw [hmod, hb]⟩, hsrc, if_neg (by omega)]
        · rw [if_neg hn, hsrc, if_congr (hsplit n hn) rfl rfl]
      · simp only [hb, Bool.false_eq_true, if_false]
        refine ⟨hframe, fun n => ?_⟩
        rw [hsrc]
        by_cases hn : n = 32 * m + k
        · rw [if_neg (by omega), if_neg (by rw [hn, hmod]; exact fun h => hb h.2.2)]
        · rw [if_congr (hsplit n hn) rfl rfl]
  obtain ⟨hframe, hsrc⟩ := upto 32 (Nat.le_refl 32)
  refine ⟨hframe, fun n => (hsrc n).trans (if_congr ?_ rfl rfl)⟩
  simp only [Nat.mod_lt n (by decide : 32 > 0), true_and]

/-- A source that software makes pending and ready (R316). -/
def Source.softPended (v : Source) (t : Nat) : Source :=
  let w := if v.pending then v else { v with pending := true, count := 1, first := t, last := t }
  { w with ready := true, cause := w.cause ||| 4 }
/-- A source whose latch is cleared (R317). -/
def Source.cleared (v : Source) : Source := { v with pending := false, count := 0, first := 0, last := 0, ready := false, cause := 0 }
/-- A source whose latch is cleared in hub cycle `cycle`: what was activated in that cycle stays (Table 11.7). -/
def State.pendCleared (s : State) (v : Source) : Source :=
  if v.pending ∧ v.recent.actAt = s.now + 1 then s.countJudged { v with count := satAdd 0 v.recent.acts 8, first := v.last, ready := false, cause := 0 }
  else v.cleared
theorem State.pendSet_writes {s t : State} (h : SourcesOnly s t) {n : Nat} : t.pendSet n = t.setSrc n ((t.src n).softPended s.time) := by
  unfold State.pendSet Source.softPended
  dsimp only
  rw [h.time]
theorem State.pendClr_writes {s t : State} (h : SourcesOnly s t) {n : Nat} (hn : n < 256) : t.pendClr n = t.setSrc n (s.pendCleared (t.src n)) := by
  have hjudged : ∀ v, t.countJudged v = s.countJudged v := fun v => by unfold State.countJudged; rw [h.queue]
  unfold State.pendClr State.pendCleared
  dsimp only
  rw [h.now]
  split
  · rw [State.setSrc_judgeReady hn, hjudged]
  · rfl

/-! ### The coalescing time -/

/-- Coalescing makes a pending source ready only when a cause of readiness holds. -/
theorem State.timeReady_pending {s : State} {n : Nat} (hp : (s.src n).pending = true) (hr : (s.src n).ready = false)
    (hc : s.readyCause (s.src n) ≠ 0) : s.timeReady n = s.setSrc n { s.src n with ready := true, cause := (s.src n).cause ||| s.readyCause (s.src n) } := by
  unfold State.timeReady
  simp [hp, hr, hc]
theorem State.timeReady_idle {s : State} {n : Nat} (hp : (s.src n).pending = false) : s.timeReady n = s := by
  unfold State.timeReady
  simp [hp]
/-- The TIME cause once the coalescing time has passed. -/
theorem State.readyCause_time {s : State} {v : Source} (ht : (s.queue v.route).coalTime ≠ 0)
    (hp : v.first + (s.queue v.route).coalTime * 1000 ≤ s.edgeTime) : bit (s.readyCause v) 1 = true := by
  have hcount : b2n (decide (Nat.max (s.queue v.route).coalCount 1 ≤ v.count)) < 2 := by unfold b2n; split <;> decide
  have htime : place (b2n ((s.queue v.route).coalTime != 0 && decide (v.first + (s.queue v.route).coalTime * 1000 ≤ s.edgeTime))) 1 1 = 2 := by
    simp [ht, hp, place, b2n]
  have hrest : place (fld v.cause 2 2) 2 2 % 4 = 0 := by unfold place; omega
  unfold State.readyCause bit
  dsimp only
  rw [htime, Nat.testBit_eq_decide_div_mod_eq, decide_eq_true_eq]
  omega

/-! ### O13 -/

/-- Settles O13: each register writes the sources of its bits alone, and the edge's judgement one source. -/
theorem pendingSourcesAndCoalescing : Obligations.PendingSourcesAndCoalescing := by
  refine ⟨fun s m bits hm hbits => ⟨fun h => ?_, fun h => ?_⟩, fun s n hn => ⟨fun hp hr ht hd => ?_, fun hp => ?_⟩⟩
  · obtain ⟨hframe, hsrc⟩ := State.eachSource_writes (s := s.linked) hm bits (g := fun v => v.softPended s.linked.time)
      fun t ht n _ => State.pendSet_writes ht
    refine ⟨_, exec_carPendSet hm hbits h, ?_, ?_, ?_, fun k hk hb => ?_, fun n hn => ?_⟩
    · rw [← s.linked_car]; exact hframe.car_only
    · rw [hframe.queues, s.linked_car]
    · rw [hframe.lines, s.linked_car]
    · rw [hsrc, if_pos ⟨by omega, by rw [show (32 * m + k) % 32 = k by omega]; exact hb⟩, s.linked_src, s.linked_time]
      unfold Source.softPended
      cases hp : (s.src (32 * m + k)).pending <;> simp [hp]
    · rw [hsrc, if_neg hn, s.linked_src]
  · obtain ⟨hframe, hsrc⟩ := State.eachSource_writes (s := s.linked) hm bits (g := s.linked.pendCleared)
      fun t ht n hn => State.pendClr_writes ht hn
    have hone : ∀ k, k < 32 → bit bits k = true → (s.linked.eachSource m bits State.pendClr).src (32 * m + k) = s.linked.pendCleared (s.src (32 * m + k)) :=
      fun k hk hb => by rw [hsrc, if_pos ⟨by omega, by rw [show (32 * m + k) % 32 = k by omega]; exact hb⟩, s.linked_src]
    refine ⟨_, exec_carPendClr hm hbits h, ?_, ?_, ?_, fun k hk hb hact => ?_, fun k hk hb hact hp => ?_, fun n hn => ?_⟩
    · rw [← s.linked_car]; exact hframe.car_only
    · rw [hframe.queues, s.linked_car]
    · rw [hframe.lines, s.linked_car]
    · rw [hone k hk hb]
      unfold State.pendCleared
      rw [if_neg (by rw [s.linked_now]; exact fun h => hact h.2)]
      rfl
    · rw [hone k hk hb]
      unfold State.pendCleared
      rw [if_pos ⟨hp, by rw [s.linked_now]; exact hact⟩, State.countJudged_pending, State.countJudged_count]
      exact ⟨hp, by simp [satAdd]⟩
    · rw [hsrc, if_neg hn, s.linked_src]
  · have hcause := State.readyCause_time ht hd
    have hne : s.readyCause (s.src n) ≠ 0 := fun h0 => by rw [h0] at hcause; exact absurd hcause (by decide)
    have hw := State.timeReady_pending hp hr hne
    have hframe := s.setSrc_sourcesOnly n { s.src n with ready := true, cause := (s.src n).cause ||| s.readyCause (s.src n) }
    refine ⟨_, rfl, ?_⟩
    rw [hw, State.src_setSrc_same _ _ _ hn]
    refine ⟨rfl, ?_, hp, fun k hk => State.src_setSrc_ne _ _ _ _ hk, hframe.car_only, hframe.queues⟩
    unfold bit at hcause ⊢
    rw [Nat.testBit_or, hcause, Bool.or_true]
  · exact congrArg Host.Outcome.next (State.timeReady_idle hp)

/-! ### Queue registers -/

theorem State.setQueue_setQueue (s : State) (q : Nat) (u v : Queue) : (s.setQueue q u).setQueue q v = s.setQueue q v := by
  unfold State.setQueue
  split
  · simp only [tput_tput]
  · rfl
section
variable {s : State} {q : Nat} (hq : q < 64)
include hq
theorem exec_carQEnable (irq : Bool) (h : s.serves (0x500C + 0x40 * q) = true) :
    exec (.carQEnable q irq) s = .next ((s.linked.setQueue q { s.queue q with irqEn := irq }).qEnable q) := by
  refine (if_pos hq : execCarQEnable q irq s = _).trans ?_
  have hv : 1 + place (b2n irq) 1 1 < 4 := by cases irq <;> decide
  rw [show 0x500C + 0x40 * q = 0x5000 + 0xC + 0x40 * q by omega] at h ⊢
  rw [hostWrite_queue hq h (by decide) rfl (show _ = some (2 ^ 2 - 1) from rfl) (by omega) (and_lowMask_of_lt hv)]
  have h1 : bit (1 + place (b2n irq) 1 1) 1 = irq := by cases irq <;> rfl
  have h0 : bit (1 + place (b2n irq) 1 1) 0 = true := by cases irq <;> rfl
  simp only [queueWrite, h1, h0, s.linked_queue]
  rfl
theorem exec_carQDisable (irq : Bool) (h : s.serves (0x500C + 0x40 * q) = true) :
    exec (.carQDisable q irq) s = .next ((s.linked.setQueue q { s.queue q with irqEn := irq }).qDisable q) := by
  refine (if_pos hq : execCarQDisable q irq s = _).trans ?_
  have hv : place (b2n irq) 1 1 < 4 := by cases irq <;> decide
  rw [show 0x500C + 0x40 * q = 0x5000 + 0xC + 0x40 * q by omega] at h ⊢
  rw [hostWrite_queue hq h (by decide) rfl (show _ = some (2 ^ 2 - 1) from rfl) (by omega) (and_lowMask_of_lt hv)]
  have h1 : bit (place (b2n irq) 1 1) 1 = irq := by cases irq <;> rfl
  have h0 : bit (place (b2n irq) 1 1) 0 = false := by cases irq <;> rfl
  simp only [queueWrite, h1, h0, s.linked_queue]
  rfl
theorem exec_carQHead {v : Nat} (hv : v < 0x1000) (h : s.serves (0x5010 + 0x40 * q) = true) :
    exec (.carQHead q v) s = .next (s.linked.qHead q v) := by
  refine (if_pos hq : execCarQHead q v s = _).trans ?_
  rw [show 0x5010 + 0x40 * q = 0x5000 + 0x10 + 0x40 * q by omega] at h ⊢
  rw [hostWrite_queue hq h (by decide) rfl (show _ = some (2 ^ 12 - 1) from rfl) (by omega) (and_lowMask_of_lt hv)]
  rfl
theorem exec_carQEoi {n : Nat} (hn : n < 256) (h : s.serves (0x5018 + 0x40 * q) = true) :
    exec (.carQEoi q n) s = .next (s.linked.qEoi q n) := by
  refine (if_pos hq : execCarQEoi q n s = _).trans ?_
  rw [show 0x5018 + 0x40 * q = 0x5000 + 0x18 + 0x40 * q by omega] at h ⊢
  rw [hostWrite_queue hq h (by decide) rfl (show _ = some (2 ^ 8 - 1) from rfl) (by omega) (and_lowMask_of_lt hn)]
  rfl
end

/-! ### O15 -/

/-- A vector requested for a queue is sent, or pending while masked. -/
theorem requestVector_queue (s : State) (q : Nat) :
    { s.requestVector q with pba := s.pba, msiSent := s.msiSent } = s ∧
    if s.vectorMasked q then bit (s.requestVector q).pba q = true ∧ (s.requestVector q).msiSent = s.msiSent
    else (s.requestVector q).msiSent = q :: s.msiSent ∧ (s.requestVector q).pba = s.pba := by
  unfold State.requestVector
  split
  · refine ⟨rfl, ?_, rfl⟩
    dsimp only
    split
    · assumption
    · next hb => rw [Nat.add_comm, bit, Nat.testBit_two_pow_add_eq, Bool.not_eq_true', ← Bool.not_eq_true]; exact hb
  · exact ⟨rfl, rfl, rfl⟩
/-- A HEAD past the records transmitted is refused. -/
theorem qHead_past {s : State} {q v : Nat} (h : (s.queue q).size ≤ v ∨ ((s.queue q).tail + (s.queue q).size - (s.queue q).head) % (s.queue q).size <
    (v + (s.queue q).size - (s.queue q).head) % (s.queue q).size) : s.qHead q v = s.setQueue q { s.queue q with headErr := true } := if_pos h
/-- A HEAD within the records transmitted is taken, and the queue's vector requested if it still holds records. -/
theorem qHead_within {s : State} {q v : Nat} (hv : v < (s.queue q).size) (h : (v + (s.queue q).size - (s.queue q).head) % (s.queue q).size ≤
    ((s.queue q).tail + (s.queue q).size - (s.queue q).head) % (s.queue q).size) :
    s.qHead q v = if (s.queue q).irqEn = true ∧ v ≠ (s.queue q).tail then (s.setQueue q { s.queue q with head := v }).queueVector q
      else s.setQueue q { s.queue q with head := v } := if_neg (by omega)
/-- Between `s` and `t` at most queue `q` and the vectors have changed. -/
structure QueueWritten (s t : State) (q : Nat) : Prop where
  others : ∀ p, p ≠ q → t.queue p = s.queue p
  frame : { t with car := s.car, pba := s.pba, msiSent := s.msiSent } = s
theorem QueueWritten.setQueue (s : State) (q : Nat) (u : Queue) : QueueWritten s (s.setQueue q u) q :=
  ⟨fun p hp => State.queue_setQueue_ne _ _ _ _ hp, by unfold State.setQueue; split <;> rfl⟩
theorem QueueWritten.vector {s t : State} {q : Nat} (h : QueueWritten s t q) : QueueWritten s (t.requestVector q) q := by
  obtain ⟨hothers, hframe⟩ := h
  have hv : ∀ p, (t.requestVector q).queue p = t.queue p := fun p => by unfold State.requestVector; split <;> rfl
  refine ⟨fun p hp => (hv p).trans (hothers p hp), ?_⟩
  rw [← (requestVector_queue t q).1] at hframe
  exact hframe

section
variable {s : State} {q v : Nat} (hq : q < 64) (hv : v < (s.queue q).size) (h : (v + (s.queue q).size - (s.queue q).head) % (s.queue q).size ≤
    ((s.queue q).tail + (s.queue q).size - (s.queue q).head) % (s.queue q).size)
include hq hv h
theorem qHead_requests (hirq : (s.queue q).irqEn = true) (htail : v ≠ (s.queue q).tail) (hreq : (s.queue q).reqAt ≠ s.now + 1) :
    s.qHead q v = (s.setQueue q { s.queue q with head := v, reqAt := s.now + 1 }).requestVector q := by
  rw [qHead_within hv h, if_pos ⟨hirq, htail⟩, State.queueVector, State.queue_setQueue_same _ _ _ hq, State.setQueue_now, if_neg hreq,
    State.setQueue_setQueue]
theorem qHead_quiet (hquiet : (s.queue q).irqEn = false ∨ v = (s.queue q).tail ∨ (s.queue q).reqAt = s.now + 1) :
    s.qHead q v = s.setQueue q { s.queue q with head := v } := by
  rw [qHead_within hv h]
  split
  · next ha =>
    have hreq : (s.queue q).reqAt = s.now + 1 := by
      rcases hquiet with hirq | htail | hreq
      · rw [ha.1] at hirq; cases hirq
      · exact absurd htail ha.2
      · exact hreq
    rw [State.queueVector, State.queue_setQueue_same _ _ _ hq, State.setQueue_now, if_pos hreq]
  · rfl
end

/-- Settles O15: the writes of CAR_Q_CTRL and CAR_Q_HEAD by the queue as they find it. -/
theorem queueEnableAndHead : Obligations.QueueEnableAndHead := by
  refine ⟨fun s q irq hq h => ⟨fun hoff => ?_, fun hon => ?_, ?_⟩, fun s q v hq hv h => ⟨fun hpast => ?_, fun hsize hin => ?_⟩⟩
  · rw [exec_carQEnable hq irq h, State.qEnable, State.queue_setQueue_same _ _ _ hq]
    simp only [hoff, Bool.false_eq_true, if_false, State.setQueue_setQueue]
  · rw [exec_carQEnable hq irq h, State.qEnable, State.queue_setQueue_same _ _ _ hq]
    simp only [hon, if_true]
  · rw [exec_carQDisable hq irq h, State.qDisable, State.queue_setQueue_same _ _ _ hq, State.setQueue_setQueue]
  · rw [exec_carQHead hq hv h, qHead_past (by simpa only [s.linked_queue] using hpast), s.linked_queue]
  · have hlinked : s.linked.pba = s.pba ∧ s.linked.msiSent = s.msiSent ∧ s.linked.vectorMasked q = s.vectorMasked q := by
      rw [s.linked_frame]; exact ⟨rfl, rfl, rfl⟩
    obtain ⟨hpba, hsent, hmasked⟩ := hlinked
    rw [exec_carQHead hq hv h]
    by_cases hreq : (s.queue q).irqEn = true ∧ v ≠ (s.queue q).tail ∧ (s.queue q).reqAt ≠ s.now + 1
    · obtain ⟨hirq, htail, hat⟩ := hreq
      rw [qHead_requests hq (by simpa only [s.linked_queue]) (by simpa only [s.linked_queue]) (by simpa only [s.linked_queue])
        (by simpa only [s.linked_queue]) (by simpa only [s.linked_queue, s.linked_now])]
      set w := s.linked.setQueue q { s.linked.queue q with head := v, reqAt := s.linked.now + 1 } with hw
      have hqueue : (w.requestVector q).queue q = { s.queue q with head := v, reqAt := s.now + 1 } := by
        rw [show (w.requestVector q).queue q = w.queue q by unfold State.requestVector; split <;> rfl, hw, State.queue_setQueue_same _ _ _ hq,
          s.linked_queue, s.linked_now]
      have hwritten := (QueueWritten.setQueue s.linked q { s.linked.queue q with head := v, reqAt := s.linked.now + 1 }).vector
      refine ⟨_, rfl, ?_, ?_, ?_, fun p hp => ?_, ?_, fun _ => ?_, fun hno => ?_⟩
      · rw [hqueue]
      · rw [hqueue]
      · rw [hqueue]
      · rw [hwritten.others p hp, s.linked_queue]
      · rw [← hpba, ← hsent, ← s.linked_car]; exact hwritten.frame
      · have hvec := (requestVector_queue w q).2
        have hsame : w.vectorMasked q = s.vectorMasked q ∧ w.pba = s.pba ∧ w.msiSent = s.msiSent := by
          rw [← hmasked, ← hpba, ← hsent, hw]
          exact ⟨by unfold State.vectorMasked; rw [State.setQueue_cfg, State.setQueue_msix], State.setQueue_pba .., State.setQueue_msiSent ..⟩
        rw [hsame.1, hsame.2.1, hsame.2.2] at hvec
        exact hvec
      · rcases hno with hno | hno | hno
        · rw [hirq] at hno; cases hno
        · exact absurd hno htail
        · exact absurd hno hat
    · have hquiet : (s.queue q).irqEn = false ∨ v = (s.queue q).tail ∨ (s.queue q).reqAt = s.now + 1 := by
        cases hirq : (s.queue q).irqEn
        · exact .inl rfl
        · exact .inr (or_iff_not_imp_left.mpr fun htail => not_not.mp fun hat => hreq ⟨hirq, htail, hat⟩)
      rw [qHead_quiet hq (by simpa only [s.linked_queue]) (by simpa only [s.linked_queue]) (by simpa only [s.linked_queue, s.linked_now])]
      have hwritten := QueueWritten.setQueue s.linked q { s.linked.queue q with head := v }
      have hqueue := State.queue_setQueue_same s.linked q { s.linked.queue q with head := v } hq
      refine ⟨_, rfl, ?_, ?_, ?_, fun p hp => ?_, ?_, fun hyes => absurd hyes hreq, fun _ => ⟨?_, ?_⟩⟩
      · rw [hqueue]
      · rw [hqueue, s.linked_queue]
      · rw [hqueue, s.linked_queue]
      · rw [hwritten.others p hp, s.linked_queue]
      · rw [← hpba, ← hsent, ← s.linked_car]; exact hwritten.frame
      · rw [State.setQueue_pba, hpba]
      · rw [State.setQueue_msiSent, hsent]

end Sys2Proof.Machine

/-! PROOFS. Lines (O16): what a line's register, its edge and its pad write, and the activation of its source. -/
namespace Sys2Proof.Machine

/-! ### A line's event -/

/-- A line's event is noted in the power block alone. -/
theorem State.lineEvent_frame (s : State) (n : Nat) (p : Pwr) : { s.lineEvent n with pwr := p } = { s with pwr := p } := s.wakeEvent_frame _ n p
theorem State.lineEvent_car (s : State) (n : Nat) : (s.lineEvent n).car = s.car := (congrArg State.car (s.lineEvent_frame n s.pwr) :)
theorem State.line_lineEvent (s : State) (n m : Nat) : (s.lineEvent n).line m = s.line m := s.line_wakeEvent _ n m
theorem State.src_lineEvent (s : State) (n m : Nat) : (s.lineEvent n).src m = s.src m := by unfold State.src; rw [State.lineEvent_car]
/-- The level of line `n` becomes active: its source is activated with the edge's time, and its event noted. -/
def State.lineActivates (s : State) (n : Nat) : State := (s.activateAt n 1 s.edgeTime).lineEvent n
section
variable (s : State) (n : Nat)
theorem State.line_lineActivates (m : Nat) : (s.lineActivates n).line m = s.line m :=
  (State.line_lineEvent ..).trans ((State.activateAt_activated ..).line m)
/-- An activation by a line changes sources, a record being formed and the wake events. -/
theorem State.lineActivates_frame : ∃ src ops pwr, s.lineActivates n =
    { s with car := { s.car with sources := src }, htu := { s.htu with ops := ops }, pwr := pwr } := by
  obtain ⟨src, ops, hact⟩ := s.activateAt_activated n 1 s.edgeTime
  rw [State.lineActivates]
  generalize s.activateAt n 1 s.edgeTime = u at hact
  have hevent := u.lineEvent_frame n (u.lineEvent n).pwr
  subst hact
  exact ⟨src, ops, _, hevent⟩
variable {s n}
theorem State.src_lineActivates (hn : n < 256) (h : s.inService n = false) :
    ((s.lineActivates n).src n).pending = true ∧ ((s.lineActivates n).src n).last = s.edgeTime := by
  rw [State.lineActivates, State.src_lineEvent, State.activateAt_idle hn h, State.src_setSrc_same _ _ _ hn, State.countJudged_pending,
    State.countJudged_last]
  exact ⟨Source.activated_pending .., Source.activated_last ..⟩
end
theorem State.inService_setLine (s : State) (n : Nat) (l : Line) (m : Nat) : (s.setLine n l).inService m = s.inService m := by
  unfold State.inService; rw [State.setLine_car_queues]
theorem State.edgeTime_setLine (s : State) (n : Nat) (l : Line) : (s.setLine n l).edgeTime = s.edgeTime := by
  unfold State.edgeTime; rw [State.setLine_now, State.setLine_ftAdj]

/-! ### The register and its edge -/

theorem exec_carLineWrite {s : State} {n v : Nat} (hn : n < 32) (hv : v < 32) (h : s.serves (0x4200 + 4 * n) = true) :
    exec (.carLineWrite n v) s = .next (s.linked.lineWrite n v) := by
  have hmask : regMask (0x4200 + 4 * n) = some 0x31F := by rw [regMask_car (by omega) (by omega), carMasks_line (by omega) (by omega)]
  have hand : ∀ v, v < 32 → v &&& 0x31F = v := by decide
  refine (if_pos hn : execCarLineWrite n v s = _).trans ?_
  rw [hostWrite_car h (by omega) (by omega) (by omega) hmask (by omega) (hand v hv)]
  unfold carWrite
  dsimp only
  repeat rw [if_neg (by omega)]
  rw [if_pos (by omega), show (0x4200 + 4 * n - 0x4000 - 0x200) / 4 = n by omega]
/-- A polarity that turns makes an inactive level active. -/
theorem State.lineApply_turned {s : State} {n f : Nat} {high : Bool} (h : (s.line n).next = some (f, high)) (hturn : high ≠ (s.line n).high)
    (hlevel : (s.line n).level = false) : s.lineApply n = (s.setLine n (s.line n).applied).lineActivates n := by
  have hbeq : (high == (s.line n).high) = false := beq_eq_false_iff_ne.mpr hturn
  simp only [State.lineApply, h, Line.applied_of_some h, hbeq, hlevel, Bool.false_eq_true, if_false, if_neg hturn, Bool.not_false, and_self, if_true]
  rfl

/-! ### The pad -/

/-- The line once its pad has been at a level for its filter's samples. -/
def Line.levelled (l : Line) (high : Bool) : Line := { l with level := high == l.high, raw := high }
section
variable (s : State) (n : Nat) (high : Bool)
theorem State.lineLevel_active (h : (high == (s.line n).high) = true ∧ (s.line n).level = false) :
    s.lineLevel n high = (s.setLine n ((s.line n).levelled high)).lineActivates n := by
  obtain ⟨hact, hlevel⟩ := h
  simp only [State.lineLevel, hact, hlevel, Bool.not_false, and_self, if_true]
  rw [show { s.line n with level := true, raw := high } = (s.line n).levelled high by rw [Line.levelled, hact]]
  rfl
theorem State.lineLevel_still (h : ¬ ((high == (s.line n).high) = true ∧ (s.line n).level = false)) :
    s.lineLevel n high = s.setLine n ((s.line n).levelled high) := by
  unfold State.lineLevel
  dsimp only
  rw [if_neg (by simpa only [Bool.not_eq_true'] using h)]
  rfl
theorem State.line_lineLevel (hn : n < 32) (m : Nat) : (s.lineLevel n high).line m = if m = n then (s.line n).levelled high else s.line m := by
  by_cases h : (high == (s.line n).high) = true ∧ (s.line n).level = false
  · rw [State.lineLevel_active s n high h, State.line_lineActivates, State.line_setLine _ _ _ _ hn]
  · rw [State.lineLevel_still s n high h, State.line_setLine _ _ _ _ hn]
/-- A level changes the line, and with an activation sources, a record being formed and the wake events. -/
theorem State.lineLevel_frame : ∃ car ops pwr, s.lineLevel n high = { s with car := car, htu := { s.htu with ops := ops }, pwr := pwr } := by
  have hset : ∃ car, s.setLine n ((s.line n).levelled high) = { s with car := car } := by unfold State.setLine; split <;> exact ⟨_, rfl⟩
  obtain ⟨car, hcar⟩ := hset
  by_cases h : (high == (s.line n).high) = true ∧ (s.line n).level = false
  · obtain ⟨src, ops, pwr, hact⟩ := (s.setLine n ((s.line n).levelled high)).lineActivates_frame n
    rw [State.lineLevel_active s n high h, hact, hcar]
    exact ⟨_, ops, pwr, rfl⟩
  · rw [State.lineLevel_still s n high h, hcar]
    exact ⟨car, _, _, rfl⟩
end

/-- The edge of TRIG_IN that its stamp is kept of. -/
def State.noteEdge (s : State) (n : Nat) (high : Bool) (stamp : Nat) : State :=
  if n = 16 ∧ (s.line n).raw ≠ high then { s with run := if high then { s.run with padRise := stamp } else { s.run with padFall := stamp } } else s
section
variable {s : State} {n : Nat} {high : Bool} {samples : Nat} (stamp : Nat) (hn : n < 32) (hsamples : 0 < samples) (hpor : s.pins.inPor = false)
  (hdead : s.pins.dead = false) (hstop : n < 8 → high = s.stopInPad n) (halert : 8 ≤ n → n < 16 → high = s.alertPad (n - 8))
include hn hsamples hpor hdead hstop halert
/-- A pad that can change it at all changes the line by the time that it has been at its level. -/
theorem lineChange_taken : s.lineChange n high samples stamp =
    if samples < Nat.max (s.line n).filter 1 then (s.noteEdge n high stamp).setLine n { s.line n with raw := high }
    else
      let t := (s.noteEdge n high stamp).lineLevel n high
      if (t.line n).level = (s.line n).level then t else if n = 17 then t.warnHook else if n = 16 then t.trigHook stamp else t := by
  have hguard : ¬ (32 ≤ n ∨ samples = 0 ∨ s.pins.inPor ∨ s.pins.dead ∨ (n < 8 ∧ high ≠ s.stopInPad n) ∨ (8 ≤ n ∧ n < 16 ∧ high ≠ s.alertPad (n - 8))) := by
    rw [hpor, hdead]
    rintro (h | h | h | h | ⟨h, hne⟩ | ⟨h8, h16, hne⟩)
    · omega
    · omega
    · cases h
    · cases h
    · exact hne (hstop h)
    · exact hne (halert h8 h16)
  exact if_neg hguard
theorem lineChange_short (h : samples < Nat.max (s.line n).filter 1) :
    s.lineChange n high samples stamp = (s.noteEdge n high stamp).setLine n { s.line n with raw := high } := by
  rw [lineChange_taken stamp hn hsamples hpor hdead hstop halert, if_pos h]
theorem lineChange_long (h : Nat.max (s.line n).filter 1 ≤ samples) : s.lineChange n high samples stamp =
    let t := (s.noteEdge n high stamp).lineLevel n high
    if (t.line n).level = (s.line n).level then t else if n = 17 then t.warnHook else if n = 16 then t.trigHook stamp else t := by
  rw [lineChange_taken stamp hn hsamples hpor hdead hstop halert, if_neg (Nat.not_lt.mpr h)]
end
theorem State.noteEdge_of_ne {n : Nat} (hn : n ≠ 16) (s : State) (high : Bool) (stamp : Nat) : s.noteEdge n high stamp = s := if_neg (fun h => hn h.1)


/-! ### What line 17 and TRIG_IN start -/

theorem State.warnHook_frame (s : State) : ∃ due at_ pwr run, s.warnHook =
    { s with dmp := { s.dmp with survDue := due, warnTime := at_, warnPwr := pwr, survFromRun := run } } := by
  unfold State.warnHook
  split <;> exact ⟨_, _, _, _, rfl⟩
theorem State.warnHook_due (s : State) : s.warnHook.dmp.survDue = (s.line 17).level ∧ (s.warnHook.dmp.survDue = true → s.warnHook.dmp.warnTime = s.time) := by
  unfold State.warnHook
  split
  · next h => exact ⟨h.symm, fun _ => rfl⟩
  · next h => exact ⟨(Bool.not_eq_true _ ▸ h).symm, nofun⟩

/-- From `s` to `t` writes of chips have been queued for the controllers or sent: nothing else has changed but the run-control
block, and of the chains their transactions and frames. -/
structure Armed (s t : State) : Prop where
  frame : { t with run := s.run, bhv := s.bhv } = s
  bhv : { t.bhv with chains := s.bhv.chains } = s.bhv
  chain (k : Nat) : { t.chain k with txns := (s.chain k).txns, down := (s.chain k).down } = s.chain k
theorem Armed.refl (s : State) : Armed s s := ⟨rfl, rfl, fun _ => rfl⟩
theorem Armed.trans {s t u : State} (h : Armed s t) (g : Armed t u) : Armed s u :=
  ⟨(congrArg (fun v : State => { v with run := s.run, bhv := s.bhv }) g.frame :).trans h.frame,
   (congrArg (fun v : Bhv => { v with chains := s.bhv.chains }) g.bhv :).trans h.bhv,
   fun k => (congrArg (fun c : Chain => { c with txns := (s.chain k).txns, down := (s.chain k).down }) (g.chain k) :).trans (h.chain k)⟩
theorem State.setRun_armed (s : State) (r : Run) : Armed s { s with run := r } := ⟨rfl, rfl, fun _ => rfl⟩
theorem State.sendTxn_armed (s : State) (iss : Issuer) (f : Nat) (write : Bool) (addr len : Nat) (data : List Byte) :
    Armed s (s.sendTxn iss f write addr len data) := by
  unfold State.sendTxn
  dsimp only
  generalize hc : ({ s.chain (f / 16) with txns := _, down := _ } : Chain) = c
  refine ⟨by unfold State.setChain; split <;> rfl, by unfold State.setChain; split <;> rfl, fun k => ?_⟩
  by_cases hk : k = f / 16
  · by_cases h8 : f / 16 < 8
    · rw [hk, State.chain_setChain_same _ _ _ h8, ← hc]
    · rw [State.setChain, if_neg h8]
  · rw [State.chain_setChain_ne _ _ _ _ hk]
theorem State.armPump_armed (s : State) : Armed s s.armPump :=
  List.foldlRecOn (motive := fun t => Armed s t) _ _ (Armed.refl s) fun t ht q _ => by
    refine ht.trans ?_
    dsimp only
    split
    · split
      · exact t.setRun_armed _
      · split
        · exact ((((t.setRun_armed _).trans (State.sendTxn_armed ..)).trans (State.sendTxn_armed ..)).trans (State.sendTxn_armed ..)).trans
            (State.sendTxn_armed ..)
        · exact Armed.refl t
    · split
      · exact t.setRun_armed _
      · split
        · exact (t.setRun_armed _).trans (State.sendTxn_armed ..)
        · exact Armed.refl t
theorem Armed.line {s t : State} (h : Armed s t) (n : Nat) : t.line n = s.line n := by
  have hcar : t.car = s.car := (congrArg State.car h.frame :)
  unfold State.line
  rw [hcar]
theorem State.tollTrigger_armed (s : State) (active : Bool) (stamp : Nat) : Armed s (s.tollTrigger active stamp) := by
  unfold State.tollTrigger
  dsimp only
  generalize (if active = true then 0 else 1) = edge
  split
  · exact (s.setRun_armed _).trans (State.armPump_armed _)
  · exact Armed.refl s
theorem Noted.line {s t : State} (h : Noted s t) (n : Nat) : t.line n = s.line n := by
  obtain ⟨_, _, _, _, _, rfl⟩ := h
  rfl
theorem State.line_trigHook (s : State) (stamp n : Nat) : (s.trigHook stamp).line n = s.line n := by
  unfold State.trigHook
  dsimp only
  generalize (if (s.line 16).level = true then 0 else 1) = edge
  split
  · exact ((State.traceTrigger_noted ..).line n).trans ((State.tollTrigger_armed ..).line n)
  · exact (State.tollTrigger_armed ..).line n

/-! ### O16 -/

/-- Settles O16: the register, the edge that applies it, and the pad by the time at its level. -/
theorem linesAreFilteredAndPolarised : Obligations.LinesAreFilteredAndPolarised := by
  refine ⟨fun s n v hn hv => ⟨fun h => ?_, fun high hnext => ?_⟩, fun s n high samples stamp hn hsamples hpor hdead hstop halert => ?_⟩
  · rw [exec_carLineWrite hn hv h, State.lineWrite, s.linked_line]
    have hfilter : fld v 0 4 = v % 16 := by unfold fld; omega
    have hpol : (n = 16 ∨ 18 ≤ n ∧ n < 32) = (n = 16 ∨ 18 ≤ n) := by rw [and_iff_left hn]
    simp only [hfilter, hpol]
  · have happlied := Line.applied_of_some hnext
    have hline := State.line_lineApply hn s n
    rw [if_pos rfl, happlied] at hline
    rw [hline]
    refine ⟨rfl, rfl, rfl, rfl, fun k hk => ?_, fun hturn hlevel hidle => ?_⟩
    · by_cases hk32 : k < 32
      · rw [State.line_lineApply hk32, if_neg hk]
      · rcases s.lineApply_writes n with ⟨-, h⟩ | h | h
        · rw [h]
        · rw [h, State.line_setLine _ _ _ _ hn, if_neg hk]
        · rw [h, State.line_lineEvent, (State.activateAt_activated ..).line, State.line_setLine _ _ _ _ hn, if_neg hk]
    · rw [State.lineApply_turned hnext hturn hlevel]
      have hsrc := State.src_lineActivates (s := s.setLine n (s.line n).applied) (n := n) (by omega) (by rw [State.inService_setLine, hidle])
      rwa [State.edgeTime_setLine] at hsrc
  · refine ⟨fun h16 hshort => ?_, fun h16 h17 hlong => ?_, fun h16 hraw => ?_, fun h17 hlong hturn => ?_⟩
    · have h := lineChange_short stamp hn hsamples hpor hdead hstop halert hshort
      rw [State.noteEdge_of_ne h16] at h
      exact congrArg Host.Outcome.next h
    · have h := lineChange_long stamp hn hsamples hpor hdead hstop halert hlong
      simp only [State.noteEdge_of_ne h16, h17, h16, if_false, ite_self] at h
      have hline := s.line_lineLevel n high hn
      obtain ⟨car, ops, pwr, hframe⟩ := s.lineLevel_frame n high
      refine ⟨_, congrArg Host.Outcome.next h, ?_⟩
      rw [hline n, if_pos rfl]
      refine ⟨rfl, rfl, rfl, fun k hk => (hline k).trans (if_neg hk), fun hact hlevel hidle => ?_, fun hsame => ?_, ?_, ?_⟩
      · have hsrc := State.src_lineActivates (s := s.setLine n ((s.line n).levelled high)) (n := n) (by omega) (by rw [State.inService_setLine, hidle])
        rw [State.lineLevel_active s n high ⟨hact, hlevel⟩]
        rwa [State.edgeTime_setLine] at hsrc
      · have hstill : ¬ ((high == (s.line n).high) = true ∧ (s.line n).level = false) := fun ⟨hact, hlevel⟩ => by
          rw [hlevel] at hsame; exact absurd (hact.symm.trans hsame) (by decide)
        rw [State.lineLevel_still s n high hstill, State.src_setLine, State.setLine_pwr]
        exact ⟨rfl, rfl⟩
      · rw [hframe]
      · rw [hframe]
    · subst h16
      have hnote : s.noteEdge 16 high stamp = { s with run := if high then { s.run with padRise := stamp } else { s.run with padFall := stamp } } :=
        if_pos ⟨rfl, hraw⟩
      by_cases hshort : samples < Nat.max (s.line 16).filter 1
      · have h := lineChange_short stamp hn hsamples hpor hdead hstop halert hshort
        refine ⟨_, congrArg Host.Outcome.next h, ?_⟩
        rw [State.line_setLine _ _ _ _ hn, if_pos rfl, State.setLine_run, hnote]
        exact ⟨rfl, fun _ => ⟨rfl, rfl⟩⟩
      · have h := lineChange_long stamp hn hsamples hpor hdead hstop halert (Nat.not_lt.mp hshort)
        have hline := (s.noteEdge 16 high stamp).line_lineLevel 16 high hn 16
        refine ⟨_, congrArg Host.Outcome.next h, ?_, fun hs => absurd hs hshort⟩
        dsimp only
        rw [if_neg (by decide : ¬ (16 = 17)), if_pos rfl]
        split
        · rw [hline, if_pos rfl]; rfl
        · rw [State.line_trigHook, hline, if_pos rfl]; rfl
    · subst h17
      have h := lineChange_long stamp hn hsamples hpor hdead hstop halert hlong
      have hline := s.line_lineLevel 17 high hn 17
      rw [if_pos rfl] at hline
      have hne : ¬ ((s.lineLevel 17 high).line 17).level = (s.line 17).level := by rw [hline]; exact fun e => hturn e.symm
      simp only [State.noteEdge_of_ne (by decide : 17 ≠ 16), if_true, if_neg hne] at h
      obtain ⟨hdue, htime⟩ := State.warnHook_due (s.lineLevel 17 high)
      obtain ⟨_, _, _, _, hwarn⟩ := State.warnHook_frame (s.lineLevel 17 high)
      obtain ⟨car, ops, pwr, hframe⟩ := s.lineLevel_frame 17 high
      refine ⟨_, congrArg Host.Outcome.next h, ?_, ?_, fun hd => ?_, ?_⟩
      · have hcar : (s.lineLevel 17 high).warnHook.line 17 = (s.lineLevel 17 high).line 17 := by rw [hwarn]; rfl
        rw [hcar, hline]; rfl
      · rw [hdue, hline]; rfl
      · rw [htime hd, hframe]; rfl
      · rw [hwarn, hframe]

end Sys2Proof.Machine


/-! PROOFS. Carillon refutations (O14, O17): a table of queues that lists a queue twice, and a record of source 192 that faults as it
is issued. -/
namespace Sys2Proof.Machine

/-! ### A source in service by an entry that is never read (O14) -/

/-- Source 5 was lost to its service in this hub cycle. -/
def lostNow : Source := { recent := { lossAt := 1, losses := 1 } }
/-- Queue 0 has source 5 in service, and so has the second of two entries of queue 1, which no read of the table finds. -/
def twiceListed : State :=
  { pwr := { pllLock := true }, boot := { stage := 4, fused := true }, cfg := { command := 6, msixEn := true }
    car := { sources := [(5, lostNow)], queues := [(0, { insvc := some 5 }), (1, { irqEn := true }), (1, { insvc := some 5 })] } }
/-- The activation that follows the release is lost again, as the entry never read still has the source in service. -/
theorem twiceListed_loses : ∀ t, exec (.carQEoi 0 5) twiceListed = .next t → (t.src 5).pending = false := by
  intro t h
  rw [exec_carQEoi (by decide) (by decide) (by decide +kernel)] at h
  cases h
  decide +kernel

/-- Refutes O14: the release of queue 0 leaves a source in service that an entry of the table holds which `State.queue` never reads. -/
theorem not_endOfInterruptFreezeAndRecover : ¬ Obligations.EndOfInterruptFreezeAndRecover := by
  intro h
  obtain ⟨-, -, hlost, -⟩ := h.1 twiceListed 0 5 (by decide) (by decide) (by decide +kernel)
  have hothers : ∀ p, p ≠ 0 → (twiceListed.queue p).insvc ≠ some 5 := by
    intro p hp
    by_cases h1 : p = 1
    · subst h1; decide
    · simp [State.queue, twiceListed, tget, hp, h1]
  obtain ⟨t, hexec, -, hpending, -⟩ := hlost rfl rfl rfl rfl hothers rfl
  rw [twiceListed_loses t hexec] at hpending
  cases hpending

/-! ### A record of source 192 that faults as it is issued (O17) -/

/-- Queue 0 may select source 192, which is ready, while the HTU is disabled. -/
def selects192 : State :=
  { pwr := { pllLock := true }, boot := { stage := 4, fused := true }, cfg := { command := 6, msixEn := true }
    car := { sources := [(192, { pending := true, count := 1, ready := true, mask := false })], queues := [(0, { enabled := true })] } }
/-- The record faults, and the fault's own activation joins it (Table 11.7). -/
theorem selects192_joins : ∀ o ∈ (selects192.queueSelect 0).htu.ops, o.data ≠ selects192.eventRecord 0 192 := by decide +kernel

/-- Refutes O17: a record of source 192 that faults in its issue carries one activation more than the source had. -/
theorem not_queuesSelectAndTransmit : ¬ Obligations.QueuesSelectAndTransmit := by
  intro h
  obtain ⟨-, hselect⟩ := h.1 selects192 0 192 (by decide) (by decide)
  have hlower : ∀ k, k < 192 → ¬ ((selects192.src k).ready = true ∧ selects192.masked (selects192.src k) = false ∧ (selects192.src k).route = 0) := by
    intro k hk
    have hsrc : selects192.src k = {} := by simp [State.src, selects192, tget, Nat.ne_of_lt hk]
    rw [hsrc]
    decide
  obtain ⟨t, hexec, -, -, -, -, -, o, hmem, -, -, -, -, hdata⟩ :=
    hselect (by unfold State.numbered; decide +kernel) (by decide +kernel) rfl rfl rfl hlower rfl rfl
  cases hexec
  exact selects192_joins o hmem hdata

end Sys2Proof.Machine


/-! PROOFS. Responses (O32): what the answer of a transaction and its timeout make of the chain and of the work item. -/
namespace Sys2Proof.Machine

/-! ### The controllers' clocks and queue -/

section
variable {s : State} (hf : s.fastClock = true)
include hf
theorem exec_transactionTimeout (k tag : Nat) : exec (.transactionTimeout k tag) s = .next ((s.txnTimeout k tag).armPump) := congrArg Host.Outcome.next (if_pos hf)
theorem exec_syncSymbol : exec .syncSymbol s = .next (s.syncSymbol.syncCheck) := congrArg Host.Outcome.next (if_pos hf)
theorem exec_hopUp (k p ps : Nat) : exec (.hopUp k p ps) s = .next ((s.hopUp k p ps).trainCheck) := congrArg Host.Outcome.next (if_pos hf)
theorem exec_hopFail (k p : Nat) : exec (.hopFail k p) s = .next ((s.noteLost (s.hopFail k p) k).trainCheck.armPump) := congrArg Host.Outcome.next (if_pos hf)
theorem exec_hopRetry (k : Nat) : exec (.hopRetry k) s = .next (s.hopRetry k) := congrArg Host.Outcome.next (if_pos hf)
theorem exec_trainingTimeout (k : Nat) : exec (.trainingTimeout k) s = .next ((s.trainTimeout k).trainCheck) := congrArg Host.Outcome.next (if_pos hf)
theorem exec_readData (k : Nat) : exec (.readData k) s = .next ((s.recvReadData k).armPump) := congrArg Host.Outcome.next (if_pos hf)
theorem exec_writeAck (k : Nat) : exec (.writeAck k) s = .next ((s.recvWriteAck k).armPump) := congrArg Host.Outcome.next (if_pos hf)
theorem exec_nack (k : Nat) : exec (.nack k) s = .next ((s.recvNack k).armPump) := congrArg Host.Outcome.next (if_pos hf)
theorem exec_alert (k p : Nat) : exec (.alert k p) s = .next (s.recvAlert k p) := congrArg Host.Outcome.next (if_pos hf)
theorem exec_trace (k : Nat) : exec (.trace k) s = .next (s.recvTrace k) := congrArg Host.Outcome.next (if_pos hf)
theorem exec_probeStamp (k : Nat) : exec (.probeStamp k) s = .next (s.recvProbeStamp k) := congrArg Host.Outcome.next (if_pos hf)
theorem exec_frameCrcFail (k p : Nat) (up : Bool) : exec (.frameCrcFail k p up) s = .next ((s.noteLost (s.crcFail k p up) k).trainCheck.armPump) := congrArg Host.Outcome.next (if_pos hf)
end
theorem exec_transactionTimeout_off {s : State} (hf : s.fastClock = false) (k tag : Nat) : exec (.transactionTimeout k tag) s = .next s :=
  congrArg Host.Outcome.next (if_neg (by simp [hf]))
/-- With nothing queued the controllers have nothing to send. -/
theorem State.armPump_of_nil {s : State} (h : s.run.armQ = []) : s.armPump = s := by
  unfold State.armPump; rw [h]; rfl

/-! ### What a work item hears of a response -/

/-- Between `s` and `t` nothing has changed but the work items and the chains. -/
def ItemsAndChains (s t : State) : Prop := { t with rings := s.rings, scan := s.scan, hub := s.hub, bhv := s.bhv } = s
theorem ItemsAndChains.refl (s : State) : ItemsAndChains s s := rfl
theorem ItemsAndChains.trans {s t u : State} (h : ItemsAndChains s t) (g : ItemsAndChains t u) : ItemsAndChains s u :=
  (congrArg (fun v : State => { v with rings := s.rings, scan := s.scan, hub := s.hub, bhv := s.bhv }) g :).trans h
theorem State.setChain_itemsAndChains (s : State) (k : Nat) (c : Chain) : ItemsAndChains s (s.setChain k c) := by
  unfold ItemsAndChains State.setChain; split <;> rfl
theorem State.setItem_itemsAndChains (s : State) (w : Work) (j : Item) : ItemsAndChains s (s.setItem w j) :=
  (congrArg (fun v : State => { v with bhv := s.bhv }) (s.setItem_frame w j) :)
section
variable {s t : State} (h : ItemsAndChains s t)
include h
theorem ItemsAndChains.run : t.run = s.run := (congrArg State.run h :)
theorem ItemsAndChains.car : t.car = s.car := (congrArg State.car h :)
theorem ItemsAndChains.chips : t.chips = s.chips := (congrArg State.chips h :)
theorem ItemsAndChains.host : t.host = s.host := (congrArg State.host h :)
end
theorem Item.mark_todo (now : Nat) (i j : Item) : (Item.mark now i j).todo = j.todo := by unfold Item.mark; split <;> rfl

/-- Marking a chip ADDRESSABLE keeps the item but its notes, and each chain but that mark. -/
theorem markOp_marks {s : State} {w : Work} {i : Item} (hr : ∀ n, w = .ring n → n < 512) (hi : s.item? w = some i) (k : Nat) (x : Txn) (d : List Byte) :
    ∃ notes, (s.markOp k w x d).item? w = some { i with x := notes } ∧ ItemsAndChains s (s.markOp k w x d) ∧
      ∀ j, { (s.markOp k w x d).chain j with addressable := (s.chain j).addressable } = s.chain j := by
  have hchain : ∀ (f j : Nat), { (s.markAddr f).chain j with addressable := (s.chain j).addressable } = s.chain j := by
    intro f j
    unfold State.markAddr
    by_cases hj : j = f / 16
    · by_cases hf : f / 16 < 8
      · rw [hj, State.chain_setChain_same _ _ _ hf]
      · rw [State.setChain, if_neg hf]
    · rw [State.chain_setChain_ne _ _ _ _ hj]
  have haddr : ∀ f, ItemsAndChains s (s.markAddr f) := fun f => s.setChain_itemsAndChains _ _
  have hitem : ∀ f, (s.markAddr f).item? w = some i := fun f => (State.item?_setChain ..).trans hi
  simp only [State.markOp, hi]
  split
  · simp only [State.modItem, hitem]
    exact ⟨_, State.item?_setItem hr (hitem _), (haddr _).trans (State.setItem_itemsAndChains ..), fun j => by rw [State.chain_setItem]; exact hchain _ j⟩
  · split
    · exact ⟨_, hitem _, haddr _, hchain _⟩
    · exact ⟨_, hi, ItemsAndChains.refl s, fun _ => rfl⟩

/-- The item after its operation `ix` has ended with data `d` and status `e`. -/
structure Item.Heard (i j : Item) (ix : Nat) (d : List Byte) (e : Option Status) : Prop where
  out : j.out = i.out - 1
  rep : tget [] j.rep ix = d
  errs : j.errs = i.errs ++ e.toList
  todo : j.todo = i.todo
theorem Item.heard_opDone {ix : Nat} (hix : ix ≠ voidIx) (now : Nat) (i : Item) (notes : Tab Nat) (d : List Byte) (e : Option Status) :
    i.Heard (Item.mark now { i with x := notes } (({ i with x := notes } : Item).opDone ix d e)) ix d e := by
  obtain ⟨hout, herrs, hrep, -, -⟩ := Item.mark_sameResults now { i with x := notes } (({ i with x := notes } : Item).opDone ix d e)
  refine ⟨?_, ?_, ?_, ?_⟩
  · rw [hout, Item.opDone_out hix]
  · rw [hrep, Item.opDone_rep hix]
  · rw [herrs, Item.opDone_errs hix]
  · rw [Item.mark_todo, Item.opDone.eq_def, if_neg hix]

section
variable {s : State} {w : Work} {i : Item} (hr : ∀ n, w = .ring n → n < 512) (hi : s.item? w = some i) {ix : Nat} (hix : ix ≠ voidIx) {x : Txn}
  (hiss : x.issuer = .item w ix)
include hr hi hix hiss
/-- The issuer of a transaction hears of its end. -/
theorem ctlDone_heard (k : Nat) (d : List Byte) (e : Option Status) :
    ∃ j, (s.ctlDone k x d e).item? w = some j ∧ i.Heard j ix d e ∧ ItemsAndChains s (s.ctlDone k x d e) ∧
      ∀ k', { (s.ctlDone k x d e).chain k' with addressable := (s.chain k').addressable } = s.chain k' := by
  have hdone : s.ctlDone k x d e = (if e.isNone then s.markOp k w x d else s).opDone w ix d e := by unfold State.ctlDone; rw [hiss]
  have hmarked : ∃ notes, (if e.isNone then s.markOp k w x d else s).item? w = some { i with x := notes } ∧
      ItemsAndChains s (if e.isNone then s.markOp k w x d else s) ∧
      ∀ j, { (if e.isNone then s.markOp k w x d else s).chain j with addressable := (s.chain j).addressable } = s.chain j := by
    split
    · exact markOp_marks hr hi k x d
    · exact ⟨_, hi, ItemsAndChains.refl s, fun _ => rfl⟩
  rw [hdone]
  generalize (if e.isNone then s.markOp k w x d else s) = u at hmarked
  obtain ⟨notes, hu, hframe, hchain⟩ := hmarked
  rw [State.opDone_of_item hu]
  exact ⟨_, State.item?_setItem hr hu, Item.heard_opDone hix .., hframe.trans (State.setItem_itemsAndChains ..), fun j => by
    rw [State.chain_setItem]; exact hchain j⟩
end

/-! ### Transactions of a chain -/

section
variable {s : State} {k tag : Nat} {x : Txn} (hfind : (s.chain k).txns.find? (fun x => x.tag == tag) = some x)
include hfind
/-- A transaction whose limit has not passed goes on. -/
theorem txnTimeout_waits (h : x.quarantined = true ∨ x.limit = 0 ∨ s.now ≤ x.sentAt + x.limit * 1000) : s.txnTimeout k tag = s := by
  simp only [State.txnTimeout, hfind]
  refine if_neg ?_
  rintro ⟨hq, hl, hd⟩
  rcases h with h | h | h
  · rw [h] at hq; exact absurd hq (by decide)
  · exact hl h
  · omega
/-- The chain once transaction `tag` has timed out. -/
def Chain.timedOut (c : Chain) (tag : Nat) : Chain :=
  { c with txns := c.txns.map (fun x => if x.tag = tag then { x with quarantined := true } else x), timeouts := satAdd c.timeouts 1 16 }
theorem txnTimeout_ends (hq : x.quarantined = false) (hl : x.limit ≠ 0) (hd : x.sentAt + x.limit * 1000 < s.now) :
    s.txnTimeout k tag = ((s.setChain k ((s.chain k).timedOut tag)).ctlDone k x [] (some .timeout)).chainEvent k 6 x.pos tag := by
  simp only [State.txnTimeout, hfind]
  exact if_pos ⟨by rw [hq]; rfl, hl, hd⟩
/-- The chain without its transaction `tag`. -/
def Chain.released (c : Chain) (tag : Nat) : Chain := { c with txns := c.txns.filter (fun x => x.tag != tag) }
theorem response_released (h : x.limit = 0 ∨ s.now ≤ x.sentAt + x.limit * 1000) (d : List Byte) (e : Option Status) : s.response k tag d e =
    if x.quarantined then s.setChain k ((s.chain k).released tag) else (s.setChain k ((s.chain k).released tag)).ctlDone k x d e := by
  have htag : x.tag = tag := by simpa using List.find?_some hfind
  unfold State.response
  rw [txnTimeout_waits hfind (.inr h)]
  simp only [hfind, State.endTxn, htag]
  rfl
end

/-! ### O32 -/

/-- The chain once its oldest upstream frame has been taken. -/
def Chain.tookUp (c : Chain) (fr : Frame) (rest : List Frame) : Chain :=
  { c with up := rest, replays := c.replays.filter (fun x => x.1 % 2 == 1 || 2 * fr.pos < x.1) }
theorem Chain.popUp_cons {c : Chain} {fr : Frame} {rest : List Frame} (h : c.up = fr :: rest) : c.popUp = some (fr, c.tookUp fr rest) := by
  unfold Chain.popUp; rw [h]; rfl

section
variable {s : State} {k p tag : Nat} {fr : Frame} {rest : List Frame} {x : Txn} (hk : k < 8)
  (hfind : (s.chain k).txns.find? (fun x => x.tag == tag) = some x) (hlim : x.limit = 0 ∨ s.now ≤ x.sentAt + x.limit * 1000)
include hk hfind hlim
/-- The response to a tag in use releases it and gives its item the data, or the status. -/
theorem response_answers (hq : x.quarantined = false) {w : Work} {ix : Nat} (hiss : x.issuer = .item w ix) (hix : ix ≠ voidIx) {i : Item}
    (hi : s.item? w = some i) (hr : ∀ n, w = .ring n → n < 512) (d : List Byte) (e : Option Status) :
    ∃ j, ((s.setChain k ((s.chain k).tookUp fr rest)).response k tag d e).item? w = some j ∧ i.Heard j ix d e ∧
      ItemsAndChains s ((s.setChain k ((s.chain k).tookUp fr rest)).response k tag d e) ∧
      (((s.setChain k ((s.chain k).tookUp fr rest)).response k tag d e).chain k).up = rest ∧
      (((s.setChain k ((s.chain k).tookUp fr rest)).response k tag d e).chain k).txns = (s.chain k).txns.filter (fun y => y.tag != tag) := by
  have hchain := State.chain_setChain_same s k ((s.chain k).tookUp fr rest) hk
  rw [response_released (x := x) (by rw [hchain]; exact hfind) (by rw [State.setChain_now]; exact hlim), hq, hchain, if_neg (by decide)]
  set u := (s.setChain k ((s.chain k).tookUp fr rest)).setChain k (((s.chain k).tookUp fr rest).released tag) with hu
  have hui : u.item? w = some i := by rw [hu, State.item?_setChain, State.item?_setChain, hi]
  obtain ⟨j, hj, hheard, hframe, hchains⟩ := ctlDone_heard hr hui hix hiss k d e
  have hck := hchains k
  rw [hu, State.chain_setChain_same _ _ _ hk, ← hu] at hck
  refine ⟨j, hj, hheard, ((s.setChain_itemsAndChains ..).trans (State.setChain_itemsAndChains ..)).trans hframe, ?_, ?_⟩
  · exact (congrArg Chain.up hck :)
  · exact (congrArg Chain.txns hck :)
/-- The response to a quarantined tag only releases it. -/
theorem response_quarantined (hq : x.quarantined = true) (d : List Byte) (e : Option Status) :
    (s.setChain k ((s.chain k).tookUp fr rest)).response k tag d e =
      (s.setChain k ((s.chain k).tookUp fr rest)).setChain k (((s.chain k).tookUp fr rest).released tag) := by
  have hchain := State.chain_setChain_same s k ((s.chain k).tookUp fr rest) hk
  rw [response_released (x := x) (by rw [hchain]; exact hfind) (by rw [State.setChain_now]; exact hlim), hq, hchain, if_pos rfl]
end

/-- The commands of a response, with the data it brings: READ_DATA or WRITE_ACK. -/
theorem exec_response {s : State} {k p tag : Nat} {d : List Byte} {c : Instr} {fr : Frame} {rest : List Frame} (hf : s.fastClock = true)
    (hc : (c = .readData k ∧ fr = .readData p tag d) ∨ (c = .writeAck k ∧ fr = .writeAck p tag ∧ d = [])) (hup : (s.chain k).up = fr :: rest) :
    exec c s = .next ((s.setChain k ((s.chain k).tookUp fr rest)).response k tag d none).armPump := by
  rcases hc with ⟨rfl, rfl⟩ | ⟨rfl, rfl, rfl⟩
  · simp only [exec_readData hf, State.recvReadData, Chain.popUp_cons hup]
  · simp only [exec_writeAck hf, State.recvWriteAck, Chain.popUp_cons hup]
theorem exec_nackOf {s : State} {k p tag : Nat} {rest : List Frame} (hf : s.fastClock = true) (hup : (s.chain k).up = .nack p tag :: rest) :
    exec (.nack k) s = .next ((s.setChain k ((s.chain k).tookUp (.nack p tag) rest)).response k tag [] (some .chipAbsent)).armPump := by
  simp only [exec_nack hf, State.recvNack, Chain.popUp_cons hup]

/-- Settles O32: responses by the state of their tag, and timeouts by the time passed. -/
theorem responsesAndTimeoutsEndTransactions : Obligations.ResponsesAndTimeoutsEndTransactions := by
  refine ⟨fun s k p tag rest x hk hf harm hfind hlim => ⟨fun d c fr hc hup => ⟨?_, ?_⟩, ?_⟩, fun s k tag x hk harm hfind => ⟨?_, ?_⟩⟩
  · intro w ix i hq hiss hix hi hr
    obtain ⟨j, hj, ⟨hout, hrep, herrs, htodo⟩, hframe, hup', htx⟩ := response_answers (fr := fr) (rest := rest) hk hfind hlim hq hiss hix hi hr d none
    rw [exec_response hf hc hup, State.armPump_of_nil (by rw [hframe.run]; exact harm)]
    exact ⟨_, j, rfl, hup', htx, hj, hout, hrep, by rw [herrs]; exact List.append_nil _, htodo⟩
  · intro hq
    have hframe : ∀ u v : Chain, { (s.setChain k u).setChain k v with bhv := s.bhv } = s := fun u v => by
      unfold State.setChain; simp only [hk, if_true]
    rw [exec_response hf hc hup, response_quarantined hk hfind hlim hq d none,
      State.armPump_of_nil (by rw [State.setChain_run, State.setChain_run]; exact harm)]
    refine ⟨_, rfl, ?_, ?_, hframe _ _⟩
    · rw [State.chain_setChain_same _ _ _ hk]; rfl
    · rw [State.chain_setChain_same _ _ _ hk]; rfl
  · intro hup w ix i hq hiss hix hi hr
    obtain ⟨j, hj, ⟨hout, -, herrs, -⟩, hframe, hup', htx⟩ :=
      response_answers (fr := .nack p tag) (rest := rest) hk hfind hlim hq hiss hix hi hr [] (some .chipAbsent)
    rw [exec_nackOf hf hup, State.armPump_of_nil (by rw [hframe.run]; exact harm)]
    exact ⟨_, j, rfl, hup', htx, hj, hout, herrs, hframe.chips, hframe.host⟩
  · intro hf hq hl hd w ix i hiss hix hi hr
    set u := s.setChain k ((s.chain k).timedOut tag) with hu
    have hui : u.item? w = some i := by rw [hu, State.item?_setChain, hi]
    obtain ⟨j, hj, ⟨hout, -, herrs, -⟩, hframe, hchains⟩ := ctlDone_heard hr hui hix hiss k [] (some .timeout)
    have hck := hchains k
    rw [hu, State.chain_setChain_same _ _ _ hk, ← hu] at hck
    rw [exec_transactionTimeout hf, txnTimeout_ends hfind hq hl hd, ← hu]
    set v := u.ctlDone k x [] (some .timeout)
    have hact : Activated v (v.chainEvent k 6 x.pos tag) := State.activate_activated ..
    have hrun : (v.chainEvent k 6 x.pos tag).run = s.run := by
      obtain ⟨_, _, hact⟩ := hact
      rw [hact]
      exact hframe.run.trans (State.setChain_run ..)
    rw [State.armPump_of_nil (by rw [hrun]; exact harm)]
    refine ⟨_, j, rfl, ((Noted.of_activated hact).item w).trans hj, hout, herrs, ?_, ?_, fun hidle => ?_⟩
    · rw [hact.chain]; exact (congrArg Chain.timeouts hck :)
    · rw [hact.chain]; exact (congrArg Chain.txns hck :)
    · refine State.activate_pending (by omega) ?_ _
      unfold State.inService at hidle ⊢
      rw [hframe.car, hu, State.setChain_car]
      exact hidle
  · intro h
    cases hf : s.fastClock
    · exact exec_transactionTimeout_off hf k tag
    · have hwaits := txnTimeout_waits hfind (h.imp_right fun h => h.imp_right fun h => h.resolve_right (by rw [hf]; decide))
      simp only [exec_transactionTimeout hf, hwaits, State.armPump_of_nil harm]

end Sys2Proof.Machine


/-! PROOFS. Hops (O33): what a hop that comes up or fails leaves of its chain, and what a frame that fails its CRC counts. -/
namespace Sys2Proof.Machine

/-! ### Bits and notes -/

/-- Setting a bit sets it alone. -/
theorem bit_setFld_one (x k j : Nat) : bit (setFld x k 1 1) j = (bit x j || decide (j = k)) := by
  have hset : setFld x k 1 1 = 2 ^ k * (2 * (x / 2 ^ k / 2) + 1) + x % 2 ^ k := by
    have hx := Nat.div_add_mod x (2 ^ k)
    have hy := Nat.div_add_mod (x / 2 ^ k) 2
    simp only [setFld, place, fld, Nat.shiftRight_eq_div_pow, Nat.shiftLeft_eq, Nat.pow_one, Nat.mod_mod]
    generalize x / 2 ^ k = y at *
    have hsplit : 2 ^ k * y = 2 ^ k * (2 * (y / 2)) + y % 2 * 2 ^ k := by
      conv_lhs => rw [← hy]
      ring
    rw [Nat.mul_add]
    omega
  have hx : x = 2 ^ k * (x / 2 ^ k) + x % 2 ^ k := (Nat.div_add_mod x (2 ^ k)).symm
  have hb : x % 2 ^ k < 2 ^ k := Nat.mod_lt _ (Nat.two_pow_pos k)
  unfold bit
  rw [hset, Nat.testBit_two_pow_mul_add _ hb]
  conv_rhs => rw [hx, Nat.testBit_two_pow_mul_add _ hb]
  rcases Nat.lt_trichotomy j k with hj | rfl | hj
  · simp [hj, hj.ne]
  · simp
  · obtain ⟨d, rfl⟩ : ∃ d, j = k + (d + 1) := ⟨j - k - 1, by omega⟩
    have hodd : (2 * (x / 2 ^ k / 2) + 1) / 2 = x / 2 ^ k / 2 := by omega
    simp [Nat.testBit_succ, hodd]

section
variable {s t : State} (h : Noted s t)
include h
theorem Noted.bhv : t.bhv = s.bhv := by obtain ⟨_, _, _, _, _, rfl⟩ := h; rfl
theorem Noted.run : t.run = s.run := by obtain ⟨_, _, _, _, _, rfl⟩ := h; rfl
theorem Noted.chips : t.chips = s.chips := by obtain ⟨_, _, _, _, _, rfl⟩ := h; rfl
theorem Noted.chain (k : Nat) : t.chain k = s.chain k := by unfold State.chain; rw [h.bhv]
end
theorem State.setTrc_noted (s : State) (trc : Trc) : Noted s { s with trc := trc } := ⟨_, _, _, _, _, rfl⟩
theorem State.setTchip_noted (s : State) (f : Nat) (c : TraceChip) : Noted s (s.setTchip f c) := by
  unfold State.setTchip; split
  · exact s.setTrc_noted _
  · exact Noted.refl s
theorem State.hubGap_noted (s : State) (f cause count : Nat) : Noted s (s.hubGap f cause count) :=
  ((s.setTchip_noted _ _).trans (State.setTrc_noted _ _)).trans (.of_activated (State.activate_activated ..))
theorem State.traceLost_noted (s : State) (k lo hi : Nat) : Noted s (s.traceLost k lo hi) := by
  unfold State.traceLost
  split
  · refine List.foldlRecOn (motive := fun t : State => Noted s t) _ _ (Noted.refl s) fun t ht p _ => ?_
    dsimp only
    split
    · exact ht.trans ((State.hubGap_noted ..).trans (State.setTchip_noted ..))
    · exact ht
  · exact Noted.refl s
theorem State.noteLost_noted (s t : State) (k : Nat) : Noted t (s.noteLost t k) := by
  unfold State.noteLost; split
  · exact State.traceLost_noted ..
  · exact Noted.refl t
theorem State.chainEvent_noted (s : State) (k cause pos info : Nat) : Noted s (s.chainEvent k cause pos info) :=
  .of_activated (State.activate_activated ..)
theorem State.bhv_trainCheck (s : State) : s.trainCheck.bhv = s.bhv := (congrArg State.bhv (s.mapItems_frame _) :)
theorem State.chain_trainCheck (s : State) (k : Nat) : s.trainCheck.chain k = s.chain k := by unfold State.chain; rw [State.bhv_trainCheck]
theorem State.car_trainCheck (s : State) : s.trainCheck.car = s.car := (congrArg State.car (s.mapItems_frame _) :)
theorem State.chips_trainCheck (s : State) : s.trainCheck.chips = s.chips := (congrArg State.chips (s.mapItems_frame _) :)
theorem State.run_trainCheck (s : State) : s.trainCheck.run = s.run := (congrArg State.run (s.mapItems_frame _) :)
/-- An event of chain `k` makes its source pending. -/
theorem State.chainEvent_pending {s : State} {k : Nat} (hk : k < 8) (h : s.inService (160 + k) = false) (cause pos info : Nat) :
    ((s.chainEvent k cause pos info).src (160 + k)).pending = true := State.activate_pending (by omega) h _

/-! ### Transactions that end -/

/-- From `s` to `t` transactions have ended: work items and the controllers' activities have heard of it, and of the chains at
most transactions and frames are gone. -/
structure TxnsEnd (s t : State) : Prop where
  frame : { t with rings := s.rings, scan := s.scan, hub := s.hub, bhv := s.bhv, run := s.run } = s
  chain (j : Nat) : { t.chain j with txns := (s.chain j).txns, down := (s.chain j).down, up := (s.chain j).up } = s.chain j
  txns (j : Nat) : ∀ x ∈ (t.chain j).txns, x ∈ (s.chain j).txns
theorem TxnsEnd.refl (s : State) : TxnsEnd s s := ⟨rfl, fun _ => rfl, fun _ _ h => h⟩
theorem TxnsEnd.trans {s t u : State} (h : TxnsEnd s t) (g : TxnsEnd t u) : TxnsEnd s u :=
  ⟨(congrArg (fun v : State => { v with rings := s.rings, scan := s.scan, hub := s.hub, bhv := s.bhv, run := s.run }) g.frame :).trans h.frame,
   fun j => (congrArg (fun c : Chain => { c with txns := (s.chain j).txns, down := (s.chain j).down, up := (s.chain j).up }) (g.chain j) :).trans (h.chain j),
   fun j x hx => h.txns j x (g.txns j x hx)⟩
theorem TxnsEnd.of_bhv {s t : State} (hframe : { t with rings := s.rings, scan := s.scan, hub := s.hub, run := s.run } = s) : TxnsEnd s t := by
  have hbhv : t.bhv = s.bhv := (congrArg State.bhv hframe :)
  have hchain : ∀ j, t.chain j = s.chain j := fun j => by unfold State.chain; rw [hbhv]
  exact ⟨(congrArg (fun v : State => { v with bhv := s.bhv }) hframe :), fun j => by rw [hchain], fun j x hx => by rwa [hchain] at hx⟩
/-- A chain loses transactions and frames. -/
theorem TxnsEnd.setChain {s : State} {k : Nat} {c : Chain} (hc : { c with txns := (s.chain k).txns, down := (s.chain k).down, up := (s.chain k).up } = s.chain k)
    (htx : ∀ x ∈ c.txns, x ∈ (s.chain k).txns) : TxnsEnd s (s.setChain k c) := by
  have hchain : ∀ j, (s.setChain k c).chain j = c ∧ j = k ∨ (s.setChain k c).chain j = s.chain j := fun j => by
    by_cases hj : j = k
    · by_cases h8 : k < 8
      · exact .inl ⟨by rw [hj]; exact State.chain_setChain_same _ _ _ h8, hj⟩
      · exact .inr (by rw [State.setChain, if_neg h8])
    · exact .inr (State.chain_setChain_ne _ _ _ _ hj)
  refine ⟨by unfold State.setChain; split <;> rfl, fun j => ?_, fun j x hx => ?_⟩
  · rcases hchain j with ⟨h, rfl⟩ | h
    · rw [h, hc]
    · rw [h]
  · rcases hchain j with ⟨h, rfl⟩ | h
    · rw [h] at hx; exact htx x hx
    · rwa [h] at hx
theorem State.opDone_txnsEnd (s : State) (w : Work) (ix : Nat) (d : List Byte) (e : Option Status) : TxnsEnd s (s.opDone w ix d e) :=
  .of_bhv (congrArg (fun v : State => { v with run := s.run }) (s.modItem_frame w _) :)
/-- A transaction that ends without a response changes no chip's marks. -/
theorem State.ctlDone_txnsEnd (s : State) (k : Nat) (x : Txn) (d : List Byte) (e : Status) : TxnsEnd s (s.ctlDone k x d (some e)) := by
  unfold State.ctlDone
  split
  · exact s.opDone_txnsEnd ..
  · dsimp only
    split
    · exact TxnsEnd.refl s
    · exact .of_bhv rfl
  · exact TxnsEnd.refl s
theorem State.endTxn_txnsEnd (s : State) (k : Nat) (x : Txn) (d : List Byte) (e : Status) : TxnsEnd s (s.endTxn k x d (some e)) := by
  have hset : TxnsEnd s (s.setChain k { s.chain k with txns := (s.chain k).txns.filter (fun y => y.tag != x.tag) }) :=
    .setChain rfl fun _ hy => (List.mem_filter.mp hy).1
  unfold State.endTxn
  dsimp only
  split
  · exact hset
  · exact hset.trans (State.ctlDone_txnsEnd ..)
theorem State.endTxn_tag {k : Nat} (hk : k < 8) (s : State) (x : Txn) (d : List Byte) (e : Status) :
    ∀ y ∈ ((s.endTxn k x d (some e)).chain k).txns, y.tag ≠ x.tag := by
  have hset := State.chain_setChain_same s k { s.chain k with txns := (s.chain k).txns.filter (fun y => y.tag != x.tag) } hk
  have hof : ∀ y ∈ ((s.setChain k { s.chain k with txns := (s.chain k).txns.filter (fun y => y.tag != x.tag) }).chain k).txns, y.tag ≠ x.tag := by
    intro y hy
    rw [hset] at hy
    simpa using (List.mem_filter.mp hy).2
  unfold State.endTxn
  dsimp only
  intro y hy
  split at hy
  · exact hof y hy
  · exact hof y ((State.ctlDone_txnsEnd ..).txns k y hy)
theorem State.foldl_endTxn_txnsEnd (k : Nat) (e : Status) (l : List Txn) (s : State) :
    TxnsEnd s (l.foldl (fun s t => s.endTxn k t [] (some e)) s) :=
  List.foldlRecOn (motive := fun t : State => TxnsEnd s t) _ _ (TxnsEnd.refl s) fun t ht _ _ => ht.trans (t.endTxn_txnsEnd ..)
theorem State.foldl_endTxn_tags {k : Nat} (hk : k < 8) (e : Status) (l : List Txn) (s : State) :
    ∀ y ∈ ((l.foldl (fun s t => s.endTxn k t [] (some e)) s).chain k).txns, ∀ x ∈ l, y.tag ≠ x.tag := by
  induction l generalizing s with
  | nil => exact fun _ _ _ h => absurd h List.not_mem_nil
  | cons a l ih =>
    intro y hy x hx
    rcases List.mem_cons.mp hx with rfl | hx
    · exact s.endTxn_tag hk x [] e y ((State.foldl_endTxn_txnsEnd k e l _).txns k y hy)
    · exact ih _ y hy x hx
theorem State.foldl_opDone_txnsEnd (e : Status) (l : List (Work × Nat)) (s : State) : TxnsEnd s (l.foldl (fun s x => s.opDone x.1 x.2 [] (some e)) s) :=
  List.foldlRecOn (motive := fun t : State => TxnsEnd s t) _ _ (TxnsEnd.refl s) fun t ht _ _ => ht.trans (t.opDone_txnsEnd ..)
section
variable (s : State) (k : Nat) (p : Nat → Bool) (e : Status)
theorem State.endTxnsWhere_txnsEnd : TxnsEnd s (s.endTxnsWhere k p e) := by
  unfold State.endTxnsWhere
  dsimp only
  have hset : ∀ down up, TxnsEnd s (s.setChain k { s.chain k with down := down, up := up }) := fun _ _ => .setChain rfl fun _ h => h
  exact ((hset _ _).trans (State.foldl_endTxn_txnsEnd k e _ _)).trans (State.foldl_opDone_txnsEnd ..)
/-- No transaction to a position picked is left. -/
theorem State.endTxnsWhere_gone (hk : k < 8) : ∀ x ∈ ((s.endTxnsWhere k p e).chain k).txns, p x.pos = false := by
  intro x hx
  have hmem := (s.endTxnsWhere_txnsEnd k p e).txns k x hx
  unfold State.endTxnsWhere at hx
  dsimp only at hx
  replace hx := (State.foldl_opDone_txnsEnd ..).txns k x hx
  rw [← Bool.not_eq_true]
  exact fun hp => State.foldl_endTxn_tags hk e _ _ x hx x (List.mem_filter.mpr ⟨hmem, hp⟩) rfl
end

/-! ### Hops -/

/-- The chain once hop `p` has failed in cycle `now`. -/
def Chain.cut (c : Chain) (p now : Nat) : Chain :=
  { c with state := if p = 0 then .down else .up, reach := p, retrains := satAdd c.retrains 1 16, failed := tput 0 c.failed p (now + 1), training := false,
           replays := [], symbol := c.symbol.filter (fun x => x.1 < p), upTrace := c.upTrace.filter (fun fr => fr.pos < p) }
/-- A hop within reach of an UP chain fails: beside the failed hop, transactions and frames are gone. -/
theorem hopFail_chain {s : State} {k p : Nat} (hk : k < 8) (hup : (s.chain k).state = .up) (hp : p < (s.chain k).reach) :
    { (s.hopFail k p).chain k with txns := (s.chain k).txns, down := (s.chain k).down, up := (s.chain k).up } = (s.chain k).cut p s.now := by
  have hfail : s.hopFail k p = (((s.setChain k ((s.chain k).cut p s.now)).endTxnsWhere k (fun q => p ≤ q) .chainDown).unsync k p).chainEvent k 2 p 0 :=
    if_pos ⟨hup, hp⟩
  have hends := ((s.setChain k ((s.chain k).cut p s.now)).endTxnsWhere_txnsEnd k (fun q => p ≤ q) .chainDown).chain k
  rw [State.chain_setChain_same _ _ _ hk] at hends
  rw [hfail, (State.chainEvent_noted ..).chain, State.chain_unsync]
  exact hends

/-- What is lost with a hop is noted, and what waits for the chains' training or for a free tag goes on: of the chains' state this
leaves all but transactions and frames. -/
theorem noteLost_pumped_chain (s u : State) (k j : Nat) :
    { ((s.noteLost u k).trainCheck.armPump).chain j with txns := (u.chain j).txns, down := (u.chain j).down } = u.chain j := by
  have harm := (State.armPump_armed (s.noteLost u k).trainCheck).chain j
  rwa [State.chain_trainCheck, (State.noteLost_noted ..).chain] at harm
/-- The chain as HOP_FAIL leaves it, but for transactions and frames. -/
theorem hopFail_pumped_chain {s u : State} {k p : Nat} (v : State) (hk : k < 8) (hup : (s.chain k).state = .up) (hp : p < (s.chain k).reach)
    (hu : u = s.hopFail k p) :
    let c := ((v.noteLost u k).trainCheck.armPump).chain k
    { c with txns := (s.chain k).txns, down := (s.chain k).down, up := (s.chain k).up } = (s.chain k).cut p s.now := by
  have hchain := hopFail_chain hk hup hp
  rw [← hu] at hchain
  exact (congrArg (fun c : Chain => { c with txns := (s.chain k).txns, down := (s.chain k).down, up := (s.chain k).up }) (noteLost_pumped_chain v u k k) :).trans hchain

section
variable {s : State} {k : Nat}
theorem hopUp_joins {p ps : Nat} (hp : p < 16) (htrain : (s.chain k).training = true) (hreach : (s.chain k).reach = p)
    (hstate : (s.chain k).state = .training ∨ (s.chain k).state = .up) (htime : s.now ≤ (s.chain k).trainFrom + 500000) :
    ∃ cause pos, s.hopUp k p ps = (s.setChain k { s.chain k with
      state := .up, reach := p + 1, present := setFld (s.chain k).present p 1 1, delay := (s.chain k).hopDelay p ps,
      training := decide (p + 1 < 16) }).chainEvent k cause pos 0 := by
  unfold State.hopUp
  dsimp only
  rw [if_pos ⟨htrain, hreach.symm, hp, hstate⟩, if_neg (Nat.not_lt.mpr htime)]
  exact ⟨_, _, rfl⟩
/-- The chain once hop `p` has come back. -/
def Chain.joined (c : Chain) (p ps : Nat) : Chain :=
  let c1 := { c with failed := tput 0 c.failed p 0, delay := c.hopDelay p ps, present := setFld c.present p 1 1 }
  { c1 with state := if c1.span = 0 then c.state else .up, reach := c1.span, step := if c.reach < c1.span then 0 else c.step }
variable {p ps n : Nat} (htrain : (s.chain k).training = false) (hfailed : tget 0 (s.chain k).failed p = n + 1)
include htrain hfailed
theorem hopUp_returns (hstate : (s.chain k).state = .up ∨ (s.chain k).state = .down) (htime : s.now ≤ n + 60000) :
    Noted (s.setChain k ((s.chain k).joined p ps)) (s.hopUp k p ps) := by
  unfold State.hopUp
  dsimp only
  rw [if_neg (by rw [htrain]; rintro ⟨h, -⟩; cases h), hfailed]
  dsimp only
  rw [if_pos ⟨hstate, htime⟩]
  split
  · exact Noted.refl _
  · exact State.chainEvent_noted ..
theorem hopUp_late (htime : n + 60000 < s.now) : s.hopUp k p ps = s := by
  unfold State.hopUp
  dsimp only
  rw [if_neg (by rw [htrain]; rintro ⟨h, -⟩; cases h), hfailed]
  exact if_neg fun h => absurd h.2 (Nat.not_le.mpr htime)
end
theorem trainTimeout_ends {s : State} {k : Nat} (htrain : (s.chain k).training = true) (htime : (s.chain k).trainFrom + 500000 ≤ s.now) :
    Noted (s.setChain k { s.chain k with training := false, state := if (s.chain k).reach = 0 then .empty else (s.chain k).state }) (s.trainTimeout k) := by
  unfold State.trainTimeout
  dsimp only
  by_cases hreach : (s.chain k).reach = 0
  · simp only [htrain, htime, hreach, and_self, if_true]
    exact State.chainEvent_noted ..
  · simp only [htrain, htime, hreach, and_self, if_true, if_false]
    exact Noted.refl _
/-- The chain with one frame more counted that has failed its CRC at hop `p`. -/
def Chain.failedCrc (c : Chain) (p : Nat) (up : Bool) : Chain :=
  { c with crc := if up ∧ p = 0 then satAdd c.crc 1 32 else c.crc
           replays := tput 0 c.replays (2 * p + b2n (!up)) (tget 0 c.replays (2 * p + b2n (!up)) + 1) }
theorem crcFail_eq (s : State) (k p : Nat) (up : Bool) : s.crcFail k p up =
    if 8 ≤ tget 0 (s.chain k).replays (2 * p + b2n (!up)) + 1 then (s.setChain k ((s.chain k).failedCrc p up)).hopFail k p
    else s.setChain k ((s.chain k).failedCrc p up) := rfl
theorem noteLost_of_reach {s t : State} {k : Nat} (h : (t.chain k).reach = (s.chain k).reach) : s.noteLost t k = t :=
  if_neg (by rw [h]; exact lt_irrefl _)

/-- When a hop that has been down for 1 ms is tried again (R344). -/
theorem retriedAt_of_late {n now : Nat} (h : n + 1000000 < now) : (if n + 1 ≠ 0 ∧ n + 1 + 999999 < now then n + 1 + 1000000 else n + 1) = n + 1000001 := by
  split <;> omega

/-! ### O33 -/

/-- Settles O33: hops by the state of their chain, and frames by their hop's run of replays. -/
theorem hopsComeUpFailAndCount : Obligations.HopsComeUpFailAndCount := by
  refine ⟨fun s k p ps hk hp hf => ⟨fun htrain hreach hstate htime => ?_, fun hup hin => ?_, fun n htrain hstate hfailed htime => ?_,
    fun n htrain hfailed htime => ?_, fun n hfailed htime => ?_, fun htrain htime => ?_⟩, fun s k p up hk hp hf harm => ⟨fun hrun => ?_, fun hrun hstate hin => ?_⟩⟩
  · obtain ⟨cause, pos, hup⟩ := hopUp_joins (ps := ps) hp htrain hreach hstate htime
    refine ⟨_, exec_hopUp hf k p ps, ?_⟩
    rw [State.chain_trainCheck, State.chips_trainCheck, hup, (State.chainEvent_noted ..).chain, (State.chainEvent_noted ..).chips,
      State.chain_setChain_same _ _ _ hk, State.setChain_chips]
    refine ⟨rfl, rfl, ?_, rfl, ?_, fun j hj => ?_, rfl, fun hidle => ?_⟩
    · rw [bit_setFld_one]; simp
    · simp [Chain.hopDelay, tget_tput]
    · rw [State.chain_trainCheck, (State.chainEvent_noted ..).chain, State.chain_setChain_ne _ _ _ _ hj]
    · unfold State.src
      rw [State.car_trainCheck]
      exact State.chainEvent_pending hk (by unfold State.inService; rw [State.setChain_car]; exact hidle) ..
  · have hchain := hopFail_pumped_chain s hk hup hin rfl
    refine ⟨_, exec_hopFail hf k p, (congrArg Chain.state hchain :), (congrArg Chain.reach hchain :), (congrArg Chain.retrains hchain :), ?_,
      (congrArg Chain.present hchain :)⟩
    have hfailed : ((s.noteLost (s.hopFail k p) k).trainCheck.armPump.chain k).failed = tput 0 (s.chain k).failed p (s.now + 1) := (congrArg Chain.failed hchain :)
    rw [hfailed, tget_tput_self]
  · have hchain : ((s.hopUp k p ps).trainCheck).chain k = (s.chain k).joined p ps := by
      rw [State.chain_trainCheck, (hopUp_returns htrain hfailed hstate htime).chain, State.chain_setChain_same _ _ _ hk]
    refine ⟨_, exec_hopUp hf k p ps, ?_⟩
    rw [hchain]
    exact ⟨tget_tput_self .., fun q hq => tget_tput_ne _ _ _ _ _ hq, rfl, rfl, rfl⟩
  · refine ⟨_, exec_hopUp hf k p ps, ?_⟩
    rw [hopUp_late htrain hfailed htime, State.bhv_trainCheck]
  · refine ⟨_, exec_hopRetry hf k, ?_⟩
    unfold State.hopRetry
    dsimp only
    rw [State.chain_setChain_same _ _ _ hk]
    refine ⟨?_, rfl, by unfold State.setChain; rw [if_pos hk]⟩
    rw [tget_tmodRange_in _ _ _ hp, hfailed]
    exact retriedAt_of_late htime
  · have hnoted := trainTimeout_ends htrain htime
    refine ⟨_, exec_trainingTimeout hf k, ?_⟩
    rw [State.chain_trainCheck, hnoted.chain, State.chain_setChain_same _ _ _ hk]
    exact ⟨rfl, rfl, rfl, fun j hj => by rw [State.chain_trainCheck, hnoted.chain, State.chain_setChain_ne _ _ _ _ hj]⟩
  · refine ⟨_, exec_frameCrcFail hf k p up, ?_⟩
    rw [crcFail_eq, if_neg (by omega)]
    have hset := State.chain_setChain_same s k ((s.chain k).failedCrc p up) hk
    rw [noteLost_of_reach (by rw [hset]; rfl), State.armPump_of_nil (by rw [State.run_trainCheck, State.setChain_run]; exact harm), State.chain_trainCheck, hset]
    exact ⟨rfl, tget_tput_self .., rfl, rfl, rfl⟩
  · refine ⟨_, exec_frameCrcFail hf k p up, ?_⟩
    have hset := State.chain_setChain_same s k ((s.chain k).failedCrc p up) hk
    have hcrc : s.crcFail k p up = (s.setChain k ((s.chain k).failedCrc p up)).hopFail k p := by rw [crcFail_eq, if_pos (by omega)]
    have hchain := hopFail_pumped_chain (s := s.setChain k ((s.chain k).failedCrc p up)) s hk (by rw [hset]; exact hstate) (by rw [hset]; exact hin) hcrc
    exact ⟨(congrArg Chain.state hchain :), (congrArg Chain.reach hchain :), (congrArg Chain.replays hchain :)⟩

end Sys2Proof.Machine


/-! PROOFS. Alerts (O34): what the hub does with an alert that it takes. -/
namespace Sys2Proof.Machine

/-! ### Trace's part of a lost chip -/

theorem State.placeRec_noted (s : State) (f : Nat) (r : TraceRec) : Noted s (s.placeRec f r) := by
  have hclean : Noted s { s with sramClean := false } := ⟨_, _, _, _, _, rfl⟩
  unfold State.placeRec
  dsimp only
  split
  · exact s.ringPush_noted _
  · split
    · exact hclean.trans (State.setTchip_noted ..)
    · split
      · split
        · exact s.ringPush_noted _
        · exact s.setTrc_noted _
      · split
        · split
          · exact Noted.refl s
          · exact hclean.trans (State.setTchip_noted ..)
        · split
          · exact (s.setTchip_noted _ _).trans (State.ringPush_noted ..)
          · exact (s.setTchip_noted _ _).trans (State.setTrc_noted ..)
theorem State.payGaps_noted (s : State) (f : Nat) : Noted s (s.payGaps f) :=
  List.foldlRecOn (motive := fun t : State => Noted s t) _ _ (s.setTchip_noted _ _) fun t ht r _ => ht.trans (t.placeRec_noted f r)
theorem State.bhv_mapItems (s : State) (f : Work → Item → Item) : (s.mapItems f).bhv = s.bhv := (congrArg State.bhv (s.mapItems_frame f) :)
/-- The gaps that chips are owed, paid to all of them. -/
theorem State.foldl_payGaps_noted (l : List Nat) (s : State) : Noted s (l.foldl (fun s f => if (s.tchip f).owed ≠ [] then s.payGaps f else s) s) :=
  List.foldlRecOn (motive := fun t : State => Noted s t) _ _ (Noted.refl s) fun t ht f _ => by
    split
    · exact ht.trans (t.payGaps_noted f)
    · exact ht
/-- Once every armed chip has flushed, trace is STOPPED, and waiting items become eligible: nothing of the chains changes. -/
theorem State.checkFlushed_bhv (s : State) : s.checkFlushed.bhv = s.bhv := by
  unfold State.checkFlushed
  have hpaid := State.foldl_payGaps_noted (List.range 128) s
  generalize (List.range 128).foldl (fun s f => if (s.tchip f).owed ≠ [] then s.payGaps f else s) s = u at hpaid
  split
  · exact (State.bhv_mapItems ..).trans hpaid.bhv
  · rfl
theorem State.traceReset_bhv (s : State) (f : Nat) : (s.traceReset f).bhv = s.bhv := by
  unfold State.traceReset
  split
  · exact (State.checkFlushed_bhv _).trans ((s.hubGap_noted ..).trans (State.setTchip_noted ..)).bhv
  · rfl
theorem State.chain_traceReset (s : State) (f k : Nat) : (s.traceReset f).chain k = s.chain k := by unfold State.chain; rw [State.traceReset_bhv]

/-! ### Alerts at the hub -/

/-- The chain once the hub has accepted, or known again, alert `num` of position `p`. -/
def Chain.acked (c : Chain) (p num : Nat) : Chain :=
  { c with down := c.down ++ [.alertAck p num], lastAlert := tput 0 c.lastAlert p (num + 1) }
section
variable {s : State} {k p : Nat} {a : HeldAlert} {l : List HeldAlert} (hf : s.fastClock = true) (hup : (s.chain k).state = .up)
  (hp : p < (s.chain k).reach) (halert : (s.chip (16 * k + p)).alerts = a :: l)
include hf hup hp halert
/-- The hub takes the oldest alert of a position within reach. -/
theorem exec_alert_held : exec (.alert k p) s = .next
    (if tget 0 (s.chain k).lastAlert p = a.num + 1 then s.setChain k ((s.chain k).acked p a.num)
     else (s.setChain k ((s.chain k).acked p a.num)).alertAccept k p a.word) := by
  rw [exec_alert hf]
  unfold State.recvAlert
  rw [halert]
  dsimp only
  rw [if_pos ⟨hup, hp, hf⟩]
  rfl
end
/-- An alert that is no unit halt, stop, RESET or READY alert of an ADDRESSABLE chip activates the chip's source. -/
theorem alertAccept_plain {s : State} {k p word : Nat} (h1 : fld word 0 8 ≠ 1) (h2 : fld word 0 8 ≠ 2) (h7 : fld word 0 8 ≠ 7) (h8 : fld word 0 8 ≠ 8)
    (haddr : s.addressable (16 * k + p) = true) : s.alertAccept k p word = s.activate (32 + (16 * k + p)) word := by
  simp only [State.alertAccept, h1, h2, h7, h8, haddr, false_and, if_false, if_true]
/-- A RESET alert ends the chip's addressability and its transactions. -/
theorem alertReset_chain {s : State} {k : Nat} (hk : k < 8) (p : Nat) :
    let c := (s.alertReset k p).chain k
    { c with txns := (s.chain k).txns, down := (s.chain k).down, up := (s.chain k).up } =
        { s.chain k with addressable := setFld (s.chain k).addressable p 1 0, resets := satAdd (s.chain k).resets 1 16 } ∧
      ∀ x ∈ c.txns, x.pos ≠ p := by
  set u := s.setChain k { s.chain k with addressable := setFld (s.chain k).addressable p 1 0, resets := satAdd (s.chain k).resets 1 16 } with hu
  have hchain : (s.alertReset k p).chain k = (u.endTxnsWhere k (fun q => q == p) .chipAbsent).chain k := by
    have hreset : s.alertReset k p = ((u.endTxnsWhere k (fun q => q == p) .chipAbsent).chainEvent k 4 p 0).traceReset (16 * k + p) := rfl
    rw [hreset, State.chain_traceReset, (State.chainEvent_noted ..).chain]
  have hends := (u.endTxnsWhere_txnsEnd k (fun q => q == p) .chipAbsent).chain k
  have hset := State.chain_setChain_same s k { s.chain k with addressable := setFld (s.chain k).addressable p 1 0, resets := satAdd (s.chain k).resets 1 16 } hk
  rw [← hu] at hset
  rw [hset] at hends
  dsimp only
  rw [hchain]
  exact ⟨hends, fun x hx => by simpa using u.endTxnsWhere_gone k (fun q => q == p) .chipAbsent hk x hx⟩

/-- Settles O34: an alert by its number, and a new one by its cause. -/
theorem alertsAreAcceptedOnce : Obligations.AlertsAreAcceptedOnce := by
  intro s k p a l hk hp hf hup hreach halert
  have hexec := exec_alert_held hf hup hreach halert
  have hset := State.chain_setChain_same s k ((s.chain k).acked p a.num) hk
  refine ⟨fun hseen => ?_, fun hnew h7 => ?_, fun hnew h1 h2 h7 h8 haddr hidle => ?_⟩
  · rw [if_pos hseen] at hexec
    refine ⟨_, hexec, ?_⟩
    rw [hset]
    exact ⟨rfl, by unfold State.setChain; rw [if_pos hk], rfl⟩
  · rw [if_neg hnew] at hexec
    have haccept : ∀ u : State, u.alertAccept k p a.word = u.alertReset k p := fun u => by
      simp only [State.alertAccept, h7, if_true]
      exact if_neg (by decide)
    obtain ⟨hchain, hgone⟩ := alertReset_chain (s := s.setChain k ((s.chain k).acked p a.num)) hk p
    rw [hset] at hchain
    refine ⟨_, hexec.trans (by rw [haccept]), ?_, (congrArg Chain.resets hchain :), ?_, hgone⟩
    · rw [show (((s.setChain k ((s.chain k).acked p a.num)).alertReset k p).chain k).addressable = setFld (s.chain k).addressable p 1 0 from
        (congrArg Chain.addressable hchain :), bit_setFld_zero]
      simp
    · rw [show (((s.setChain k ((s.chain k).acked p a.num)).alertReset k p).chain k).lastAlert = tput 0 (s.chain k).lastAlert p (a.num + 1) from
        (congrArg Chain.lastAlert hchain :), tget_tput_self]
  · rw [if_neg hnew] at hexec
    have hdiv : (16 * k + p) / 16 = k := by omega
    have haddr' : (s.setChain k ((s.chain k).acked p a.num)).addressable (16 * k + p) = true := by
      unfold State.addressable at haddr ⊢
      rw [hdiv] at haddr ⊢
      rw [hset]
      exact haddr
    have hidle' : (s.setChain k ((s.chain k).acked p a.num)).inService (32 + (16 * k + p)) = false := by
      unfold State.inService at hidle ⊢
      rw [State.setChain_car, ← Nat.add_assoc]
      exact hidle
    rw [alertAccept_plain h1 h2 h7 h8 haddr'] at hexec
    have hact := State.activateAt_idle (by omega) hidle' a.word (s.setChain k ((s.chain k).acked p a.num)).time
    have hnoted : Noted (s.setChain k ((s.chain k).acked p a.num)) ((s.setChain k ((s.chain k).acked p a.num)).activate (32 + (16 * k + p)) a.word) :=
      .of_activated (State.activate_activated ..)
    refine ⟨_, hexec, ?_, ?_, ?_, ?_, fun n hn => ?_, ?_, ?_⟩
    · rw [hnoted.chain, hset]; rfl
    · rw [hnoted.chain, hset]; exact tget_tput_self ..
    · rw [Nat.add_assoc]; exact State.activate_pending (by omega) hidle' _
    · rw [Nat.add_assoc]; exact State.activate_data (by omega) hidle' _
    · rw [Nat.add_assoc] at hn
      rw [State.activate, hact, State.src_setSrc_ne _ _ _ _ hn]
      unfold State.src
      rw [State.setChain_car]
    · rw [hnoted.chips, State.setChain_chips]
    · rw [hnoted.run, State.setChain_run]

end Sys2Proof.Machine


/-! PROOFS. Fabric time and TRACE frames (O35): records that enter the staging ring, sync symbols as they are sent and applied, and
the stamps of probes. -/
namespace Sys2Proof.Machine

/-! ### Records that stream -/

/-- From `s` to `t` the records `x` have entered the staging ring of a trace that streams. -/
structure Streamed (s t : State) (x : List TraceRec) : Prop where
  ring : t.trc.ring = s.trc.ring ++ x
  state : t.trc.state = s.trc.state
  mode : t.trc.windowMode = s.trc.windowMode
  need : t.trc.need = s.trc.need
  bhv : t.bhv = s.bhv
  chips : t.chips = s.chips
theorem Streamed.refl (s : State) : Streamed s s [] := ⟨(List.append_nil _).symm, rfl, rfl, rfl, rfl, rfl⟩
theorem Streamed.trans {s t u : State} {x y : List TraceRec} (h : Streamed s t x) (g : Streamed t u y) : Streamed s u (x ++ y) :=
  ⟨by rw [g.ring, h.ring, List.append_assoc], g.state.trans h.state, g.mode.trans h.mode, g.need.trans h.need, g.bhv.trans h.bhv, g.chips.trans h.chips⟩
theorem Streamed.after {s t u : State} {x : List TraceRec} (h : Streamed s t x) (g : Streamed t u []) : Streamed s u x := by
  have := h.trans g
  rwa [List.append_nil] at this
theorem Streamed.of_trc {s t : State} (htrc : t.trc = s.trc) (hbhv : t.bhv = s.bhv) (hchips : t.chips = s.chips) : Streamed s t [] :=
  ⟨by rw [htrc, List.append_nil], by rw [htrc], by rw [htrc], by rw [htrc], hbhv, hchips⟩
theorem Streamed.setTrc (s : State) {trc : Trc} (hring : trc.ring = s.trc.ring) (hstate : trc.state = s.trc.state) (hmode : trc.windowMode = s.trc.windowMode)
    (hneed : trc.need = s.trc.need) : Streamed s { s with trc := trc } [] := ⟨by rw [hring, List.append_nil], hstate, hmode, hneed, rfl, rfl⟩
theorem State.activate_streamed (s : State) (n data : Nat) : Streamed s (s.activate n data) [] := by
  obtain ⟨_, _, h⟩ := s.activate_activated n data
  rw [h]
  exact .of_trc rfl rfl rfl
theorem State.gapEvent_streamed (s : State) (f : Nat) (hub : Bool) (count : Nat) : Streamed s (s.gapEvent f hub count) [] := s.activate_streamed ..
theorem State.setTchip_streamed (s : State) (f : Nat) (c : TraceChip) : Streamed s (s.setTchip f c) [] := by
  unfold State.setTchip
  split
  · exact ⟨(List.append_nil _).symm, rfl, rfl, rfl, rfl, rfl⟩
  · exact Streamed.refl s
theorem State.ringPush_streamed (s : State) (rs : List TraceRec) : Streamed s (s.ringPush rs) rs := by
  have hpushed : Streamed s { s with sramClean := false, trc := { s.trc with ring := s.trc.ring ++ rs } } rs := ⟨rfl, rfl, rfl, rfl, rfl, rfl⟩
  unfold State.ringPush
  dsimp only
  split
  · exact hpushed.after (State.activate_streamed ..)
  · exact hpushed
/-- Out of WINDOW mode a record enters the ring. -/
theorem State.placeRec_streamed {s : State} (h : s.trc.windowMode = false) (f : Nat) (r : TraceRec) : Streamed s (s.placeRec f r) [r] := by
  unfold State.placeRec
  dsimp only
  rw [h]
  exact s.ringPush_streamed [r]
theorem State.hubGap_streamed (s : State) (f cause count : Nat) : Streamed s (s.hubGap f cause count) [] := by
  unfold State.hubGap
  dsimp only
  generalize hu : s.setTchip f _ = u
  have hset : Streamed s u [] := hu ▸ s.setTchip_streamed ..
  have hlink : Streamed u { u with trc := { u.trc with linkGaps := satAdd u.trc.linkGaps 1 32 } } [] := .setTrc u rfl rfl rfl rfl
  exact (hset.after hlink).after (State.gapEvent_streamed ..)
/-- The gaps owed to a chip enter the ring in order. -/
theorem State.payGaps_streamed {s : State} (h : s.trc.windowMode = false) (f : Nat) : ∃ x, Streamed s (s.payGaps f) x :=
  List.foldlRecOn (motive := fun t : State => ∃ x, Streamed s t x) _ _ ⟨[], s.setTchip_streamed _ _⟩ fun _ ⟨x, ht⟩ r _ =>
    ⟨x ++ [r], ht.trans (State.placeRec_streamed (ht.mode.trans h) f r)⟩
theorem State.checkFlushed_of_ne {s : State} (h : s.trc.state ≠ .flushing) : s.checkFlushed = s := if_neg fun hf => h hf.1
/-- Ahead of record `r` of chip `f` the hub notes what the sequence numbers show lost. -/
def State.gapBefore (s : State) (f : Nat) (r : TraceRec) : State :=
  if (s.tchip f).armed ∧ (s.tchip f).expect < 256 ∧ r.seq ≠ (s.tchip f).expect then s.hubGap f 2 ((r.seq + 256 - (s.tchip f).expect) % 256) else s
/-- Record `r` of chip `f` is counted. -/
def State.countRec (s : State) (f : Nat) (r : TraceRec) : State :=
  let s := s.setTchip f { s.tchip f with expect := (r.seq + 1) % 256 }
  let s := { s with trc := { s.trc with received := satAdd s.trc.received 1 32 } }
  if r.type = 0x10 then
    { s with trc := { s.trc with gaps := satAdd s.trc.gaps 1 32, dropped := satAdd s.trc.dropped r.arg32 32 } }.gapEvent f false r.arg32
  else s
/-- A FLUSHED record of chip `f` is taken. -/
def State.takeFlushed (s : State) (f : Nat) : State :=
  let q := if (s.tchip f).odd then s.free else (1, s)
  (q.2.setTchip f { q.2.tchip f with flushed := q.1.getLsbD 0 }).checkFlushed
theorem State.recvRec_eq (s : State) (f : Nat) (r : TraceRec) : s.recvRec f r =
    let u := (((s.gapBefore f r).payGaps f).countRec f r).placeRec f r
    if r.type = 0x11 then u.takeFlushed f else u := rfl
theorem State.gapBefore_streamed (s : State) (f : Nat) (r : TraceRec) : Streamed s (s.gapBefore f r) [] := by
  unfold State.gapBefore
  split
  · exact s.hubGap_streamed ..
  · exact Streamed.refl s
theorem State.countRec_streamed (s : State) (f : Nat) (r : TraceRec) : Streamed s (s.countRec f r) [] := by
  unfold State.countRec
  dsimp only
  generalize hu : s.setTchip f _ = u
  have hset : Streamed s u [] := hu ▸ s.setTchip_streamed ..
  have hcount : ∀ n g d, Streamed u { u with trc := { u.trc with received := n, gaps := g, dropped := d } } [] := fun _ _ _ => .setTrc u rfl rfl rfl rfl
  split
  · exact (hset.after (hcount _ _ _)).after (State.gapEvent_streamed ..)
  · exact hset.after (hcount _ _ _)
/-- A FLUSHED record ends no trace that streams. -/
theorem State.takeFlushed_streamed {s : State} (h : s.trc.state = .streaming) (f : Nat) : Streamed s (s.takeFlushed f) [] := by
  have hfree : Streamed s (if (s.tchip f).odd then s.free else (1, s)).2 [] := by
    split
    · exact .of_trc rfl rfl rfl
    · exact Streamed.refl s
  have hset := fun c => hfree.after (State.setTchip_streamed (if (s.tchip f).odd then s.free else (1, s)).2 f c)
  unfold State.takeFlushed
  dsimp only
  rw [State.checkFlushed_of_ne (by rw [(hset _).state, h]; decide)]
  exact hset _
section
variable {s : State} (hstate : s.trc.state = .streaming) (hmode : s.trc.windowMode = false)
include hstate hmode
/-- A record enters the ring after what its chip is owed. -/
theorem State.recvRec_streamed (f : Nat) (r : TraceRec) : ∃ x, Streamed s (s.recvRec f r) (x ++ [r]) := by
  have hgap := s.gapBefore_streamed f r
  obtain ⟨x, hx⟩ := State.payGaps_streamed (hgap.mode.trans hmode) f
  have hcount := (hgap.trans hx).after (State.countRec_streamed _ f r)
  have hplaced := hcount.trans (State.placeRec_streamed (hcount.mode.trans hmode) f r)
  rw [State.recvRec_eq]
  dsimp only
  split
  · exact ⟨x, hplaced.after (State.takeFlushed_streamed (hplaced.state.trans hstate) f)⟩
  · exact ⟨x, hplaced⟩
/-- The records of a frame enter the ring in order, with what their chip is owed between them. -/
theorem State.foldl_recvRec_streamed (f : Nat) (rs : List TraceRec) :
    ∃ x, Streamed s (rs.foldl (fun (s : State) r => s.recvRec f r) s) x ∧ rs.Sublist x := by
  induction rs generalizing s with
  | nil => exact ⟨[], Streamed.refl s, List.Sublist.refl _⟩
  | cons r rs ih =>
    obtain ⟨x, hx⟩ := State.recvRec_streamed hstate hmode f r
    obtain ⟨y, hy, hsub⟩ := ih (hx.state.trans hstate) (hx.mode.trans hmode)
    exact ⟨x ++ [r] ++ y, hx.trans hy, (List.sublist_append_right x [r]).append hsub⟩
end
theorem State.drainCheck_streamed (s : State) : Streamed s s.drainCheck [] := by
  have hframe := s.mapItems_frame (fun _ i =>
    if opcodeOf i.desc = 0x42 ∧ i.wait ≠ Wait.no ∧ i.begun ∧
       (dbits i.desc 0x10 2 1 = 1 ∧ s.trc.ring ≠ [] ∨ Nat.max (db i.desc 0x30 4) 1 ≤ s.trc.ring.length) then
      Item.mark s.now i { i with wait := Wait.no } else i)
  exact .of_trc (congrArg State.trc hframe :) (congrArg State.bhv hframe :) (congrArg State.chips hframe :)
/-- A TRACE frame for which there is room in a trace that streams. -/
theorem recvTrace_streams {s : State} {k p : Nat} {rs : List TraceRec} {rest : List Frame} (hup : (s.chain k).upTrace = .trace p rs :: rest)
    (hstate : s.trc.state = .streaming) (hmode : s.trc.windowMode = false) (hfull : s.ringFull = false) (hroom : rs.length ≤ s.ringFree) :
    ∃ x, Streamed { s.setChain k { s.chain k with upTrace := rest } with trc := { s.trc with need := 0 } } (s.recvTrace k) x ∧ rs.Sublist x := by
  have harmed : s.trc.state.armed = true := by rw [hstate]; rfl
  have hrecv : s.recvTrace k = (rs.foldl (fun (s : State) r => s.recvRec (16 * k + p) r)
      { s.setChain k { s.chain k with upTrace := rest } with trc := { (s.setChain k { s.chain k with upTrace := rest }).trc with need := 0 } }).drainCheck := by
    simp only [State.recvTrace, hup, harmed, hfull, if_neg (Nat.not_lt.mpr hroom), Bool.false_eq_true, if_true, if_false]
  rw [hrecv, State.setChain_trc]
  obtain ⟨x, hx, hsub⟩ := State.foldl_recvRec_streamed (s := { s.setChain k { s.chain k with upTrace := rest } with trc := { s.trc with need := 0 } })
    hstate hmode (16 * k + p) rs
  exact ⟨x, hx.after (State.drainCheck_streamed _), hsub⟩

/-! ### Sync symbols -/

/-- The chain with a symbol that the hub sends at `time` on its way to each position within reach. -/
def Chain.symbolled (c : Chain) (time : Nat) : Chain :=
  if c.state = .up then { c with symbol := tmodRange 0 c.symbol 0 c.reach (fun _ _ => time + 1) } else c
/-- The symbol goes out on chain `k`. -/
def State.sendSymbol (s : State) (k : Nat) : State :=
  if (s.chain k).state = .up then s.setChain k { s.chain k with symbol := tmodRange 0 (s.chain k).symbol 0 (s.chain k).reach (fun _ _ => s.time + 1) } else s
theorem State.chain_sendSymbol {k : Nat} (hk : k < 8) (s : State) (j : Nat) :
    (s.sendSymbol k).chain j = if j = k then (s.chain k).symbolled s.time else s.chain j := by
  unfold State.sendSymbol Chain.symbolled
  split
  · rw [State.chain_setChain _ _ _ _ hk]
  · split
    · next e => rw [e]
    · rfl
theorem State.sendSymbol_frame (s : State) (k : Nat) : { s.sendSymbol k with bhv := s.bhv } = s ∧ (s.sendSymbol k).bhv.syncCnt = s.bhv.syncCnt := by
  unfold State.sendSymbol State.setChain
  split
  · split <;> exact ⟨rfl, rfl⟩
  · exact ⟨rfl, rfl⟩
/-- A symbol sent on the first `n` chains. -/
theorem State.foldl_sendSymbol {n : Nat} (hn : n ≤ 8) (s : State) :
    let t := (List.range n).foldl State.sendSymbol s
    ({ t with bhv := s.bhv } = s ∧ t.bhv.syncCnt = s.bhv.syncCnt) ∧ ∀ j, t.chain j = if j < n then (s.chain j).symbolled s.time else s.chain j := by
  induction n with
  | zero => exact ⟨⟨rfl, rfl⟩, fun _ => rfl⟩
  | succ n ih =>
    obtain ⟨⟨hframe, hcnt⟩, hchain⟩ := ih (by omega)
    rw [List.range_succ, List.foldl_append, List.foldl_cons, List.foldl_nil]
    generalize (List.range n).foldl State.sendSymbol s = t at hframe hcnt hchain
    obtain ⟨hframe', hcnt'⟩ := t.sendSymbol_frame n
    have htime : t.time = s.time := by rw [← hframe]; rfl
    refine ⟨⟨(congrArg (fun v : State => { v with bhv := s.bhv }) hframe' :).trans hframe, hcnt'.trans hcnt⟩, fun j => ?_⟩
    rw [State.chain_sendSymbol (by omega), htime, hchain, hchain, if_neg (lt_irrefl n)]
    by_cases hj : j = n
    · rw [if_pos hj, if_pos (by omega), hj]
    · rw [if_neg hj]
      exact if_congr (by omega) rfl rfl
/-- The hub's state once symbol `m` is counted. -/
def State.symbolCounted (s : State) (m : Nat) : State := { s with bhv := { s.bhv with syncCnt := (s.bhv.syncCnt + 1) % 2 ^ 32, lastSync := m } }
/-- A symbol sent on every chain. -/
def State.symbolSent (s : State) (m : Nat) : State := (List.range 8).foldl State.sendSymbol (s.symbolCounted m)
theorem State.symbolSent_spec (s : State) (m : Nat) : (s.symbolSent m).chips = s.chips ∧ (s.symbolSent m).bhv.syncCnt = (s.bhv.syncCnt + 1) % 2 ^ 32 ∧
    ∀ j, j < 8 → (s.symbolSent m).chain j = (s.chain j).symbolled s.time := by
  unfold State.symbolSent
  obtain ⟨⟨hframe, hcnt⟩, hchain⟩ := State.foldl_sendSymbol (Nat.le_refl 8) (s.symbolCounted m)
  generalize (List.range 8).foldl State.sendSymbol (s.symbolCounted m) = t at hframe hcnt hchain
  have hchips : t.chips = (s.symbolCounted m).chips := (congrArg State.chips hframe :)
  exact ⟨hchips, hcnt, fun j hj => (hchain j).trans (if_pos hj)⟩
/-- A symbol that is due. -/
theorem syncSymbol_due {s : State} (hf : s.fastClock = true) (htime : s.time % 1000000 = 0) (hlast : s.bhv.lastSync ≠ s.time / 1000000 + 1) :
    s.syncSymbol = s.symbolSent (s.time / 1000000 + 1) := by
  unfold State.syncSymbol
  dsimp only
  rw [if_pos ⟨hf, htime, hlast⟩]
  rfl

/-! ### A chip's time -/

theorem chip_timeAt_lt (c : Chip) (now : Nat) : c.timeAt now < 2 ^ 64 := by
  unfold Chip.timeAt
  dsimp only
  omega
/-- A chip set to time `t` with any slew shows it until time passes. -/
theorem timeAt_set {t : Nat} (ht : t < 2 ^ 64) (now : Nat) (c : Chip) (hadj : c.ftAdj = (t + 2 ^ 64 - now % 2 ^ 64) % 2 ^ 64) (hfrom : c.slewFrom = now) :
    c.timeAt now = t := by
  unfold Chip.timeAt
  dsimp only
  rw [hadj, hfrom, Nat.sub_self]
  simp
  omega

/-- A symbol that has reached a chip out of reset is applied: it sets the chip's time when the chip has no sync yet. -/
theorem syncApply_first {s : State} {k p : Nat} (hp : p < 16) (hsymbol : tget 0 (s.chain k).symbol p ≠ 0) (hreset : (s.chip (16 * k + p)).inReset = false)
    (hsynced : (s.chip (16 * k + p)).synced = false) : ∃ step, s.syncApply (16 * k + p) =
      (s.setChain k { s.chain k with symbol := tput 0 (s.chain k).symbol p 0, step := step }).setChip (16 * k + p)
        { s.chip (16 * k + p) with ftAdj := (s.time + 2 ^ 64 - s.now % 2 ^ 64) % 2 ^ 64, slew := 0, slewFrom := s.now, synced := true } := by
  have hdiv : (16 * k + p) / 16 = k := by omega
  have hmod : (16 * k + p) % 16 = p := by omega
  unfold State.syncApply
  simp only [hdiv, hmod, hsymbol, hreset, hsynced, Bool.false_eq_true, or_self, if_false]
  exact ⟨_, rfl⟩
/-- The slew that corrects an error: at most 200. -/
def slewOf (err : Int) : Int := if err < -200 then -200 else if 200 < err then 200 else err
theorem slewOf_bounds (err : Int) : -200 ≤ slewOf err ∧ slewOf err ≤ 200 := by
  unfold slewOf
  split
  · omega
  · split <;> omega
/-- A chip that has sync slews. -/
theorem syncApply_next {s : State} {k p : Nat} (hp : p < 16) (hsymbol : tget 0 (s.chain k).symbol p ≠ 0) (hreset : (s.chip (16 * k + p)).inReset = false)
    (hsynced : (s.chip (16 * k + p)).synced = true) : ∃ err, s.syncApply (16 * k + p) =
      (s.setChain k { s.chain k with symbol := tput 0 (s.chain k).symbol p 0 }).setChip (16 * k + p)
        { s.chip (16 * k + p) with ftAdj := (s.chipTime (16 * k + p) + 2 ^ 64 - s.now % 2 ^ 64) % 2 ^ 64, slew := slewOf err, slewFrom := s.now } := by
  have hdiv : (16 * k + p) / 16 = k := by omega
  have hmod : (16 * k + p) % 16 = p := by omega
  unfold State.syncApply
  simp only [hdiv, hmod, hsymbol, hreset, hsynced, Bool.false_eq_true, or_self, if_false, if_true]
  exact ⟨_, rfl⟩

/-! ### O35 -/

/-- A probe's stamp is kept as the chip's error, and its work item hears of it. -/
theorem recvProbeStamp_keeps {s : State} {k p stamp sent : Nat} {iss : Issuer} {rest : List Frame} (hk : k < 8) (hup : (s.chain k).up = .probeStamp p stamp sent iss :: rest) :
    ((s.recvProbeStamp k).chain k).up = rest ∧
      tget 0x80 (s.recvProbeStamp k).bhv.ftErr (16 * k + p) = ftErrOf stamp sent (tget 0 (s.chain k).delay p) ∧ (s.recvProbeStamp k).chips = s.chips := by
  set u := s.setChain k ((s.chain k).tookUp (.probeStamp p stamp sent iss) rest) with hu
  set v := { u with bhv := { u.bhv with ftErr := tput 0x80 u.bhv.ftErr (16 * k + p) (ftErrOf stamp sent (tget 0 (s.chain k).delay p)) } } with hv
  have hstamped : ((v.chain k).up = rest ∧ tget 0x80 v.bhv.ftErr (16 * k + p) = ftErrOf stamp sent (tget 0 (s.chain k).delay p)) ∧ v.chips = s.chips := by
    have hchain : v.chain k = (s.chain k).tookUp (.probeStamp p stamp sent iss) rest := (State.chain_setChain_same _ _ _ hk :)
    exact ⟨⟨by rw [hchain]; rfl, tget_tput_self ..⟩, State.setChain_chips ..⟩
  obtain ⟨⟨hrest, herr⟩, hchips⟩ := hstamped
  have hdone : s.recvProbeStamp k = v ∨ ∃ w ix d, s.recvProbeStamp k = v.opDone w ix d none := by
    unfold State.recvProbeStamp
    rw [Chain.popUp_cons hup]
    dsimp only
    split
    · exact .inr ⟨_, _, _, rfl⟩
    · exact .inl rfl
  rcases hdone with h | ⟨w, ix, d, h⟩
  · rw [h]
    exact ⟨hrest, herr, hchips⟩
  · have hframe := v.modItem_frame w (fun i => Item.mark v.now i (i.opDone ix d none))
    have hbhv : (v.opDone w ix d none).bhv = v.bhv := (congrArg State.bhv hframe :)
    rw [h]
    exact ⟨by unfold State.chain; rw [hbhv]; exact hrest, by rw [hbhv]; exact herr, ((congrArg State.chips hframe :)).trans hchips⟩

/-- Settles O35: a TRACE frame by the state of trace and the room, a symbol as it is due and as a chip takes it. -/
theorem traceFramesAndFabricTime : Obligations.TraceFramesAndFabricTime := by
  refine ⟨fun s k p rs rest hk hf hup => ⟨fun harmed => ?_, fun harmed hfull hroom => ?_, fun harmed hfull => ?_, fun hstate hmode hfull hroom => ?_⟩,
    fun s k p hk hp => ⟨fun hf htime hlast => ?_, fun hsymbol hreset hsynced => ?_, fun hsymbol hreset hsynced => ?_, fun stamp sent iss rest hf hup => ?_⟩⟩
  · rw [exec_trace hf]
    simp only [State.recvTrace, hup, harmed, Bool.false_eq_true, if_false]
  · rw [exec_trace hf]
    simp only [State.recvTrace, hup, harmed, hfull, hroom, Bool.false_eq_true, if_false, if_true]
  · rw [exec_trace hf]
    simp only [State.recvTrace, hup, harmed, hfull, if_true]
  · obtain ⟨x, hx, hsub⟩ := recvTrace_streams hup hstate hmode hfull hroom
    refine ⟨_, x, exec_trace hf k, hx.ring, hsub, hx.state.trans hstate, hx.need, ?_, hx.chips.trans (State.setChain_chips ..)⟩
    unfold State.chain
    rw [hx.bhv]
    exact congrArg Chain.upTrace (State.chain_setChain_same s k { s.chain k with upTrace := rest } hk)
  · have hcheck : ∀ u : State, u.syncCheck.bhv = u.bhv ∧ u.syncCheck.chips = u.chips := fun u =>
      ⟨(congrArg State.bhv (u.mapItems_frame _) :), (congrArg State.chips (u.mapItems_frame _) :)⟩
    obtain ⟨hchips, hcnt, hsent⟩ := s.symbolSent_spec (s.time / 1000000 + 1)
    rw [← syncSymbol_due hf htime hlast] at hchips hcnt hsent
    have hchain : s.syncSymbol.syncCheck.chain k = (s.chain k).symbolled s.time := by
      rw [← hsent k hk]
      unfold State.chain
      rw [(hcheck _).1]
    refine ⟨_, exec_syncSymbol hf, ?_, fun hstate hreach => ?_, fun hstate => ?_, ?_⟩
    · rw [(hcheck _).1, hcnt]
    · rw [hchain, Chain.symbolled, if_pos hstate, tget_tmodRange_in _ _ _ hreach]
    · rw [hchain, Chain.symbolled, if_neg hstate]
    · rw [(hcheck _).2, hchips]
  · obtain ⟨step, h⟩ := syncApply_first hp hsymbol hreset hsynced
    have hexec : exec (.syncApply (16 * k + p)) s = .next (s.syncApply (16 * k + p)) := rfl
    refine ⟨_, hexec, ?_⟩
    rw [h]
    have hchip := State.chip_setChip_same (s.setChain k { s.chain k with symbol := tput 0 (s.chain k).symbol p 0, step := step }) (16 * k + p)
      { s.chip (16 * k + p) with ftAdj := (s.time + 2 ^ 64 - s.now % 2 ^ 64) % 2 ^ 64, slew := 0, slewFrom := s.now, synced := true } (by omega)
    refine ⟨?_, by rw [hchip], ?_, fun g hg => ?_⟩
    · rw [State.chipTime, hchip, State.setChip_now, State.setChain_now]
      exact timeAt_set (Nat.mod_lt _ (by decide)) _ _ rfl rfl
    · rw [State.chain_setChip, State.chain_setChain_same _ _ _ hk, tget_tput_self]
    · rw [State.chip_setChip_ne _ _ _ _ hg, State.chip_setChain]
  · obtain ⟨err, h⟩ := syncApply_next hp hsymbol hreset hsynced
    have hexec : exec (.syncApply (16 * k + p)) s = .next (s.syncApply (16 * k + p)) := rfl
    refine ⟨_, hexec, ?_⟩
    rw [h]
    have hchip := State.chip_setChip_same (s.setChain k { s.chain k with symbol := tput 0 (s.chain k).symbol p 0 }) (16 * k + p)
      { s.chip (16 * k + p) with ftAdj := (s.chipTime (16 * k + p) + 2 ^ 64 - s.now % 2 ^ 64) % 2 ^ 64, slew := slewOf err, slewFrom := s.now } (by omega)
    obtain ⟨hlo, hhi⟩ := slewOf_bounds err
    refine ⟨by rw [hchip]; exact hlo, by rw [hchip]; exact hhi, ?_, ?_⟩
    · rw [State.chipTime, hchip, State.setChip_now, State.setChain_now]
      exact timeAt_set (chip_timeAt_lt _ _) _ _ rfl rfl
    · rw [State.chain_setChip, State.chain_setChain_same _ _ _ hk, tget_tput_self]
  · exact ⟨_, exec_probeStamp hf k, recvProbeStamp_keeps hk hup⟩

end Sys2Proof.Machine


/-! PROOFS. The WDA's answers (O31): what a chip makes of the frame at the head of its chain. -/
namespace Sys2Proof.Machine

/-! ### Frames taken and answered -/

/-- The chain once the oldest downstream frame has been taken. -/
def Chain.tookDown (c : Chain) (fr : Frame) (rest : List Frame) : Chain :=
  { c with down := rest, replays := c.replays.filter (fun x => x.1 % 2 == 0 || 2 * fr.pos + 1 < x.1) }
theorem Chain.popDown_cons {c : Chain} {fr : Frame} {rest : List Frame} (h : c.down = fr :: rest) : c.popDown = some (fr, c.tookDown fr rest) := by
  unfold Chain.popDown; rw [h]; rfl
/-- The chain once the frame has been taken and `ans` sent in answer. -/
def Chain.answered (c : Chain) (fr : Frame) (rest : List Frame) (ans : Frame) : Chain :=
  { c.tookDown fr rest with up := c.up ++ [ans] }

/-- A write of one chain is seen on that chain alone. -/
theorem State.setChain_frame {s : State} {k : Nat} (hk : k < 8) (c : Chain) :
    (s.setChain k c).chain k = c ∧ (∀ j, j ≠ k → (s.setChain k c).chain j = s.chain j) ∧ (s.setChain k c).chips = s.chips ∧ { s.setChain k c with bhv := s.bhv } = s :=
  ⟨State.chain_setChain_same _ _ _ hk, fun _ hj => State.chain_setChain_ne _ _ _ _ hj, State.setChain_chips .., by unfold State.setChain; split <;> rfl⟩

/-! ### What a READ returns -/

/-- Bytes that are not open are as they are, and none is added. -/
theorem mixFree_spec (s : State) (d : List Byte) (p : Nat → Bool) : (s.mixFree d p).1.length = d.length ∧
    (∀ j, p j = false → (s.mixFree d p).1.getD j 0 = d.getD j 0) ∧ ∃ k, (s.mixFree d p).2 = { s with freeIx := k } := by
  unfold State.mixFree
  split
  · refine ⟨by simp, fun j hj => ?_, _, rfl⟩
    by_cases hlt : j < d.length
    · simp [List.getD_eq_getElem?_getD, hlt, hj]
    · simp [List.getD_eq_getElem?_getD, Nat.not_lt.mp hlt]
  · exact ⟨rfl, fun _ _ => rfl, s.freeIx, rfl⟩
/-- A read of memory changes nothing of the chip. -/
theorem read_of_inMemory {a : Nat} (h : inMemory a = true) (c : Chip) (t n : Nat) : (c.read t a n).2 = c := by
  unfold Chip.read; rw [if_pos h]
/-- What a chip sees of its peers is no more than its link table. -/
theorem State.seen_links (s : State) (f : Nat) : { s.seen f with links := (s.chip f).links } = s.chip f := by
  unfold State.seen
  generalize s.chip f = c
  rfl
/-- The bytes that chip `f` returns, and the chip after it. -/
theorem chipRead_spec {f : Nat} (hf : f < 128) (s : State) (a n : Nat) :
    (s.chipRead f a n).1.length = ((s.seen f).read (s.chipTime f) a n).1.length ∧
      (∀ j, (s.chip f).openAt (a + j) = false → (s.chipRead f a n).1.getD j 0 = ((s.seen f).read (s.chipTime f) a n).1.getD j 0) ∧
      (inMemory a = true → (s.chipRead f a n).2.chip f = s.chip f) ∧ (∀ g, g ≠ f → (s.chipRead f a n).2.chip g = s.chip g) ∧
      { (s.chipRead f a n).2 with chips := s.chips, freeIx := s.freeIx } = s := by
  unfold State.chipRead
  dsimp only
  obtain ⟨hlen, hbytes, k, hstate⟩ := mixFree_spec s ((s.seen f).read (s.chipTime f) a n).1 (fun i => (s.chip f).openAt (a + i))
  generalize s.mixFree ((s.seen f).read (s.chipTime f) a n).1 (fun i => (s.chip f).openAt (a + i)) = b at hlen hbytes hstate
  rw [hstate]
  refine ⟨hlen, hbytes, fun hmem => ?_, fun g hg => ?_, ?_⟩
  · rw [State.chip_setChip_same _ _ _ hf, read_of_inMemory hmem, State.seen_links]
  · rw [State.chip_setChip_ne _ _ _ _ hg, State.chip_free]
  · unfold State.setChip
    rw [if_pos hf]

/-! ### What a WRITE leaves -/

theorem State.bhv_of_offChips {s t : State} (h : s.offChips = t.offChips) : s.bhv = t.bhv := (congrArg State.bhv h :)
theorem State.chain_of_bhv {s t : State} (h : s.bhv = t.bhv) (j : Nat) : s.chain j = t.chain j := by unfold State.chain; rw [h]
/-- What programs and engines leave of chip `f` after its change is its memory alone. -/
theorem engEffects_step {f : Nat} (hf : f < 128) (s t : State) :
    (∃ m, (s.engEffects t f).chip f = (t.chip f).withMem m) ∧ (∀ g, g ≠ f → (s.engEffects t f).chip g = t.chip g) ∧ (s.engEffects t f).offChips = t.offChips := by
  have h1 := memSettled_step hf s t
  have h2 := engWrote_step hf (s.memSettled t f) ((s.chip f).ended (t.chip f))
  obtain ⟨m1, hm1⟩ := h1.chip
  obtain ⟨m2, hm2⟩ := h2.chip
  exact ⟨⟨m2, by rw [State.engEffects, hm2, hm1]; rfl⟩, fun g hg => (h2.others g hg).trans (h1.others g hg), h2.offChips.trans h1.offChips⟩
/-- A chip whose memory alone differs has ended nothing. -/
theorem engEffects_of_withMem {s t : State} {f : Nat} {m : Mem} (h : t.chip f = (s.chip f).withMem m) : s.engEffects t f = t :=
  engEffects_of_still (by rw [h]; exact Chip.settles_same rfl rfl rfl) (by rw [h]; exact Chip.ended_same rfl)
theorem write_of_inMemory {a : Nat} (h : inMemory a = true) (c : Chip) (f t : Nat) (d : List Byte) : c.write f t a d = c.withMem (mwrite c.mem a d) := if_pos h
theorem write_of_not_inMemory {a : Nat} (h : inMemory a = false) (c : Chip) (f t : Nat) (d : List Byte) :
    c.write f t a d = c.regWrite f t a (leNat (d.take 4)) := if_neg (by rw [h]; decide)
/-- The chip with the WRITE's bytes, and with the half of a monitor's copy that it is. -/
def State.wdaWritten (s : State) (k p tag a : Nat) (d : List Byte) : Chip :=
  let ch := s.chip (16 * k + p)
  (if (s.chain k).txns.any (fun x => x.tag == tag && x.mon && x.write) then ch.monWrite a s.boot.stagedMonitor else ch).write (16 * k + p) (s.chipTime (16 * k + p)) a d
section
variable {s : State} {k p tag a : Nat} {d : List Byte} {rest : List Frame} (hdown : (s.chain k).down = .write p tag a d :: rest)
include hdown
theorem wdaWrite_nacked (hreset : (s.chip (16 * k + p)).inReset = true) :
    s.wdaWrite k = s.setChain k ((s.chain k).answered (.write p tag a d) rest (.nack p tag)) := by
  unfold State.wdaWrite
  rw [Chain.popDown_cons hdown]
  dsimp only
  rw [if_pos hreset]
  rfl
theorem wdaWrite_acked (hreset : (s.chip (16 * k + p)).inReset = false) :
    s.wdaWrite k = s.engEffects (((s.setChain k ((s.chain k).answered (.write p tag a d) rest (.writeAck p tag))).setChip (16 * k + p)
      (s.wdaWritten k p tag a d)).relayScan k) (16 * k + p) := by
  unfold State.wdaWrite
  rw [Chain.popDown_cons hdown]
  dsimp only
  rw [if_neg (by rw [hreset]; decide)]
  rfl
end
/-- The second half of a monitor's copy installs the monitor. -/
theorem core_monWrite {c : Chip} {n : Nat} (hn : n < 32) (hhalf : (c.core n).half = 1) (staged : Bool) :
    ((c.monWrite (0x101000F000 + 0x10000 * n) staged).core n).monitor = true := by
  have hix : (0x101000F000 + 0x10000 * n - coreMemBase) / 0x10000 = n := by unfold coreMemBase; omega
  have hlow : ¬ (0x101000F000 + 0x10000 * n < coreMemBase) := by unfold coreMemBase; omega
  have hoff : (0x101000F000 + 0x10000 * n) % 0x10000 = 0xF000 := by omega
  unfold Chip.monWrite
  dsimp only
  rw [hix, if_neg hlow, hoff, if_neg (by decide), if_pos ⟨rfl, hhalf⟩, Chip.core_setCore_same hn]
theorem core_monArea_inMemory {n : Nat} (hn : n < 32) : inMemory (0x101000F000 + 0x10000 * n) = true := by
  unfold inMemory coreMemBase
  simp only [Bool.or_eq_true, Bool.and_eq_true, decide_eq_true_eq]
  omega

/-! ### O31 -/

section
variable {s : State} {k p : Nat} {rest : List Frame} (hk : k < 8) (hp : p < 16)
include hk hp
theorem read_answered {tag a n : Nat} (hdown : (s.chain k).down = .read p tag a n :: rest) :
    ∃ t, exec (.read k) s = .next t ∧ (t.chain k).down = rest ∧ (∀ j, j ≠ k → t.chain j = s.chain j) ∧ (∀ g, g ≠ 16 * k + p → t.chip g = s.chip g) ∧
      (if (s.chip (16 * k + p)).inReset then (t.chain k).up = (s.chain k).up ++ [.nack p tag] ∧ t.chip (16 * k + p) = s.chip (16 * k + p)
       else
         (∃ d : List Byte, (t.chain k).up = (s.chain k).up ++ [.readData p tag d] ∧
           d.length = ((s.seen (16 * k + p)).read (s.chipTime (16 * k + p)) a n).1.length ∧
           (∀ j, (s.chip (16 * k + p)).openAt (a + j) = false → d.getD j 0 = ((s.seen (16 * k + p)).read (s.chipTime (16 * k + p)) a n).1.getD j 0)) ∧
         (inMemory a = true → t.chip (16 * k + p) = s.chip (16 * k + p))) ∧
      { t with chips := s.chips, bhv := s.bhv, freeIx := s.freeIx } = s := by
  have hexec : exec (.read k) s = .next (s.wdaRead k) := rfl
  have hpop := Chain.popDown_cons hdown
  cases hreset : (s.chip (16 * k + p)).inReset
  · obtain ⟨hlen, hbytes, hmem, hothers, hframe⟩ := chipRead_spec (f := 16 * k + p) (by omega) s a n
    have hread : s.wdaRead k = (s.chipRead (16 * k + p) a n).2.setChain k
        ((s.chain k).answered (.read p tag a n) rest (.readData p tag (s.chipRead (16 * k + p) a n).1)) := by
      unfold State.wdaRead
      rw [hpop]
      dsimp only
      rw [if_neg (by rw [hreset]; decide)]
      rfl
    obtain ⟨hchain, hchains, hchips, hrest⟩ := State.setChain_frame (s := (s.chipRead (16 * k + p) a n).2) hk
      ((s.chain k).answered (.read p tag a n) rest (.readData p tag (s.chipRead (16 * k + p) a n).1))
    rw [← hread] at hchain hchains hchips hrest
    have hbhv : (s.chipRead (16 * k + p) a n).2.bhv = s.bhv := (congrArg State.bhv hframe :)
    refine ⟨_, hexec, by rw [hchain]; rfl, fun j hj => ?_, fun g hg => ?_, ?_, ?_⟩
    · rw [hchains j hj]; unfold State.chain; rw [hbhv]
    · rw [← hothers g hg]; unfold State.chip; rw [hchips]
    · rw [if_neg (by decide)]
      refine ⟨⟨_, by rw [hchain]; rfl, hlen, hbytes⟩, fun hin => ?_⟩
      rw [← hmem hin]; unfold State.chip; rw [hchips]
    · exact (congrArg (fun v : State => { v with chips := s.chips, bhv := s.bhv, freeIx := s.freeIx }) hrest :).trans
        (congrArg (fun v : State => { v with bhv := s.bhv }) hframe :)
  · have hread : s.wdaRead k = s.setChain k ((s.chain k).answered (.read p tag a n) rest (.nack p tag)) := by
      unfold State.wdaRead
      rw [hpop]
      dsimp only
      rw [if_pos hreset]
      rfl
    obtain ⟨hchain, hchains, hchips, hrest⟩ := State.setChain_frame (s := s) hk ((s.chain k).answered (.read p tag a n) rest (.nack p tag))
    rw [← hread] at hchain hchains hchips hrest
    have hchip : ∀ g, (s.wdaRead k).chip g = s.chip g := fun g => by unfold State.chip; rw [hchips]
    exact ⟨_, hexec, by rw [hchain]; rfl, hchains, fun g _ => hchip g, by rw [if_pos rfl]; exact ⟨by rw [hchain]; rfl, hchip _⟩,
      (congrArg (fun v : State => { v with chips := s.chips, freeIx := s.freeIx }) hrest :)⟩
theorem alertAck_drops {n : Nat} (hdown : (s.chain k).down = .alertAck p n :: rest) :
    ∃ t, exec (.alertAck k) s = .next t ∧ (t.chain k).down = rest ∧ (t.chain k).up = (s.chain k).up ∧
      t.chip (16 * k + p) = { s.chip (16 * k + p) with alerts := (s.chip (16 * k + p)).alerts.filter (fun a => a.num != n) } ∧
      (∀ g, g ≠ 16 * k + p → t.chip g = s.chip g) ∧ { t with chips := s.chips, bhv := s.bhv } = s := by
  have hexec : exec (.alertAck k) s = .next (s.wdaAlertAck k) := rfl
  have hack : s.wdaAlertAck k = (s.setChain k ((s.chain k).tookDown (.alertAck p n) rest)).setChip (16 * k + p)
      { s.chip (16 * k + p) with alerts := (s.chip (16 * k + p)).alerts.filter (fun a => a.num != n) } := by
    unfold State.wdaAlertAck
    rw [Chain.popDown_cons hdown]
  refine ⟨_, hexec, ?_⟩
  rw [hack, State.chain_setChip, State.chain_setChain_same _ _ _ hk, State.chip_setChip_same _ _ _ (by omega)]
  refine ⟨rfl, rfl, rfl, fun g hg => ?_, ?_⟩
  · rw [State.chip_setChip_ne _ _ _ _ hg, State.chip_setChain]
  · unfold State.setChip State.setChain
    rw [if_pos hk, if_pos (by omega)]
omit hp in
theorem probe_stamped {sent : Nat} {iss : Issuer} (hdown : (s.chain k).down = .probe p sent iss :: rest) (hreset : (s.chip (16 * k + p)).inReset = false) :
    ∃ t, exec (.probe k) s = .next t ∧ (t.chain k).down = rest ∧ t.chips = s.chips ∧
      (t.chain k).up = (s.chain k).up ++ [.probeStamp p (s.chipTime (16 * k + p)) sent iss] ∧ { t with bhv := s.bhv } = s := by
  have hexec : exec (.probe k) s = .next (s.wdaProbe k) := rfl
  have hstamp : s.wdaProbe k = s.setChain k ((s.chain k).answered (.probe p sent iss) rest (.probeStamp p (s.chipTime (16 * k + p)) sent iss)) := by
    unfold State.wdaProbe
    rw [Chain.popDown_cons hdown]
    dsimp only
    rw [if_neg (by rw [hreset]; decide)]
    rfl
  obtain ⟨hchain, -, hchips, hrest⟩ := State.setChain_frame (s := s) hk
    ((s.chain k).answered (.probe p sent iss) rest (.probeStamp p (s.chipTime (16 * k + p)) sent iss))
  rw [← hstamp] at hchain hchips hrest
  exact ⟨_, hexec, by rw [hchain]; rfl, hchips, by rw [hchain]; rfl, hrest⟩
/-- What WRITE leaves of the chains and of the other chips, and the chip but for open memory. -/
theorem wdaWrite_step {tag a : Nat} {d : List Byte} (hdown : (s.chain k).down = .write p tag a d :: rest) (hreset : (s.chip (16 * k + p)).inReset = false) :
    (s.wdaWrite k).chain k = (s.chain k).answered (.write p tag a d) rest (.writeAck p tag) ∧ (∀ j, j ≠ k → (s.wdaWrite k).chain j = s.chain j) ∧
      (∀ g, g ≠ 16 * k + p → (s.wdaWrite k).chip g = s.chip g) ∧ (∃ m, (s.wdaWrite k).chip (16 * k + p) = (s.wdaWritten k p tag a d).withMem m) ∧
      (∀ m, s.wdaWritten k p tag a d = (s.chip (16 * k + p)).withMem m → (s.wdaWrite k).chip (16 * k + p) = (s.chip (16 * k + p)).withMem m) := by
  rw [wdaWrite_acked hdown hreset]
  set u := ((s.setChain k ((s.chain k).answered (.write p tag a d) rest (.writeAck p tag))).setChip (16 * k + p) (s.wdaWritten k p tag a d)).relayScan k with hu
  have hchip : u.chip (16 * k + p) = s.wdaWritten k p tag a d := by rw [hu, State.chip_relayScan, State.chip_setChip_same _ _ _ (by omega)]
  obtain ⟨⟨m, hm⟩, hothers, hoff⟩ := engEffects_step (f := 16 * k + p) (by omega) s u
  have hbhv : (s.engEffects u (16 * k + p)).bhv = (s.setChain k ((s.chain k).answered (.write p tag a d) rest (.writeAck p tag))).bhv := by
    have hoffu : (s.engEffects u (16 * k + p)).offChips = (s.setChain k ((s.chain k).answered (.write p tag a d) rest (.writeAck p tag))).offChips := by
      rw [hoff, hu, State.offChips_relayScan, State.offChips_setChip]
    exact State.bhv_of_offChips hoffu
  have hchain : ∀ j, (s.engEffects u (16 * k + p)).chain j = (s.setChain k ((s.chain k).answered (.write p tag a d) rest (.writeAck p tag))).chain j :=
    State.chain_of_bhv hbhv
  refine ⟨by rw [hchain, State.chain_setChain_same _ _ _ hk], fun j hj => by rw [hchain, State.chain_setChain_ne _ _ _ _ hj], fun g hg => ?_,
    ⟨m, hm.trans (congrArg (Chip.withMem · m) hchip)⟩, fun m' hm' => ?_⟩
  · rw [hothers g hg, hu, State.chip_relayScan, State.chip_setChip_ne _ _ _ _ hg, State.chip_setChain]
  · have hsame : u.chip (16 * k + p) = (s.chip (16 * k + p)).withMem m' := hchip.trans hm'
    rw [engEffects_of_withMem hsame, hsame]
end

/-- Settles O31: each kind of frame by the chip's reset, and a write by what its address is. -/
theorem wdaAnswersItsFrames : Obligations.WdaAnswersItsFrames := by
  refine fun s k p rest hk hp => ⟨fun tag a n hdown => read_answered hk hp hdown, fun tag a d hdown => ?_, fun n hdown => alertAck_drops hk hp hdown,
    fun sent iss hdown hreset => probe_stamped hk hdown hreset⟩
  have hexec : exec (.write k) s = .next (s.wdaWrite k) := rfl
  cases hreset : (s.chip (16 * k + p)).inReset
  · obtain ⟨hchain, hchains, hothers, ⟨m, hm⟩, hmem⟩ := wdaWrite_step hk hp hdown hreset
    refine ⟨_, hexec, by rw [hchain]; rfl, hchains, hothers, ?_⟩
    rw [if_neg (by decide)]
    refine ⟨by rw [hchain]; rfl, fun hnone => ?_, fun n x hn hx htag hmon hwrite ha hhalf => ?_⟩
    · have hno : (s.chain k).txns.any (fun x => x.tag == tag && x.mon && x.write) = false := by
        rw [List.any_eq_false]
        intro x hx h
        simp only [Bool.and_eq_true, beq_iff_eq] at h
        rw [hnone x hx h.1.1] at h
        exact absurd h.1.2 (by decide)
      have hplain : s.wdaWritten k p tag a d = (s.chip (16 * k + p)).write (16 * k + p) (s.chipTime (16 * k + p)) a d := by
        unfold State.wdaWritten
        rw [hno]
        rfl
      refine ⟨fun hin => hmem _ (by rw [hplain, write_of_inMemory hin]), fun hout => ?_⟩
      rw [hm, hplain, write_of_not_inMemory hout]
      rfl
    · have hyes : (s.chain k).txns.any (fun x => x.tag == tag && x.mon && x.write) = true :=
        List.any_eq_true.mpr ⟨x, hx, by simp [htag, hmon, hwrite]⟩
      have hin : inMemory a = true := ha ▸ core_monArea_inMemory hn
      rw [hm]
      unfold State.wdaWritten
      dsimp only
      rw [hyes, write_of_inMemory hin, if_pos rfl, ha, Chip.core_withMem, Chip.core_withMem]
      exact core_monWrite hn hhalf _
  · obtain ⟨hchain, hchains, hchips, -⟩ := State.setChain_frame (s := s) hk ((s.chain k).answered (.write p tag a d) rest (.nack p tag))
    rw [← wdaWrite_nacked hdown hreset] at hchain hchains hchips
    have hchip : ∀ g, (s.wdaWrite k).chip g = s.chip g := fun g => by unfold State.chip; rw [hchips]
    exact ⟨_, hexec, by rw [hchain]; rfl, hchains, fun g _ => hchip g, by rw [if_pos rfl]; exact ⟨by rw [hchain]; rfl, hchip _⟩⟩

end Sys2Proof.Machine

/-! PROOFS. Comparator hits (O27): a breakpoint, a watchpoint or an engine comparator of reach 0 halts its own unit and
raises a HIT alert. -/
namespace Sys2Proof.Machine

/-! ### Alerts and reach -/

/-- A chip that has raised an alert holds one. -/
theorem Chip.raise_holds (c : Chip) (cz u info : Nat) : (c.raise cz u info).alerts ≠ [] := by
  simp only [Chip.raise, Chip.holdAlert]; split <;> simp
/-- A hit of reach 0 reaches its own unit alone (R394). -/
@[simp] theorem Chip.reach_unit (c : Chip) (t k : Nat) : c.reach t k 0 = c := by simp [Chip.reach]
@[simp] theorem Chip.seeStop_alerts (c : Chip) : c.seeStop.alerts = c.alerts := by unfold Chip.seeStop; split <;> rfl
@[simp] theorem Chip.seeStop_alertNum (c : Chip) : c.seeStop.alertNum = c.alertNum := by unfold Chip.seeStop; split <;> rfl
theorem Chip.setCore_alertNum (c : Chip) (i : Nat) (u : Core) : (c.setCore i u).alertNum = c.alertNum := by unfold Chip.setCore; split <;> rfl
theorem Chip.alerts_withCtx (c : Chip) (i : Nat) (x : Tab Word) : (c.withCtx i x).alerts = c.alerts := by
  unfold Chip.withCtx Chip.setCore; split <;> rfl
theorem Chip.alertNum_withCtx (c : Chip) (i : Nat) (x : Tab Word) : (c.withCtx i x).alertNum = c.alertNum := c.setCore_alertNum i _

/-! ### Hits of a core's comparators -/

/-- Core `i` halted by a hit as `u`, with the alert of cause `cz` (R393). -/
def Chip.hitCore (c : Chip) (f i : Nat) (u : Core) (cz : Nat) : Chip := ((c.setCore i u).raise 1 (coreUnit f i) cz).seeStop
theorem Chip.mem_hitCore (c : Chip) (f i : Nat) (u : Core) (cz : Nat) : (c.hitCore f i u cz).mem = c.mem := by
  rw [Chip.hitCore, Chip.mem_of_stable (Chip.stable_seeStop _), Chip.mem_of_stable (Chip.stable_raise ..), Chip.setCore_mem]
theorem Chip.core_hitCore (c : Chip) (f i : Nat) (u : Core) (cz j : Nat) : (c.hitCore f i u cz).core j = (c.setCore i u).core j := by
  rw [Chip.hitCore, Chip.core_seeStop]; rfl
theorem Chip.engines_hitCore (c : Chip) (f i : Nat) (u : Core) (cz : Nat) : (c.hitCore f i u cz).engines = c.engines := by
  rw [Chip.hitCore, Chip.engines_seeStop]; exact Chip.setCore_engines ..

/-- A core that takes a hit while it runs or steps (R377, R393). -/
def Core.hitAt (u : Core) (t cz pc : Nat) : Core :=
  { u.mishalt with state := .monitor, cause := cz, pend := [], pc := pc, resumeStep := false, skipBrk := none, haltAt := t + 1 }
theorem Core.takeHit_running {u : Core} (h : u.state ≠ .monitor) {pc : Nat} (hpc : pc < 2 ^ 32) (t cz : Nat) : u.takeHit t cz pc = u.hitAt t cz pc := by
  simp only [Core.takeHit, if_neg h, Nat.mod_eq_of_lt hpc, Core.hitAt]

section
variable {s : State} {f i : Nat} {g : Chip → Nat → Chip} {u : Core} {cz : Nat} (hf : f < 128) (hi : i < 32) (hr : (s.chip f).inReset = false)
include hf hi hr

/-- A hit leaves its core as it halted it, but for the context words its program has left. -/
theorem hitCore_event (hg : g (s.chip f) (s.chipTime f) = (s.chip f).hitCore f i u cz) (hb : ((s.chip f).core i).state ≠ .monitor)
    (hu : u.state = .monitor) :
    ∃ c x, ChipStep s (s.coreEvent f i g) f c ∧ c.core i = { u with ctx := x } ∧ (∀ j, j ≠ i → c.core j = (s.chip f).core j) ∧
      c.engines = (s.chip f).engines ∧ c.alertNum = ((s.chip f).alertNum + 1) % 64 ∧ c.alerts ≠ [] := by
  have hin : (g (s.chip f) (s.chipTime f)).core i = u := by rw [hg, Chip.core_hitCore, Chip.core_setCore_same hi]
  obtain ⟨m, x, hstep⟩ := coreEvent_enters (g := g) hf hr (by rw [hg, Chip.mem_hitCore]) hi hb (by rw [hin, hu])
  rw [hg] at hstep hin
  refine ⟨_, x, hstep.step, ?_, fun j hj => ?_, ?_, ?_, ?_⟩
  · rw [Chip.core_withCtx_same hi, Chip.core_withMem, hin]
  · rw [Chip.core_withCtx_ne hj, Chip.core_withMem, Chip.core_hitCore, Chip.core_setCore_ne hj]
  · rw [Chip.engines_withCtx, Chip.engines_withMem, Chip.engines_hitCore]
  · rw [Chip.alertNum_withCtx]
    show ((((s.chip f).setCore i u).raise 1 (coreUnit f i) cz).seeStop).alertNum = _
    rw [Chip.seeStop_alertNum]
    show (((s.chip f).setCore i u).alertNum + 1) % 64 = _
    rw [Chip.setCore_alertNum]
  · rw [Chip.alerts_withCtx]
    show ((((s.chip f).setCore i u).raise 1 (coreUnit f i) cz).seeStop).alerts ≠ []
    rw [Chip.seeStop_alerts]
    exact Chip.raise_holds _ _ _ _
end

section
variable {c : Chip} {i n pc : Nat}

theorem Chip.hit_breakpoint (hn : n < 8) (c : Chip) (f t i pc : Nat) (first : Bool) : c.hit f t false i n pc first = c.brkHit f t i n pc first := by
  simp [Chip.hit, hn]
theorem Chip.hit_watchpoint (hn : n < 4) (c : Chip) (f t i pc : Nat) (first : Bool) : c.hit f t false i (8 + n) pc first = c.wpHit f t i n pc := by
  simp [Chip.hit, show 8 + n < 12 by omega]

/-- A breakpoint of reach 0 at the PC halts its core (R393). -/
theorem Chip.brkHit_halts {first : Bool} (hs : (c.core i).state = .running) (hen : (tget {} (c.core i).brk n).en = true)
    (ha : (tget {} (c.core i).brk n).addr = pc) (hk : first = false ∨ (c.core i).skipBrk ≠ some pc) (h0 : (tget {} (c.core i).brk n).reach = 0)
    (hpc : pc < 2 ^ 32) (f t : Nat) :
    c.brkHit f t i n pc first = c.hitCore f i
      { (c.core i).hitAt t (0x40 + n) pc with brkAt := some pc, brk := tput {} (c.core i).brk n { tget {} (c.core i).brk n with hit := true } } (0x40 + n) := by
  have hskip : (first && (c.core i).skipBrk == some pc) = false := by
    rcases hk with rfl | hk
    · rfl
    · simp [hk]
  have hmon : (c.core i).state ≠ .monitor := by simp [hs]
  have hbrk : ((c.core i).takeHit t (0x40 + n) pc).brk = (c.core i).brk := by rw [Core.takeHit_running hmon hpc]; rfl
  simp only [Chip.brkHit]
  rw [if_pos ⟨.inl hs, .inr ⟨hen, ha, by rw [hskip]; rfl⟩⟩, h0, Chip.reach_unit, Core.takeHit_running hmon hpc]
  simp only [hitCause, Chip.hitCore, Nat.zero_mod, Nat.zero_mul, Nat.add_zero]
/-- The breakpoint a core was resumed from is passed once (log entry 48). -/
theorem Chip.brkHit_skipped (hk : (c.core i).skipBrk = some pc) (ho : (c.core i).brkOdd = 0) (f t : Nat) :
    c.brkHit f t i n pc true = c := by
  simp [Chip.brkHit, hk, ho]
/-- A watchpoint of reach 0 halts its core (R391, R393). -/
theorem Chip.wpHit_halts (hs : (c.core i).state = .running ∨ (c.core i).state = .stepping) (hen : (tget {} (c.core i).wp n).en = true)
    (h0 : (tget {} (c.core i).wp n).reach = 0) (hpc : pc < 2 ^ 32) (f t : Nat) :
    c.wpHit f t i n pc = c.hitCore f i
      { (c.core i).hitAt t (0x48 + n) pc with wp := tput {} (c.core i).wp n { tget {} (c.core i).wp n with hit := true } } (0x48 + n) := by
  have hmon : (c.core i).state ≠ .monitor := by rcases hs with h | h <;> simp [h]
  simp only [Chip.wpHit]
  rw [if_pos ⟨hs.elim .inl (fun h => .inr (.inl h)), .inr hen⟩, h0, Chip.reach_unit, Core.takeHit_running hmon hpc]
  simp only [hitCause, Chip.hitCore, Nat.zero_mod, Nat.zero_mul, Nat.add_zero, ← Nat.add_assoc]
end

/-! ### Hits of an engine's comparator -/

/-- An engine its comparator has halted, with the comparator's cause (R393). -/
def Engine.hitHalted (u : Engine) (t : Nat) : Engine :=
  { u.enter t .muffled with cmpHit := true, cause := hitCause u.cmpReach 0xC, current := noIndex, stepping := false, haltAt := t + 1,
                            cmpSkip := if u.cmpAfter then u.cmpSkip else u.cmpIndex + 1 }
section
variable {c : Chip} {e : Nat} (he : e < 512)
include he
theorem Chip.eng_engHit_same (f t : Nat) : (c.engHit f t e true).eng e = (c.eng e).hitHalted t := Chip.eng_setEng_same he c _
omit he in
theorem Chip.eng_engHit_ne {j : Nat} (hj : j ≠ e) (f t : Nat) : (c.engHit f t e true).eng j = c.eng j := Chip.eng_setEng_ne hj c _
omit he in
theorem Chip.cores_engHit (f t : Nat) : (c.engHit f t e true).cores = c.cores := by
  show (c.setEng e _).cores = _; unfold Chip.setEng; split <;> rfl

/-- A comparator that matches after the command, or before the next one, halts a running engine as its command completes
(R393): its hit is the whole of what follows the completion. -/
def Engine.compares (u : Engine) : Prop :=
  u.hitsAfter u.current = true ∨
    (u.cmpAfter = false ∧ (u.current + 1) % 2 ^ 32 < u.len ∧ u.hitsBefore ((u.current + 1) % 2 ^ 32) = true)
theorem Chip.complete_compared (hs : (c.eng e).state = .running) (h0 : (c.eng e).cmpReach = 0) (h : (c.eng e).compares) (f t : Nat) :
    c.complete f t e = (c.completed t e).engHit f t e true := by
  have hnow : (c.eng e).haltNow t = false := by simp [Engine.haltNow, hs]
  have hu := Chip.eng_completed (c := c) he t
  show (if (!(c.eng e).state.busy) = true then c
    else if (c.eng e).completed.hitsAfter (c.eng e).current = true then
      ((c.completed t e).engHit f t e (!((c.eng e).state == .muffling) || (c.eng e).stepping || (c.eng e).haltNow t)).reach t (e / 32) (c.eng e).cmpReach
    else if ((c.eng e).haltNow t && (c.eng e).completed.next?.any (c.eng e).completed.hitsBefore) = true then _
    else if ((c.eng e).state == .muffling) = true then _
    else if ((c.completed t e).startNext f t e).2 = true then ((c.completed t e).startNext f t e).1.reach t (e / 32) (c.eng e).cmpReach
    else ((c.completed t e).startNext f t e).1) = _
  rw [if_neg (by rw [hs]; decide), h0]
  rcases h with ha | ⟨hb, hl, hm⟩
  · rw [if_pos (by exact ha), hs]; exact Chip.reach_unit ..
  · have hafter : (c.eng e).completed.hitsAfter (c.eng e).current = false := by
      rw [Engine.hitsAfter, show (c.eng e).completed.cmpAfter = false from hb, Bool.and_false]
    have hnext : ((c.completed t e).eng e).next? = some (((c.eng e).current + 1) % 2 ^ 32) := by
      rw [hu]; exact Engine.next?_some (u := (c.eng e).completed) hl
    have hbefore : ((c.completed t e).eng e).hitsBefore (((c.eng e).current + 1) % 2 ^ 32) = true := by rw [hu]; exact hm
    have hstart : (c.completed t e).startNext f t e = ((c.completed t e).engHit f t e true, true) := by
      simp only [Chip.startNext, hnext, hbefore, if_true]
    rw [if_neg (by simp [hafter]), hnow, Bool.false_and, if_neg Bool.false_ne_true, if_neg (by rw [hs]; decide), hstart, if_pos rfl]
    exact Chip.reach_unit _ _ _
theorem Chip.hit_comparator (hs : (c.eng e).state = .running) (ho : (c.eng e).brkOdd = 0) (h0 : (c.eng e).cmpReach = 0) (h : (c.eng e).compares)
    (f t pc : Nat) (first : Bool) : c.hit f t true e 12 pc first = (c.completed t e).engHit f t e true := by
  have hmatch : (c.eng e).hitsAfter (c.eng e).current = true ∨
      (((c.eng e).current + 1) % 2 ^ 32 < (c.eng e).len ∧ (c.eng e).hitsBefore (((c.eng e).current + 1) % 2 ^ 32) = true) :=
    h.imp id And.right
  simp only [Chip.hit, if_true]
  rw [if_neg (by simp [ho]), if_pos ⟨trivial, .inl hs, hmatch⟩, Chip.complete_compared he hs h0 h]
end

theorem exec_hit_core (s : State) (f i src pc : Nat) (first : Bool) :
    exec (.hit f false i src pc first) s = .next (s.coreEvent f i (fun c t => c.hit f t false i src pc first)) := rfl
theorem exec_hit_engine (s : State) (f i src pc : Nat) (first : Bool) :
    exec (.hit f true i src pc first) s = .next (s.chipEvent f (fun c t => c.hit f t true i src pc first)) := by
  show Host.Outcome.next (if true = true then _ else s.coreEvent f i (fun c t => c.hit f t true i src pc first)) = _
  rw [if_pos rfl]

/-- A comparator's hit halts its engine with the command completed, and no other unit (R393, R394). -/
theorem hit_comparator_halts {s : State} {f e : Nat} (hf : f < 128) (he : e < 512) (hr : (s.chip f).inReset = false)
    (hs : ((s.chip f).eng e).state = .running) (ho : ((s.chip f).eng e).brkOdd = 0) (h0 : ((s.chip f).eng e).cmpReach = 0)
    (h : ((s.chip f).eng e).compares) (pc : Nat) (first : Bool) :
    ∃ t c, exec (.hit f true e 12 pc first) s = .next t ∧ ChipStep s t f c ∧ (c.eng e).state = .muffled ∧ (c.eng e).cause = 0x4C ∧
      (c.eng e).cmpHit = true ∧ (c.eng e).lastDone = ((s.chip f).eng e).current ∧ (∀ j, j ≠ e → c.eng j = (s.chip f).eng j) ∧
      c.cores = (s.chip f).cores ∧ c.alerts ≠ [] := by
  have hg := Chip.hit_comparator he hs ho h0 h f (s.chipTime f) pc first
  have hchange := (s.chip f).completed_change (s.chipTime f) e
  obtain ⟨m, hstep⟩ := chipEvent_step (g := fun c t => c.hit f t true e 12 pc first) hf hr
    (by rw [hg, Chip.mem_of_stable (Chip.stable_engHit ..)]; exact mem_of_beside hchange.beside)
  rw [hg] at hstep
  generalize hd : (s.chip f).completed (s.chipTime f) e = d at hstep hchange
  have hu : (d.engHit f (s.chipTime f) e true).eng e = ((s.chip f).eng e).completed.hitHalted (s.chipTime f) := by
    rw [Chip.eng_engHit_same he, ← hd, Chip.eng_completed he]
  have hcause : hitCause ((s.chip f).eng e).cmpReach 0xC = 0x4C := by rw [h0]; rfl
  refine ⟨_, _, exec_hit_engine s f e 12 pc first, hstep.step, ?_, ?_, ?_, ?_, fun j hj => ?_, ?_, Chip.raise_holds _ _ _ _⟩
  · exact (congrArg Engine.state hu :)
  · exact ((congrArg Engine.cause hu :)).trans hcause
  · exact (congrArg Engine.cmpHit hu :)
  · exact (congrArg Engine.lastDone hu :)
  · exact (Chip.eng_engHit_ne (c := d) hj f (s.chipTime f)).trans (hchange.others j hj)
  · exact (Chip.cores_engHit (c := d) (e := e) f (s.chipTime f)).trans (cores_of_beside hchange.beside)

/-- Settles O27: a hit is an event of its unit; of reach 0 it halts that unit and no other. -/
theorem hitsHaltTheirUnit : Obligations.HitsHaltTheirUnit := by
  intro s f i n pc first hf hpc hr
  refine ⟨fun hi hn hs hen ha hk h0 => ?_, fun hi hn hs hen ha hk ho => ?_, fun hi hn hs hen h0 => ?_,
    fun he hs ho hen hafter h0 hix hst => ?_, fun he hs ho hen hbefore h0 hsk hl hix hst => ?_⟩
  · have hg := (Chip.hit_breakpoint hn (s.chip f) f (s.chipTime f) i pc first).trans (Chip.brkHit_halts hs hen ha hk h0 hpc f (s.chipTime f))
    obtain ⟨c, x, hstep, hcore, hrest⟩ := hitCore_event (g := fun c t => c.hit f t false i n pc first) hf hi hr hg (by simp [hs]) rfl
    refine ⟨_, c, exec_hit_core s f i n pc first, hstep, ?_, ?_, ?_, ?_, hrest⟩ <;> rw [hcore]
    · rfl
    · rfl
    · rfl
    · simp only [tget_tput_self]
  · refine ⟨_, exec_hit_core s f i n pc true, ?_⟩
    have hg := (Chip.hit_breakpoint hn (s.chip f) f (s.chipTime f) i pc true).trans (Chip.brkHit_skipped hk ho f (s.chipTime f))
    have hstep := chipEvent_same (g := fun c t => c.hit f t false i n pc true) hf hr hg
    have hev : s.coreEvent f i (fun c t => c.hit f t false i n pc true) = s.chipEvent f (fun c t => c.hit f t false i n pc true) :=
      if_neg (by rw [hstep.chip, hs]; simp)
    exact hev ▸ hstep.step
  · have hg := (Chip.hit_watchpoint hn (s.chip f) f (s.chipTime f) i pc first).trans (Chip.wpHit_halts hs hen h0 hpc f (s.chipTime f))
    obtain ⟨c, x, hstep, hcore, hothers, -⟩ := hitCore_event (g := fun c t => c.hit f t false i (8 + n) pc first) hf hi hr hg
      (by rcases hs with h | h <;> simp [h]) rfl
    refine ⟨_, c, exec_hit_core s f i (8 + n) pc first, hstep, ?_, ?_, ?_, ?_, hothers⟩ <;> rw [hcore]
    · rfl
    · rfl
    · rfl
    · simp only [tget_tput_self]
  · exact hit_comparator_halts hf he hr hs ho h0 (.inl (by simp [Engine.hitsAfter, Engine.matchIndex, hen, hafter, hix, hst])) pc first
  · obtain ⟨t, c, hex, hstep, hstate, hcause, hhit, hlast, hothers, -⟩ := hit_comparator_halts hf he hr hs ho h0
      (.inr ⟨hbefore, hl, by simp [Engine.hitsBefore, Engine.matchIndex, hen, hbefore, hst]; omega⟩) pc first
    exact ⟨t, c, hex, hstep, hstate, hcause, hhit, hlast, hothers⟩

end Sys2Proof.Machine

/-! PROOFS. Mailboxes and counter latches (O29): the words a mailbox passes, and the copy of the live counters. -/
namespace Sys2Proof.Machine

/-! ### Mailboxes -/

theorem exec_mbxIn (s : State) (f i : Nat) (v : Word) :
    exec (.mbxIn f i v) s = .next (s.chipEvent f (fun c _ => c.setCore i ((c.core i).mbxInWrite v))) := rfl
theorem exec_mbxOut {i : Nat} (hi : i < 32) (s : State) (f : Nat) (v : Word) :
    exec (.mbxOut f i v) s = .next (s.chipEvent f (fun c _ => c.mbxOut f i v)) := by
  show Host.Outcome.next (s.chipEvent f (fun c _ => if i < 32 then c.mbxOut f i v else c)) = _
  simp only [if_pos hi]

/-- A core's write of MBX_OUT with the alert that carries the word (R397). -/
def Chip.mailed (c : Chip) (f i : Nat) (u : Core) (w : Word) : Chip := (c.setCore i u).raise 2 (coreUnit f i) w.toNat
theorem Chip.mem_mailed (c : Chip) (f i : Nat) (u : Core) (w : Word) : (c.mailed f i u w).mem = c.mem := by
  rw [Chip.mailed, Chip.mem_of_stable (Chip.stable_raise ..), Chip.setCore_mem]
theorem Chip.core_mailed (c : Chip) (f i : Nat) (u : Core) (w : Word) (j : Nat) : (c.mailed f i u w).core j = (c.setCore i u).core j := rfl
theorem Chip.alerts_setCore (c : Chip) (i : Nat) (u : Core) : (c.setCore i u).alerts = c.alerts ∧ (c.setCore i u).alertNum = c.alertNum := by
  unfold Chip.setCore; split <;> exact ⟨rfl, rfl⟩
theorem Chip.alertNum_mailed (c : Chip) (f i : Nat) (u : Core) (w : Word) : (c.mailed f i u w).alertNum = (c.alertNum + 1) % 64 := by
  show ((c.setCore i u).alertNum + 1) % 64 = _
  rw [(c.alerts_setCore i u).2]
theorem Chip.alerts_mailed (c : Chip) (f i : Nat) (u : Core) (w : Word) : (c.mailed f i u w).alerts ≠ [] := by
  simp only [Chip.mailed, Chip.raise, Chip.holdAlert]; split <;> simp

section
variable {c : Chip} {i : Nat}

/-- A core of which no default monitor answers writes the word of its own program (R397). -/
theorem Chip.mbxOut_own (h : ((c.core i).answers && (c.core i).inFull) = false) (f : Nat) (v : Word) :
    c.mbxOut f i v = c.mailed f i { c.core i with mbxOut := v, outFull := true } v := by
  simp only [Chip.mbxOut, h, Bool.false_eq_true, if_false, Chip.mailed]
section
variable (ha : (c.core i).answers = true) (hfull : (c.core i).inFull = true) (hw : (c.core i).monWr = none)
include ha hfull hw
/-- The default monitor takes a CTX_WRITE word and awaits its value (Table 15.1). -/
theorem Chip.mbxOut_awaits (hv : fld (c.core i).mbxIn.toNat 28 4 = 2) (f : Nat) (v : Word) :
    c.mbxOut f i v = c.setCore i { c.core i with inFull := false, monWr := some (fld (c.core i).mbxIn.toNat 0 6) } := by
  have hr : (c.core i).monitorReply =
      ({ c.core i with inFull := false, monWr := some (fld (c.core i).mbxIn.toNat 0 6) }, none) := by
    simp [Core.monitorReply, hw, hv]
  simp only [Chip.mbxOut, ha, hfull, Bool.and_self, if_true, hr]
/-- The default monitor answers a register read with the register (Table 15.1). -/
theorem Chip.mbxOut_reads (hv : fld (c.core i).mbxIn.toNat 28 4 = 1) (hs : (c.core i).staged = false) (f : Nat) (v : Word) :
    c.mbxOut f i v = c.mailed f i
      { c.core i with inFull := false, mbxOut := tget 0 (c.core i).ctx (fld (c.core i).mbxIn.toNat 0 6), outFull := true }
      (tget 0 (c.core i).ctx (fld (c.core i).mbxIn.toNat 0 6)) := by
  have hr : (c.core i).monitorReply =
      ({ c.core i with inFull := false }, some (tget 0 (c.core i).ctx (fld (c.core i).mbxIn.toNat 0 6))) := by
    simp [Core.monitorReply, hw, hv]
  simp only [Chip.mbxOut, ha, hfull, Bool.and_self, if_true, hr, hs, Bool.false_eq_true, false_and, if_false, Chip.mailed]
end
end

section
variable {s : State} {f i : Nat} {g : Chip → Nat → Chip} {u : Core} (hf : f < 128) (hi : i < 32) (hr : (s.chip f).inReset = false)
include hf hi hr

/-- An event that writes one core, and no alert. -/
theorem setCore_event (hg : g (s.chip f) (s.chipTime f) = (s.chip f).setCore i u) :
    ∃ c, ChipStep s (s.chipEvent f g) f c ∧ c.core i = u ∧ (∀ j, j ≠ i → c.core j = (s.chip f).core j) ∧ c.alerts = (s.chip f).alerts := by
  obtain ⟨m, hstep⟩ := chipEvent_step (g := g) hf hr (by rw [hg, Chip.setCore_mem])
  rw [hg] at hstep
  refine ⟨_, hstep.step, ?_, fun j hj => ?_, ?_⟩
  · rw [Chip.core_withMem, Chip.core_setCore_same hi]
  · rw [Chip.core_withMem, Chip.core_setCore_ne hj]
  · exact ((s.chip f).alerts_setCore i u).1
/-- An event that writes one core's mailbox, with its alert. -/
theorem mailed_event {w : Word} (hg : g (s.chip f) (s.chipTime f) = (s.chip f).mailed f i u w) :
    ∃ c, ChipStep s (s.chipEvent f g) f c ∧ c.core i = u ∧ (∀ j, j ≠ i → c.core j = (s.chip f).core j) ∧
      c.alertNum = ((s.chip f).alertNum + 1) % 64 ∧ c.alerts ≠ [] := by
  obtain ⟨m, hstep⟩ := chipEvent_step (g := g) hf hr (by rw [hg, Chip.mem_mailed])
  rw [hg] at hstep
  refine ⟨_, hstep.step, ?_, fun j hj => ?_, Chip.alertNum_mailed (s.chip f) f i u w, Chip.alerts_mailed (s.chip f) f i u w⟩
  · rw [Chip.core_withMem, Chip.core_mailed, Chip.core_setCore_same hi]
  · rw [Chip.core_withMem, Chip.core_mailed, Chip.core_setCore_ne hj]
end

/-! ### Counter latches -/

/-- What a latch makes of the chip's counters and their shadow (R502). -/
structure Chip.Latched (c d : Chip) (t : Nat) (clear : Bool) : Prop where
  noPend : d.cntPend = none
  shadow : d.shadow = [t, c.cmdsDone, c.stops, c.accepted, c.dropped, c.gaps, c.alertCnt]
  engines : ∀ e, e < 512 → (d.eng e).sDone = (c.eng e).done ∧ (d.eng e).sHalts = (c.eng e).halts ∧ (d.eng e).sForced = (c.eng e).forcedCnt ∧
    (d.eng e).done = (if clear then 0 else (c.eng e).done) ∧ (d.eng e).state = (c.eng e).state
  counters : if clear then d.cmdsDone = 0 ∧ d.stops = 0 ∧ d.accepted = 0 ∧ d.dropped = 0 ∧ d.gaps = 0 ∧ d.alertCnt = 0
    else d.cmdsDone = c.cmdsDone ∧ d.stops = c.stops ∧ d.accepted = c.accepted ∧ d.dropped = c.dropped ∧ d.gaps = c.gaps ∧ d.alertCnt = c.alertCnt
theorem Chip.latch_latches (c : Chip) (t : Nat) (clear : Bool) : c.Latched ({ c with cntPend := none }.latch t clear) t clear := by
  cases clear <;> simp only [Chip.latch, Bool.false_eq_true, if_false, if_true] <;>
    refine ⟨rfl, rfl, fun e he => ?_, by simp⟩ <;> simp [Chip.eng, tget_tmodRange_in _ _ _ he]

/-- The word written to WDA_CNT_CTRL for a latch now: LATCH, with CLEAR as given. -/
theorem latchWord_bits (clear : Bool) :
    bit (1 + place (b2n clear) 2 1) 0 = true ∧ bit (1 + place (b2n clear) 2 1) 1 = false ∧ bit (1 + place (b2n clear) 2 1) 2 = clear := by
  cases clear <;> decide
theorem exec_counterLatch (s : State) (f : Nat) (clear : Bool) :
    exec (.counterLatch f clear) s = .next (s.chipEvent f (fun c t => { c with cntPend := none }.latch t clear)) := by
  obtain ⟨h0, h1, h2⟩ := latchWord_bits clear
  have hwrite : ∀ (c : Chip) t, c.wdaWrite f t 0x600 (1 + place (b2n clear) 2 1) = { c with cntPend := none }.latch t clear := fun c t => by
    simp [Chip.wdaWrite, Chip.cntWrite, h0, h1, h2]
  show Host.Outcome.next (s.wdaReg f 0x600 (1 + place (b2n clear) 2 1)) = _
  simp only [State.wdaReg, hwrite]
theorem exec_timedLatch (s : State) (f : Nat) : exec (.timedLatch f) s = .next (s.chipEvent f (fun c t => c.timedLatch t)) := rfl
section
variable {c : Chip} {T t : Nat} {clear : Bool} (h : c.cntPend = some (T, clear))
include h
theorem Chip.timedLatch_due (ht : T ≤ t) : c.timedLatch t = { c with cntPend := none }.latch t clear := by
  simp only [Chip.timedLatch, h, if_pos ht]
theorem Chip.timedLatch_waits (ht : t < T) : c.timedLatch t = c := by simp only [Chip.timedLatch, h, if_neg (Nat.not_le.mpr ht)]
end
/-- An event that latches the counters. -/
theorem latch_event {s : State} {f : Nat} {g : Chip → Nat → Chip} {clear : Bool} (hf : f < 128) (hr : (s.chip f).inReset = false)
    (hg : g (s.chip f) (s.chipTime f) = { s.chip f with cntPend := none }.latch (s.chipTime f) clear) :
    ∃ c, ChipStep s (s.chipEvent f g) f c ∧ (s.chip f).Latched c (s.chipTime f) clear := by
  obtain ⟨m, hstep⟩ := chipEvent_step (g := g) hf hr (by rw [hg, Chip.mem_of_stable (Chip.stable_latch ..)])
  rw [hg] at hstep
  have hl := (s.chip f).latch_latches (s.chipTime f) clear
  exact ⟨_, hstep.step, hl.noPend, hl.shadow, hl.engines, hl.counters⟩

/-- Settles O29: a mailbox write is an event of its core, a latch one of the chip's counters. -/
theorem mailboxesAndCounterLatches : Obligations.MailboxesAndCounterLatches := by
  refine ⟨fun s f i v hf hi hr => ⟨?_, fun ha hfull hw hv => ?_, fun ha => ?_, fun ha hfull hw hv hs => ?_⟩,
    fun s f clear hf hr => ⟨?_, fun T hp ht => ?_, fun T hp ht => ?_⟩⟩
  · obtain ⟨c, hstep, hcore, hothers, halerts⟩ := setCore_event (g := fun c _ => c.setCore i ((c.core i).mbxInWrite v)) hf hi hr rfl
    refine ⟨_, c, exec_mbxIn s f i v, hstep, ?_, ?_, ?_, ?_, hothers, halerts⟩ <;> rw [hcore] <;> rfl
  · obtain ⟨c, hstep, hcore, hothers, halerts⟩ := setCore_event (g := fun c _ => c.mbxOut f i v) hf hi hr (Chip.mbxOut_awaits ha hfull hw hv f v)
    refine ⟨_, c, exec_mbxOut hi s f v, hstep, ?_, ?_, ?_, halerts⟩ <;> rw [hcore]
  · obtain ⟨c, hstep, hcore, hothers, hnum, halerts⟩ := mailed_event (g := fun c _ => c.mbxOut f i v) hf hi hr (Chip.mbxOut_own ha f v)
    refine ⟨_, c, exec_mbxOut hi s f v, hstep, ?_, ?_, hothers, hnum, halerts⟩ <;> rw [hcore]
  · obtain ⟨c, hstep, hcore, -⟩ := mailed_event (g := fun c _ => c.mbxOut f i v) hf hi hr (Chip.mbxOut_reads ha hfull hw hv hs f v)
    refine ⟨_, c, exec_mbxOut hi s f v, hstep, ?_, ?_, ?_⟩ <;> rw [hcore]
  · obtain ⟨c, hstep, hl⟩ := latch_event (g := fun c t => { c with cntPend := none }.latch t clear) hf hr rfl
    exact ⟨_, c, exec_counterLatch s f clear, hstep, hl.noPend, hl.shadow, hl.engines, hl.counters⟩
  · obtain ⟨c, hstep, hl⟩ := latch_event (g := fun c t => c.timedLatch t) hf hr (Chip.timedLatch_due hp ht)
    exact ⟨_, c, exec_timedLatch s f, hstep, hl.noPend, hl.shadow⟩
  · exact ⟨_, exec_timedLatch s f, (chipEvent_same (g := fun c t => c.timedLatch t) hf hr (Chip.timedLatch_waits hp ht)).step⟩

end Sys2Proof.Machine

/-! PROOFS. Trace taps (O30): TAP_EN, the records and gaps of the FIFO, and the frames that take them. -/
namespace Sys2Proof.Machine

/-! ### TAP_EN -/

theorem fld_setFld_low (v b : Nat) (hb : b < 2) : fld (setFld v 0 1 b) 16 16 = fld v 16 16 := by
  have h : setFld v 0 1 b = v - v % 2 + b := by simp [setFld, place, fld, Nat.mod_eq_of_lt hb]
  simp only [fld, h, Nat.shiftRight_eq_div_pow]
  omega
/-- The tap's selection as a write of WDA_TRC_CTRL gives it (R506). -/
def Chip.tapSelect (c : Chip) (v : Nat) : Chip := { c with tapBegin := bit v 1, tapEnd := bit v 2, tapClusters := fld v 16 16 }
theorem exec_tapEnOff (s : State) (f v : Nat) :
    exec (.tapEnOff f v) s = .next (s.chipEvent f (fun c t => (c.tapSelect v).tapOffWrite t)) := by
  have hwrite : ∀ (c : Chip) t, c.wdaWrite f t 0x500 (setFld v 0 1 0) = (c.tapSelect v).tapOffWrite t := fun c t => by
    simp [Chip.wdaWrite, bit_setFld_zero, fld_setFld_low, Chip.tapSelect]
  show Host.Outcome.next (s.wdaReg f 0x500 (setFld v 0 1 0)) = _
  simp only [State.wdaReg, hwrite]
theorem exec_tapEnOn (s : State) (f v : Nat) :
    exec (.tapEnOn f v) s = .next (s.chipEvent f (fun c _ => (c.tapSelect v).tapOnWrite)) := by
  have hwrite : ∀ (c : Chip) t, c.wdaWrite f t 0x500 (setFld v 0 1 1) = (c.tapSelect v).tapOnWrite := fun c t => by
    simp [Chip.wdaWrite, bit_setFld_one, fld_setFld_low, Chip.tapSelect]
  show Host.Outcome.next (s.wdaReg f 0x500 (setFld v 0 1 1)) = _
  simp only [State.wdaReg, hwrite]

section
variable {s : State} {f : Nat} (hf : f < 128) (hr : (s.chip f).inReset = false)
include hf hr

/-- An event that leaves the chip's units, memory and reset hold. -/
theorem exactEvent_step {g : Chip → Nat → Chip} {d : Chip} (hg : g (s.chip f) (s.chipTime f) = d) (hm : d.mem = (s.chip f).mem)
    (hc : d.cores = (s.chip f).cores) (he : d.engines = (s.chip f).engines) (hh : d.resetHold = (s.chip f).resetHold) :
    ChipStep s (s.chipEvent f g) f d := by
  subst hg
  exact (chipEvent_exact (g := g) hf hr hm hc he hh).step

theorem tapEnOff_flushes (v : Nat) (h : (s.chip f).tapEn = true) :
    ∃ t, exec (.tapEnOff f v) s = .next t ∧ ChipStep s t f { s.chip f with tapBegin := bit v 1, tapEnd := bit v 2, tapClusters := fld v 16 16, tapEn := false, flushing := true, emptied := s.chipTime f } := by
  have hg : ((s.chip f).tapSelect v).tapOffWrite (s.chipTime f) =
      { (s.chip f).tapSelect v with tapEn := false, flushing := true, emptied := s.chipTime f } := if_pos h
  exact ⟨_, exec_tapEnOff s f v, exactEvent_step hf hr (g := fun c t => (c.tapSelect v).tapOffWrite t) hg rfl rfl rfl rfl⟩
theorem tapEnOn_restarts (v : Nat) (h : (s.chip f).tapEn = false) (hfl : (s.chip f).flushing = false) :
    ∃ t, exec (.tapEnOn f v) s = .next t ∧ ChipStep s t f { s.chip f with tapBegin := bit v 1, tapEnd := bit v 2, tapClusters := fld v 16 16, tapEn := true, seq := 0, accSince := 0, flushed := false } := by
  have hg : ((s.chip f).tapSelect v).tapOnWrite = { (s.chip f).tapSelect v with tapEn := true, seq := 0, accSince := 0, flushed := false } :=
    (if_neg (by simpa [Chip.tapSelect] using hfl)).trans (if_neg (by simpa [Chip.tapSelect] using h))
  exact ⟨_, exec_tapEnOn s f v, exactEvent_step hf hr (g := fun c _ => (c.tapSelect v).tapOnWrite) hg rfl rfl rfl rfl⟩
theorem tapEnOn_awaits (v : Nat) (hfl : (s.chip f).flushing = true) :
    ∃ t, exec (.tapEnOn f v) s = .next t ∧ ChipStep s t f { s.chip f with tapBegin := bit v 1, tapEnd := bit v 2, tapClusters := fld v 16 16, tapResume := true } := by
  have hg : ((s.chip f).tapSelect v).tapOnWrite = { (s.chip f).tapSelect v with tapResume := true } := if_pos hfl
  exact ⟨_, exec_tapEnOn s f v, exactEvent_step hf hr (g := fun c _ => (c.tapSelect v).tapOnWrite) hg rfl rfl rfl rfl⟩
end

/-! ### Records and gaps -/

/-- What the tap's records change of a chip: its queue, FIFO, gap and their counters. -/
def Chip.besideTap (c : Chip) : Chip :=
  { c with tapQ := [], fifo := [], gap := none, accepted := 0, accSince := 0, dropped := 0, gaps := 0 }
section
variable (c : Chip) (f : Nat) (r : TraceRec)
@[simp] theorem Chip.besideTap_enterGap : (c.enterGap f).besideTap = c.besideTap := by unfold Chip.enterGap; split <;> rfl
@[simp] theorem Chip.besideTap_offer : (c.offer f r).besideTap = c.besideTap := by
  unfold Chip.offer; split
  · split <;> rfl
  · split
    · exact c.besideTap_enterGap f
    · rfl
@[simp] theorem Chip.tapQ_enterGap : (c.enterGap f).tapQ = c.tapQ := by unfold Chip.enterGap; split <;> rfl
@[simp] theorem Chip.tapQ_offer : (c.offer f r).tapQ = c.tapQ := by
  unfold Chip.offer; split
  · split <;> rfl
  · split
    · exact c.tapQ_enterGap f
    · rfl
end
section
variable {c : Chip} {f : Nat}
/-- With no gap owed a record enters the FIFO, or begins a gap (R493). -/
theorem Chip.offer_noGap (h : c.gap = none) (r : TraceRec) :
    if c.fifo.length < 2048 then (c.offer f r).fifo = c.fifo ++ [r] ∧ (c.offer f r).gap = none
    else (c.offer f r).fifo = c.fifo ∧ (c.offer f r).gap = some (r.time, 1) := by
  change if c.fifo.length < fifoSize then _ else _
  by_cases hl : c.fifo.length < fifoSize
  · simp only [Chip.offer, h, if_pos hl, and_self]
  · simp only [Chip.offer, h, if_neg hl, and_self]
theorem Chip.enterGap_owed {g : Nat × Nat} (h : c.gap = some g) : (c.enterGap f).fifo = c.fifo ++ [gapRec f g] ∧ (c.enterGap f).gap = none := by
  simp only [Chip.enterGap, h, and_self]
/-- A gap owed enters before the record, or grows by it (R493). -/
theorem Chip.offer_gap {T n : Nat} (h : c.gap = some (T, n)) (r : TraceRec) :
    if c.fifo.length + 2 ≤ 2048 then (c.offer f r).fifo = c.fifo ++ [gapRec f (T, n), r] ∧ (c.offer f r).gap = none
    else (c.offer f r).fifo = c.fifo ∧ (c.offer f r).gap = some (T, satAdd n 1 32) := by
  obtain ⟨hfifo, hgap⟩ := Chip.enterGap_owed (f := f) h
  change if c.fifo.length + 2 ≤ fifoSize then _ else _
  by_cases hl : c.fifo.length + 2 ≤ fifoSize
  · simp only [Chip.offer, h, if_pos hl, hfifo, hgap, List.append_assoc, List.cons_append, List.nil_append, and_self]
  · simp only [Chip.offer, h, if_neg hl, and_self]
theorem Chip.tapRecord_cons {x : TapEvent} {q : List TapEvent} (h : c.tapQ = x :: q) : c.tapRecord f = { c with tapQ := q }.offer f (tapRec f x) := by
  simp only [Chip.tapRecord, h]
end
theorem exec_tapRecord (s : State) (f : Nat) : exec (.tapRecord f) s = .next (s.chipEvent f (fun c _ => c.tapRecord f)) := rfl
theorem exec_gapRecordEntry (s : State) (f : Nat) : exec (.gapRecordEntry f) s = .next (s.chipEvent f (fun c _ => c.gapEntry f)) := rfl

section
variable {s : State} {f : Nat} (hf : f < 128) (hr : (s.chip f).inReset = false)
include hf hr
/-- An event of the tap's records. -/
theorem tapEvent_step {g : Chip → Nat → Chip} {d : Chip} (hg : g (s.chip f) (s.chipTime f) = d) (h : d.besideTap = (s.chip f).besideTap) :
    ChipStep s (s.chipEvent f g) f d :=
  exactEvent_step hf hr hg (congrArg Chip.mem h :) (congrArg Chip.cores h :) (congrArg Chip.engines h :) (congrArg Chip.resetHold h :)

theorem tapRecord_offers {x : TapEvent} {q : List TapEvent} (h : (s.chip f).tapQ = x :: q) :
    ∃ t, exec (.tapRecord f) s = .next t ∧ ChipStep s t f ({ s.chip f with tapQ := q }.offer f (tapRec f x)) :=
  ⟨_, exec_tapRecord s f, tapEvent_step hf hr (g := fun c _ => c.tapRecord f) (Chip.tapRecord_cons h) (Chip.besideTap_offer ..)⟩
theorem gapRecordEntry_enters (hq : (s.chip f).tapQ = []) (hl : (s.chip f).fifo.length < 2048) :
    ∃ t, exec (.gapRecordEntry f) s = .next t ∧ ChipStep s t f ((s.chip f).enterGap f) :=
  ⟨_, exec_gapRecordEntry s f, tapEvent_step hf hr (g := fun c _ => c.gapEntry f) (if_pos ⟨hq, hl⟩) (Chip.besideTap_enterGap ..)⟩
end

/-! ### TRACE frames -/

theorem numberRecs_ne_nil {l : List TraceRec} (h : l ≠ []) (q : Nat) : numberRecs q l ≠ [] := by
  cases l with
  | nil => exact absurd rfl h
  | cons r rs => simp [numberRecs]
theorem exec_traceFrameSend (s : State) (f : Nat) : exec (.traceFrameSend f) s = .next (s.traceSend f) := rfl

section
variable {s : State} {f : Nat} (hf : f < 128) (hr : (s.chip f).inReset = false) (hup : (s.chain (f / 16)).state = .up)
  (hreach : f % 16 < (s.chain (f / 16)).reach)
include hf hr hup hreach
/-- A frame that the chip sends joins its chain's trace queue (R494). -/
theorem traceFrameSend_sends {rs : List TraceRec} {d : Chip} (h : (s.chip f).takeTrace f (s.chipTime f) = (rs, d)) (hne : rs ≠ []) :
    ∃ t, exec (.traceFrameSend f) s = .next t ∧ t.chip f = d ∧ (t.chain (f / 16)).upTrace = (s.chain (f / 16)).upTrace ++ [.trace (f % 16) rs] ∧
      (∀ g, g ≠ f → t.chip g = s.chip g) ∧ (∀ k, k ≠ f / 16 → t.chain k = s.chain k) := by
  have hk : f / 16 < 8 := by omega
  have hsend : s.traceSend f =
      (s.setChain (f / 16) { s.chain (f / 16) with upTrace := (s.chain (f / 16)).upTrace ++ [.trace (f % 16) rs] }).setChip f d := by
    simp only [State.traceSend, h]
    rw [if_pos ⟨hup, hreach, by simp [hr]⟩, if_neg hne]
  refine ⟨_, (exec_traceFrameSend s f).trans (congrArg _ hsend), ?_, ?_, fun g hg => ?_, fun k hne => ?_⟩
  · exact State.chip_setChip_same _ _ _ hf
  · rw [State.chain_setChip, State.chain_setChain_same _ _ _ hk]
  · rw [State.chip_setChip_ne _ _ _ _ hg, State.chip_setChain]
  · rw [State.chain_setChip, State.chain_setChain_ne _ _ _ _ hne]
end

/-- Settles O30: the taps' writes and records are events of the chip, a frame takes the oldest records. -/
theorem tapsRecordAndSend : Obligations.TapsRecordAndSend := by
  intro s f v hf _ hr
  refine ⟨tapEnOff_flushes hf hr v, tapEnOn_restarts hf hr v, tapEnOn_awaits hf hr v, fun x q hq hgap => ?_, fun x q T n hq hgap => ?_,
    fun T n hq hgap hl => ?_, fun hup hreach hfifo => ?_, fun hup hreach hfifo hfl hgap hq => ?_⟩
  · obtain ⟨t, hex, hstep⟩ := tapRecord_offers hf hr hq
    exact ⟨t, _, hex, hstep, Chip.tapQ_offer .., Chip.offer_noGap (c := { s.chip f with tapQ := q }) hgap (tapRec f x)⟩
  · obtain ⟨t, hex, hstep⟩ := tapRecord_offers hf hr hq
    exact ⟨t, _, hex, hstep, Chip.tapQ_offer .., Chip.offer_gap (c := { s.chip f with tapQ := q }) hgap (tapRec f x)⟩
  · obtain ⟨t, hex, hstep⟩ := gapRecordEntry_enters hf hr hq hl
    exact ⟨t, _, hex, hstep, Chip.enterGap_owed hgap⟩
  · have hne : (s.chip f).fifo.take 256 ≠ [] := by simp [List.take_eq_nil_iff, hfifo]
    obtain ⟨t, hex, hchip, hchain, hothers, hchains⟩ := traceFrameSend_sends hf hr hup hreach (if_pos hfifo) (numberRecs_ne_nil hne _)
    exact ⟨t, hex, by rw [hchip], by rw [hchip], hchain, hothers, hchains⟩
  · obtain ⟨t, hex, hchip, -⟩ := traceFrameSend_sends hf hr hup hreach
      ((if_neg (by simp [hfifo])).trans (if_pos ⟨hfl, hgap, hq⟩)) (numberRecs_ne_nil (List.cons_ne_nil _ _) _)
    exact ⟨t, hex, by rw [hchip]; rfl, by rw [hchip]; rfl, by rw [hchip]; rfl⟩

end Sys2Proof.Machine

/-! PROOFS. Trace triggers, the end of a capture and TRIG_OUT pulses (O41). -/
namespace Sys2Proof.Machine

/-! ### The host's writes to the trace registers -/

theorem regMask_trc {off : Nat} (hl : 0xE000 ≤ off) (hb : off < 0x10000) : regMask off = trcMasks.mask (off - 0xE000) := by
  unfold regMask
  dsimp only
  repeat rw [if_neg (by omega)]
  rw [if_pos hb]
theorem bar0Write_trc {s : State} {off : Nat} (h0 : s.served0 off = true) (hl : 0xE000 ≤ off) (hb : off < 0x10000) (size v : Nat) :
    s.bar0Write off size v = trcWrite s (off - 0xE000) v := by
  unfold State.bar0Write
  rw [if_neg (by simp [h0])]
  repeat rw [if_neg (by omega)]
  rw [if_pos hb]
theorem hostWrite_trc {s : State} {off m v : Nat} (h : s.serves off = true) (hl : 0xE000 ≤ off) (hb : off < 0x10000) (ha : off % 4 = 0)
    (hm : trcMasks.mask (off - 0xE000) = some m) (hv : v < 2 ^ 32) (hr : v &&& m = v) :
    s.hostWrite off 4 v = .next (trcWrite s.linked (off - 0xE000) v) := by
  rw [hostWrite_of_serves h ha (by unfold bar2; omega) ((regMask_trc hl hb).trans hm) hv hr, bar0Write_trc (served0_of_serves h) hl hb]
theorem exec_traceDisable {s : State} (h : s.serves 0xE000 = true) : exec .traceDisable s = .next (s.linked.traceEnable false) := by
  have hw := hostWrite_trc (v := 0) h (by decide) (by decide) rfl rfl (by decide) (by decide)
  have hv : trcWrite s.linked (0xE000 - 0xE000) 0 = s.linked.traceEnable false := by simp [trcWrite, bit]
  exact hw.trans (by rw [hv])
/-- ENABLE written as it stands is no change (R514). -/
theorem State.traceEnable_same (s : State) : s.traceEnable s.trc.enable = s := by
  unfold State.traceEnable
  dsimp only
  rw [if_neg (by cases s.trc.enable <;> simp)]
/-- A software trigger leaves ENABLE as it stands. -/
theorem exec_softTrig {s : State} (h : s.serves 0xE000 = true) : exec .softTrig s = .next (s.linked.traceTrigger 0 s.time 0) := by
  have hsame := State.traceEnable_same s.linked
  have htrc : s.linked.trc = s.trc := by rw [State.linked_frame]
  have htime : s.linked.time = s.time := by rw [State.linked_frame]; rfl
  have hbits : ∀ b : Bool, bit (2 + b2n b) 0 = b ∧ bit (2 + b2n b) 1 = true ∧ 2 + b2n b < 2 ^ 32 ∧ (2 + b2n b) &&& 3 = 2 + b2n b := by decide
  obtain ⟨h0, h1, hlt, hmask⟩ := hbits s.trc.enable
  have hw := hostWrite_trc h (by decide) (by decide) rfl rfl hlt hmask
  have hv : trcWrite s.linked (0xE000 - 0xE000) (2 + b2n s.trc.enable) = s.linked.traceTrigger 0 s.time 0 := by
    rw [htrc] at hsame
    simp [trcWrite, h0, h1, hsame, htime]
  exact hw.trans (by rw [hv])
/-- The word of TRC_TOUT_CTRL with FIRE: SOURCES, WIDTH and bit 16 (Table 17.2). -/
theorem toutWord_bits : ∀ a : Fin 32, ∀ b : Fin 16, fld (a + place b 8 4 + 2 ^ 16) 0 5 = a ∧ fld (a + place b 8 4 + 2 ^ 16) 8 4 = b ∧
    bit (a + place b 8 4 + 2 ^ 16) 16 = true ∧ a + place b 8 4 + 2 ^ 16 < 2 ^ 32 ∧
    (a + place b 8 4 + 2 ^ 16) &&& 0x10F1F = a + place b 8 4 + 2 ^ 16 := by decide
/-- TRC_TOUT_CTRL.FIRE leaves SOURCES and WIDTH as they stand (R501). -/
theorem exec_toutFire {s : State} (hsrc : s.trc.toutSources < 32) (hwidth : s.trc.toutWidth < 16) (h : s.serves 0xE040 = true) :
    exec .toutFire s = .next (s.linked.toutEvent 0) := by
  obtain ⟨h0, h8, h16, hlt, hmask⟩ := toutWord_bits ⟨_, hsrc⟩ ⟨_, hwidth⟩
  have htrc : s.linked.trc = s.trc := by rw [State.linked_frame]
  have hw := hostWrite_trc h (by decide) (by decide) rfl rfl hlt hmask
  have hv : trcWrite s.linked (0xE040 - 0xE000) (s.trc.toutSources + place s.trc.toutWidth 8 4 + 2 ^ 16) = s.linked.toutEvent 0 := by
    show (if bit (s.trc.toutSources + place s.trc.toutWidth 8 4 + 2 ^ 16) 16 = true then State.toutEvent { s.linked with trc := { s.linked.trc with
      toutSources := fld (s.trc.toutSources + place s.trc.toutWidth 8 4 + 2 ^ 16) 0 5
      toutWidth := fld (s.trc.toutSources + place s.trc.toutWidth 8 4 + 2 ^ 16) 8 4 } } 0 else _) = _
    rw [if_pos h16, show fld _ 0 5 = _ from h0, show fld _ 8 4 = _ from h8, htrc]
    show State.toutEvent { s.linked with trc := s.trc } 0 = _
    rw [← htrc]
  exact hw.trans (by rw [hv])

/-! ### Triggers -/

theorem State.toutEvent_trc (s : State) (b : Nat) :
    ∃ l n m, (s.toutEvent b).trc = { s.trc with toutLast := l, toutCnt := n, toutTime := m } := by
  unfold State.toutEvent
  dsimp only
  split
  · split <;> exact ⟨_, _, _, rfl⟩
  · exact ⟨_, _, _, rfl⟩
theorem State.activate_trc (s : State) (n data : Nat) : (s.activate n data).trc = s.trc := by
  obtain ⟨_, _, h⟩ := s.activate_activated n data
  rw [h]
theorem State.ringPush_trc (s : State) (rs : List TraceRec) : (s.ringPush rs).trc = { s.trc with ring := s.trc.ring ++ rs } := by
  unfold State.ringPush
  dsimp only
  split
  · exact State.activate_trc ..
  · rfl

/-- Trace as a trigger of `code` at `tt` finds it (R497): POST is entered from PRE. -/
def Trc.triggeredBy (x : Trc) (code tt now : Nat) (odd : Bool) : Trc :=
  { x with triggered := true, trigCode := code, trigTime := tt, trigNow := now + 1, odd := odd, state := if x.state = TraceState.pre then .post else .streaming }
section
variable {s : State} {code : Nat} (hen : s.trc.enable = true) (hcode : code = 0 ∨ s.trc.source = code)
include hen hcode
/-- The trigger that starts POST writes its marker (R497). -/
theorem State.traceTrigger_fires (hstate : s.trc.state = .pre ∨ s.trc.state = .streaming) (hnow : s.trc.trigNow ≠ s.now + 1) (tt arg : Nat) :
    ∃ odd l n m, (s.traceTrigger code tt arg).trc =
      { s.trc.triggeredBy code tt s.now odd with ring := s.trc.ring ++ [marker 0x21 code arg tt], toutLast := l, toutCnt := n, toutTime := m } := by
  have hodd : ∃ odd, (if s.straddles tt then { s with trc := { s.trc with odd := true } } else s) = { s with trc := { s.trc with odd := odd } } := by
    split
    · exact ⟨true, rfl⟩
    · exact ⟨s.trc.odd, rfl⟩
  obtain ⟨odd, hodd⟩ := hodd
  have hfire : s.traceTrigger code tt arg =
      ((({ s with trc := s.trc.triggeredBy code tt s.now odd }.ringPush [marker 0x21 code arg tt]).activate 171
        (1 + place code 8 8 + place tt 32 32)).toutEvent 4) := by
    unfold State.traceTrigger
    rw [if_pos ⟨hen, hcode⟩, if_neg (by simp [hnow]), hodd]
    rcases hstate with h | h <;> rw [h] <;> simp only [Trc.triggeredBy, h]
  obtain ⟨l, n, m, hout⟩ := State.toutEvent_trc ((({ s with trc := s.trc.triggeredBy code tt s.now odd }.ringPush [marker 0x21 code arg tt]).activate 171
        (1 + place code 8 8 + place tt 32 32))) 4
  exact ⟨odd, l, n, m, by rw [hfire, hout, State.activate_trc, State.ringPush_trc]; rfl⟩
/-- A later trigger is counted as ignored (R497, R513). -/
theorem State.traceTrigger_ignored (h : s.trc.state = .post ∨ s.trc.state = .flushing ∨ s.trc.state = .stopped ∨ (s.trc.state ≠ .idle ∧ s.trc.trigNow = s.now + 1))
    (tt arg : Nat) : s.traceTrigger code tt arg = { s with trc := { s.trc with ignored := satAdd s.trc.ignored 1 32 } } := by
  unfold State.traceTrigger
  rw [if_pos ⟨hen, hcode⟩]
  by_cases hnow : s.trc.state ≠ .idle ∧ s.trc.trigNow = s.now + 1
  · rw [if_pos hnow]
  · rw [if_neg hnow]
    rcases h with h | h | h | h
    · rw [h]
    · rw [h]
    · rw [h]
    · exact absurd h hnow
omit hen hcode in
theorem State.traceTrigger_idle (h : s.trc.state = .idle) (tt arg : Nat) : s.traceTrigger code tt arg = s := by
  unfold State.traceTrigger
  split
  · rw [if_neg (by simp [h]), h]
  · rfl
end
theorem State.traceTrigger_disabled {s : State} (h : s.trc.enable = false) (code tt arg : Nat) : s.traceTrigger code tt arg = s := by
  simp [State.traceTrigger, h]
theorem State.chips_traceTrigger (s : State) (code tt arg : Nat) : (s.traceTrigger code tt arg).chips = s.chips := (s.traceTrigger_noted code tt arg).chips
theorem exec_traceTimeTrigger (s : State) : exec .traceTimeTrigger s = .next s.timeTrigger := rfl

/-! ### The end of a capture -/

/-- From `s` to `t` the records `x` have entered the staging ring; how the capture ended is as it was, and the chips are. -/
structure Poured (s t : State) (x : List TraceRec) : Prop where
  ring : t.trc.ring = s.trc.ring ++ x
  enable : t.trc.enable = s.trc.enable
  stopCode : t.trc.stopCode = s.trc.stopCode
  stopAt : t.trc.stopAt = s.trc.stopAt
  chips : t.chips = s.chips
theorem Poured.refl (s : State) : Poured s s [] := ⟨(List.append_nil _).symm, rfl, rfl, rfl, rfl⟩
theorem Poured.trans {s t u : State} {x y : List TraceRec} (h : Poured s t x) (g : Poured t u y) : Poured s u (x ++ y) :=
  ⟨by rw [g.ring, h.ring, List.append_assoc], g.enable.trans h.enable, g.stopCode.trans h.stopCode, g.stopAt.trans h.stopAt, g.chips.trans h.chips⟩
theorem Poured.after {s t u : State} {x : List TraceRec} (h : Poured s t []) (g : Poured t u x) : Poured s u x := h.trans g
theorem State.setTchip_poured (s : State) (f : Nat) (c : TraceChip) : Poured s (s.setTchip f c) [] := by
  unfold State.setTchip
  split
  · exact ⟨(List.append_nil _).symm, rfl, rfl, rfl, rfl⟩
  · exact Poured.refl s
theorem State.ringPush_poured (s : State) (rs : List TraceRec) : Poured s (s.ringPush rs) rs := by
  have htrc := s.ringPush_trc rs
  exact ⟨by rw [htrc], by rw [htrc], by rw [htrc], by rw [htrc], (s.ringPush_noted rs).chips⟩
/-- A record enters the ring, its chip's window, or neither (R498). -/
theorem State.placeRec_poured (s : State) (f : Nat) (r : TraceRec) : ∃ x, Poured s (s.placeRec f r) x := by
  have hclean : Poured s { s with sramClean := false } [] := ⟨(List.append_nil _).symm, rfl, rfl, rfl, rfl⟩
  have hdiscard : ∀ u : State, Poured u { u with trc := { u.trc with discarded := satAdd u.trc.discarded 1 32 } } [] :=
    fun u => ⟨(List.append_nil _).symm, rfl, rfl, rfl, rfl⟩
  unfold State.placeRec
  dsimp only
  split
  · exact ⟨_, s.ringPush_poured _⟩
  · split
    · exact ⟨_, hclean.after (State.setTchip_poured ..)⟩
    · split
      · split
        · exact ⟨_, s.ringPush_poured _⟩
        · exact ⟨_, hdiscard s⟩
      · split
        · split
          · exact ⟨_, Poured.refl s⟩
          · exact ⟨_, hclean.after (State.setTchip_poured ..)⟩
        · split
          · exact ⟨_, (s.setTchip_poured _ _).after (State.ringPush_poured ..)⟩
          · exact ⟨_, (s.setTchip_poured _ _).after (hdiscard _)⟩
theorem State.payGaps_poured (s : State) (f : Nat) : ∃ x, Poured s (s.payGaps f) x :=
  List.foldlRecOn (motive := fun t : State => ∃ x, Poured s t x) _ _ ⟨[], s.setTchip_poured _ _⟩ fun t ⟨_, ht⟩ r _ =>
    (t.placeRec_poured f r).imp' _ fun _ hy => ht.trans hy
/-- The gaps that chips are owed, paid to all of them. -/
theorem State.foldl_payGaps_poured (l : List Nat) (s : State) :
    ∃ x, Poured s (l.foldl (fun s f => if (s.tchip f).owed ≠ [] then s.payGaps f else s) s) x :=
  List.foldlRecOn (motive := fun t : State => ∃ x, Poured s t x) _ _ ⟨[], Poured.refl s⟩ fun t ⟨_, ht⟩ f _ => by
    split
    · exact (t.payGaps_poured f).imp' _ fun _ hy => ht.trans hy
    · exact ⟨_, ht⟩
theorem State.trc_mapItems (s : State) (f : Work → Item → Item) : (s.mapItems f).trc = s.trc := (congrArg State.trc (s.mapItems_frame f) :)
theorem State.chips_mapItems (s : State) (f : Work → Item → Item) : (s.mapItems f).chips = s.chips := (congrArg State.chips (s.mapItems_frame f) :)
/-- A flushing trace is STOPPED once every armed chip has flushed, and goes on flushing until then (R508). -/
theorem State.checkFlushed_flushing {s : State} (h : s.trc.state = .flushing) :
    (∃ x, Poured s s.checkFlushed x) ∧ (s.checkFlushed.trc.state = .flushing ∨ s.checkFlushed.trc.state = .stopped) := by
  obtain ⟨x, hpaid⟩ := State.foldl_payGaps_poured (List.range 128) s
  unfold State.checkFlushed
  generalize (List.range 128).foldl (fun s f => if (s.tchip f).owed ≠ [] then s.payGaps f else s) s = u at hpaid
  split
  · refine ⟨⟨x ++ _, ⟨by rw [State.trc_mapItems, ← List.append_assoc, ← hpaid.ring], by rw [State.trc_mapItems]; exact hpaid.enable,
      by rw [State.trc_mapItems]; exact hpaid.stopCode, by rw [State.trc_mapItems]; exact hpaid.stopAt, by rw [State.chips_mapItems]; exact hpaid.chips⟩⟩,
      .inr (by rw [State.trc_mapItems])⟩
  · exact ⟨⟨[], Poured.refl s⟩, .inl h⟩

/-- A controller's own register write changes its chip, and may end its pull of the stop line. -/
theorem State.ctlWrite_frame (s : State) (f a v : Nat) : ∃ c p, s.ctlWrite f a v = { s with chips := c, pins := p } := by
  have hset : ∀ d, ∃ c, s.setChip f d = { s with chips := c } := fun d => by
    unfold State.setChip; split <;> exact ⟨_, rfl⟩
  unfold State.ctlWrite State.relayScan
  split
  · obtain ⟨c, hc⟩ := hset ((s.chip f).regWrite f (s.chipTime f) a v)
    rw [hc]
    split <;> exact ⟨c, _, rfl⟩
  · exact ⟨_, _, rfl⟩
theorem State.chip_ctlWrite_ne {f g : Nat} (h : g ≠ f) (s : State) (a v : Nat) : (s.ctlWrite f a v).chip g = s.chip g := by
  unfold State.ctlWrite
  split
  · rw [State.chip_relayScan, State.chip_setChip_ne _ _ _ _ h]
  · rfl
theorem State.chip_ctlWrite_same {s : State} {f : Nat} (hf : f < 128) (ha : s.addressable f = true) (hr : (s.chip f).inReset = false) (a v : Nat) :
    (s.ctlWrite f a v).chip f = (s.chip f).regWrite f (s.chipTime f) a v := by
  unfold State.ctlWrite
  rw [if_pos ⟨ha, by simp [hr]⟩, State.chip_relayScan, State.chip_setChip_same _ _ _ hf]
/-- WDA_TRC_CTRL written 0 stops the taps (R506). -/
theorem Chip.tapEn_regWrite_off (c : Chip) (f t : Nat) : (c.regWrite f t (wdaBase + 0x500) 0).tapEn = false := by
  have hw : c.regWrite f t (wdaBase + 0x500) 0 = c.wdaWrite f t 0x500 0 := by
    unfold Chip.regWrite
    rw [if_pos (by unfold wdaBase; omega), Nat.add_sub_cancel_left]
  rw [hw]
  simp only [Chip.wdaWrite, Chip.tapOffWrite]
  cases h : c.tapEn <;> simp [bit]

/-- The controllers stop the taps of every armed chip (R498, R514). -/
def State.tapsOff (s : State) (n : Nat) : State :=
  (List.range n).foldl (fun s f => if (s.tchip f).armed then s.ctlWrite f (wdaBase + 0x500) 0 else s) s
/-- From `s` to `t` the taps of the armed chips below `n` have been stopped. -/
structure TapsOff (s t : State) (n : Nat) : Prop where
  trc : t.trc = s.trc
  bhv : t.bhv = s.bhv
  beyond : ∀ g, n ≤ g → t.chip g = s.chip g
  off : ∀ f, f < n → (s.tchip f).armed = true → s.addressable f = true → (s.chip f).inReset = false → (t.chip f).tapEn = false
theorem State.tapsOff_stops (s : State) {n : Nat} (hn : n ≤ 128) : TapsOff s (s.tapsOff n) n := by
  induction n with
  | zero => exact ⟨rfl, rfl, fun _ _ => rfl, fun _ h => absurd h (Nat.not_lt_zero _)⟩
  | succ n ih =>
    have h := ih (by omega)
    unfold State.tapsOff at h ⊢
    rw [List.range_succ, List.foldl_append]
    generalize (List.range n).foldl (fun s f => if (s.tchip f).armed then s.ctlWrite f (wdaBase + 0x500) 0 else s) s = u at h ⊢
    have harmed : (u.tchip n).armed = (s.tchip n).armed := by unfold State.tchip; rw [h.trc]
    have haddr : u.addressable n = s.addressable n := by unfold State.addressable; rw [State.chain_of_bhv h.bhv]
    show TapsOff s (if (u.tchip n).armed then u.ctlWrite n (wdaBase + 0x500) 0 else u) (n + 1)
    rw [harmed]
    by_cases hw : (s.tchip n).armed = true
    · rw [if_pos hw]
      have hkept : ∀ g, g ≠ n → (u.ctlWrite n (wdaBase + 0x500) 0).chip g = u.chip g := fun g hg => State.chip_ctlWrite_ne hg u _ _
      have hstop : u.addressable n = true → (u.chip n).inReset = false → ((u.ctlWrite n (wdaBase + 0x500) 0).chip n).tapEn = false := fun ha hr => by
        rw [State.chip_ctlWrite_same (by omega) ha hr]
        exact Chip.tapEn_regWrite_off ..
      obtain ⟨c, p, hframe⟩ := u.ctlWrite_frame n (wdaBase + 0x500) 0
      refine ⟨by rw [hframe]; exact h.trc, by rw [hframe]; exact h.bhv, fun g hg => ?_, fun f hf ha hb hc => ?_⟩
      · rw [hkept g (by omega), h.beyond g (by omega)]
      · rcases Nat.lt_succ_iff_lt_or_eq.mp hf with hlt | rfl
        · rw [hkept f (by omega)]; exact h.off f hlt ha hb hc
        · exact hstop (by rw [haddr]; exact hb) (by rw [h.beyond f (Nat.le_refl f)]; exact hc)
    · rw [if_neg hw]
      exact ⟨h.trc, h.bhv, fun g hg => h.beyond g (by omega), fun f hf ha hb hc =>
        (Nat.lt_succ_iff_lt_or_eq.mp hf).elim (fun hlt => h.off f hlt ha hb hc) (fun heq => absurd (heq ▸ ha) hw)⟩

/-- The STOP marker enters the ring, and the trace flushes (R508). -/
structure Flushing (s t : State) (code : Nat) : Prop where
  ring : t.trc.ring = s.trc.ring ++ [marker 0x22 code s.trc.ring.length s.time]
  enable : t.trc.enable = s.trc.enable
  state : t.trc.state = .flushing
  stopCode : t.trc.stopCode = code
  stopAt : t.trc.stopAt = s.time
  tchips : s.trc.state ≠ .pre → t.trc.chips = s.trc.chips
  chips : t.chips = s.chips
  bhv : t.bhv = s.bhv
theorem State.stopMarker_flushes (s : State) (code : Nat) : Flushing s (s.stopMarker code) code := by
  unfold State.stopMarker
  have hnoted := s.ringPush_noted [marker 0x22 code s.trc.ring.length s.time]
  have htrc := s.ringPush_trc [marker 0x22 code s.trc.ring.length s.time]
  generalize s.ringPush [marker 0x22 code s.trc.ring.length s.time] = u at hnoted htrc
  have htime : u.time = s.time := by
    obtain ⟨_, _, _, _, _, rfl⟩ := hnoted
    rfl
  refine ⟨?_, ?_, rfl, rfl, htime, fun hpre => ?_, hnoted.chips, hnoted.bhv⟩
  · show u.trc.ring = _; rw [htrc]
  · show u.trc.enable = _; rw [htrc]
  · refine (if_neg ?_).trans ?_ <;> rw [htrc]
    exact hpre
/-- A capture that stops writes its STOP marker and flushes (R508, R514). -/
structure CaptureEnded (s t : State) (code : Nat) : Prop where
  ring : ∃ x, t.trc.ring = s.trc.ring ++ marker 0x22 code s.trc.ring.length s.time :: x
  enable : t.trc.enable = s.trc.enable
  stopCode : t.trc.stopCode = code
  stopAt : t.trc.stopAt = s.time
  state : t.trc.state = .flushing ∨ t.trc.state = .stopped
  tapsOff : s.trc.state ≠ .pre → ∀ f, f < 128 → (s.tchip f).armed = true → s.addressable f = true → (s.chip f).inReset = false → (t.chip f).tapEn = false
theorem State.stopCapture_ends (s : State) (code : Nat) : CaptureEnded s (s.stopCapture code) code := by
  have hmark := s.stopMarker_flushes code
  have hoff := (s.stopMarker code).tapsOff_stops (Nat.le_refl 128)
  show CaptureEnded s ((s.stopMarker code).tapsOff 128).checkFlushed code
  generalize s.stopMarker code = u at hmark hoff
  generalize u.tapsOff 128 = v at hoff
  obtain ⟨⟨x, hpour⟩, hstate⟩ := State.checkFlushed_flushing (s := v) (by rw [hoff.trc, hmark.state])
  refine ⟨⟨x, ?_⟩, ?_, ?_, ?_, hstate, fun hpre f hf harmed haddr hr => ?_⟩
  · rw [hpour.ring, hoff.trc, hmark.ring, List.append_assoc]; rfl
  · rw [hpour.enable, hoff.trc, hmark.enable]
  · rw [hpour.stopCode, hoff.trc, hmark.stopCode]
  · rw [hpour.stopAt, hoff.trc, hmark.stopAt]
  · have hchip : v.checkFlushed.chip f = v.chip f := by unfold State.chip; rw [hpour.chips]
    rw [hchip]
    refine hoff.off f hf ?_ ?_ ?_
    · unfold State.tchip; rw [hmark.tchips hpre]; exact harmed
    · unfold State.addressable; rw [State.chain_of_bhv hmark.bhv]; exact haddr
    · unfold State.chip; rw [hmark.chips]; exact hr
theorem exec_captureEnd (s : State) : exec .captureEnd s = .next s.captureEnd := rfl
/-- ENABLE cleared ends a capture under way (R514). -/
theorem State.traceEnable_ends {s : State} (hen : s.trc.enable = true) (h : s.trc.state = .streaming ∨ s.trc.state = .pre ∨ s.trc.state = .post) :
    s.traceEnable false = { s with trc := { s.trc with enable := false } }.stopCapture 2 := by
  unfold State.traceEnable
  dsimp only
  rw [if_pos ⟨hen, rfl⟩]
  rcases h with h | h | h <;> rw [h]
theorem State.traceEnable_clears {s : State} (h : s.trc.state = .idle ∨ s.trc.state = .flushing ∨ s.trc.state = .stopped) :
    s.traceEnable false = { s with trc := { s.trc with enable := false } } := by
  unfold State.traceEnable
  dsimp only
  split
  · rcases h with h | h | h <;> rw [h]
  · rfl

/-! ### TRIG_OUT -/

section
variable {s : State}
/-- An event begins a pulse, which is counted and stamped (R501). -/
theorem State.toutEvent_begins (hen : s.pins.trigEn = true) (hsrc : bit s.trc.toutSources 0 = true) (hf : s.fastClock = true) (hp : s.pins.trigPulse = none)
    (he : s.pins.trigEnd ≠ s.now + 1) :
    s.toutEvent 0 = { s with pins := { s.pins with trigPulse := some s.now }
                             trc := { s.trc with toutLast := 0, toutCnt := satAdd s.trc.toutCnt 1 32, toutTime := s.time } } := by
  have hfast : ({ s with trc := { s.trc with toutLast := 0 } } : State).fastClock = true := hf
  unfold State.toutEvent
  dsimp only
  rw [if_pos ⟨hen, hsrc, .inr hf⟩, if_neg (by simp [hp, he]), if_pos hfast]
  rfl
/-- An event during a pulse extends it (R501, R513). -/
theorem State.toutEvent_extends (hen : s.pins.trigEn = true) (hsrc : bit s.trc.toutSources 0 = true) (hf : s.fastClock = true)
    (hp : s.pins.trigPulse ≠ none ∨ s.pins.trigEnd = s.now + 1) :
    s.toutEvent 0 = { s with pins := { s.pins with trigPulse := some s.now }, trc := { s.trc with toutLast := 0 } } := by
  unfold State.toutEvent
  dsimp only
  rw [if_pos ⟨hen, hsrc, .inr hf⟩, if_pos (hp.imp_left Option.isSome_iff_ne_none.mpr)]
theorem State.toutEvent_none (h : s.pins.trigEn = false ∨ bit s.trc.toutSources 0 = false) : s.toutEvent 0 = s := by
  unfold State.toutEvent
  rw [if_neg (by rintro ⟨hen, hsrc, -⟩; simp [hen, hsrc] at h)]
end
/-- A host access leaves TRIG_OUT and the clocks as they are. -/
theorem State.linked_tout (s : State) : s.linked.pins.trigEn = s.pins.trigEn ∧ s.linked.pins.trigPulse = s.pins.trigPulse ∧
    s.linked.pins.trigEnd = s.pins.trigEnd ∧ s.linked.fastClock = s.fastClock := by
  unfold State.linked State.linkUse State.linkWake State.wakeEvent State.seeEvent
  dsimp only
  split_ifs <;> exact ⟨rfl, rfl, rfl, rfl⟩
theorem exec_toutPulseEnd (s : State) : exec .toutPulseEnd s = .next s.toutEnd := rfl

/-- Settles O41: the trigger, the capture's end and the pulse, each as its rule has it. -/
theorem traceTriggersCapturesAndPulses : Obligations.TraceTriggersCapturesAndPulses := by
  refine ⟨fun s => ⟨fun h hen hpre hnow => ?_, fun h hen hlate => ?_, fun h hoff => ?_, fun hsrc hat hfired hen hstate hnow => ?_, fun h => ?_⟩,
    fun s => ⟨fun hpost hdue => ?_, fun h => ?_, fun h hen hstate => ?_, fun h hstate => ?_⟩,
    fun s hts htw => ⟨fun h hen hsrc hf hp he => ?_, fun h hen hsrc hf hp => ?_, fun h hoff => ?_, fun x hx hdue => ?_, fun x hx hdue => ?_⟩⟩
  · obtain ⟨p, q, hl⟩ := s.linked_eq
    obtain ⟨odd, l, n, m, ht⟩ := State.traceTrigger_fires (s := s.linked) (code := 0) (by rw [hl]; exact hen) (.inl rfl) (.inl (by rw [hl]; exact hpre))
      (by rw [hl]; exact hnow) s.time 0
    have htrc : s.linked.trc = s.trc := by rw [hl]
    rw [htrc] at ht
    refine ⟨_, exec_softTrig h, ?_, ?_, ?_, ?_, ?_, ?_, by rw [State.chips_traceTrigger, hl]⟩ <;> rw [ht]
    · rfl
    · rfl
    · rfl
    · exact if_pos hpre
    · rfl
  · obtain ⟨p, q, hl⟩ := s.linked_eq
    rw [exec_softTrig h, State.traceTrigger_ignored (by rw [hl]; exact hen) (.inl rfl) (by rw [hl]; exact hlate), hl]
  · obtain ⟨p, q, hl⟩ := s.linked_eq
    rcases hoff with hidle | hdis
    · rw [exec_softTrig h, State.traceTrigger_idle (by rw [hl]; exact hidle)]
    · rw [exec_softTrig h, State.traceTrigger_disabled (by rw [hl]; exact hdis)]
  · have hgo : s.timeTrigger = ({ s with trc := { s.trc with timeFired := true } } : State).traceTrigger 3 s.trc.trigAt 0 :=
      if_pos ⟨hsrc, hat, by simp [hfired], hstate⟩
    obtain ⟨odd, l, n, m, ht⟩ := State.traceTrigger_fires (s := { s with trc := { s.trc with timeFired := true } }) (code := 3) hen (.inr hsrc) hstate
      hnow s.trc.trigAt 0
    refine ⟨_, exec_traceTimeTrigger s, ?_, ?_, ?_, ?_, ?_, by rw [hgo, State.chips_traceTrigger]⟩ <;> rw [hgo, ht] <;> rfl
  · rw [exec_traceTimeTrigger]
    refine congrArg _ (if_neg ?_)
    rintro ⟨hsrc, hat, hfired, -⟩
    simp [hsrc, Nat.not_lt.mpr hat] at h
    simp [h] at hfired
  · have hgo : s.captureEnd = s.stopCapture 1 := if_pos ⟨hpost, hdue⟩
    have hend := s.stopCapture_ends 1
    obtain ⟨x, hx⟩ := hend.ring
    rw [exec_captureEnd, hgo]
    exact ⟨_, x, rfl, hend.stopCode, hend.stopAt, hend.state, hx, hend.tapsOff (by rw [hpost]; decide)⟩
  · rw [exec_captureEnd]
    refine congrArg _ (if_neg ?_)
    rintro ⟨hpost, hdue⟩
    rcases h with h | h
    · exact h hpost
    · omega
  · obtain ⟨p, q, hl⟩ := s.linked_eq
    have hgo := State.traceEnable_ends (s := s.linked) (by rw [hl]; exact hen) (by rw [hl]; exact hstate)
    have hend := State.stopCapture_ends { s.linked with trc := { s.linked.trc with enable := false } } 2
    rw [← hgo] at hend
    obtain ⟨x, hx⟩ := hend.ring
    have htrc : s.linked.trc = s.trc := by rw [hl]
    have htime : ({ s.linked with trc := { s.linked.trc with enable := false } } : State).time = s.time := by rw [hl]; rfl
    rw [htime] at hx
    refine ⟨_, x, exec_traceDisable h, hend.enable, hend.stopCode, hend.state, hx.trans ?_⟩
    show s.linked.trc.ring ++ marker 0x22 2 s.linked.trc.ring.length s.time :: x = _
    rw [htrc]
  · obtain ⟨p, q, hl⟩ := s.linked_eq
    rw [exec_traceDisable h, State.traceEnable_clears (by rw [hl]; exact hstate), hl]
  · obtain ⟨htrig, hpulse, htrigEnd, hfast⟩ := s.linked_tout
    have htrc : s.linked.trc = s.trc := by rw [State.linked_frame]
    have hnow : s.linked.now = s.now := State.linked_now s
    rw [exec_toutFire hts htw h, State.toutEvent_begins (by rw [htrig, hen]) (by rw [htrc, hsrc]) (by rw [hfast, hf]) (by rw [hpulse, hp])
      (by rw [htrigEnd, hnow]; exact he)]
    obtain ⟨p, q, hl⟩ := s.linked_eq
    rw [hl]; rfl
  · obtain ⟨htrig, hpulse, htrigEnd, hfast⟩ := s.linked_tout
    have htrc : s.linked.trc = s.trc := by rw [State.linked_frame]
    have hnow : s.linked.now = s.now := State.linked_now s
    rw [exec_toutFire hts htw h, State.toutEvent_extends (by rw [htrig, hen]) (by rw [htrc, hsrc]) (by rw [hfast, hf])
      (by rw [hpulse, htrigEnd, hnow]; exact hp)]
    obtain ⟨p, q, hl⟩ := s.linked_eq
    rw [hl]
  · obtain ⟨htrig, -⟩ := s.linked_tout
    have htrc : s.linked.trc = s.trc := by rw [State.linked_frame]
    rw [exec_toutFire hts htw h, State.toutEvent_none (by rw [htrig, htrc]; exact hoff)]
  · rw [exec_toutPulseEnd]
    unfold State.toutEnd
    rw [hx]
    exact congrArg _ (if_pos hdue)
  · rw [exec_toutPulseEnd]
    unfold State.toutEnd
    rw [hx]
    exact congrArg _ (if_neg (Nat.not_le.mpr hdue))

end Sys2Proof.Machine

/-! PROOFS. The stop relay, the ends of stop pulses, the toll's backup stop, and confirmation reads (O36). -/
namespace Sys2Proof.Machine

/-! ### Lines that rise -/

theorem exec_stopPulseEnd (s : State) (k : Nat) : exec (.stopPulseEnd k) s = .next (s.pulseEnd k) := rfl
theorem exec_stopRelay (s : State) (k : Nat) : exec (.stopRelay k) s = .next (s.stopInFall k) := rfl
theorem exec_confirmationRead (s : State) (f : Nat) : exec (.confirmationRead f) s = .next (s.confirmRead f) := rfl
theorem exec_tollBackupStop (s : State) : exec .tollBackupStop s = .next s.backupStop := rfl
theorem exec_timedStopRaise (s : State) : exec .timedStopRaise s = .next s.timedRaise := rfl

section
variable {s : State} {k n : Nat} (hp : tget 0 s.pins.pulse k = n + 1)
include hp
theorem State.pulseEnd_due (h : aonEdge (n + 1000 * Nat.max s.run.pulse 1) ≤ s.now) :
    s.pulseEnd k = ({ s with pins := { s.pins with stopOut := setFld s.pins.stopOut k 1 1, pulse := tput 0 s.pins.pulse k 0 } } : State).riseStops := by
  unfold State.pulseEnd
  rw [hp]
  exact if_pos h
theorem State.pulseEnd_waits (h : s.now < aonEdge (n + 1000 * Nat.max s.run.pulse 1)) : s.pulseEnd k = s := by
  unfold State.pulseEnd
  rw [hp]
  exact if_neg (Nat.not_le.mpr h)
end

/-- From `s` to `t` lines have been raised: none has fallen, and chips may have re-armed their stop inputs. -/
structure Raised (s t : State) : Prop where
  kept : ∃ out c, t = { s with pins := { s.pins with stopOut := out }, chips := c }
  high : ∀ j, bit s.pins.stopOut j = true → bit t.pins.stopOut j = true
theorem Raised.refl (s : State) : Raised s s := ⟨⟨_, _, rfl⟩, fun _ h => h⟩
theorem Raised.trans {s t u : State} (h : Raised s t) (g : Raised t u) : Raised s u := by
  obtain ⟨out, c, rfl⟩ := h.kept
  obtain ⟨out', c', hu⟩ := g.kept
  exact ⟨⟨out', c', hu⟩, fun j hj => g.high j (h.high j hj)⟩
theorem State.raiseStop_raises (s : State) (k : Nat) : Raised s (s.raiseStop k) := by
  unfold State.raiseStop
  split
  · obtain ⟨c, hc⟩ := riseStops_eq { s with pins := { s.pins with stopOut := setFld s.pins.stopOut k 1 1 } }
    rw [hc]
    exact ⟨⟨_, c, rfl⟩, fun j hj => by show bit (setFld _ k 1 1) j = true; rw [bit_setFld_one, hj, Bool.true_or]⟩
  · exact Raised.refl s
theorem State.raiseStop_high {s : State} {k : Nat} (hen : bit s.pins.stopEn k = true) (hp : tget 0 s.pins.pulse k = 0) :
    bit (s.raiseStop k).pins.stopOut k = true := by
  unfold State.raiseStop
  split
  · obtain ⟨c, hc⟩ := riseStops_eq { s with pins := { s.pins with stopOut := setFld s.pins.stopOut k 1 1 } }
    rw [hc]
    show bit (setFld _ k 1 1) k = true
    rw [bit_setFld_one]; simp
  · next h => simpa [hen, hp] using h
/-- The lines of a mask that are enabled and out of a pulse end high (R403). -/
theorem State.raiseStops_high (s : State) {mask k : Nat} (hk : k < 8) (hm : bit mask k = true) (hen : bit s.pins.stopEn k = true) (hp : tget 0 s.pins.pulse k = 0) :
    Raised s (s.raiseStops mask) ∧ bit (s.raiseStops mask).pins.stopOut k = true := by
  have upto : ∀ n, let t := (List.range n).foldl (fun (s : State) k => if bit mask k then s.raiseStop k else s) s
      Raised s t ∧ (k < n → bit t.pins.stopOut k = true) := by
    intro n
    induction n with
    | zero => exact ⟨Raised.refl s, fun h => absurd h (Nat.not_lt_zero k)⟩
    | succ n ih =>
      obtain ⟨hr, hhigh⟩ := ih
      dsimp only at hr hhigh ⊢
      rw [List.range_succ, List.foldl_append]
      generalize (List.range n).foldl (fun (s : State) k => if bit mask k then s.raiseStop k else s) s = u at hr hhigh ⊢
      show Raised s (if bit mask n then u.raiseStop n else u) ∧ (k < n + 1 → bit (if bit mask n then u.raiseStop n else u).pins.stopOut k = true)
      have hstep : Raised u (if bit mask n then u.raiseStop n else u) := by
        split
        · exact u.raiseStop_raises n
        · exact Raised.refl u
      refine ⟨hr.trans hstep, fun hlt => ?_⟩
      rcases Nat.lt_succ_iff_lt_or_eq.mp hlt with h | rfl
      · exact hstep.high k (hhigh h)
      · rw [if_pos hm]
        obtain ⟨out, c, rfl⟩ := hr.kept
        exact State.raiseStop_high hen hp
  exact ⟨(upto 8).1, (upto 8).2 hk⟩

/-! ### Requests of the relay and of the toll -/

theorem State.pulseMask_frame (mask : Nat) (l : List Nat) (s : State) : ∃ pins, s.pulseMask mask l = { s with pins := pins } :=
  List.foldlRecOn (motive := fun t : State => ∃ pins, t = { s with pins := pins }) l _ ⟨_, rfl⟩ fun t ⟨pins, ht⟩ k _ => by
    split
    · obtain ⟨pins', h⟩ := t.pulseStart_frame k
      exact ⟨pins', by rw [h, ht]⟩
    · exact ⟨pins, ht⟩
/-- A stop request moves lines, and is noted: the settings of run control and the chips stay. -/
theorem State.stopRequest_keeps (s : State) (mask t : Nat) :
    (s.stopRequest mask t).run = s.run ∧ (s.stopRequest mask t).chips = s.chips ∧ (s.stopRequest mask t).pins.stopInLow = s.pins.stopInLow := by
  obtain ⟨pins, hp⟩ := State.pulseMask_frame mask (List.range 8) s
  have hlow : (s.pulseMask mask (List.range 8)).pins.stopInLow = s.pins.stopInLow :=
    List.foldlRecOn (motive := fun t : State => t.pins.stopInLow = s.pins.stopInLow) _ _ rfl fun t ht k _ => by
      split
      · unfold State.pulseStart; split <;> exact ht
      · exact ht
  have hnoted := s.stopRequest_noted mask t
  refine ⟨hnoted.run.trans (by rw [hp]), hnoted.chips.trans (by rw [hp]), ?_⟩
  obtain ⟨_, _, _, _, _, h⟩ := hnoted
  rw [h]
  exact hlow
/-- A stop instant is a matter of run control. -/
theorem State.stopInstant_frame (s : State) (kind chains t : Nat) :
    ∃ sk sc pv cf, s.stopInstant kind chains t =
      { s with run := { s.run with stopTime := t, stopKind := sk, stopChains := sc, stopNow := s.now + 1, stopPrev := pv, confirm := cf } } :=
  ⟨_, _, _, _, rfl⟩

/-- What a relay's request leaves (R381). -/
structure Relayed (s t : State) : Prop where
  cnt : t.run.relayCnt = satAdd s.run.relayCnt 1 32
  fired : t.run.relayFired = true
  lines : ∀ j, j < 8 → bit t.pins.stopOut j = (bit s.pins.stopOut j && !(bit s.run.relayMask j && s.drivable j)) ∧
    tget 0 t.pins.pulse j = if bit s.run.relayMask j ∧ s.drivable j then s.now + 1 else tget 0 s.pins.pulse j
  low : t.pins.stopInLow = s.pins.stopInLow
  chips : t.chips = s.chips
theorem State.relayRequest_relays (s : State) : Relayed s s.relayRequest := by
  have hreq := State.stopRequest_keeps
    { s with run := { s.run with relayCnt := satAdd s.run.relayCnt 1 32, relayFired := true, lastRelay := s.now + 1 } } s.run.relayMask s.time
  have hlines : ∀ j, j < 8 → _ := fun j hj => State.stopRequest_lines
    { s with run := { s.run with relayCnt := satAdd s.run.relayCnt 1 32, relayFired := true, lastRelay := s.now + 1 } } s.run.relayMask s.time hj
  have hu : Relayed s (State.stopRequest
      { s with run := { s.run with relayCnt := satAdd s.run.relayCnt 1 32, relayFired := true, lastRelay := s.now + 1 } } s.run.relayMask s.time) :=
    ⟨by rw [hreq.1], by rw [hreq.1], hlines, hreq.2.2, hreq.2.1⟩
  unfold State.relayRequest
  dsimp only
  split
  · exact hu
  · exact ⟨hu.cnt, hu.fired, hu.lines, hu.low, hu.chips⟩

/-- STOP_N_IN_k as it is noted low, with its TRIG_OUT event (R381, R501). -/
def State.fellLow (s : State) (k : Nat) : State := ({ s with pins := { s.pins with stopInLow := s.pins.stopInLow + 2 ^ k } } : State).toutEvent 2
theorem State.fellLow_noted (s : State) (k : Nat) : Noted { s with pins := { s.pins with stopInLow := s.pins.stopInLow + 2 ^ k } } (s.fellLow k) :=
  State.toutEvent_noted ..
theorem bit_add_two_pow {x k : Nat} (h : bit x k = false) : bit (x + 2 ^ k) k = true := by
  unfold bit at h ⊢
  rw [Nat.add_comm, Nat.testBit_two_pow_add_eq, h]; rfl
theorem State.stopInFall_eq {s : State} {k : Nat} (hk : k < 8) (hpor : s.pins.inPor = false) (hdead : s.pins.dead = false) (hpad : s.stopInPad k = false)
    (hlow : bit s.pins.stopInLow k = false) :
    s.stopInFall k = if (s.fellLow k).run.relayEn ∧ (s.fellLow k).run.relayMask ≠ 0 then (s.fellLow k).relayRequest else s.fellLow k :=
  if_pos ⟨hk, by simp [hpad], by simp [hlow], by simp [hpor], by simp [hdead]⟩

section
variable {s : State} {k : Nat} (hk : k < 8) (hpor : s.pins.inPor = false) (hdead : s.pins.dead = false) (hpad : s.stopInPad k = false)
  (hlow : bit s.pins.stopInLow k = false)
include hk hpor hdead hpad hlow
theorem stopRelay_relays (hen : s.run.relayEn = true) (hm : s.run.relayMask ≠ 0) :
    ∃ t, exec (.stopRelay k) s = .next t ∧ bit t.pins.stopInLow k = true ∧ t.run.relayCnt = satAdd s.run.relayCnt 1 32 ∧ t.run.relayFired = true ∧
      (∀ j, j < 8 → bit s.run.relayMask j = true → s.drivable j = true → bit t.pins.stopOut j = false ∧ tget 0 t.pins.pulse j = s.now + 1) ∧
      (∀ j, j < 8 → bit s.run.relayMask j = false → bit t.pins.stopOut j = bit s.pins.stopOut j) ∧ t.chips = s.chips := by
  obtain ⟨trc, clean, src, ops, trig, hfell⟩ := s.fellLow_noted k
  have hgo := State.stopInFall_eq hk hpor hdead hpad hlow
  have hrel := (s.fellLow k).relayRequest_relays
  rw [hfell] at hgo hrel
  rw [if_pos ⟨hen, hm⟩] at hgo
  refine ⟨_, exec_stopRelay s k, ?_⟩
  rw [hgo]
  refine ⟨?_, hrel.cnt, hrel.fired, fun j hj hmj hd => ?_, fun j hj hmj => ?_, hrel.chips⟩
  · rw [hrel.low]; exact bit_add_two_pow hlow
  · obtain ⟨hout, hpulse⟩ := hrel.lines j hj
    exact ⟨hout.trans (by rw [hmj]; show (_ && !(true && s.drivable j)) = false; rw [hd]; simp), hpulse.trans (if_pos ⟨hmj, hd⟩)⟩
  · obtain ⟨hout, -⟩ := hrel.lines j hj
    exact hout.trans (by rw [hmj]; simp)
theorem stopRelay_masked (h : s.run.relayEn = false ∨ s.run.relayMask = 0) :
    ∃ t, exec (.stopRelay k) s = .next t ∧ bit t.pins.stopInLow k = true ∧ t.pins.stopOut = s.pins.stopOut ∧ t.run = s.run ∧ t.chips = s.chips := by
  obtain ⟨trc, clean, src, ops, trig, hfell⟩ := s.fellLow_noted k
  have hgo := State.stopInFall_eq hk hpor hdead hpad hlow
  rw [hfell, if_neg fun ⟨hen, hm⟩ => h.elim (fun h => Bool.false_ne_true (h.symm.trans hen)) hm] at hgo
  refine ⟨_, exec_stopRelay s k, ?_⟩
  rw [hgo]
  exact ⟨bit_add_two_pow hlow, rfl, rfl, rfl⟩
end

/-- At its time the toll's backup stop drives its lines (R384). -/
theorem tollBackupStop_stops {s : State} {k : Nat} (hk : k < 8) (hb : s.run.backup = true) (ht : s.run.tollT ≤ s.time) (hf : s.fastClock = true)
    (hm : bit s.run.tollMask k = true) (hd : s.drivable k = true) :
    ∃ t, exec .tollBackupStop s = .next t ∧ bit t.pins.stopOut k = false ∧ tget 0 t.pins.pulse k = s.now + 1 ∧ t.run.backup = false ∧
      t.run.tollState = .none_ ∧ t.run.tollCnt = satAdd s.run.tollCnt 1 32 ∧ t.run.stopTime = s.run.tollT ∧ t.chips = s.chips := by
  have hne : s.run.tollMask ≠ 0 := fun h => by rw [h] at hm; simp [bit] at hm
  have hgo : s.backupStop = (State.stopRequest { s with run := { s.run with backup := false, tollState := TollState.none_, tollCnt := satAdd s.run.tollCnt 1 32 } }
      s.run.tollMask s.run.tollT).stopInstant 2 s.run.tollMask s.run.tollT := (if_pos ⟨hb, ht, hf⟩).trans (if_neg hne)
  have hkeeps := State.stopRequest_keeps { s with run := { s.run with backup := false, tollState := TollState.none_, tollCnt := satAdd s.run.tollCnt 1 32 } }
      s.run.tollMask s.run.tollT
  have hlines := State.stopRequest_lines { s with run := { s.run with backup := false, tollState := TollState.none_, tollCnt := satAdd s.run.tollCnt 1 32 } }
      s.run.tollMask s.run.tollT hk
  refine ⟨_, exec_tollBackupStop s, ?_⟩
  rw [hgo]
  generalize State.stopRequest { s with run := { s.run with backup := false, tollState := TollState.none_, tollCnt := satAdd s.run.tollCnt 1 32 } }
      s.run.tollMask s.run.tollT = u at hkeeps hlines ⊢
  obtain ⟨hrun, hchips, -⟩ := hkeeps
  obtain ⟨hout, hpulse⟩ := hlines
  refine ⟨hout.trans ?_, hpulse.trans (if_pos ⟨hm, hd⟩), ?_, ?_, ?_, rfl, hchips⟩
  · show (_ && !(bit s.run.tollMask k && s.drivable k)) = false
    rw [hm, hd]; simp
  · show u.run.backup = false; rw [hrun]
  · show u.run.tollState = _; rw [hrun]
  · show u.run.tollCnt = _; rw [hrun]

/-! ### Confirmation -/

section
variable {s : State} {f n : Nat} {c : Confirm}

/-- What the read of chip `f`, due after its `n`-th, makes of the confirmation (R387). -/
def State.confirmNext (s : State) (f n : Nat) (c : Confirm) : Confirm :=
  if s.addressable f ∧ !(s.chip f).inReset ∧ (s.chip f).stopSeen then
    { c with left := c.left.filter (fun p => p.1 != f), confirmed := c.confirmed + 1 }
  else if !s.addressable f ∨ (s.chip f).inReset ∨ 3 ≤ n + 1 then
    { c with left := c.left.filter (fun p => p.1 != f), unconfirmed := c.unconfirmed + 1 }
  else { c with left := c.left.map (fun p => if p.1 = f then (f, n + 1, s.time + 1000) else p) }
section
variable (hc : s.run.confirm = some c) (hs : c.started = true) (hl : c.left = [(f, n, c.instant + 1000)]) (hf : s.fastClock = true)
  (ht : c.instant + 1000 ≤ s.time) (htag : (s.chain (f / 16)).tagFree true = true) (hidle : ∀ k, k < 8 → bit c.chains k = true → (s.chain k).state ≠ .eIdle)
include hc hs hl hf ht htag hidle
theorem State.confirmRead_last : s.confirmRead f =
    if (s.confirmNext f n c).left = [] then ({ s with run := { s.run with confirm := some (s.confirmNext f n c) } } : State).confirmDone (s.confirmNext f n c)
    else { s with run := { s.run with confirm := some (s.confirmNext f n c) } } := by
  have hany : (List.range 8).any (fun k => bit c.chains k && (s.chain k).state == ChainState.eIdle) = false := by
    rw [List.any_eq_false]
    intro k hk
    cases hb : bit c.chains k
    · simp
    · simp [hidle k (List.mem_range.mp hk) hb]
  have hfind : c.left.find? (fun p => p.1 == f) = some (f, n, c.instant + 1000) := by rw [hl]; simp
  unfold State.confirmRead
  rw [hc]
  dsimp only
  rw [if_neg (by rw [hf, hany, htag]; simp; omega), hs, if_pos rfl, hfind]
  dsimp only
  simp only [show ¬ s.time < c.instant + 1000 by omega, if_false]
  rfl
/-- With no chip left to read the confirmation ends, and HALT is reported (R387, R408). -/
theorem confirmationRead_ends (hleft : (s.confirmNext f n c).left = []) :
    ∃ t, exec (.confirmationRead f) s = .next t ∧ t.run.confirm = none ∧
      t.run.lastConf = ((s.confirmNext f n c).confirmed, (s.confirmNext f n c).unconfirmed) ∧ t.chips = s.chips ∧
      (s.inService 168 = false → (t.src 168).pending = true) := by
  refine ⟨_, exec_confirmationRead s f, ?_⟩
  rw [State.confirmRead_last hc hs hl hf ht htag hidle, if_pos hleft]
  unfold State.confirmDone State.wakePeals
  dsimp only
  generalize hv : State.activate _ 168 _ = v
  have hact : Activated { s with run := { s.run with confirm := none, lastConf := ((s.confirmNext f n c).confirmed, (s.confirmNext f n c).unconfirmed) } } v :=
    hv ▸ State.activate_activated ..
  have hframe := State.mapItems_frame v
  refine ⟨?_, ?_, ?_, fun hsvc => ?_⟩
  · obtain ⟨_, _, rfl⟩ := hact; exact (congrArg (fun t : State => t.run.confirm) (hframe _) :)
  · obtain ⟨_, _, rfl⟩ := hact; exact (congrArg (fun t : State => t.run.lastConf) (hframe _) :)
  · obtain ⟨_, _, rfl⟩ := hact; exact (congrArg (fun t : State => t.chips) (hframe _) :)
  · have hp : (v.src 168).pending = true := hv ▸ State.activate_pending (by decide) (by exact hsvc) _
    exact ((congrArg (fun t : State => (t.src 168).pending) (hframe _) :)).trans hp
end
end

/-- Settles O36: each stop and each read takes place at its time, as its rule has it. -/
theorem stopLinesRelayPulseAndConfirm : Obligations.StopLinesRelayPulseAndConfirm := by
  refine ⟨fun s k hk hpor hdead hpad hlow => ⟨stopRelay_relays hk hpor hdead hpad hlow, stopRelay_masked hk hpor hdead hpad hlow⟩,
    fun s k hk => ⟨fun n hp hdue => ?_, fun n hp hdue => ?_, tollBackupStop_stops hk, fun h => ?_, fun AT mask hr hat hm hen hp => ?_⟩,
    fun s f c n _ hc hs hl hf ht htag hidle => ⟨fun ha hr hseen => ?_, fun h => ?_, fun ha hr hseen hn => ?_⟩⟩
  · obtain ⟨chips, hrise⟩ := riseStops_eq { s with pins := { s.pins with stopOut := setFld s.pins.stopOut k 1 1, pulse := tput 0 s.pins.pulse k 0 } }
    refine ⟨_, exec_stopPulseEnd s k, ?_⟩
    rw [State.pulseEnd_due hp hdue, hrise]
    refine ⟨?_, tget_tput_self .., fun j hj => ?_, rfl, rfl⟩
    · show bit (setFld _ k 1 1) k = true; rw [bit_setFld_one]; simp
    · show bit (setFld _ k 1 1) j = _; rw [bit_setFld_one]; simp [hj]
  · rw [exec_stopPulseEnd, State.pulseEnd_waits hp hdue]
  · rw [exec_tollBackupStop]
    refine congrArg _ (if_neg ?_)
    rintro ⟨hb, ht, -⟩
    rcases h with h | h
    · simp [h] at hb
    · omega
  · have hgo : s.timedRaise = ({ s with run := { s.run with raises := [] } } : State).raiseStops mask := by
      unfold State.timedRaise
      rw [hr]
      simp [hat, Nat.not_lt.mpr hat]
    obtain ⟨hraised, hhigh⟩ := State.raiseStops_high { s with run := { s.run with raises := [] } } hk hm hen hp
    obtain ⟨out, chips, hkept⟩ := hraised.kept
    refine ⟨_, exec_timedStopRaise s, ?_⟩
    rw [hgo]
    exact ⟨hhigh, by rw [hkept], by rw [hkept]⟩
  · have hnext : s.confirmNext f n c = { c with left := c.left.filter (fun p => p.1 != f), confirmed := c.confirmed + 1 } := if_pos ⟨ha, by simp [hr], hseen⟩
    obtain ⟨t, hex, hnone, hlast, hchips, hpend⟩ := confirmationRead_ends hc hs hl hf ht htag hidle (by rw [hnext, hl]; simp)
    rw [hnext] at hlast
    exact ⟨t, hex, hnone, hlast, hchips, hpend⟩
  · have hnot : ¬ (s.addressable f ∧ (!(s.chip f).inReset) = true ∧ (s.chip f).stopSeen) := by
      rcases h with h | h | ⟨h, -⟩ <;> simp [h]
    have hnext : s.confirmNext f n c = { c with left := c.left.filter (fun p => p.1 != f), unconfirmed := c.unconfirmed + 1 } :=
      (if_neg hnot).trans (if_pos (h.elim (fun h => .inl (by simp [h])) fun h => .inr (h.elim .inl fun h => .inr (by omega))))
    obtain ⟨t, hex, hnone, hlast, hchips, -⟩ := confirmationRead_ends hc hs hl hf ht htag hidle (by rw [hnext, hl]; simp)
    rw [hnext] at hlast
    exact ⟨t, hex, hnone, hlast, hchips⟩
  · have hnext : s.confirmNext f n c = { c with left := [(f, n + 1, s.time + 1000)] } :=
      (if_neg (by simp [hseen])).trans ((if_neg (by simp [ha, hr]; omega)).trans (by rw [hl]; simp))
    rw [exec_confirmationRead, State.confirmRead_last hc hs hl hf ht htag hidle, hnext, if_neg (by simp)]

end Sys2Proof.Machine

/-! PROOFS. First strokes of the run-control descriptors (O57): selections, comparators and steps. -/
namespace Sys2Proof.Machine

theorem exec_muffle (e : Nat) (s : State) : exec (.muffle e) s = s.row e 0x12 noCheck selAdv selRep := rfl
theorem exec_resume (e : Nat) (s : State) : exec (.resume e) s = s.row e 0x13 noCheck selAdv selRep := rfl
theorem exec_stepCore (e : Nat) (s : State) : exec (.stepCore e) s = s.row e 0x14 noCheck (stepAdv false) repItem := rfl
theorem exec_stepEngine (e : Nat) (s : State) : exec (.stepEngine e) s = s.row e 0x15 noCheck (stepAdv true) repItem := rfl
theorem exec_breakSet (e : Nat) (s : State) : exec (.breakSet e) s = s.row e 0x16 noCheck breakAdv breakRep := rfl
theorem exec_breakClear (e : Nat) (s : State) : exec (.breakClear e) s = s.row e 0x17 noCheck breakAdv breakRep := rfl

/-! ### MUFFLE and RESUME (R388–R390, R402, R403) -/

section
variable {d : BitVec 512} (hall : selAll d = true)
include hall
/-- With ALL_UNITS the whole selection is one write of GO, after AT where the command is timed. -/
theorem goOps_all (f : Nat) : goOps d f =
    (if selTimed d then [regWr f (wdaBase + 0x2E8) (lo32 (db d 0x20 8)), regWr f (wdaBase + 0x2EC) (hi32 (db d 0x20 8))] else []) ++
      [regWr f (wdaBase + 0x2E0) ((if opcodeOf d = 0x13 then 2 else 1) + place (b2n (selTimed d)) 2 1 + 8)] := by
  simp only [goOps, hall, if_true, Bool.true_or, List.nil_append]
  rfl
theorem goOps_muffle (hop : opcodeOf d = 0x12) (f : Nat) : goOps d f = [regWr f (wdaBase + 0x2E0) 9] := by
  have ht : selTimed d = false := by simp [selTimed, hop]
  simp [goOps_all hall, ht, hop, place, b2n]
theorem goOps_resume (hop : opcodeOf d = 0x13) (ht : dbits d 0x12 1 1 = 0) (f : Nat) : goOps d f = [regWr f (wdaBase + 0x2E0) 10] := by
  have ht : selTimed d = false := by simp [selTimed, ht]
  simp [goOps_all hall, ht, hop, place, b2n]
theorem goOps_resume_timed (hop : opcodeOf d = 0x13) (ht : dbits d 0x12 1 1 = 1) (f : Nat) : goOps d f =
    [regWr f (wdaBase + 0x2E8) (lo32 (db d 0x20 8)), regWr f (wdaBase + 0x2EC) (hi32 (db d 0x20 8)), regWr f (wdaBase + 0x2E0) 14] := by
  have ht : selTimed d = true := by simp [selTimed, hop, ht]
  simp [goOps_all hall, ht, hop, place, b2n]
end
section
variable (s : State) (e : Nat) (w : Work) (i : Item)
theorem muffle_sends : s.Sends (.muffle e) e 0x12 w i s (s.pushChips i (goOps i.desc)) :=
  State.row_sends noCheck selAdv selRep (exec_muffle e s) fun hs => ⟨rfl, by
    have hraise : s.resumeRaise i.desc = s := if_neg fun h => by rw [hs.opcode] at h; exact absurd h.1 (by decide)
    exact (if_pos hs.stage).trans (by rw [hraise])⟩
theorem resume_sends : s.Sends (.resume e) e 0x13 w i (s.resumeRaise i.desc) (s.pushChips i (goOps i.desc)) :=
  State.row_sends noCheck selAdv selRep (exec_resume e s) fun hs => ⟨rfl, if_pos hs.stage⟩

/-! ### BREAK_SET and BREAK_CLEAR (R406, R407) -/

theorem break_sends {c : Instr} {op : Nat} (hex : exec c s = s.row e op noCheck breakAdv breakRep) :
    s.Sends c e op w i s (s.pushChips i (breakOps i.desc)) :=
  State.row_sends noCheck breakAdv breakRep hex fun hs => ⟨rfl, if_pos hs.stage⟩
end
section
variable {d : BitVec 512} (hkind : dbits d 0x20 0 2 = 0)
include hkind
/-- A breakpoint of a core is disabled, given its address and enabled (R406). -/
theorem breakUnitOps_set (hop : opcodeOf d = 0x16) (f u : Nat) : breakUnitOps d f u =
    [regWr f (coreWin + 0x1000 * u + (0x104 + 8 * dbits d 0x21 0 3)) 0, regWr f (coreWin + 0x1000 * u + (0x100 + 8 * dbits d 0x21 0 3)) (db d 0x24 4),
     regWr f (coreWin + 0x1000 * u + (0x104 + 8 * dbits d 0x21 0 3)) (1 + place (dbits d 0x22 0 2) 1 2)] := by
  simp [breakUnitOps, breakRegs, breakCtrl, hkind, hop]
theorem breakUnitOps_clear (hop : opcodeOf d = 0x17) (hone : dbits d 0x21 3 1 = 0) (f u : Nat) :
    breakUnitOps d f u = [regWr f (coreWin + 0x1000 * u + (0x104 + 8 * dbits d 0x21 0 3)) 0] := by
  simp [breakUnitOps, breakRegs, hkind, hop, hone]
end

/-! ### STEP_CORE and STEP_ENGINE (R404, R405) -/

theorem Status.highest_one (x : Status) : Status.highest [x] = x := by cases x <;> rfl
section
variable {s : State} {w : Work} {i : Item} {engine : Bool} (hst : i.stage = 0)
include hst
theorem stepAdv_noCore (h9 : bit (stepUnit i.desc) 9 = false) (hn : 32 ≤ stepUnit i.desc % 512) : stepAdv engine s w i = s.setItem w (i.fail .chipAbsent) := by
  simp [stepAdv, hst, h9, hn]
variable (hcore : bit (stepUnit i.desc) 9 = true ∨ stepUnit i.desc % 512 < 32)
include hcore
theorem stepAdv_otherClass (h9 : bit (stepUnit i.desc) 9 ≠ engine) : stepAdv engine s w i = s.setItem w (i.fail .aborted) := by
  have hnot : ¬ ((!bit (stepUnit i.desc) 9) = true ∧ 32 ≤ stepUnit i.desc % 512) := by
    rintro ⟨hb, hn⟩
    rcases hcore with h | h
    · simp [h] at hb
    · omega
  exact (if_pos hst).trans ((if_neg hnot).trans (if_pos h9))
/-- A step of a unit of its class goes by the status of the unit's chip (R341). -/
theorem stepAdv_class (h9 : bit (stepUnit i.desc) 9 = engine) : stepAdv engine s w i = match s.issueStatus (stepUnit i.desc / 1024) with
    | some x => s.setItem w (i.fail x)
    | none => s.setItem w { i with stage := 1, wait := .ctl (some s.now) } := by
  have hnot : ¬ ((!bit (stepUnit i.desc) 9) = true ∧ 32 ≤ stepUnit i.desc % 512) := by
    rintro ⟨hb, hn⟩
    rcases hcore with h | h
    · simp [h] at hb
    · omega
  exact (if_pos hst).trans ((if_neg hnot).trans (if_neg (not_not.mpr h9)))
end
section
variable {s : State} {c : Instr} {e op : Nat} {w : Work} {i : Item} {engine : Bool} (hex : exec c s = s.row e op noCheck (stepAdv engine) repItem)
include hex
theorem step_noCore_ends (h9 : bit (stepUnit i.desc) 9 = false) (hn : 32 ≤ stepUnit i.desc % 512) : s.Ends c e op w i s (i.fail .chipAbsent) .chipAbsent :=
  State.ends_done hex (Nat.zero_le 99) fun hs => ⟨.of_eq (stepAdv_noCore hs.stage h9 hn), hs.isSome, fun _ => rfl, by rw [hs.errs]; rfl⟩
variable (hcore : bit (stepUnit i.desc) 9 = true ∨ stepUnit i.desc % 512 < 32)
include hcore
theorem step_otherClass_ends (h9 : bit (stepUnit i.desc) 9 ≠ engine) : s.Ends c e op w i s (i.fail .aborted) .aborted :=
  State.ends_done hex (Nat.zero_le 99) fun hs => ⟨.of_eq (stepAdv_otherClass hs.stage hcore h9), hs.isSome, fun _ => rfl, hs.highest_aborted⟩
variable (h9 : bit (stepUnit i.desc) 9 = engine)
include h9
theorem step_unreachable_ends {x : Status} (hx : s.issueStatus (stepUnit i.desc / 1024) = some x) : s.Ends c e op w i s (i.fail x) x :=
  State.ends_done hex (Nat.zero_le 99) fun hs =>
    ⟨.of_eq ((stepAdv_class hs.stage hcore h9).trans (by rw [hx]; rfl)), hs.isSome, fun _ => rfl, by rw [hs.errs]; exact Status.highest_one x⟩
theorem step_waits (hx : s.issueStatus (stepUnit i.desc / 1024) = none) : s.Waits c e op w i s { i with stage := 1, wait := .ctl (some s.now) } :=
  State.row_waits noCheck (stepAdv engine) repItem hex fun hs =>
    ⟨rfl, (stepAdv_class hs.stage hcore h9).trans (by rw [hx]), hs.isSome, Wait.noConfusion⟩
end

/-- Settles O57: each descriptor by the branches of its first advance. -/
theorem runControlDescriptorsRun : Obligations.RunControlDescriptorsRun := by
  intro s e w i
  refine ⟨muffle_sends s e w i, fun f hop hall => goOps_muffle hall hop f, resume_sends s e w i, fun f hop hall ht => goOps_resume hall hop ht f,
    fun f hop hall ht => goOps_resume_timed hall hop ht f, break_sends s e w i (exec_breakSet e s), fun f u hop hkind => breakUnitOps_set hkind hop f u,
    break_sends s e w i (exec_breakClear e s), fun f u hop hkind hone => breakUnitOps_clear hkind hop hone f u, fun engine c op h => ?_⟩
  have hex : exec c s = s.row e op noCheck (stepAdv engine) repItem := by
    rcases h with ⟨rfl, rfl, rfl⟩ | ⟨rfl, rfl, rfl⟩
    · exact exec_stepCore e s
    · exact exec_stepEngine e s
  refine ⟨step_noCore_ends hex, fun h9 hc => step_otherClass_ends hex ?_ h9, fun h9 hc => ?_⟩
  · exact hc.imp_left fun heng => by rw [heng] at h9; exact Bool.eq_true_of_not_eq_false h9
  · have hcore : bit (stepUnit i.desc) 9 = true ∨ stepUnit i.desc % 512 < 32 := hc.imp_left fun heng => h9.trans heng
    exact ⟨fun x hx => step_unreachable_ends hex hcore h9 hx, step_waits hex hcore h9⟩

end Sys2Proof.Machine

/-! PROOFS. First strokes of the dump descriptors (O59): plans, dumps, their resumption and abort, and drains of the dump store. -/
namespace Sys2Proof.Machine

theorem exec_dumpPlan (e : Nat) (s : State) : exec (.dumpPlan e) s = s.row e 0x30 planNote planAdv repItem := rfl
theorem exec_dumpRun (e : Nat) (s : State) : exec (.dumpRun e) s = s.row e 0x31 noCheck runAdv dumpRep := rfl
theorem exec_dumpTensor (e : Nat) (s : State) : exec (.dumpTensor e) s = s.row e 0x32 tensorNote tensorAdv dumpRep := rfl
theorem exec_dumpResume (e : Nat) (s : State) : exec (.dumpResume e) s = s.row e 0x33 noCheck resumeAdv dumpRep := rfl
theorem exec_dumpAbort (e : Nat) (s : State) : exec (.dumpAbort e) s = s.row e 0x34 noCheck abortAdv dumpRep := rfl
theorem exec_storeDrain (e : Nat) (s : State) : exec (.storeDrain e) s = s.row e 0x35 noCheck drainAdv drainRep := rfl

/-! ### DUMP_PLAN (R452) -/

section
variable {s : State} {e : Nat} {w : Work} {i : Item}
theorem planNote_first (h : i.stage = 0) : planNote s w i = s := if_neg fun hn => by rw [h] at hn; exact absurd hn.1 (by decide)
theorem item?_putPlan (s : State) (id : Nat) (p : List Region) (w : Work) : (s.putPlan id p).item? w = s.item? w := by cases w <;> rfl
theorem dumpPlan_clears (hn : planCount i.desc = 0) (hb : s.planBusy (planId i.desc) = false) :
    s.Ends (.dumpPlan e) e 0x30 w i (s.putPlan (planId i.desc) []) i.done .ok :=
  State.row_ends planNote planAdv repItem (exec_dumpPlan e s) fun hs => by
    refine ⟨planNote_first hs.stage, ?_, by rw [item?_putPlan]; exact hs.isSome, hs.ended i.errs i.detail i.x, rfl, hs.highest_ok⟩
    simp [planAdv, hn, hb, hs.stage]
theorem dumpPlan_busy (hn : planCount i.desc = 0) (hb : s.planBusy (planId i.desc) = true) :
    s.Ends (.dumpPlan e) e 0x30 w i s { i.fail .aborted with detail := 0x80000008 } .aborted :=
  State.row_ends planNote planAdv repItem (exec_dumpPlan e s) fun hs => by
    refine ⟨planNote_first hs.stage, ?_, hs.isSome, hs.ended (i.errs ++ [.aborted]) 0x80000008 i.x, rfl, hs.highest_aborted⟩
    simp [planAdv, hn, hb, Item.abortWith, planBusyCode]
theorem dumpPlan_reads (hn : planCount i.desc ≠ 0) :
    s.Sends (.dumpPlan e) e 0x30 w i s { i.push (hostReads (db i.desc 0x18 8) (32 * planCount i.desc)) with stage := 1 } :=
  State.row_sends planNote planAdv repItem (exec_dumpPlan e s) fun hs => ⟨planNote_first hs.stage, if_pos ⟨hs.stage, hn⟩⟩
end

/-! ### Dumps that end at once (R454–R456) -/

/-- An item that has taken no context ends as it is. -/
theorem dumpRep_free {i : Item} (hx : tget 0 i.x 10 = 0) (s : State) (w : Work) (st : Status) : dumpRep s w i st = (s, i.detail, i.cursor) := by
  simp only [dumpRep, hx]
section
variable {s : State} {c : Instr} {e op : Nat} {w : Work} {i : Item} {note : State → Work → Item → State} {adv : Advance}
  (hex : exec c s = s.row e op note adv dumpRep)
include hex
theorem dump_aborts {code : Nat} (h : s.Starts e op w i → note s w i = s ∧ adv s w i = s.setItem w (i.abortWith code)) :
    s.Ends c e op w i s { i.fail .aborted with detail := code } .aborted :=
  State.row_ends note adv dumpRep hex fun hs => by
    obtain ⟨hnote, hadv⟩ := h hs
    exact ⟨hnote, hadv, hs.isSome, hs.ended (i.errs ++ [.aborted]) code i.x, dumpRep_free (by show tget 0 i.x 10 = 0; rw [hs.x]; rfl) _ _ _, hs.highest_aborted⟩
theorem dump_ends {u : State} (h : s.Starts e op w i → note s w i = s ∧ adv s w i = u.setItem w i.done ∧ (u.item? w).isSome = true) :
    s.Ends c e op w i u i.done .ok :=
  State.row_ends note adv dumpRep hex fun hs => by
    obtain ⟨hnote, hadv, hu⟩ := h hs
    exact ⟨hnote, hadv, hu, hs.ended i.errs i.detail i.x, dumpRep_free (by show tget 0 i.x 10 = 0; rw [hs.x]; rfl) _ _ _, hs.highest_ok⟩
end

/-! ### Taking a context (R438, R439, R454) -/

theorem item?_setCtx (s : State) (n : Nat) (c : Ctx) (w : Work) : (s.setCtx n c).item? w = s.item? w := by
  unfold State.setCtx; split <;> cases w <;> rfl
theorem item?_newCtx (s : State) (n : Nat) (d : BitVec 512) (w : Work) (tensor survival : Bool) (v : Work) :
    (s.newCtx n d w tensor survival).item? v = s.item? v := by
  unfold State.newCtx
  dsimp only
  rw [item?_setCtx]
  cases s.lcs.state == 4 <;> cases v <;> rfl
/-- The header depends on the context, the fuses and the boot alone. -/
theorem sdfHeader_setItem (s : State) (w : Work) (i : Item) (c : Ctx) (a b t l o : Nat) :
    (s.setItem w i).sdfHeader c a b t l o = s.sdfHeader c a b t l o :=
  (congrArg (fun u : State => u.sdfHeader c a b t l o) (s.setItem_frame w i) :)
theorem ctx_setItem (s : State) (w : Work) (i : Item) (n : Nat) : (s.setItem w i).ctx n = s.ctx n :=
  (congrArg (fun u : State => u.ctx n) (s.setItem_frame w i) :)
/-- A dump in its context begins with the header, OPEN (R439). -/
theorem dumpStep_opens {u : State} {w : Work} {i j : Item} {n : Nat} (hr : ∀ n, w = .ring n → n < 512) (hi : u.item? w = some i)
    (hx : tget 0 j.x 10 = n + 1) (herrs : j.errs = []) (hover : j.over = false) (hst : j.stage = 1) :
    dumpStep (u.setItem w j) w j = u.setItem w { j.emit (u.ctx n) 0 (u.sdfHeader (u.ctx n) 0 0 0 0 0) with stage := 2 } := by
  have hgone : (u.setItem w j).dumpHostGone w j n = u.setItem w j := if_neg (by rw [herrs]; simp)
  unfold dumpStep
  rw [hx]
  dsimp only
  rw [hgone, State.item?_setItem hr hi]
  dsimp only
  rw [if_neg (by simp [hover]), State.dumpGo, if_pos hst, sdfHeader_setItem, ctx_setItem, setItem_setItem]

section
variable {s : State} {e : Nat} {w : Work} {i : Item}
theorem dumpRun_arms (h : dbits i.desc 0x12 2 1 = 1) : s.Ends (.dumpRun e) e 0x31 w i (s.armSurvival i.desc) i.done .ok :=
  dump_ends (exec_dumpRun e s) fun hs => ⟨rfl, (if_pos hs.stage).trans (if_pos h), by
    have hitem : (s.armSurvival i.desc).item? w = s.item? w := by cases w <;> rfl
    rw [hitem]; exact hs.isSome⟩
section
variable (h : dbits i.desc 0x12 2 1 = 0)
include h
theorem runAdv_first (hs : i.stage = 0) : runAdv s w i = match s.dumpBar (dbits i.desc 0x11 1 1 == 1), s.freeCtx with
    | some code, _ => s.setItem w (i.abortWith code)
    | none, none => s.setItem w (i.abortWith noContext)
    | none, some n =>
      if tget [] s.dmp.plans (planId i.desc) = [] then s.setItem w (i.abortWith noPlan)
      else if ((s.newCtx n i.desc w false false).ctx n).noSpace then s.setItem w (i.abortWith noSpaceCode)
      else (s.newCtx n i.desc w false false).setItem w { i with stage := 1, x := tput 0 i.x 10 (n + 1) } :=
  (if_pos hs).trans (if_neg (by rw [h]; decide))
theorem dumpRun_barred {code : Nat} (hb : s.dumpBar (dbits i.desc 0x11 1 1 == 1) = some code) :
    s.Ends (.dumpRun e) e 0x31 w i s { i.fail .aborted with detail := code } .aborted :=
  dump_aborts (exec_dumpRun e s) fun hs => ⟨rfl, (runAdv_first h hs.stage).trans (by rw [hb])⟩
variable (hb : s.dumpBar (dbits i.desc 0x11 1 1 == 1) = none)
include hb
theorem dumpRun_noContext (hc : s.freeCtx = none) : s.Ends (.dumpRun e) e 0x31 w i s { i.fail .aborted with detail := 0x80000001 } .aborted :=
  dump_aborts (exec_dumpRun e s) fun hs => ⟨rfl, (runAdv_first h hs.stage).trans (by rw [hb, hc]; rfl)⟩
theorem dumpRun_opens {n : Nat} (hc : s.freeCtx = some n) (hplan : tget [] s.dmp.plans (planId i.desc) ≠ [])
    (hroom : ((s.newCtx n i.desc w false false).ctx n).noSpace = false) :
    s.Sends (.dumpRun e) e 0x31 w i (s.newCtx n i.desc w false false)
      { ({ i with stage := 1, x := tput 0 [] 10 (n + 1) } : Item).emit ((s.newCtx n i.desc w false false).ctx n) 0
        ((s.newCtx n i.desc w false false).sdfHeader ((s.newCtx n i.desc w false false).ctx n) 0 0 0 0 0) with stage := 2 } :=
  State.sends_of_advances (k := 1) (exec_dumpRun e s) (by decide) fun hs => by
    rw [runAdv_first h hs.stage, hb, hc]
    dsimp only
    rw [if_neg hplan, hroom, if_neg Bool.false_ne_true, hs.x]
    generalize hu : s.newCtx n i.desc w false false = u
    have hi : u.item? w = some i := hu ▸ (item?_newCtx ..).trans hs.item
    refine .step hs.ring hi (hs.idle (stage := 1) rfl i.errs (tput 0 [] 10 (n + 1))) (.of_eq ?_)
    exact (if_neg (show ¬ (1 : Nat) = 0 by decide)).trans (dumpStep_opens hs.ring hi (tget_tput_self ..) hs.errs (hs.idle (stage := 1) rfl i.errs _).2.2.2.2.2.1 rfl)
end

/-! ### DUMP_TENSOR (R470, R471) -/

theorem tensorNote_first (h : i.stage = 0) : tensorNote s w i = s := if_neg fun hn => by rw [h] at hn; exact absurd hn.1 (by decide)
theorem dumpTensor_barred {code : Nat} (hb : s.dumpBar (dbits i.desc 0x11 1 1 == 1) = some code) :
    s.Ends (.dumpTensor e) e 0x32 w i s { i.fail .aborted with detail := code } .aborted :=
  dump_aborts (exec_dumpTensor e s) fun hs => ⟨tensorNote_first hs.stage, (if_pos hs.stage).trans (by simp only [tensorFirst, hb])⟩
section
variable (hb : s.dumpBar (dbits i.desc 0x11 1 1 == 1) = none)
include hb
theorem dumpTensor_noContext (hc : s.freeCtx = none) : s.Ends (.dumpTensor e) e 0x32 w i s { i.fail .aborted with detail := 0x80000001 } .aborted :=
  dump_aborts (exec_dumpTensor e s) fun hs => ⟨tensorNote_first hs.stage, (if_pos hs.stage).trans (by simp only [tensorFirst, hb, hc]; rfl)⟩
/-- The dump of a tensor begins with the base of its chip's shard map (R470). -/
theorem dumpTensor_begins {n : Nat} (hc : s.freeCtx = some n) (hone : ∀ k, k < 5 → (s.ctx k).state = .free ∨ (s.ctx k).tensor = false) :
    s.Sends (.dumpTensor e) e 0x32 w i (s.newCtx n i.desc w true false)
      { ({ i with x := tput 0 (tput 0 [] 10 (n + 1)) 18 1 } : Item).push [.rd (mapFabric i.desc) (wdaBase + 0x10) 8] with stage := 101 } :=
  State.row_sends tensorNote tensorAdv dumpRep (exec_dumpTensor e s) fun hs => by
    have hnone : (List.range 5).any (fun k => (s.ctx k).state != .free && (s.ctx k).tensor) = false := by
      rw [List.any_eq_false]
      intro k hk
      rcases hone k (List.mem_range.mp hk) with h | h <;> simp [h]
    have hx : tput 0 (tput 0 (tput 0 i.x 10 (n + 1)) 18 1) 19 i.nextIx = tput 0 (tput 0 [] 10 (n + 1)) 18 1 := by
      rw [hs.x, hs.nextIx]; simp [tput]
    refine ⟨tensorNote_first hs.stage, (if_pos hs.stage).trans ?_⟩
    simp only [tensorFirst, hb, hc, hnone, Bool.false_eq_true, if_false, hx]
end

/-! ### DUMP_RESUME and DUMP_ABORT (R455, R456) -/

theorem dumpResume_disabled (h : s.dmp.enable = false) : s.Ends (.dumpResume e) e 0x33 w i s { i.fail .aborted with detail := 0x80000007 } .aborted :=
  dump_aborts (exec_dumpResume e s) fun hs => ⟨rfl, by simp only [resumeAdv, hs.stage, h]; rfl⟩
section
variable (h : s.dmp.enable = true)
include h
theorem resumeAdv_first (hs : i.stage = 0) : resumeAdv s w i = match s.cursorHit i.desc with
    | none => s.setItem w (i.abortWith badCursor)
    | some n =>
      if (s.ctx n).state ≠ .suspended then s.setItem w (i.abortWith badCursor)
      else (s.setCtx n { (s.ctx n).rewind (db i.desc 0x10 4) with state := .running, work := some w }).setItem w
        { i with stage := if ({ (s.ctx n).rewind (db i.desc 0x10 4) with state := .running, work := some w } : Ctx).out < 512 then 1 else 3, x := tput 0 i.x 10 (n + 1) } :=
  (if_neg (by simp [hs])).trans (if_neg (by simp [h]))
theorem dumpResume_badCursor (hc : ∀ n, s.cursorHit i.desc = some n → (s.ctx n).state ≠ .suspended) :
    s.Ends (.dumpResume e) e 0x33 w i s { i.fail .aborted with detail := 0x80000006 } .aborted :=
  dump_aborts (exec_dumpResume e s) fun hs => ⟨rfl, (resumeAdv_first h hs.stage).trans (by
    cases hhit : s.cursorHit i.desc with
    | none => rfl
    | some n => exact if_pos (hc n hhit))⟩
theorem dumpResume_opens {n : Nat} {c : Ctx} (hhit : s.cursorHit i.desc = some n) (hsus : (s.ctx n).state = .suspended)
    (hc : c = { (s.ctx n).rewind (db i.desc 0x10 4) with state := .running, work := some w }) (hout : c.out < 512) :
    s.Sends (.dumpResume e) e 0x33 w i (s.setCtx n c)
      { ({ i with stage := 1, x := tput 0 [] 10 (n + 1) } : Item).emit c 0 ((s.setCtx n c).sdfHeader c 0 0 0 0 0) with stage := 2 } :=
  State.sends_of_advances (k := 1) (exec_dumpResume e s) (by decide) fun hs => by
    have hn : n < 5 := by
      by_contra hge
      simp [State.cursorHit] at hhit
      omega
    rw [resumeAdv_first h hs.stage, hhit]
    dsimp only
    subst hc
    rw [if_neg (not_not.mpr hsus), if_pos hout, hs.x]
    generalize { (s.ctx n).rewind (db i.desc 0x10 4) with state := .running, work := some w } = c
    have hi : (s.setCtx n c).item? w = some i := (item?_setCtx ..).trans hs.item
    have hopens := dumpStep_opens (j := { i with stage := 1, x := tput 0 [] 10 (n + 1) }) hs.ring hi (tget_tput_self ..) hs.errs
      (hs.idle (stage := 1) rfl i.errs _).2.2.2.2.2.1 rfl
    rw [State.ctx_setCtx_same _ _ _ hn] at hopens
    exact .step hs.ring hi (hs.idle (stage := 1) rfl i.errs (tput 0 [] 10 (n + 1))) (.of_eq ((if_pos (show (1 : Nat) ≠ 0 by decide)).trans hopens))
end

theorem updItem_eq_setItem (s : State) (w : Work) (g : Item → Item) : s.updItem w g = s ∨ ∃ j, s.updItem w g = s.setItem w j := by
  cases hi : s.item? w with
  | none => left; simp only [State.updItem, State.modItem, hi]
  | some i => exact .inr ⟨_, State.updItem_of_item hi g⟩
theorem item?_stopCtx {n why code : Nat} (h : (s.ctx n).work ≠ some w) : (s.stopCtx n why code).item? w = s.item? w := by
  unfold State.stopCtx
  cases hw : (s.ctx n).work with
  | none => rfl
  | some v =>
    have hne : w ≠ v := fun heq => h (heq ▸ hw)
    dsimp only
    rcases updItem_eq_setItem s v _ with hu | ⟨j, hu⟩
    · rw [hu]
    · rw [hu, item_setItem_ne s j hne]
theorem ctx_stopCtx (s : State) (n why code m : Nat) : (s.stopCtx n why code).ctx m = s.ctx m := by
  unfold State.stopCtx
  cases (s.ctx n).work with
  | none => rfl
  | some v => exact congrArg (fun d : Dmp => tget {} d.ctx m) (State.updItem_offWork s v _).dmp
theorem unparkCtx_running {n : Nat} (h : (s.ctx n).state = .running) : s.unparkCtx n = s := by
  unfold State.unparkCtx
  cases (s.ctx n).work with
  | none => rfl
  | some v => exact if_neg (by rw [h]; decide)

theorem dumpAbort_disarms (h : dbits i.desc 0x16 0 1 = 1) : s.Ends (.dumpAbort e) e 0x34 w i { s with dmp := { s.dmp with
    survArmed := false, survPlan := 0, survCompress := false, survCut := false, survBlock := 0, survBlocks := 0 } } i.done .ok :=
  dump_ends (exec_dumpAbort e s) fun hs => by
    refine ⟨rfl, (if_neg (by rw [hs.x]; simp [tget])).trans (if_pos ⟨hs.stage, h⟩), ?_⟩
    have hitem : State.item? { s with dmp := { s.dmp with survArmed := false, survPlan := 0, survCompress := false, survCut := false, survBlock := 0, survBlocks := 0 } } w =
      s.item? w := by cases w <;> rfl
    rw [hitem]; exact hs.isSome
section
variable (h : dbits i.desc 0x16 0 1 = 0)
include h
theorem abortAdv_first (hs : i.stage = 0) (hx : tget 0 i.x 10 = 0) : abortAdv s w i = match s.cursorHit i.desc with
    | none => s.setItem w (i.abortWith badCursor)
    | some n =>
      if (s.ctx n).state = .suspended then s.finishSuspended w i n
      else if (s.ctx n).state = .running ∨ (s.ctx n).state = .parked then
        ((s.stopCtx n 2 abortedBy).unparkCtx n).setItem w { i with stage := 1, wait := .ctl none, x := tput 0 i.x 11 (n + 1) }
      else s.setItem w (i.abortWith badCursor) := by
  refine ((if_neg (not_not.mpr hx)).trans (if_neg (by rw [h]; simp))).trans ?_
  cases s.cursorHit i.desc with
  | none => simp only [hs, if_true]
  | some n => simp only [hs, if_true, true_and]
theorem dumpAbort_badCursor (hc : s.cursorHit i.desc = none) : s.Ends (.dumpAbort e) e 0x34 w i s { i.fail .aborted with detail := 0x80000006 } .aborted :=
  dump_aborts (exec_dumpAbort e s) fun hs => ⟨rfl, (abortAdv_first h hs.stage (by rw [hs.x]; rfl)).trans (by rw [hc]; rfl)⟩
/-- A dump that runs is stopped, and the DUMP_ABORT waits for its end (R456). -/
theorem dumpAbort_stops {n : Nat} (hc : s.cursorHit i.desc = some n) (hrun : (s.ctx n).state = .running) (hother : (s.ctx n).work ≠ some w) :
    s.Waits (.dumpAbort e) e 0x34 w i (s.stopCtx n 2 0x80000009) { i with stage := 1, wait := .ctl none, x := tput 0 [] 11 (n + 1) } :=
  State.row_waits noCheck abortAdv dumpRep (exec_dumpAbort e s) fun hs => by
    refine ⟨rfl, (abortAdv_first h hs.stage (by rw [hs.x]; rfl)).trans ?_, by rw [item?_stopCtx hother]; exact hs.isSome, by simp⟩
    rw [hc, hs.x]
    dsimp only
    rw [if_neg (by rw [hrun]; decide), if_pos (.inl hrun)]
    have hrunning : ((s.stopCtx n 2 abortedBy).ctx n).state = .running := by rw [ctx_stopCtx]; exact hrun
    rw [unparkCtx_running hrunning]
    rfl
end
end

/-! ### STORE_DRAIN (R443, R457) -/

section
variable {s : State} {e : Nat} {w : Work} {i : Item}
theorem storeDrain_open (h : drainOpen i.desc = true) : s.Sends (.storeDrain e) e 0x35 w i s { i.push (hostReads (db i.desc 0x20 8) 512) with stage := 10 } :=
  State.row_sends noCheck drainAdv drainRep (exec_storeDrain e s) fun hs => ⟨rfl, (if_pos h).trans (if_pos hs.stage)⟩
section
variable (h : drainOpen i.desc = false)
include h
theorem storeDrain_noStore (hd : s.boot.dsSize = 0) : s.Ends (.storeDrain e) e 0x35 w i s { i.fail .aborted with detail := 0x80000005 } .aborted :=
  State.row_ends noCheck drainAdv drainRep (exec_storeDrain e s) fun hs => by
    refine ⟨rfl, ?_, hs.isSome, hs.ended (i.errs ++ [.aborted]) 0x80000005 i.x, ?_, hs.highest_aborted⟩
    · exact (if_neg (by simp [h])).trans ((if_pos hs.stage).trans (if_pos hd))
    · have hkeys : tget 0 i.x 0 = 0 ∧ tget 0 i.x 4 = 0 := by rw [hs.x]; exact ⟨rfl, rfl⟩
      refine (if_neg (show ¬ drainOpen i.desc = true by simp [h])).trans ((if_pos ⟨hkeys.1, hkeys.2, show (0x80000005 : Nat) ≠ 0 by decide⟩).trans ?_)
      show _ = (_, _, i.cursor)
      rw [hs.cursor]
end
end

/-! ### The first batch of a drain -/

theorem item?_freeWide (s : State) (n : Nat) (w : Work) : (s.freeWide n).2.item? w = s.item? w := by cases w <;> rfl
theorem hostWrites_nil (a : Nat) : hostWrites a [] = [] := rfl
/-- A drain's item once its salt is drawn. -/
def Item.salted (i : Item) (salt : List Byte) : Item := { i with stage := 1, rep := tput [] [] 8004 salt }
section
variable {s : State} {e : Nat} {w : Work} {i : Item} (hs : s.Starts e 0x35 w i)
include hs
theorem salted_idle (salt : List Byte) : (i.salted salt).idle := by
  rw [hs.fresh]; exact ⟨rfl, rfl, rfl, rfl, rfl, rfl, rfl, rfl⟩
theorem salted_drained (salt : List Byte) : (i.salted salt).drained = 0 := by
  rw [hs.fresh]; rfl
theorem drainFirst_salts (hd : s.boot.dsSize ≠ 0) :
    s.drainFirst w i = (s.freeWide 128).2.setItem w (i.salted (leBytes 16 (s.freeWide 128).1.toNat)) := by
  have hrep : i.rep = [] := by rw [hs.fresh]
  rw [State.drainFirst, if_neg hd, hrep]
  rfl
/-- A drain's first batch writes nothing, and reads as many blocks as there are to read and the host has room for. -/
theorem drainBatch_salted (u : State) (salt : List Byte) {k : Nat} (hk : k = Nat.min 128 (Nat.min (db i.desc 0x2C 4) (db i.desc 0x28 4))) :
    u.drainBatch w (i.salted salt) = if k = 0 then u.setItem w { (i.salted salt).done with
        errs := if db i.desc 0x28 4 < db i.desc 0x2C 4 then [.incomplete] else [] } else
      u.setItem w { i.push ((List.range (cdiv k 8)).map (fun q =>
        OpK.dsRd (512 * db i.desc 0x14 4 + 4096 * q) (512 * Nat.min 8 (k - 8 * q)))) with stage := 1, x := tput 0 [] 5 k, rep := tput [] [] 8004 salt } := by
  have hdrained := salted_drained hs salt
  obtain ⟨d, f, b, el, g, rfl⟩ := hs.form
  have hrep : tput [] (tput [] [] 8004 salt) 8003 [] = tput [] [] 8004 salt := by
    by_cases hsalt : salt = [] <;> simp [tput, hsalt]
  have hx : ∀ v, tput 0 (tput 0 (tput 0 (tput 0 (tput 0 (tput 0 ([] : Tab Nat) 0 0) 4 0) 5 0) 8 0) 5 v) 9 0 = tput 0 [] 5 v := by
    intro v
    by_cases hv : v = 0 <;> simp [tput, hv]
  have htags : tget [] (tput [] ([] : Tab (List Byte)) 8004 salt) 8003 = [] := tget_tput_ne _ _ _ _ _ (by decide)
  unfold State.drainBatch
  rw [if_neg (show ¬ ((Item.fresh d f b el g).salted salt).drained < tget 0 ((Item.fresh d f b el g).salted salt).x 4 by rw [hdrained]; exact Nat.not_lt_zero _)]
  simp only [Item.salted, fresh_fields] at hk ⊢
  have hroom : (if 0 < Nat.min (db d 0x2C 4) (db d 0x28 4) then Nat.min 128 (Nat.min (db d 0x2C 4) (db d 0x28 4) - 0) else 0) = k := by
    rw [hk, Nat.sub_zero]
    split
    · rfl
    · rename_i h
      rw [Nat.eq_zero_of_not_pos h]; rfl
  generalize Nat.min (db d 0x2C 4) (db d 0x28 4) = room at hroom
  simp only [tget, htags, List.range_zero, List.map_nil, sealedForm, List.append_nil, ne_eq, not_true_eq_false, and_false, if_false, hrep, hostWrites_nil,
    Item.push_nil, List.length_nil, Nat.zero_div, Nat.add_zero, Nat.mul_zero, cdiv, List.foldl_cons, List.foldl_nil, hroom, and_true, Item.done]
  by_cases h0 : k = 0
  · simp only [h0, if_true]
    rfl
  · simp only [h0, if_false, Item.push, fresh_fields, hx]
theorem drainBatch_setItem (u : State) (salt : List Byte) (j : Item) :
    (u.setItem w j).drainBatch w (i.salted salt) = u.drainBatch w (i.salted salt) := by
  simp only [drainBatch_salted hs _ _ rfl, setItem_setItem]
/-- After its salt is drawn, a drain goes on to its first batch. -/
theorem drain_advances (hopen : drainOpen i.desc = false) (hd : s.boot.dsSize ≠ 0) {v : State}
    (hv : (s.freeWide 128).2.drainBatch w (i.salted (leBytes 16 (s.freeWide 128).1.toNat)) = v) :
    State.Advances drainAdv w 1 (drainAdv s w i) v := by
  have hnot : ¬ drainOpen i.desc = true := by simp [hopen]
  have hfirst : drainAdv s w i = s.drainFirst w i := (if_neg hnot).trans (if_pos hs.stage)
  rw [hfirst, drainFirst_salts hs hd]
  refine .step hs.ring ((item?_freeWide ..).trans hs.item) (salted_idle hs _) (.of_eq ?_)
  exact (if_neg hnot).trans ((if_neg (show ¬ (1 : Nat) = 0 by decide)).trans ((drainBatch_setItem hs ..).trans hv))
end

/-! ### The dump store across the end of an item -/

theorem State.scanNext_store (s : State) : s.scanNext.store = s.store := by
  unfold State.scanNext; split <;> rfl
theorem State.finish_store (s : State) (w : Work) (st : Status) (det cur : Nat) : (s.finish w st det cur).store = s.store := by
  cases hi : s.item? w with
  | none => simp only [State.finish, hi]
  | some i =>
    obtain ⟨k, hk⟩ := openEnd_eq (s.endStrokesOf w) w i (st.code, lo32 det, cursorOf st cur)
    have hends : (s.endStrokesOf w).store = s.store := (State.endStrokesOf_offWork s w).keeps.store
    cases w with
    | ring n =>
      obtain ⟨k, hoff⟩ := (finish_ring hi st det cur).1
      exact (congrArg State.store hoff :)
    | scan =>
      simp only [State.finish, hi, State.scanNext_store]
      rw [hk]; exact hends
    | free n =>
      simp only [State.finish, hi]
      exact (State.dropItem_offWork _ _).keeps.store.trans (by rw [hk]; exact hends)
theorem State.drainWait_store (s : State) (w : Work) : (s.drainWait w).store = s.store := by
  unfold State.drainWait
  split
  · split
    · split
      · exact (State.killItem_offWork _ _ _).keeps.store
      · exact (State.killItem_offWork _ _ _).keeps.store
      · rfl
    · rfl
  · rfl

section
variable {s : State} {e : Nat} {w : Work} {i : Item} (hopen : drainOpen i.desc = false) (hd : s.boot.dsSize ≠ 0)
include hopen hd
theorem storeDrain_reads {k : Nat} (hk : k = Nat.min 128 (Nat.min (db i.desc 0x2C 4) (db i.desc 0x28 4))) (h0 : k ≠ 0) :
    s.Sends (.storeDrain e) e 0x35 w i (s.freeWide 128).2 { i.push ((List.range (cdiv k 8)).map (fun q =>
      OpK.dsRd (512 * db i.desc 0x14 4 + 4096 * q) (512 * Nat.min 8 (k - 8 * q)))) with
      stage := 1, x := tput 0 [] 5 k, rep := tput [] [] 8004 (leBytes 16 (s.freeWide 128).1.toNat) } :=
  State.sends_of_advances (k := 1) (exec_storeDrain e s) (by decide) fun hs =>
    drain_advances hs hopen hd ((drainBatch_salted hs _ _ hk).trans (if_neg h0))
/-- A drain of no blocks ends; the dump store is as it was. -/
theorem storeDrain_nothing (hn : db i.desc 0x2C 4 = 0) (hs : s.Starts e 0x35 w i) : ∃ t, exec (.storeDrain e) s = .next t ∧ t.store = s.store := by
  have hk : (0 : Nat) = Nat.min 128 (Nat.min (db i.desc 0x2C 4) (db i.desc 0x28 4)) := by
    rw [hn, show Nat.min 0 (db i.desc 0x28 4) = 0 from Nat.zero_min _]; rfl
  have hadv := drain_advances hs hopen hd ((drainBatch_salted hs _ _ hk).trans (if_pos rfl))
  refine ⟨_, State.exec_advances (exec_storeDrain e s) (by decide) hs hadv, ?_⟩
  obtain ⟨hfin, hparked, hwait, htodo, hout, -⟩ := salted_idle hs (leBytes 16 (s.freeWide 128).1.toNat)
  have hi : (s.freeWide 128).2.item? w = some i := (item?_freeWide ..).trans hs.item
  have hends := State.loop_ends (e := e) drainAdv drainRep 1997 (State.item?_setItem (j := { (i.salted (leBytes 16 (s.freeWide 128).1.toNat)).done with
    errs := if db i.desc 0x28 4 < db i.desc 0x2C 4 then [.incomplete] else [] }) hs.ring hi) hfin hparked hwait htodo hout (by simp [Item.over, Item.done])
  rw [State.drainWait_store]
  refine (congrArg State.store hends).trans ?_
  have hrep : ∀ (u : State) j st, (drainRep u w j st).1 = u := fun u j st => by unfold drainRep; split <;> [rfl; (split <;> rfl)]
  simp only [State.endItem, State.finish_store, hrep]
  exact (congrArg State.store (State.setItem_frame ..) :)
end

/-! ### O59 -/

/-- Settles O59: each clause is what the opcode's advance makes of a fresh item; a DUMP_RUN, a DUMP_RESUME and a drain go on to a second
stage within the stroke. -/
theorem dumpDescriptorsRun : Obligations.DumpDescriptorsRun := by
  intro s e w i
  refine ⟨dumpPlan_clears, dumpPlan_busy, dumpPlan_reads, ⟨dumpRun_arms, fun code hb => ⟨fun h => dumpRun_barred h hb, dumpTensor_barred hb⟩,
    fun hb hc => ⟨fun h => dumpRun_noContext h hb hc, dumpTensor_noContext hb hc⟩,
    fun n hb hc => ⟨fun t ht h hplan hroom => ?_, dumpTensor_begins hb hc⟩⟩,
    dumpResume_disabled, dumpResume_badCursor, fun n c h hhit hsus hc hout => dumpResume_opens h hhit hsus hc hout, dumpAbort_disarms, dumpAbort_badCursor,
    fun n h hc hrun hother => dumpAbort_stops h hc hrun hother, storeDrain_open, storeDrain_noStore,
    fun k hopen hd hk h0 => storeDrain_reads hopen hd hk h0, fun hopen hd hn hs => storeDrain_nothing hopen hd hn hs⟩
  subst ht
  exact dumpRun_opens h hb hc hplan hroom

end Sys2Proof.Machine


/-! PROOFS. The exchange with a core's monitor (O54): the chain whose tags the model asks for is not the chip's chain. -/
namespace Sys2Proof.Machine

theorem exec_monitorReplyPoll (n : Nat) (s : State) : exec (.monitorReplyPoll n) s = .next (s.monitorPoll n) := rfl
/-- A READ_REG of a context word of core 0 of chip 1, about to ask the core's monitor. -/
def asking : Item := ({ desc := 0x20, begun := true, stage := 3 } : Item).askMonitor 0 1024 0 1 false 0
/-- Chip 1, at position 1 of chain 0, is addressable; chain 1 has a transaction under every one of its tags, chain 0 has none. -/
def chainOneFull : State :=
  { pwr := { pllLock := true }, scan := { item := some asking }
    bhv := { chains := [(0, { state := .up, reach := 2, present := 3, addressable := 3 }),
      (1, { state := .up, reach := 1, present := 1, addressable := 1, txns := (List.range 64).map fun t => { tag := t, pos := 0, write := false, addr := 0, len := 8, issuer := .item (.ring 0) t, sentAt := 0, limit := 100 } })] } }
/-- Chip 1's exchange waits for a tag of chain 1. -/
theorem chainOneFull_waits : chainOneFull.monitorPoll 512 = chainOneFull := by
  have hfull : (chainOneFull.chain (tget 0 asking.x 20 / 1024)).tagFree true = false := by decide +kernel
  have hitem : chainOneFull.item? (workOf 512) = some asking := rfl
  have hwait : asking.wait = .ctl (some 0) := rfl
  simp only [State.monitorPoll, hitem, hwait]
  refine if_neg fun ⟨_, _, _, htag⟩ => ?_
  exact absurd (htag.symm.trans hfull) (by decide)

/-- Refutes O54: `State.monitorPoll` looks for a free tag in the chain whose number is the chip's (`unit / 1024`) and not in the chip's
chain (`unit / 1024 / 16`), so that the exchange with chip 1 does not end while chain 1 has no free tag, though chain 0, chip 1's own,
has 64. -/
theorem not_stepsAndMonitorExchangesPoll : ¬ Obligations.StepsAndMonitorExchangesPoll := by
  intro h
  obtain ⟨-, haborts, -⟩ := h.2 chainOneFull 512 0 1 0 asking rfl rfl (Nat.le_refl 0) rfl (by decide +kernel) (by decide +kernel) (by decide +kernel)
    (by decide +kernel) (by decide +kernel) (by decide) (by decide +kernel) (by decide +kernel) (by decide +kernel) (by decide +kernel)
  obtain ⟨t, j, hexec, -, hitem, hwait, -⟩ := haborts (by decide +kernel) (by decide +kernel) (by decide +kernel)
  rw [exec_monitorReplyPoll, chainOneFull_waits] at hexec
  cases hexec
  rw [← Option.some.inj hitem] at hwait
  exact absurd hwait (by decide +kernel)

end Sys2Proof.Machine

/-! PROOFS. What the chain controllers do for a cut (O55): stopped checks, drain polls and their deadline, link polls and their limit. -/
namespace Sys2Proof.Machine

theorem exec_cutStoppedPoll (f : Nat) (s : State) : exec (.cutStoppedPoll f) s = .next (s.cutStoppedPoll f) := rfl
theorem exec_drainPoll (s : State) : exec .drainPoll s = .next s.drainPoll := rfl
theorem exec_drainDeadline (s : State) : exec .drainDeadline s = .next s.drainDeadline := rfl
theorem exec_linkPoll (s : State) : exec .linkPoll s = .next s.linkPoll := rfl
theorem exec_linkLimitExpiry (s : State) : exec .linkLimitExpiry s = .next s.linkExpiry := rfl

/-! ### Halt pictures -/

/-- The CUT_COLLECT that goes on changes neither the cut nor a chip. -/
theorem State.cutWake_keeps (s : State) : s.cutWake.cut = s.cut ∧ s.cutWake.chips = s.chips :=
  ⟨(congrArg State.cut (s.mapItems_frame _) :), (congrArg State.chips (s.mapItems_frame _) :)⟩
theorem State.drainDone_chips (s : State) : s.drainDone.chips = s.chips := rfl
section
variable (x : CutChip) (t : Nat) (p : List Nat)
/-- A picture keeps whose it is and whether it is covered, and has not resumed it. -/
theorem CutChip.picture_keeps : (x.picture t p).f = x.f ∧ (x.picture t p).absent = x.absent ∧ (x.picture t p).resumed = x.resumed := by
  unfold CutChip.picture
  dsimp only
  split
  · split <;> exact ⟨rfl, rfl, rfl⟩
  · exact ⟨rfl, rfl, rfl⟩
variable {x p}
theorem CutChip.picture_stopped (hx : x.stopped = false) : (x.picture t p).stopped = picStopped p := by
  unfold CutChip.picture
  dsimp only
  by_cases h : picStopped p = true
  · rw [if_pos h, h]; split <;> rfl
  · rw [if_neg h]; simp [hx, h]
theorem CutChip.picture_still (hp : picStopped p = true) (hall : (picPend p).all (· == 0) = true) (hx : x.stillAt = none) : (x.picture t p).stillAt = some t := by
  unfold CutChip.picture
  dsimp only
  rw [if_pos hp, if_pos (by simp [hall, hx])]
theorem CutChip.picture_pending (hp : picStopped p = true) (hall : (picPend p).all (· == 0) = false) : (x.picture t p).stillAt = x.stillAt := by
  unfold CutChip.picture
  dsimp only
  rw [if_pos hp, if_neg (by simp [hall])]
theorem CutChip.draining_iff : x.draining = true ↔ x.covered = true ∧ x.resumed = false ∧ x.stillAt = none := by
  simp [CutChip.draining, and_assoc]
theorem CutChip.checked_iff : x.checked = false ↔ x.covered = true ∧ x.stopped = false ∧ x.reads < 10 := by
  simp [CutChip.checked, and_assoc]
end

/-! ### The stopped check of a collection of one chip (R416) -/

section
variable {s : State} {f : Nat} {x : CutChip} (hclock : s.fastClock = true) (htag : (s.chain (f / 16)).tagFree true = true)
include hclock htag
/-- The chip is noted as what its read makes of it. -/
theorem stoppedPoll_notes {y : CutChip} (hphase : s.cut.phase = 1) (hchips : s.cut.chips = [x]) (hf : x.f = f) (hx : x.checked = false) (hdue : x.due ≤ s.time)
    (hy : (s.ctlRead f (wdaBase + 0x200) 36 = none ∧ y = { x with absent := some (lostStatus ((s.issueStatus f).getD .chipAbsent)) }) ∨
      ∃ p, s.ctlRead f (wdaBase + 0x200) 36 = some p ∧ y = { x.picture s.time p with reads := x.reads + 1, due := s.time + 1000 }) :
    (s.cutStoppedPoll f).cut = { s.cut with chips := [y] } ∧ (s.cutStoppedPoll f).chips = s.chips := by
  have hchip : s.cut.chip? f = some x := by simp [Cut.chip?, hchips, hf]
  have hgo : ¬ (s.cut.phase ≠ 1 ∨ x.checked ∨ s.time < x.due ∨ !s.fastClock ∨ !(s.chain (f / 16)).tagFree true) := by
    simp [hphase, hx, hclock, htag, hdue]
  have hpoll : s.cutStoppedPoll f = (if (s.cut.modChip f fun _ => y).chips.all CutChip.checked then (s.setCut (s.cut.modChip f fun _ => y)).cutWake
      else s.setCut (s.cut.modChip f fun _ => y)) := by
    unfold State.cutStoppedPoll
    rw [hchip]
    dsimp only
    rw [if_neg hgo]
    rcases hy with ⟨hread, rfl⟩ | ⟨p, hread, rfl⟩ <;> rw [hread]
  have hcut : s.cut.modChip f (fun _ => y) = { s.cut with chips := [y] } := by
    simp [Cut.modChip, Cut.mapChips, hchips, hf]
  rw [hpoll, hcut]
  obtain ⟨hwake, hwakeChips⟩ := (s.setCut { s.cut with chips := [y] }).cutWake_keeps
  split
  · exact ⟨hwake, hwakeChips⟩
  · exact ⟨rfl, rfl⟩

/-! ### The drain of a collection of one chip (R417, R418) -/

/-- What a drain poll makes of a chip that answers. -/
def CutChip.drained (x : CutChip) (t : Nat) (p : List Nat) : CutChip := if picStopped p then x.picture t p else { x with resumed := true }
omit hclock htag in
/-- It is drained no longer once it is found still or resumed. -/
theorem CutChip.drained_draining (hx : x.draining = true) (t : Nat) (p : List Nat) :
    (x.drained t p).draining = (picStopped p && !(picPend p).all (· == 0)) := by
  obtain ⟨hcov, hres, hstill⟩ := CutChip.draining_iff.mp hx
  obtain ⟨-, habsent, hresumed⟩ := x.picture_keeps t p
  have hcovered : (x.picture t p).covered = true := by rw [CutChip.covered, habsent]; exact hcov
  cases hp : picStopped p with
  | false => simp [CutChip.drained, hp, CutChip.draining]
  | true =>
    cases hall : (picPend p).all (· == 0) with
    | true => simp [CutChip.drained, hp, CutChip.draining, CutChip.picture_still t hp hall hstill]
    | false => simp [CutChip.drained, hp, CutChip.draining, CutChip.picture_pending t hp hall, hstill, hresumed, hres, hcovered]
theorem drainPoll_notes {p : List Nat} (hphase : s.cut.phase = 2) (hchips : s.cut.chips = [x]) (hf : x.f = f) (hx : x.draining = true) (hdue : s.cut.pollDue ≤ s.time)
    (hread : s.ctlRead f (wdaBase + 0x200) 36 = some p) :
    s.drainPoll.chips = s.chips ∧ s.drainPoll.cut =
      if (x.drained s.time p).draining then { s.cut with chips := [x.drained s.time p], pollDue := s.time + 1000 }
      else (s.setCut { s.cut with chips := [x.drained s.time p], pollDue := s.time + 1000 }).drainDone.cut := by
  subst hf
  have htags : s.cutTags CutChip.draining = true := by simp [State.cutTags, hchips, htag]
  have hgo : ¬ (s.cut.phase ≠ 2 ∨ s.time < s.cut.pollDue ∨ !s.fastClock ∨ !s.cutTags CutChip.draining) := by
    simp [hphase, hdue, hclock, htags]
  have hpoll : s.drainPoll = if (x.drained s.time p).draining then s.setCut { s.cut with chips := [x.drained s.time p], pollDue := s.time + 1000 }
      else (s.setCut { s.cut with chips := [x.drained s.time p], pollDue := s.time + 1000 }).drainDone.cutWake := by
    unfold State.drainPoll
    rw [if_neg hgo]
    simp only [Cut.mapChips, hchips, List.map_cons, List.map_nil, hx, if_true, hread, List.any_cons, List.any_nil, Bool.or_false]
    rfl
  rw [hpoll]
  split
  · exact ⟨rfl, rfl⟩
  · obtain ⟨hwake, hwakeChips⟩ := (s.setCut { s.cut with chips := [x.drained s.time p], pollDue := s.time + 1000 }).drainDone.cutWake_keeps
    exact ⟨hwakeChips, hwake⟩
end
/-- The drain of one chip that was found still at this time ends at it. -/
theorem drainDone_drained {s : State} {y : CutChip} (hchips : s.cut.chips = [y]) (hcov : y.covered = true) (hstill : y.stillAt = some s.time) :
    s.drainDone.cut.drained = s.time := by
  unfold State.drainDone
  simp only [hchips, hcov, List.filter_cons_of_pos, List.filter_nil, List.filterMap_cons, hstill, List.filterMap_nil, List.foldl_cons, List.foldl_nil]
  rw [show Nat.max 0 s.time = s.time from Nat.max_eq_right (Nat.zero_le _)]
  show (if s.time = 0 then s.time else s.time) = s.time
  exact ite_self _
theorem State.drainPoll_early {s : State} (h : s.time < s.cut.pollDue) : s.drainPoll = s := if_pos (.inr (.inl h))
theorem State.drainDeadline_idle {s : State} (h : ¬ (s.drainPoll.cut.phase = 2 ∧ !s.drainPoll.cut.forced ∧ s.drainPoll.cut.ref + 1000 * s.drainPoll.cut.drainUs ≤ s.drainPoll.time ∧
    s.drainPoll.fastClock ∧ s.drainPoll.cutTags CutChip.draining)) : s.drainDeadline = s.drainPoll := if_neg h
/-- WDA_FORCE abandons the commands of the engines that are MUFFLING (R45, R418). -/
theorem Chip.regWrite_force (c : Chip) (f t : Nat) : c.regWrite f t (wdaBase + 0x400) 1 = c.force t := by
  unfold Chip.regWrite
  rw [if_pos (by unfold wdaBase; omega), Nat.add_sub_cancel_left]
  rfl
/-- At the deadline the one chip still draining is forced. -/
theorem drainDeadline_forces {s : State} {x : CutChip} (hclock : s.fastClock = true) (htag : (s.chain (x.f / 16)).tagFree true = true)
    (hphase : s.cut.phase = 2) (hforced : s.cut.forced = false) (hlimit : s.cut.ref + 1000 * s.cut.drainUs ≤ s.time) (hearly : s.time < s.cut.pollDue)
    (hchips : s.cut.chips = [x]) (hx : x.draining = true) :
    s.drainDeadline = (s.setCut { s.cut with forced := true }).ctlWrite x.f (wdaBase + 0x400) 1 := by
  have htags : s.cutTags CutChip.draining = true := by simp [State.cutTags, hchips, htag]
  unfold State.drainDeadline
  rw [State.drainPoll_early hearly, if_pos ⟨hphase, by simp [hforced], hlimit, hclock, htags⟩]
  simp [hchips, hx]
theorem ctlWrite_force {s : State} {f : Nat} (hf : f < 128) (haddr : s.addressable f = true) (hreset : (s.chip f).inReset = false) :
    (s.ctlWrite f (wdaBase + 0x400) 1).cut = s.cut ∧ (∀ g, g ≠ f → (s.ctlWrite f (wdaBase + 0x400) 1).chip g = s.chip g) ∧
    ∀ e, e < 512 → ((s.chip f).eng e).state = .muffling →
      (((s.ctlWrite f (wdaBase + 0x400) 1).chip f).eng e).state = .forced ∧ (((s.ctlWrite f (wdaBase + 0x400) 1).chip f).eng e).cause = 5 := by
  obtain ⟨c, p, hframe⟩ := s.ctlWrite_frame f (wdaBase + 0x400) 1
  refine ⟨by rw [hframe], fun g hg => State.chip_ctlWrite_ne hg s _ _, fun e he hmuffling => ?_⟩
  rw [State.chip_ctlWrite_same hf haddr hreset, Chip.regWrite_force, (Chip.force_engines _ _).2 e he, if_pos hmuffling]
  exact ⟨rfl, rfl⟩

/-! ### The links of a collection of one chip (R419, R434) -/

/-- The chip with the link STATEs of its answer, and which of them are awaited. -/
def State.linksRead (s : State) (x : CutChip) (p : List Nat) : CutChip :=
  let st := p.map (fun v => fld v 12 2)
  { x with links := st, awaited := (List.range 12).map (fun l => s.awaitable x.f l && (if x.awaited.isEmpty then 2 ≤ st.getD l 0 else x.awaited.getD l false)) }
/-- A link poll notes the STATEs read, and ends when every awaited link of the chip is MUFFLED. -/
theorem linkPoll_notes {s : State} {x : CutChip} {p : List Nat} (hclock : s.fastClock = true) (htag : (s.chain (x.f / 16)).tagFree true = true)
    (hphase : s.cut.phase = 3) (hchips : s.cut.chips = [x]) (hx : x.covered = true) (hdue : s.cut.pollDue ≤ s.time)
    (hread : s.ctlRead x.f (wdaBase + 0x100) 12 = some p) :
    s.linkPoll.chips = s.chips ∧
      s.linkPoll.cut = { s.cut with chips := [s.linksRead x p], pollDue := s.time + 1000, phase := if (s.linksRead x p).muffled then 0 else 3 } := by
  have htags : s.cutTags CutChip.covered = true := by simp [State.cutTags, hchips, htag]
  have hgo : ¬ (s.cut.phase ≠ 3 ∨ s.time < s.cut.pollDue ∨ !s.fastClock ∨ !s.cutTags CutChip.covered) := by
    simp [hphase, hdue, hclock, htags]
  have hpoll : s.linkPoll =
      if (s.linksRead x p).muffled then (s.setCut { s.cut with chips := [s.linksRead x p], pollDue := s.time + 1000, phase := 0 }).cutWake
      else s.setCut { s.cut with chips := [s.linksRead x p], pollDue := s.time + 1000, phase := 3 } := by
    unfold State.linkPoll
    rw [if_neg hgo]
    simp only [Cut.mapChips, hchips, List.map_cons, List.map_nil, hx, if_true, hread, List.all_cons, List.all_nil, Bool.and_true]
    change (if (s.linksRead x p).muffled
      then (s.setCut { s.cut with chips := [s.linksRead x p], pollDue := s.time + 1000, phase := if (s.linksRead x p).muffled then 0 else 3 }).cutWake
      else s.setCut { s.cut with chips := [s.linksRead x p], pollDue := s.time + 1000, phase := if (s.linksRead x p).muffled then 0 else 3 }) = _
    split <;> rfl
  rw [hpoll]
  split
  · obtain ⟨hwake, hwakeChips⟩ := State.cutWake_keeps (s.setCut { s.cut with chips := [s.linksRead x p], pollDue := s.time + 1000, phase := 0 })
    exact ⟨hwakeChips, hwake⟩
  · exact ⟨rfl, rfl⟩
theorem State.linkPoll_early {s : State} (h : s.time < s.cut.pollDue) : s.linkPoll = s := if_pos (.inr (.inl h))
theorem linkExpiry_ends {s : State} {x : CutChip} (hphase : s.cut.phase = 3) (hlimit : s.cut.linkFrom + 1000 * s.cut.linkUs ≤ s.time)
    (hearly : s.time < s.cut.pollDue) (hchips : s.cut.chips = [x]) (hx : x.covered = true → x.awaited.length = 12) :
    s.linkExpiry.cut = { s.cut with phase := 0 } ∧ s.linkExpiry.chips = s.chips := by
  have hall : s.cut.chips.all (fun x => !x.covered || x.awaited.length == 12) = true := by
    rw [hchips]
    cases hcov : x.covered <;> simp [hcov]
    exact hx hcov
  unfold State.linkExpiry
  simp only [hlimit, if_true, State.linkPoll_early hearly]
  rw [if_pos ⟨hphase, trivial, hall⟩]
  exact State.cutWake_keeps _

/-! ### O55 -/

/-- Settles O55: each poll of a collection of one chip notes what its read makes of the chip, and ends its phase when nothing is left to
poll; a deadline or limit whose poll is not due acts on the chip as it is. -/
theorem cutControllersPoll : Obligations.CutControllersPoll := by
  intro s f x hclock htag
  refine ⟨fun hphase hchips hf hx hdue hread => ?_, fun p hphase hchips hf hx hdue hread => ?_, fun p hphase hchips hf hx hdue hread => ?_,
    fun hphase hforced hlimit hearly hchips hf hx hf' haddr hreset => ?_, fun hphase hearly h => ?_,
    fun p hphase hchips hf hx hdue hread hp hall => ?_, fun p hphase hchips hf hx hdue hread => ?_, fun hphase hlimit hearly hchips hx => ?_⟩
  · obtain ⟨hcut, hkept⟩ := stoppedPoll_notes hclock htag hphase hchips hf hx hdue (.inl ⟨hread, rfl⟩)
    exact ⟨_, rfl, hkept, _, congrArg Cut.chips hcut, rfl, hf, (congrArg Cut.phase hcut).trans hphase⟩
  · obtain ⟨hcut, hkept⟩ := stoppedPoll_notes hclock htag hphase hchips hf hx hdue (.inr ⟨p, hread, rfl⟩)
    obtain ⟨-, hstopped, -⟩ := CutChip.checked_iff.mp hx
    exact ⟨_, _, rfl, hkept, congrArg Cut.chips hcut, CutChip.picture_stopped _ hstopped, rfl, rfl, (x.picture_keeps _ _).1.trans hf⟩
  · obtain ⟨hkept, hcut⟩ := drainPoll_notes hclock htag hphase hchips hf hx hdue hread
    obtain ⟨hcov, -, hstill⟩ := CutChip.draining_iff.mp hx
    have hmore := CutChip.drained_draining hx s.time p
    refine ⟨_, x.drained s.time p, rfl, hkept, by rw [hcut]; split <;> rfl, fun hp => ?_, fun hp hall => ?_, fun hp hall => ?_⟩
    · rw [hcut, hmore, hp]
      exact ⟨by simp [CutChip.drained, hp], rfl⟩
    · have hy : x.drained s.time p = x.picture s.time p := if_pos hp
      have hsome := CutChip.picture_still s.time hp hall hstill
      have hcovered : (x.picture s.time p).covered = true := by rw [CutChip.covered, (x.picture_keeps s.time p).2.1]; exact hcov
      rw [hcut, hmore, hp, hall, hy]
      exact ⟨hsome, rfl, drainDone_drained (s := s.setCut { s.cut with chips := [x.picture s.time p], pollDue := s.time + 1000 }) rfl hcovered hsome⟩
    · have hy : x.drained s.time p = x.picture s.time p := if_pos hp
      rw [hcut, hmore, hp, hall, hy]
      exact ⟨(CutChip.picture_pending s.time hp hall).trans hstill, hphase, rfl⟩
  · subst hf
    rw [exec_drainDeadline, drainDeadline_forces hclock htag hphase hforced hlimit hearly hchips hx]
    obtain ⟨hcut, hothers, hengines⟩ := ctlWrite_force (s := s.setCut { s.cut with forced := true }) hf' haddr hreset
    exact ⟨_, rfl, hcut, hothers, hengines⟩
  · have hpoll := State.drainPoll_early hearly
    rw [exec_drainDeadline, State.drainDeadline_idle, hpoll]
    rw [hpoll]
    rintro ⟨-, hforced, hlimit, -⟩
    exact h.elim (fun h => by simp [h] at hforced) (fun h => by omega)
  · obtain ⟨hkept, hcut⟩ := drainPoll_notes hclock htag hphase hchips hf hx hdue hread
    have hends : (x.drained s.time p).draining = false := by rw [CutChip.drained_draining hx, hp, hall]; rfl
    rw [hends, if_neg Bool.false_ne_true] at hcut
    have hover : s.drainPoll.cut.phase = 0 := congrArg Cut.phase hcut
    rw [exec_drainDeadline, State.drainDeadline_idle fun ⟨h, _⟩ => absurd (hover.symm.trans h) (by decide)]
    exact ⟨_, rfl, hover, (congrArg Cut.forced hcut :), hkept⟩
  · subst hf
    obtain ⟨hkept, hcut⟩ := linkPoll_notes hclock htag hphase hchips hx hdue hread
    exact ⟨_, _, rfl, hkept, congrArg Cut.chips hcut, rfl, congrArg Cut.phase hcut⟩
  · obtain ⟨hcut, hkept⟩ := linkExpiry_ends hphase hlimit hearly hchips hx
    exact ⟨_, rfl, hcut, hkept⟩

end Sys2Proof.Machine
